-- ==== Sys2Proof/Word.lean ====
section
/-! DEFINITION. The 24-bit word, the byte and the plain conversions of them (R6, R7). -/
namespace Sys2Proof

/-- A 24-bit word (R6). -/
abbrev Word := BitVec 24

/-- A byte. -/
abbrev Byte := BitVec 8

/-- A word from a number, modulo 2^24. -/
abbrev wd (n : Nat) : Word := BitVec.ofNat 24 n

/-- A byte from a number, modulo 2^8. -/
abbrev by8 (n : Nat) : Byte := BitVec.ofNat 8 n

end Sys2Proof
end

