-- ==== Sys2Proof/Syntax.lean ====
section
/-! DEFINITION. The commands of the TG-3204: one constructor for each row of the table, with the row's operands. -/
namespace Sys2Proof

/-- An engine, E0 to E191 (R97). -/
abbrev Eng := Fin 192
/-- A general register number (R99). -/
abbrev Reg := Fin 16
/-- A lantern (R97). -/
abbrev Lan := Fin 24
/-- A port P0 to P31 (R5). -/
abbrev Port := Fin 32
/-- A PON channel C0 to C3 (R5). -/
abbrev Chan := Fin 4
/-- A lane: L0 to L31, PL0, PL1 (R5). -/
abbrev LaneI := Fin 34
/-- A host chain or host postbox (R192, R202). -/
abbrev ChainI := Fin 8
/-- A unit number, 0x01 to 0x1B (R4), and an instance of it (R5), as the unit word address gives them (R9). -/
abbrev UnitI := Fin 64
/-- An instance number (R9). -/
abbrev InstI := Fin 256

/-- What a downstream PHY frame of a PON channel carries, in its order (R250 to R275): an XGEM payload as the line carries it, with
its port-ID, key index, position in the frame, whether it is its frame's first and last fragment, whether its header was corrected, and whether
the buffer toward the fabric is full for it (R86); a span lost to a header that could not
be corrected, with the port-IDs whose fragments were in it; a PLOAM message of 48 bytes; a grant with its burst profile,
length in bytes and StartTime in periods of 1 / 49.7664 GHz from the frame; a serial-number grant; a ranging grant; FEC statistics; a power level. -/
inductive PonItem where
  | xgem (port key pos : Nat) (first last corrected full : Bool) (payload : List Byte)
  | lost (bytes : Nat) (ports : List Nat)
  | ploam (message : List Byte)
  | grant (alloc prof len start : Nat) (dbru ploam : Bool)
  | serialGrant
  | rangingGrant (onu prof len start : Nat)
  | fec (bits words uncorrectable : Nat)
  | power (level : Fin 3)
deriving DecidableEq, Repr

/-- A mirror record of a pair (R386, R591): the next PN of a context, or an install, a withdrawal or a switch. -/
inductive MirrorItem where
  | pn (ctx pn : Nat)
  | install (ctx : Nat)
  | withdraw (ctx : Nat)
  | switched (ch an : Nat)
deriving DecidableEq, Repr

/-- What the host has written to the configuration registers of the endpoint function (R183, R187): the bases of BAR0 and BAR2, the Max Payload
Size and the Max Read Request Size as codes (0: 128, 1: 256, 2: 512 bytes), whether the function is in D3hot, and the bits of the AER
uncorrectable error status that it clears. -/
structure PcieCfg where
  bar0 : BitVec 64
  bar2 : BitVec 64
  mps : Fin 3
  mrrs : Fin 3
  d3hot : Bool
  aerClear : BitVec 32
deriving DecidableEq, Repr

/-- A register that holds the near address of an instruction, and whether the word there holds an uncorrectable ECC error (R104). -/
structure AddrReg where
  reg : Reg
  bad : Bool
deriving DecidableEq, Repr

/-- An ECC error at an engine: an uncorrectable one in a word that it fetches, or a single-bit one (R104). -/
structure EccHit where
  e : Eng
  single : Bool
deriving DecidableEq, Repr

/-- A word written to ECTL that may step an engine, and whether the instruction's own word, or the data word that it reads, holds an uncorrectable ECC
error (R104, R684). -/
structure StepWord where
  v : Word
  fetch : Bool
  bad : Bool
deriving DecidableEq, Repr

/-- A letter read again: the words, as for LETTER_FETCHED, and how a read of host memory ended: 0 with data, 1 Unsupported Request, 2 Completer
Abort, 3 poison (R194, R199). -/
structure LetterRead where
  w : List (BitVec 32)
  err : Fin 4
deriving DecidableEq, Repr

/-- What ended the transfer of a READ letter: a completion error, as in LetterRead, and the partial line whose seal fails (1 the first, 2 the last, 0
none) (R198, R199, R480). -/
structure MoveEnd where
  err : Fin 4
  bad : Fin 3
deriving DecidableEq, Repr

/-- A read of a chain that did not complete in time, and what host memory had returned by then (R199). -/
structure LateRead where
  n : ChainI
  bytes : List Byte
deriving DecidableEq, Repr

/-- The rate, 1 to 5, and the width in lanes of a PCIe link that is up (R183, R204). -/
structure PcieLink where
  rate : Fin 6
  width : Fin 5
deriving DecidableEq, Repr

/-- An MSI-X table entry as the host writes it: its number, message address and data, and mask bit (R186, R205). -/
structure MsixWrite where
  v : Fin 32
  addr : BitVec 64
  data : BitVec 32
  mask : Bool
deriving DecidableEq, Repr

/-- MSI-X Enable and Function Mask (R205). -/
structure MsixCtl where
  en : Bool
  fm : Bool
deriving DecidableEq, Repr

/-- What the alignment markers of a lane show: the logical lane they name, and its skew in ns against the earliest lane (R297, R301). -/
structure Markers where
  place : Fin 4
  skew : Nat
deriving DecidableEq, Repr

/-- What a receiver has measured in the last ms: the signal-to-noise ratio, symbol errors, and corrected and uncorrected FEC codewords (R310, R311). -/
structure RxFigures where
  v : BitVec 24
  symbols : Nat
  corrected : Nat
  uncorrected : Nat
deriving DecidableEq, Repr

/-- A frame as the line brings it, FCS included, and the ns since the first symbol after its SFD (R331). -/
structure Arrival where
  sfd : Nat
  bytes : List Byte
deriving DecidableEq, Repr

/-- A frame of the site bus, FCS included, and the partial line of its ring entry whose seal fails (1 the first, 2 the last, 0 none) (R342, R480). -/
structure RingFrame where
  bytes : List Byte
  bad : Fin 3
deriving DecidableEq, Repr

/-- A frame whose last cell is written, by its number among those inside the module, and whether a word of it will fail its parity check as an engine
queue or a host queue reads it (R429). -/
structure LastCell where
  f : Nat
  parity : Bool
deriving DecidableEq, Repr

/-- What a service decision is for: the preemptable selection of a port with preemption active, and the next gate change (R316, R444). -/
structure Decision where
  pre : Bool
  ahead : Bool
deriving DecidableEq, Repr

/-- A channel whose retraining falls due: by its PHY's temperature change in °C since the last training, or by the interval where there is none (R467). -/
structure Retrain where
  c : Fin 32
  deg : Option Nat
deriving DecidableEq, Repr

/-- What a read of a line has found: whether its seal verifies, and how many bits ECC corrected (R475, R476). -/
structure LineRead where
  ok : Bool
  fix : Nat
deriving DecidableEq, Repr

/-- A command: an operation or an event of the table, with the operands it carries. An operand that stands for the outside world (a reading, a frame's bytes, an outcome of a physical process) says what the world brings. -/
inductive Instr where
  /-- POWER_ON (R674): A feed reaching -40.5 V after collapse or from cold starts the power-on sequence at step 1. a, b: which feeds have reached -40.5 V; good: whether the core rail reports power-good within step 1's bound. -/
  | powerOn (a b good : Bool)
  /-- RAIL_START_RETRY (R675): Core power-good missing within step 1's bound drops the rails and retries step 1 every 100 ms. good: whether the core rail reports power-good this time. -/
  | railStartRetry (good : Bool)
  /-- RST_N_RESET (R73): RST_N held low long enough resets the module, and start-up runs from step 2. low: how long RST_N was low, in ns; takes: whether a pulse of 1 us to 10 us resets the module. -/
  | rstNReset (low : Nat) (takes : Bool)
  /-- CRYSTAL_READY (R674): The crystal reports ready and start-up continues with the random source, DRAM training and memory keys. -/
  | crystalReady
  /-- CRYSTAL_START_TIMEOUT (R581): The crystal fails to report ready within 50 ms; it is restarted, and after three failures the core runs without islands. -/
  | crystalStartTimeout
  /-- DRAM_TRAINED (R471): Every DRAM channel completes initial training, and MPE draws the memory keys. -/
  | dramTrained
  /-- BOOT_HANDOVER (R677): Once E0 reads STOPPED the lantern-0 loader writes E0's sections and starts stage 1 with its boot message. -/
  | bootHandover
  /-- RECOVERY_IMAGE_CHECK (R678): A MSG letter to postbox 0 makes ROM check the host-placed image and reply to host postbox 0xF0. signer: the signer record that ROM takes for the image. -/
  | recoveryImageCheck (signer : List Byte)
  /-- RECOVERY_BROADCAST (R679): Once per second in recovery ROM sends a site-bus broadcast with EtherType 0x88B6. -/
  | recoveryBroadcast
  /-- FEED_LOSS (R36): One feed is lost while the other stays in range; the module records the event without interruption. b: feed B, else feed A. -/
  | feedLoss (b : Bool)
  /-- FEED_RETURN (R36): A lost feed returns; the module records the event. b: feed B, else feed A. -/
  | feedReturn (b : Bool)
  /-- ISLAND_RAIL_SAG (R91): Core and island rails fall past the hold point; the fabric slows and lane and PON PLLs lose lock. -/
  | islandRailSag
  /-- DRAM_PHY_LOCK_LOST (R469): A DRAM PHY loses lock; the next read fails its seal and the module halts. line, master: the next read on the channel. -/
  | dramPhyLockLost (c : Fin 32) (line : Nat) (master : Fin 64)
  /-- COLLAPSE (R95): The always-on rail falls below range; every domain goes off and outputs take their released states. -/
  | collapse
  /-- COMMIT_BUFFER_FLUSH (R94): The recorder's commit buffer is committed atomically when it holds 64 records or 10 ms after its first record. -/
  | commitBufferFlush
  /-- TJ_SAMPLE (R582): Every 100 us the sixteen sensors are read and TJ receives the highest reading and its sensor. The highest reading in 0.1 °C, and its sensor. -/
  | tjSample (t : BitVec 16) (sensor : Fin 16)
  /-- VCORE_RESULT (R584): Every 100 us the core voltage result is written to VCORE. -/
  | vcoreResult (mv : BitVec 12)
  /-- ADD (R136): Adds ra and rb into rd and sets Z, N, C and V. -/
  | add (e : Eng) (rd ra rb : Reg)
  /-- ADDC (R136): Adds ra, rb and C into rd and sets the flags. -/
  | addc (e : Eng) (rd ra rb : Reg)
  /-- SUB (R136): Subtracts rb from ra into rd and sets the flags. -/
  | sub (e : Eng) (rd ra rb : Reg)
  /-- SUBC (R136): Subtracts rb and C from ra into rd and sets the flags. -/
  | subc (e : Eng) (rd ra rb : Reg)
  /-- AND (R136): Bitwise AND of ra and rb into rd, setting Z and N. -/
  | and (e : Eng) (rd ra rb : Reg)
  /-- OR (R136): Bitwise OR of ra and rb into rd, setting Z and N. -/
  | or (e : Eng) (rd ra rb : Reg)
  /-- XOR (R136): Bitwise XOR of ra and rb into rd, setting Z and N. -/
  | xor (e : Eng) (rd ra rb : Reg)
  /-- ANDN (R136): ra AND NOT rb into rd, setting Z and N. -/
  | andn (e : Eng) (rd ra rb : Reg)
  /-- SHL (R137): Shifts ra left by rb[4:0] into rd with the last bit out in C. -/
  | shl (e : Eng) (rd ra rb : Reg)
  /-- SHR (R137): Shifts ra right with zero fill into rd with the last bit out in C. -/
  | shr (e : Eng) (rd ra rb : Reg)
  /-- SAR (R137): Shifts ra right with sign fill into rd with the last bit out in C. -/
  | sar (e : Eng) (rd ra rb : Reg)
  /-- ROL (R136): Rotates ra left by rb[4:0] mod 24 into rd. -/
  | rol (e : Eng) (rd ra rb : Reg)
  /-- MUL (R136): Writes product bits [23:0] of ra and rb to rd. -/
  | mul (e : Eng) (rd ra rb : Reg)
  /-- MULH (R136): Writes signed product bits [47:24] to rd. -/
  | mulh (e : Eng) (rd ra rb : Reg)
  /-- MULHU (R136): Writes unsigned product bits [47:24] to rd. -/
  | mulhu (e : Eng) (rd ra rb : Reg)
  /-- DIV (R138): Signed division rounding toward zero, trapping on a zero divisor. -/
  | div (e : Eng) (rd ra rb : Reg)
  /-- DIVU (R138): Unsigned division, trapping on a zero divisor. -/
  | divu (e : Eng) (rd ra rb : Reg)
  /-- REM (R138): Signed remainder with the sign of ra, trapping on a zero divisor. -/
  | rem (e : Eng) (rd ra rb : Reg)
  /-- REMU (R138): Unsigned remainder, trapping on a zero divisor. -/
  | remu (e : Eng) (rd ra rb : Reg)
  /-- MIN (R136): Writes the signed minimum of ra and rb to rd. -/
  | min (e : Eng) (rd ra rb : Reg)
  /-- MAX (R136): Writes the signed maximum of ra and rb to rd. -/
  | max (e : Eng) (rd ra rb : Reg)
  /-- MINU (R136): Writes the unsigned minimum of ra and rb to rd. -/
  | minu (e : Eng) (rd ra rb : Reg)
  /-- MAXU (R136): Writes the unsigned maximum of ra and rb to rd. -/
  | maxu (e : Eng) (rd ra rb : Reg)
  /-- CLZ (R136): Writes the leading-zero count of ra to rd. -/
  | clz (e : Eng) (rd ra : Reg)
  /-- EXTB (R136): Extracts byte rb[1:0] of ra, zero-extended, into rd. -/
  | extb (e : Eng) (rd ra rb : Reg)
  /-- ADDI (R139): Adds the sign-extended IMM10 to ra into rd. -/
  | addi (e : Eng) (rd ra : Reg) (imm : BitVec 10)
  /-- SUBI (R139): Subtracts the sign-extended IMM10 from ra into rd. -/
  | subi (e : Eng) (rd ra : Reg) (imm : BitVec 10)
  /-- ANDI (R139): ANDs ra with the zero-extended IMM10 into rd. -/
  | andi (e : Eng) (rd ra : Reg) (imm : BitVec 10)
  /-- ORI (R139): ORs ra with the zero-extended IMM10 into rd. -/
  | ori (e : Eng) (rd ra : Reg) (imm : BitVec 10)
  /-- XORI (R139): XORs ra with the zero-extended IMM10 into rd. -/
  | xori (e : Eng) (rd ra : Reg) (imm : BitVec 10)
  /-- SHI (R139): Shifts or rotates ra by an immediate amount as IMM10[9:8] selects. kind is IMM10[9:8], amt is IMM10[4:0]. -/
  | shi (e : Eng) (rd ra : Reg) (kind : Fin 4) (amt : BitVec 5)
  /-- LDI (R140): Writes the 24-bit second word to rd without changing flags. -/
  | ldi (e : Eng) (rd : Reg) (imm : Word)
  /-- EXT (R141): Extracts a bit field of ra right-aligned into rd. wm1 is the width minus one. -/
  | ext (e : Eng) (rd ra : Reg) (pos : Fin 24) (wm1 : BitVec 5)
  /-- INS (R141): Inserts the low bits of ra into a field of rd. wm1 is the width minus one. -/
  | ins (e : Eng) (rd ra : Reg) (pos : Fin 24) (wm1 : BitVec 5)
  /-- ILLEGAL_ENCODING (R132): An unassigned encoding, non-zero zero field, bad pair or quad raises the illegal trap. w0 is the encoding, w1 the word after it. -/
  | illegalEncoding (e : Eng) (w0 w1 : Word)
  /-- B (R142): Branches by OFF13 when COND holds, trapping on a target outside instruction memory. -/
  | b (e : Eng) (cond : Fin 19) (off : BitVec 13)
  /-- JMP (R143): Sets pc to TARGET. -/
  | jmp (e : Eng) (target : BitVec 15)
  /-- CALL (R143): Saves the return address in g15 and sets pc to TARGET. -/
  | call (e : Eng) (target : BitVec 15)
  /-- JR (R143): Jumps to ra[14:0], optionally writing the return address to rd. -/
  | jr (e : Eng) (rd ra : Reg)
  /-- LD (R145): Loads a near word at ra plus IMM10 into rd. bad: the word read holds an uncorrectable ECC error (R104). -/
  | ld (e : Eng) (rd ra : Reg) (imm : BitVec 10) (bad : Bool)
  /-- ST (R145): Stores rd to a near word at ra plus IMM10. -/
  | st (e : Eng) (rd ra : Reg) (imm : BitVec 10)
  /-- XADD (R145): Indivisibly returns a near word and adds rb to it. ra: with whether the word at its address is bad, as for LD. -/
  | xadd (e : Eng) (rd : Reg) (ra : AddrReg) (rb : Reg)
  /-- CAS (R145): Indivisibly compares a near word with rd and on equality replaces it with rb. ra: as for XADD. -/
  | cas (e : Eng) (rd : Reg) (ra : AddrReg) (rb : Reg)
  /-- PLD1 (R148): Loads one byte of the packet window at a byte offset into rd. -/
  | pld1 (e : Eng) (rd ra : Reg) (imm : BitVec 10)
  /-- PLD2 (R148): Loads two bytes of the packet window at a byte offset into rd. -/
  | pld2 (e : Eng) (rd ra : Reg) (imm : BitVec 10)
  /-- PLD3 (R148): Loads three bytes of the packet window at a byte offset into rd. -/
  | pld3 (e : Eng) (rd ra : Reg) (imm : BitVec 10)
  /-- PST1 (R148): Stores the low byte of rd into the packet window. -/
  | pst1 (e : Eng) (rd ra : Reg) (imm : BitVec 10)
  /-- PST2 (R148): Stores the low two bytes of rd into the packet window. -/
  | pst2 (e : Eng) (rd ra : Reg) (imm : BitVec 10)
  /-- PST3 (R148): Stores the low three bytes of rd into the packet window. -/
  | pst3 (e : Eng) (rd ra : Reg) (imm : BitVec 10)
  /-- TAKE (R149): Takes the oldest frame of the engine's queue into the window, or the idle item with NR set. -/
  | take (e : Eng)
  /-- FRAME_ARRIVAL_IN_WINDOW (R151): The next frame's descriptor and first 192 bytes arrive, completing a waiting TAKE or stalled window load. rest: the remaining bytes of the window's frame arrive, not the head of the next one. -/
  | frameArrivalInWindow (e : Eng) (rest : Bool)
  /-- SEND (R149): Hands the window's frame with its descriptor to queue QUEUE. -/
  | send (e : Eng)
  /-- DROP (R149): Discards the window's frame and counts it as a program drop. -/
  | drop (e : Eng)
  /-- ADJ (R149): Inserts or removes bytes at the front of the window's frame and changes LEN. -/
  | adj (e : Eng) (rb : Reg)
  /-- FLD (R152): Issues a single far load into rd after the alignment, bound and rights checks. -/
  | fld (e : Eng) (rd ra : Reg) (size : Fin 4)
  /-- FAR_LOAD_DATA_RETURN (R153): The data of an outstanding FLD arrives and is written to its register. k: the serial number of the far load. -/
  | farLoadDataReturn (e : Eng) (k : Nat)
  /-- FST (R152): Issues a single far store of rd's low bytes. -/
  | fst (e : Eng) (rd ra : Reg) (size : Fin 4)
  /-- FBL (R152): Issues a block load from far memory to shared memory. fn: lines minus one. -/
  | fbl (e : Eng) (ra rb : Reg) (fn : BitVec 6)
  /-- FBS (R152): Issues a block store from shared memory to far memory. fn: lines minus one. -/
  | fbs (e : Eng) (ra rb : Reg) (fn : BitVec 6)
  /-- FAR_ACCESS_COMPLETE (R127): An outstanding far store or block access completes, freeing its far-port place. k: the serial number of the far access. -/
  | farAccessComplete (e : Eng) (k : Nat)
  /-- FENCE (R107): Stalls the engine until earlier far accesses complete and earlier SETs are accepted. -/
  | fence (e : Eng)
  /-- SET (R155): Issues a write of a value to a unit word without waiting for acceptance. -/
  | set (e : Eng) (ra rb : Reg)
  /-- GET (R155): Reads a unit word, stalling until the unit answers. -/
  | get (e : Eng) (rd ra : Reg)
  /-- GET_ANSWER (R157): The unit answers a GET with the value in effect, or NR for a result not ready. -/
  | getAnswer (e : Eng)
  /-- COMMIT (R155): Issues a commit of one unit instance's shadowed words. -/
  | commit (e : Eng) (ra : Reg)
  /-- POST (R158): Sends a message from a register quad to a postbox and stalls for its grant. -/
  | post (e : Eng) (q : Fin 4) (rb : Reg)
  /-- POSTBOX_ARBITRATION (R117): A POST reaching the destination arbiter is granted a place or refused round-robin. d: the destination postbox; at_: the engines whose POSTs reach its arbiter at this turn. -/
  | postboxArbitration (d : BitVec 8) (at_ : List Eng)
  /-- MESSAGE_COLLECTABLE (R108): A granted message becomes collectable once the sender's earlier stores and SETs are visible. d: the postbox; e and k: the sender and the serial number of its POST. -/
  | messageCollectable (d : BitVec 8) (e : Eng) (k : Nat)
  /-- COLLECT (R118): Takes the oldest postbox message into a register quad, or zeros with NR on empty. -/
  | collect (e : Eng) (q : Fin 4)
  /-- WATCH (R160): Arms the watch on a shared-memory word and clears the watch latch. -/
  | watch (e : Eng) (ra : Reg)
  /-- TIMEAT (R161): Arms the engine's wake time and clears the time latch. -/
  | timeat (e : Eng) (ra : Reg)
  /-- TIMEAT_DISARM (R161): TIMEAT with FN 1 disarms the wake time and clears the latch. -/
  | timeatDisarm (e : Eng)
  /-- TIME_LATCH_SET (R162): The time counter reaches an engine's wake time and sets its time latch. -/
  | timeLatchSet (e : Eng)
  /-- WAIT (R163): Completes if a selected condition holds, otherwise puts the engine in WAITING. -/
  | wait (e : Eng) (conds : BitVec 4)
  /-- WAIT_WAKE (R163): A selected condition comes to hold and the waiting engine resumes. -/
  | waitWake (e : Eng)
  /-- TRAP (R165): Raises software trap cause 0x10 plus the operand. -/
  | trap (e : Eng) (n : BitVec 4)
  /-- RTT (R165): Returns from a trap, reloading pc, fl and privilege and clearing TIP. -/
  | rtt (e : Eng)
  /-- NOP (R166): Does nothing. -/
  | nop (e : Eng)
  /-- MFL (R166): Copies fl to rd. -/
  | mfl (e : Eng) (rd : Reg)
  /-- MTFL (R166): Writes Z, N, C, V and NR from ra. -/
  | mtfl (e : Eng) (ra : Reg)
  /-- MFTP (R166): Copies tp to rd. -/
  | mftp (e : Eng) (rd : Reg)
  /-- MTTP (R166): Writes tp from ra at keeper level. -/
  | mttp (e : Eng) (ra : Reg)
  /-- SAMPLE_INTERVAL_EXPIRY (R129): The retired-instruction count reaches the sampling interval; the pc is noted and the count restarts. -/
  | sampleIntervalExpiry (e : Eng)
  /-- SAMPLE_TRAP (R130): The sample trap is taken within 12 instructions, or dropped and counted if TIP is set. -/
  | sampleTrap (e : Eng)
  /-- IMEM_ECC_ERROR (R104): An uncorrectable instruction-memory error sends the engine to FAILED and records 0x040_011. x.single: instead, a single-bit error in a word of its memories or read by it in shared memory is corrected (R104). -/
  | imemEccError (x : EccHit)
  /-- ENGINE_RUN (R684): A SET of ECTL with RUN 1 starts a STOPPED engine at its entry. by_: the engine whose SET is accepted; l and k: the lantern and engine whose ECTL is written with v. -/
  | engineRun (by_ : Eng) (l : Lan) (k : Fin 8) (v : Word)
  /-- ENGINE_STOP (R121): Writing RUN 0 stops admission; the engine drains and reads DRAINING. operands as for ENGINE_RUN. -/
  | engineStop (by_ : Eng) (l : Lan) (k : Fin 8) (v : Word)
  /-- ENGINE_STOPPED (R121): A draining engine completes its outstanding work and reads STOPPED. -/
  | engineStopped (e : Eng)
  /-- ENGINE_STEP (R684): STEP executes one instruction of a STOPPED engine from EPC. by_, l, k and v as for ENGINE_RUN; with v, whether the instruction's own word, or the data word it reads, holds an uncorrectable ECC error (R104). -/
  | engineStep (by_ : Eng) (l : Lan) (k : Fin 8) (v : StepWord)
  /-- CLRFAIL (R119): Moves a FAILED engine to STOPPED, clearing registers and TIP. operands as for ENGINE_RUN. -/
  | clrfail (by_ : Eng) (l : Lan) (k : Fin 8) (v : Word)
  /-- LOADER_GO (R125): GO checks the loader request in order and starts or refuses a transfer. by_: the engine whose SET of LDGO with v is accepted. -/
  | loaderGo (by_ : Eng) (l : Lan) (v : Word)
  /-- LOADER_DONE (R125): A loader transfer completes and LDSTAT reads DONE. ok: the seals of every source line pass. -/
  | loaderDone (l : Lan) (ok : Bool)
  /-- UNIT_WORD_WRITE (R171): A unit accepts a SET to a word with no row of its own, keeping fields given unassigned values. a: the address written; v: the value. -/
  | unitWordWrite (e : Eng) (a v : Word)
  /-- COMMIT_SNAPSHOT (R173): An accepted COMMIT snapshots the shadows as the pending set, superseding any earlier pending set. u and n: the unit and instance. -/
  | commitSnapshot (e : Eng) (u : UnitI) (n : InstI)
  /-- COMMIT_POINT (R173): At the instance's commit point the pending set applies together or is refused whole. -/
  | commitPoint (u : UnitI) (n : InstI)
  /-- UNIT_DISABLE (R181): Clearing EN stops admission and the unit reads DRAINING. v: the value written to UCTRL. -/
  | unitDisable (e : Eng) (u : UnitI) (n : InstI) (v : Word)
  /-- UNIT_ENABLE (R182): Setting EN enables the unit, or sets REEN if it is draining. v: the value written to UCTRL. -/
  | unitEnable (e : Eng) (u : UnitI) (n : InstI) (v : Word)
  /-- DRAIN_COMPLETE (R181): Admitted work completes and the draining unit reads IDLE, going ACTIVE if REEN is set. -/
  | drainComplete (u : UnitI) (n : InstI)
  /-- DRAIN_BOUND_EXPIRY (R181): The drain bound expires; held work is discarded, counted and recorded, and the unit reads IDLE. -/
  | drainBoundExpiry (u : UnitI) (n : InstI)
  /-- SCHEDULED_COMMIT_ARM (R177): ARM snapshots the shadows for the instant in UCT1:UCT0, or refuses or marks LATE. v: the value written to UCARM. -/
  | scheduledCommitArm (e : Eng) (u : UnitI) (n : InstI) (v : Word)
  /-- SCHEDULED_COMMIT_DISARM (R178): DISARM clears ARMED and CMPEND without applying anything. v: the value written to UCARM. -/
  | scheduledCommitDisarm (e : Eng) (u : UnitI) (n : InstI) (v : Word)
  /-- SCHEDULED_COMMIT_DUE (R177): The time counter reaches an armed instant and the pending set becomes due. -/
  | scheduledCommitDue (u : UnitI) (n : InstI)
  /-- USTAT_READ (R169): A read of USTAT returns LATE and CMREF and clears them. -/
  | ustatRead (e : Eng) (u : UnitI) (n : InstI)
  /-- RESULT_SLOT_HOST_READ (R180): A host read of a result slot returns VALID, REREAD and sequence and sets the read mark. -/
  | resultSlotHostRead (slot : Fin 4096)
  /-- RESULT_SLOT_MAP (R204): A write to RMADDR maps a result word to slot SLOT at once. e: the engine whose SET of RMADDR with v is accepted. -/
  | resultSlotMap (e : Eng) (v : Word)
  /-- CHAIN_START (R193): A host write to STARTL starts an IDLE or FAILED enabled chain, or is discarded and recorded. h and l: STARTH and STARTL as the host wrote them. -/
  | chainStart (n : ChainI) (h l : BitVec 32)
  /-- DOORBELL_RING (R194): A DOORBELL RING makes a parked or stalled collector re-read its letter at once. n: the chain; r: its re-read. -/
  | doorbellRing (n : ChainI) (r : LetterRead)
  /-- DOORBELL_WAKE (R192): A DOORBELL with WAKE is a wake event. -/
  | doorbellWake (n : ChainI)
  /-- CHAIN_RESUME (R200): RESUME continues a FAILED chain, following NEXT or parking. -/
  | chainResume (n : ChainI)
  /-- CHAIN_DISABLE (R204): Clearing a chain's EN completes or fails its current letter and leaves the rest untouched. e: the engine whose SET of CHCTL with v is accepted. -/
  | chainDisable (e : Eng) (n : ChainI) (v : Word)
  /-- BAR0_WRITE_DISCARDED (R186): A host write to an unlisted BAR0 offset is discarded and counted. -/
  | bar0WriteDiscarded (off : BitVec 20)
  /-- HOST_POSTBOX_TAKE (R202): A host TAKE removes the oldest host-postbox message. -/
  | hostPostboxTake (n : ChainI)
  /-- LETTER_FETCHED (R191): A collector's letter read returns and the letter is executed if OWN was set, or the chain stalls. w: the 16 host words that the read of a letter in host memory returns, or for a letter in the letter store the 16 words that the host has written to its place, none where it has written none; cpl, poison: how a read of host memory was completed: 0 successfully, 1 Unsupported Request, 2 Completer Abort; and whether its data is poisoned. -/
  | letterFetched (n : ChainI) (w : List (BitVec 32)) (cpl : Fin 3) (poison : Bool)
  /-- PARKED_REREAD (R194): The watch interval expires and a parked or stalled collector re-reads its letter. r: the re-read. -/
  | parkedReread (n : ChainI) (r : LetterRead)
  /-- NOP_LETTER (R188): A NOP letter completes with its status written. -/
  | nopLetter (n : ChainI)
  /-- MSG_LETTER (R188): A MSG letter becomes a message from host chain n to the DEST postbox. -/
  | msgLetter (n : ChainI)
  /-- MSG_LETTER_RETRY (R199): A refused MSG letter is retried once per watch interval. -/
  | msgLetterRetry (n : ChainI)
  /-- MSG_FULL_TIMEOUT (R199): A MSG refused for 1 ms fails with code FULL. -/
  | msgFullTimeout (n : ChainI)
  /-- READ_LETTER (R197): A READ letter is checked and moves host data into module DRAM. bytes: what host memory returned; x: what ended the transfer after them. -/
  | readLetter (n : ChainI) (bytes : List Byte) (x : MoveEnd)
  /-- WRITE_LETTER (R197): A WRITE letter is checked and moves module DRAM data to host memory. -/
  | writeLetter (n : ChainI)
  /-- DMA_COMPLETE (R189): A letter's transfer completes and words 11 to 15 are written with OWN cleared. -/
  | dmaComplete (n : ChainI)
  /-- COMPLETION_TIMEOUT (R199): No read completion arrives within CTOUT and the letter fails with TIMEOUT. x: the chain, and for a READ letter, what host memory had returned when the rest did not come. -/
  | completionTimeout (x : LateRead)
  /-- IRQ_HOLDOFF_EXPIRY (R203): The interrupt holdoff ends and a held vector may be signalled. -/
  | irqHoldoffExpiry (v : Fin 32)
  /-- PCIE_LINK_DOWN (R201): The link goes down; letters in flight fail with code 0x09 and a class L fault is raised. -/
  | pcieLinkDown
  /-- PCIE_LINK_UP (R201): The endpoint trains to L0 without program action. cfg: what the host then writes to the function's configuration registers; with the link up, a further write of them. -/
  | pcieLinkUp (link : PcieLink) (cfg : PcieCfg)
  /-- FUNCTION_LEVEL_RESET (R206): FLR disables and restarts HST, clears MSI-X and read marks, and sets LINK.FLR. -/
  | functionLevelReset
  /-- MSIX_UNMASK (R205): The host unmasks a pending MSI-X entry and the held message is sent. x: the entry as the host writes it; f: MSI-X Enable and Function Mask as the host leaves them. -/
  | msixUnmask (x : MsixWrite) (f : MsixCtl)
  /-- LINK_READ (R204): A read of HST LINK returns FLR and clears it. -/
  | linkRead (e : Eng)
  /-- BALANCE_EPOCH (R209): At each balance epoch PLC measures load and starts automatic moves of flows, buckets, queues and contexts. out, back: the spill bandwidth measured for each group, into DRAM and back; wants: the automatic moves that PLC makes of them, as kind, index, target. -/
  | balanceEpoch (out back : List Nat) (wants : List (Fin 4 × Fin 131072 × Fin 256))
  /-- PLC_QUERY (R224): QUERY reports the object's placement and hints in OBJRES. e: the engine whose SET of OBJGO with v is accepted. -/
  | plcQuery (e : Eng) (v : Word)
  /-- PLC_MOVE (R216): MOVE requests an order-preserving move to TARGET, or is refused BUSY. e: the engine whose SET of OBJGO with v is accepted. -/
  | plcMove (e : Eng) (v : Word)
  /-- PLC_HINT (R224): HINT sets the object's PIN, CRIT and NEAR hints. e: the engine whose SET of OBJGO with v is accepted. -/
  | plcHint (e : Eng) (v : Word)
  /-- PLC_PICK (R211): PICK returns and reserves the least busy STOPPED engine of a pool. e: the engine whose SET of OBJGO with v is accepted; least: the least busy engine that may be picked, as PLC measures it. -/
  | plcPick (e : Eng) (v : Word) (least : Eng)
  /-- PICK_RESERVATION_EXPIRY (R211): The 10 ms reservation of a picked engine ends. x: the picked engine. -/
  | pickReservationExpiry (x : Eng)
  /-- MOVE_DRAIN_COMPLETE (R216): The source holds nothing of the object; the fence queue is appended to the target and the map switches. -/
  | moveDrainComplete (kind : Fin 2) (index : Fin 131072)
  /-- MOVE_TIMEOUT (R217): A move's drain misses TIMEOUT and the move reverts without loss. -/
  | moveTimeout (kind : Fin 2) (index : Fin 131072)
  /-- CONTEXT_RESIDENT (R214): An SA context becomes resident in the context store, releasing waiting switches. -/
  | contextResident (c : Fin 4096)
  /-- CONTEXT_MOVE (R219): A context moves between DRAM and the store at a frame boundary of its channel. toStore: from DRAM to the store, else from the store to DRAM. -/
  | contextMove (c : Fin 4096) (toStore : Bool)
  /-- LOS_SET (R233): Received power below -31 dBm for 2 us sets LOS and records 0x100_013. -/
  | losSet (c : Chan)
  /-- LOS_CLEAR (R232): Received power above -29 dBm for 2 us clears LOS. -/
  | losClear (c : Chan)
  /-- LASER_CUT (R234): A keeper write of CUT cuts the slot's laser with CUTWHY 1. e: the engine whose SET of OLATCH with v is accepted. -/
  | laserCut (e : Eng) (c : Chan) (v : Word)
  /-- LASER_CUT_CLEAR (R236): CLR clears a cut whose condition no longer holds, never a CUTWHY 5 cut. e: the engine whose SET of OLATCH with v is accepted; holds: the condition of the cut still holds. -/
  | laserCutClear (e : Eng) (c : Chan) (v : Word) (holds : Bool)
  /-- WATCHDOG_CUT (R235): An overlong burst, a burst over 125 us or light outside a burst cuts the laser and raises a class L fault. why: 0 to 2 for CUTWHY 2 to 4; ns: the length of the burst in ns. -/
  | watchdogCut (c : Chan) (why : Fin 3) (ns : Nat)
  /-- RX_READY (R241): The receive filter is tuned and APD biased and RXREADY sets. -/
  | rxReady (c : Chan)
  /-- TX_READY (R241): The laser is pre-tuned to its position and TXREADY sets. -/
  | txReady (c : Chan)
  /-- WLOCK_SET (R238): After enough bursts of light the wavelength loop locks and WLOCK sets. -/
  | wlockSet (c : Chan)
  /-- WLOCK_CLEAR (R239): After 1 s without light WLOCK clears and 0x100_012 is recorded. -/
  | wlockClear (c : Chan)
  /-- OPT_MONITOR_RESULT (R245): Every 1 ms the optical monitoring result words receive new results. power, temp, apd: received power, laser temperature and APD bias as measured; burst: launch power, laser bias current and wavelength offset of a millisecond with bursts. -/
  | optMonitorResult (c : Chan) (power temp apd : Word) (burst : Option (Word × Word × Word))
  /-- DOWNSTREAM_FRAME (R250): A PSBd at the expected spacing delimits a downstream PHY frame, setting LOCK and applying frame-boundary changes. superframe: the frame's superframe count; items: what it carries. -/
  | downstreamFrame (c : Chan) (superframe : Nat) (items : List PonItem)
  /-- PSBD_MISSED (R250): Three expected PSBd missed clear LOCK as LODS. -/
  | psbdMissed (c : Chan)
  /-- O6_HOLD_EXPIRY (R256): The O6 hold expires; the channel goes to O1 and a class L fault is raised. -/
  | o6HoldExpiry (c : Chan)
  /-- ACTSET (R254): A keeper write requests an activation state move at the next downstream frame boundary. e: the engine whose SET of ACTSET with v is accepted. -/
  | actset (e : Eng) (c : Chan) (v : Word)
  /-- SERIAL_NUMBER_REPLY (R255): After its random delay the Serial_Number_ONU reply is sent. -/
  | serialNumberReply (c : Chan)
  /-- BURST_START (R259): At StartTime plus delays a burst opens and is filled from the allocation, or counted as missed. -/
  | burstStart (c : Chan)
  /-- BURST_END (R231): A burst ends at its grant end; loop corrections and a pending power level apply. -/
  | burstEnd (c : Chan)
  /-- PLOAM_UPSTREAM_GO (R262): PUGO queues PUDATA for sending, or discards it when four are queued. e: the engine whose SET of PUGO with v is accepted. -/
  | ploamUpstreamGo (e : Eng) (c : Chan) (v : Word)
  /-- SFC_CAPTURE_ARM (R275): SFCARM arms a postmark capture of a given superframe. e: the engine whose SET of SFCARM with v is accepted. -/
  | sfcCaptureArm (e : Eng) (c : Chan) (v : Word)
  /-- PON_FORCED_WAKE (R277): A head-end forced-wake indication is a wake event. -/
  | ponForcedWake (c : Chan)
  /-- DLERR_CLEAR (R266): Writing 1 to DLERR clears it. e: the engine whose SET of DLCTL with v is accepted. -/
  | dlerrClear (e : Eng) (c : Chan) (v : Word)
  /-- CONTAINER_TIMEOUT (R290): No container for 250 us starts the all-ones action with cause 2. q: the tributary. -/
  | containerTimeout (q : Fin 64)
  /-- TRIB_FRAME_BOUNDARY (R289): At each 125 us TRIB boundary a due page swap takes effect channel by channel. rx: the 66b blocks that client ports have received since the last boundary, each in transmission order, first bit most significant. -/
  | tribFrameBoundary (rx : List (Port × List (BitVec 66)))
  /-- CONN_WRITE (R288): A write to a connection entry is stored, or discarded and recorded for the active page. e: the engine whose SET of CONN n with v is accepted. -/
  | connWrite (e : Eng) (n : Fin 128) (v : Word)
  /-- POLARITY_TOGGLE (R299): Every 2 ms without lock the receiver switches polarity. -/
  | polarityToggle (l : LaneI)
  /-- LANE_SIGNAL_DETECT (R303): A lane detects signal and recovers the clock. -/
  | laneSignalDetect (l : LaneI)
  /-- LANE_ADAPTATION_DONE (R303): Initial receive equaliser adaptation completes. -/
  | laneAdaptationDone (l : LaneI)
  /-- LANE_BLOCK_LOCK (R301): Block or alignment-marker lock is found, polarity kept, lanes reordered and deskewed. m: what the markers show; swap, on a pair lane: what arrives is the partner's other lane. -/
  | laneBlockLock (l : LaneI) (m : Markers) (swap : Bool)
  /-- LANE_FEC_LOCK (R303): FEC lock completes bring-up; LINKUP sets and 0x1C0_010 is recorded. l: the lowest lane of the port. -/
  | laneFecLock (l : LaneI)
  /-- EQ_UPDATE (R304): At least 10 us after the last, the equaliser updates a tap by one step. tap: 0 the continuous-time equaliser, 1 to 12 the feed-forward taps, 13 the decision feedback. -/
  | eqUpdate (l : LaneI) (tap : Fin 14) (up : Bool)
  /-- LANE_LOCK_LOSS (R305): Loss of block, alignment or FEC lock clears LINKUP and raises a class N fault. -/
  | laneLockLoss (l : LaneI)
  /-- LANE_PLL_LOCK_LOSS (R305): The group transmit PLL loses lock, a class L fault recording 0x1C0_012. g: the lane group, or 8 for the pair lanes. -/
  | lanePllLockLoss (g : Fin 9)
  /-- PON_FRAMER_PLL_LOCK_LOSS (R615): The PON framer PLL loses lock, a class L fault in the channel. -/
  | ponFramerPllLockLoss (c : Chan)
  /-- RXSNR_RESULT (R310): Every 1 ms while CDRLOCK the receive SNR result is written. x: the figures of the last ms. -/
  | rxsnrResult (l : LaneI) (x : RxFigures)
  /-- MAC_RX_FRAME_START (R313): A frame's first 64 bytes arrive and it is passed on or discarded as a runt. pre: a preemptable frame; buf: 0 the port's receive buffer has room, 1 it is three quarters full, 2 it is full; ecc: the SA context it needs has no error (0), one that is corrected (1), or an uncorrectable one (2); x: the frame as the line brings it. -/
  | macRxFrameStart (p : Port) (pre : Bool) (buf ecc : Fin 3) (x : Arrival)
  /-- MAC_RX_FRAME_END (R313): A frame ends; FCS, length, PAUSE and fragment checks settle it. pre: the preemptable frame; how: 0 the frame ends by itself, 1 a reassembly error ends it, 2 the ingress island has lost it; frags: the fragments it came in. -/
  | macRxFrameEnd (p : Port) (pre : Bool) (how : Fin 3) (frags : Nat)
  /-- PAUSE_REPEAT (R328): Every half quanta period the MAC repeats PAUSE or PFC while QM asks. -/
  | pauseRepeat (p : Port)
  /-- PAUSE_WATCHDOG_TRIP (R329): A class held longer than WDMS enters recovery and ignores pause. c: the traffic class. -/
  | pauseWatchdogTrip (p : Port) (c : Fin 8)
  /-- PAUSE_WATCHDOG_RECOVERY_END (R329): The recovery period ends and pause is honoured again. c: the traffic class. -/
  | pauseWatchdogRecoveryEnd (p : Port) (c : Fin 8)
  /-- VERIFY_TIMER (R315): VERIFYT expires: a verify mPacket is sent, or verification fails after three. -/
  | verifyTimer (p : Port)
  /-- VERIFY_RESPONSE (R315): A respond mPacket makes verification succeed and preemption active. -/
  | verifyResponse (p : Port)
  /-- VERIFY_MPACKET_RECEIVED (R315): A received verify mPacket is answered while PREN is 1. -/
  | verifyMpacketReceived (p : Port)
  /-- MAC_TX_FRAME_END (R316): A frame or fragment finishes transmission and the next express or resumed frame starts. cutAt: 0 for the end of the whole frame, else how many bytes of a fragment have left; under: the island ran out of data inside a frame that cuts through. -/
  | macTxFrameEnd (p : Port) (cutAt : Nat) (under : Bool)
  /-- GATE_ENTRY_CHANGE (R320): A gate list entry's interval ends and the next entry sets the gates. early: the hold of the entry that follows is issued ahead of it, by the bound of R319. -/
  | gateEntryChange (p : Port) (early : Bool)
  /-- GATE_LIST_SWITCH (R323): At instant T the committed list becomes the operating list and GN is written. -/
  | gateListSwitch (p : Port)
  /-- GEA_WRITE (R336): Writes word A of the entry GESEL names, or is discarded for a page in force or waiting. e: the engine whose SET of GEA with v is accepted. -/
  | geaWrite (e : Eng) (p : Port) (v : Word)
  /-- GEB_WRITE (R336): Writes word B of the selected entry and advances ENTRY. e: the engine whose SET of GEB with v is accepted. -/
  | gebWrite (e : Eng) (p : Port) (v : Word)
  /-- SBUS_TXGO (R344): TXGO holds a frame for transmission, or refuses it with a TXRES code. The engine whose SET is accepted, and its value. -/
  | sbusTxgo (e : Eng) (v : BitVec 24)
  /-- SBUS_FETCH_COMPLETE (R344): The frame fetch from DRAM completes or is refused with code 4. sealOk: every line read verifies its seal. -/
  | sbusFetchComplete (sealOk : Bool)
  /-- SBUS_TX_ATTEMPT (R339): After 9.6 us idle and any back-off a transmission attempt starts. deferred: the attempt had waited for a busy bus. -/
  | sbusTxAttempt (deferred : Bool)
  /-- SBUS_COLLISION (R339): A collision sends jam and draws a back-off, or discards the frame. sent: bytes of the frame that had left, preamble excluded. -/
  | sbusCollision (sent : BitVec 11)
  /-- SBUS_BACKOFF_END (R339): The collision back-off ends. -/
  | sbusBackoffEnd
  /-- SBUS_TX_COMPLETE (R344): A frame ends on the wire and TXRES is written. -/
  | sbusTxComplete
  /-- SBUS_RX_FRAME (R342): An accepted frame is written to the ring and its agent notified. start: the counter at the first symbol after the SFD, as seconds and nanoseconds; x: the frame. -/
  | sbusRxFrame (start : Nat × Nat) (x : RingFrame)
  /-- SBUS_POST_RETRY (R342): Every 10 us a refused ring message is posted again. -/
  | sbusPostRetry
  /-- SBUS_RXDONE (R343): RXDONE returns ring entries in order, clamped to USED. -/
  | sbusRxdone (e : Eng) (v : BitVec 24)
  /-- JABBER_DETECT (R340): Carrier for over 20 ms sets JABBER and raises a class L fault. -/
  | jabberDetect
  /-- JABBER_CLEAR (R340): JABBER clears 1 ms after carrier ends. -/
  | jabberClear
  /-- SBUS_CARRIER_WAKE (R345): In S3 carrier of at least 8 us raises a wake event. -/
  | sbusCarrierWake
  /-- MSEC_ICV_RESULT (R356): The ICV result is known and a failing frame is dropped, stomped or rewound. f: the frame's number among those inside the module. -/
  | msecIcvResult (f : Nat)
  /-- MSEC_EGRESS_FRAME (R360): MSEC protects, clears or discards an egress frame by its transmit channel. pre: the preemptable selection of the port, else the express one; ecc: the SA context it needs has no error (0), one that is corrected (1), or an uncorrectable one (2). -/
  | msecEgressFrame (p : Port) (pre : Bool) (ecc : Fin 3)
  /-- SWITCH_REQUEST (R379): SWGO holds a switch request by command, time or threshold, replacing any held one. e: the engine whose SET of SWGO with v is accepted. -/
  | switchRequest (e : Eng) (v : Word)
  /-- SWITCH_CANCEL (R379): SWGO with SWHOW 0 cancels the held request. e: the engine whose SET of SWGO with v is accepted. -/
  | switchCancel (e : Eng) (v : Word)
  /-- SWITCH_TIME_DUE (R377): The time counter reaches a timed switch's instant and it falls due. -/
  | switchTimeDue (ch : Fin 1024)
  /-- RETENTION_EXPIRY (R382): RETAIN after retention began, the SA is withdrawn and RETIRED is sent. c: the receive context. -/
  | retentionExpiry (c : Fin 4096)
  /-- MSEC_NOTE_RETRY (R385): Every 10 us a refused notification is posted again. -/
  | msecNoteRetry
  /-- CLS_SEARCH (R402): The parsed key is searched once and the lowest matching entry's action is taken. f: the frame's number among those inside the module; lost: rows that the search finds failing their parity in both copies. -/
  | clsSearch (f : Nat) (lost : List (Fin 65536))
  /-- CLS_ENTRY_WRITE (R408): EGO WRITE writes the staged entry to both copies, or refuses it. e: the engine whose SET of EGO with v is accepted. -/
  | clsEntryWrite (e : Eng) (v : Word)
  /-- CLS_ENTRY_WRITE_DONE (R408): Both copies are written and ERES is ready. -/
  | clsEntryWriteDone
  /-- CLS_ENTRY_READ (R413): EGO READ loads copy 0's entry into the staging words. e: the engine whose SET of EGO with v is accepted. -/
  | clsEntryRead (e : Eng) (v : Word)
  /-- HIDATA_WRITE (R407): Writes a hash-group indirection entry and advances HISEL. e: the engine whose SET of HIDATA with v is accepted. -/
  | hidataWrite (e : Eng) (v : Word)
  /-- CLS_SCRUB (R411): The scrub checks row parity and repairs or invalidates failing rows. bad0, bad1: the row fails its parity in copy 0, in copy 1. -/
  | clsScrub (row : Fin 65536) (bad0 bad1 : Bool)
  /-- FLOW_RECORD_WRITE (R416): FGO WRITE writes the staged flow record in one step. e: the engine whose SET of FGO with v is accepted. -/
  | flowRecordWrite (e : Eng) (v : Word)
  /-- FLOW_RECORD_READ (R423): FGO READ loads a flow record into staging. e: the engine whose SET of FGO with v is accepted. -/
  | flowRecordRead (e : Eng) (v : Word)
  /-- EXACT_MATCH_INSERT (R415): FGO INSERT adds a key naming FSEL, or is refused. e: the engine whose SET of FGO with v is accepted. -/
  | exactMatchInsert (e : Eng) (v : Word)
  /-- EXACT_MATCH_DELETE (R415): FGO DELETE removes a key. e: the engine whose SET of FGO with v is accepted. -/
  | exactMatchDelete (e : Eng) (v : Word)
  /-- EXACT_MATCH_LOOKUP (R423): FGO LOOKUP returns the flow a key names. e: the engine whose SET of FGO with v is accepted. -/
  | exactMatchLookup (e : Eng) (v : Word)
  /-- FLOW_OP_COMPLETE (R424): A FLOW operation completes and FRES is ready. -/
  | flowOpComplete
  /-- QM_ADMIT (R434): A frame's first cell is admitted or refused against its colour's drop limit. f: the frame's number among those inside the module. -/
  | qmAdmit (f : Nat)
  /-- QM_FRAME_COMMIT (R429): A frame's last cell is committed and it becomes visible. c: the frame. -/
  | qmFrameCommit (c : LastCell)
  /-- SPILL_READBACK (R431): A spilled block returns to the head segment. ok: the block's seals check right. -/
  | spillReadback (q : Fin 16384) (ok : Bool)
  /-- QUEUE_STATE_ECC_ERROR (R428): Uncorrectable queue-state ECC discards the queue and raises a class L fault. -/
  | queueStateEccError (q : Fin 16384)
  /-- HQDONE_WRITE (R437): HQDONE returns ring entries, clamped, writing the idle item into each. e: the engine whose SET of HQDONE of H n with v is accepted. -/
  | hqdoneWrite (e : Eng) (n : ChainI) (v : Word)
  /-- SERVICE_DECISION (R444): A port node chooses a class and a queue and selects its head frame, charging shapers. d: what the decision is for; parity: a word of the selected frame fails its parity check as it is read; lost: classes that lose this decision because the level cannot carry the load. -/
  | serviceDecision (n : Fin 128) (d : Decision) (parity : Bool) (lost : BitVec 8)
  /-- SCH_SAMPLE (R457): Each SMPINT the depth and head delay of each attached queue are sampled. -/
  | schSample (n : Fin 128)
  /-- REFRESH_REPORT_READ (R466): Every 2 ms the refresh-rate reports are read and refresh rates changed. reports: for channel 0 onward, the report of its hottest die as JESD209-5C codes it, and what it says: 0 at or below 85 °C, 1 above, 2 above the upper operating limit. -/
  | refreshReportRead (reports : List (BitVec 5 × Fin 3))
  /-- RETRAIN_DUE (R467): A retraining falls due by interval or temperature and notice is given to QM. x: the channel, and why. -/
  | retrainDue (x : Retrain)
  /-- TRAINNOW (R467): A keeper write requests retraining of a channel at its next turn. -/
  | trainnow (e : Eng) (c : Fin 32) (v : BitVec 24)
  /-- RETRAIN_PAUSE_START (R467): After the notice the channel pauses for retraining. -/
  | retrainPauseStart
  /-- RETRAIN_PAUSE_END (R468): The pause ends, held accesses issue, and a failed result keeps the old settings. ok: the result lies within the PHY margin; step: the step that failed; held: accesses the pause held. -/
  | retrainPauseEnd (ok : Bool) (step held : Nat)
  /-- MEM_BANDWIDTH_RESULT (R472): Every 1 ms MBW receives the carried bandwidth. -/
  | memBandwidthResult (v : BitVec 24)
  /-- SEAL_CHECK (R478): A line's seal check completes, releasing held data. The line that access k of the engine has read; r: what the read found. -/
  | sealCheck (e : Eng) (k line : Nat) (r : LineRead)
  /-- PARTIAL_WRITE (R480): A partial write reads, checks, merges and rewrites the line as one pair. The single store k of the engine; r: what its read of the line found. -/
  | partialWrite (e : Eng) (k : Nat) (r : LineRead)
  /-- GRANULE_FILL (R477): A first write to an unwritten granule waits while the granule is filled with sealed zeros. -/
  | granuleFill (g : Nat)
  /-- BACKGROUND_FILL_DONE (R477): The background fill covers the data space and INIT.DONE sets. -/
  | backgroundFillDone
  /-- REKEY_START (R482): RKGO draws new keys and starts a region re-key, or is refused. -/
  | rekeyStart (e : Eng) (v : BitVec 24)
  /-- REKEY_LINE (R482): The re-key engine re-encrypts one line and moves the boundary, ending the re-key at the last line. r: the region; d: what the read of the line found. -/
  | rekeyLine (r : Fin 16) (d : LineRead)
  /-- KEY_WRITE (R496): WRITE stores SLKEY in the clear into the target slot. -/
  | keyWrite (e : Eng) (v : BitVec 24)
  /-- KEY_GENERATE (R496): GENERATE fills the target slot from the random source. -/
  | keyGenerate (e : Eng) (v : BitVec 24)
  /-- KEY_DERIVE (R502): DERIVE runs the SP 800-108 KDF into the target slot. -/
  | keyDerive (e : Eng) (v : BitVec 24)
  /-- KEY_ERASE (R496): ERASE makes the target slot not VALID. -/
  | keyErase (e : Eng) (v : BitVec 24)
  /-- KEY_QUERY (R513): QUERY returns the slot's attributes in SLQ. -/
  | keyQuery (e : Eng) (v : BitVec 24)
  /-- MEXTEND (R501): MEXTEND extends A1, A2 or A3 with DMEAS. -/
  | mextend (e : Eng) (v : BitVec 24)
  /-- KEY_OP_COMPLETE (R682): A KEY operation completes and KRES receives its result. -/
  | keyOpComplete
  /-- KEY_SCRUB (R494): The scrub checks slot CHECK values and marks mismatches BAD. n: the slot the scrub has reached. -/
  | keyScrub (n : Fin 8192) (mismatch : Bool)
  /-- KEY_LIFE_EXPIRY (R494): A slot reaches its lifetime and becomes BAD with BADWHY 2. -/
  | keyLifeExpiry (n : Fin 8192)
  /-- RNG_READY (R505): The random source becomes ready and waiting GENERATEs proceed. -/
  | rngReady
  /-- DRBG_RESEED (R505): The DRBG is reseeded every 1 s and after 65,536 requests. -/
  | drbgReseed
  /-- RAND_REFRESH (R505): After a GET or first host read of RAND a new random result is written. -/
  | randRefresh
  /-- RNG_HEALTH_FAILURE (R506): A health-test failure sets FAILED and raises a class F or H fault. -/
  | rngHealthFailure
  /-- LC_TO_PROVISIONED (R511): LCGO op 1 blows the root key and lifecycle fuses toward PROVISIONED. -/
  | lcToProvisioned (e : Eng) (v : BitVec 24)
  /-- LC_TO_FIELD (R511): LCGO op 2 blows the fuses toward FIELD. -/
  | lcToField (e : Eng) (v : BitVec 24)
  /-- LC_WRITE_HASH (R509): LCGO op 3 blows key hash H from DMEAS. -/
  | lcWriteHash (e : Eng) (v : BitVec 24)
  /-- LC_REVOKE_HASH (R509): LCGO op 4 revokes key hash position H. -/
  | lcRevokeHash (e : Eng) (v : BitVec 24)
  /-- LC_RAISE_FLOOR (R509): LCGO op 5 raises the version floor. -/
  | lcRaiseFloor (e : Eng) (v : BitVec 24)
  /-- LC_BLOW_TEST_LOCK (R509): LCGO op 6 blows the test-lock fuse. -/
  | lcBlowTestLock (e : Eng) (v : BitVec 24)
  /-- FUSE_WRITE_COMPLETE (R510): A fuse write ends, verified or reading unwritten, and LCRES is written. ok: the field reads back as blown. -/
  | fuseWriteComplete (ok : Bool)
  /-- CMAC_GEN (R498): CHK computes an AES-CMAC tag. l: the CHK instance. -/
  | cmacGen (e : Eng) (l : Lan) (v : BitVec 24)
  /-- CMAC_VER (R498): CHK verifies an AES-CMAC tag. -/
  | cmacVer (e : Eng) (l : Lan) (v : BitVec 24)
  /-- GMAC_GEN (R498): CHK computes a GMAC tag. -/
  | gmacGen (e : Eng) (l : Lan) (v : BitVec 24)
  /-- GMAC_VER (R498): CHK verifies a GMAC tag. -/
  | gmacVer (e : Eng) (l : Lan) (v : BitVec 24)
  /-- WRAP_KEY (R498): CHK wraps an exportable slot's key as an RFC 3394 envelope. -/
  | wrapKey (e : Eng) (l : Lan) (v : BitVec 24)
  /-- UNWRAP_KEY (R499): CHK unwraps an RFC 3394 envelope into slot CTSLOT. -/
  | unwrapKey (e : Eng) (l : Lan) (v : BitVec 24)
  /-- WRAP_DATA (R498): CHK wraps data as an RFC 5649 envelope. -/
  | wrapData (e : Eng) (l : Lan) (v : BitVec 24)
  /-- UNWRAP_DATA (R498): CHK unwraps an RFC 5649 envelope to data. -/
  | unwrapData (e : Eng) (l : Lan) (v : BitVec 24)
  /-- CHK_OP_COMPLETE (R498): A CHK operation completes and CRES is written. -/
  | chkOpComplete (l : Lan)
  /-- SNAPSHOT_LATCH (R519): LATCH copies the time counter and generation into a snapshot set. -/
  | snapshotLatch (e : Eng) (k : Fin 8) (v : BitVec 24)
  /-- ADJ_FREQ (R521): ADJGO FREQ replaces FADJ if the reference and range allow. -/
  | adjFreq (e : Eng) (v : BitVec 24)
  /-- ADJ_OFFSET (R522): ADJGO OFFSET applies an offset by step or slew if the reference allows. -/
  | adjOffset (e : Eng) (v : BitVec 24)
  /-- ADJ_SET (R522): ADJGO SET applies the difference to a new time by step or slew. -/
  | adjSet (e : Eng) (v : BitVec 24)
  /-- SLEW_END (R522): A running slew has absorbed its whole offset and ends. -/
  | slewEnd
  /-- PPS_IN_EDGE (R528): A PPS_IN rising edge is postmarked and clears PPSLOS. -/
  | ppsInEdge (j : Fin 2)
  /-- PPS_LOSS (R528): 1.5 s without an edge sets PPSLOS and records 0x4C0_014. -/
  | ppsLoss (j : Fin 2)
  /-- TOD_CHAR_RECEIVED (R529): A ToD character enters the FIFO, or is discarded when full. -/
  | todCharReceived (j : Fin 2) (c : BitVec 8) (ferr : Bool)
  /-- TODTAKE (R529): TODTAKE removes the oldest ToD character. -/
  | todtake (e : Eng) (j : Fin 2) (v : BitVec 24)
  /-- REF_SELECTION (R526): SELREF changes to another eligible reference, clearing LOCKED and recording 0x4C0_012. -/
  | refSelection
  /-- WTR_EXPIRY (R526): A higher-priority reference has been eligible for WTR and is selected. -/
  | wtrExpiry (r : Fin 6)
  /-- EGTAKE (R531): EGTAKE removes the oldest egress record of port EGSEL. -/
  | egtake (e : Eng) (v : BitVec 24)
  /-- SYNCE_FREQ_MEASURE (R532): Every 100 ms the SyncE port's recovered frequency is written to SEFREQ. -/
  | synceFreqMeasure (v : BitVec 24)
  /-- PPS_OUT_PULSE (R533): PPS_OUT rises ADV before each second boundary for WIDTH. The output takes the level of the present instant, at the pulse's start and at its end. -/
  | ppsOutPulse (j : Fin 2)
  /-- TOD_OUT_MESSAGE (R534): Once per second the 20-byte ToD message is sent. -/
  | todOutMessage (j : Fin 2)
  /-- TRIGGER_ARM (R536): ARM starts a trigger from k 0, or is refused while a bad value stands. -/
  | triggerArm (e : Eng) (t : Fin 16) (v : BitVec 24)
  /-- TRIGGER_STOP (R536): STOP stops a trigger. -/
  | triggerStop (e : Eng) (t : Fin 16) (v : BitVec 24)
  /-- TRIGGER_FIRE (R536): A trigger instant is reached; units are signalled and a message or wake is raised. -/
  | triggerFire (t : Fin 16)
  /-- CANDLE_OSC_READY (R541): The candle oscillates in range, OSC sets and TIME moves to the candle. -/
  | candleOscReady
  /-- OVEN_OK_SET (R542): The oven has held its set point for 60 s and OVENOK sets. -/
  | ovenOkSet
  /-- OVEN_OK_CLEAR (R542): The oven leaves its set point; OVENOK clears and a class N fault is raised. -/
  | ovenOkClear
  /-- CANDLE_COMPARE (R543): Every second the candle is compared with the crystal and a jump flagged. d: the candle's frequency against the crystal's, signed, in units of 10^-12. -/
  | candleCompare (d : BitVec 32)
  /-- MODEL_EVAL (R544): Every second CNDL evaluates the model, updates FMEAN, RESID, LEARNH, HBOUND and the holdover correction. h: heater power in mW; err: oven error, signed, in m°C; fast: the ambient has moved by more than 30 °C in an hour. -/
  | modelEval (h err : BitVec 24) (fast : Bool)
  /-- LSEED_WRITE (R553): LSEED sets LEARNH to at most 24. -/
  | lseedWrite (e : Eng) (v : BitVec 24)
  /-- CANDLE_STOP (R554): The candle stops; TIME moves to the crystal and a class N fault is raised. -/
  | candleStop
  /-- CANDLE_RESTART_ATTEMPT (R554): Every 60 s CNDL tries to restart a failed candle. -/
  | candleRestartAttempt
  /-- CSTAT_READ (R555): A read of CNDL CSTAT returns CLAMP and JUMP and clears them. -/
  | cstatRead (e : Eng)
  /-- CONVERSION_RESULT (R559): A converter result lands in AVAL and the channel's watcher evaluates it. v: the input in nV as the converter measures it; surge: samples were taken during a surge. -/
  | conversionResult (c : Fin 18) (v : Int) (surge : Bool)
  /-- CALIBRATION_SLOT (R560): A due calibration slot calibrates the converter and checks for an open circuit. isOpen: the input resistance is above 10 MΩ; missed: firings that fell in a forced slot. -/
  | calibrationSlot (c : Fin 18) (isOpen forced : Bool) (missed : Nat)
  /-- DIO_EDGE (R564): A debounced input edge sets DIOEDGE and may post or wake. -/
  | dioEdge (j : Fin 16) (rising : Bool)
  /-- DIOEDGE_READ (R568): A read of DIOEDGE returns the edges seen and clears them. -/
  | dioedgeRead (e : Eng)
  /-- CYGO_WRITE (R566): CYGO marks a control cycle's staged values ready. -/
  | cygoWrite (e : Eng) (v : BitVec 24)
  /-- CYCLE_APPLY (R566): At a cycle's apply instant member outputs take the staged values, or the late count advances. -/
  | cycleApply (c : Fin 8)
  /-- LEVEL_REQUEST (R572): A SET of LEVEL starts a level transition or enters the pending slot. -/
  | levelRequest (e : Eng) (v : BitVec 24)
  /-- VOLTAGE_ACK (R570): The regulator's power-good acknowledges a voltage request and the transition completes. -/
  | voltageAck
  /-- VOLTAGE_REQUEST_TIMEOUT (R571): An unacknowledged voltage request is retried, and after three attempts the transition ends. -/
  | voltageRequestTimeout
  /-- SLEEP_ENTRY (R577): The sleep entry steps run in order to reach S1, S2 or S3. The channels whose head end allows the low-power mode (R276). -/
  | sleepEntry (chans : BitVec 4)
  /-- WAKE_EVENT (R578): An enabled wake source returns the module to S0 at LEVEL. -/
  | wakeEvent
  /-- PAD_RELEASE (R579): PADS.REL releases held output pads. -/
  | padRelease (e : Eng) (v : BitVec 24)
  /-- OVLD_READ (R584): A read of OVLD returns the overload causes counted and clears them. -/
  | ovldRead (e : Eng)
  /-- HEARTBEAT_SEND (R590): Every 10 us a heartbeat is sent on both pair lanes. -/
  | heartbeatSend
  /-- HEARTBEAT_RECEIVED (R590): A valid partner heartbeat is heard and role cause 1 or 8 is evaluated. k: the pair lane; mate: the partner's ROLE; fit, primary: its MATE_FIT and PRIMARY; sn: its serial number. -/
  | heartbeatReceived (k : Fin 2) (mate : Fin 4) (fit primary : Bool) (seq : BitVec 16) (sn : BitVec 48)
  /-- PARTNER_NOT_HEARD (R594): 30 us without a heartbeat; cause 4 or 7 is evaluated. -/
  | partnerNotHeard
  /-- MIRROR_RECORD_RECEIVED (R591): The standby applies a mirror record in sequence order, resynchronising on a gap. -/
  | mirrorRecordReceived (k : Fin 2) (seq : BitVec 32) (x : MirrorItem)
  /-- MIRROR_REFRESH (R591): The active module sends each installed SA's PN at least every 500 us. -/
  | mirrorRefresh
  /-- RESYNC_COMPLETE (R592): A full resynchronisation ends and SYNCED sets. -/
  | resyncComplete
  /-- SYNC_LOSS (R592): No mirror record for 1 ms from an active partner clears SYNCED. -/
  | syncLoss
  /-- PARTNER_MESSAGE_SEND (R593): MTXGO sends the staged message to the partner. -/
  | partnerMessageSend (e : Eng) (v : BitVec 24)
  /-- PARTNER_MESSAGE_RECEIVED (R593): A partner message is posted to MAGENT. -/
  | partnerMessageReceived (tag : BitVec 16) (w1 w2 w3 : BitVec 24)
  /-- PARTNER_MESSAGE_RETRY (R593): A refused partner message is retried every 10 us and discarded after 1 ms. -/
  | partnerMessageRetry
  /-- SEEK_TIMEOUT (R594): SEEKT passes in SEEKING and the module becomes ACTIVE under cause 2. -/
  | seekTimeout
  /-- MATE_ACT_IN_FALL (R594): MATE_ACT_IN falls and a fit standby takes over under cause 3. fit: the level of MATE_FIT_IN. -/
  | mateActInFall (fit : Bool)
  /-- MATE_ACT_IN_RISE (R578): MATE_ACT_IN rises; a seeking module goes STANDBY and a sleeping one may wake. fit: the level of MATE_FIT_IN. -/
  | mateActInRise (fit : Bool)
  /-- PAIR_SWITCH (R597): SWITCH mirrors PNs and drops MATE_ACT so the partner takes over. fit: the level of MATE_FIT_IN. -/
  | pairSwitch (e : Eng) (v : BitVec 24) (fit : Bool)
  /-- GRACE_END (R595): GRACE ends and cause 7 or the partner reset is evaluated. -/
  | graceEnd
  /-- PARTNER_RESET (R598): PRESET, or a hung partner at GRACE end, pulls DIO15 low for 20 us. -/
  | partnerReset (e : Eng) (v : BitVec 24)
  /-- FITOK_WRITE (R587): A keeper write of FITOK drives MATE_FIT when the other conditions hold. -/
  | fitokWrite (e : Eng) (v : BitVec 24)
  /-- FAULT_RAISED (R603): FLT classes a fault and starts, latches, escalates or counts its recovery, notifying FAGENT. -/
  | faultRaised
  /-- RECOVERY_END (R605): A recovery's end event comes and latched faults are re-evaluated. -/
  | recoveryEnd (d : Fin 41)
  /-- RECOVERY_TIMEOUT (R605): A recovery misses its bound; its fault is re-evaluated first. -/
  | recoveryTimeout (d : Fin 41)
  /-- DOMAIN_CLEAR (R613): DCLR clears a domain's escalation count and failed state. -/
  | domainClear (e : Eng) (v : BitVec 24)
  /-- HALT_RECORD_COMMIT (R616): The halt record is committed after the flushed commit buffer. -/
  | haltRecordCommit
  /-- EPOCH_SWITCH (R631): Counting moves to the other bank and a dump of the listed kinds starts. -/
  | epochSwitch
  /-- DUMP_COMPLETE (R633): A dump's entries and header are written and DAGENT is notified. -/
  | dumpComplete
  /-- COUNTER_ECC_ERROR (R630): An uncorrectable counter error zeroes a leaf as LOST or rebuilds an aggregate. single: one bit, which is corrected. -/
  | counterEccError (unit kind obj : Nat) (single : Bool)
  /-- NODE_READ (R638): NGO READ loads a node's live value and flags. -/
  | nodeRead (e : Eng) (v : BitVec 24)
  /-- NODE_RESET (R638): NGO RESET zeroes a node and its leaves at the next switch. -/
  | nodeReset (e : Eng) (v : BitVec 24)
  /-- SAMPLE_APPEND (R637): SMPGO appends a 32-byte sample record to the sample ring. -/
  | sampleAppend (e : Eng) (v : BitVec 24)
  /-- CAPTURE_ARM (R640): CGO ARM empties the capture ring and arms it. -/
  | captureArm (e : Eng) (v : BitVec 24)
  /-- CAPTURE_TRIGGER (R640): A command, trigger firing or matching event moves the ring to FILLING. -/
  | captureTrigger (e : Eng) (v : BitVec 24)
  /-- CAPTURE_STOP (R640): CGO STOP freezes the ring at once. -/
  | captureStop (e : Eng) (v : BitVec 24)
  /-- CAPTURE_FROZEN (R640): The post-trigger fill completes, the ring freezes and 0x640_014 is recorded. -/
  | captureFrozen
  /-- CAPTURE_RECORD (R639): A frame copy is written to the capture ring, header last. lost: the copy cannot be written when due. -/
  | captureRecord (lost : Bool)
  /-- EVENT_RECORD (R645): A record reaches LOG and is stored with a sequence number, suppressed or dropped. -/
  | eventRecord
  /-- CREDIT_INSTANT (R647): Each 15,625,000 ns of counter advance each rate-limit credit below 16 gains one. -/
  | creditInstant
  /-- SUPPRESSED_RECORD (R647): A suppression count waiting 1 s is written as SUPPRESSED. -/
  | suppressedRecord (code : BitVec 24)
  /-- RECORDER_CLEAR (R650): RCTL CLEAR with 0xA5 erases the recorder and writes CLEARED and LIFEMARK. -/
  | recorderClear (e : Eng) (v : BitVec 24)
  /-- HOST_RECORD_LATCH (R648): Reading the first host window word latches the record at the cursor. -/
  | hostRecordLatch
  /-- HOST_RECORD_ADVANCE (R648): Reading the last host window word advances the cursor. -/
  | hostRecordAdvance
  /-- ENGINE_RECORD_LATCH (R648): Reading EW0 latches the record at the engine cursor. k: the cursor set. -/
  | engineRecordLatch (e : Eng) (k : Fin 2)
  /-- ENGINE_RECORD_ADVANCE (R648): Reading EW10 advances the engine cursor. k: the cursor set. -/
  | engineRecordAdvance (e : Eng) (k : Fin 2)
  /-- JOURNAL_COMMIT (R652): Every 60 s, at sleep entry and at a halt a journal entry is committed. worn: the entry erases the journal area's most-worn block. -/
  | journalCommit (worn : Bool)
  /-- TAG_READ_LATCH (R657): A TRADDR write latches 48 tag-area bytes into TRD0 to TRD15. -/
  | tagReadLatch (e : Eng) (v : BitVec 24)
  /-- TAG_WRITE (R657): TGO op 1 writes TWLEN bytes from TBUF, or is refused. -/
  | tagWrite (e : Eng) (v : BitVec 24)
  /-- TAG_WRITE_COMMIT (R657): A tag write commits, counts in the journal and records 0x680_013. -/
  | tagWriteCommit
  /-- TAG_LOCK_TO_RESET (R657): TGO op 2 locks a block until reset. -/
  | tagLockToReset (e : Eng) (v : BitVec 24)
  /-- TAG_LOCK_PERMANENT (R657): TGO op 3 with 0xA5 locks a block permanently. -/
  | tagLockPermanent (e : Eng) (v : BitVec 24)
  /-- FWCAUSE_CLEAR (R658): A keeper write of 1 clears the failed-wake cause. -/
  | fwcauseClear (e : Eng) (v : BitVec 24)
  /-- CHECKER_LOCK (R661): The pattern checker seeds and predicts 256 bits without error and locks. -/
  | checkerLock (j : Fin 39)
  /-- CHECKER_LOCK_LOSS (R661): Over 1,024 errors in 4,096 bits lose checker lock and record 0x6C0_010. -/
  | checkerLockLoss (j : Fin 39)
  /-- INJECT (R662): TINJGO starts the error injection that TINJ holds. busy: the single or burst injection before this one still runs. -/
  | inject (e : Eng) (j : Fin 39) (v : BitVec 24) (busy : Bool)
  /-- TERR_RESULT (R671): Every 1 ms TERR receives the error count since lock. The bits checked, wrong, and generated since the last result. -/
  | terrResult (j : Fin 39) (bits errors generated : Nat)
  /-- TEST_FRAME_SEND (R665): Every 2 ms the site-bus test generator sends a pattern frame. -/
  | testFrameSend
  /-- TAP_RESET (R668): TRST_N low or five TMS-high edges put the TAP in Test-Logic-Reset with IDCODE. -/
  | tapReset
  /-- EXTEST (R669): EXTEST makes the boundary cells drive and capture the pins. cells: the boundary cells' values; pins: the levels captured. -/
  | extest (cells pins : Nat)
  /-- SAMPLE_PRELOAD (R668): SAMPLE/PRELOAD captures the pins while they stay functional. -/
  | samplePreload (pins : Nat)
  /-- IDCODE (R668): IDCODE selects the device identification register. -/
  | idcode
  /-- CLAMP (R669): CLAMP holds the pins from the cells with BYPASS selected. -/
  | clamp (cells : Nat)
  /-- HIGHZ (R669): HIGHZ sets every cell-controlled output to high impedance. -/
  | highz
  /-- ENGDEBUG (R668): ENGDEBUG opens external engine debug as master 0x0C. -/
  | engdebug
  /-- PTEST (R668): PTEST opens the production test port as master 0x0D. -/
  | ptest
  /-- BYPASS (R668): BYPASS, and every unlisted code, selects the one-bit bypass. -/
  | bypass (code : BitVec 8)
  /-- PAUSE_TIME_EXPIRY (R328): The pause time carried by a received PAUSE or PFC frame runs out and the held port or classes are released. classes: those whose pause time has run out. -/
  | pauseTimeExpiry (p : Port) (classes : BitVec 8)
  /-- WATCHFUL_SLEEP_RECEIVER_CYCLE (R276): In watchful sleep a channel's receiver is powered on or off on PON's schedule, with RXREADY within 100 us of power-on. on: the receiver is powered on, else off. -/
  | watchfulSleepReceiverCycle (c : Chan) (on : Bool)
  /-- PWM_PERIOD_START (R563): A PWM period starts on the time counter and a newly written DUTY takes effect. -/
  | pwmPeriodStart (k : Fin 8)
  /-- LIFE_COUNTER_WRAP (R644): The life counter's low 16 bits wrap and LOG writes a LIFEMARK record. -/
  | lifeCounterWrap
  /-- CRYSTAL_LOSS (R85): The crystal reference stops while running; the islands it clocks go down and the time unit runs from the candle alone. -/
  | crystalLoss
deriving DecidableEq, Repr

end Sys2Proof
end

