-- ==== Sys2Proof/Config.lean ====
section
/-! DEFINITION. What an implementation fixes and the free values: constants without a body, so that no proof can see
what they are. -/
namespace Sys2Proof.Config

/-- Free value number n of up to 24 bits: where the spec gives a value no number (assumption log 2), the step takes the
next one of these. -/
opaque freeWord : Nat → BitVec 24

/-- Free yes or no number n, for a choice the spec leaves to the moment (assumption log 2). -/
opaque freeBool : Nat → Bool

/-- Free byte number n of the random source (R505): keys and random words come from it (assumption log 3). -/
opaque randomByte : Nat → BitVec 8

/-- Revision field of a unit's UID word, given per unit and not stated (R169). -/
opaque unitRev : Nat → Nat

/-- Response time of a PON instance in periods of 1 / 49.7664 GHz, given per module and not stated (R259, R279). -/
opaque ponResponse : Nat → Nat

/-- The counter block with which the ciphering of a PON payload begins, as ITU-T G.9804.2 builds it from the direction (yes for upstream), the
superframe count and the position in the frame; the spec does not give that construction (R267, assumption log 2). -/
opaque ponCounter : Bool → Nat → Nat → BitVec 128

/-- How a 24-bit event parameter holds the instant T in ns at which a gate list takes over; the spec does not say (R323, assumption log 2). -/
opaque gateInstant : Nat → BitVec 24

/-- The number by which an event parameter names the outcome of R324: 0 a full cycle, 1 an extended one, 2 a truncated one, 3 no list before; the
spec does not give it (R323, assumption log 2). -/
opaque gateOutcome : Nat → BitVec 24

/-- How an event parameter names a direction, transmit or not, and a channel; the spec does not say (R367, assumption log 2). -/
opaque saParam : Bool → Nat → BitVec 24

/-- The number of the cause of event 0x280_013: 1 no SA installed, 2 one that is unusable, 3 an exhausted one; the spec does not give it (R367,
assumption log 2). -/
opaque saCause : Nat → BitVec 24

/-- The fixed hash of R462, from a 512-byte granule of the data space to its DRAM channel; the spec does not give it (assumption log 2). -/
opaque channelHash : Nat → BitVec 5

/-- What the boundary cells drive at output pin number n: nothing or a level; the spec does not give the register's order (R668, assumption log 2). -/
opaque cellLevel : Nat → Nat → Option Bool

/-- JEDEC manufacturer identity of Galolan, named and not stated (R668). -/
opaque manufacturerId : BitVec 11

/-- Galolan's PCI-SIG vendor ID, which the spec does not give (R184, assumption log 2). -/
opaque vendorId : BitVec 16

/-- Byte n of the factory record, written before shipment (R656). -/
opaque factoryByte : Nat → BitVec 8

end Sys2Proof.Config
end

