-- ==== Sys2Proof/Machine/Bits.lean ====
section
/-! DEFINITION. Bit fields of words, byte order, finite maps in one canonical form, and the shape of a word map's row. -/
namespace Sys2Proof.Machine

/-- Bits [lo+w-1:lo] of a number. -/
def bitsOf (n lo w : Nat) : Nat := n / 2 ^ lo % 2 ^ w

/-- Bit [i] of a number. -/
def bitOf (n i : Nat) : Bool := bitsOf n i 1 == 1

/-- A number with bits [lo+w-1:lo] replaced by v modulo 2^w. -/
def putBits (n lo w v : Nat) : Nat :=
  n % 2 ^ lo + (v % 2 ^ w) * 2 ^ lo + n / 2 ^ (lo + w) * 2 ^ (lo + w)

/-- 1 for true, 0 for false. -/
def b2n (b : Bool) : Nat := if b then 1 else 0

/-- The value of a two's complement number of w bits. -/
def sext (n w : Nat) : Int := if n % 2 ^ w < 2 ^ (w - 1) then (n % 2 ^ w : Nat) else (n % 2 ^ w : Nat) - (2 ^ w : Nat)

/-- A signed number as w bits of two's complement. -/
def unsext (i : Int) (w : Nat) : Nat := (i % (2 ^ w : Nat)).toNat

/-- The number a list of bytes spells, most significant first (R8, R123). -/
def ofBytes (bs : List Byte) : Nat := bs.foldl (fun a b => a * 256 + b.toNat) 0

/-- The low n bytes of a number, most significant first. -/
def toBytes : Nat → Nat → List Byte
  | 0, _ => []
  | n + 1, v => by8 (v / 256 ^ n) :: toBytes n v

/-- The three bytes of a word, byte 0 first (R102). -/
def wordBytes (w : Word) : List Byte := toBytes 3 w.toNat

/-- Byte i of a list, zero beyond its end. -/
def byteAt (bs : List Byte) (i : Nat) : Byte := bs.getD i 0

/-- n bytes of a list from offset i, zero beyond its end. -/
def bytesAt (bs : List Byte) (i n : Nat) : List Byte := (List.range n).map fun k => byteAt bs (i + k)

/-- A list of bytes with those at offset i on replaced; bytes past its end are dropped. -/
def putBytes (bs : List Byte) (i : Nat) (v : List Byte) : List Byte :=
  bs.mapIdx fun k b => if i ≤ k ∧ k < i + v.length then byteAt v (k - i) else b

/-- Keyed data in one canonical form: keys strictly rising, no entry at its default. -/
abbrev Tab (α : Type) := List (Nat × α)

/-- What key k holds; an unlisted key holds its default. -/
def tget {α : Type} (d : Nat → α) : Tab α → Nat → α
  | [], k => d k
  | (a, v) :: t, k => if a = k then v else tget d t k

/-- Key k's entry put in its place. -/
def tput {α : Type} : Tab α → Nat → α → Tab α
  | [], k, v => [(k, v)]
  | (a, w) :: t, k, v =>
    if k < a then (k, v) :: (a, w) :: t else if k = a then (k, v) :: t else (a, w) :: tput t k v

/-- Key k's entry taken out. -/
def tdel {α : Type} (t : Tab α) (k : Nat) : Tab α := t.filter fun p => p.1 != k

/-- Key k set to v, in canonical form. -/
def tset {α : Type} [DecidableEq α] (d : Nat → α) (t : Tab α) (k : Nat) (v : α) : Tab α :=
  if v = d k then tdel t k else tput t k v

/-- The canonical form: keys strictly rising and no entry at its default. -/
def twf {α : Type} [DecidableEq α] (d : Nat → α) : Tab α → Bool
  | [] => true
  | (a, v) :: t => decide (v ≠ d a) && t.all (fun p => decide (a < p.1)) && twf d t

/-- Access codes of a word map (R11). -/
inductive Acc where
  | ro | rw | wo | w1c | rs | cm
deriving DecidableEq, Repr

/-- One field of a word map: the words it stands at (base + s1 * i + s2 * j, i below n1, j below n2), its bits, its
access (R11), its marks, its reset value and the range of values the map assigns. -/
structure FieldRow where
  base : Nat
  n1 : Nat
  s1 : Nat
  n2 : Nat
  s2 : Nat
  lo : Nat
  w : Nat
  acc : Acc
  keeper : Bool
  result : Bool
  reset : Nat
  amin : Nat
  amax : Nat
deriving DecidableEq, Repr

/-- Whether a row's words include word a. -/
def FieldRow.covers (r : FieldRow) (a : Nat) : Bool :=
  r.base ≤ a && (a - r.base) / r.s1 < r.n1 && (a - r.base) % r.s1 % r.s2 == 0 && (a - r.base) % r.s1 / r.s2 < r.n2

/-- A named field: unit, first word, low bit, width. -/
structure Fld where
  unit : Nat
  word : Nat
  lo : Nat
  w : Nat
deriving DecidableEq, Repr

/-- A unit word address (R9). -/
def uaddr (unit inst word : Nat) : Nat := unit * 262144 + inst % 256 * 1024 + word % 1024

/-- The unit of an address (R9). -/
def uUnit (a : Nat) : Nat := bitsOf a 18 6

/-- The instance of an address (R9). -/
def uInst (a : Nat) : Nat := bitsOf a 10 8

/-- The word of an address (R9). -/
def uWord (a : Nat) : Nat := bitsOf a 0 10

end Sys2Proof.Machine
end

