-- ==== Sys2Proof/Machine/Fields.lean ====
section
/-! DEFINITION. Named fields of unit words (R9 and the word table of every unit chapter): unit, first word, low bit, width. -/
namespace Sys2Proof.Machine

/-- 04 ENG.EENTRY.ENTRY (R120). -/
abbrev fENG_EENTRY_ENTRY : Fld := ⟨1, 0x101, 0, 15⟩
/-- 04 ENG.EENTRY.USER (R120). -/
abbrev fENG_EENTRY_USER : Fld := ⟨1, 0x101, 15, 1⟩
/-- 04 ENG.ESAMP.INTERVAL (R120). -/
abbrev fENG_ESAMP_INTERVAL : Fld := ⟨1, 0x104, 0, 14⟩
/-- 04 ENG.LDSRC0.SRCH (R124). -/
abbrev fENG_LDSRC0_SRCH : Fld := ⟨1, 0x10, 0, 24⟩
/-- 04 ENG.LDSRC1.SRCL (R124). -/
abbrev fENG_LDSRC1_SRCL : Fld := ⟨1, 0x11, 0, 24⟩
/-- 04 ENG.LDLEN.LINES (R124). -/
abbrev fENG_LDLEN_LINES : Fld := ⟨1, 0x12, 0, 15⟩
/-- 04 ENG.LDDST.EMASK (R124). -/
abbrev fENG_LDDST_EMASK : Fld := ⟨1, 0x13, 0, 8⟩
/-- 04 ENG.LDDST.TARGET (R124). -/
abbrev fENG_LDDST_TARGET : Fld := ⟨1, 0x13, 8, 2⟩
/-- 04 ENG.LDOFF.OFFSET (R124). -/
abbrev fENG_LDOFF_OFFSET : Fld := ⟨1, 0x14, 0, 19⟩
/-- 04 ENG.LDGO.ACC (R124). -/
abbrev fENG_LDGO_ACC : Fld := ⟨1, 0x15, 0, 2⟩
/-- 04 ENG.LDSTAT.STATE (R124). -/
abbrev fENG_LDSTAT_STATE : Fld := ⟨1, 0x16, 0, 2⟩
/-- 04 ENG.LDSTAT.WHY (R124). -/
abbrev fENG_LDSTAT_WHY : Fld := ⟨1, 0x16, 2, 4⟩
/-- 06 COMMON.UCTRL.EN (R169). -/
abbrev fCOMMON_UCTRL_EN : Fld := ⟨0, 0x1, 0, 1⟩
/-- 06 COMMON.USTAT.STATE (R169). -/
abbrev fCOMMON_USTAT_STATE : Fld := ⟨0, 0x2, 0, 2⟩
/-- 06 COMMON.USTAT.CMPEND (R169). -/
abbrev fCOMMON_USTAT_CMPEND : Fld := ⟨0, 0x2, 2, 1⟩
/-- 06 COMMON.USTAT.ARMED (R169). -/
abbrev fCOMMON_USTAT_ARMED : Fld := ⟨0, 0x2, 3, 1⟩
/-- 06 COMMON.USTAT.LATE (R169). -/
abbrev fCOMMON_USTAT_LATE : Fld := ⟨0, 0x2, 4, 1⟩
/-- 06 COMMON.USTAT.CMREF (R169). -/
abbrev fCOMMON_USTAT_CMREF : Fld := ⟨0, 0x2, 5, 1⟩
/-- 06 COMMON.USTAT.REEN (R169). -/
abbrev fCOMMON_USTAT_REEN : Fld := ⟨0, 0x2, 6, 1⟩
/-- 06 COMMON.UCMSEQ.CMSEQ (R169). -/
abbrev fCOMMON_UCMSEQ_CMSEQ : Fld := ⟨0, 0x3, 0, 16⟩
/-- 06 COMMON.UCMSEQ.SUPER (R169). -/
abbrev fCOMMON_UCMSEQ_SUPER : Fld := ⟨0, 0x3, 16, 8⟩
/-- 06 COMMON.UDRAIN.DISC (R169). -/
abbrev fCOMMON_UDRAIN_DISC : Fld := ⟨0, 0x4, 0, 24⟩
/-- 06 COMMON.UCT1.T1 (R169). -/
abbrev fCOMMON_UCT1_T1 : Fld := ⟨0, 0x6, 0, 24⟩
/-- 06 COMMON.UCT0.T0 (R169). -/
abbrev fCOMMON_UCT0_T0 : Fld := ⟨0, 0x7, 0, 24⟩
/-- 07 HST.CHCTL.EN (R204). -/
abbrev fHST_CHCTL_EN : Fld := ⟨3, 0x10, 0, 1⟩
/-- 07 HST.CHCTL.WATCH (R204). -/
abbrev fHST_CHCTL_WATCH : Fld := ⟨3, 0x10, 1, 7⟩
/-- 07 HST.CHCTL.KINDS (R204). -/
abbrev fHST_CHCTL_KINDS : Fld := ⟨3, 0x10, 8, 4⟩
/-- 07 HST.CHSTAT.LASTCODE (R204). -/
abbrev fHST_CHSTAT_LASTCODE : Fld := ⟨3, 0x11, 3, 8⟩
/-- 07 HST.IRQHOLD.US (R204). -/
abbrev fHST_IRQHOLD_US : Fld := ⟨3, 0x21, 0, 10⟩
/-- 07 HST.RMSLOT.SLOT (R204). -/
abbrev fHST_RMSLOT_SLOT : Fld := ⟨3, 0x22, 0, 12⟩
/-- 07 HST.RMADDR.ADDR (R204). -/
abbrev fHST_RMADDR_ADDR : Fld := ⟨3, 0x23, 0, 24⟩
/-- 07 HST.LINK.RATE (R204). -/
abbrev fHST_LINK_RATE : Fld := ⟨3, 0x24, 0, 3⟩
/-- 07 HST.LINK.FLR (R204). -/
abbrev fHST_LINK_FLR : Fld := ⟨3, 0x24, 6, 1⟩
/-- 08 PLC.MODE.AUTOFLOW (R224). -/
abbrev fPLC_MODE_AUTOFLOW : Fld := ⟨2, 0x10, 0, 1⟩
/-- 08 PLC.MODE.AUTOPON (R224). -/
abbrev fPLC_MODE_AUTOPON : Fld := ⟨2, 0x10, 1, 1⟩
/-- 08 PLC.MODE.AUTOSPILL (R224). -/
abbrev fPLC_MODE_AUTOSPILL : Fld := ⟨2, 0x10, 2, 1⟩
/-- 08 PLC.MODE.AUTOSA (R224). -/
abbrev fPLC_MODE_AUTOSA : Fld := ⟨2, 0x10, 3, 1⟩
/-- 08 PLC.EPOCH.E (R224). -/
abbrev fPLC_EPOCH_E : Fld := ⟨2, 0x11, 0, 10⟩
/-- 08 PLC.MOVECTL.MAXRATE (R224). -/
abbrev fPLC_MOVECTL_MAXRATE : Fld := ⟨2, 0x12, 0, 8⟩
/-- 08 PLC.MOVECTL.DWELL (R224). -/
abbrev fPLC_MOVECTL_DWELL : Fld := ⟨2, 0x12, 8, 8⟩
/-- 08 PLC.MOVECTL.TIMEOUT (R224). -/
abbrev fPLC_MOVECTL_TIMEOUT : Fld := ⟨2, 0x12, 16, 7⟩
/-- 08 PLC.PONGUARD.G (R224). -/
abbrev fPLC_PONGUARD_G : Fld := ⟨2, 0x13, 0, 14⟩
/-- 08 PLC.OBJKIND.KIND (R224). -/
abbrev fPLC_OBJKIND_KIND : Fld := ⟨2, 0x20, 0, 3⟩
/-- 08 PLC.OBJIDX.INDEX (R224). -/
abbrev fPLC_OBJIDX_INDEX : Fld := ⟨2, 0x21, 0, 17⟩
/-- 08 PLC.OBJTGT.TARGET (R224). -/
abbrev fPLC_OBJTGT_TARGET : Fld := ⟨2, 0x22, 0, 8⟩
/-- 08 PLC.OBJHINT.PIN (R224). -/
abbrev fPLC_OBJHINT_PIN : Fld := ⟨2, 0x23, 0, 1⟩
/-- 08 PLC.OBJHINT.CRIT (R224). -/
abbrev fPLC_OBJHINT_CRIT : Fld := ⟨2, 0x23, 1, 1⟩
/-- 08 PLC.OBJHINT.NEAR (R224). -/
abbrev fPLC_OBJHINT_NEAR : Fld := ⟨2, 0x23, 2, 1⟩
/-- 08 PLC.OBJGO.QUERY (R224). -/
abbrev fPLC_OBJGO_QUERY : Fld := ⟨2, 0x24, 0, 1⟩
/-- 08 PLC.OBJRES.WHERE (R224). -/
abbrev fPLC_OBJRES_WHERE : Fld := ⟨2, 0x25, 0, 8⟩
/-- 08 PLC.POOL.ENGINES (R224). -/
abbrev fPLC_POOL_ENGINES : Fld := ⟨2, 0x100, 0, 24⟩
/-- 09 OPT.OCFG.DSPOS (R245). -/
abbrev fOPT_OCFG_DSPOS : Fld := ⟨4, 0x10, 0, 3⟩
/-- 09 OPT.OCFG.USPOS (R245). -/
abbrev fOPT_OCFG_USPOS : Fld := ⟨4, 0x10, 4, 3⟩
/-- 09 OPT.OCFG.RATE (R245). -/
abbrev fOPT_OCFG_RATE : Fld := ⟨4, 0x10, 8, 1⟩
/-- 09 OPT.OLATCH.CUT (R245). -/
abbrev fOPT_OLATCH_CUT : Fld := ⟨4, 0x11, 0, 1⟩
/-- 09 OPT.OCAL.CALHOLD (R245). -/
abbrev fOPT_OCAL_CALHOLD : Fld := ⟨4, 0x12, 0, 1⟩
/-- 09 OPT.OSTAT.LOS (R245). -/
abbrev fOPT_OSTAT_LOS : Fld := ⟨4, 0x13, 0, 1⟩
/-- 09 OPT.OSTAT.RXREADY (R245). -/
abbrev fOPT_OSTAT_RXREADY : Fld := ⟨4, 0x13, 1, 1⟩
/-- 09 OPT.OSTAT.TXREADY (R245). -/
abbrev fOPT_OSTAT_TXREADY : Fld := ⟨4, 0x13, 2, 1⟩
/-- 09 OPT.OSTAT.WLOCK (R245). -/
abbrev fOPT_OSTAT_WLOCK : Fld := ⟨4, 0x13, 3, 1⟩
/-- 09 OPT.OSTAT.CUT (R245). -/
abbrev fOPT_OSTAT_CUT : Fld := ⟨4, 0x13, 4, 1⟩
/-- 09 OPT.OSTAT.CUTWHY (R245). -/
abbrev fOPT_OSTAT_CUTWHY : Fld := ⟨4, 0x13, 5, 3⟩
/-- 09 OPT.OSTAT.PLEVEL (R245). -/
abbrev fOPT_OSTAT_PLEVEL : Fld := ⟨4, 0x13, 8, 2⟩
/-- 09 OPT.OCUTS.CUTS (R245). -/
abbrev fOPT_OCUTS_CUTS : Fld := ⟨4, 0x14, 0, 24⟩
/-- 09 OPT.RXPWR.P (R245). -/
abbrev fOPT_RXPWR_P : Fld := ⟨4, 0x20, 0, 24⟩
/-- 09 OPT.TXPWR.P (R245). -/
abbrev fOPT_TXPWR_P : Fld := ⟨4, 0x21, 0, 24⟩
/-- 09 OPT.BIAS.I (R245). -/
abbrev fOPT_BIAS_I : Fld := ⟨4, 0x22, 0, 24⟩
/-- 09 OPT.LTEMP.T (R245). -/
abbrev fOPT_LTEMP_T : Fld := ⟨4, 0x23, 0, 24⟩
/-- 09 OPT.APDV.V (R245). -/
abbrev fOPT_APDV_V : Fld := ⟨4, 0x24, 0, 24⟩
/-- 09 OPT.WLOFF.D (R245). -/
abbrev fOPT_WLOFF_D : Fld := ⟨4, 0x25, 0, 24⟩
/-- 10 PON.DLCTL.DLARM (R266). -/
abbrev fPON_DLCTL_DLARM : Fld := ⟨5, 0xb0, 0, 1⟩
/-- 10 PON.DLCTL.DLERR (R266). -/
abbrev fPON_DLCTL_DLERR : Fld := ⟨5, 0xb0, 1, 1⟩
/-- 10 PON.DLME.ME (R266). -/
abbrev fPON_DLME_ME : Fld := ⟨5, 0xb1, 0, 16⟩
/-- 10 PON.DLBASEH.BASE (R266). -/
abbrev fPON_DLBASEH_BASE : Fld := ⟨5, 0xb2, 0, 24⟩
/-- 10 PON.DLBASEL.BASE (R266). -/
abbrev fPON_DLBASEL_BASE : Fld := ⟨5, 0xb3, 0, 24⟩
/-- 10 PON.DLWOFF1.OFF (R266). -/
abbrev fPON_DLWOFF1_OFF : Fld := ⟨5, 0xb4, 0, 1⟩
/-- 10 PON.DLWOFF0.OFF (R266). -/
abbrev fPON_DLWOFF0_OFF : Fld := ⟨5, 0xb5, 0, 24⟩
/-- 10 PON.DLSLEN.N (R266). -/
abbrev fPON_DLSLEN_N : Fld := ⟨5, 0xb6, 0, 11⟩
/-- 10 PON.DLLIM.LIM (R266). -/
abbrev fPON_DLLIM_LIM : Fld := ⟨5, 0xb7, 0, 20⟩
/-- 10 PON.DLCNT.N (R266). -/
abbrev fPON_DLCNT_N : Fld := ⟨5, 0xb8, 0, 24⟩
/-- 10 PON.CHSTAT.LOCK (R279). -/
abbrev fPON_CHSTAT_LOCK : Fld := ⟨5, 0x10, 0, 1⟩
/-- 10 PON.CHSTAT.ACTST (R279). -/
abbrev fPON_CHSTAT_ACTST : Fld := ⟨5, 0x10, 1, 4⟩
/-- 10 PON.CHSTAT.OPER (R279). -/
abbrev fPON_CHSTAT_OPER : Fld := ⟨5, 0x10, 5, 1⟩
/-- 10 PON.CHSTAT.LODS (R279). -/
abbrev fPON_CHSTAT_LODS : Fld := ⟨5, 0x10, 6, 1⟩
/-- 10 PON.CHSTAT.PSM (R279). -/
abbrev fPON_CHSTAT_PSM : Fld := ⟨5, 0x10, 7, 2⟩
/-- 10 PON.ACTSET.STATE (R279). -/
abbrev fPON_ACTSET_STATE : Fld := ⟨5, 0x11, 0, 4⟩
/-- 10 PON.O6HOLD.MS (R279). -/
abbrev fPON_O6HOLD_MS : Fld := ⟨5, 0x12, 0, 14⟩
/-- 10 PON.ONUID.ID (R279). -/
abbrev fPON_ONUID_ID : Fld := ⟨5, 0x13, 0, 10⟩
/-- 10 PON.ONUID.IDVALID (R279). -/
abbrev fPON_ONUID_IDVALID : Fld := ⟨5, 0x13, 10, 1⟩
/-- 10 PON.EQD.D (R279). -/
abbrev fPON_EQD_D : Fld := ⟨5, 0x14, 0, 24⟩
/-- 10 PON.RSPT.T (R279). -/
abbrev fPON_RSPT_T : Fld := ⟨5, 0x15, 0, 24⟩
/-- 10 PON.AGENTS.PLOAM (R279). -/
abbrev fPON_AGENTS_PLOAM : Fld := ⟨5, 0x16, 0, 8⟩
/-- 10 PON.AGENTS.OMCI (R279). -/
abbrev fPON_AGENTS_OMCI : Fld := ⟨5, 0x16, 8, 8⟩
/-- 10 PON.PLKEYG.SLOT (R279). -/
abbrev fPON_PLKEYG_SLOT : Fld := ⟨5, 0x20, 0, 13⟩
/-- 10 PON.PLKEYG.VALID (R279). -/
abbrev fPON_PLKEYG_VALID : Fld := ⟨5, 0x20, 13, 1⟩
/-- 10 PON.PLKEYV.SLOT (R279). -/
abbrev fPON_PLKEYV_SLOT : Fld := ⟨5, 0x21, 0, 13⟩
/-- 10 PON.PLKEYV.VALID (R279). -/
abbrev fPON_PLKEYV_VALID : Fld := ⟨5, 0x21, 13, 1⟩
/-- 10 PON.DKEY1.SLOT (R279). -/
abbrev fPON_DKEY1_SLOT : Fld := ⟨5, 0x22, 0, 13⟩
/-- 10 PON.DKEY1.VALID (R279). -/
abbrev fPON_DKEY1_VALID : Fld := ⟨5, 0x22, 13, 1⟩
/-- 10 PON.UKEY1.SLOT (R279). -/
abbrev fPON_UKEY1_SLOT : Fld := ⟨5, 0x26, 0, 13⟩
/-- 10 PON.UKEY1.VALID (R279). -/
abbrev fPON_UKEY1_VALID : Fld := ⟨5, 0x26, 13, 1⟩
/-- 10 PON.UKSEL.IDX (R279). -/
abbrev fPON_UKSEL_IDX : Fld := ⟨5, 0x28, 0, 2⟩
/-- 10 PON.ALLOCA.ALLOCID (R279). -/
abbrev fPON_ALLOCA_ALLOCID : Fld := ⟨5, 0x40, 0, 14⟩
/-- 10 PON.ALLOCA.VALID (R279). -/
abbrev fPON_ALLOCA_VALID : Fld := ⟨5, 0x40, 14, 1⟩
/-- 10 PON.ALLOCA.TRIB (R279). -/
abbrev fPON_ALLOCA_TRIB : Fld := ⟨5, 0x40, 15, 1⟩
/-- 10 PON.ALLOCA.TRIBNO (R279). -/
abbrev fPON_ALLOCA_TRIBNO : Fld := ⟨5, 0x40, 16, 4⟩
/-- 10 PON.ALLOCB.UPORT (R279). -/
abbrev fPON_ALLOCB_UPORT : Fld := ⟨5, 0x41, 0, 8⟩
/-- 10 PON.BPROF.VALID (R279). -/
abbrev fPON_BPROF_VALID : Fld := ⟨5, 0x70, 0, 1⟩
/-- 10 PON.BPROF.FEC (R279). -/
abbrev fPON_BPROF_FEC : Fld := ⟨5, 0x70, 1, 1⟩
/-- 10 PON.BPROF.RATE (R279). -/
abbrev fPON_BPROF_RATE : Fld := ⟨5, 0x70, 2, 1⟩
/-- 10 PON.BPROF.PRELEN (R279). -/
abbrev fPON_BPROF_PRELEN : Fld := ⟨5, 0x70, 3, 8⟩
/-- 10 PON.BPROFP0.PRE (R279). -/
abbrev fPON_BPROFP0_PRE : Fld := ⟨5, 0x71, 0, 24⟩
/-- 10 PON.BPROFD0.DELIM (R279). -/
abbrev fPON_BPROFD0_DELIM : Fld := ⟨5, 0x74, 0, 24⟩
/-- 10 PON.PUDATA.BYTES (R279). -/
abbrev fPON_PUDATA_BYTES : Fld := ⟨5, 0x90, 0, 24⟩
/-- 10 PON.PUGO.GO (R279). -/
abbrev fPON_PUGO_GO : Fld := ⟨5, 0x9e, 0, 1⟩
/-- 10 PON.PUCOUNT.N (R279). -/
abbrev fPON_PUCOUNT_N : Fld := ⟨5, 0x9f, 0, 3⟩
/-- 10 PON.SFCM1.SFC (R279). -/
abbrev fPON_SFCM1_SFC : Fld := ⟨5, 0xa0, 0, 24⟩
/-- 10 PON.SFCM0.SFC (R279). -/
abbrev fPON_SFCM0_SFC : Fld := ⟨5, 0xa1, 0, 24⟩
/-- 10 PON.SFCARM.ARM (R279). -/
abbrev fPON_SFCARM_ARM : Fld := ⟨5, 0xa2, 0, 1⟩
/-- 10 PON.SFCTS.S (R279). -/
abbrev fPON_SFCTS_S : Fld := ⟨5, 0xa3, 0, 24⟩
/-- 10 PON.SFCTNH.NH (R279). -/
abbrev fPON_SFCTNH_NH : Fld := ⟨5, 0xa4, 0, 6⟩
/-- 10 PON.SFCTNL.NL (R279). -/
abbrev fPON_SFCTNL_NL : Fld := ⟨5, 0xa5, 0, 24⟩
/-- 10 PON.SFCTG.G (R279). -/
abbrev fPON_SFCTG_G : Fld := ⟨5, 0xa6, 0, 24⟩
/-- 10 PON.PORTA.PORTID (R279). -/
abbrev fPON_PORTA_PORTID : Fld := ⟨5, 0x100, 0, 16⟩
/-- 10 PON.PORTB.VALID (R279). -/
abbrev fPON_PORTB_VALID : Fld := ⟨5, 0x101, 0, 1⟩
/-- 10 PON.PORTB.KIND (R279). -/
abbrev fPON_PORTB_KIND : Fld := ⟨5, 0x101, 1, 2⟩
/-- 10 PON.PORTB.UENC (R279). -/
abbrev fPON_PORTB_UENC : Fld := ⟨5, 0x101, 3, 1⟩
/-- 10 PON.PORTB.TRIBNO (R279). -/
abbrev fPON_PORTB_TRIBNO : Fld := ⟨5, 0x101, 4, 4⟩
/-- 11 TRIB.ACTPG.PAGE (R294). -/
abbrev fTRIB_ACTPG_PAGE : Fld := ⟨6, 0x10, 0, 1⟩
/-- 11 TRIB.CONN.CPORT (R294). -/
abbrev fTRIB_CONN_CPORT : Fld := ⟨6, 0x100, 0, 5⟩
/-- 11 TRIB.CONN.VALID (R294). -/
abbrev fTRIB_CONN_VALID : Fld := ⟨6, 0x100, 5, 1⟩
/-- 11 TRIB.CONN.DS (R294). -/
abbrev fTRIB_CONN_DS : Fld := ⟨6, 0x100, 6, 1⟩
/-- 11 TRIB.CONN.US (R294). -/
abbrev fTRIB_CONN_US : Fld := ⟨6, 0x100, 7, 1⟩
/-- 11 TRIB.CONN.DSFEED (R294). -/
abbrev fTRIB_CONN_DSFEED : Fld := ⟨6, 0x100, 8, 1⟩
/-- 11 TRIB.CONN.CPF (R294). -/
abbrev fTRIB_CONN_CPF : Fld := ⟨6, 0x100, 9, 11⟩
/-- 12 LANE.LCFG.TXINV (R310). -/
abbrev fLANE_LCFG_TXINV : Fld := ⟨7, 0x10, 0, 1⟩
/-- 12 LANE.LCFG.KEEP (R310). -/
abbrev fLANE_LCFG_KEEP : Fld := ⟨7, 0x10, 1, 1⟩
/-- 12 LANE.LCFG.TXEQ (R310). -/
abbrev fLANE_LCFG_TXEQ : Fld := ⟨7, 0x10, 2, 4⟩
/-- 12 LANE.LCAL.ADAPTHOLD (R310). -/
abbrev fLANE_LCAL_ADAPTHOLD : Fld := ⟨7, 0x11, 0, 1⟩
/-- 12 LANE.LSTAT.SIGDET (R310). -/
abbrev fLANE_LSTAT_SIGDET : Fld := ⟨7, 0x12, 0, 1⟩
/-- 12 LANE.LSTAT.CDRLOCK (R310). -/
abbrev fLANE_LSTAT_CDRLOCK : Fld := ⟨7, 0x12, 1, 1⟩
/-- 12 LANE.LSTAT.RXINV (R310). -/
abbrev fLANE_LSTAT_RXINV : Fld := ⟨7, 0x12, 2, 1⟩
/-- 12 LANE.LSTAT.BLOCK (R310). -/
abbrev fLANE_LSTAT_BLOCK : Fld := ⟨7, 0x12, 3, 1⟩
/-- 12 LANE.LSTAT.FECLOCK (R310). -/
abbrev fLANE_LSTAT_FECLOCK : Fld := ⟨7, 0x12, 4, 1⟩
/-- 12 LANE.LSTAT.LINKUP (R310). -/
abbrev fLANE_LSTAT_LINKUP : Fld := ⟨7, 0x12, 5, 1⟩
/-- 12 LANE.LSTAT.LPOS (R310). -/
abbrev fLANE_LSTAT_LPOS : Fld := ⟨7, 0x12, 6, 2⟩
/-- 12 LANE.LSTAT.PLLLOCK (R310). -/
abbrev fLANE_LSTAT_PLLLOCK : Fld := ⟨7, 0x12, 8, 1⟩
/-- 12 LANE.LSTAT.PSWAP (R310). -/
abbrev fLANE_LSTAT_PSWAP : Fld := ⟨7, 0x12, 9, 1⟩
/-- 12 LANE.RXSNR.S (R310). -/
abbrev fLANE_RXSNR_S : Fld := ⟨7, 0x13, 0, 24⟩
/-- 12 LANE.GMODE.MODE (R310). -/
abbrev fLANE_GMODE_MODE : Fld := ⟨7, 0x20, 0, 16⟩
/-- 12 LANE.GMODE.SYNCE (R310). -/
abbrev fLANE_GMODE_SYNCE : Fld := ⟨7, 0x20, 20, 1⟩
/-- 12 LANE.GMAP.RXMAP (R310). -/
abbrev fLANE_GMAP_RXMAP : Fld := ⟨7, 0x21, 0, 8⟩
/-- 12 LANE.GMAP.TXMAP (R310). -/
abbrev fLANE_GMAP_TXMAP : Fld := ⟨7, 0x21, 8, 8⟩
/-- 13 MAC.MCFG.MAXLEN (R335). -/
abbrev fMAC_MCFG_MAXLEN : Fld := ⟨8, 0x10, 0, 14⟩
/-- 13 MAC.MCFG.PAUSEEN (R335). -/
abbrev fMAC_MCFG_PAUSEEN : Fld := ⟨8, 0x10, 14, 1⟩
/-- 13 MAC.MCFG.PFCEN (R335). -/
abbrev fMAC_MCFG_PFCEN : Fld := ⟨8, 0x10, 15, 1⟩
/-- 13 MAC.MCFG.RXPAUSE (R335). -/
abbrev fMAC_MCFG_RXPAUSE : Fld := ⟨8, 0x10, 16, 1⟩
/-- 13 MAC.MPRE.PREN (R335). -/
abbrev fMAC_MPRE_PREN : Fld := ⟨8, 0x11, 0, 1⟩
/-- 13 MAC.MPRE.VERIFY (R335). -/
abbrev fMAC_MPRE_VERIFY : Fld := ⟨8, 0x11, 1, 1⟩
/-- 13 MAC.MPRE.MINFRAG (R335). -/
abbrev fMAC_MPRE_MINFRAG : Fld := ⟨8, 0x11, 2, 2⟩
/-- 13 MAC.MPRE.PCLASS (R335). -/
abbrev fMAC_MPRE_PCLASS : Fld := ⟨8, 0x11, 8, 8⟩
/-- 13 MAC.MPRE.VERIFYT (R335). -/
abbrev fMAC_MPRE_VERIFYT : Fld := ⟨8, 0x11, 16, 8⟩
/-- 13 MAC.MPSTAT.VSTATE (R335). -/
abbrev fMAC_MPSTAT_VSTATE : Fld := ⟨8, 0x12, 0, 3⟩
/-- 13 MAC.MPSTAT.ACTIVE (R335). -/
abbrev fMAC_MPSTAT_ACTIVE : Fld := ⟨8, 0x12, 3, 1⟩
/-- 13 MAC.MPWD.WDMS (R335). -/
abbrev fMAC_MPWD_WDMS : Fld := ⟨8, 0x13, 0, 14⟩
/-- 13 MAC.MPWD.RECOV (R335). -/
abbrev fMAC_MPWD_RECOV : Fld := ⟨8, 0x13, 14, 10⟩
/-- 13 MAC.PQUANTA.Q (R335). -/
abbrev fMAC_PQUANTA_Q : Fld := ⟨8, 0x14, 0, 16⟩
/-- 13 MAC.MSTAT.PAUSED (R335). -/
abbrev fMAC_MSTAT_PAUSED : Fld := ⟨8, 0x15, 0, 8⟩
/-- 13 MAC.MSTAT.WDACT (R335). -/
abbrev fMAC_MSTAT_WDACT : Fld := ⟨8, 0x15, 8, 8⟩
/-- 13 MAC.CT.CTEN (R335). -/
abbrev fMAC_CT_CTEN : Fld := ⟨8, 0x16, 0, 1⟩
/-- 13 MAC.CT.CTCLASS (R335). -/
abbrev fMAC_CT_CTCLASS : Fld := ⟨8, 0x16, 8, 8⟩
/-- 13 MAC.GCTL.GATEEN (R335). -/
abbrev fMAC_GCTL_GATEEN : Fld := ⟨8, 0x20, 0, 1⟩
/-- 13 MAC.GCTL.PAGE (R335). -/
abbrev fMAC_GCTL_PAGE : Fld := ⟨8, 0x20, 1, 1⟩
/-- 13 MAC.GCTL.GLEN (R335). -/
abbrev fMAC_GCTL_GLEN : Fld := ⟨8, 0x20, 2, 9⟩
/-- 13 MAC.GBASE2.S (R335). -/
abbrev fMAC_GBASE2_S : Fld := ⟨8, 0x21, 0, 24⟩
/-- 13 MAC.GBASE1.NH (R335). -/
abbrev fMAC_GBASE1_NH : Fld := ⟨8, 0x22, 0, 6⟩
/-- 13 MAC.GBASE0.NL (R335). -/
abbrev fMAC_GBASE0_NL : Fld := ⟨8, 0x23, 0, 24⟩
/-- 13 MAC.GCYC1.CH (R335). -/
abbrev fMAC_GCYC1_CH : Fld := ⟨8, 0x24, 0, 6⟩
/-- 13 MAC.GCYC0.CL (R335). -/
abbrev fMAC_GCYC0_CL : Fld := ⟨8, 0x25, 0, 24⟩
/-- 13 MAC.GEXT.E (R335). -/
abbrev fMAC_GEXT_E : Fld := ⟨8, 0x26, 0, 24⟩
/-- 13 MAC.GDEF.GATES (R335). -/
abbrev fMAC_GDEF_GATES : Fld := ⟨8, 0x27, 0, 8⟩
/-- 13 MAC.GSTAT.OPAGE (R335). -/
abbrev fMAC_GSTAT_OPAGE : Fld := ⟨8, 0x28, 0, 1⟩
/-- 13 MAC.GSTAT.WAIT (R335). -/
abbrev fMAC_GSTAT_WAIT : Fld := ⟨8, 0x28, 1, 1⟩
/-- 13 MAC.GSTAT.ENTRY (R335). -/
abbrev fMAC_GSTAT_ENTRY : Fld := ⟨8, 0x28, 2, 8⟩
/-- 13 MAC.GSTAT.GATES (R335). -/
abbrev fMAC_GSTAT_GATES : Fld := ⟨8, 0x28, 10, 8⟩
/-- 13 MAC.GN.N (R335). -/
abbrev fMAC_GN_N : Fld := ⟨8, 0x29, 0, 24⟩
/-- 13 MAC.GESEL.ENTRY (R336). -/
abbrev fMAC_GESEL_ENTRY : Fld := ⟨8, 0x30, 0, 8⟩
/-- 13 MAC.GESEL.PG (R336). -/
abbrev fMAC_GESEL_PG : Fld := ⟨8, 0x30, 8, 1⟩
/-- 13 MAC.GEA.GATES (R336). -/
abbrev fMAC_GEA_GATES : Fld := ⟨8, 0x31, 0, 8⟩
/-- 13 MAC.GEB.INTERVAL (R336). -/
abbrev fMAC_GEB_INTERVAL : Fld := ⟨8, 0x32, 0, 24⟩
/-- 14 SBUS.SCFG.TERM (R346). -/
abbrev fSBUS_SCFG_TERM : Fld := ⟨9, 0x10, 0, 1⟩
/-- 14 SBUS.SCFG.PROMISC (R346). -/
abbrev fSBUS_SCFG_PROMISC : Fld := ⟨9, 0x10, 1, 1⟩
/-- 14 SBUS.SCFG.MCAST (R346). -/
abbrev fSBUS_SCFG_MCAST : Fld := ⟨9, 0x10, 2, 1⟩
/-- 14 SBUS.SCFG.WAKEEN (R346). -/
abbrev fSBUS_SCFG_WAKEEN : Fld := ⟨9, 0x10, 3, 1⟩
/-- 14 SBUS.MACADR1.ADDR (R346). -/
abbrev fSBUS_MACADR1_ADDR : Fld := ⟨9, 0x11, 0, 24⟩
/-- 14 SBUS.MACADR0.ADDR (R346). -/
abbrev fSBUS_MACADR0_ADDR : Fld := ⟨9, 0x12, 0, 24⟩
/-- 14 SBUS.AGENT.ENG (R346). -/
abbrev fSBUS_AGENT_ENG : Fld := ⟨9, 0x13, 0, 8⟩
/-- 14 SBUS.RXBASEH.BASE (R346). -/
abbrev fSBUS_RXBASEH_BASE : Fld := ⟨9, 0x14, 0, 24⟩
/-- 14 SBUS.RXBASEL.BASE (R346). -/
abbrev fSBUS_RXBASEL_BASE : Fld := ⟨9, 0x15, 0, 24⟩
/-- 14 SBUS.RXDONE.N (R346). -/
abbrev fSBUS_RXDONE_N : Fld := ⟨9, 0x16, 0, 7⟩
/-- 14 SBUS.RXSTAT.USED (R346). -/
abbrev fSBUS_RXSTAT_USED : Fld := ⟨9, 0x17, 0, 7⟩
/-- 14 SBUS.RXSTAT.HEAD (R346). -/
abbrev fSBUS_RXSTAT_HEAD : Fld := ⟨9, 0x17, 7, 6⟩
/-- 14 SBUS.TXADDRH.ADDR (R346). -/
abbrev fSBUS_TXADDRH_ADDR : Fld := ⟨9, 0x18, 0, 24⟩
/-- 14 SBUS.TXADDRL.ADDR (R346). -/
abbrev fSBUS_TXADDRL_ADDR : Fld := ⟨9, 0x19, 0, 24⟩
/-- 14 SBUS.TXLEN.LEN (R346). -/
abbrev fSBUS_TXLEN_LEN : Fld := ⟨9, 0x1a, 0, 11⟩
/-- 14 SBUS.TXGO.GO (R346). -/
abbrev fSBUS_TXGO_GO : Fld := ⟨9, 0x1b, 0, 1⟩
/-- 14 SBUS.TXRES.CODE (R346). -/
abbrev fSBUS_TXRES_CODE : Fld := ⟨9, 0x1c, 0, 3⟩
/-- 14 SBUS.SSTAT.CARRIER (R346). -/
abbrev fSBUS_SSTAT_CARRIER : Fld := ⟨9, 0x1d, 0, 1⟩
/-- 14 SBUS.SSTAT.BUSY (R346). -/
abbrev fSBUS_SSTAT_BUSY : Fld := ⟨9, 0x1d, 1, 1⟩
/-- 14 SBUS.SSTAT.JABBER (R346). -/
abbrev fSBUS_SSTAT_JABBER : Fld := ⟨9, 0x1d, 2, 1⟩
/-- 15 MSEC.PCFG.MODE (R368). -/
abbrev fMSEC_PCFG_MODE : Fld := ⟨10, 0x10, 0, 1⟩
/-- 15 MSEC.PCFG.VALIDATE (R368). -/
abbrev fMSEC_PCFG_VALIDATE : Fld := ⟨10, 0x10, 1, 2⟩
/-- 15 MSEC.PSCI2.SCI (R368). -/
abbrev fMSEC_PSCI2_SCI : Fld := ⟨10, 0x40, 0, 16⟩
/-- 15 MSEC.PSCI1.SCI (R368). -/
abbrev fMSEC_PSCI1_SCI : Fld := ⟨10, 0x41, 0, 24⟩
/-- 15 MSEC.PSCI0.SCI (R368). -/
abbrev fMSEC_PSCI0_SCI : Fld := ⟨10, 0x42, 0, 24⟩
/-- 15 MSEC.TXSEL.CH (R369). -/
abbrev fMSEC_TXSEL_CH : Fld := ⟨10, 0x100, 0, 10⟩
/-- 15 MSEC.TXA.PORT (R369). -/
abbrev fMSEC_TXA_PORT : Fld := ⟨10, 0x101, 0, 5⟩
/-- 15 MSEC.TXA.ENABLE (R369). -/
abbrev fMSEC_TXA_ENABLE : Fld := ⟨10, 0x101, 5, 1⟩
/-- 15 MSEC.TXA.SUITE (R369). -/
abbrev fMSEC_TXA_SUITE : Fld := ⟨10, 0x101, 6, 2⟩
/-- 15 MSEC.TXA.CONF (R369). -/
abbrev fMSEC_TXA_CONF : Fld := ⟨10, 0x101, 8, 1⟩
/-- 15 MSEC.TXA.OFFSET (R369). -/
abbrev fMSEC_TXA_OFFSET : Fld := ⟨10, 0x101, 9, 2⟩
/-- 15 MSEC.TXA.SCIINC (R369). -/
abbrev fMSEC_TXA_SCIINC : Fld := ⟨10, 0x101, 11, 1⟩
/-- 15 MSEC.TXA.ES (R369). -/
abbrev fMSEC_TXA_ES : Fld := ⟨10, 0x101, 12, 1⟩
/-- 15 MSEC.TXA.SCB (R369). -/
abbrev fMSEC_TXA_SCB : Fld := ⟨10, 0x101, 13, 1⟩
/-- 15 MSEC.TXA.NOSA (R369). -/
abbrev fMSEC_TXA_NOSA : Fld := ⟨10, 0x101, 14, 1⟩
/-- 15 MSEC.TXSCI2.SCI (R369). -/
abbrev fMSEC_TXSCI2_SCI : Fld := ⟨10, 0x102, 0, 16⟩
/-- 15 MSEC.TXRSEL.CH (R369). -/
abbrev fMSEC_TXRSEL_CH : Fld := ⟨10, 0x108, 0, 10⟩
/-- 15 MSEC.TXRA.PORT (R369). -/
abbrev fMSEC_TXRA_PORT : Fld := ⟨10, 0x109, 0, 5⟩
/-- 15 MSEC.RXSEL.CH (R369). -/
abbrev fMSEC_RXSEL_CH : Fld := ⟨10, 0x110, 0, 10⟩
/-- 15 MSEC.RXA.PORT (R369). -/
abbrev fMSEC_RXA_PORT : Fld := ⟨10, 0x111, 0, 5⟩
/-- 15 MSEC.RXA.VALID (R369). -/
abbrev fMSEC_RXA_VALID : Fld := ⟨10, 0x111, 5, 1⟩
/-- 15 MSEC.RXA.SUITE (R369). -/
abbrev fMSEC_RXA_SUITE : Fld := ⟨10, 0x111, 6, 2⟩
/-- 15 MSEC.RXA.REPLAY (R369). -/
abbrev fMSEC_RXA_REPLAY : Fld := ⟨10, 0x111, 8, 1⟩
/-- 15 MSEC.RXA.NOSA (R369). -/
abbrev fMSEC_RXA_NOSA : Fld := ⟨10, 0x111, 9, 2⟩
/-- 15 MSEC.RXA.AGENT (R369). -/
abbrev fMSEC_RXA_AGENT : Fld := ⟨10, 0x111, 11, 8⟩
/-- 15 MSEC.RXA.OFFSET (R369). -/
abbrev fMSEC_RXA_OFFSET : Fld := ⟨10, 0x111, 19, 2⟩
/-- 15 MSEC.RXWIN.WINDOW (R369). -/
abbrev fMSEC_RXWIN_WINDOW : Fld := ⟨10, 0x112, 0, 24⟩
/-- 15 MSEC.RXSCI2.SCI (R369). -/
abbrev fMSEC_RXSCI2_SCI : Fld := ⟨10, 0x113, 0, 16⟩
/-- 15 MSEC.RXRSEL.CH (R369). -/
abbrev fMSEC_RXRSEL_CH : Fld := ⟨10, 0x118, 0, 10⟩
/-- 15 MSEC.RXRA.PORT (R369). -/
abbrev fMSEC_RXRA_PORT : Fld := ⟨10, 0x119, 0, 5⟩
/-- 15 MSEC.RXRWIN.WINDOW (R369). -/
abbrev fMSEC_RXRWIN_WINDOW : Fld := ⟨10, 0x11a, 0, 24⟩
/-- 16 MSEC.TXTHR.T (R389). -/
abbrev fMSEC_TXTHR_T : Fld := ⟨10, 0x105, 0, 6⟩
/-- 16 MSEC.TXRST.CURAN (R389). -/
abbrev fMSEC_TXRST_CURAN : Fld := ⟨10, 0x10d, 0, 2⟩
/-- 16 MSEC.SWCH.CH (R389). -/
abbrev fMSEC_SWCH_CH : Fld := ⟨10, 0x120, 0, 10⟩
/-- 16 MSEC.SWREQ.AN (R389). -/
abbrev fMSEC_SWREQ_AN : Fld := ⟨10, 0x121, 0, 2⟩
/-- 16 MSEC.SWREQ.HOW (R389). -/
abbrev fMSEC_SWREQ_HOW : Fld := ⟨10, 0x121, 2, 2⟩
/-- 16 MSEC.SWT1.T (R389). -/
abbrev fMSEC_SWT1_T : Fld := ⟨10, 0x122, 0, 24⟩
/-- 16 MSEC.SWT0.T (R389). -/
abbrev fMSEC_SWT0_T : Fld := ⟨10, 0x123, 0, 24⟩
/-- 16 MSEC.SWGO.GO (R389). -/
abbrev fMSEC_SWGO_GO : Fld := ⟨10, 0x124, 0, 1⟩
/-- 16 MSEC.RETAIN.MS10 (R389). -/
abbrev fMSEC_RETAIN_MS10 : Fld := ⟨10, 0x125, 0, 16⟩
/-- 16 MSEC.SANOTE.ENG (R389). -/
abbrev fMSEC_SANOTE_ENG : Fld := ⟨10, 0x126, 0, 8⟩
/-- 16 MSEC.SASEL.CTX (R390). -/
abbrev fMSEC_SASEL_CTX : Fld := ⟨10, 0x140, 0, 12⟩
/-- 16 MSEC.SAA.INST (R390). -/
abbrev fMSEC_SAA_INST : Fld := ⟨10, 0x141, 0, 1⟩
/-- 16 MSEC.SAA.DIR (R390). -/
abbrev fMSEC_SAA_DIR : Fld := ⟨10, 0x141, 1, 1⟩
/-- 16 MSEC.SAA.CH (R390). -/
abbrev fMSEC_SAA_CH : Fld := ⟨10, 0x141, 2, 10⟩
/-- 16 MSEC.SAA.AN (R390). -/
abbrev fMSEC_SAA_AN : Fld := ⟨10, 0x141, 12, 2⟩
/-- 16 MSEC.SAKEY.SLOT (R390). -/
abbrev fMSEC_SAKEY_SLOT : Fld := ⟨10, 0x142, 0, 13⟩
/-- 16 MSEC.SAPN2.PN (R390). -/
abbrev fMSEC_SAPN2_PN : Fld := ⟨10, 0x143, 0, 16⟩
/-- 16 MSEC.SASSCI1.SSCI (R390). -/
abbrev fMSEC_SASSCI1_SSCI : Fld := ⟨10, 0x146, 0, 8⟩
/-- 16 MSEC.SASSCI0.SSCI (R390). -/
abbrev fMSEC_SASSCI0_SSCI : Fld := ⟨10, 0x147, 0, 24⟩
/-- 16 MSEC.SASALT3.SALT (R390). -/
abbrev fMSEC_SASALT3_SALT : Fld := ⟨10, 0x148, 0, 24⟩
/-- 16 MSEC.SASALT2.SALT (R390). -/
abbrev fMSEC_SASALT2_SALT : Fld := ⟨10, 0x149, 0, 24⟩
/-- 16 MSEC.SASALT1.SALT (R390). -/
abbrev fMSEC_SASALT1_SALT : Fld := ⟨10, 0x14a, 0, 24⟩
/-- 16 MSEC.SASALT0.SALT (R390). -/
abbrev fMSEC_SASALT0_SALT : Fld := ⟨10, 0x14b, 0, 24⟩
/-- 16 MSEC.SARSEL.CTX (R390). -/
abbrev fMSEC_SARSEL_CTX : Fld := ⟨10, 0x150, 0, 12⟩
/-- 16 MSEC.SARA.INST (R390). -/
abbrev fMSEC_SARA_INST : Fld := ⟨10, 0x151, 0, 1⟩
/-- 17 CLS.HSEED.SEED (R413). -/
abbrev fCLS_HSEED_SEED : Fld := ⟨11, 0x10, 0, 24⟩
/-- 17 CLS.SRCCFG.PMETA (R413). -/
abbrev fCLS_SRCCFG_PMETA : Fld := ⟨11, 0x20, 0, 16⟩
/-- 17 CLS.SRCCFG.DEFIDX (R413). -/
abbrev fCLS_SRCCFG_DEFIDX : Fld := ⟨11, 0x20, 16, 3⟩
/-- 17 CLS.ESEL.INDEX (R413). -/
abbrev fCLS_ESEL_INDEX : Fld := ⟨11, 0x80, 0, 16⟩
/-- 17 CLS.ECTL.VALID (R413). -/
abbrev fCLS_ECTL_VALID : Fld := ⟨11, 0x81, 0, 1⟩
/-- 17 CLS.ECTL.WIDE (R413). -/
abbrev fCLS_ECTL_WIDE : Fld := ⟨11, 0x81, 1, 1⟩
/-- 17 CLS.EKEYH.K (R413). -/
abbrev fCLS_EKEYH_K : Fld := ⟨11, 0x90, 0, 24⟩
/-- 17 CLS.EKEYL.K (R413). -/
abbrev fCLS_EKEYL_K : Fld := ⟨11, 0xa0, 0, 24⟩
/-- 17 CLS.EMSKH.M (R413). -/
abbrev fCLS_EMSKH_M : Fld := ⟨11, 0xb0, 0, 24⟩
/-- 17 CLS.EMSKL.M (R413). -/
abbrev fCLS_EMSKL_M : Fld := ⟨11, 0xc0, 0, 24⟩
/-- 17 CLS.EACT.A (R413). -/
abbrev fCLS_EACT_A : Fld := ⟨11, 0xd0, 0, 24⟩
/-- 17 CLS.EGO.WRITE (R413). -/
abbrev fCLS_EGO_WRITE : Fld := ⟨11, 0xe0, 0, 1⟩
/-- 17 CLS.ERES.STATE (R413). -/
abbrev fCLS_ERES_STATE : Fld := ⟨11, 0xe1, 0, 1⟩
/-- 17 CLS.HISEL.INDEX (R413). -/
abbrev fCLS_HISEL_INDEX : Fld := ⟨11, 0xf0, 0, 12⟩
/-- 17 CLS.HISEL.GROUP (R413). -/
abbrev fCLS_HISEL_GROUP : Fld := ⟨11, 0xf0, 12, 4⟩
/-- 17 CLS.HIDATA.ENTRY (R413). -/
abbrev fCLS_HIDATA_ENTRY : Fld := ⟨11, 0xf1, 0, 24⟩
/-- 17 CLS.FA.A (R413). -/
abbrev fCLS_FA_A : Fld := ⟨11, 0x100, 0, 24⟩
/-- 18 FLOW.FSEL.FLOW (R423). -/
abbrev fFLOW_FSEL_FLOW : Fld := ⟨12, 0x10, 0, 17⟩
/-- 18 FLOW.FREC0.VALID (R423). -/
abbrev fFLOW_FREC0_VALID : Fld := ⟨12, 0x11, 0, 1⟩
/-- 18 FLOW.FREC0.PROGEN (R423). -/
abbrev fFLOW_FREC0_PROGEN : Fld := ⟨12, 0x11, 1, 1⟩
/-- 18 FLOW.FREC0.PROG (R423). -/
abbrev fFLOW_FREC0_PROG : Fld := ⟨12, 0x11, 2, 6⟩
/-- 18 FLOW.FREC0.POLEN (R423). -/
abbrev fFLOW_FREC0_POLEN : Fld := ⟨12, 0x11, 8, 1⟩
/-- 18 FLOW.FREC0.YACT (R423). -/
abbrev fFLOW_FREC0_YACT : Fld := ⟨12, 0x11, 9, 1⟩
/-- 18 FLOW.FREC0.RACT (R423). -/
abbrev fFLOW_FREC0_RACT : Fld := ⟨12, 0x11, 10, 1⟩
/-- 18 FLOW.FREC0.RSTCR (R423). -/
abbrev fFLOW_FREC0_RSTCR : Fld := ⟨12, 0x11, 11, 1⟩
/-- 18 FLOW.FREC1.QUEUE (R423). -/
abbrev fFLOW_FREC1_QUEUE : Fld := ⟨12, 0x12, 0, 14⟩
/-- 18 FLOW.FREC1.TXSC (R423). -/
abbrev fFLOW_FREC1_TXSC : Fld := ⟨12, 0x12, 14, 10⟩
/-- 18 FLOW.FREC2.CIR (R423). -/
abbrev fFLOW_FREC2_CIR : Fld := ⟨12, 0x13, 0, 24⟩
/-- 18 FLOW.FREC3.CBS (R423). -/
abbrev fFLOW_FREC3_CBS : Fld := ⟨12, 0x14, 0, 24⟩
/-- 18 FLOW.FREC4.PIR (R423). -/
abbrev fFLOW_FREC4_PIR : Fld := ⟨12, 0x15, 0, 24⟩
/-- 18 FLOW.FREC5.PBS (R423). -/
abbrev fFLOW_FREC5_PBS : Fld := ⟨12, 0x16, 0, 24⟩
/-- 18 FLOW.EMKEY.K (R423). -/
abbrev fFLOW_EMKEY_K : Fld := ⟨12, 0x20, 0, 24⟩
/-- 18 FLOW.EMPROF.KPROF (R423). -/
abbrev fFLOW_EMPROF_KPROF : Fld := ⟨12, 0x2e, 0, 4⟩
/-- 18 FLOW.FGO.OP (R423). -/
abbrev fFLOW_FGO_OP : Fld := ⟨12, 0x30, 0, 4⟩
/-- 18 FLOW.FRES.STATE (R423). -/
abbrev fFLOW_FRES_STATE : Fld := ⟨12, 0x31, 0, 1⟩
/-- 18 FLOW.KPMSK.M (R423). -/
abbrev fFLOW_KPMSK_M : Fld := ⟨12, 0x100, 0, 24⟩
/-- 18 FLOW.KPCNT.N (R423). -/
abbrev fFLOW_KPCNT_N : Fld := ⟨12, 0x200, 0, 17⟩
/-- 19 QM.SHCFG.CRITRES (R440). -/
abbrev fQM_SHCFG_CRITRES : Fld := ⟨13, 0x10, 0, 12⟩
/-- 19 QM.SHCFG.SPILLGB (R440). -/
abbrev fQM_SHCFG_SPILLGB : Fld := ⟨13, 0x10, 12, 7⟩
/-- 19 QM.SHFREE.CELLS (R440). -/
abbrev fQM_SHFREE_CELLS : Fld := ⟨13, 0x11, 0, 21⟩
/-- 19 QM.QSEL.Q (R440). -/
abbrev fQM_QSEL_Q : Fld := ⟨13, 0x20, 0, 14⟩
/-- 19 QM.QA.QEN (R440). -/
abbrev fQM_QA_QEN : Fld := ⟨13, 0x21, 0, 1⟩
/-- 19 QM.QA.MAXC (R440). -/
abbrev fQM_QA_MAXC : Fld := ⟨13, 0x21, 1, 16⟩
/-- 19 QM.QB.YF (R440). -/
abbrev fQM_QB_YF : Fld := ⟨13, 0x22, 0, 4⟩
/-- 19 QM.QB.RF (R440). -/
abbrev fQM_QB_RF : Fld := ⟨13, 0x22, 4, 4⟩
/-- 19 QM.QB.HEADB (R440). -/
abbrev fQM_QB_HEADB : Fld := ⟨13, 0x22, 8, 4⟩
/-- 19 QM.QRSEL.Q (R440). -/
abbrev fQM_QRSEL_Q : Fld := ⟨13, 0x28, 0, 14⟩
/-- 19 QM.QRST.CRIT (R440). -/
abbrev fQM_QRST_CRIT : Fld := ⟨13, 0x29, 0, 1⟩
/-- 19 QM.QRD1.D (R440). -/
abbrev fQM_QRD1_D : Fld := ⟨13, 0x2a, 0, 6⟩
/-- 19 QM.QRD0.D (R440). -/
abbrev fQM_QRD0_D : Fld := ⟨13, 0x2b, 0, 24⟩
/-- 19 QM.QRFR.N (R440). -/
abbrev fQM_QRFR_N : Fld := ⟨13, 0x2c, 0, 24⟩
/-- 19 QM.IGX.XOFF (R440). -/
abbrev fQM_IGX_XOFF : Fld := ⟨13, 0x40, 0, 16⟩
/-- 19 QM.IGN.XON (R440). -/
abbrev fQM_IGN_XON : Fld := ⟨13, 0x41, 0, 16⟩
/-- 19 QM.EQCNT.FRAMES (R440). -/
abbrev fQM_EQCNT_FRAMES : Fld := ⟨13, 0x100, 0, 16⟩
/-- 19 QM.HQBASEH.BASE (R440). -/
abbrev fQM_HQBASEH_BASE : Fld := ⟨13, 0x200, 0, 24⟩
/-- 19 QM.HQBASEL.BASE (R440). -/
abbrev fQM_HQBASEL_BASE : Fld := ⟨13, 0x201, 0, 24⟩
/-- 19 QM.HQCFG.ENTRIES (R440). -/
abbrev fQM_HQCFG_ENTRIES : Fld := ⟨13, 0x202, 0, 11⟩
/-- 19 QM.HQDONE.N (R440). -/
abbrev fQM_HQDONE_N : Fld := ⟨13, 0x203, 0, 11⟩
/-- 19 QM.HQCNT.FRAMES (R440). -/
abbrev fQM_HQCNT_FRAMES : Fld := ⟨13, 0x240, 0, 11⟩
/-- 20 SCH.PNPIR.PIR (R459). -/
abbrev fSCH_PNPIR_PIR : Fld := ⟨14, 0x10, 0, 24⟩
/-- 20 SCH.PNPBS.PBS (R459). -/
abbrev fSCH_PNPBS_PBS : Fld := ⟨14, 0x11, 0, 22⟩
/-- 20 SCH.PNCFG.OVH (R459). -/
abbrev fSCH_PNCFG_OVH : Fld := ⟨14, 0x12, 0, 6⟩
/-- 20 SCH.PNCFG.GCLASS (R459). -/
abbrev fSCH_PNCFG_GCLASS : Fld := ⟨14, 0x12, 8, 8⟩
/-- 20 SCH.PNSTAT.ELIG (R459). -/
abbrev fSCH_PNSTAT_ELIG : Fld := ⟨14, 0x13, 0, 8⟩
/-- 20 SCH.SMPINT.I (R459). -/
abbrev fSCH_SMPINT_I : Fld := ⟨14, 0x14, 0, 10⟩
/-- 20 SCH.SVSEL.SV (R459). -/
abbrev fSCH_SVSEL_SV : Fld := ⟨14, 0x20, 0, 9⟩
/-- 20 SCH.SVA.ATT (R459). -/
abbrev fSCH_SVA_ATT : Fld := ⟨14, 0x21, 0, 1⟩
/-- 20 SCH.SVA.WEIGHT (R459). -/
abbrev fSCH_SVA_WEIGHT : Fld := ⟨14, 0x21, 1, 8⟩
/-- 20 SCH.SVCIR.CIR (R459). -/
abbrev fSCH_SVCIR_CIR : Fld := ⟨14, 0x22, 0, 24⟩
/-- 20 SCH.SVCBS.CBS (R459). -/
abbrev fSCH_SVCBS_CBS : Fld := ⟨14, 0x23, 0, 22⟩
/-- 20 SCH.SVPIR.PIR (R459). -/
abbrev fSCH_SVPIR_PIR : Fld := ⟨14, 0x24, 0, 24⟩
/-- 20 SCH.SVPBS.PBS (R459). -/
abbrev fSCH_SVPBS_PBS : Fld := ⟨14, 0x25, 0, 22⟩
/-- 20 SCH.SBSEL.SB (R459). -/
abbrev fSCH_SBSEL_SB : Fld := ⟨14, 0x30, 0, 12⟩
/-- 20 SCH.SBA.PARENT (R459). -/
abbrev fSCH_SBA_PARENT : Fld := ⟨14, 0x31, 0, 9⟩
/-- 20 SCH.SBA.ATT (R459). -/
abbrev fSCH_SBA_ATT : Fld := ⟨14, 0x31, 9, 1⟩
/-- 20 SCH.SBA.WEIGHT (R459). -/
abbrev fSCH_SBA_WEIGHT : Fld := ⟨14, 0x31, 10, 8⟩
/-- 20 SCH.SBCIR.CIR (R459). -/
abbrev fSCH_SBCIR_CIR : Fld := ⟨14, 0x32, 0, 24⟩
/-- 20 SCH.SBCBS.CBS (R459). -/
abbrev fSCH_SBCBS_CBS : Fld := ⟨14, 0x33, 0, 22⟩
/-- 20 SCH.SBPIR.PIR (R459). -/
abbrev fSCH_SBPIR_PIR : Fld := ⟨14, 0x34, 0, 24⟩
/-- 20 SCH.SBPBS.PBS (R459). -/
abbrev fSCH_SBPBS_PBS : Fld := ⟨14, 0x35, 0, 22⟩
/-- 20 SCH.SQSEL.Q (R459). -/
abbrev fSCH_SQSEL_Q : Fld := ⟨14, 0x40, 0, 14⟩
/-- 20 SCH.SQA.PARENT (R459). -/
abbrev fSCH_SQA_PARENT : Fld := ⟨14, 0x41, 0, 12⟩
/-- 20 SCH.SQA.ATT (R459). -/
abbrev fSCH_SQA_ATT : Fld := ⟨14, 0x41, 12, 1⟩
/-- 20 SCH.SQA.CLASS (R459). -/
abbrev fSCH_SQA_CLASS : Fld := ⟨14, 0x41, 13, 3⟩
/-- 20 SCH.SQA.WEIGHT (R459). -/
abbrev fSCH_SQA_WEIGHT : Fld := ⟨14, 0x41, 16, 8⟩
/-- 20 SCH.RDSEL.KIND (R459). -/
abbrev fSCH_RDSEL_KIND : Fld := ⟨14, 0x50, 0, 2⟩
/-- 20 SCH.RDSEL.INDEX (R459). -/
abbrev fSCH_RDSEL_INDEX : Fld := ⟨14, 0x50, 2, 14⟩
/-- 20 SCH.RDA.A (R459). -/
abbrev fSCH_RDA_A : Fld := ⟨14, 0x51, 0, 24⟩
/-- 20 SCH.RDCC.C (R459). -/
abbrev fSCH_RDCC_C : Fld := ⟨14, 0x52, 0, 24⟩
/-- 20 SCH.RDPC.P (R459). -/
abbrev fSCH_RDPC_P : Fld := ⟨14, 0x53, 0, 24⟩
/-- 21 MEM.MCFG.RTINT (R472). -/
abbrev fMEM_MCFG_RTINT : Fld := ⟨15, 0x10, 0, 6⟩
/-- 21 MEM.MCFG.RTTEMP (R472). -/
abbrev fMEM_MCFG_RTTEMP : Fld := ⟨15, 0x10, 6, 6⟩
/-- 21 MEM.MSTAT.CH (R472). -/
abbrev fMEM_MSTAT_CH : Fld := ⟨15, 0x11, 0, 5⟩
/-- 21 MEM.MSTAT.NOTICE (R472). -/
abbrev fMEM_MSTAT_NOTICE : Fld := ⟨15, 0x11, 5, 1⟩
/-- 21 MEM.MSTAT.PAUSE (R472). -/
abbrev fMEM_MSTAT_PAUSE : Fld := ⟨15, 0x11, 6, 1⟩
/-- 21 MEM.MBW.BW (R472). -/
abbrev fMEM_MBW_BW : Fld := ⟨15, 0x12, 0, 24⟩
/-- 21 MEM.CHSTAT.REFX (R472). -/
abbrev fMEM_CHSTAT_REFX : Fld := ⟨15, 0x20, 0, 2⟩
/-- 21 MEM.CHSTAT.TRAINOK (R472). -/
abbrev fMEM_CHSTAT_TRAINOK : Fld := ⟨15, 0x20, 2, 1⟩
/-- 21 MEM.CHSTAT.TFAIL (R472). -/
abbrev fMEM_CHSTAT_TFAIL : Fld := ⟨15, 0x20, 3, 8⟩
/-- 21 MEM.CHSTAT.REPORT (R472). -/
abbrev fMEM_CHSTAT_REPORT : Fld := ⟨15, 0x20, 11, 5⟩
/-- 21 MEM.TRAIN.TRAINNOW (R472). -/
abbrev fMEM_TRAIN_TRAINNOW : Fld := ⟨15, 0x40, 0, 1⟩
/-- 22 MPE.REGSEL.R (R490). -/
abbrev fMPE_REGSEL_R : Fld := ⟨16, 0x10, 0, 4⟩
/-- 22 MPE.REGA.BASE (R490). -/
abbrev fMPE_REGA_BASE : Fld := ⟨16, 0x11, 0, 21⟩
/-- 22 MPE.REGB.LIMIT (R490). -/
abbrev fMPE_REGB_LIMIT : Fld := ⟨16, 0x12, 0, 21⟩
/-- 22 MPE.REGB.VALID (R490). -/
abbrev fMPE_REGB_VALID : Fld := ⟨16, 0x12, 21, 1⟩
/-- 22 MPE.REGB.PROT (R490). -/
abbrev fMPE_REGB_PROT : Fld := ⟨16, 0x12, 22, 1⟩
/-- 22 MPE.RTSEL.E (R490). -/
abbrev fMPE_RTSEL_E : Fld := ⟨16, 0x20, 0, 4⟩
/-- 22 MPE.RWBASE.BASE (R490). -/
abbrev fMPE_RWBASE_BASE : Fld := ⟨16, 0x21, 0, 21⟩
/-- 22 MPE.RWBASE.RD (R490). -/
abbrev fMPE_RWBASE_RD : Fld := ⟨16, 0x21, 21, 1⟩
/-- 22 MPE.RWBASE.WR (R490). -/
abbrev fMPE_RWBASE_WR : Fld := ⟨16, 0x21, 22, 1⟩
/-- 22 MPE.RWLIM.LIMIT (R490). -/
abbrev fMPE_RWLIM_LIMIT : Fld := ⟨16, 0x22, 0, 21⟩
/-- 22 MPE.RTRSEL.E (R490). -/
abbrev fMPE_RTRSEL_E : Fld := ⟨16, 0x30, 0, 4⟩
/-- 22 MPE.RKSEL.R (R490). -/
abbrev fMPE_RKSEL_R : Fld := ⟨16, 0x40, 0, 4⟩
/-- 22 MPE.RKGO.GO (R490). -/
abbrev fMPE_RKGO_GO : Fld := ⟨16, 0x41, 0, 1⟩
/-- 22 MPE.RKRES.STATE (R490). -/
abbrev fMPE_RKRES_STATE : Fld := ⟨16, 0x43, 0, 2⟩
/-- 22 MPE.RKSTAT.RUN (R490). -/
abbrev fMPE_RKSTAT_RUN : Fld := ⟨16, 0x44, 0, 1⟩
/-- 22 MPE.RKB1.B (R490). -/
abbrev fMPE_RKB1_B : Fld := ⟨16, 0x45, 0, 24⟩
/-- 22 MPE.RKB0.B (R490). -/
abbrev fMPE_RKB0_B : Fld := ⟨16, 0x46, 0, 24⟩
/-- 22 MPE.INIT.DONE (R490). -/
abbrev fMPE_INIT_DONE : Fld := ⟨16, 0x47, 0, 1⟩
/-- 23 KEY.SLSEL.SLOT (R513). -/
abbrev fKEY_SLSEL_SLOT : Fld := ⟨17, 0x10, 0, 13⟩
/-- 23 KEY.SLATTR.CLASS (R513). -/
abbrev fKEY_SLATTR_CLASS : Fld := ⟨17, 0x11, 0, 2⟩
/-- 23 KEY.SLLIFE.LIFE (R513). -/
abbrev fKEY_SLLIFE_LIFE : Fld := ⟨17, 0x12, 0, 24⟩
/-- 23 KEY.DSRC.SLOT (R513). -/
abbrev fKEY_DSRC_SLOT : Fld := ⟨17, 0x20, 0, 13⟩
/-- 23 KEY.DSRC.SUPPLIED (R513). -/
abbrev fKEY_DSRC_SUPPLIED : Fld := ⟨17, 0x20, 13, 1⟩
/-- 23 KEY.DLABEL.L (R513). -/
abbrev fKEY_DLABEL_L : Fld := ⟨17, 0x21, 0, 24⟩
/-- 23 KEY.DMEAS.M (R513). -/
abbrev fKEY_DMEAS_M : Fld := ⟨17, 0x25, 0, 24⟩
/-- 23 KEY.KGO.OP (R513). -/
abbrev fKEY_KGO_OP : Fld := ⟨17, 0x35, 0, 4⟩
/-- 23 KEY.KRES.WHY (R513). -/
abbrev fKEY_KRES_WHY : Fld := ⟨17, 0x36, 0, 4⟩
/-- 23 KEY.SLQ.ATTR (R513). -/
abbrev fKEY_SLQ_ATTR : Fld := ⟨17, 0x37, 0, 11⟩
/-- 23 KEY.MRSEL.ACC (R513). -/
abbrev fKEY_MRSEL_ACC : Fld := ⟨17, 0x40, 0, 2⟩
/-- 23 KEY.RAND.R (R513). -/
abbrev fKEY_RAND_R : Fld := ⟨17, 0x60, 0, 24⟩
/-- 23 KEY.RNGSTAT.READY (R513). -/
abbrev fKEY_RNGSTAT_READY : Fld := ⟨17, 0x61, 0, 1⟩
/-- 23 KEY.RNGSTAT.FAILED (R513). -/
abbrev fKEY_RNGSTAT_FAILED : Fld := ⟨17, 0x61, 1, 1⟩
/-- 23 KEY.LCSTATE.STATE (R513). -/
abbrev fKEY_LCSTATE_STATE : Fld := ⟨17, 0x70, 0, 2⟩
/-- 23 KEY.LCSTATE.PENDING (R513). -/
abbrev fKEY_LCSTATE_PENDING : Fld := ⟨17, 0x70, 2, 1⟩
/-- 23 KEY.LCGO.OP (R513). -/
abbrev fKEY_LCGO_OP : Fld := ⟨17, 0x71, 0, 3⟩
/-- 23 KEY.LCRES.WHY (R513). -/
abbrev fKEY_LCRES_WHY : Fld := ⟨17, 0x72, 0, 4⟩
/-- 23 CHK.CSLOT.SLOT (R514). -/
abbrev fCHK_CSLOT_SLOT : Fld := ⟨18, 0x10, 0, 13⟩
/-- 23 CHK.COP.OP (R514). -/
abbrev fCHK_COP_OP : Fld := ⟨18, 0x11, 0, 4⟩
/-- 23 CHK.CIN.ADDR (R514). -/
abbrev fCHK_CIN_ADDR : Fld := ⟨18, 0x12, 0, 19⟩
/-- 23 CHK.CLEN.N (R514). -/
abbrev fCHK_CLEN_N : Fld := ⟨18, 0x13, 0, 13⟩
/-- 23 CHK.COUT.ADDR (R514). -/
abbrev fCHK_COUT_ADDR : Fld := ⟨18, 0x14, 0, 19⟩
/-- 23 CHK.CTLEN.N (R514). -/
abbrev fCHK_CTLEN_N : Fld := ⟨18, 0x15, 0, 5⟩
/-- 23 CHK.CIV.IV (R514). -/
abbrev fCHK_CIV_IV : Fld := ⟨18, 0x16, 0, 24⟩
/-- 23 CHK.CTAG.T (R514). -/
abbrev fCHK_CTAG_T : Fld := ⟨18, 0x1a, 0, 24⟩
/-- 23 CHK.CKSRC.SLOT (R514). -/
abbrev fCHK_CKSRC_SLOT : Fld := ⟨18, 0x20, 0, 13⟩
/-- 23 CHK.CTSLOT.SLOT (R514). -/
abbrev fCHK_CTSLOT_SLOT : Fld := ⟨18, 0x21, 0, 13⟩
/-- 23 CHK.CTATTR.CLASS (R514). -/
abbrev fCHK_CTATTR_CLASS : Fld := ⟨18, 0x22, 0, 2⟩
/-- 23 CHK.CTLIFE.LIFE (R514). -/
abbrev fCHK_CTLIFE_LIFE : Fld := ⟨18, 0x23, 0, 24⟩
/-- 23 CHK.CGO.GO (R514). -/
abbrev fCHK_CGO_GO : Fld := ⟨18, 0x24, 0, 1⟩
/-- 23 CHK.CRES.CODE (R514). -/
abbrev fCHK_CRES_CODE : Fld := ⟨18, 0x25, 0, 4⟩
/-- 23 CHK.CTAGOUT.T (R514). -/
abbrev fCHK_CTAGOUT_T : Fld := ⟨18, 0x26, 0, 24⟩
/-- 24 TIME.TSTAT.STATE (R539). -/
abbrev fTIME_TSTAT_STATE : Fld := ⟨19, 0x10, 0, 2⟩
/-- 24 TIME.TSTAT.NOCANDLE (R539). -/
abbrev fTIME_TSTAT_NOCANDLE : Fld := ⟨19, 0x10, 2, 1⟩
/-- 24 TIME.TSTAT.CLKSRC (R539). -/
abbrev fTIME_TSTAT_CLKSRC : Fld := ⟨19, 0x10, 3, 1⟩
/-- 24 TIME.TSTAT.SELREF (R539). -/
abbrev fTIME_TSTAT_SELREF : Fld := ⟨19, 0x10, 4, 3⟩
/-- 24 TIME.TSTAT.TVALID (R539). -/
abbrev fTIME_TSTAT_TVALID : Fld := ⟨19, 0x10, 7, 1⟩
/-- 24 TIME.TSTAT.ELIG (R539). -/
abbrev fTIME_TSTAT_ELIG : Fld := ⟨19, 0x10, 8, 5⟩
/-- 24 TIME.TGEN.GEN (R539). -/
abbrev fTIME_TGEN_GEN : Fld := ⟨19, 0x11, 0, 24⟩
/-- 24 TIME.SERVO.LOCKED (R539). -/
abbrev fTIME_SERVO_LOCKED : Fld := ⟨19, 0x12, 0, 1⟩
/-- 24 TIME.REFCTL.EN (R539). -/
abbrev fTIME_REFCTL_EN : Fld := ⟨19, 0x13, 0, 5⟩
/-- 24 TIME.REFCTL.QUAL (R539). -/
abbrev fTIME_REFCTL_QUAL : Fld := ⟨19, 0x13, 8, 5⟩
/-- 24 TIME.REFCTL.WTR (R539). -/
abbrev fTIME_REFCTL_WTR : Fld := ⟨19, 0x13, 13, 11⟩
/-- 24 TIME.REFSRC.SEPORT (R539). -/
abbrev fTIME_REFSRC_SEPORT : Fld := ⟨19, 0x14, 0, 5⟩
/-- 24 TIME.REFSRC.PONCH (R539). -/
abbrev fTIME_REFSRC_PONCH : Fld := ⟨19, 0x14, 5, 2⟩
/-- 24 TIME.UTCOFF.OFF (R539). -/
abbrev fTIME_UTCOFF_OFF : Fld := ⟨19, 0x15, 0, 16⟩
/-- 24 TIME.UTCOFF.LEAP59 (R539). -/
abbrev fTIME_UTCOFF_LEAP59 : Fld := ⟨19, 0x15, 16, 1⟩
/-- 24 TIME.UTCOFF.LEAP61 (R539). -/
abbrev fTIME_UTCOFF_LEAP61 : Fld := ⟨19, 0x15, 17, 1⟩
/-- 24 TIME.UTCOFF.VALID (R539). -/
abbrev fTIME_UTCOFF_VALID : Fld := ⟨19, 0x15, 18, 1⟩
/-- 24 TIME.FADJ1.F (R539). -/
abbrev fTIME_FADJ1_F : Fld := ⟨19, 0x20, 0, 8⟩
/-- 24 TIME.FADJ0.F (R539). -/
abbrev fTIME_FADJ0_F : Fld := ⟨19, 0x21, 0, 24⟩
/-- 24 TIME.OFFS1.O (R539). -/
abbrev fTIME_OFFS1_O : Fld := ⟨19, 0x22, 0, 24⟩
/-- 24 TIME.OFFS0.O (R539). -/
abbrev fTIME_OFFS0_O : Fld := ⟨19, 0x23, 0, 24⟩
/-- 24 TIME.SETS2.S (R539). -/
abbrev fTIME_SETS2_S : Fld := ⟨19, 0x24, 0, 24⟩
/-- 24 TIME.SETS1.S (R539). -/
abbrev fTIME_SETS1_S : Fld := ⟨19, 0x25, 0, 24⟩
/-- 24 TIME.SETS0.S (R539). -/
abbrev fTIME_SETS0_S : Fld := ⟨19, 0x26, 0, 24⟩
/-- 24 TIME.SETN1.NH (R539). -/
abbrev fTIME_SETN1_NH : Fld := ⟨19, 0x27, 0, 6⟩
/-- 24 TIME.SETN0.NL (R539). -/
abbrev fTIME_SETN0_NL : Fld := ⟨19, 0x28, 0, 24⟩
/-- 24 TIME.SLEW.PPM (R539). -/
abbrev fTIME_SLEW_PPM : Fld := ⟨19, 0x29, 0, 10⟩
/-- 24 TIME.ADJGO.FREQ (R539). -/
abbrev fTIME_ADJGO_FREQ : Fld := ⟨19, 0x2a, 0, 1⟩
/-- 24 TIME.ADJGO.REF (R539). -/
abbrev fTIME_ADJGO_REF : Fld := ⟨19, 0x2a, 4, 3⟩
/-- 24 TIME.ADJRES.STATE (R539). -/
abbrev fTIME_ADJRES_STATE : Fld := ⟨19, 0x2b, 0, 2⟩
/-- 24 TIME.ADJRES.SLEWING (R539). -/
abbrev fTIME_ADJRES_SLEWING : Fld := ⟨19, 0x2b, 2, 1⟩
/-- 24 TIME.LATCH.GO (R539). -/
abbrev fTIME_LATCH_GO : Fld := ⟨19, 0x100, 0, 1⟩
/-- 24 TIME.S2.S (R539). -/
abbrev fTIME_S2_S : Fld := ⟨19, 0x101, 0, 24⟩
/-- 24 TIME.S1.S (R539). -/
abbrev fTIME_S1_S : Fld := ⟨19, 0x102, 0, 24⟩
/-- 24 TIME.S0.S (R539). -/
abbrev fTIME_S0_S : Fld := ⟨19, 0x103, 0, 24⟩
/-- 24 TIME.NH.N (R539). -/
abbrev fTIME_NH_N : Fld := ⟨19, 0x104, 0, 6⟩
/-- 24 TIME.NL.N (R539). -/
abbrev fTIME_NL_N : Fld := ⟨19, 0x105, 0, 24⟩
/-- 24 TIME.FRAC.F (R539). -/
abbrev fTIME_FRAC_F : Fld := ⟨19, 0x106, 0, 18⟩
/-- 24 TIME.GEN.G (R539). -/
abbrev fTIME_GEN_G : Fld := ⟨19, 0x107, 0, 24⟩
/-- 24 TIME.PPSCFG.DLY (R539). -/
abbrev fTIME_PPSCFG_DLY : Fld := ⟨19, 0x60, 0, 17⟩
/-- 24 TIME.PPSCFG.EN (R539). -/
abbrev fTIME_PPSCFG_EN : Fld := ⟨19, 0x60, 17, 1⟩
/-- 24 TIME.PS.S (R539). -/
abbrev fTIME_PS_S : Fld := ⟨19, 0x61, 0, 24⟩
/-- 24 TIME.PNH.NH (R539). -/
abbrev fTIME_PNH_NH : Fld := ⟨19, 0x62, 0, 6⟩
/-- 24 TIME.PNL.NL (R539). -/
abbrev fTIME_PNL_NL : Fld := ⟨19, 0x63, 0, 24⟩
/-- 24 TIME.PG.G (R539). -/
abbrev fTIME_PG_G : Fld := ⟨19, 0x64, 0, 24⟩
/-- 24 TIME.PPSST.PPSLOS (R539). -/
abbrev fTIME_PPSST_PPSLOS : Fld := ⟨19, 0x65, 0, 1⟩
/-- 24 TIME.TODCFG.RATE (R539). -/
abbrev fTIME_TODCFG_RATE : Fld := ⟨19, 0x66, 0, 3⟩
/-- 24 TIME.TODCFG.EN (R539). -/
abbrev fTIME_TODCFG_EN : Fld := ⟨19, 0x66, 3, 1⟩
/-- 24 TIME.TODRX.BYTE (R539). -/
abbrev fTIME_TODRX_BYTE : Fld := ⟨19, 0x67, 0, 8⟩
/-- 24 TIME.TODTAKE.TAKE (R539). -/
abbrev fTIME_TODTAKE_TAKE : Fld := ⟨19, 0x70, 0, 1⟩
/-- 24 TIME.PPOCFG.EN (R539). -/
abbrev fTIME_PPOCFG_EN : Fld := ⟨19, 0x80, 0, 1⟩
/-- 24 TIME.PPOCFG.WIDTH (R539). -/
abbrev fTIME_PPOCFG_WIDTH : Fld := ⟨19, 0x80, 1, 19⟩
/-- 24 TIME.PPOADV.ADV (R539). -/
abbrev fTIME_PPOADV_ADV : Fld := ⟨19, 0x81, 0, 17⟩
/-- 24 TIME.TODOCFG.EN (R539). -/
abbrev fTIME_TODOCFG_EN : Fld := ⟨19, 0x82, 0, 1⟩
/-- 24 TIME.TODOCFG.RATE (R539). -/
abbrev fTIME_TODOCFG_RATE : Fld := ⟨19, 0x82, 1, 3⟩
/-- 24 TIME.TODOCFG.MSGEN (R539). -/
abbrev fTIME_TODOCFG_MSGEN : Fld := ⟨19, 0x82, 4, 1⟩
/-- 24 TIME.FRQCFG.EN (R539). -/
abbrev fTIME_FRQCFG_EN : Fld := ⟨19, 0x83, 0, 1⟩
/-- 24 TIME.FREQ1.F (R539). -/
abbrev fTIME_FREQ1_F : Fld := ⟨19, 0x84, 0, 1⟩
/-- 24 TIME.FREQ0.F (R539). -/
abbrev fTIME_FREQ0_F : Fld := ⟨19, 0x85, 0, 24⟩
/-- 24 TIME.EGSEL.PORT (R539). -/
abbrev fTIME_EGSEL_PORT : Fld := ⟨19, 0xa0, 0, 5⟩
/-- 24 TIME.EGHEAD.MTYPE (R539). -/
abbrev fTIME_EGHEAD_MTYPE : Fld := ⟨19, 0xa1, 0, 4⟩
/-- 24 TIME.EGSEQ.SEQ (R539). -/
abbrev fTIME_EGSEQ_SEQ : Fld := ⟨19, 0xa2, 0, 16⟩
/-- 24 TIME.EGS.S (R539). -/
abbrev fTIME_EGS_S : Fld := ⟨19, 0xa3, 0, 24⟩
/-- 24 TIME.EGNH.NH (R539). -/
abbrev fTIME_EGNH_NH : Fld := ⟨19, 0xa4, 0, 6⟩
/-- 24 TIME.EGNL.NL (R539). -/
abbrev fTIME_EGNL_NL : Fld := ⟨19, 0xa5, 0, 24⟩
/-- 24 TIME.EGG.G (R539). -/
abbrev fTIME_EGG_G : Fld := ⟨19, 0xa6, 0, 24⟩
/-- 24 TIME.EGTAKE.TAKE (R539). -/
abbrev fTIME_EGTAKE_TAKE : Fld := ⟨19, 0xa7, 0, 1⟩
/-- 24 TIME.SEFREQ.F (R539). -/
abbrev fTIME_SEFREQ_F : Fld := ⟨19, 0xb0, 0, 24⟩
/-- 24 TIME.TRGCTL.EN (R539). -/
abbrev fTIME_TRGCTL_EN : Fld := ⟨19, 0x200, 0, 1⟩
/-- 24 TIME.TRGCTL.MSG (R539). -/
abbrev fTIME_TRGCTL_MSG : Fld := ⟨19, 0x200, 1, 1⟩
/-- 24 TIME.TRGCTL.WAKE (R539). -/
abbrev fTIME_TRGCTL_WAKE : Fld := ⟨19, 0x200, 2, 1⟩
/-- 24 TIME.TRGCTL.ENG (R539). -/
abbrev fTIME_TRGCTL_ENG : Fld := ⟨19, 0x200, 3, 8⟩
/-- 24 TIME.TST1.T (R539). -/
abbrev fTIME_TST1_T : Fld := ⟨19, 0x201, 0, 24⟩
/-- 24 TIME.TST0.T (R539). -/
abbrev fTIME_TST0_T : Fld := ⟨19, 0x202, 0, 24⟩
/-- 24 TIME.TPS.S (R539). -/
abbrev fTIME_TPS_S : Fld := ⟨19, 0x203, 0, 12⟩
/-- 24 TIME.TPN1.N (R539). -/
abbrev fTIME_TPN1_N : Fld := ⟨19, 0x204, 0, 6⟩
/-- 24 TIME.TPN0.N (R539). -/
abbrev fTIME_TPN0_N : Fld := ⟨19, 0x205, 0, 24⟩
/-- 24 TIME.TCNT.C (R539). -/
abbrev fTIME_TCNT_C : Fld := ⟨19, 0x206, 0, 24⟩
/-- 24 TIME.TARM.ARM (R539). -/
abbrev fTIME_TARM_ARM : Fld := ⟨19, 0x207, 0, 1⟩
/-- 24 TIME.TRUN.RUN (R539). -/
abbrev fTIME_TRUN_RUN : Fld := ⟨19, 0x208, 0, 1⟩
/-- 24 TIME.TFIRE.K (R539). -/
abbrev fTIME_TFIRE_K : Fld := ⟨19, 0x209, 0, 24⟩
/-- 24 TIME.TMISS.M (R539). -/
abbrev fTIME_TMISS_M : Fld := ⟨19, 0x20a, 0, 24⟩
/-- 25 CNDL.CSTAT.OSC (R555). -/
abbrev fCNDL_CSTAT_OSC : Fld := ⟨20, 0x10, 0, 1⟩
/-- 25 CNDL.CSTAT.OVENOK (R555). -/
abbrev fCNDL_CSTAT_OVENOK : Fld := ⟨20, 0x10, 1, 1⟩
/-- 25 CNDL.CSTAT.HOLD (R555). -/
abbrev fCNDL_CSTAT_HOLD : Fld := ⟨20, 0x10, 2, 1⟩
/-- 25 CNDL.CSTAT.LCLASS (R555). -/
abbrev fCNDL_CSTAT_LCLASS : Fld := ⟨20, 0x10, 3, 2⟩
/-- 25 CNDL.CSTAT.CLAMP (R555). -/
abbrev fCNDL_CSTAT_CLAMP : Fld := ⟨20, 0x10, 5, 1⟩
/-- 25 CNDL.CSTAT.JUMP (R555). -/
abbrev fCNDL_CSTAT_JUMP : Fld := ⟨20, 0x10, 6, 1⟩
/-- 25 CNDL.LEARNH.H (R555). -/
abbrev fCNDL_LEARNH_H : Fld := ⟨20, 0x11, 0, 24⟩
/-- 25 CNDL.LSEED.H (R555). -/
abbrev fCNDL_LSEED_H : Fld := ⟨20, 0x12, 0, 5⟩
/-- 25 CNDL.HELAPS.S (R555). -/
abbrev fCNDL_HELAPS_S : Fld := ⟨20, 0x13, 0, 24⟩
/-- 25 CNDL.HBOUND.NS (R555). -/
abbrev fCNDL_HBOUND_NS : Fld := ⟨20, 0x14, 0, 24⟩
/-- 25 CNDL.FMEAN1.F (R555). -/
abbrev fCNDL_FMEAN1_F : Fld := ⟨20, 0x15, 0, 8⟩
/-- 25 CNDL.FMEAN0.F (R555). -/
abbrev fCNDL_FMEAN0_F : Fld := ⟨20, 0x16, 0, 24⟩
/-- 25 CNDL.HPWR.P (R555). -/
abbrev fCNDL_HPWR_P : Fld := ⟨20, 0x17, 0, 24⟩
/-- 25 CNDL.OERR.E (R555). -/
abbrev fCNDL_OERR_E : Fld := ⟨20, 0x18, 0, 24⟩
/-- 25 CNDL.RESID.R (R555). -/
abbrev fCNDL_RESID_R : Fld := ⟨20, 0x19, 0, 24⟩
/-- 25 CNDL.KA.K (R555). -/
abbrev fCNDL_KA_K : Fld := ⟨20, 0x20, 0, 24⟩
/-- 25 CNDL.KH.K (R555). -/
abbrev fCNDL_KH_K : Fld := ⟨20, 0x21, 0, 24⟩
/-- 25 CNDL.KH2.K (R555). -/
abbrev fCNDL_KH2_K : Fld := ⟨20, 0x22, 0, 24⟩
/-- 25 CNDL.KE.K (R555). -/
abbrev fCNDL_KE_K : Fld := ⟨20, 0x23, 0, 24⟩
/-- 25 CNDL.H0.P (R555). -/
abbrev fCNDL_H0_P : Fld := ⟨20, 0x24, 0, 24⟩
/-- 25 CNDL.HAVG.S (R555). -/
abbrev fCNDL_HAVG_S : Fld := ⟨20, 0x25, 0, 12⟩
/-- 26 MEAS.MCAL.CALINT (R568). -/
abbrev fMEAS_MCAL_CALINT : Fld := ⟨21, 0x10, 0, 10⟩
/-- 26 MEAS.WENG.ENG (R568). -/
abbrev fMEAS_WENG_ENG : Fld := ⟨21, 0x11, 0, 8⟩
/-- 26 MEAS.ACFG.RANGE (R568). -/
abbrev fMEAS_ACFG_RANGE : Fld := ⟨21, 0x20, 0, 2⟩
/-- 26 MEAS.ACFG.RATE (R568). -/
abbrev fMEAS_ACFG_RATE : Fld := ⟨21, 0x20, 2, 4⟩
/-- 26 MEAS.ACFG.MODE (R568). -/
abbrev fMEAS_ACFG_MODE : Fld := ⟨21, 0x20, 6, 2⟩
/-- 26 MEAS.ACFG.TRIG (R568). -/
abbrev fMEAS_ACFG_TRIG : Fld := ⟨21, 0x20, 8, 4⟩
/-- 26 MEAS.ACFG.OPEN (R568). -/
abbrev fMEAS_ACFG_OPEN : Fld := ⟨21, 0x20, 12, 1⟩
/-- 26 MEAS.ACFG.WEN (R568). -/
abbrev fMEAS_ACFG_WEN : Fld := ⟨21, 0x20, 13, 1⟩
/-- 26 MEAS.ACFG.WWAKE (R568). -/
abbrev fMEAS_ACFG_WWAKE : Fld := ⟨21, 0x20, 14, 1⟩
/-- 26 MEAS.ACFG.WMSG (R568). -/
abbrev fMEAS_ACFG_WMSG : Fld := ⟨21, 0x20, 15, 1⟩
/-- 26 MEAS.ACFG.WCNT (R568). -/
abbrev fMEAS_ACFG_WCNT : Fld := ⟨21, 0x20, 16, 4⟩
/-- 26 MEAS.ACFG.WS3 (R568). -/
abbrev fMEAS_ACFG_WS3 : Fld := ⟨21, 0x20, 20, 1⟩
/-- 26 MEAS.ACFG.WINV (R568). -/
abbrev fMEAS_ACFG_WINV : Fld := ⟨21, 0x20, 21, 1⟩
/-- 26 MEAS.AVAL.V (R568). -/
abbrev fMEAS_AVAL_V : Fld := ⟨21, 0x21, 0, 24⟩
/-- 26 MEAS.WHI.T (R568). -/
abbrev fMEAS_WHI_T : Fld := ⟨21, 0x22, 0, 24⟩
/-- 26 MEAS.WLO.T (R568). -/
abbrev fMEAS_WLO_T : Fld := ⟨21, 0x23, 0, 24⟩
/-- 26 MEAS.WSTAT.TRIP (R568). -/
abbrev fMEAS_WSTAT_TRIP : Fld := ⟨21, 0x80, 0, 18⟩
/-- 26 MEAS.PCFG.EN (R568). -/
abbrev fMEAS_PCFG_EN : Fld := ⟨21, 0x100, 0, 1⟩
/-- 26 MEAS.PCFG.POL (R568). -/
abbrev fMEAS_PCFG_POL : Fld := ⟨21, 0x100, 1, 1⟩
/-- 26 MEAS.PCFG.SAFE (R568). -/
abbrev fMEAS_PCFG_SAFE : Fld := ⟨21, 0x100, 2, 2⟩
/-- 26 MEAS.PCFG.CYC (R568). -/
abbrev fMEAS_PCFG_CYC : Fld := ⟨21, 0x100, 4, 4⟩
/-- 26 MEAS.PPER.T (R568). -/
abbrev fMEAS_PPER_T : Fld := ⟨21, 0x101, 0, 24⟩
/-- 26 MEAS.PDUTY.T (R568). -/
abbrev fMEAS_PDUTY_T : Fld := ⟨21, 0x102, 0, 24⟩
/-- 26 MEAS.PNEXT.T (R568). -/
abbrev fMEAS_PNEXT_T : Fld := ⟨21, 0x103, 0, 24⟩
/-- 26 MEAS.DCFG.DIR (R568). -/
abbrev fMEAS_DCFG_DIR : Fld := ⟨21, 0x140, 0, 2⟩
/-- 26 MEAS.DCFG.VAL (R568). -/
abbrev fMEAS_DCFG_VAL : Fld := ⟨21, 0x140, 2, 1⟩
/-- 26 MEAS.DCFG.SAFE (R568). -/
abbrev fMEAS_DCFG_SAFE : Fld := ⟨21, 0x140, 3, 2⟩
/-- 26 MEAS.DCFG.CYC (R568). -/
abbrev fMEAS_DCFG_CYC : Fld := ⟨21, 0x140, 5, 4⟩
/-- 26 MEAS.DCFG.EDGE (R568). -/
abbrev fMEAS_DCFG_EDGE : Fld := ⟨21, 0x140, 9, 2⟩
/-- 26 MEAS.DCFG.DWAKE (R568). -/
abbrev fMEAS_DCFG_DWAKE : Fld := ⟨21, 0x140, 11, 1⟩
/-- 26 MEAS.DCFG.DMSG (R568). -/
abbrev fMEAS_DCFG_DMSG : Fld := ⟨21, 0x140, 12, 1⟩
/-- 26 MEAS.DCFG.DEB (R568). -/
abbrev fMEAS_DCFG_DEB : Fld := ⟨21, 0x140, 13, 7⟩
/-- 26 MEAS.DIONEXT.V (R568). -/
abbrev fMEAS_DIONEXT_V : Fld := ⟨21, 0x170, 0, 16⟩
/-- 26 MEAS.DIOIN.V (R568). -/
abbrev fMEAS_DIOIN_V : Fld := ⟨21, 0x171, 0, 16⟩
/-- 26 MEAS.DIOEDGE.E (R568). -/
abbrev fMEAS_DIOEDGE_E : Fld := ⟨21, 0x172, 0, 16⟩
/-- 26 MEAS.ALM.ACTIVE0 (R568). -/
abbrev fMEAS_ALM_ACTIVE0 : Fld := ⟨21, 0x180, 0, 1⟩
/-- 26 MEAS.ALM.ACTIVE1 (R568). -/
abbrev fMEAS_ALM_ACTIVE1 : Fld := ⟨21, 0x180, 1, 1⟩
/-- 26 MEAS.ALM.SAFE0 (R568). -/
abbrev fMEAS_ALM_SAFE0 : Fld := ⟨21, 0x180, 2, 1⟩
/-- 26 MEAS.ALM.SAFE1 (R568). -/
abbrev fMEAS_ALM_SAFE1 : Fld := ⟨21, 0x180, 3, 1⟩
/-- 26 MEAS.CYCFG.TRIG (R568). -/
abbrev fMEAS_CYCFG_TRIG : Fld := ⟨21, 0x190, 0, 4⟩
/-- 26 MEAS.CYCFG.EN (R568). -/
abbrev fMEAS_CYCFG_EN : Fld := ⟨21, 0x190, 4, 1⟩
/-- 26 MEAS.CYDLY.OUTDLY (R568). -/
abbrev fMEAS_CYDLY_OUTDLY : Fld := ⟨21, 0x191, 0, 24⟩
/-- 26 MEAS.CYGO.GO (R568). -/
abbrev fMEAS_CYGO_GO : Fld := ⟨21, 0x1a0, 0, 8⟩
/-- 27 PWR.LEVEL.REQ (R584). -/
abbrev fPWR_LEVEL_REQ : Fld := ⟨22, 0x10, 0, 2⟩
/-- 27 PWR.MODE.SLEEP (R584). -/
abbrev fPWR_MODE_SLEEP : Fld := ⟨22, 0x11, 0, 2⟩
/-- 27 PWR.STATE.CURS (R584). -/
abbrev fPWR_STATE_CURS : Fld := ⟨22, 0x12, 0, 2⟩
/-- 27 PWR.STATE.CURL (R584). -/
abbrev fPWR_STATE_CURL : Fld := ⟨22, 0x12, 2, 2⟩
/-- 27 PWR.STATE.TGTS (R584). -/
abbrev fPWR_STATE_TGTS : Fld := ⟨22, 0x12, 4, 2⟩
/-- 27 PWR.STATE.TGTL (R584). -/
abbrev fPWR_STATE_TGTL : Fld := ⟨22, 0x12, 6, 2⟩
/-- 27 PWR.STATE.BUSY (R584). -/
abbrev fPWR_STATE_BUSY : Fld := ⟨22, 0x12, 8, 1⟩
/-- 27 PWR.STATE.PENDS (R584). -/
abbrev fPWR_STATE_PENDS : Fld := ⟨22, 0x12, 9, 2⟩
/-- 27 PWR.STATE.PENDL (R584). -/
abbrev fPWR_STATE_PENDL : Fld := ⟨22, 0x12, 11, 2⟩
/-- 27 PWR.STATE.PENDV (R584). -/
abbrev fPWR_STATE_PENDV : Fld := ⟨22, 0x12, 13, 1⟩
/-- 27 PWR.STATE.FORCED (R584). -/
abbrev fPWR_STATE_FORCED : Fld := ⟨22, 0x12, 14, 1⟩
/-- 27 PWR.STATE.REPL (R584). -/
abbrev fPWR_STATE_REPL : Fld := ⟨22, 0x12, 15, 8⟩
/-- 27 PWR.GATE.LANTERNS (R584). -/
abbrev fPWR_GATE_LANTERNS : Fld := ⟨22, 0x13, 1, 23⟩
/-- 27 PWR.WAKEMASK.EN (R584). -/
abbrev fPWR_WAKEMASK_EN : Fld := ⟨22, 0x14, 0, 7⟩
/-- 27 PWR.WAKEWHY.SRC (R584). -/
abbrev fPWR_WAKEWHY_SRC : Fld := ⟨22, 0x15, 0, 7⟩
/-- 27 PWR.PADS.REL (R584). -/
abbrev fPWR_PADS_REL : Fld := ⟨22, 0x16, 0, 1⟩
/-- 27 PWR.PADS.HELD (R584). -/
abbrev fPWR_PADS_HELD : Fld := ⟨22, 0x16, 1, 1⟩
/-- 27 PWR.OVLD.CAUSE (R584). -/
abbrev fPWR_OVLD_CAUSE : Fld := ⟨22, 0x18, 0, 4⟩
/-- 27 PWR.TJ.T (R584). -/
abbrev fPWR_TJ_T : Fld := ⟨22, 0x20, 0, 16⟩
/-- 27 PWR.VCORE.MV (R584). -/
abbrev fPWR_VCORE_MV : Fld := ⟨22, 0x21, 0, 12⟩
/-- 27 PWR.PMSTAT.TRIES (R584). -/
abbrev fPWR_PMSTAT_TRIES : Fld := ⟨22, 0x22, 0, 2⟩
/-- 27 PWR.OVPCP.PCP (R584). -/
abbrev fPWR_OVPCP_PCP : Fld := ⟨22, 0x40, 0, 8⟩
/-- 27 PWR.OVPCP.UNTAG (R584). -/
abbrev fPWR_OVPCP_UNTAG : Fld := ⟨22, 0x40, 8, 1⟩
/-- 28 PAIR.PCFG.PRIMARY (R602). -/
abbrev fPAIR_PCFG_PRIMARY : Fld := ⟨23, 0x10, 0, 1⟩
/-- 28 PAIR.PCFG.RSTEN (R602). -/
abbrev fPAIR_PCFG_RSTEN : Fld := ⟨23, 0x10, 1, 1⟩
/-- 28 PAIR.PGATE0.PORTS (R602). -/
abbrev fPAIR_PGATE0_PORTS : Fld := ⟨23, 0x11, 0, 24⟩
/-- 28 PAIR.PGATE1.PORTS (R602). -/
abbrev fPAIR_PGATE1_PORTS : Fld := ⟨23, 0x12, 0, 8⟩
/-- 28 PAIR.PGATE1.CHANS (R602). -/
abbrev fPAIR_PGATE1_CHANS : Fld := ⟨23, 0x12, 8, 4⟩
/-- 28 PAIR.FITOK.OK (R602). -/
abbrev fPAIR_FITOK_OK : Fld := ⟨23, 0x13, 0, 1⟩
/-- 28 PAIR.PCMD.SWITCH (R602). -/
abbrev fPAIR_PCMD_SWITCH : Fld := ⟨23, 0x14, 0, 1⟩
/-- 28 PAIR.PSTAT.ROLE (R602). -/
abbrev fPAIR_PSTAT_ROLE : Fld := ⟨23, 0x15, 0, 2⟩
/-- 28 PAIR.PSTAT.ACT (R602). -/
abbrev fPAIR_PSTAT_ACT : Fld := ⟨23, 0x15, 2, 1⟩
/-- 28 PAIR.PSTAT.FIT (R602). -/
abbrev fPAIR_PSTAT_FIT : Fld := ⟨23, 0x15, 3, 1⟩
/-- 28 PAIR.PSTAT.PACT (R602). -/
abbrev fPAIR_PSTAT_PACT : Fld := ⟨23, 0x15, 4, 1⟩
/-- 28 PAIR.PSTAT.PFIT (R602). -/
abbrev fPAIR_PSTAT_PFIT : Fld := ⟨23, 0x15, 5, 1⟩
/-- 28 PAIR.PSTAT.HEARD (R602). -/
abbrev fPAIR_PSTAT_HEARD : Fld := ⟨23, 0x15, 6, 1⟩
/-- 28 PAIR.PSTAT.LANES (R602). -/
abbrev fPAIR_PSTAT_LANES : Fld := ⟨23, 0x15, 7, 2⟩
/-- 28 PAIR.PSTAT.SYNCED (R602). -/
abbrev fPAIR_PSTAT_SYNCED : Fld := ⟨23, 0x15, 9, 1⟩
/-- 28 PAIR.PSTAT.GRACE (R602). -/
abbrev fPAIR_PSTAT_GRACE : Fld := ⟨23, 0x15, 10, 1⟩
/-- 28 PAIR.PWHY.CAUSE (R602). -/
abbrev fPAIR_PWHY_CAUSE : Fld := ⟨23, 0x16, 0, 4⟩
/-- 28 PAIR.MAGENT.ENG (R602). -/
abbrev fPAIR_MAGENT_ENG : Fld := ⟨23, 0x17, 0, 8⟩
/-- 28 PAIR.MTX.W (R602). -/
abbrev fPAIR_MTX_W : Fld := ⟨23, 0x20, 0, 24⟩
/-- 28 PAIR.MTXGO.GO (R602). -/
abbrev fPAIR_MTXGO_GO : Fld := ⟨23, 0x24, 0, 1⟩
/-- 28 PAIR.MTXRES.FULL (R602). -/
abbrev fPAIR_MTXRES_FULL : Fld := ⟨23, 0x25, 0, 1⟩
/-- 28 PAIR.PSER1.SN (R602). -/
abbrev fPAIR_PSER1_SN : Fld := ⟨23, 0x30, 0, 24⟩
/-- 28 PAIR.PSER0.SN (R602). -/
abbrev fPAIR_PSER0_SN : Fld := ⟨23, 0x31, 0, 24⟩
/-- 29 FLT.FAGENT.ENG (R619). -/
abbrev fFLT_FAGENT_ENG : Fld := ⟨24, 0x10, 0, 8⟩
/-- 29 FLT.DSEL.DOM (R619). -/
abbrev fFLT_DSEL_DOM : Fld := ⟨24, 0x11, 0, 6⟩
/-- 29 FLT.DSTAT.STATE (R619). -/
abbrev fFLT_DSTAT_STATE : Fld := ⟨24, 0x12, 0, 2⟩
/-- 29 FLT.DFAULT.CODE (R619). -/
abbrev fFLT_DFAULT_CODE : Fld := ⟨24, 0x13, 0, 24⟩
/-- 29 FLT.DCLR.CLR (R619). -/
abbrev fFLT_DCLR_CLR : Fld := ⟨24, 0x14, 0, 1⟩
/-- 29 FLT.HCOUNT.N (R619). -/
abbrev fFLT_HCOUNT_N : Fld := ⟨24, 0x15, 0, 8⟩
/-- 31 CNT.DCFG.DCOUNT (R642). -/
abbrev fCNT_DCFG_DCOUNT : Fld := ⟨25, 0x10, 0, 12⟩
/-- 31 CNT.DCFG.DUNIT (R642). -/
abbrev fCNT_DCFG_DUNIT : Fld := ⟨25, 0x10, 12, 2⟩
/-- 31 CNT.DBASEH.BASE (R642). -/
abbrev fCNT_DBASEH_BASE : Fld := ⟨25, 0x11, 0, 24⟩
/-- 31 CNT.DBASEL.BASE (R642). -/
abbrev fCNT_DBASEL_BASE : Fld := ⟨25, 0x12, 0, 24⟩
/-- 31 CNT.DSIZE.MB (R642). -/
abbrev fCNT_DSIZE_MB : Fld := ⟨25, 0x13, 0, 12⟩
/-- 31 CNT.DAGENT.ENG (R642). -/
abbrev fCNT_DAGENT_ENG : Fld := ⟨25, 0x14, 0, 8⟩
/-- 31 CNT.DLIST.UNIT (R642). -/
abbrev fCNT_DLIST_UNIT : Fld := ⟨25, 0x40, 0, 6⟩
/-- 31 CNT.QGRP.Q (R642). -/
abbrev fCNT_QGRP_Q : Fld := ⟨25, 0x100, 0, 14⟩
/-- 31 CNT.QGRPV.G (R642). -/
abbrev fCNT_QGRPV_G : Fld := ⟨25, 0x101, 0, 10⟩
/-- 31 CNT.NSELK.UNIT (R642). -/
abbrev fCNT_NSELK_UNIT : Fld := ⟨25, 0x110, 0, 6⟩
/-- 31 CNT.NSELK.KIND (R642). -/
abbrev fCNT_NSELK_KIND : Fld := ⟨25, 0x110, 6, 12⟩
/-- 31 CNT.NSELO.OBJ (R642). -/
abbrev fCNT_NSELO_OBJ : Fld := ⟨25, 0x111, 0, 20⟩
/-- 31 CNT.NGO.READ (R642). -/
abbrev fCNT_NGO_READ : Fld := ⟨25, 0x112, 0, 1⟩
/-- 31 CNT.NVAL2.V (R642). -/
abbrev fCNT_NVAL2_V : Fld := ⟨25, 0x113, 0, 24⟩
/-- 31 CNT.NVAL1.V (R642). -/
abbrev fCNT_NVAL1_V : Fld := ⟨25, 0x114, 0, 24⟩
/-- 31 CNT.NVAL0.V (R642). -/
abbrev fCNT_NVAL0_V : Fld := ⟨25, 0x115, 0, 24⟩
/-- 31 CNT.NFLAG.F (R642). -/
abbrev fCNT_NFLAG_F : Fld := ⟨25, 0x116, 0, 3⟩
/-- 31 CNT.SBASEH.BASE (R642). -/
abbrev fCNT_SBASEH_BASE : Fld := ⟨25, 0x120, 0, 24⟩
/-- 31 CNT.SBASEL.BASE (R642). -/
abbrev fCNT_SBASEL_BASE : Fld := ⟨25, 0x121, 0, 24⟩
/-- 31 CNT.SSIZE.KREC (R642). -/
abbrev fCNT_SSIZE_KREC : Fld := ⟨25, 0x122, 0, 12⟩
/-- 31 CNT.SMPPC.PC (R642). -/
abbrev fCNT_SMPPC_PC : Fld := ⟨25, 0x123, 0, 15⟩
/-- 31 CNT.SMPPC.SKID (R642). -/
abbrev fCNT_SMPPC_SKID : Fld := ⟨25, 0x123, 16, 4⟩
/-- 31 CNT.SMPDROP.N (R642). -/
abbrev fCNT_SMPDROP_N : Fld := ⟨25, 0x124, 0, 24⟩
/-- 31 CNT.SMPGO.GO (R642). -/
abbrev fCNT_SMPGO_GO : Fld := ⟨25, 0x125, 0, 1⟩
/-- 31 CNT.CBASEH.BASE (R642). -/
abbrev fCNT_CBASEH_BASE : Fld := ⟨25, 0x130, 0, 24⟩
/-- 31 CNT.CBASEL.BASE (R642). -/
abbrev fCNT_CBASEL_BASE : Fld := ⟨25, 0x131, 0, 24⟩
/-- 31 CNT.CSIZE.U (R642). -/
abbrev fCNT_CSIZE_U : Fld := ⟨25, 0x132, 0, 11⟩
/-- 31 CNT.SNAP.B (R642). -/
abbrev fCNT_SNAP_B : Fld := ⟨25, 0x133, 0, 14⟩
/-- 31 CNT.EGMASK1.P (R642). -/
abbrev fCNT_EGMASK1_P : Fld := ⟨25, 0x134, 0, 8⟩
/-- 31 CNT.EGMASK0.P (R642). -/
abbrev fCNT_EGMASK0_P : Fld := ⟨25, 0x135, 0, 24⟩
/-- 31 CNT.CTRG.TRIG (R642). -/
abbrev fCNT_CTRG_TRIG : Fld := ⟨25, 0x136, 0, 4⟩
/-- 31 CNT.CTRG.TEN (R642). -/
abbrev fCNT_CTRG_TEN : Fld := ⟨25, 0x136, 4, 1⟩
/-- 31 CNT.CEVT.CODE (R642). -/
abbrev fCNT_CEVT_CODE : Fld := ⟨25, 0x137, 0, 24⟩
/-- 31 CNT.CEVEN.EN (R642). -/
abbrev fCNT_CEVEN_EN : Fld := ⟨25, 0x138, 0, 1⟩
/-- 31 CNT.CPOST.MB (R642). -/
abbrev fCNT_CPOST_MB : Fld := ⟨25, 0x139, 0, 17⟩
/-- 31 CNT.CGO.ARM (R642). -/
abbrev fCNT_CGO_ARM : Fld := ⟨25, 0x13a, 0, 1⟩
/-- 31 CNT.CSTAT.STATE (R642). -/
abbrev fCNT_CSTAT_STATE : Fld := ⟨25, 0x13b, 0, 2⟩
/-- 31 CNT.CFIRST1.OFF (R642). -/
abbrev fCNT_CFIRST1_OFF : Fld := ⟨25, 0x13c, 0, 6⟩
/-- 31 CNT.CFIRST0.OFF (R642). -/
abbrev fCNT_CFIRST0_OFF : Fld := ⟨25, 0x13d, 0, 24⟩
/-- 31 CNT.CLAST1.OFF (R642). -/
abbrev fCNT_CLAST1_OFF : Fld := ⟨25, 0x13e, 0, 6⟩
/-- 31 CNT.CLAST0.OFF (R642). -/
abbrev fCNT_CLAST0_OFF : Fld := ⟨25, 0x13f, 0, 24⟩
/-- 32 LOG.RCTL.CLEAR (R658). -/
abbrev fLOG_RCTL_CLEAR : Fld := ⟨26, 0x10, 0, 1⟩
/-- 32 LOG.RSTAT.COUNT (R658). -/
abbrev fLOG_RSTAT_COUNT : Fld := ⟨26, 0x11, 0, 19⟩
/-- 32 LOG.RSTAT.FULL (R658). -/
abbrev fLOG_RSTAT_FULL : Fld := ⟨26, 0x11, 19, 1⟩
/-- 32 LOG.RDROP.N (R658). -/
abbrev fLOG_RDROP_N : Fld := ⟨26, 0x12, 0, 24⟩
/-- 32 LOG.HCUR.POS (R658). -/
abbrev fLOG_HCUR_POS : Fld := ⟨26, 0x13, 0, 18⟩
/-- 32 LOG.ECUR.POS (R658). -/
abbrev fLOG_ECUR_POS : Fld := ⟨26, 0x20, 0, 18⟩
/-- 32 LOG.EW0.SEQ (R658). -/
abbrev fLOG_EW0_SEQ : Fld := ⟨26, 0x21, 0, 24⟩
/-- 32 LOG.EW10.P3 (R658). -/
abbrev fLOG_EW10_P3 : Fld := ⟨26, 0x2b, 0, 24⟩
/-- 32 LOG.LSEL.C (R658). -/
abbrev fLOG_LSEL_C : Fld := ⟨26, 0x50, 0, 7⟩
/-- 32 LOG.LVAL1.V (R658). -/
abbrev fLOG_LVAL1_V : Fld := ⟨26, 0x51, 0, 24⟩
/-- 32 LOG.LVAL0.V (R658). -/
abbrev fLOG_LVAL0_V : Fld := ⟨26, 0x52, 0, 24⟩
/-- 32 LOG.FWCAUSE.CAUSE (R658). -/
abbrev fLOG_FWCAUSE_CAUSE : Fld := ⟨26, 0x54, 0, 8⟩
/-- 32 LOG.FWCAUSE.PRESENT (R658). -/
abbrev fLOG_FWCAUSE_PRESENT : Fld := ⟨26, 0x54, 8, 1⟩
/-- 32 LOG.WEAR.AREA (R658). -/
abbrev fLOG_WEAR_AREA : Fld := ⟨26, 0x55, 0, 4⟩
/-- 32 LOG.FRSEL.W (R658). -/
abbrev fLOG_FRSEL_W : Fld := ⟨26, 0x60, 0, 7⟩
/-- 32 LOG.FRDATA.D (R658). -/
abbrev fLOG_FRDATA_D : Fld := ⟨26, 0x61, 0, 24⟩
/-- 32 LOG.TRADDR.A (R658). -/
abbrev fLOG_TRADDR_A : Fld := ⟨26, 0x70, 0, 12⟩
/-- 32 LOG.TRD0.D (R658). -/
abbrev fLOG_TRD0_D : Fld := ⟨26, 0x71, 0, 24⟩
/-- 32 LOG.TWADDR.A (R658). -/
abbrev fLOG_TWADDR_A : Fld := ⟨26, 0x81, 0, 12⟩
/-- 32 LOG.TWLEN.N (R658). -/
abbrev fLOG_TWLEN_N : Fld := ⟨26, 0x82, 0, 9⟩
/-- 32 LOG.TBUF0.D (R658). -/
abbrev fLOG_TBUF0_D : Fld := ⟨26, 0x90, 0, 24⟩
/-- 32 LOG.TGO.OP (R658). -/
abbrev fLOG_TGO_OP : Fld := ⟨26, 0xe6, 0, 2⟩
/-- 32 LOG.TRES.STATE (R658). -/
abbrev fLOG_TRES_STATE : Fld := ⟨26, 0xe7, 0, 1⟩
/-- 32 LOG.TLOCKT.B (R658). -/
abbrev fLOG_TLOCKT_B : Fld := ⟨26, 0xe8, 0, 16⟩
/-- 32 LOG.TLOCKP.B (R658). -/
abbrev fLOG_TLOCKP_B : Fld := ⟨26, 0xe9, 0, 16⟩
/-- 33 TST.TCFG.GEN (R671). -/
abbrev fTST_TCFG_GEN : Fld := ⟨27, 0x10, 0, 3⟩
/-- 33 TST.TCFG.CHK (R671). -/
abbrev fTST_TCFG_CHK : Fld := ⟨27, 0x10, 3, 3⟩
/-- 33 TST.TCFG.GINV (R671). -/
abbrev fTST_TCFG_GINV : Fld := ⟨27, 0x10, 6, 1⟩
/-- 33 TST.TCFG.CINV (R671). -/
abbrev fTST_TCFG_CINV : Fld := ⟨27, 0x10, 7, 1⟩
/-- 33 TST.TCFG.LOOP (R671). -/
abbrev fTST_TCFG_LOOP : Fld := ⟨27, 0x10, 8, 2⟩
/-- 33 TST.TUSER3.U (R671). -/
abbrev fTST_TUSER3_U : Fld := ⟨27, 0x11, 0, 8⟩
/-- 33 TST.TUSER2.U (R671). -/
abbrev fTST_TUSER2_U : Fld := ⟨27, 0x12, 0, 24⟩
/-- 33 TST.TUSER1.U (R671). -/
abbrev fTST_TUSER1_U : Fld := ⟨27, 0x13, 0, 24⟩
/-- 33 TST.TUSER0.U (R671). -/
abbrev fTST_TUSER0_U : Fld := ⟨27, 0x14, 0, 24⟩
/-- 33 TST.TINJ.KIND (R671). -/
abbrev fTST_TINJ_KIND : Fld := ⟨27, 0x15, 0, 2⟩
/-- 33 TST.TINJ.LEN (R671). -/
abbrev fTST_TINJ_LEN : Fld := ⟨27, 0x15, 2, 10⟩
/-- 33 TST.TINJ.RATE (R671). -/
abbrev fTST_TINJ_RATE : Fld := ⟨27, 0x15, 12, 6⟩
/-- 33 TST.TINJGO.GO (R671). -/
abbrev fTST_TINJGO_GO : Fld := ⟨27, 0x16, 0, 1⟩
/-- 33 TST.TSTAT.LOCK (R671). -/
abbrev fTST_TSTAT_LOCK : Fld := ⟨27, 0x17, 0, 1⟩
/-- 33 TST.TSTAT.ACTIVE (R671). -/
abbrev fTST_TSTAT_ACTIVE : Fld := ⟨27, 0x17, 1, 1⟩
/-- 33 TST.TSTAT.LOOPON (R671). -/
abbrev fTST_TSTAT_LOOPON : Fld := ⟨27, 0x17, 2, 1⟩
/-- 33 TST.TERR.N (R671). -/
abbrev fTST_TERR_N : Fld := ⟨27, 0x18, 0, 24⟩
/-- 33 TST.TAPOWN.OWN (R671). -/
abbrev fTST_TAPOWN_OWN : Fld := ⟨27, 0x19, 0, 1⟩
/-- 04 ENG.ECTL.RUN (R119). -/
abbrev fENG_ECTL_RUN : Fld := ⟨1, 0x100, 0, 1⟩
/-- 04 ENG.ECTL.SAMPLE (R119). -/
abbrev fENG_ECTL_SAMPLE : Fld := ⟨1, 0x100, 2, 1⟩

end Sys2Proof.Machine
end

