-- ==== Sys2Proof/Machine/Crypto.lean ====
section
/-! DEFINITION. The published algorithms the spec names: CRC-32 and CRC-32C, AES, CMAC, GCM and GMAC, RFC 3394 and RFC 5649
key wrap, the SP 800-108 KDF in counter mode, SHA-384, and ECDSA over P-384. Blocks and messages are lists of bytes as
numbers, first byte first. -/
namespace Sys2Proof.Machine

/-- A list of bytes as numbers. -/
def nums (l : List Byte) : List Nat := l.map fun b => b.toNat

/-- Numbers as bytes. -/
def bytesOf (l : List Nat) : List Byte := l.map by8

/-- The number a list of byte numbers spells, most significant first. -/
def numOf (l : List Nat) : Nat := l.foldl (fun a b => a * 256 + b) 0

/-- The low n bytes of a number as byte numbers, most significant first. -/
def numBytes : Nat → Nat → List Nat
  | 0, _ => []
  | n + 1, v => v / 256 ^ n % 256 :: numBytes n v

/-- Bytewise exclusive or, as long as the shorter list. -/
def xorL (a b : List Nat) : List Nat := List.zipWith (fun x y => x ^^^ y) a b

/-- A list cut into pieces of n; the first argument bounds their number. -/
def pieces : Nat → Nat → List Nat → List (List Nat)
  | 0, _, _ => []
  | k + 1, n, l => if l.isEmpty then [] else l.take n :: pieces k n (l.drop n)

/-- A list cut into blocks of 16, the last perhaps shorter. -/
def blocks16 (l : List Nat) : List (List Nat) := pieces (l.length / 16 + 1) 16 l

/-! ## CRC-32 and CRC-32C -/

/-- One byte through a reflected CRC register with the reflected polynomial p. -/
def crcByte (p c b : Nat) : Nat :=
  (List.range 8).foldl (fun c _ => if c % 2 = 1 then (c / 2) ^^^ p else c / 2) (c ^^^ b)

/-- A reflected CRC of 32 bits from an initial register, complemented at its end. -/
def crc (p init : Nat) (l : List Nat) : Nat := l.foldl (crcByte p) init ^^^ 0xffffffff

/-- The FCS of IEEE 802.3 as the number whose first byte on the line is its least significant. -/
def crc32 (l : List Nat) : Nat := crc 0xedb88320 0xffffffff l

/-- CRC-32C from an initial register (R405). -/
def crc32c (init : Nat) (l : List Nat) : Nat := crc 0x82f63b78 init l

/-- The four FCS bytes of a frame in line order. -/
def fcsOf (l : List Byte) : List Byte :=
  let c := crc32 (nums l)
  [by8 c, by8 (c / 2 ^ 8), by8 (c / 2 ^ 16), by8 (c / 2 ^ 24)]

/-! ## AES (FIPS 197) -/

/-- Multiplication by x in GF(2^8) of a byte. -/
def xtime (a : Nat) : Nat := 2 * a ^^^ a / 128 * 0x11b

/-- The product in GF(2^8) of a and the low n bits of b. -/
def gmulBits : Nat → Nat → Nat → Nat
  | 0, _, _ => 0
  | n + 1, a, b => b % 2 * a ^^^ gmulBits n (xtime a) (b / 2)

/-- Multiplication in GF(2^8). -/
def gmul (a b : Nat) : Nat := gmulBits 8 a b

/-- The inverse in GF(2^8), zero for zero: the 254th power. -/
def ginv (a : Nat) : Nat :=
  let sq := fun x => gmul x x
  let a2 := sq a
  let a4 := sq a2
  let a8 := sq a4
  let a16 := sq a8
  let a32 := sq a16
  let a64 := sq a32
  let a128 := sq a64
  gmul a2 (gmul a4 (gmul a8 (gmul a16 (gmul a32 (gmul a64 a128)))))

/-- A byte rotated left by k. -/
def rotl8 (a k : Nat) : Nat := (a * 2 ^ k + a / 2 ^ (8 - k)) % 256

/-- The S-box as FIPS 197, 5.1.1, defines it. -/
def sboxOf (a : Nat) : Nat :=
  let i := ginv a
  i ^^^ rotl8 i 1 ^^^ rotl8 i 2 ^^^ rotl8 i 3 ^^^ rotl8 i 4 ^^^ 0x63

/-- The S-box of FIPS 197, figure 7: four rows of 64 bytes, each as a number whose first byte is the most significant. That these are the values
of sboxOf is sbox_eq. -/
def sboxTab : List Nat :=
  [0x637c777bf26b6fc53001672bfed7ab76ca82c97dfa5947f0add4a2af9ca472c0b7fd9326363ff7cc34a5e5f171d8311504c723c31896059a071280e2eb27b275,
   0x09832c1a1b6e5aa0523bd6b329e32f8453d100ed20fcb15b6acbbe394a4c58cfd0efaafb434d338545f9027f503c9fa851a3408f929d38f5bcb6da2110fff3d2,
   0xcd0c13ec5f974417c4a77e3d645d197360814fdc222a908846eeb814de5e0bdbe0323a0a4906245cc2d3ac629195e479e7c8376d8dd54ea96c56f4ea657aae08,
   0xba78252e1ca6b4c6e8dd741f4bbd8b8a703eb5664803f60e613557b986c11d9ee1f8981169d98e949b1e87e9ce5528df8ca1890dbfe6426841992d0fb054bb16]

/-- A byte of such a table. -/
def tabByte (l : List Nat) (a : Nat) : Nat := l.getD (a / 64) 0 / 256 ^ (63 - a % 64) % 256

/-- The S-box of a byte. -/
def sbox (a : Nat) : Nat := tabByte sboxTab a

/-- The inverse S-box of FIPS 197, figure 14, in the same form. -/
def sboxInvTab : List Nat :=
  [0x52096ad53036a538bf40a39e81f3d7fb7ce339829b2fff87348e4344c4dee9cb547b9432a6c2233dee4c950b42fac34e082ea16628d924b2765ba2496d8bd125,
   0x72f8f66486689816d4a45ccc5d65b6926c704850fdedb9da5e154657a78d9d8490d8ab008cbcd30af7e45805b8b34506d02c1e8fca3f0f02c1afbd0301138a6b,
   0x3a9111414f67dcea97f2cfcef0b4e67396ac7422e7ad3585e2f937e81c75df6e47f11a711d29c5896fb7620eaa18be1bfc563e4bc6d279209adbc0fe78cd5af4,
   0x1fdda8338807c731b11210592780ec5f60517fa919b54a0d2de57a9f93c99cefa0e03b4dae2af5b0c8ebbb3c83539961172b047eba77d626e169146355210c7d]

/-- The inverse S-box of a byte. -/
def sboxInv (a : Nat) : Nat := tabByte sboxInvTab a

/-- Round constants by multiplication by x. -/
def rcon : Nat → Nat
  | 0 => 1
  | n + 1 => xtime (rcon n)

/-- The next word of a key schedule of nk words from the words so far, latest first. -/
def keyNext (nk : Nat) (ws : List (List Nat)) : List Nat :=
  let i := ws.length
  let t := ws.getD 0 []
  let t := if i % nk = 0 then xorL ((t.drop 1 ++ t.take 1).map sbox) [rcon (i / nk - 1), 0, 0, 0]
    else if 6 < nk ∧ i % nk = 4 then t.map sbox else t
  xorL (ws.getD (nk - 1) []) t

/-- Key words, latest first, grown by n. -/
def keyGrow (nk : Nat) : Nat → List (List Nat) → List (List Nat)
  | 0, ws => ws
  | n + 1, ws => keyGrow nk n (keyNext nk ws :: ws)

/-- The round keys of a key of 16 or 32 bytes, 16 bytes each. -/
def roundKeys (key : List Nat) : List (List Nat) :=
  let nk := key.length / 4
  let ws := keyGrow nk (4 * (nk + 7) - nk) (pieces nk 4 key).reverse
  pieces (nk + 7) 16 ws.reverse.flatten

/-- ShiftRows over 16 bytes in column order. -/
def shiftRows (b : List Nat) : List Nat := (List.range 16).map fun i => b.getD ((i + 4 * (i % 4)) % 16) 0

/-- The inverse of ShiftRows. -/
def shiftRowsInv (b : List Nat) : List Nat := (List.range 16).map fun i => b.getD ((i + 16 - 4 * (i % 4)) % 16) 0

/-- MixColumns with the coefficients of its first row. -/
def mixWith (m : List Nat) (b : List Nat) : List Nat :=
  (List.range 16).map fun i =>
    (List.range 4).foldl (fun r k => r ^^^ gmul (m.getD ((k + 4 - i % 4) % 4) 0) (b.getD (i / 4 * 4 + k) 0)) 0

/-- One AES block encrypted under round keys. -/
def aesWith (ks : List (List Nat)) (b : List Nat) : List Nat :=
  let n := ks.length - 1
  let s := (List.range (n - 1)).foldl
    (fun s r => xorL (mixWith [2, 3, 1, 1] (shiftRows (s.map sbox))) (ks.getD (r + 1) [])) (xorL b (ks.getD 0 []))
  xorL (shiftRows (s.map sbox)) (ks.getD n [])

/-- One AES block decrypted under round keys. -/
def aesInvWith (ks : List (List Nat)) (b : List Nat) : List Nat :=
  let n := ks.length - 1
  let s := (List.range (n - 1)).foldl
    (fun s r => mixWith [14, 11, 13, 9] (xorL ((shiftRowsInv s).map sboxInv) (ks.getD (n - 1 - r) []))) (xorL b (ks.getD n []))
  xorL ((shiftRowsInv s).map sboxInv) (ks.getD 0 [])

/-! ## CMAC (SP 800-38B) -/

/-- Doubling in GF(2^128), most significant bit first. -/
def dbl128 (v : Nat) : Nat := if v < 2 ^ 127 then 2 * v else (2 * v % 2 ^ 128) ^^^ 0x87

/-- AES-CMAC of a message under a key: 16 bytes. -/
def cmac (key msg : List Nat) : List Nat :=
  let ks := roundKeys key
  let l := numOf (aesWith ks (List.replicate 16 0))
  let k1 := dbl128 l
  let k2 := dbl128 k1
  let bs := if msg.isEmpty then [[]] else blocks16 msg
  let last := bs.getLast?.getD []
  let last := if last.length = 16 then xorL last (numBytes 16 k1)
    else xorL (last ++ 128 :: List.replicate (15 - last.length) 0) (numBytes 16 k2)
  (bs.dropLast ++ [last]).foldl (fun x b => aesWith ks (xorL x b)) (List.replicate 16 0)

/-! ## Counter mode (SP 800-38A) -/

/-- The key stream of n bytes from an initial counter block of 128 bits (R267). -/
def ctrStream (key : List Nat) (block n : Nat) : List Nat :=
  let ks := roundKeys key
  (((List.range ((n + 15) / 16)).map fun i => aesWith ks (numBytes 16 ((block + i) % 2 ^ 128))).flatten).take n

/-! ## XTS (IEEE 1619) and CBC-MAC, as DRAM lines use them (R474, R475) -/

/-- A list of byte numbers as a number, least significant first. -/
def numLE (l : List Nat) : Nat := l.foldr (fun b a => a * 256 + b) 0

/-- The tweak of block j of a sector: the sector number encrypted under the second key, doubled j times in the field of XTS. -/
def xtsTweak (key2 : List Nat) (sector j : Nat) : List Nat :=
  let t := numLE (aesWith (roundKeys key2) (numBytes 16 sector).reverse)
  (numBytes 16 ((List.range j).foldl (fun t _ => dbl128 t) t)).reverse

/-- Block j of a sector encrypted with XTS under the key pair (IEEE 1619). -/
def xtsBlock (key1 key2 : List Nat) (sector j : Nat) (b : List Nat) : List Nat :=
  let t := xtsTweak key2 sector j
  xorL (aesWith (roundKeys key1) (xorL b t)) t

/-- CBC-MAC over whole blocks from a block of zeros. -/
def cbcMac (key : List Nat) (bs : List (List Nat)) : List Nat :=
  let ks := roundKeys key
  bs.foldl (fun x b => aesWith ks (xorL x b)) (List.replicate 16 0)

/-! ## GCM and GMAC (SP 800-38D) -/

/-- The product of two blocks in GCM's field, as numbers with the first bit most significant. -/
def gfMul (x y : Nat) : Nat :=
  ((List.range 128).foldl (fun r i =>
    (if x.testBit (127 - i) then r.1 ^^^ r.2 else r.1,
      if r.2 % 2 = 1 then (r.2 / 2) ^^^ (0xe1 * 2 ^ 120) else r.2 / 2)) (0, y)).1

/-- A list padded with zero bytes to whole blocks. -/
def pad16 (l : List Nat) : List Nat := l ++ List.replicate ((16 - l.length % 16) % 16) 0

/-- GHASH under the subkey h. -/
def ghash (h : Nat) (l : List Nat) : Nat := (blocks16 l).foldl (fun y b => gfMul (y ^^^ numOf b) h) 0

/-- Counter block k of a 96-bit IV. -/
def gcmCtr (ks : List (List Nat)) (iv : List Nat) (k : Nat) : List Nat := aesWith ks (iv ++ numBytes 4 k)

/-- The GCM key stream over a message from counter 2 on. -/
def gcmStream (ks : List (List Nat)) (iv msg : List Nat) : List Nat :=
  ((blocks16 msg).mapIdx fun k b => xorL b (gcmCtr ks iv (k + 2))).flatten

/-- The GCM tag over additional data and ciphertext: 16 bytes. -/
def gcmTag (ks : List (List Nat)) (iv aad ct : List Nat) : List Nat :=
  let h := numOf (aesWith ks (List.replicate 16 0))
  let y := ghash h (pad16 aad ++ pad16 ct ++ numBytes 8 (8 * aad.length) ++ numBytes 8 (8 * ct.length))
  xorL (numBytes 16 y) (gcmCtr ks iv 1)

/-- GMAC: the tag over additional data alone. -/
def gmac (key iv msg : List Nat) : List Nat := gcmTag (roundKeys key) iv msg []

/-! ## Key wrap (RFC 3394, RFC 5649) -/

/-- The wrapping rounds of RFC 3394 over A and n registers of 8 bytes. -/
def wrapRounds (ks : List (List Nat)) (a : List Nat) (r : List (List Nat)) : List Nat × List (List Nat) :=
  let n := r.length
  (List.range (6 * n)).foldl (fun x t =>
    let i := t % n
    let b := aesWith ks (x.1 ++ x.2.getD i [])
    (xorL (b.take 8) (numBytes 8 (t + 1)), x.2.set i (b.drop 8))) (a, r)

/-- The unwrapping rounds of RFC 3394. -/
def unwrapRounds (ks : List (List Nat)) (a : List Nat) (r : List (List Nat)) : List Nat × List (List Nat) :=
  let n := r.length
  (List.range (6 * n)).foldl (fun x j =>
    let t := 6 * n - 1 - j
    let i := t % n
    let b := aesInvWith ks (xorL x.1 (numBytes 8 (t + 1)) ++ x.2.getD i [])
    (b.take 8, x.2.set i (b.drop 8))) (a, r)

/-- The RFC 3394 envelope of a key with the default IV. -/
def wrapKey (key data : List Nat) : List Nat :=
  let x := wrapRounds (roundKeys key) (List.replicate 8 0xa6) (pieces (data.length / 8) 8 data)
  x.1 ++ x.2.flatten

/-- What an RFC 3394 envelope holds, if its integrity check passes. -/
def unwrapKey (key env : List Nat) : Option (List Nat) :=
  let x := unwrapRounds (roundKeys key) (env.take 8) (pieces (env.length / 8) 8 (env.drop 8))
  if x.1 = List.replicate 8 0xa6 then some x.2.flatten else none

/-- The RFC 5649 envelope of data of 1 byte or more. -/
def wrapData (key data : List Nat) : List Nat :=
  let ks := roundKeys key
  let aiv := [0xa6, 0x59, 0x59, 0xa6] ++ numBytes 4 data.length
  let p := data ++ List.replicate ((8 - data.length % 8) % 8) 0
  if p.length = 8 then aesWith ks (aiv ++ p)
  else
    let x := wrapRounds ks aiv (pieces (p.length / 8) 8 p)
    x.1 ++ x.2.flatten

/-- What an RFC 5649 envelope of 16 bytes or more holds, if its integrity check passes. -/
def unwrapData (key env : List Nat) : Option (List Nat) :=
  let ks := roundKeys key
  let x := if env.length = 16 then
      let b := aesInvWith ks env
      (b.take 8, [b.drop 8])
    else unwrapRounds ks (env.take 8) (pieces (env.length / 8) 8 (env.drop 8))
  let p := x.2.flatten
  let m := numOf (x.1.drop 4)
  if x.1.take 4 = [0xa6, 0x59, 0x59, 0xa6] ∧ m ≤ p.length ∧ p.length < m + 8 ∧ (p.drop m).all (fun b => b == 0) then
    some (p.take m)
  else none

/-! ## SHA-384 (FIPS 180-4) -/

/-- Whether n has no divisor from 2 below itself. -/
def isPrime (n : Nat) : Bool := 2 ≤ n && (List.range n).all fun d => d < 2 || n % d != 0

/-- The first 80 primes. -/
def primes80 : List Nat := (List.range 410).filter isPrime

/-- The greatest r below 2^n with r^k at most x. -/
def rootBits (k x : Nat) : Nat → Nat → Nat
  | 0, r => r
  | n + 1, r => if (r + 2 ^ n) ^ k ≤ x then rootBits k x n (r + 2 ^ n) else rootBits k x n r

/-- The 80 round constants: the first 64 fraction bits of the primes' cube roots. -/
def shaK : List Nat := primes80.map fun p => rootBits 3 (p * 2 ^ 192) 68 0 % 2 ^ 64

/-- The initial value of SHA-384: the first 64 fraction bits of the square roots of the 9th to 16th primes. -/
def shaInit : List Nat := ((primes80.drop 8).take 8).map fun p => rootBits 2 (p * 2 ^ 128) 68 0 % 2 ^ 64

/-- A 64-bit word rotated right. -/
def ror64 (x n : Nat) : Nat := x / 2 ^ n + x % 2 ^ n * 2 ^ (64 - n)

/-- The message schedule, latest word first, grown by n. -/
def shaGrow : Nat → List Nat → List Nat
  | 0, w => w
  | n + 1, w =>
    let a := w.getD 14 0
    let b := w.getD 1 0
    let s0 := ror64 a 1 ^^^ ror64 a 8 ^^^ (a / 2 ^ 7)
    let s1 := ror64 b 19 ^^^ ror64 b 61 ^^^ (b / 2 ^ 6)
    shaGrow n ((s1 + w.getD 6 0 + s0 + w.getD 15 0) % 2 ^ 64 :: w)

/-- One round over the eight working words. -/
def shaRound (h : List Nat) (kw : Nat) : List Nat :=
  let a := h.getD 0 0
  let b := h.getD 1 0
  let c := h.getD 2 0
  let e := h.getD 4 0
  let s1 := ror64 e 14 ^^^ ror64 e 18 ^^^ ror64 e 41
  let ch := (e &&& h.getD 5 0) ^^^ ((2 ^ 64 - 1 - e) &&& h.getD 6 0)
  let t1 := h.getD 7 0 + s1 + ch + kw
  let s0 := ror64 a 28 ^^^ ror64 a 34 ^^^ ror64 a 39
  let mj := (a &&& b) ^^^ (a &&& c) ^^^ (b &&& c)
  [(t1 + s0 + mj) % 2 ^ 64, a, b, c, (h.getD 3 0 + t1) % 2 ^ 64, e, h.getD 5 0, h.getD 6 0]

/-- One block of 128 bytes taken into the hash. -/
def shaBlock (h blk : List Nat) : List Nat :=
  let w := (shaGrow 64 ((pieces 16 8 blk).map numOf).reverse).reverse
  let r := (List.zipWith (fun k x => k + x) shaK w).foldl shaRound h
  List.zipWith (fun x y => (x + y) % 2 ^ 64) h r

/-- SHA-384 of a message: 48 bytes. -/
def sha384 (msg : List Nat) : List Nat :=
  let p := msg ++ 128 :: List.replicate ((239 - msg.length % 128) % 128) 0 ++ numBytes 16 (8 * msg.length)
  let h := (pieces (p.length / 128) 128 p).foldl shaBlock shaInit
  (h.take 6).flatMap (numBytes 8)

/-! ## KDF (SP 800-108 in counter mode, R502) -/

/-- The first n bytes of K(1) and K(2) over what stands before and after the counter. -/
def kdf (key rest : List Nat) (n : Nat) : List Nat :=
  (cmac key (numBytes 4 1 ++ rest) ++ cmac key (numBytes 4 2 ++ rest)).take n

/-! ## ECDSA over P-384 (FIPS 186) -/

/-- The field's prime. -/
def ecP : Nat := 2 ^ 384 - 2 ^ 128 - 2 ^ 96 + 2 ^ 32 - 1
/-- The curve's b. -/
def ecB : Nat := 0xb3312fa7e23ee7e4988e056be3f82d19181d9c6efe8141120314088f5013875ac656398d8a2ed19d2a85c8edd3ec2aef
/-- The order of the base point. -/
def ecN : Nat := 0xffffffffffffffffffffffffffffffffffffffffffffffffc7634d81f4372ddf581a0db248b0a77aecec196accc52973
/-- The base point. -/
def ecG : Nat × Nat :=
  (0xaa87ca22be8b05378eb1c71ef320ad746e1d3b628ba79b9859f741e082542a385502f25dbf55296c3a545e3872760ab7,
   0x3617de4a96262c6f5d9e98bf9292dc29f8f41dbd289a147ce9da3113b5f0b8c00a60b1ce1d7e819d7a431d7c90ea0e5f)

/-- a to the power e modulo m; the first argument bounds the bits of e. -/
def powMod (m : Nat) : Nat → Nat → Nat → Nat
  | 0, _, _ => 1
  | k + 1, a, e => (if e % 2 = 1 then a else 1) * powMod m k (a * a % m) (e / 2) % m

/-- The inverse modulo a prime of at most 384 bits. -/
def invMod (m a : Nat) : Nat := powMod m 384 (a % m) (m - 2)

/-- The sum of two points of the curve; none is the point at infinity. -/
def ecAdd (p q : Option (Nat × Nat)) : Option (Nat × Nat) :=
  match p, q with
  | none, q => q
  | p, none => p
  | some (x1, y1), some (x2, y2) =>
    if x1 = x2 ∧ (y1 + y2) % ecP = 0 then none
    else
      let l := if x1 = x2 then (3 * x1 * x1 + 3 * (ecP - 1)) * invMod ecP (2 * y1) % ecP
        else (y2 + ecP - y1) * invMod ecP (x2 + ecP - x1) % ecP
      let x3 := (l * l + 2 * ecP - x1 - x2) % ecP
      some (x3, (l * (x1 + ecP - x3) + ecP - y1) % ecP)

/-- A multiple of a point; the first argument bounds the multiplier's bits. -/
def ecMul : Nat → Nat → Option (Nat × Nat) → Option (Nat × Nat)
  | 0, _, _ => none
  | n + 1, k, p => ecAdd (if k % 2 = 1 then p else none) (ecMul n (k / 2) (ecAdd p p))

/-- Whether (r, s) is a valid signature of a message under the public key (x, y). -/
def ecdsaOk (x y r s : Nat) (msg : List Nat) : Bool :=
  let z := numOf (sha384 msg)
  let w := invMod ecN s
  decide (x < ecP ∧ y < ecP ∧ y * y % ecP = (x * x * x + (ecP - 3) * x + ecB) % ecP ∧
    1 ≤ r ∧ r < ecN ∧ 1 ≤ s ∧ s < ecN) &&
  (match ecAdd (ecMul 384 (z * w % ecN) (some ecG)) (ecMul 384 (r * w % ecN) (some (x, y))) with
   | some (x1, _) => x1 % ecN == r
   | none => false)

end Sys2Proof.Machine
end

