-- ==== Sys2Proof/Machine/WordMap.lean ====
section
/-! DEFINITION. The word maps of the unit chapters (R9, R11, R169 and the word table of every unit chapter), one row a field. -/
namespace Sys2Proof.Machine

/-- Word map of COMMON, part 0 (06 R169). -/
def mapCOMMON_0 : List FieldRow := [
  ⟨0x0, 1, 1, 1, 1, 18, 6, .ro, false, false, 0, 0, 63⟩,
  ⟨0x0, 1, 1, 1, 1, 10, 8, .ro, false, false, 0, 0, 255⟩,
  ⟨0x0, 1, 1, 1, 1, 0, 10, .ro, false, false, 0, 0, 1023⟩,
  ⟨0x1, 1, 1, 1, 1, 0, 1, .rw, true, false, 0, 0, 1⟩,
  ⟨0x2, 1, 1, 1, 1, 0, 2, .ro, false, false, 0, 0, 3⟩,
  ⟨0x2, 1, 1, 1, 1, 2, 1, .ro, false, false, 0, 0, 1⟩,
  ⟨0x2, 1, 1, 1, 1, 3, 1, .ro, false, false, 0, 0, 1⟩,
  ⟨0x2, 1, 1, 1, 1, 4, 1, .rs, false, false, 0, 0, 1⟩,
  ⟨0x2, 1, 1, 1, 1, 5, 1, .rs, false, false, 0, 0, 1⟩,
  ⟨0x2, 1, 1, 1, 1, 6, 1, .ro, false, false, 0, 0, 1⟩,
  ⟨0x3, 1, 1, 1, 1, 0, 16, .ro, false, false, 0, 0, 65535⟩,
  ⟨0x3, 1, 1, 1, 1, 16, 8, .ro, false, false, 0, 0, 255⟩,
  ⟨0x4, 1, 1, 1, 1, 0, 24, .ro, false, false, 0, 0, 16777215⟩,
  ⟨0x6, 1, 1, 1, 1, 0, 24, .rw, false, false, 0, 0, 16777215⟩,
  ⟨0x7, 1, 1, 1, 1, 0, 24, .rw, false, false, 0, 0, 16777215⟩,
  ⟨0x8, 1, 1, 1, 1, 0, 1, .wo, false, false, 0, 0, 1⟩,
  ⟨0x8, 1, 1, 1, 1, 1, 1, .wo, false, false, 0, 0, 1⟩]
/-- Word map of COMMON. -/
def mapCOMMON : List FieldRow := mapCOMMON_0

/-- Word map of ENG, part 0 (04 R119, 04 R120, 04 R124). -/
def mapENG_0 : List FieldRow := [
  ⟨0x101, 8, 32, 1, 1, 0, 15, .rw, false, false, 0, 0, 32767⟩,
  ⟨0x101, 8, 32, 1, 1, 15, 1, .rw, false, false, 0, 0, 1⟩,
  ⟨0x102, 8, 32, 1, 1, 0, 3, .ro, false, false, 0, 0, 7⟩,
  ⟨0x102, 8, 32, 1, 1, 3, 1, .ro, false, false, 1, 0, 1⟩,
  ⟨0x102, 8, 32, 1, 1, 4, 1, .ro, false, false, 0, 0, 1⟩,
  ⟨0x102, 8, 32, 1, 1, 5, 5, .ro, false, false, 0, 0, 31⟩,
  ⟨0x102, 8, 32, 1, 1, 10, 5, .ro, false, false, 0, 0, 31⟩,
  ⟨0x103, 8, 32, 1, 1, 0, 15, .ro, false, false, 0, 0, 32767⟩,
  ⟨0x104, 8, 32, 1, 1, 0, 14, .rw, false, false, 16383, 0, 16383⟩,
  ⟨0x10, 1, 1, 1, 1, 0, 24, .rw, false, false, 0, 0, 16777215⟩,
  ⟨0x11, 1, 1, 1, 1, 0, 24, .rw, false, false, 0, 0, 16777215⟩,
  ⟨0x12, 1, 1, 1, 1, 0, 15, .rw, false, false, 0, 0, 32767⟩,
  ⟨0x13, 1, 1, 1, 1, 0, 8, .rw, false, false, 0, 0, 255⟩,
  ⟨0x13, 1, 1, 1, 1, 8, 2, .rw, false, false, 0, 0, 3⟩,
  ⟨0x14, 1, 1, 1, 1, 0, 19, .rw, false, false, 0, 0, 524287⟩,
  ⟨0x15, 1, 1, 1, 1, 0, 2, .wo, false, false, 0, 0, 3⟩,
  ⟨0x15, 1, 1, 1, 1, 2, 1, .wo, false, false, 0, 0, 1⟩,
  ⟨0x16, 1, 1, 1, 1, 0, 2, .ro, false, false, 0, 0, 3⟩,
  ⟨0x16, 1, 1, 1, 1, 2, 4, .ro, false, false, 0, 0, 15⟩,
  ⟨0x100, 8, 32, 1, 1, 0, 1, .rw, false, false, 0, 0, 1⟩,
  ⟨0x100, 8, 32, 1, 1, 1, 1, .wo, false, false, 0, 0, 1⟩,
  ⟨0x100, 8, 32, 1, 1, 2, 1, .rw, false, false, 0, 0, 1⟩,
  ⟨0x100, 8, 32, 1, 1, 3, 1, .wo, false, false, 0, 0, 1⟩]
/-- Word map of ENG. -/
def mapENG : List FieldRow := mapENG_0

/-- Word map of PLC, part 0 (08 R224). -/
def mapPLC_0 : List FieldRow := [
  ⟨0x10, 1, 1, 1, 1, 0, 1, .rw, true, false, 1, 0, 1⟩,
  ⟨0x10, 1, 1, 1, 1, 1, 1, .rw, true, false, 1, 0, 1⟩,
  ⟨0x10, 1, 1, 1, 1, 2, 1, .rw, true, false, 1, 0, 1⟩,
  ⟨0x10, 1, 1, 1, 1, 3, 1, .rw, true, false, 1, 0, 1⟩,
  ⟨0x11, 1, 1, 1, 1, 0, 10, .rw, false, false, 9, 0, 1023⟩,
  ⟨0x12, 1, 1, 1, 1, 0, 8, .rw, false, false, 10, 1, 100⟩,
  ⟨0x12, 1, 1, 1, 1, 8, 8, .rw, false, false, 10, 1, 255⟩,
  ⟨0x12, 1, 1, 1, 1, 16, 7, .rw, false, false, 20, 1, 100⟩,
  ⟨0x13, 1, 1, 1, 1, 0, 14, .rw, false, false, 0, 0, 12500⟩,
  ⟨0x20, 1, 1, 1, 1, 0, 3, .rw, false, false, 0, 0, 4⟩,
  ⟨0x21, 1, 1, 1, 1, 0, 17, .rw, false, false, 0, 0, 131071⟩,
  ⟨0x22, 1, 1, 1, 1, 0, 8, .rw, false, false, 0, 0, 255⟩,
  ⟨0x23, 1, 1, 1, 1, 0, 1, .rw, false, false, 0, 0, 1⟩,
  ⟨0x23, 1, 1, 1, 1, 1, 1, .rw, false, false, 0, 0, 1⟩,
  ⟨0x23, 1, 1, 1, 1, 2, 1, .rw, false, false, 0, 0, 1⟩,
  ⟨0x24, 1, 1, 1, 1, 0, 1, .wo, false, false, 0, 0, 1⟩,
  ⟨0x24, 1, 1, 1, 1, 1, 1, .wo, false, false, 0, 0, 1⟩,
  ⟨0x24, 1, 1, 1, 1, 2, 1, .wo, false, false, 0, 0, 1⟩,
  ⟨0x24, 1, 1, 1, 1, 3, 1, .wo, false, false, 0, 0, 1⟩,
  ⟨0x25, 1, 1, 1, 1, 0, 8, .ro, false, true, 0, 0, 255⟩,
  ⟨0x25, 1, 1, 1, 1, 8, 2, .ro, false, true, 0, 0, 3⟩,
  ⟨0x25, 1, 1, 1, 1, 10, 3, .ro, false, true, 0, 0, 7⟩,
  ⟨0x100, 64, 8, 8, 1, 0, 24, .cm, false, false, 0, 0, 16777215⟩]
/-- Word map of PLC. -/
def mapPLC : List FieldRow := mapPLC_0

/-- Word map of HST, part 0 (07 R204). -/
def mapHST_0 : List FieldRow := [
  ⟨0x10, 8, 2, 1, 1, 0, 1, .rw, true, false, 0, 0, 1⟩,
  ⟨0x10, 8, 2, 1, 1, 1, 7, .rw, false, false, 3, 0, 127⟩,
  ⟨0x10, 8, 2, 1, 1, 8, 4, .rw, true, false, 15, 0, 15⟩,
  ⟨0x11, 8, 2, 1, 1, 0, 3, .ro, false, false, 0, 0, 7⟩,
  ⟨0x11, 8, 2, 1, 1, 3, 8, .ro, false, false, 0, 0, 255⟩,
  ⟨0x20, 1, 1, 1, 1, 0, 6, .rw, false, false, 10, 1, 40⟩,
  ⟨0x21, 1, 1, 1, 1, 0, 10, .rw, false, false, 0, 0, 1000⟩,
  ⟨0x22, 1, 1, 1, 1, 0, 12, .rw, true, false, 0, 0, 4095⟩,
  ⟨0x23, 1, 1, 1, 1, 0, 24, .rw, true, false, 0, 0, 16777215⟩,
  ⟨0x24, 1, 1, 1, 1, 0, 3, .ro, false, false, 0, 0, 7⟩,
  ⟨0x24, 1, 1, 1, 1, 3, 3, .ro, false, false, 0, 0, 7⟩,
  ⟨0x24, 1, 1, 1, 1, 6, 1, .rs, false, false, 0, 0, 1⟩]
/-- Word map of HST. -/
def mapHST : List FieldRow := mapHST_0

/-- Word map of OPT, part 0 (09 R245). -/
def mapOPT_0 : List FieldRow := [
  ⟨0x10, 1, 1, 1, 1, 0, 3, .cm, false, false, 0, 0, 5⟩,
  ⟨0x10, 1, 1, 1, 1, 4, 3, .cm, false, false, 0, 0, 6⟩,
  ⟨0x10, 1, 1, 1, 1, 8, 1, .cm, false, false, 1, 0, 1⟩,
  ⟨0x11, 1, 1, 1, 1, 0, 1, .wo, true, false, 0, 0, 1⟩,
  ⟨0x11, 1, 1, 1, 1, 1, 1, .wo, true, false, 0, 0, 1⟩,
  ⟨0x12, 1, 1, 1, 1, 0, 1, .rw, true, false, 0, 0, 1⟩,
  ⟨0x13, 1, 1, 1, 1, 0, 1, .ro, false, false, 1, 0, 1⟩,
  ⟨0x13, 1, 1, 1, 1, 1, 1, .ro, false, false, 0, 0, 1⟩,
  ⟨0x13, 1, 1, 1, 1, 2, 1, .ro, false, false, 0, 0, 1⟩,
  ⟨0x13, 1, 1, 1, 1, 3, 1, .ro, false, false, 0, 0, 1⟩,
  ⟨0x13, 1, 1, 1, 1, 4, 1, .ro, false, false, 0, 0, 1⟩,
  ⟨0x13, 1, 1, 1, 1, 5, 3, .ro, false, false, 0, 0, 7⟩,
  ⟨0x13, 1, 1, 1, 1, 8, 2, .ro, false, false, 0, 0, 3⟩,
  ⟨0x14, 1, 1, 1, 1, 0, 24, .ro, false, false, 0, 0, 16777215⟩,
  ⟨0x20, 1, 1, 1, 1, 0, 24, .ro, false, true, 0, 0, 16777215⟩,
  ⟨0x21, 1, 1, 1, 1, 0, 24, .ro, false, true, 0, 0, 16777215⟩,
  ⟨0x22, 1, 1, 1, 1, 0, 24, .ro, false, true, 0, 0, 16777215⟩,
  ⟨0x23, 1, 1, 1, 1, 0, 24, .ro, false, true, 0, 0, 16777215⟩,
  ⟨0x24, 1, 1, 1, 1, 0, 24, .ro, false, true, 0, 0, 16777215⟩,
  ⟨0x25, 1, 1, 1, 1, 0, 24, .ro, false, true, 0, 0, 16777215⟩]
/-- Word map of OPT. -/
def mapOPT : List FieldRow := mapOPT_0

/-- Word map of PON, part 0 (10 R266, 10 R279). -/
def mapPON_0 : List FieldRow := [
  ⟨0xb0, 1, 1, 1, 1, 0, 1, .rw, true, false, 0, 0, 1⟩,
  ⟨0xb0, 1, 1, 1, 1, 1, 1, .w1c, false, false, 0, 0, 1⟩,
  ⟨0xb1, 1, 1, 1, 1, 0, 16, .rw, true, false, 0, 0, 65535⟩,
  ⟨0xb2, 1, 1, 1, 1, 0, 24, .rw, true, false, 0, 0, 16777215⟩,
  ⟨0xb3, 1, 1, 1, 1, 0, 24, .rw, true, false, 0, 0, 16777215⟩,
  ⟨0xb4, 1, 1, 1, 1, 0, 1, .rw, true, false, 0, 0, 1⟩,
  ⟨0xb5, 1, 1, 1, 1, 0, 24, .rw, true, false, 0, 0, 16777215⟩,
  ⟨0xb6, 1, 1, 1, 1, 0, 11, .rw, true, false, 31, 1, 2047⟩,
  ⟨0xb7, 1, 1, 1, 1, 0, 20, .rw, true, false, 0, 0, 524288⟩,
  ⟨0xb8, 1, 1, 1, 1, 0, 24, .ro, false, true, 0, 0, 16777215⟩,
  ⟨0x10, 1, 1, 1, 1, 0, 1, .ro, false, false, 0, 0, 1⟩,
  ⟨0x10, 1, 1, 1, 1, 1, 4, .ro, false, false, 1, 0, 15⟩,
  ⟨0x10, 1, 1, 1, 1, 5, 1, .ro, false, false, 0, 0, 1⟩,
  ⟨0x10, 1, 1, 1, 1, 6, 1, .ro, false, false, 0, 0, 1⟩,
  ⟨0x10, 1, 1, 1, 1, 7, 2, .ro, false, false, 0, 0, 3⟩,
  ⟨0x11, 1, 1, 1, 1, 0, 4, .wo, true, false, 0, 0, 15⟩,
  ⟨0x12, 1, 1, 1, 1, 0, 14, .rw, false, false, 100, 1, 10000⟩,
  ⟨0x13, 1, 1, 1, 1, 0, 10, .cm, false, false, 1023, 0, 1023⟩,
  ⟨0x13, 1, 1, 1, 1, 10, 1, .cm, false, false, 0, 0, 1⟩,
  ⟨0x14, 1, 1, 1, 1, 0, 24, .cm, false, false, 0, 0, 16777215⟩,
  ⟨0x15, 1, 1, 1, 1, 0, 24, .ro, false, false, 0, 0, 16777215⟩,
  ⟨0x16, 1, 1, 1, 1, 0, 8, .cm, true, false, 255, 0, 255⟩,
  ⟨0x16, 1, 1, 1, 1, 8, 8, .cm, true, false, 255, 0, 255⟩,
  ⟨0x20, 1, 1, 1, 1, 0, 13, .cm, true, false, 0, 0, 8191⟩,
  ⟨0x20, 1, 1, 1, 1, 13, 1, .cm, true, false, 0, 0, 1⟩,
  ⟨0x21, 1, 1, 1, 1, 0, 13, .cm, true, false, 0, 0, 8191⟩,
  ⟨0x21, 1, 1, 1, 1, 13, 1, .cm, true, false, 0, 0, 1⟩,
  ⟨0x22, 1, 1, 1, 1, 0, 13, .cm, true, false, 0, 0, 8191⟩,
  ⟨0x22, 1, 1, 1, 1, 13, 1, .cm, true, false, 0, 0, 1⟩,
  ⟨0x23, 1, 1, 1, 1, 0, 13, .cm, true, false, 0, 0, 8191⟩]
/-- Word map of PON, part 1 (10 R279). -/
def mapPON_1 : List FieldRow := [
  ⟨0x23, 1, 1, 1, 1, 13, 1, .cm, true, false, 0, 0, 1⟩,
  ⟨0x24, 1, 1, 1, 1, 0, 13, .cm, true, false, 0, 0, 8191⟩,
  ⟨0x24, 1, 1, 1, 1, 13, 1, .cm, true, false, 0, 0, 1⟩,
  ⟨0x25, 1, 1, 1, 1, 0, 13, .cm, true, false, 0, 0, 8191⟩,
  ⟨0x25, 1, 1, 1, 1, 13, 1, .cm, true, false, 0, 0, 1⟩,
  ⟨0x26, 1, 1, 1, 1, 0, 13, .cm, true, false, 0, 0, 8191⟩,
  ⟨0x26, 1, 1, 1, 1, 13, 1, .cm, true, false, 0, 0, 1⟩,
  ⟨0x27, 1, 1, 1, 1, 0, 13, .cm, true, false, 0, 0, 8191⟩,
  ⟨0x27, 1, 1, 1, 1, 13, 1, .cm, true, false, 0, 0, 1⟩,
  ⟨0x28, 1, 1, 1, 1, 0, 2, .cm, false, false, 0, 0, 2⟩,
  ⟨0x40, 24, 2, 1, 1, 0, 14, .cm, false, false, 0, 0, 16383⟩,
  ⟨0x40, 24, 2, 1, 1, 14, 1, .cm, false, false, 0, 0, 1⟩,
  ⟨0x40, 24, 2, 1, 1, 15, 1, .cm, false, false, 0, 0, 1⟩,
  ⟨0x40, 24, 2, 1, 1, 16, 4, .cm, false, false, 0, 0, 15⟩,
  ⟨0x41, 24, 2, 1, 1, 0, 8, .cm, false, false, 0, 0, 255⟩,
  ⟨0x70, 4, 8, 1, 1, 0, 1, .cm, false, false, 0, 0, 1⟩,
  ⟨0x70, 4, 8, 1, 1, 1, 1, .cm, false, false, 0, 0, 1⟩,
  ⟨0x70, 4, 8, 1, 1, 2, 1, .cm, false, false, 0, 0, 1⟩,
  ⟨0x70, 4, 8, 1, 1, 3, 8, .cm, false, false, 0, 0, 255⟩,
  ⟨0x71, 4, 8, 1, 1, 0, 24, .cm, false, false, 0, 0, 16777215⟩,
  ⟨0x72, 4, 8, 1, 1, 0, 24, .cm, false, false, 0, 0, 16777215⟩,
  ⟨0x73, 4, 8, 1, 1, 0, 24, .cm, false, false, 0, 0, 16777215⟩,
  ⟨0x74, 4, 8, 1, 1, 0, 24, .cm, false, false, 0, 0, 16777215⟩,
  ⟨0x75, 4, 8, 1, 1, 0, 24, .cm, false, false, 0, 0, 16777215⟩,
  ⟨0x76, 4, 8, 1, 1, 0, 24, .cm, false, false, 0, 0, 16777215⟩,
  ⟨0x90, 14, 1, 1, 1, 0, 24, .rw, false, false, 0, 0, 16777215⟩,
  ⟨0x9e, 1, 1, 1, 1, 0, 1, .wo, false, false, 0, 0, 1⟩,
  ⟨0x9f, 1, 1, 1, 1, 0, 3, .ro, false, false, 0, 0, 7⟩,
  ⟨0xa0, 1, 1, 1, 1, 0, 24, .rw, false, false, 0, 0, 16777215⟩,
  ⟨0xa1, 1, 1, 1, 1, 0, 24, .rw, false, false, 0, 0, 16777215⟩]
/-- Word map of PON, part 2 (10 R279). -/
def mapPON_2 : List FieldRow := [
  ⟨0xa2, 1, 1, 1, 1, 0, 1, .wo, false, false, 0, 0, 1⟩,
  ⟨0xa3, 1, 1, 1, 1, 0, 24, .ro, false, true, 0, 0, 16777215⟩,
  ⟨0xa4, 1, 1, 1, 1, 0, 6, .ro, false, true, 0, 0, 63⟩,
  ⟨0xa5, 1, 1, 1, 1, 0, 24, .ro, false, true, 0, 0, 16777215⟩,
  ⟨0xa6, 1, 1, 1, 1, 0, 24, .ro, false, true, 0, 0, 16777215⟩,
  ⟨0x100, 256, 2, 1, 1, 0, 16, .cm, false, false, 0, 0, 65535⟩,
  ⟨0x101, 256, 2, 1, 1, 0, 1, .cm, false, false, 0, 0, 1⟩,
  ⟨0x101, 256, 2, 1, 1, 1, 2, .cm, false, false, 0, 0, 3⟩,
  ⟨0x101, 256, 2, 1, 1, 3, 1, .cm, false, false, 0, 0, 1⟩,
  ⟨0x101, 256, 2, 1, 1, 4, 4, .cm, false, false, 0, 0, 15⟩]
/-- Word map of PON. -/
def mapPON : List FieldRow := mapPON_0 ++ mapPON_1 ++ mapPON_2

/-- Word map of TRIB, part 0 (11 R294). -/
def mapTRIB_0 : List FieldRow := [
  ⟨0x10, 1, 1, 1, 1, 0, 1, .cm, false, false, 0, 0, 1⟩,
  ⟨0x100, 128, 1, 1, 1, 0, 5, .rw, false, false, 0, 0, 31⟩,
  ⟨0x100, 128, 1, 1, 1, 5, 1, .rw, false, false, 0, 0, 1⟩,
  ⟨0x100, 128, 1, 1, 1, 6, 1, .rw, false, false, 0, 0, 1⟩,
  ⟨0x100, 128, 1, 1, 1, 7, 1, .rw, false, false, 0, 0, 1⟩,
  ⟨0x100, 128, 1, 1, 1, 8, 1, .rw, false, false, 0, 0, 1⟩,
  ⟨0x100, 128, 1, 1, 1, 9, 11, .rw, false, false, 0, 1, 2047⟩,
  ⟨0x180, 64, 1, 1, 1, 0, 1, .ro, false, false, 0, 0, 1⟩,
  ⟨0x180, 64, 1, 1, 1, 1, 2, .ro, false, false, 0, 0, 3⟩,
  ⟨0x180, 64, 1, 1, 1, 3, 1, .ro, false, false, 0, 0, 1⟩,
  ⟨0x180, 64, 1, 1, 1, 4, 12, .ro, false, false, 0, 0, 4095⟩]
/-- Word map of TRIB. -/
def mapTRIB : List FieldRow := mapTRIB_0

/-- Word map of LANE, part 0 (12 R310). -/
def mapLANE_0 : List FieldRow := [
  ⟨0x10, 1, 1, 1, 1, 0, 1, .cm, false, false, 0, 0, 1⟩,
  ⟨0x10, 1, 1, 1, 1, 1, 1, .cm, false, false, 0, 0, 1⟩,
  ⟨0x10, 1, 1, 1, 1, 2, 4, .cm, false, false, 0, 0, 9⟩,
  ⟨0x11, 1, 1, 1, 1, 0, 1, .rw, true, false, 0, 0, 1⟩,
  ⟨0x12, 1, 1, 1, 1, 0, 1, .ro, false, false, 0, 0, 1⟩,
  ⟨0x12, 1, 1, 1, 1, 1, 1, .ro, false, false, 0, 0, 1⟩,
  ⟨0x12, 1, 1, 1, 1, 2, 1, .ro, false, false, 0, 0, 1⟩,
  ⟨0x12, 1, 1, 1, 1, 3, 1, .ro, false, false, 0, 0, 1⟩,
  ⟨0x12, 1, 1, 1, 1, 4, 1, .ro, false, false, 0, 0, 1⟩,
  ⟨0x12, 1, 1, 1, 1, 5, 1, .ro, false, false, 0, 0, 1⟩,
  ⟨0x12, 1, 1, 1, 1, 6, 2, .ro, false, false, 0, 0, 3⟩,
  ⟨0x12, 1, 1, 1, 1, 8, 1, .ro, false, false, 0, 0, 1⟩,
  ⟨0x12, 1, 1, 1, 1, 9, 1, .ro, false, false, 0, 0, 1⟩,
  ⟨0x13, 1, 1, 1, 1, 0, 24, .ro, false, true, 0, 0, 16777215⟩,
  ⟨0x20, 1, 1, 1, 1, 0, 16, .cm, false, false, 0, 0, 65535⟩,
  ⟨0x20, 1, 1, 1, 1, 16, 4, .cm, false, false, 0, 0, 15⟩,
  ⟨0x20, 1, 1, 1, 1, 20, 1, .cm, false, false, 0, 0, 1⟩,
  ⟨0x21, 1, 1, 1, 1, 0, 8, .cm, false, false, 228, 0, 255⟩,
  ⟨0x21, 1, 1, 1, 1, 8, 8, .cm, false, false, 228, 0, 255⟩]
/-- Word map of LANE. -/
def mapLANE : List FieldRow := mapLANE_0

/-- Word map of MAC, part 0 (13 R335). -/
def mapMAC_0 : List FieldRow := [
  ⟨0x10, 1, 1, 1, 1, 0, 14, .cm, false, false, 1522, 1518, 12292⟩,
  ⟨0x10, 1, 1, 1, 1, 14, 1, .cm, false, false, 0, 0, 1⟩,
  ⟨0x10, 1, 1, 1, 1, 15, 1, .cm, false, false, 0, 0, 1⟩,
  ⟨0x10, 1, 1, 1, 1, 16, 1, .cm, false, false, 1, 0, 1⟩,
  ⟨0x11, 1, 1, 1, 1, 0, 1, .cm, false, false, 0, 0, 1⟩,
  ⟨0x11, 1, 1, 1, 1, 1, 1, .cm, false, false, 1, 0, 1⟩,
  ⟨0x11, 1, 1, 1, 1, 2, 2, .cm, false, false, 0, 0, 3⟩,
  ⟨0x11, 1, 1, 1, 1, 8, 8, .cm, false, false, 0, 0, 255⟩,
  ⟨0x11, 1, 1, 1, 1, 16, 8, .cm, false, false, 10, 1, 128⟩,
  ⟨0x12, 1, 1, 1, 1, 0, 3, .ro, false, false, 0, 0, 7⟩,
  ⟨0x12, 1, 1, 1, 1, 3, 1, .ro, false, false, 0, 0, 1⟩,
  ⟨0x13, 1, 1, 1, 1, 0, 14, .rw, false, false, 100, 0, 10000⟩,
  ⟨0x13, 1, 1, 1, 1, 14, 10, .rw, false, false, 100, 1, 1023⟩,
  ⟨0x14, 1, 1, 1, 1, 0, 16, .rw, false, false, 65535, 0, 65535⟩,
  ⟨0x15, 1, 1, 1, 1, 0, 8, .ro, false, false, 0, 0, 255⟩,
  ⟨0x15, 1, 1, 1, 1, 8, 8, .ro, false, false, 0, 0, 255⟩,
  ⟨0x16, 1, 1, 1, 1, 0, 1, .cm, false, false, 0, 0, 1⟩,
  ⟨0x16, 1, 1, 1, 1, 8, 8, .cm, false, false, 0, 0, 255⟩,
  ⟨0x20, 1, 1, 1, 1, 0, 1, .cm, false, false, 0, 0, 1⟩,
  ⟨0x20, 1, 1, 1, 1, 1, 1, .cm, false, false, 0, 0, 1⟩,
  ⟨0x20, 1, 1, 1, 1, 2, 9, .cm, false, false, 0, 0, 511⟩,
  ⟨0x21, 1, 1, 1, 1, 0, 24, .cm, false, false, 0, 0, 16777215⟩,
  ⟨0x22, 1, 1, 1, 1, 0, 6, .cm, false, false, 0, 0, 63⟩,
  ⟨0x23, 1, 1, 1, 1, 0, 24, .cm, false, false, 0, 0, 16777215⟩,
  ⟨0x24, 1, 1, 1, 1, 0, 6, .cm, false, false, 0, 0, 63⟩,
  ⟨0x25, 1, 1, 1, 1, 0, 24, .cm, false, false, 0, 0, 16777215⟩,
  ⟨0x26, 1, 1, 1, 1, 0, 24, .cm, false, false, 0, 0, 16777215⟩,
  ⟨0x27, 1, 1, 1, 1, 0, 8, .cm, false, false, 255, 0, 255⟩,
  ⟨0x28, 1, 1, 1, 1, 0, 1, .ro, false, false, 0, 0, 1⟩,
  ⟨0x28, 1, 1, 1, 1, 1, 1, .ro, false, false, 0, 0, 1⟩]
/-- Word map of MAC, part 1 (13 R335, 13 R336). -/
def mapMAC_1 : List FieldRow := [
  ⟨0x28, 1, 1, 1, 1, 2, 8, .ro, false, false, 0, 0, 255⟩,
  ⟨0x28, 1, 1, 1, 1, 10, 8, .ro, false, false, 255, 0, 255⟩,
  ⟨0x29, 1, 1, 1, 1, 0, 24, .ro, false, true, 0, 0, 16777215⟩,
  ⟨0x30, 1, 1, 1, 1, 0, 8, .rw, false, false, 0, 0, 255⟩,
  ⟨0x30, 1, 1, 1, 1, 8, 1, .rw, false, false, 0, 0, 1⟩,
  ⟨0x31, 1, 1, 1, 1, 0, 8, .rw, false, false, 255, 0, 255⟩,
  ⟨0x31, 1, 1, 1, 1, 8, 2, .rw, false, false, 0, 0, 2⟩,
  ⟨0x32, 1, 1, 1, 1, 0, 24, .rw, false, false, 0, 0, 16777215⟩]
/-- Word map of MAC. -/
def mapMAC : List FieldRow := mapMAC_0 ++ mapMAC_1

/-- Word map of SBUS, part 0 (14 R346). -/
def mapSBUS_0 : List FieldRow := [
  ⟨0x10, 1, 1, 1, 1, 0, 1, .rw, false, false, 1, 0, 1⟩,
  ⟨0x10, 1, 1, 1, 1, 1, 1, .rw, false, false, 0, 0, 1⟩,
  ⟨0x10, 1, 1, 1, 1, 2, 1, .rw, false, false, 1, 0, 1⟩,
  ⟨0x10, 1, 1, 1, 1, 3, 1, .rw, false, false, 0, 0, 1⟩,
  ⟨0x11, 1, 1, 1, 1, 0, 24, .cm, false, false, 0, 0, 16777215⟩,
  ⟨0x12, 1, 1, 1, 1, 0, 24, .cm, false, false, 0, 0, 16777215⟩,
  ⟨0x13, 1, 1, 1, 1, 0, 8, .cm, true, false, 255, 0, 255⟩,
  ⟨0x14, 1, 1, 1, 1, 0, 24, .cm, true, false, 0, 0, 16777215⟩,
  ⟨0x15, 1, 1, 1, 1, 0, 24, .cm, true, false, 0, 0, 16777215⟩,
  ⟨0x16, 1, 1, 1, 1, 0, 7, .wo, false, false, 0, 0, 127⟩,
  ⟨0x17, 1, 1, 1, 1, 0, 7, .ro, false, false, 0, 0, 127⟩,
  ⟨0x17, 1, 1, 1, 1, 7, 6, .ro, false, false, 0, 0, 63⟩,
  ⟨0x18, 1, 1, 1, 1, 0, 24, .rw, false, false, 0, 0, 16777215⟩,
  ⟨0x19, 1, 1, 1, 1, 0, 24, .rw, false, false, 0, 0, 16777215⟩,
  ⟨0x1a, 1, 1, 1, 1, 0, 11, .rw, false, false, 0, 0, 2047⟩,
  ⟨0x1b, 1, 1, 1, 1, 0, 1, .wo, false, false, 0, 0, 1⟩,
  ⟨0x1c, 1, 1, 1, 1, 0, 3, .ro, false, true, 0, 0, 7⟩,
  ⟨0x1c, 1, 1, 1, 1, 3, 5, .ro, false, true, 0, 0, 31⟩,
  ⟨0x1d, 1, 1, 1, 1, 0, 1, .ro, false, false, 0, 0, 1⟩,
  ⟨0x1d, 1, 1, 1, 1, 1, 1, .ro, false, false, 0, 0, 1⟩,
  ⟨0x1d, 1, 1, 1, 1, 2, 1, .ro, false, false, 0, 0, 1⟩]
/-- Word map of SBUS. -/
def mapSBUS : List FieldRow := mapSBUS_0

/-- Word map of MSEC, part 0 (15 R368, 15 R369). -/
def mapMSEC_0 : List FieldRow := [
  ⟨0x10, 32, 1, 1, 1, 0, 1, .cm, true, false, 0, 0, 1⟩,
  ⟨0x10, 32, 1, 1, 1, 1, 2, .cm, true, false, 2, 0, 2⟩,
  ⟨0x40, 32, 4, 1, 1, 0, 16, .cm, true, false, 0, 0, 65535⟩,
  ⟨0x41, 32, 4, 1, 1, 0, 24, .cm, true, false, 0, 0, 16777215⟩,
  ⟨0x42, 32, 4, 1, 1, 0, 24, .cm, true, false, 0, 0, 16777215⟩,
  ⟨0x100, 1, 1, 1, 1, 0, 10, .cm, true, false, 0, 0, 1023⟩,
  ⟨0x101, 1, 1, 1, 1, 0, 5, .cm, true, false, 0, 0, 31⟩,
  ⟨0x101, 1, 1, 1, 1, 5, 1, .cm, true, false, 0, 0, 1⟩,
  ⟨0x101, 1, 1, 1, 1, 6, 2, .cm, true, false, 0, 0, 3⟩,
  ⟨0x101, 1, 1, 1, 1, 8, 1, .cm, true, false, 1, 0, 1⟩,
  ⟨0x101, 1, 1, 1, 1, 9, 2, .cm, true, false, 0, 0, 2⟩,
  ⟨0x101, 1, 1, 1, 1, 11, 1, .cm, true, false, 1, 0, 1⟩,
  ⟨0x101, 1, 1, 1, 1, 12, 1, .cm, true, false, 0, 0, 1⟩,
  ⟨0x101, 1, 1, 1, 1, 13, 1, .cm, true, false, 0, 0, 1⟩,
  ⟨0x101, 1, 1, 1, 1, 14, 1, .cm, true, false, 0, 0, 1⟩,
  ⟨0x102, 1, 1, 1, 1, 0, 16, .cm, true, false, 0, 0, 65535⟩,
  ⟨0x103, 1, 1, 1, 1, 0, 24, .cm, true, false, 0, 0, 16777215⟩,
  ⟨0x104, 1, 1, 1, 1, 0, 24, .cm, true, false, 0, 0, 16777215⟩,
  ⟨0x108, 1, 1, 1, 1, 0, 10, .rw, false, false, 0, 0, 1023⟩,
  ⟨0x109, 1, 1, 1, 1, 0, 5, .ro, false, false, 0, 0, 31⟩,
  ⟨0x109, 1, 1, 1, 1, 5, 1, .ro, false, false, 0, 0, 1⟩,
  ⟨0x109, 1, 1, 1, 1, 6, 2, .ro, false, false, 0, 0, 3⟩,
  ⟨0x109, 1, 1, 1, 1, 8, 1, .ro, false, false, 0, 0, 1⟩,
  ⟨0x109, 1, 1, 1, 1, 9, 2, .ro, false, false, 0, 0, 3⟩,
  ⟨0x109, 1, 1, 1, 1, 11, 1, .ro, false, false, 0, 0, 1⟩,
  ⟨0x109, 1, 1, 1, 1, 12, 1, .ro, false, false, 0, 0, 1⟩,
  ⟨0x109, 1, 1, 1, 1, 13, 1, .ro, false, false, 0, 0, 1⟩,
  ⟨0x109, 1, 1, 1, 1, 14, 1, .ro, false, false, 0, 0, 1⟩,
  ⟨0x10a, 1, 1, 1, 1, 0, 16, .ro, false, false, 0, 0, 65535⟩,
  ⟨0x10b, 1, 1, 1, 1, 0, 24, .ro, false, false, 0, 0, 16777215⟩]
/-- Word map of MSEC, part 1 (15 R369, 16 R389). -/
def mapMSEC_1 : List FieldRow := [
  ⟨0x10c, 1, 1, 1, 1, 0, 24, .ro, false, false, 0, 0, 16777215⟩,
  ⟨0x110, 1, 1, 1, 1, 0, 10, .cm, true, false, 0, 0, 1023⟩,
  ⟨0x111, 1, 1, 1, 1, 0, 5, .cm, true, false, 0, 0, 31⟩,
  ⟨0x111, 1, 1, 1, 1, 5, 1, .cm, true, false, 0, 0, 1⟩,
  ⟨0x111, 1, 1, 1, 1, 6, 2, .cm, true, false, 0, 0, 3⟩,
  ⟨0x111, 1, 1, 1, 1, 8, 1, .cm, true, false, 1, 0, 1⟩,
  ⟨0x111, 1, 1, 1, 1, 9, 2, .cm, true, false, 0, 0, 1⟩,
  ⟨0x111, 1, 1, 1, 1, 11, 8, .cm, true, false, 255, 0, 255⟩,
  ⟨0x111, 1, 1, 1, 1, 19, 2, .cm, true, false, 0, 0, 2⟩,
  ⟨0x112, 1, 1, 1, 1, 0, 24, .cm, true, false, 0, 0, 16777215⟩,
  ⟨0x113, 1, 1, 1, 1, 0, 16, .cm, true, false, 0, 0, 65535⟩,
  ⟨0x114, 1, 1, 1, 1, 0, 24, .cm, true, false, 0, 0, 16777215⟩,
  ⟨0x115, 1, 1, 1, 1, 0, 24, .cm, true, false, 0, 0, 16777215⟩,
  ⟨0x118, 1, 1, 1, 1, 0, 10, .rw, false, false, 0, 0, 1023⟩,
  ⟨0x119, 1, 1, 1, 1, 0, 5, .ro, false, false, 0, 0, 31⟩,
  ⟨0x119, 1, 1, 1, 1, 5, 1, .ro, false, false, 0, 0, 1⟩,
  ⟨0x119, 1, 1, 1, 1, 6, 2, .ro, false, false, 0, 0, 3⟩,
  ⟨0x119, 1, 1, 1, 1, 8, 1, .ro, false, false, 0, 0, 1⟩,
  ⟨0x119, 1, 1, 1, 1, 9, 2, .ro, false, false, 0, 0, 3⟩,
  ⟨0x119, 1, 1, 1, 1, 11, 8, .ro, false, false, 0, 0, 255⟩,
  ⟨0x119, 1, 1, 1, 1, 19, 2, .ro, false, false, 0, 0, 3⟩,
  ⟨0x11a, 1, 1, 1, 1, 0, 24, .ro, false, false, 0, 0, 16777215⟩,
  ⟨0x11b, 1, 1, 1, 1, 0, 16, .ro, false, false, 0, 0, 65535⟩,
  ⟨0x11c, 1, 1, 1, 1, 0, 24, .ro, false, false, 0, 0, 16777215⟩,
  ⟨0x11d, 1, 1, 1, 1, 0, 24, .ro, false, false, 0, 0, 16777215⟩,
  ⟨0x105, 1, 1, 1, 1, 0, 6, .cm, true, false, 30, 0, 63⟩,
  ⟨0x10d, 1, 1, 1, 1, 0, 2, .ro, false, false, 0, 0, 3⟩,
  ⟨0x10d, 1, 1, 1, 1, 2, 1, .ro, false, false, 0, 0, 1⟩,
  ⟨0x10d, 1, 1, 1, 1, 3, 2, .ro, false, false, 0, 0, 3⟩,
  ⟨0x10d, 1, 1, 1, 1, 5, 2, .ro, false, false, 0, 0, 3⟩]
/-- Word map of MSEC, part 2 (16 R389, 16 R390). -/
def mapMSEC_2 : List FieldRow := [
  ⟨0x10d, 1, 1, 1, 1, 7, 1, .ro, false, false, 0, 0, 1⟩,
  ⟨0x120, 1, 1, 1, 1, 0, 10, .rw, true, false, 0, 0, 1023⟩,
  ⟨0x121, 1, 1, 1, 1, 0, 2, .rw, true, false, 0, 0, 3⟩,
  ⟨0x121, 1, 1, 1, 1, 2, 2, .rw, true, false, 0, 0, 3⟩,
  ⟨0x122, 1, 1, 1, 1, 0, 24, .rw, true, false, 0, 0, 16777215⟩,
  ⟨0x123, 1, 1, 1, 1, 0, 24, .rw, true, false, 0, 0, 16777215⟩,
  ⟨0x124, 1, 1, 1, 1, 0, 1, .wo, true, false, 0, 0, 1⟩,
  ⟨0x125, 1, 1, 1, 1, 0, 16, .rw, true, false, 300, 0, 65535⟩,
  ⟨0x126, 1, 1, 1, 1, 0, 8, .rw, true, false, 255, 0, 255⟩,
  ⟨0x140, 1, 1, 1, 1, 0, 12, .cm, true, false, 0, 0, 4095⟩,
  ⟨0x141, 1, 1, 1, 1, 0, 1, .cm, true, false, 0, 0, 1⟩,
  ⟨0x141, 1, 1, 1, 1, 1, 1, .cm, true, false, 0, 0, 1⟩,
  ⟨0x141, 1, 1, 1, 1, 2, 10, .cm, true, false, 0, 0, 1023⟩,
  ⟨0x141, 1, 1, 1, 1, 12, 2, .cm, true, false, 0, 0, 3⟩,
  ⟨0x142, 1, 1, 1, 1, 0, 13, .cm, true, false, 0, 0, 8191⟩,
  ⟨0x143, 1, 1, 1, 1, 0, 16, .cm, true, false, 0, 0, 65535⟩,
  ⟨0x144, 1, 1, 1, 1, 0, 24, .cm, true, false, 0, 0, 16777215⟩,
  ⟨0x145, 1, 1, 1, 1, 0, 24, .cm, true, false, 0, 0, 16777215⟩,
  ⟨0x146, 1, 1, 1, 1, 0, 8, .cm, true, false, 0, 0, 255⟩,
  ⟨0x147, 1, 1, 1, 1, 0, 24, .cm, true, false, 0, 0, 16777215⟩,
  ⟨0x148, 1, 1, 1, 1, 0, 24, .cm, true, false, 0, 0, 16777215⟩,
  ⟨0x149, 1, 1, 1, 1, 0, 24, .cm, true, false, 0, 0, 16777215⟩,
  ⟨0x14a, 1, 1, 1, 1, 0, 24, .cm, true, false, 0, 0, 16777215⟩,
  ⟨0x14b, 1, 1, 1, 1, 0, 24, .cm, true, false, 0, 0, 16777215⟩,
  ⟨0x150, 1, 1, 1, 1, 0, 12, .rw, false, false, 0, 0, 4095⟩,
  ⟨0x151, 1, 1, 1, 1, 0, 1, .ro, false, false, 0, 0, 1⟩,
  ⟨0x151, 1, 1, 1, 1, 1, 1, .ro, false, false, 0, 0, 1⟩,
  ⟨0x151, 1, 1, 1, 1, 2, 10, .ro, false, false, 0, 0, 1023⟩,
  ⟨0x151, 1, 1, 1, 1, 12, 2, .ro, false, false, 0, 0, 3⟩,
  ⟨0x151, 1, 1, 1, 1, 14, 2, .ro, false, false, 0, 0, 3⟩]
/-- Word map of MSEC, part 3 (16 R390). -/
def mapMSEC_3 : List FieldRow := [
  ⟨0x151, 1, 1, 1, 1, 16, 1, .ro, false, false, 0, 0, 1⟩,
  ⟨0x151, 1, 1, 1, 1, 17, 1, .ro, false, false, 0, 0, 1⟩,
  ⟨0x153, 1, 1, 1, 1, 0, 16, .ro, false, false, 0, 0, 65535⟩,
  ⟨0x154, 1, 1, 1, 1, 0, 24, .ro, false, false, 0, 0, 16777215⟩,
  ⟨0x155, 1, 1, 1, 1, 0, 24, .ro, false, false, 0, 0, 16777215⟩]
/-- Word map of MSEC. -/
def mapMSEC : List FieldRow := mapMSEC_0 ++ mapMSEC_1 ++ mapMSEC_2 ++ mapMSEC_3

/-- Word map of CLS, part 0 (17 R413). -/
def mapCLS_0 : List FieldRow := [
  ⟨0x10, 1, 1, 1, 1, 0, 24, .cm, true, false, 0, 0, 16777215⟩,
  ⟨0x20, 36, 1, 1, 1, 0, 16, .cm, false, false, 0, 0, 65535⟩,
  ⟨0x20, 36, 1, 1, 1, 16, 3, .cm, false, false, 0, 0, 7⟩,
  ⟨0x80, 1, 1, 1, 1, 0, 16, .rw, false, false, 0, 0, 65535⟩,
  ⟨0x81, 1, 1, 1, 1, 0, 1, .rw, false, false, 0, 0, 1⟩,
  ⟨0x81, 1, 1, 1, 1, 1, 1, .rw, false, false, 0, 0, 1⟩,
  ⟨0x90, 14, 1, 1, 1, 0, 24, .rw, false, false, 0, 0, 16777215⟩,
  ⟨0xa0, 14, 1, 1, 1, 0, 24, .rw, false, false, 0, 0, 16777215⟩,
  ⟨0xb0, 14, 1, 1, 1, 0, 24, .rw, false, false, 0, 0, 16777215⟩,
  ⟨0xc0, 14, 1, 1, 1, 0, 24, .rw, false, false, 0, 0, 16777215⟩,
  ⟨0xd0, 4, 1, 1, 1, 0, 24, .rw, false, false, 0, 0, 16777215⟩,
  ⟨0xe0, 1, 1, 1, 1, 0, 1, .wo, false, false, 0, 0, 1⟩,
  ⟨0xe0, 1, 1, 1, 1, 1, 1, .wo, false, false, 0, 0, 1⟩,
  ⟨0xe1, 1, 1, 1, 1, 0, 1, .ro, false, true, 0, 0, 1⟩,
  ⟨0xe1, 1, 1, 1, 1, 1, 3, .ro, false, true, 0, 0, 7⟩,
  ⟨0xf0, 1, 1, 1, 1, 0, 12, .rw, false, false, 0, 0, 4095⟩,
  ⟨0xf0, 1, 1, 1, 1, 12, 4, .rw, false, false, 0, 0, 15⟩,
  ⟨0xf1, 1, 1, 1, 1, 0, 24, .rw, false, false, 0, 0, 16777215⟩,
  ⟨0x100, 16, 4, 4, 1, 0, 24, .cm, false, false, 0, 0, 16777215⟩]
/-- Word map of CLS. -/
def mapCLS : List FieldRow := mapCLS_0

/-- Word map of FLOW, part 0 (18 R423). -/
def mapFLOW_0 : List FieldRow := [
  ⟨0x10, 1, 1, 1, 1, 0, 17, .rw, false, false, 0, 0, 131071⟩,
  ⟨0x11, 1, 1, 1, 1, 0, 1, .rw, false, false, 0, 0, 1⟩,
  ⟨0x11, 1, 1, 1, 1, 1, 1, .rw, false, false, 0, 0, 1⟩,
  ⟨0x11, 1, 1, 1, 1, 2, 6, .rw, false, false, 0, 0, 63⟩,
  ⟨0x11, 1, 1, 1, 1, 8, 1, .rw, false, false, 0, 0, 1⟩,
  ⟨0x11, 1, 1, 1, 1, 9, 1, .rw, false, false, 0, 0, 1⟩,
  ⟨0x11, 1, 1, 1, 1, 10, 1, .rw, false, false, 1, 0, 1⟩,
  ⟨0x11, 1, 1, 1, 1, 11, 1, .rw, false, false, 1, 0, 1⟩,
  ⟨0x12, 1, 1, 1, 1, 0, 14, .rw, false, false, 0, 0, 16383⟩,
  ⟨0x12, 1, 1, 1, 1, 14, 10, .rw, false, false, 0, 0, 1023⟩,
  ⟨0x13, 1, 1, 1, 1, 0, 24, .rw, false, false, 0, 0, 16777215⟩,
  ⟨0x14, 1, 1, 1, 1, 0, 24, .rw, false, false, 0, 0, 16777215⟩,
  ⟨0x15, 1, 1, 1, 1, 0, 24, .rw, false, false, 0, 0, 16777215⟩,
  ⟨0x16, 1, 1, 1, 1, 0, 24, .rw, false, false, 0, 0, 16777215⟩,
  ⟨0x20, 14, 1, 1, 1, 0, 24, .rw, false, false, 0, 0, 16777215⟩,
  ⟨0x2e, 1, 1, 1, 1, 0, 4, .rw, false, false, 0, 0, 15⟩,
  ⟨0x30, 1, 1, 1, 1, 0, 4, .wo, false, false, 0, 0, 15⟩,
  ⟨0x31, 1, 1, 1, 1, 0, 1, .ro, false, true, 0, 0, 1⟩,
  ⟨0x31, 1, 1, 1, 1, 1, 3, .ro, false, true, 0, 0, 7⟩,
  ⟨0x31, 1, 1, 1, 1, 4, 17, .ro, false, true, 0, 0, 131071⟩,
  ⟨0x100, 16, 16, 14, 1, 0, 24, .cm, false, false, 0, 0, 16777215⟩,
  ⟨0x200, 16, 1, 1, 1, 0, 17, .ro, false, false, 0, 0, 131071⟩]
/-- Word map of FLOW. -/
def mapFLOW : List FieldRow := mapFLOW_0

/-- Word map of QM, part 0 (19 R440). -/
def mapQM_0 : List FieldRow := [
  ⟨0x10, 1, 1, 1, 1, 0, 12, .cm, true, false, 256, 0, 4095⟩,
  ⟨0x10, 1, 1, 1, 1, 12, 7, .cm, true, false, 32, 0, 64⟩,
  ⟨0x11, 1, 1, 1, 1, 0, 21, .ro, false, false, 1048576, 0, 2097151⟩,
  ⟨0x20, 1, 1, 1, 1, 0, 14, .cm, false, false, 0, 0, 16383⟩,
  ⟨0x21, 1, 1, 1, 1, 0, 1, .cm, false, false, 1, 0, 1⟩,
  ⟨0x21, 1, 1, 1, 1, 1, 16, .cm, false, false, 64, 0, 65535⟩,
  ⟨0x22, 1, 1, 1, 1, 0, 4, .cm, false, false, 12, 0, 15⟩,
  ⟨0x22, 1, 1, 1, 1, 4, 4, .cm, false, false, 8, 0, 15⟩,
  ⟨0x22, 1, 1, 1, 1, 8, 4, .cm, false, false, 2, 0, 15⟩,
  ⟨0x28, 1, 1, 1, 1, 0, 14, .rw, false, false, 0, 0, 16383⟩,
  ⟨0x29, 1, 1, 1, 1, 0, 1, .ro, false, false, 0, 0, 1⟩,
  ⟨0x29, 1, 1, 1, 1, 1, 3, .ro, false, false, 0, 0, 7⟩,
  ⟨0x29, 1, 1, 1, 1, 4, 1, .ro, false, false, 0, 0, 1⟩,
  ⟨0x2a, 1, 1, 1, 1, 0, 6, .ro, false, false, 0, 0, 63⟩,
  ⟨0x2b, 1, 1, 1, 1, 0, 24, .ro, false, false, 0, 0, 16777215⟩,
  ⟨0x2c, 1, 1, 1, 1, 0, 24, .ro, false, false, 0, 0, 16777215⟩,
  ⟨0x40, 32, 2, 1, 1, 0, 16, .cm, false, false, 0, 0, 65535⟩,
  ⟨0x41, 32, 2, 1, 1, 0, 16, .cm, false, false, 0, 0, 65535⟩,
  ⟨0x100, 192, 1, 1, 1, 0, 16, .ro, false, true, 0, 0, 65535⟩,
  ⟨0x200, 8, 4, 1, 1, 0, 24, .cm, true, false, 0, 0, 16777215⟩,
  ⟨0x201, 8, 4, 1, 1, 0, 24, .cm, true, false, 0, 0, 16777215⟩,
  ⟨0x202, 8, 4, 1, 1, 0, 11, .cm, true, false, 0, 0, 1024⟩,
  ⟨0x203, 8, 4, 1, 1, 0, 11, .wo, true, false, 0, 0, 2047⟩,
  ⟨0x240, 8, 1, 1, 1, 0, 11, .ro, false, true, 0, 0, 2047⟩,
  ⟨0x240, 8, 1, 1, 1, 11, 11, .ro, false, true, 0, 0, 2047⟩]
/-- Word map of QM. -/
def mapQM : List FieldRow := mapQM_0

/-- Word map of SCH, part 0 (20 R459). -/
def mapSCH_0 : List FieldRow := [
  ⟨0x10, 1, 1, 1, 1, 0, 24, .cm, false, false, 0, 0, 16777215⟩,
  ⟨0x11, 1, 1, 1, 1, 0, 22, .cm, false, false, 12288, 0, 4194303⟩,
  ⟨0x12, 1, 1, 1, 1, 0, 6, .cm, false, false, 20, 0, 63⟩,
  ⟨0x12, 1, 1, 1, 1, 8, 8, .cm, false, false, 0, 0, 255⟩,
  ⟨0x13, 1, 1, 1, 1, 0, 8, .ro, false, false, 0, 0, 255⟩,
  ⟨0x13, 1, 1, 1, 1, 8, 8, .ro, false, false, 0, 0, 255⟩,
  ⟨0x14, 1, 1, 1, 1, 0, 10, .rw, false, false, 0, 0, 1000⟩,
  ⟨0x20, 1, 1, 1, 1, 0, 9, .cm, false, false, 0, 0, 511⟩,
  ⟨0x21, 1, 1, 1, 1, 0, 1, .cm, false, false, 0, 0, 1⟩,
  ⟨0x21, 1, 1, 1, 1, 1, 8, .cm, false, false, 1, 0, 255⟩,
  ⟨0x22, 1, 1, 1, 1, 0, 24, .cm, false, false, 0, 0, 16777215⟩,
  ⟨0x23, 1, 1, 1, 1, 0, 22, .cm, false, false, 0, 0, 4194303⟩,
  ⟨0x24, 1, 1, 1, 1, 0, 24, .cm, false, false, 0, 0, 16777215⟩,
  ⟨0x25, 1, 1, 1, 1, 0, 22, .cm, false, false, 0, 0, 4194303⟩,
  ⟨0x30, 1, 1, 1, 1, 0, 12, .cm, false, false, 0, 0, 4095⟩,
  ⟨0x31, 1, 1, 1, 1, 0, 9, .cm, false, false, 0, 0, 511⟩,
  ⟨0x31, 1, 1, 1, 1, 9, 1, .cm, false, false, 0, 0, 1⟩,
  ⟨0x31, 1, 1, 1, 1, 10, 8, .cm, false, false, 1, 0, 255⟩,
  ⟨0x32, 1, 1, 1, 1, 0, 24, .cm, false, false, 0, 0, 16777215⟩,
  ⟨0x33, 1, 1, 1, 1, 0, 22, .cm, false, false, 0, 0, 4194303⟩,
  ⟨0x34, 1, 1, 1, 1, 0, 24, .cm, false, false, 0, 0, 16777215⟩,
  ⟨0x35, 1, 1, 1, 1, 0, 22, .cm, false, false, 0, 0, 4194303⟩,
  ⟨0x40, 1, 1, 1, 1, 0, 14, .cm, false, false, 0, 0, 16383⟩,
  ⟨0x41, 1, 1, 1, 1, 0, 12, .cm, false, false, 0, 0, 4095⟩,
  ⟨0x41, 1, 1, 1, 1, 12, 1, .cm, false, false, 0, 0, 1⟩,
  ⟨0x41, 1, 1, 1, 1, 13, 3, .cm, false, false, 0, 0, 7⟩,
  ⟨0x41, 1, 1, 1, 1, 16, 8, .cm, false, false, 1, 0, 255⟩,
  ⟨0x50, 1, 1, 1, 1, 0, 2, .rw, false, false, 0, 0, 2⟩,
  ⟨0x50, 1, 1, 1, 1, 2, 14, .rw, false, false, 0, 0, 16383⟩,
  ⟨0x51, 1, 1, 1, 1, 0, 24, .ro, false, false, 0, 0, 16777215⟩]
/-- Word map of SCH, part 1 (20 R459). -/
def mapSCH_1 : List FieldRow := [
  ⟨0x52, 1, 1, 1, 1, 0, 24, .ro, false, false, 0, 0, 16777215⟩,
  ⟨0x53, 1, 1, 1, 1, 0, 24, .ro, false, false, 0, 0, 16777215⟩]
/-- Word map of SCH. -/
def mapSCH : List FieldRow := mapSCH_0 ++ mapSCH_1

/-- Word map of MEM, part 0 (21 R472). -/
def mapMEM_0 : List FieldRow := [
  ⟨0x10, 1, 1, 1, 1, 0, 6, .cm, false, false, 4, 1, 63⟩,
  ⟨0x10, 1, 1, 1, 1, 6, 6, .cm, false, false, 5, 0, 63⟩,
  ⟨0x11, 1, 1, 1, 1, 0, 5, .ro, false, false, 0, 0, 31⟩,
  ⟨0x11, 1, 1, 1, 1, 5, 1, .ro, false, false, 0, 0, 1⟩,
  ⟨0x11, 1, 1, 1, 1, 6, 1, .ro, false, false, 0, 0, 1⟩,
  ⟨0x12, 1, 1, 1, 1, 0, 24, .ro, false, true, 0, 0, 16777215⟩,
  ⟨0x20, 32, 1, 1, 1, 0, 2, .ro, false, false, 0, 0, 3⟩,
  ⟨0x20, 32, 1, 1, 1, 2, 1, .ro, false, false, 0, 0, 1⟩,
  ⟨0x20, 32, 1, 1, 1, 3, 8, .ro, false, false, 0, 0, 255⟩,
  ⟨0x20, 32, 1, 1, 1, 11, 5, .ro, false, false, 0, 0, 31⟩,
  ⟨0x40, 32, 1, 1, 1, 0, 1, .wo, true, false, 0, 0, 1⟩]
/-- Word map of MEM. -/
def mapMEM : List FieldRow := mapMEM_0

/-- Word map of MPE, part 0 (22 R490). -/
def mapMPE_0 : List FieldRow := [
  ⟨0x10, 1, 1, 1, 1, 0, 4, .cm, true, false, 0, 0, 15⟩,
  ⟨0x11, 1, 1, 1, 1, 0, 21, .cm, true, false, 0, 0, 2097151⟩,
  ⟨0x12, 1, 1, 1, 1, 0, 21, .cm, true, false, 0, 0, 2097151⟩,
  ⟨0x12, 1, 1, 1, 1, 21, 1, .cm, true, false, 0, 0, 1⟩,
  ⟨0x12, 1, 1, 1, 1, 22, 1, .cm, true, false, 0, 0, 1⟩,
  ⟨0x20, 1, 1, 1, 1, 0, 4, .cm, true, false, 0, 0, 14⟩,
  ⟨0x21, 4, 2, 1, 1, 0, 21, .cm, true, false, 0, 0, 2097151⟩,
  ⟨0x21, 4, 2, 1, 1, 21, 1, .cm, true, false, 0, 0, 1⟩,
  ⟨0x21, 4, 2, 1, 1, 22, 1, .cm, true, false, 0, 0, 1⟩,
  ⟨0x22, 4, 2, 1, 1, 0, 21, .cm, true, false, 0, 0, 2097151⟩,
  ⟨0x30, 1, 1, 1, 1, 0, 4, .rw, false, false, 0, 0, 15⟩,
  ⟨0x31, 1, 1, 1, 1, 0, 21, .ro, false, false, 0, 0, 2097151⟩,
  ⟨0x31, 1, 1, 1, 1, 21, 1, .ro, false, false, 0, 0, 1⟩,
  ⟨0x31, 1, 1, 1, 1, 22, 1, .ro, false, false, 0, 0, 1⟩,
  ⟨0x32, 1, 1, 1, 1, 0, 21, .ro, false, false, 0, 0, 2097151⟩,
  ⟨0x33, 1, 1, 1, 1, 0, 21, .ro, false, false, 0, 0, 2097151⟩,
  ⟨0x33, 1, 1, 1, 1, 21, 1, .ro, false, false, 0, 0, 1⟩,
  ⟨0x33, 1, 1, 1, 1, 22, 1, .ro, false, false, 0, 0, 1⟩,
  ⟨0x34, 1, 1, 1, 1, 0, 21, .ro, false, false, 0, 0, 2097151⟩,
  ⟨0x35, 1, 1, 1, 1, 0, 21, .ro, false, false, 0, 0, 2097151⟩,
  ⟨0x35, 1, 1, 1, 1, 21, 1, .ro, false, false, 0, 0, 1⟩,
  ⟨0x35, 1, 1, 1, 1, 22, 1, .ro, false, false, 0, 0, 1⟩,
  ⟨0x36, 1, 1, 1, 1, 0, 21, .ro, false, false, 0, 0, 2097151⟩,
  ⟨0x37, 1, 1, 1, 1, 0, 21, .ro, false, false, 0, 0, 2097151⟩,
  ⟨0x37, 1, 1, 1, 1, 21, 1, .ro, false, false, 0, 0, 1⟩,
  ⟨0x37, 1, 1, 1, 1, 22, 1, .ro, false, false, 0, 0, 1⟩,
  ⟨0x38, 1, 1, 1, 1, 0, 21, .ro, false, false, 0, 0, 2097151⟩,
  ⟨0x40, 1, 1, 1, 1, 0, 4, .rw, true, false, 0, 0, 15⟩,
  ⟨0x41, 1, 1, 1, 1, 0, 1, .wo, true, false, 0, 0, 1⟩,
  ⟨0x42, 1, 1, 1, 1, 0, 6, .rw, true, false, 2, 2, 32⟩]
/-- Word map of MPE, part 1 (22 R490). -/
def mapMPE_1 : List FieldRow := [
  ⟨0x43, 1, 1, 1, 1, 0, 2, .ro, false, true, 0, 0, 3⟩,
  ⟨0x44, 1, 1, 1, 1, 0, 1, .ro, false, false, 0, 0, 1⟩,
  ⟨0x45, 1, 1, 1, 1, 0, 24, .ro, false, false, 0, 0, 16777215⟩,
  ⟨0x46, 1, 1, 1, 1, 0, 24, .ro, false, false, 0, 0, 16777215⟩,
  ⟨0x47, 1, 1, 1, 1, 0, 1, .ro, false, false, 0, 0, 1⟩]
/-- Word map of MPE. -/
def mapMPE : List FieldRow := mapMPE_0 ++ mapMPE_1

/-- Word map of KEY, part 0 (23 R513). -/
def mapKEY_0 : List FieldRow := [
  ⟨0x10, 1, 1, 1, 1, 0, 13, .rw, true, false, 0, 0, 8191⟩,
  ⟨0x11, 1, 1, 1, 1, 0, 2, .rw, true, false, 0, 0, 3⟩,
  ⟨0x11, 1, 1, 1, 1, 2, 1, .rw, true, false, 0, 0, 1⟩,
  ⟨0x11, 1, 1, 1, 1, 3, 2, .rw, true, false, 0, 0, 3⟩,
  ⟨0x11, 1, 1, 1, 1, 5, 1, .rw, true, false, 0, 0, 1⟩,
  ⟨0x12, 1, 1, 1, 1, 0, 24, .rw, true, false, 0, 0, 16777215⟩,
  ⟨0x13, 11, 1, 1, 1, 0, 24, .wo, true, false, 0, 0, 16777215⟩,
  ⟨0x20, 1, 1, 1, 1, 0, 13, .rw, true, false, 0, 0, 8191⟩,
  ⟨0x20, 1, 1, 1, 1, 13, 1, .rw, true, false, 0, 0, 1⟩,
  ⟨0x21, 4, 1, 1, 1, 0, 24, .rw, true, false, 0, 0, 16777215⟩,
  ⟨0x25, 16, 1, 1, 1, 0, 24, .rw, true, false, 0, 0, 16777215⟩,
  ⟨0x35, 1, 1, 1, 1, 0, 4, .wo, true, false, 0, 0, 15⟩,
  ⟨0x35, 1, 1, 1, 1, 4, 2, .wo, true, false, 0, 0, 3⟩,
  ⟨0x36, 1, 1, 1, 1, 0, 4, .ro, false, true, 0, 0, 15⟩,
  ⟨0x37, 1, 1, 1, 1, 0, 11, .ro, false, true, 0, 0, 2047⟩,
  ⟨0x40, 1, 1, 1, 1, 0, 2, .rw, false, false, 0, 0, 3⟩,
  ⟨0x41, 16, 1, 1, 1, 0, 24, .ro, false, false, 0, 0, 16777215⟩,
  ⟨0x60, 1, 1, 1, 1, 0, 24, .ro, false, true, 0, 0, 16777215⟩,
  ⟨0x61, 1, 1, 1, 1, 0, 1, .ro, false, false, 0, 0, 1⟩,
  ⟨0x61, 1, 1, 1, 1, 1, 1, .ro, false, false, 0, 0, 1⟩,
  ⟨0x70, 1, 1, 1, 1, 0, 2, .ro, false, false, 0, 0, 3⟩,
  ⟨0x70, 1, 1, 1, 1, 2, 1, .ro, false, false, 0, 0, 1⟩,
  ⟨0x70, 1, 1, 1, 1, 3, 1, .ro, false, false, 0, 0, 1⟩,
  ⟨0x70, 1, 1, 1, 1, 4, 2, .ro, false, false, 0, 0, 3⟩,
  ⟨0x70, 1, 1, 1, 1, 6, 2, .ro, false, false, 0, 0, 3⟩,
  ⟨0x70, 1, 1, 1, 1, 8, 7, .ro, false, false, 0, 0, 127⟩,
  ⟨0x70, 1, 1, 1, 1, 15, 1, .ro, false, false, 0, 0, 1⟩,
  ⟨0x71, 1, 1, 1, 1, 0, 3, .wo, true, false, 0, 0, 7⟩,
  ⟨0x71, 1, 1, 1, 1, 3, 1, .wo, true, false, 0, 0, 1⟩,
  ⟨0x71, 1, 1, 1, 1, 4, 7, .wo, true, false, 0, 0, 127⟩]
/-- Word map of KEY, part 1 (23 R513). -/
def mapKEY_1 : List FieldRow := [
  ⟨0x71, 1, 1, 1, 1, 16, 8, .wo, true, false, 0, 0, 255⟩,
  ⟨0x72, 1, 1, 1, 1, 0, 4, .ro, false, true, 0, 0, 15⟩]
/-- Word map of KEY. -/
def mapKEY : List FieldRow := mapKEY_0 ++ mapKEY_1

/-- Word map of CHK, part 0 (23 R514). -/
def mapCHK_0 : List FieldRow := [
  ⟨0x10, 1, 1, 1, 1, 0, 13, .rw, false, false, 0, 0, 8191⟩,
  ⟨0x11, 1, 1, 1, 1, 0, 4, .rw, false, false, 0, 0, 15⟩,
  ⟨0x12, 1, 1, 1, 1, 0, 19, .rw, false, false, 0, 0, 524287⟩,
  ⟨0x13, 1, 1, 1, 1, 0, 13, .rw, false, false, 0, 0, 8191⟩,
  ⟨0x14, 1, 1, 1, 1, 0, 19, .rw, false, false, 0, 0, 524287⟩,
  ⟨0x15, 1, 1, 1, 1, 0, 5, .rw, false, false, 16, 0, 31⟩,
  ⟨0x16, 4, 1, 1, 1, 0, 24, .rw, false, false, 0, 0, 16777215⟩,
  ⟨0x1a, 6, 1, 1, 1, 0, 24, .rw, false, false, 0, 0, 16777215⟩,
  ⟨0x20, 1, 1, 1, 1, 0, 13, .rw, false, false, 0, 0, 8191⟩,
  ⟨0x21, 1, 1, 1, 1, 0, 13, .rw, true, false, 0, 0, 8191⟩,
  ⟨0x22, 1, 1, 1, 1, 0, 2, .rw, true, false, 0, 0, 3⟩,
  ⟨0x22, 1, 1, 1, 1, 2, 1, .rw, true, false, 0, 0, 1⟩,
  ⟨0x22, 1, 1, 1, 1, 3, 2, .rw, true, false, 0, 0, 3⟩,
  ⟨0x22, 1, 1, 1, 1, 5, 1, .rw, true, false, 0, 0, 1⟩,
  ⟨0x23, 1, 1, 1, 1, 0, 24, .rw, true, false, 0, 0, 16777215⟩,
  ⟨0x24, 1, 1, 1, 1, 0, 1, .wo, false, false, 0, 0, 1⟩,
  ⟨0x25, 1, 1, 1, 1, 0, 4, .ro, false, true, 0, 0, 15⟩,
  ⟨0x25, 1, 1, 1, 1, 4, 13, .ro, false, true, 0, 0, 8191⟩,
  ⟨0x26, 6, 1, 1, 1, 0, 24, .ro, false, true, 0, 0, 16777215⟩]
/-- Word map of CHK. -/
def mapCHK : List FieldRow := mapCHK_0

/-- Word map of TIME, part 0 (24 R539). -/
def mapTIME_0 : List FieldRow := [
  ⟨0x10, 1, 1, 1, 1, 0, 2, .ro, false, false, 0, 0, 3⟩,
  ⟨0x10, 1, 1, 1, 1, 2, 1, .ro, false, false, 1, 0, 1⟩,
  ⟨0x10, 1, 1, 1, 1, 3, 1, .ro, false, false, 1, 0, 1⟩,
  ⟨0x10, 1, 1, 1, 1, 4, 3, .ro, false, false, 0, 0, 7⟩,
  ⟨0x10, 1, 1, 1, 1, 7, 1, .ro, false, false, 0, 0, 1⟩,
  ⟨0x10, 1, 1, 1, 1, 8, 5, .ro, false, false, 0, 0, 31⟩,
  ⟨0x11, 1, 1, 1, 1, 0, 24, .ro, false, false, 0, 0, 16777215⟩,
  ⟨0x12, 1, 1, 1, 1, 0, 1, .rw, true, false, 0, 0, 1⟩,
  ⟨0x13, 1, 1, 1, 1, 0, 5, .rw, true, false, 0, 0, 31⟩,
  ⟨0x13, 1, 1, 1, 1, 8, 5, .rw, true, false, 0, 0, 31⟩,
  ⟨0x13, 1, 1, 1, 1, 13, 11, .rw, true, false, 300, 0, 2047⟩,
  ⟨0x14, 1, 1, 1, 1, 0, 5, .rw, true, false, 0, 0, 31⟩,
  ⟨0x14, 1, 1, 1, 1, 5, 2, .rw, true, false, 0, 0, 3⟩,
  ⟨0x15, 1, 1, 1, 1, 0, 16, .rw, false, false, 0, 0, 65535⟩,
  ⟨0x15, 1, 1, 1, 1, 16, 1, .rw, false, false, 0, 0, 1⟩,
  ⟨0x15, 1, 1, 1, 1, 17, 1, .rw, false, false, 0, 0, 1⟩,
  ⟨0x15, 1, 1, 1, 1, 18, 1, .rw, false, false, 0, 0, 1⟩,
  ⟨0x20, 1, 1, 1, 1, 0, 8, .rw, true, false, 0, 0, 255⟩,
  ⟨0x21, 1, 1, 1, 1, 0, 24, .rw, true, false, 0, 0, 16777215⟩,
  ⟨0x22, 1, 1, 1, 1, 0, 24, .rw, true, false, 0, 0, 16777215⟩,
  ⟨0x23, 1, 1, 1, 1, 0, 24, .rw, true, false, 0, 0, 16777215⟩,
  ⟨0x24, 1, 1, 1, 1, 0, 24, .rw, true, false, 0, 0, 16777215⟩,
  ⟨0x25, 1, 1, 1, 1, 0, 24, .rw, true, false, 0, 0, 16777215⟩,
  ⟨0x26, 1, 1, 1, 1, 0, 24, .rw, true, false, 0, 0, 16777215⟩,
  ⟨0x27, 1, 1, 1, 1, 0, 6, .rw, true, false, 0, 0, 63⟩,
  ⟨0x28, 1, 1, 1, 1, 0, 24, .rw, true, false, 0, 0, 16777215⟩,
  ⟨0x29, 1, 1, 1, 1, 0, 10, .rw, true, false, 100, 0, 1023⟩,
  ⟨0x2a, 1, 1, 1, 1, 0, 1, .wo, true, false, 0, 0, 1⟩,
  ⟨0x2a, 1, 1, 1, 1, 1, 1, .wo, true, false, 0, 0, 1⟩,
  ⟨0x2a, 1, 1, 1, 1, 2, 1, .wo, true, false, 0, 0, 1⟩]
/-- Word map of TIME, part 1 (24 R539). -/
def mapTIME_1 : List FieldRow := [
  ⟨0x2a, 1, 1, 1, 1, 3, 1, .wo, true, false, 0, 0, 1⟩,
  ⟨0x2a, 1, 1, 1, 1, 4, 3, .wo, true, false, 0, 0, 7⟩,
  ⟨0x2b, 1, 1, 1, 1, 0, 2, .ro, false, true, 0, 0, 3⟩,
  ⟨0x2b, 1, 1, 1, 1, 2, 1, .ro, false, true, 0, 0, 1⟩,
  ⟨0x100, 8, 8, 1, 1, 0, 1, .wo, false, false, 0, 0, 1⟩,
  ⟨0x101, 8, 8, 1, 1, 0, 24, .ro, false, false, 0, 0, 16777215⟩,
  ⟨0x102, 8, 8, 1, 1, 0, 24, .ro, false, false, 0, 0, 16777215⟩,
  ⟨0x103, 8, 8, 1, 1, 0, 24, .ro, false, false, 0, 0, 16777215⟩,
  ⟨0x104, 8, 8, 1, 1, 0, 6, .ro, false, false, 0, 0, 63⟩,
  ⟨0x105, 8, 8, 1, 1, 0, 24, .ro, false, false, 0, 0, 16777215⟩,
  ⟨0x106, 8, 8, 1, 1, 0, 18, .ro, false, false, 0, 0, 262143⟩,
  ⟨0x107, 8, 8, 1, 1, 0, 24, .ro, false, false, 0, 0, 16777215⟩,
  ⟨0x60, 2, 8, 1, 1, 0, 17, .rw, false, false, 0, 0, 131071⟩,
  ⟨0x60, 2, 8, 1, 1, 17, 1, .rw, false, false, 0, 0, 1⟩,
  ⟨0x61, 2, 8, 1, 1, 0, 24, .ro, false, true, 0, 0, 16777215⟩,
  ⟨0x62, 2, 8, 1, 1, 0, 6, .ro, false, true, 0, 0, 63⟩,
  ⟨0x63, 2, 8, 1, 1, 0, 24, .ro, false, true, 0, 0, 16777215⟩,
  ⟨0x64, 2, 8, 1, 1, 0, 24, .ro, false, true, 0, 0, 16777215⟩,
  ⟨0x65, 2, 8, 1, 1, 0, 1, .ro, false, false, 1, 0, 1⟩,
  ⟨0x66, 2, 8, 1, 1, 0, 3, .rw, false, false, 4, 0, 7⟩,
  ⟨0x66, 2, 8, 1, 1, 3, 1, .rw, false, false, 0, 0, 1⟩,
  ⟨0x67, 2, 8, 1, 1, 0, 8, .ro, false, false, 0, 0, 255⟩,
  ⟨0x67, 2, 8, 1, 1, 8, 1, .ro, false, false, 0, 0, 1⟩,
  ⟨0x67, 2, 8, 1, 1, 9, 1, .ro, false, false, 0, 0, 1⟩,
  ⟨0x70, 2, 1, 1, 1, 0, 1, .wo, false, false, 0, 0, 1⟩,
  ⟨0x80, 2, 8, 1, 1, 0, 1, .rw, false, false, 0, 0, 1⟩,
  ⟨0x80, 2, 8, 1, 1, 1, 19, .rw, false, false, 100000, 0, 524287⟩,
  ⟨0x81, 2, 8, 1, 1, 0, 17, .rw, false, false, 0, 0, 131071⟩,
  ⟨0x82, 2, 8, 1, 1, 0, 1, .rw, false, false, 0, 0, 1⟩,
  ⟨0x82, 2, 8, 1, 1, 1, 3, .rw, false, false, 4, 0, 7⟩]
/-- Word map of TIME, part 2 (24 R539). -/
def mapTIME_2 : List FieldRow := [
  ⟨0x82, 2, 8, 1, 1, 4, 1, .rw, false, false, 1, 0, 1⟩,
  ⟨0x83, 2, 8, 1, 1, 0, 1, .rw, false, false, 0, 0, 1⟩,
  ⟨0x84, 2, 8, 1, 1, 0, 1, .rw, false, false, 0, 0, 1⟩,
  ⟨0x85, 2, 8, 1, 1, 0, 24, .rw, false, false, 10000000, 0, 16777215⟩,
  ⟨0xa0, 1, 1, 1, 1, 0, 5, .rw, false, false, 0, 0, 31⟩,
  ⟨0xa1, 1, 1, 1, 1, 0, 4, .ro, false, false, 0, 0, 15⟩,
  ⟨0xa1, 1, 1, 1, 1, 4, 8, .ro, false, false, 0, 0, 255⟩,
  ⟨0xa1, 1, 1, 1, 1, 12, 1, .ro, false, false, 0, 0, 1⟩,
  ⟨0xa1, 1, 1, 1, 1, 13, 5, .ro, false, false, 0, 0, 31⟩,
  ⟨0xa2, 1, 1, 1, 1, 0, 16, .ro, false, false, 0, 0, 65535⟩,
  ⟨0xa3, 1, 1, 1, 1, 0, 24, .ro, false, false, 0, 0, 16777215⟩,
  ⟨0xa4, 1, 1, 1, 1, 0, 6, .ro, false, false, 0, 0, 63⟩,
  ⟨0xa5, 1, 1, 1, 1, 0, 24, .ro, false, false, 0, 0, 16777215⟩,
  ⟨0xa6, 1, 1, 1, 1, 0, 24, .ro, false, false, 0, 0, 16777215⟩,
  ⟨0xa7, 1, 1, 1, 1, 0, 1, .wo, false, false, 0, 0, 1⟩,
  ⟨0xb0, 1, 1, 1, 1, 0, 24, .ro, false, true, 0, 0, 16777215⟩,
  ⟨0x200, 16, 16, 1, 1, 0, 1, .rw, false, false, 0, 0, 1⟩,
  ⟨0x200, 16, 16, 1, 1, 1, 1, .rw, false, false, 0, 0, 1⟩,
  ⟨0x200, 16, 16, 1, 1, 2, 1, .rw, false, false, 0, 0, 1⟩,
  ⟨0x200, 16, 16, 1, 1, 3, 8, .rw, false, false, 255, 0, 255⟩,
  ⟨0x201, 16, 16, 1, 1, 0, 24, .rw, false, false, 0, 0, 16777215⟩,
  ⟨0x202, 16, 16, 1, 1, 0, 24, .rw, false, false, 0, 0, 16777215⟩,
  ⟨0x203, 16, 16, 1, 1, 0, 12, .rw, false, false, 0, 0, 4095⟩,
  ⟨0x204, 16, 16, 1, 1, 0, 6, .rw, false, false, 0, 0, 63⟩,
  ⟨0x205, 16, 16, 1, 1, 0, 24, .rw, false, false, 0, 0, 16777215⟩,
  ⟨0x206, 16, 16, 1, 1, 0, 24, .rw, false, false, 0, 0, 16777215⟩,
  ⟨0x207, 16, 16, 1, 1, 0, 1, .wo, false, false, 0, 0, 1⟩,
  ⟨0x207, 16, 16, 1, 1, 1, 1, .wo, false, false, 0, 0, 1⟩,
  ⟨0x208, 16, 16, 1, 1, 0, 1, .ro, false, false, 0, 0, 1⟩,
  ⟨0x209, 16, 16, 1, 1, 0, 24, .ro, false, true, 0, 0, 16777215⟩]
/-- Word map of TIME, part 3 (24 R539). -/
def mapTIME_3 : List FieldRow := [
  ⟨0x20a, 16, 16, 1, 1, 0, 24, .ro, false, false, 0, 0, 16777215⟩]
/-- Word map of TIME. -/
def mapTIME : List FieldRow := mapTIME_0 ++ mapTIME_1 ++ mapTIME_2 ++ mapTIME_3

/-- Word map of CNDL, part 0 (25 R555). -/
def mapCNDL_0 : List FieldRow := [
  ⟨0x10, 1, 1, 1, 1, 0, 1, .ro, false, false, 0, 0, 1⟩,
  ⟨0x10, 1, 1, 1, 1, 1, 1, .ro, false, false, 0, 0, 1⟩,
  ⟨0x10, 1, 1, 1, 1, 2, 1, .ro, false, false, 0, 0, 1⟩,
  ⟨0x10, 1, 1, 1, 1, 3, 2, .ro, false, false, 0, 0, 3⟩,
  ⟨0x10, 1, 1, 1, 1, 5, 1, .rs, false, false, 0, 0, 1⟩,
  ⟨0x10, 1, 1, 1, 1, 6, 1, .rs, false, false, 0, 0, 1⟩,
  ⟨0x11, 1, 1, 1, 1, 0, 24, .ro, false, false, 0, 0, 16777215⟩,
  ⟨0x12, 1, 1, 1, 1, 0, 5, .wo, true, false, 0, 0, 31⟩,
  ⟨0x13, 1, 1, 1, 1, 0, 24, .ro, false, false, 0, 0, 16777215⟩,
  ⟨0x14, 1, 1, 1, 1, 0, 24, .ro, false, true, 0, 0, 16777215⟩,
  ⟨0x15, 1, 1, 1, 1, 0, 8, .ro, false, true, 0, 0, 255⟩,
  ⟨0x16, 1, 1, 1, 1, 0, 24, .ro, false, true, 0, 0, 16777215⟩,
  ⟨0x17, 1, 1, 1, 1, 0, 24, .ro, false, true, 0, 0, 16777215⟩,
  ⟨0x18, 1, 1, 1, 1, 0, 24, .ro, false, true, 0, 0, 16777215⟩,
  ⟨0x19, 1, 1, 1, 1, 0, 24, .ro, false, true, 0, 0, 16777215⟩,
  ⟨0x20, 1, 1, 1, 1, 0, 24, .cm, true, false, 0, 0, 16777215⟩,
  ⟨0x21, 1, 1, 1, 1, 0, 24, .cm, true, false, 0, 0, 16777215⟩,
  ⟨0x22, 1, 1, 1, 1, 0, 24, .cm, true, false, 0, 0, 16777215⟩,
  ⟨0x23, 1, 1, 1, 1, 0, 24, .cm, true, false, 0, 0, 16777215⟩,
  ⟨0x24, 1, 1, 1, 1, 0, 24, .cm, true, false, 0, 0, 16777215⟩,
  ⟨0x25, 1, 1, 1, 1, 0, 12, .rw, true, false, 300, 10, 3600⟩]
/-- Word map of CNDL. -/
def mapCNDL : List FieldRow := mapCNDL_0

/-- Word map of MEAS, part 0 (26 R568). -/
def mapMEAS_0 : List FieldRow := [
  ⟨0x10, 1, 1, 1, 1, 0, 10, .rw, false, false, 60, 1, 1000⟩,
  ⟨0x11, 1, 1, 1, 1, 0, 8, .rw, false, false, 255, 0, 255⟩,
  ⟨0x20, 18, 4, 1, 1, 0, 2, .cm, false, false, 0, 0, 3⟩,
  ⟨0x20, 18, 4, 1, 1, 2, 4, .cm, false, false, 0, 0, 15⟩,
  ⟨0x20, 18, 4, 1, 1, 6, 2, .cm, false, false, 0, 0, 3⟩,
  ⟨0x20, 18, 4, 1, 1, 8, 4, .cm, false, false, 0, 0, 15⟩,
  ⟨0x20, 18, 4, 1, 1, 12, 1, .cm, false, false, 0, 0, 1⟩,
  ⟨0x20, 18, 4, 1, 1, 13, 1, .cm, false, false, 0, 0, 1⟩,
  ⟨0x20, 18, 4, 1, 1, 14, 1, .cm, false, false, 0, 0, 1⟩,
  ⟨0x20, 18, 4, 1, 1, 15, 1, .cm, false, false, 0, 0, 1⟩,
  ⟨0x20, 18, 4, 1, 1, 16, 4, .cm, false, false, 0, 0, 15⟩,
  ⟨0x20, 18, 4, 1, 1, 20, 1, .cm, false, false, 0, 0, 1⟩,
  ⟨0x20, 18, 4, 1, 1, 21, 1, .cm, false, false, 0, 0, 1⟩,
  ⟨0x21, 18, 4, 1, 1, 0, 24, .ro, false, true, 0, 0, 16777215⟩,
  ⟨0x22, 18, 4, 1, 1, 0, 24, .cm, false, false, 0, 0, 16777215⟩,
  ⟨0x23, 18, 4, 1, 1, 0, 24, .cm, false, false, 0, 0, 16777215⟩,
  ⟨0x80, 1, 1, 1, 1, 0, 18, .ro, false, false, 0, 0, 262143⟩,
  ⟨0x100, 8, 4, 1, 1, 0, 1, .rw, false, false, 0, 0, 1⟩,
  ⟨0x100, 8, 4, 1, 1, 1, 1, .rw, false, false, 0, 0, 1⟩,
  ⟨0x100, 8, 4, 1, 1, 2, 2, .rw, false, false, 0, 0, 3⟩,
  ⟨0x100, 8, 4, 1, 1, 4, 4, .rw, false, false, 15, 0, 15⟩,
  ⟨0x101, 8, 4, 1, 1, 0, 24, .rw, false, false, 1250, 0, 16777215⟩,
  ⟨0x102, 8, 4, 1, 1, 0, 24, .rw, false, false, 0, 0, 16777215⟩,
  ⟨0x103, 8, 4, 1, 1, 0, 24, .rw, false, false, 0, 0, 16777215⟩,
  ⟨0x140, 16, 1, 1, 1, 0, 2, .rw, false, false, 0, 0, 3⟩,
  ⟨0x140, 16, 1, 1, 1, 2, 1, .rw, false, false, 0, 0, 1⟩,
  ⟨0x140, 16, 1, 1, 1, 3, 2, .rw, false, false, 0, 0, 3⟩,
  ⟨0x140, 16, 1, 1, 1, 5, 4, .rw, false, false, 15, 0, 15⟩,
  ⟨0x140, 16, 1, 1, 1, 9, 2, .rw, false, false, 0, 0, 3⟩,
  ⟨0x140, 16, 1, 1, 1, 11, 1, .rw, false, false, 0, 0, 1⟩]
/-- Word map of MEAS, part 1 (26 R568). -/
def mapMEAS_1 : List FieldRow := [
  ⟨0x140, 16, 1, 1, 1, 12, 1, .rw, false, false, 0, 0, 1⟩,
  ⟨0x140, 16, 1, 1, 1, 13, 7, .rw, false, false, 0, 0, 127⟩,
  ⟨0x170, 1, 1, 1, 1, 0, 16, .rw, false, false, 0, 0, 65535⟩,
  ⟨0x171, 1, 1, 1, 1, 0, 16, .ro, false, false, 0, 0, 65535⟩,
  ⟨0x172, 1, 1, 1, 1, 0, 16, .rs, false, false, 0, 0, 65535⟩,
  ⟨0x180, 1, 1, 1, 1, 0, 1, .rw, false, false, 0, 0, 1⟩,
  ⟨0x180, 1, 1, 1, 1, 1, 1, .rw, false, false, 0, 0, 1⟩,
  ⟨0x180, 1, 1, 1, 1, 2, 1, .rw, false, false, 1, 0, 1⟩,
  ⟨0x180, 1, 1, 1, 1, 3, 1, .rw, false, false, 1, 0, 1⟩,
  ⟨0x190, 8, 2, 1, 1, 0, 4, .rw, false, false, 0, 0, 15⟩,
  ⟨0x190, 8, 2, 1, 1, 4, 1, .rw, false, false, 0, 0, 1⟩,
  ⟨0x191, 8, 2, 1, 1, 0, 24, .rw, false, false, 1000, 0, 16777215⟩,
  ⟨0x1a0, 1, 1, 1, 1, 0, 8, .wo, false, false, 0, 0, 255⟩]
/-- Word map of MEAS. -/
def mapMEAS : List FieldRow := mapMEAS_0 ++ mapMEAS_1

/-- Word map of PWR, part 0 (27 R584). -/
def mapPWR_0 : List FieldRow := [
  ⟨0x10, 1, 1, 1, 1, 0, 2, .rw, true, false, 0, 0, 3⟩,
  ⟨0x11, 1, 1, 1, 1, 0, 2, .rw, true, false, 0, 0, 3⟩,
  ⟨0x12, 1, 1, 1, 1, 0, 2, .ro, false, false, 0, 0, 3⟩,
  ⟨0x12, 1, 1, 1, 1, 2, 2, .ro, false, false, 0, 0, 3⟩,
  ⟨0x12, 1, 1, 1, 1, 4, 2, .ro, false, false, 0, 0, 3⟩,
  ⟨0x12, 1, 1, 1, 1, 6, 2, .ro, false, false, 0, 0, 3⟩,
  ⟨0x12, 1, 1, 1, 1, 8, 1, .ro, false, false, 0, 0, 1⟩,
  ⟨0x12, 1, 1, 1, 1, 9, 2, .ro, false, false, 0, 0, 3⟩,
  ⟨0x12, 1, 1, 1, 1, 11, 2, .ro, false, false, 0, 0, 3⟩,
  ⟨0x12, 1, 1, 1, 1, 13, 1, .ro, false, false, 0, 0, 1⟩,
  ⟨0x12, 1, 1, 1, 1, 14, 1, .ro, false, false, 0, 0, 1⟩,
  ⟨0x12, 1, 1, 1, 1, 15, 8, .ro, false, false, 0, 0, 255⟩,
  ⟨0x13, 1, 1, 1, 1, 1, 23, .rw, true, false, 0, 0, 8388607⟩,
  ⟨0x14, 1, 1, 1, 1, 0, 7, .rw, true, false, 127, 0, 127⟩,
  ⟨0x15, 1, 1, 1, 1, 0, 7, .ro, false, true, 0, 0, 127⟩,
  ⟨0x15, 1, 1, 1, 1, 7, 1, .ro, false, true, 0, 0, 1⟩,
  ⟨0x16, 1, 1, 1, 1, 0, 1, .wo, true, false, 0, 0, 1⟩,
  ⟨0x16, 1, 1, 1, 1, 1, 1, .ro, false, false, 0, 0, 1⟩,
  ⟨0x18, 1, 1, 1, 1, 0, 4, .rs, false, false, 0, 0, 15⟩,
  ⟨0x18, 1, 1, 1, 1, 4, 1, .ro, false, false, 0, 0, 1⟩,
  ⟨0x20, 1, 1, 1, 1, 0, 16, .ro, false, true, 0, 0, 65535⟩,
  ⟨0x20, 1, 1, 1, 1, 16, 4, .ro, false, true, 0, 0, 15⟩,
  ⟨0x21, 1, 1, 1, 1, 0, 12, .ro, false, true, 0, 0, 4095⟩,
  ⟨0x22, 1, 1, 1, 1, 0, 2, .ro, false, false, 0, 0, 3⟩,
  ⟨0x40, 32, 1, 1, 1, 0, 8, .rw, false, false, 0, 0, 255⟩,
  ⟨0x40, 32, 1, 1, 1, 8, 1, .rw, false, false, 0, 0, 1⟩]
/-- Word map of PWR. -/
def mapPWR : List FieldRow := mapPWR_0

/-- Word map of PAIR, part 0 (28 R602). -/
def mapPAIR_0 : List FieldRow := [
  ⟨0x10, 1, 1, 1, 1, 0, 1, .cm, true, false, 0, 0, 1⟩,
  ⟨0x10, 1, 1, 1, 1, 1, 1, .cm, true, false, 0, 0, 1⟩,
  ⟨0x11, 1, 1, 1, 1, 0, 24, .cm, true, false, 0, 0, 16777215⟩,
  ⟨0x12, 1, 1, 1, 1, 0, 8, .cm, true, false, 0, 0, 255⟩,
  ⟨0x12, 1, 1, 1, 1, 8, 4, .cm, true, false, 0, 0, 15⟩,
  ⟨0x13, 1, 1, 1, 1, 0, 1, .rw, true, false, 0, 0, 1⟩,
  ⟨0x14, 1, 1, 1, 1, 0, 1, .wo, true, false, 0, 0, 1⟩,
  ⟨0x14, 1, 1, 1, 1, 1, 1, .wo, true, false, 0, 0, 1⟩,
  ⟨0x15, 1, 1, 1, 1, 0, 2, .ro, false, false, 0, 0, 3⟩,
  ⟨0x15, 1, 1, 1, 1, 2, 1, .ro, false, false, 0, 0, 1⟩,
  ⟨0x15, 1, 1, 1, 1, 3, 1, .ro, false, false, 0, 0, 1⟩,
  ⟨0x15, 1, 1, 1, 1, 4, 1, .ro, false, false, 0, 0, 1⟩,
  ⟨0x15, 1, 1, 1, 1, 5, 1, .ro, false, false, 0, 0, 1⟩,
  ⟨0x15, 1, 1, 1, 1, 6, 1, .ro, false, false, 0, 0, 1⟩,
  ⟨0x15, 1, 1, 1, 1, 7, 2, .ro, false, false, 0, 0, 3⟩,
  ⟨0x15, 1, 1, 1, 1, 9, 1, .ro, false, false, 0, 0, 1⟩,
  ⟨0x15, 1, 1, 1, 1, 10, 1, .ro, false, false, 0, 0, 1⟩,
  ⟨0x16, 1, 1, 1, 1, 0, 4, .ro, false, true, 0, 0, 15⟩,
  ⟨0x17, 1, 1, 1, 1, 0, 8, .cm, true, false, 255, 0, 255⟩,
  ⟨0x20, 4, 1, 1, 1, 0, 24, .rw, false, false, 0, 0, 16777215⟩,
  ⟨0x24, 1, 1, 1, 1, 0, 1, .wo, false, false, 0, 0, 1⟩,
  ⟨0x25, 1, 1, 1, 1, 0, 1, .ro, false, false, 0, 0, 1⟩,
  ⟨0x30, 1, 1, 1, 1, 0, 24, .ro, false, false, 0, 0, 16777215⟩,
  ⟨0x31, 1, 1, 1, 1, 0, 24, .ro, false, false, 0, 0, 16777215⟩]
/-- Word map of PAIR. -/
def mapPAIR : List FieldRow := mapPAIR_0

/-- Word map of FLT, part 0 (29 R619). -/
def mapFLT_0 : List FieldRow := [
  ⟨0x10, 1, 1, 1, 1, 0, 8, .rw, true, false, 255, 0, 255⟩,
  ⟨0x11, 1, 1, 1, 1, 0, 6, .rw, false, false, 0, 0, 40⟩,
  ⟨0x12, 1, 1, 1, 1, 0, 2, .ro, false, false, 0, 0, 3⟩,
  ⟨0x12, 1, 1, 1, 1, 2, 2, .ro, false, false, 0, 0, 3⟩,
  ⟨0x12, 1, 1, 1, 1, 4, 6, .ro, false, false, 0, 0, 63⟩,
  ⟨0x12, 1, 1, 1, 1, 10, 4, .ro, false, false, 0, 0, 15⟩,
  ⟨0x13, 1, 1, 1, 1, 0, 24, .ro, false, false, 0, 0, 16777215⟩,
  ⟨0x14, 1, 1, 1, 1, 0, 1, .wo, true, false, 0, 0, 1⟩,
  ⟨0x15, 1, 1, 1, 1, 0, 8, .ro, false, false, 0, 0, 255⟩]
/-- Word map of FLT. -/
def mapFLT : List FieldRow := mapFLT_0

/-- Word map of CNT, part 0 (31 R642). -/
def mapCNT_0 : List FieldRow := [
  ⟨0x10, 1, 1, 1, 1, 0, 12, .cm, false, false, 1, 1, 3600⟩,
  ⟨0x10, 1, 1, 1, 1, 12, 2, .cm, false, false, 2, 0, 2⟩,
  ⟨0x11, 1, 1, 1, 1, 0, 24, .cm, true, false, 0, 0, 16777215⟩,
  ⟨0x12, 1, 1, 1, 1, 0, 24, .cm, true, false, 0, 0, 16777215⟩,
  ⟨0x13, 1, 1, 1, 1, 0, 12, .cm, true, false, 0, 0, 4095⟩,
  ⟨0x14, 1, 1, 1, 1, 0, 8, .cm, false, false, 255, 0, 255⟩,
  ⟨0x40, 64, 1, 1, 1, 0, 6, .cm, false, false, 0, 0, 63⟩,
  ⟨0x40, 64, 1, 1, 1, 6, 12, .cm, false, false, 0, 0, 4095⟩,
  ⟨0x40, 64, 1, 1, 1, 18, 1, .cm, false, false, 0, 0, 1⟩,
  ⟨0x100, 1, 1, 1, 1, 0, 14, .rw, false, false, 0, 0, 16383⟩,
  ⟨0x101, 1, 1, 1, 1, 0, 10, .rw, false, false, 0, 0, 1023⟩,
  ⟨0x110, 1, 1, 1, 1, 0, 6, .rw, false, false, 0, 0, 63⟩,
  ⟨0x110, 1, 1, 1, 1, 6, 12, .rw, false, false, 0, 0, 4095⟩,
  ⟨0x111, 1, 1, 1, 1, 0, 20, .rw, false, false, 0, 0, 1048575⟩,
  ⟨0x112, 1, 1, 1, 1, 0, 1, .wo, true, false, 0, 0, 1⟩,
  ⟨0x112, 1, 1, 1, 1, 1, 1, .wo, true, false, 0, 0, 1⟩,
  ⟨0x113, 1, 1, 1, 1, 0, 24, .ro, false, false, 0, 0, 16777215⟩,
  ⟨0x114, 1, 1, 1, 1, 0, 24, .ro, false, false, 0, 0, 16777215⟩,
  ⟨0x115, 1, 1, 1, 1, 0, 24, .ro, false, false, 0, 0, 16777215⟩,
  ⟨0x116, 1, 1, 1, 1, 0, 3, .ro, false, false, 0, 0, 7⟩,
  ⟨0x120, 1, 1, 1, 1, 0, 24, .cm, true, false, 0, 0, 16777215⟩,
  ⟨0x121, 1, 1, 1, 1, 0, 24, .cm, true, false, 0, 0, 16777215⟩,
  ⟨0x122, 1, 1, 1, 1, 0, 12, .cm, true, false, 0, 0, 4095⟩,
  ⟨0x123, 1, 1, 1, 1, 0, 15, .rw, true, false, 0, 0, 32767⟩,
  ⟨0x123, 1, 1, 1, 1, 16, 4, .rw, true, false, 0, 0, 15⟩,
  ⟨0x124, 1, 1, 1, 1, 0, 24, .rw, true, false, 0, 0, 16777215⟩,
  ⟨0x125, 1, 1, 1, 1, 0, 1, .wo, true, false, 0, 0, 1⟩,
  ⟨0x130, 1, 1, 1, 1, 0, 24, .cm, true, false, 0, 0, 16777215⟩,
  ⟨0x131, 1, 1, 1, 1, 0, 24, .cm, true, false, 0, 0, 16777215⟩,
  ⟨0x132, 1, 1, 1, 1, 0, 11, .cm, true, false, 0, 0, 1024⟩]
/-- Word map of CNT, part 1 (31 R642). -/
def mapCNT_1 : List FieldRow := [
  ⟨0x133, 1, 1, 1, 1, 0, 14, .cm, false, false, 128, 64, 12288⟩,
  ⟨0x134, 1, 1, 1, 1, 0, 8, .cm, false, false, 0, 0, 255⟩,
  ⟨0x135, 1, 1, 1, 1, 0, 24, .cm, false, false, 0, 0, 16777215⟩,
  ⟨0x136, 1, 1, 1, 1, 0, 4, .rw, false, false, 0, 0, 15⟩,
  ⟨0x136, 1, 1, 1, 1, 4, 1, .rw, false, false, 0, 0, 1⟩,
  ⟨0x137, 1, 1, 1, 1, 0, 24, .rw, false, false, 0, 0, 16777215⟩,
  ⟨0x138, 1, 1, 1, 1, 0, 1, .rw, false, false, 0, 0, 1⟩,
  ⟨0x139, 1, 1, 1, 1, 0, 17, .rw, false, false, 0, 0, 131071⟩,
  ⟨0x13a, 1, 1, 1, 1, 0, 1, .wo, true, false, 0, 0, 1⟩,
  ⟨0x13a, 1, 1, 1, 1, 1, 1, .wo, true, false, 0, 0, 1⟩,
  ⟨0x13a, 1, 1, 1, 1, 2, 1, .wo, true, false, 0, 0, 1⟩,
  ⟨0x13b, 1, 1, 1, 1, 0, 2, .ro, false, false, 0, 0, 3⟩,
  ⟨0x13c, 1, 1, 1, 1, 0, 6, .ro, false, true, 0, 0, 63⟩,
  ⟨0x13d, 1, 1, 1, 1, 0, 24, .ro, false, true, 0, 0, 16777215⟩,
  ⟨0x13e, 1, 1, 1, 1, 0, 6, .ro, false, true, 0, 0, 63⟩,
  ⟨0x13f, 1, 1, 1, 1, 0, 24, .ro, false, true, 0, 0, 16777215⟩]
/-- Word map of CNT. -/
def mapCNT : List FieldRow := mapCNT_0 ++ mapCNT_1

/-- Word map of LOG, part 0 (32 R658). -/
def mapLOG_0 : List FieldRow := [
  ⟨0x10, 1, 1, 1, 1, 0, 1, .wo, true, false, 0, 0, 1⟩,
  ⟨0x10, 1, 1, 1, 1, 16, 8, .wo, true, false, 0, 0, 255⟩,
  ⟨0x11, 1, 1, 1, 1, 0, 19, .ro, false, false, 0, 0, 524287⟩,
  ⟨0x11, 1, 1, 1, 1, 19, 1, .ro, false, false, 0, 0, 1⟩,
  ⟨0x12, 1, 1, 1, 1, 0, 24, .ro, false, false, 0, 0, 16777215⟩,
  ⟨0x13, 1, 1, 1, 1, 0, 18, .rw, true, false, 0, 0, 262143⟩,
  ⟨0x20, 2, 16, 1, 1, 0, 18, .rw, false, false, 0, 0, 262143⟩,
  ⟨0x21, 2, 16, 1, 1, 0, 24, .ro, false, false, 0, 0, 16777215⟩,
  ⟨0x22, 2, 16, 1, 1, 0, 24, .ro, false, false, 0, 0, 16777215⟩,
  ⟨0x23, 2, 16, 1, 1, 8, 16, .ro, false, false, 0, 0, 65535⟩,
  ⟨0x23, 2, 16, 1, 1, 0, 8, .ro, false, false, 0, 0, 255⟩,
  ⟨0x24, 2, 16, 1, 1, 0, 24, .ro, false, false, 0, 0, 16777215⟩,
  ⟨0x25, 2, 16, 1, 1, 0, 24, .ro, false, false, 0, 0, 16777215⟩,
  ⟨0x26, 2, 16, 1, 1, 8, 6, .ro, false, false, 0, 0, 63⟩,
  ⟨0x26, 2, 16, 1, 1, 0, 8, .ro, false, false, 0, 0, 255⟩,
  ⟨0x27, 2, 16, 1, 1, 0, 24, .ro, false, false, 0, 0, 16777215⟩,
  ⟨0x28, 2, 16, 1, 1, 0, 24, .ro, false, false, 0, 0, 16777215⟩,
  ⟨0x29, 2, 16, 1, 1, 0, 24, .ro, false, false, 0, 0, 16777215⟩,
  ⟨0x2a, 2, 16, 1, 1, 0, 24, .ro, false, false, 0, 0, 16777215⟩,
  ⟨0x2b, 2, 16, 1, 1, 0, 24, .ro, false, false, 0, 0, 16777215⟩,
  ⟨0x50, 1, 1, 1, 1, 0, 7, .rw, false, false, 0, 0, 97⟩,
  ⟨0x51, 1, 1, 1, 1, 0, 24, .ro, false, false, 0, 0, 16777215⟩,
  ⟨0x52, 1, 1, 1, 1, 0, 24, .ro, false, false, 0, 0, 16777215⟩,
  ⟨0x53, 1, 1, 1, 1, 0, 4, .rw, true, false, 0, 0, 15⟩,
  ⟨0x54, 1, 1, 1, 1, 0, 8, .ro, false, false, 0, 0, 255⟩,
  ⟨0x54, 1, 1, 1, 1, 8, 1, .w1c, true, false, 0, 0, 1⟩,
  ⟨0x55, 1, 1, 1, 1, 0, 4, .ro, false, false, 0, 0, 15⟩,
  ⟨0x60, 1, 1, 1, 1, 0, 7, .rw, false, false, 0, 0, 85⟩,
  ⟨0x61, 1, 1, 1, 1, 0, 24, .ro, false, false, 0, 0, 16777215⟩,
  ⟨0x70, 1, 1, 1, 1, 0, 12, .rw, false, false, 0, 0, 4095⟩]
/-- Word map of LOG, part 1 (32 R658). -/
def mapLOG_1 : List FieldRow := [
  ⟨0x71, 16, 1, 1, 1, 0, 24, .ro, false, false, 0, 0, 16777215⟩,
  ⟨0x81, 1, 1, 1, 1, 0, 12, .rw, true, false, 0, 0, 4095⟩,
  ⟨0x82, 1, 1, 1, 1, 0, 9, .rw, true, false, 0, 0, 511⟩,
  ⟨0x90, 1, 1, 1, 1, 0, 24, .rw, true, false, 0, 0, 16777215⟩,
  ⟨0x91, 1, 1, 1, 1, 0, 24, .rw, true, false, 0, 0, 16777215⟩,
  ⟨0x92, 1, 1, 1, 1, 0, 24, .rw, true, false, 0, 0, 16777215⟩,
  ⟨0x93, 1, 1, 1, 1, 0, 24, .rw, true, false, 0, 0, 16777215⟩,
  ⟨0x94, 1, 1, 1, 1, 0, 24, .rw, true, false, 0, 0, 16777215⟩,
  ⟨0x95, 1, 1, 1, 1, 0, 24, .rw, true, false, 0, 0, 16777215⟩,
  ⟨0x96, 1, 1, 1, 1, 0, 24, .rw, true, false, 0, 0, 16777215⟩,
  ⟨0x97, 1, 1, 1, 1, 0, 24, .rw, true, false, 0, 0, 16777215⟩,
  ⟨0x98, 1, 1, 1, 1, 0, 24, .rw, true, false, 0, 0, 16777215⟩,
  ⟨0x99, 1, 1, 1, 1, 0, 24, .rw, true, false, 0, 0, 16777215⟩,
  ⟨0x9a, 1, 1, 1, 1, 0, 24, .rw, true, false, 0, 0, 16777215⟩,
  ⟨0x9b, 1, 1, 1, 1, 0, 24, .rw, true, false, 0, 0, 16777215⟩,
  ⟨0x9c, 1, 1, 1, 1, 0, 24, .rw, true, false, 0, 0, 16777215⟩,
  ⟨0x9d, 1, 1, 1, 1, 0, 24, .rw, true, false, 0, 0, 16777215⟩,
  ⟨0x9e, 1, 1, 1, 1, 0, 24, .rw, true, false, 0, 0, 16777215⟩,
  ⟨0x9f, 1, 1, 1, 1, 0, 24, .rw, true, false, 0, 0, 16777215⟩,
  ⟨0xa0, 1, 1, 1, 1, 0, 24, .rw, true, false, 0, 0, 16777215⟩,
  ⟨0xa1, 1, 1, 1, 1, 0, 24, .rw, true, false, 0, 0, 16777215⟩,
  ⟨0xa2, 1, 1, 1, 1, 0, 24, .rw, true, false, 0, 0, 16777215⟩,
  ⟨0xa3, 1, 1, 1, 1, 0, 24, .rw, true, false, 0, 0, 16777215⟩,
  ⟨0xa4, 1, 1, 1, 1, 0, 24, .rw, true, false, 0, 0, 16777215⟩,
  ⟨0xa5, 1, 1, 1, 1, 0, 24, .rw, true, false, 0, 0, 16777215⟩,
  ⟨0xa6, 1, 1, 1, 1, 0, 24, .rw, true, false, 0, 0, 16777215⟩,
  ⟨0xa7, 1, 1, 1, 1, 0, 24, .rw, true, false, 0, 0, 16777215⟩,
  ⟨0xa8, 1, 1, 1, 1, 0, 24, .rw, true, false, 0, 0, 16777215⟩,
  ⟨0xa9, 1, 1, 1, 1, 0, 24, .rw, true, false, 0, 0, 16777215⟩,
  ⟨0xaa, 1, 1, 1, 1, 0, 24, .rw, true, false, 0, 0, 16777215⟩]
/-- Word map of LOG, part 2 (32 R658). -/
def mapLOG_2 : List FieldRow := [
  ⟨0xab, 1, 1, 1, 1, 0, 24, .rw, true, false, 0, 0, 16777215⟩,
  ⟨0xac, 1, 1, 1, 1, 0, 24, .rw, true, false, 0, 0, 16777215⟩,
  ⟨0xad, 1, 1, 1, 1, 0, 24, .rw, true, false, 0, 0, 16777215⟩,
  ⟨0xae, 1, 1, 1, 1, 0, 24, .rw, true, false, 0, 0, 16777215⟩,
  ⟨0xaf, 1, 1, 1, 1, 0, 24, .rw, true, false, 0, 0, 16777215⟩,
  ⟨0xb0, 1, 1, 1, 1, 0, 24, .rw, true, false, 0, 0, 16777215⟩,
  ⟨0xb1, 1, 1, 1, 1, 0, 24, .rw, true, false, 0, 0, 16777215⟩,
  ⟨0xb2, 1, 1, 1, 1, 0, 24, .rw, true, false, 0, 0, 16777215⟩,
  ⟨0xb3, 1, 1, 1, 1, 0, 24, .rw, true, false, 0, 0, 16777215⟩,
  ⟨0xb4, 1, 1, 1, 1, 0, 24, .rw, true, false, 0, 0, 16777215⟩,
  ⟨0xb5, 1, 1, 1, 1, 0, 24, .rw, true, false, 0, 0, 16777215⟩,
  ⟨0xb6, 1, 1, 1, 1, 0, 24, .rw, true, false, 0, 0, 16777215⟩,
  ⟨0xb7, 1, 1, 1, 1, 0, 24, .rw, true, false, 0, 0, 16777215⟩,
  ⟨0xb8, 1, 1, 1, 1, 0, 24, .rw, true, false, 0, 0, 16777215⟩,
  ⟨0xb9, 1, 1, 1, 1, 0, 24, .rw, true, false, 0, 0, 16777215⟩,
  ⟨0xba, 1, 1, 1, 1, 0, 24, .rw, true, false, 0, 0, 16777215⟩,
  ⟨0xbb, 1, 1, 1, 1, 0, 24, .rw, true, false, 0, 0, 16777215⟩,
  ⟨0xbc, 1, 1, 1, 1, 0, 24, .rw, true, false, 0, 0, 16777215⟩,
  ⟨0xbd, 1, 1, 1, 1, 0, 24, .rw, true, false, 0, 0, 16777215⟩,
  ⟨0xbe, 1, 1, 1, 1, 0, 24, .rw, true, false, 0, 0, 16777215⟩,
  ⟨0xbf, 1, 1, 1, 1, 0, 24, .rw, true, false, 0, 0, 16777215⟩,
  ⟨0xc0, 1, 1, 1, 1, 0, 24, .rw, true, false, 0, 0, 16777215⟩,
  ⟨0xc1, 1, 1, 1, 1, 0, 24, .rw, true, false, 0, 0, 16777215⟩,
  ⟨0xc2, 1, 1, 1, 1, 0, 24, .rw, true, false, 0, 0, 16777215⟩,
  ⟨0xc3, 1, 1, 1, 1, 0, 24, .rw, true, false, 0, 0, 16777215⟩,
  ⟨0xc4, 1, 1, 1, 1, 0, 24, .rw, true, false, 0, 0, 16777215⟩,
  ⟨0xc5, 1, 1, 1, 1, 0, 24, .rw, true, false, 0, 0, 16777215⟩,
  ⟨0xc6, 1, 1, 1, 1, 0, 24, .rw, true, false, 0, 0, 16777215⟩,
  ⟨0xc7, 1, 1, 1, 1, 0, 24, .rw, true, false, 0, 0, 16777215⟩,
  ⟨0xc8, 1, 1, 1, 1, 0, 24, .rw, true, false, 0, 0, 16777215⟩]
/-- Word map of LOG, part 3 (32 R658). -/
def mapLOG_3 : List FieldRow := [
  ⟨0xc9, 1, 1, 1, 1, 0, 24, .rw, true, false, 0, 0, 16777215⟩,
  ⟨0xca, 1, 1, 1, 1, 0, 24, .rw, true, false, 0, 0, 16777215⟩,
  ⟨0xcb, 1, 1, 1, 1, 0, 24, .rw, true, false, 0, 0, 16777215⟩,
  ⟨0xcc, 1, 1, 1, 1, 0, 24, .rw, true, false, 0, 0, 16777215⟩,
  ⟨0xcd, 1, 1, 1, 1, 0, 24, .rw, true, false, 0, 0, 16777215⟩,
  ⟨0xce, 1, 1, 1, 1, 0, 24, .rw, true, false, 0, 0, 16777215⟩,
  ⟨0xcf, 1, 1, 1, 1, 0, 24, .rw, true, false, 0, 0, 16777215⟩,
  ⟨0xd0, 1, 1, 1, 1, 0, 24, .rw, true, false, 0, 0, 16777215⟩,
  ⟨0xd1, 1, 1, 1, 1, 0, 24, .rw, true, false, 0, 0, 16777215⟩,
  ⟨0xd2, 1, 1, 1, 1, 0, 24, .rw, true, false, 0, 0, 16777215⟩,
  ⟨0xd3, 1, 1, 1, 1, 0, 24, .rw, true, false, 0, 0, 16777215⟩,
  ⟨0xd4, 1, 1, 1, 1, 0, 24, .rw, true, false, 0, 0, 16777215⟩,
  ⟨0xd5, 1, 1, 1, 1, 0, 24, .rw, true, false, 0, 0, 16777215⟩,
  ⟨0xd6, 1, 1, 1, 1, 0, 24, .rw, true, false, 0, 0, 16777215⟩,
  ⟨0xd7, 1, 1, 1, 1, 0, 24, .rw, true, false, 0, 0, 16777215⟩,
  ⟨0xd8, 1, 1, 1, 1, 0, 24, .rw, true, false, 0, 0, 16777215⟩,
  ⟨0xd9, 1, 1, 1, 1, 0, 24, .rw, true, false, 0, 0, 16777215⟩,
  ⟨0xda, 1, 1, 1, 1, 0, 24, .rw, true, false, 0, 0, 16777215⟩,
  ⟨0xdb, 1, 1, 1, 1, 0, 24, .rw, true, false, 0, 0, 16777215⟩,
  ⟨0xdc, 1, 1, 1, 1, 0, 24, .rw, true, false, 0, 0, 16777215⟩,
  ⟨0xdd, 1, 1, 1, 1, 0, 24, .rw, true, false, 0, 0, 16777215⟩,
  ⟨0xde, 1, 1, 1, 1, 0, 24, .rw, true, false, 0, 0, 16777215⟩,
  ⟨0xdf, 1, 1, 1, 1, 0, 24, .rw, true, false, 0, 0, 16777215⟩,
  ⟨0xe0, 1, 1, 1, 1, 0, 24, .rw, true, false, 0, 0, 16777215⟩,
  ⟨0xe1, 1, 1, 1, 1, 0, 24, .rw, true, false, 0, 0, 16777215⟩,
  ⟨0xe2, 1, 1, 1, 1, 0, 24, .rw, true, false, 0, 0, 16777215⟩,
  ⟨0xe3, 1, 1, 1, 1, 0, 24, .rw, true, false, 0, 0, 16777215⟩,
  ⟨0xe4, 1, 1, 1, 1, 0, 24, .rw, true, false, 0, 0, 16777215⟩,
  ⟨0xe5, 1, 1, 1, 1, 0, 24, .rw, true, false, 0, 0, 16777215⟩,
  ⟨0xe6, 1, 1, 1, 1, 0, 2, .wo, true, false, 0, 0, 3⟩]
/-- Word map of LOG, part 4 (32 R658). -/
def mapLOG_4 : List FieldRow := [
  ⟨0xe6, 1, 1, 1, 1, 4, 4, .wo, true, false, 0, 0, 15⟩,
  ⟨0xe6, 1, 1, 1, 1, 16, 8, .wo, true, false, 0, 0, 255⟩,
  ⟨0xe7, 1, 1, 1, 1, 0, 1, .ro, false, true, 0, 0, 1⟩,
  ⟨0xe7, 1, 1, 1, 1, 1, 3, .ro, false, true, 0, 0, 7⟩,
  ⟨0xe8, 1, 1, 1, 1, 0, 16, .ro, false, false, 0, 0, 65535⟩,
  ⟨0xe9, 1, 1, 1, 1, 0, 16, .ro, false, false, 0, 0, 65535⟩]
/-- Word map of LOG. -/
def mapLOG : List FieldRow := mapLOG_0 ++ mapLOG_1 ++ mapLOG_2 ++ mapLOG_3 ++ mapLOG_4

/-- Word map of TST, part 0 (33 R671). -/
def mapTST_0 : List FieldRow := [
  ⟨0x10, 1, 1, 1, 1, 0, 3, .cm, true, false, 0, 0, 7⟩,
  ⟨0x10, 1, 1, 1, 1, 3, 3, .cm, true, false, 0, 0, 7⟩,
  ⟨0x10, 1, 1, 1, 1, 6, 1, .cm, true, false, 0, 0, 1⟩,
  ⟨0x10, 1, 1, 1, 1, 7, 1, .cm, true, false, 0, 0, 1⟩,
  ⟨0x10, 1, 1, 1, 1, 8, 2, .cm, true, false, 0, 0, 3⟩,
  ⟨0x11, 1, 1, 1, 1, 0, 8, .cm, true, false, 0, 0, 255⟩,
  ⟨0x12, 1, 1, 1, 1, 0, 24, .cm, true, false, 0, 0, 16777215⟩,
  ⟨0x13, 1, 1, 1, 1, 0, 24, .cm, true, false, 0, 0, 16777215⟩,
  ⟨0x14, 1, 1, 1, 1, 0, 24, .cm, true, false, 0, 0, 16777215⟩,
  ⟨0x15, 1, 1, 1, 1, 0, 2, .cm, true, false, 0, 0, 3⟩,
  ⟨0x15, 1, 1, 1, 1, 2, 10, .cm, true, false, 0, 0, 1023⟩,
  ⟨0x15, 1, 1, 1, 1, 12, 6, .cm, true, false, 20, 0, 63⟩,
  ⟨0x16, 1, 1, 1, 1, 0, 1, .wo, true, false, 0, 0, 1⟩,
  ⟨0x17, 1, 1, 1, 1, 0, 1, .ro, false, false, 0, 0, 1⟩,
  ⟨0x17, 1, 1, 1, 1, 1, 1, .ro, false, false, 0, 0, 1⟩,
  ⟨0x17, 1, 1, 1, 1, 2, 1, .ro, false, false, 0, 0, 1⟩,
  ⟨0x18, 1, 1, 1, 1, 0, 24, .ro, false, true, 0, 0, 16777215⟩,
  ⟨0x19, 1, 1, 1, 1, 0, 1, .ro, false, false, 0, 0, 1⟩]
/-- Word map of TST. -/
def mapTST : List FieldRow := mapTST_0

/-- The rows of a unit beyond the common block, by its number (R4). -/
def unitMap : Nat → List FieldRow
  | 1 => mapENG
  | 2 => mapPLC
  | 3 => mapHST
  | 4 => mapOPT
  | 5 => mapPON
  | 6 => mapTRIB
  | 7 => mapLANE
  | 8 => mapMAC
  | 9 => mapSBUS
  | 10 => mapMSEC
  | 11 => mapCLS
  | 12 => mapFLOW
  | 13 => mapQM
  | 14 => mapSCH
  | 15 => mapMEM
  | 16 => mapMPE
  | 17 => mapKEY
  | 18 => mapCHK
  | 19 => mapTIME
  | 20 => mapCNDL
  | 21 => mapMEAS
  | 22 => mapPWR
  | 23 => mapPAIR
  | 24 => mapFLT
  | 25 => mapCNT
  | 26 => mapLOG
  | 27 => mapTST
  | _ => []

/-- Instances of a unit (R5, R98 and the unit chapters). -/
def instCount : Nat → Nat
  | 1 => 24
  | 4 => 4
  | 5 => 4
  | 7 => 34
  | 8 => 32
  | 14 => 128
  | 18 => 24
  | 27 => 39
  | 0 => 0
  | u => if u < 0x1c then 1 else 0

end Sys2Proof.Machine
end

