-- ==== Sys2Proof/Machine/State.lean ====
section
/-! DEFINITION. The state of the TG-3204 as plain data, and the state after reset. -/
namespace Sys2Proof.Machine

/-- Why the module stops. No command of this model ends in one: every command of the table has an effect of its own or
leaves the state as it stands. -/
inductive Fault where
  /-- Raised by nothing: the spec names no happening that leaves the module without a next state. Safe. -/
  | none
deriving DecidableEq, Repr

/-- Why a command has no meaning. -/
inductive Refusal where
  /-- Raised by an arm of exec whose command has no meaning yet. Safe: nothing is claimed of such a command. -/
  | notModelled (mnemonic : String)
deriving DecidableEq, Repr

/-- A postmark: TAI seconds, nanoseconds and time generation (R518). -/
structure Mark where
  s : Nat
  n : Nat
  g : Nat
deriving DecidableEq, Repr

/-- A 4-word message (R115). -/
structure Msg where
  sender : Nat
  tag : Nat
  w1 : Nat
  w2 : Nat
  w3 : Nat
deriving DecidableEq, Repr

/-- A place taken in a postbox: the message, whether it is collectable (R108, R159), and for a message of an engine the
serial number of its POST. -/
structure Place where
  msg : Msg
  ready : Bool
  serial : Nat
deriving DecidableEq, Repr

/-- A SET or COMMIT that its unit has not accepted yet (R157). -/
structure Posted where
  commit : Bool
  addr : Nat
  val : Word
  serial : Nat
deriving DecidableEq, Repr

/-- Kinds of far access (R152). -/
inductive FarKind where
  | load (rd : Nat)
  | store
  | blockLoad (near : Nat)
  | blockStore (near : Nat)
deriving DecidableEq, Repr

/-- An outstanding far access: its serial number, kind, byte address, length and, for a single store, its bytes and whether
its pair of R480 has been carried out. -/
structure Far where
  serial : Nat
  kind : FarKind
  addr : Nat
  len : Nat
  data : List Byte
  written : Bool
deriving DecidableEq, Repr

/-- Where the classifier found the IP header and the TCP or UDP header of a frame: offset and IP version (0 none), offset and
protocol (0 none) (R330, R394). -/
structure Hdrs where
  l3 : Nat
  ver : Nat
  l4 : Nat
  proto : Nat
deriving DecidableEq, Repr

/-- A frame on its way through the module, with what the descriptor of R150 says of it, where its headers stand, and
the originals of the bytes its program stored into (R330). The list names the far loads whose seals it waits for (R106); hash
is the low 12 bits of its load-spread hash, which names its upstream bucket (R213). -/
structure Frame where
  bytes : List Byte
  source : Nat
  flow : Nat
  colour : Nat
  queue : Nat
  txsc : Nat
  mark : Mark
  action : Nat
  frag : Bool
  poison : Bool
  fixcs : Bool
  hdr : Hdrs
  orig : Tab (Option Byte)
  waits : List Nat
  hash : Nat
deriving DecidableEq, Repr

/-- The packet window (R102, R148, R150): what the descriptor words say, where the frame's headers stand, the originals
of the bytes stored into (R330), the low 12 bits of the load-spread hash (R213), the bytes that are not zero, the frame's bytes beyond the
window, how many bytes have arrived, and how many of the window's bytes the frame brings (R151). -/
structure Window where
  idle : Bool
  frag : Bool
  poison : Bool
  trunc : Bool
  fixcs : Bool
  len : Nat
  source : Nat
  flow : Nat
  colour : Nat
  queue : Nat
  txsc : Nat
  mark : Mark
  action : Nat
  hdr : Hdrs
  orig : Tab (Option Byte)
  hash : Nat
  buf : Tab Byte
  tail : List Byte
  got : Nat
  full : Nat
deriving DecidableEq, Repr

/-- States of an engine (R120). GATED stands over one of the others: see the field gated of Engine. -/
inductive EState where
  | stopped | running | waiting | draining | failed
deriving DecidableEq, Repr

/-- One engine (R99, R100, R111, R120, R129, R157, R160, R161). pc holds 15 bits: past says that the fetch has run past 0x7FFF (R101), and
step that the engine runs for one instruction alone (R684). -/
structure Engine where
  regs : Tab Word
  pc : Word
  z : Bool
  n : Bool
  c : Bool
  v : Bool
  nr : Bool
  tp : Word
  st : EState
  gated : Bool
  kp : Bool
  tip : Bool
  cause : Nat
  box : List Place
  served : Nat
  watch : Option Nat
  watchL : Bool
  wake : Option (Nat × Nat)
  timeL : Bool
  conds : Nat
  past : Bool
  step : Bool
  posted : List Posted
  far : List Far
  unchecked : List (Nat × Nat)
  get : Option (Nat × Nat)
  out : Option (Nat × Msg × Nat)
  serial : Nat
  count : Nat
  lastPc : Word
  noted : Option (Word × Nat)
  dropped : Nat
  sleeping : Bool
  frames : List Frame
  arrived : Bool
  win : Window
deriving DecidableEq, Repr

/-- An event on its way to LOG (R643): code, parameters, postmark, and whether its fault is classed H (R646). -/
structure Ev where
  code : Nat
  p1 : Nat
  p2 : Nat
  p3 : Nat
  mark : Mark
  hfault : Bool
deriving DecidableEq, Repr

/-- A stored event record (R643). -/
structure Rec where
  seq : Nat
  life : Nat
  sec : Nat
  ns : Nat
  gen : Nat
  supp : Nat
  code : Nat
  p1 : Nat
  p2 : Nat
  p3 : Nat
deriving DecidableEq, Repr

/-- A tag-area operation that runs (R657). -/
structure TagOp where
  op : Nat
  block : Nat
  addr : Nat
  data : List Byte
deriving DecidableEq, Repr

/-- LOG: events offered and not yet taken, the commit buffer, the recorder, the next sequence number and the end of the reserved
ones, what was dropped since the clear, credits, suppressed counts and the tick of each last suppression, the latched records of the
host and of the engine cursor sets, the life journal as it runs and as last committed, ticks of laser light not yet counted, a wrap of
the life counter not yet marked, the tag area, its running operation and the lock that waits for it, and the locks (R643 to R658,
R94). -/
structure LogSt where
  raised : List Ev
  buf : List Rec
  recs : List Rec
  nextSeq : Nat
  reserved : Nat
  drop : Nat
  full : Bool
  credit : Tab Nat
  supp : Tab Nat
  suppAt : Tab Nat
  hostLatch : Option Rec
  engLatch : Tab (Option Rec)
  journal : Tab Nat
  kept : Tab Nat
  laser : Tab Nat
  wrapped : Bool
  tag : Tab Byte
  tagOp : Option TagOp
  tagNext : List TagOp
  lockT : Nat
  lockP : Nat
deriving DecidableEq, Repr

/-- A fault told to FLT and not yet classed: its code and recovery domain, two address parameters for the halt page, and its instant
(R205, R603). -/
structure FaultIn where
  code : Nat
  dom : Nat
  p1 : Nat
  p2 : Nat
  mark : Mark
deriving DecidableEq, Repr

/-- One recovery domain (R604 to R613): the running recovery's code and class (1 L, 2 F), the code whose recovery it is where that has
escalated, the tick at which it began, the latched faults in order of arrival with their class and count, the ticks of the L recoveries
that count toward an escalation, whether the domain is failed, and the code that failed it. -/
structure Dom where
  run : Option (Nat × Nat)
  under : Nat
  since : Nat
  latched : List (Nat × Nat × Nat)
  starts : List Nat
  failed : Bool
  last : Nat
deriving DecidableEq, Repr

/-- FLT: the domains, the first H fault once the module is halted, whether its record is committed (R616), and the faults told to FLT,
oldest first. -/
structure FltSt where
  doms : Tab Dom
  halt : Option FaultIn
  committed : Bool
  raised : List FaultIn
deriving DecidableEq, Repr

/-- A region of the data space (R481, R490). -/
structure Region where
  base : Nat
  limit : Nat
  valid : Bool
  prot : Bool
deriving DecidableEq, Repr

/-- A window of a rights entry (R490). -/
structure Win where
  base : Nat
  limit : Nat
  rd : Bool
  wr : Bool
deriving DecidableEq, Repr

/-- A running re-key (R482): the boundary line's byte address. -/
structure Rekey where
  line : Nat
  old : List Byte
deriving DecidableEq, Repr

/-- MPE and the DRAM data space as its masters see it: bytes, whether the memory keys are drawn, the granules whose being written differs from
allWritten, regions, rights windows (entry * 4 + window), running re-keys, how often each region has been re-keyed, and the memory keys in force:
by region, and at 16 those of the private range, an XTS key pair of 64 bytes and a seal key of 32 (R473 to R491). -/
structure MpeSt where
  dram : Tab Byte
  keys : Bool
  odd : Tab Bool
  allWritten : Bool
  regions : Tab Region
  rights : Tab Win
  rekey : Tab (Option Rekey)
  keyGen : Tab Nat
  memKeys : Tab (List Byte)
deriving DecidableEq, Repr

/-- Instant a scheduled commit is armed for (R177): seconds and nanoseconds. -/
abbrev Instant := Nat × Nat

/-- What every unit instance holds for its common block (R169 to R182): shadows written since the last snapshot and values of the pending
set by word address; by the address of UID the armed instant, whether it is due, the commit time in ns (R323), and the tick at which the
instance began to drain (R181); readiness and sequence of
result words by address; and the host's result slots with their read marks (R180). -/
structure CtlSt where
  staged : Tab (Option Word)
  pend : Tab (Option Word)
  armed : Tab (Option Instant)
  due : Tab Bool
  at_ : Tab Nat
  drainAt : Tab Nat
  ready : Tab Bool
  seq : Tab Nat
  slots : Tab (Option Nat)
  marks : Tab Bool
deriving DecidableEq, Repr

/-- A trigger (R536): START as resolved, the number of the next firing, and whether it runs. -/
structure Trig where
  run : Bool
  s : Nat
  n : Nat
  k : Nat
deriving DecidableEq, Repr

/-- An egress record (R531). -/
structure EgRec where
  mtype : Nat
  domain : Nat
  seq : Nat
  mark : Mark
deriving DecidableEq, Repr

/-- TIME: the counter (R515, R516) with its fraction in units of 2^-40 ns, FADJ in force, what a slew has still to absorb
and the model correction in the same units (R521, R522, R547), the advance in ns since power-on and how much of it credit instants have
used (R647), triggers, character FIFOs with their framing errors, egress rings, what the outputs carry (R533 to R535), since which
tick each reference has been eligible (R526), and the tick of each PPS input's last edge (R528). -/
structure TimeSt where
  sec : Nat
  ns : Nat
  frac : Nat
  gen : Nat
  fadj : Int
  slew : Int
  corr : Int
  adv : Nat
  credited : Nat
  trig : Tab Trig
  tod : Tab (List (Nat × Bool))
  eg : Tab (List EgRec)
  ppsOut : Tab Bool
  todOut : Tab (List Byte)
  freqOut : Tab Nat
  eligAt : Tab (Option Nat)
  ppsAt : Tab Nat
deriving DecidableEq, Repr

/-- CNDL: seconds learned, differences FMEAN - y of the last 24 hours in units of 2^-24 FADJ unit, recent FMEAN values, newest first,
the y of the last second and y0 in the same units, the sum and number of the ticks since the last second, whether the candle has failed,
whether a restart is tried and when it last was, the last comparison, whether the holdover has lost its bound, and the tick of power-on
(R541 to R554). -/
structure CndlSt where
  learn : Nat
  dev : List Int
  fmeans : List Int
  y : Int
  y0 : Int
  fsum : Int
  fn : Nat
  failed : Bool
  trying : Bool
  tryAt : Nat
  cmp : Option Int
  unbound : Bool
  onAt : Nat
deriving DecidableEq, Repr

/-- A frame offered to the capture ring (R639): egress or ingress, ICV failed, poison, source or port, length, postmark, flow,
its bytes, and the flight it follows. -/
structure Offer where
  egress : Bool
  invalid : Bool
  poison : Bool
  source : Nat
  len : Nat
  mark : Mark
  flow : Nat
  bytes : List Byte
  flight : Option Nat
deriving DecidableEq, Repr

/-- CNT: leaves, flags and last dumped values by unit * 2^32 + kind * 2^20 + object; queue groups; the epoch's start, the number of
the next dump, where in the ring it goes, and the running dump as (offset, header, entries) with whether it is late; nodes that the
next switch resets; the sample ring's next record and how many it holds; frames offered to the capture ring, its records as (offset,
length) in 64-byte units, oldest first, where the next goes, and what is left to fill after the trigger (R628 to R642). -/
structure CntSt where
  leaf : Tab Nat
  flag : Tab Nat
  last : Tab Nat
  group : Tab Nat
  start : Mark
  dumpSeq : Nat
  dumpPos : Nat
  dump : Option (Nat × List Byte × List Byte)
  late : Bool
  resets : List Nat
  smpNext : Nat
  smpHeld : Nat
  offers : List Offer
  caps : List (Nat × Nat)
  capPos : Nat
  capLeft : Nat
deriving DecidableEq, Repr

/-- Where start-up stands (R674, R675, R678, R679) and the sleep state S3. -/
inductive Phase where
  | off | rails | crystal | training | handover | running | recovery | noCrystal | asleep
deriving DecidableEq, Repr

/-- A nonvolatile image slot (R94, R507, R676): whether it reads valid, its bytes, and its signer record. -/
structure Slot where
  valid : Bool
  bytes : List Byte
  signer : List Byte
deriving DecidableEq, Repr

/-- What belongs to the module as a whole: where start-up stands and the kind of reset it follows (R672), whether the module is halted, ticks of
1.6 ns so far, free values used, the tick at which the running try of a start-up step began (R581, R675), the feeds in range (R36), the tick at
which the last of them was lost (R57), the stage of R91 that a sag has reached (0 for none), whether the crystal runs and its attempts (R581),
the image slots, what the handover message will say (R677), whether event 0x440_015 is recorded (R679), the alarm outputs that start-up and a
failed wake drive low (R580, R581, R679), MODSTATE RUN (R677), and the last instants of what happens again only after so many ticks. -/
structure SysSt where
  phase : Phase
  kind : Nat
  halted : Bool
  ticks : Nat
  free : Nat
  railAt : Nat
  feedA : Bool
  feedB : Bool
  lostAt : Option Nat
  sag : Nat
  crystal : Bool
  crystalTries : Nat
  slots : Tab Slot
  slotUsed : Nat
  imgVersion : Nat
  otherFail : Nat
  fromHost : Bool
  recorded15 : Bool
  alm0 : Bool
  alm1 : Bool
  runState : Bool
  pace : Tab (Option Nat)
deriving DecidableEq, Repr

/-- One letter chain and its collector (R192 to R194): state code of CHSTAT, STARTH, current letter's bus address, letters
completed, the letter being executed or parked on as its 16 host words, bytes moved, whether a MSG waits for a retry,
whether the letter stands in the letter store, and the tick at which the chain began to drain (R181). -/
structure Chain where
  st : Nat
  start : Nat
  cur : Nat
  letters : Nat
  letter : Option (List Nat)
  done : Nat
  retry : Bool
  inStore : Bool
  drainAt : Nat
deriving DecidableEq, Repr

/-- HST: the endpoint's configuration and its AER uncorrectable error status, chains, host postboxes, the status words the module has written to
letters in host memory (32-bit words by bus address / 4), the letter store (32-bit words), the bytes its WRITE letters have written to the host,
what the last host read of a slot returned, MSI-X state with the table's words (entry * 4 + word) and the last message sent as (address, data), the
halt page and the link (R183 to R208). -/
structure HstSt where
  cfg : PcieCfg
  aer : Nat
  chains : Tab Chain
  boxes : Tab (List Place)
  served : Tab Nat
  bus : Tab Nat
  store : Tab Nat
  mem : Tab Byte
  hostRead : Nat
  msixOn : Bool
  fmask : Bool
  unmasked : Tab Bool
  msixPend : Tab Bool
  table : Tab Nat
  sent : Tab Nat
  msg : Option (Nat × Nat)
  holdoff : Tab Bool
  held : Tab Bool
  page : Tab Nat
  rate : Nat
  width : Nat
deriving DecidableEq, Repr

/-- A key slot (R492); the instant it was written in seconds of the life counter. -/
structure KeySlot where
  key : Nat
  cls : Nat
  len : Nat
  dir : Nat
  exp : Bool
  measured : Bool
  life : Nat
  at_ : Nat
  valid : Bool
  bad : Bool
  badWhy : Nat
  check : Nat
deriving DecidableEq, Repr

/-- A flow record (R416). -/
structure FlowRec where
  valid : Bool
  progen : Bool
  prog : Nat
  polen : Bool
  yact : Bool
  ract : Bool
  queue : Nat
  txsc : Nat
  cir : Nat
  cbs : Nat
  pir : Nat
  pbs : Nat
deriving DecidableEq, Repr

/-- A credit: its value in units of 1/78,125 byte at an instant in ticks of 1.6 ns. In these units a rate of 64 kb/s adds one
unit a tick (R417, R448). -/
structure Credit where
  v : Int
  t : Nat
deriving DecidableEq, Repr

/-- FLOW: records, exact-match keys (profile * 2^320 + masked key), policer credits, and the result that the
running request will give (R414 to R424). -/
structure FlowSt where
  recs : Tab FlowRec
  keys : Tab (Option Nat)
  c : Tab Credit
  p : Tab Credit
  op : Option Nat
deriving DecidableEq, Repr

/-- Where a frame is bound: a scheduler queue, an engine's frame queue, a host queue, or the cut-through of a port (R312,
R425). -/
inductive Dest where
  | none
  | sched (q : Nat)
  | eng (e : Nat)
  | host (n : Nat)
  | fence (k : Nat)
  | cut (port q : Nat)
deriving DecidableEq, Repr

/-- What MSEC still has to say of an ingress frame: nothing, or the ICV under the context of a receive channel, by the number of its install,
with its PN, whether it will be found right, whether it was encrypted, and whether a failure stops the frame (R353 to R356). -/
inductive IcvState where
  | none
  | waits (ctx ch order pn : Nat) (right enc stops : Bool)
deriving DecidableEq, Repr

/-- A frame inside the module before it is committed: its number, what it waits for (0 the search, 1 admission, 2 its last cell), whether all of
it has arrived, the cause for which it has gone bad (0 none, 1 ICV, 2 FCS or MAXLEN, 3 reassembly, 4 ingress lost), its ICV, its destination, its
ingress port if it came from one, its length as received with the FCS, whether the policer has decided it, the traffic class it was counted
under, whether MSEC removed a SecTAG, and the flight it is the mirror copy of (R313, R356, R402, R403, R404, R417, R429, R430, R436). -/
structure Flight where
  id : Nat
  stage : Nat
  frame : Frame
  ended : Bool
  bad : Nat
  icv : IcvState
  dest : Dest
  port : Option Nat
  rxLen : Nat
  decided : Bool
  cls : Nat
  prot : Bool
  of_ : Option Nat
deriving DecidableEq, Repr

/-- A committed frame in a queue: its number of cells, the tick of its commit, and its ingress port and class (R429,
R436). -/
structure QFrame where
  frame : Frame
  cells : Nat
  at_ : Nat
  port : Option Nat
  cls : Nat
deriving DecidableEq, Repr

/-- A scheduler queue: its committed frames, oldest first, the cells of its head segment, the channels that hold its blocks of
8 cells in DRAM, oldest first, and whether it is being rebuilt after an error (R428, R431, R433). -/
structure Queue where
  frames : List QFrame
  headc : Nat
  blocks : List Nat
  rebuild : Bool
deriving DecidableEq, Repr

/-- A queue's record (R440). -/
structure QRec where
  qen : Bool
  maxc : Nat
  yf : Nat
  rf : Nat
  headb : Nat
deriving DecidableEq, Repr

/-- A host queue: frames not yet in the ring, filled entries, the next entry the host reads (R437, R440). -/
structure HostQ where
  wait : List Frame
  filled : Nat
  head : Nat
deriving DecidableEq, Repr

/-- QM: queues, their records, host queues, the channel of each spill group that takes the next block, and the pause requests
asked of the ports (port * 8 + class) (R431, R436, R437, R440). -/
structure QmSt where
  queues : Tab Queue
  recs : Tab QRec
  host : Tab HostQ
  turn : Tab Nat
  asked : Tab Bool
deriving DecidableEq, Repr

/-- A frame that a port node has selected: its bytes as the line will carry them, FCS left off, and how many of them have
left; whether MSEC has settled it; its traffic class; the cause for which it will leave stomped (0 none); and the flight it
follows when it cuts through, with the length it was charged under and the levels (1 service, 2 subscriber, as bits) that it
charged a committed credit of; overrun says that its gate has closed on it (R312, R314, R316, R321, R446, R453). -/
structure Sel where
  frame : Frame
  bytes : List Byte
  off : Nat
  ready : Bool
  cls : Nat
  stomp : Nat
  icv : Bool
  cut : Option Nat
  queue : Nat
  charged : Nat
  comm : Nat
  mark : Mark
  overrun : Bool
deriving DecidableEq, Repr

/-- A gate list in force or waiting: its page, base and cycle in ns, entries, extension window, and for one that waits its
instant T in ns and its N (R320, R323). -/
structure GList where
  page : Nat
  base : Nat
  cyc : Nat
  len : Nat
  ext : Nat
  at_ : Nat
  n : Nat
deriving DecidableEq, Repr

/-- A frame being received: its flight's number, its bytes, whether it is passed on, and whether it is longer than the MAXLEN in effect as it began
(R173, R313). -/
structure RxFrame where
  id : Nat
  bytes : List Byte
  passed : Bool
  big : Bool
deriving DecidableEq, Repr

/-- A MAC: the express and the preemptable selection, which of them is on the line, the express and the preemptable frame
being received, the merge sublayer's hold, verify attempts, the
operating and the waiting gate list, and gate entries by page * 256 + entry as (gates, op, interval). For the outside: the
last frame or fragment that left, FCS or mCRC included, whether its end was stomped, the last PAUSE or PFC sent as (classes, quanta) with its tick,
and verify and respond mPackets sent. By class: the tick at which received pause runs out, and since which tick the class has been held or in
watchdog recovery; and the tick of the last verify mPacket (R315, R316, R320 to R329, R336, R358). -/
structure MacP where
  ex : Option Sel
  pr : Option Sel
  cur : Option Bool
  rxEx : Option RxFrame
  rxPr : Option RxFrame
  hold : Bool
  tries : Nat
  oper : Option GList
  wait : Option GList
  gates : Tab (Nat × Nat × Nat)
  sent : List Byte
  stomped : Bool
  pauseSent : Option (Nat × Nat)
  pauseAt : Nat
  till : Tab Nat
  since : Tab Nat
  verAt : Nat
  verifySent : Nat
  respondSent : Nat
deriving DecidableEq, Repr

/-- A lane's receiver: whether it has adapted, its taps (0 the continuous-time equaliser, 1 to 12 the feed-forward
taps, 13 the decision feedback), the tick of its last update, the tick at which it took its polarity, and its skew in ns as the alignment markers
show it (R297, R299, R303, R304). -/
structure LaneSt where
  adapted : Bool
  taps : Tab Int
  eqAt : Nat
  polAt : Nat
  skew : Nat
deriving DecidableEq, Repr

/-- The transmit PLL of a lane group: the frequency that it had, as a deviation in units of FADJ, when its source last changed, and the tick of that
(R306). -/
structure Pll where
  from_ : Int
  at_ : Nat
deriving DecidableEq, Repr

/-- A transmit channel's record, its current AN and the held switch request as (AN, how, instant, due) (R369, R377, R389). -/
structure TxCh where
  port : Nat
  enable : Bool
  suite : Nat
  conf : Bool
  offset : Nat
  sciinc : Bool
  es : Bool
  scb : Bool
  nosa : Bool
  sci : Nat
  thr : Nat
  cur : Option Nat
  req : Option (Nat × Nat × Instant × Bool)
deriving DecidableEq, Repr

/-- A receive channel's record, and the copies of R362 made since a tick. -/
structure RxCh where
  port : Nat
  valid : Bool
  suite : Nat
  replay : Bool
  nosa : Nat
  agent : Nat
  offset : Nat
  window : Nat
  sci : Nat
  copyAt : Nat
  copies : Nat
deriving DecidableEq, Repr

/-- An installed SA context (R374): direction, channel, AN, slot, the key loaded at install, next PN (for a receive SA one above the highest
verified, R354), the lowest PN at install, SSCI, salt, whether it is unusable, in retention with the tick at which that began, and verified,
whether THRESH and EXHAUSTED have been sent, whether it is resident, its place in the order of installs, the tick after its most recent
verification (R215), whether a mirror record has given its PN (R596), and whether its residency has not been decided since its install (R214). -/
structure Sa where
  tx : Bool
  ch : Nat
  an : Nat
  slot : Nat
  key : Nat
  len : Nat
  pn : Nat
  low : Nat
  ssci : Nat
  salt : Nat
  unusable : Bool
  retain : Bool
  retAt : Nat
  first : Bool
  thresh : Bool
  exh : Bool
  resident : Bool
  order : Nat
  seen : Nat
  mir : Bool
  fresh : Bool
deriving DecidableEq, Repr

/-- MSEC: channels, contexts, held notifications with the tick of the last try and whether one has been dropped since there was room, and
installs so far (R368 to R391). -/
structure MsecSt where
  tx : Tab TxCh
  rx : Tab RxCh
  sa : Tab (Option Sa)
  notes : List Msg
  noteAt : Nat
  dropping : Bool
  order : Nat
deriving DecidableEq, Repr

/-- An associative-memory entry of row i, as each copy holds it (R401). -/
structure ClsRow where
  key : Nat
  mask : Nat
  act : Nat
  valid : Bool
  wide : Bool
deriving DecidableEq, Repr

/-- CLS: the rows of the two copies, the write that copy 1 has still to take as (index, rows), and the indirection entries by
group * 4096 + index (R392, R406, R408). -/
structure ClsSt where
  rows0 : Tab ClsRow
  rows1 : Tab ClsRow
  op : Option (Nat × List ClsRow)
  ind : Tab Nat
deriving DecidableEq, Repr

/-- A node of the scheduling tree: a queue, a subscriber node or a service node (R442, R459). -/
structure Node where
  att : Bool
  parent : Nat
  weight : Nat
  cls : Nat
  cir : Nat
  cbs : Nat
  pir : Nat
  pbs : Nat
deriving DecidableEq, Repr

/-- SCH: queue attachments, subscriber and service nodes, credits (level * 65536 + number; level 0 port nodes, 1 service,
2 subscriber), round-robin deficits and places, the remainder of a fragmented frame of each allocation node, and the tick of
each port node's last sample (R442 to R457). -/
structure SchSt where
  sq : Tab Node
  sb : Tab Node
  sv : Tab Node
  c : Tab Credit
  p : Tab Credit
  deficit : Tab Int
  place : Tab Nat
  rest : Tab (Option Frame)
  sampleAt : Tab Nat
deriving DecidableEq, Repr

/-- A move that runs (R216, R219): the tick at which it began, the tick at which a burst of the source last carried a frame of the object to its
end, and whether a program asked for it. -/
structure Move where
  kind : Nat
  index : Nat
  source : Nat
  target : Nat
  fence : List Frame
  asked : Bool
  at_ : Nat
  endAt : Option Nat
deriving DecidableEq, Repr

/-- PLC: placements named by a move or a switch, each pool's engine for flows not named, buckets, spill groups, resident
contexts, hints (kind * 2^20 + index), running moves, the tick at which each reserved engine was picked, the tick after each object's last
automatic move, each channel's grants of the last 10 ms as (tick, bytes) and the rate it had as it entered O6 (R274), the ticks of the
automatic moves of the last second, the tick at which the last balance epoch ended, and whether this epoch overlaps a level transition or a
forcing (X5) (R209 to R224). -/
structure PlcSt where
  flow : Tab (Option Nat)
  pool : Tab (Option Nat)
  bucket : Tab Nat
  group : Tab Nat
  hints : Tab Nat
  moves : List Move
  picked : Tab (Option Nat)
  moved : Tab Nat
  grants : Tab (List (Nat × Nat))
  rate : Tab Nat
  autos : List Nat
  epochAt : Nat
  still : Bool
deriving DecidableEq, Repr

/-- A grant taken: for an allocation, or none for a ranging reply; its burst profile, its length in bytes, whether it asks for
a buffer report and an upstream PLOAM, its StartTime in periods of 1 / 49.7664 GHz, and the tick of the frame that brought it (R254, R259,
R272). -/
structure Grant where
  alloc : Option Nat
  prof : Nat
  len : Nat
  dbru : Bool
  ploam : Bool
  start : Nat
  at_ : Nat
deriving DecidableEq, Repr

/-- An XGEM payload in a burst as the line carries it: its port-ID and key index, whether it is its frame's last piece, and the piece (R267, R272,
R279). -/
structure Xgem where
  port : Nat
  key : Nat
  last : Bool
  frame : Frame
deriving DecidableEq, Repr

/-- A burst: its grant, its start after the frame in periods of 1 / 49.7664 GHz, the tick at which it opened, its preamble and delimiter and
whether FEC is on, the key index of all of it, the superframe it is ciphered in, the XGEM payloads in it, the bytes of the grant that are still free,
the upstream PLOAM and the buffer report (R259, R267, R268, R272, R273, R279). -/
structure Burst where
  grant : Grant
  start : Nat
  openAt : Nat
  head : List Byte
  fec : Bool
  key : Nat
  super : Nat
  sent : List Xgem
  free : Nat
  ploam : Option (List Byte)
  report : Option Nat
deriving DecidableEq, Repr

/-- A PON channel's framer: PSBd in a row, the activation move that waits for a frame boundary, the tick at which a running O6 hold expires,
upstream PLOAMs queued, grants taken and not yet used, the open burst, the superframe count to capture, fragment chains by port-ID
with the postmark of their first byte, chains that are broken, the serial-number grant that waits for its reply with its delay,
the power level that waits for a burst's end, a lost framer PLL, the count of the superframe that arrives, the serial number and registration
identifier as read at the last entry to O1, and what the wavelength loop has seen since it last began: bursts, ticks of light, and the tick at
which light was last seen (R231, R238, R239, R247, R250 to R275). For the outside: the last burst that ended, the serial-number replies sent and
the serial number in the last of them. -/
structure PonCh where
  seen : Nat
  act : Option Nat
  hold : Option Nat
  ploams : List (List Byte)
  grants : List Grant
  burst : Option Burst
  sfc : Option Nat
  frag : Tab (Option (List Byte × Mark))
  broken : Tab Bool
  snGrant : Option Nat
  level : Option Nat
  pllLost : Bool
  super : Nat
  serial : List Byte
  reg : List Byte
  bursts : Nat
  light : Nat
  lightAt : Nat
  last : Option Burst
  replies : Nat
  said : List Byte
deriving DecidableEq, Repr

/-- A tributary (R281 to R291): the downstream store as 66-bit blocks, the next downstream and upstream sequence numbers, the
causes in force and whether the all-ones action is, the PHY frames with good containers since a cause and what the present one has brought
(containers in sequence, a break, containers without AIS, one with it), the tick of the last container, the upstream store and the containers that
are due upstream, whether the downstream store has reached its target since it last began, and the blocks that have come since the last TRIB frame
boundary (R283, R284, R290). -/
structure Tribu where
  store : List Nat
  seqD : Option Nat
  seqU : Nat
  chan : Bool
  frame : Bool
  source : Bool
  ais : Bool
  goodF : Nat
  goodS : Nat
  gotF : Bool
  badF : Bool
  gotS : Bool
  badS : Bool
  lastAt : Nat
  up : List Nat
  owed : Nat
  run : Bool
  came : Nat
deriving DecidableEq, Repr

/-- What the interchange gives a client port's transmitter (R287, R289, R290): the tributary that feeds it, what it sends before that one's next start
block (0 nothing, 1 all ones, 2 idle blocks), whether a frame is in progress, and what has left in the last 125 µs as runs of (number, block). -/
structure ClientOut where
  source : Option Nat
  lead : Nat
  frame : Bool
  sent : List (Nat × Nat)
deriving DecidableEq, Repr

/-- TRIB: the tributaries, the client outputs, the page swap that is due with the channels it still waits for, the page in force for each channel, and
the last TRIB frame boundary as (seconds, number in the second) (R289). -/
structure TribSt where
  tr : Tab Tribu
  out : Tab ClientOut
  swap : Option Nat
  wait : List Nat
  page : Tab Nat
  last : Option (Nat × Nat)
deriving DecidableEq, Repr

/-- MEM: channels whose last refresh report was above the upper limit (R466), channels whose retraining waits for its turn, the ticks at which
the running notice began and the last pause ended, and for each channel the tick since which every report was at or below 85 °C (R466, R467). -/
structure MemSt where
  hot : Tab Bool
  due : List Nat
  noticeAt : Nat
  pauseEnd : Nat
  cool : Tab (Option Nat)
  trainedAt : Tab Nat
deriving DecidableEq, Repr

/-- KEY: the staged SLKEY words, the accumulators, the running operation as (WHY, SLQ of a QUERY), a GENERATE that waits for the random
source, whether RAND is due a new result, and random values drawn since the last reseed (R492 to R506). -/
structure KeySt where
  sl : Tab Nat
  acc : Tab Nat
  op : Option (Nat × Option Nat)
  waits : Bool
  randDue : Bool
  drawn : Nat
deriving DecidableEq, Repr

/-- A fuse write that runs: the LCGO OP, its H and FLOOR, and the root key it blows (R509, R510). -/
structure FuseOp where
  op : Nat
  h : Nat
  floor : Nat
  key : Nat
deriving DecidableEq, Repr

/-- The fuses: lifecycle as blown and as in force, root keys of the two banks, banks that have failed, key hashes, revocations, the
version floor, the test lock, and the write that runs (R509 to R511). -/
structure FuseSt where
  blown : Nat
  state : Nat
  bank : Tab (Option Nat)
  failed : Tab Bool
  hash : Tab (Option Nat)
  revoked : Tab Bool
  floor : Nat
  lock : Bool
  op : Option FuseOp
deriving DecidableEq, Repr

/-- A CHK operation that runs: the code and length it will report, its tag, the bytes it will write at a shared-memory word, and the
slot it will write as (slot, key) (R498, R499). -/
structure ChkOp where
  code : Nat
  out : Nat
  bytes : List Byte
  tag : List Byte
  slot : Option (Nat × Nat)
deriving DecidableEq, Repr

/-- The output pads held through S3 (R579): the DIO pins that drive and their levels, and by number the level of each PWM, whether each ALM is
pulled low, and the levels of the PPS, frequency and ToD outputs; none for high impedance. -/
structure Pads where
  dio : Nat × Nat
  pwm : Tab (Option Bool)
  alm : Tab Bool
  pps : Tab (Option Bool)
  freq : Tab (Option Bool)
  tod : Tab (Option Bool)
deriving DecidableEq, Repr

/-- PWR: the kind of transition that runs (0 level, 1 sleep entry, 2 wake), whether a voltage request waits for its acknowledgement and
the tick of its last attempt, the level whose voltage the core rail holds (4 for none), a forcing that waits for the running transition as
(TJ, sensor), a wake event that has not been acted on as (source, during entry), whether a wake has failed, and the pads held
(R569 to R584). -/
structure PwrSt where
  run : Option Nat
  volt : Bool
  voltAt : Nat
  rail : Nat
  force : Option (Nat × Nat)
  wake : Option (Nat × Bool)
  failed : Bool
  hold : Option Pads
deriving DecidableEq, Repr

/-- PAIR: heartbeats sent, the last sequence heard on each lane and its tick, the tick at which the partner was first heard, what its heartbeat
said as (ROLE, MATE_FIT, PRIMARY), ticks of the last EN, of entering ACTIVE and of the last reset pulse, records unsent and records last sent
with their sequence, the next record's sequence each way, the last record's tick, whether a resynchronisation runs, messages to the partner,
those last sent, and those from it with the tick of their arrival, and whether the next epoch makes no automatic move (R585 to R602, X17). -/
structure PairSt where
  beats : Nat
  heard : Tab (Option Nat)
  beatAt : Tab Nat
  heardAt : Option Nat
  mate : Option (Nat × Nat × Nat)
  seekAt : Nat
  activeAt : Nat
  pulseAt : Option Nat
  unsent : List MirrorItem
  sent : List (Nat × MirrorItem)
  recOut : Nat
  recIn : Option Nat
  recAt : Nat
  resync : Bool
  out : List Msg
  left : List Msg
  inbox : List (Msg × Nat)
  quiet : Bool
deriving DecidableEq, Repr

/-- MEAS: the firing instant in ns that a mode 2 channel is converting for, and that of its last result, channels whose last calibration slot
found an open circuit, the results in a row that count toward a watcher's trip or release, each PWM's running (period, duty) and whether its
cycle has started it, the apply instants of each cycle as (ns, k), the CYGO bits, levels given to the input pins, whether every output stands at
SAFE, and the junction temperature at each channel's last calibration slot (R556 to R568). -/
structure MeasSt where
  conv : Tab (Option Nat)
  stamp : Tab Nat
  open_ : Tab Bool
  streak : Tab Nat
  pwm : Tab (Option (Nat × Nat))
  joined : Tab Bool
  apply : Tab (List (Nat × Nat))
  go : Nat
  pins : Nat
  safe : Bool
  calTj : Tab Int
deriving DecidableEq, Repr

/-- A frame that SBUS holds: its far address, its bytes as the wire carries them once fetched, whether it is being sent, attempts made,
and the tick at which its back-off ends (R339, R344). -/
structure SbusTx where
  addr : Nat
  len : Nat
  bytes : Option (List Byte)
  sending : Bool
  tries : Nat
  until_ : Option Nat
deriving DecidableEq, Repr

/-- SBUS: the held frame, the tick at which the bus last fell idle, ring entries whose message waits for its postbox as (entry, length)
with the tick of their last try, and for the outside the last frame that left (R337 to R347). -/
structure SbusSt where
  tx : Option SbusTx
  idleAt : Nat
  notes : List (Nat × Nat)
  noteAt : Nat
  sent : List Byte
deriving DecidableEq, Repr

/-- TST: bit errors since each checker's lock, the running injection of each instance (0 none), bits generated since the last that a rate
injection inverted, whether a site-bus test frame has left and not come back; the TAP's instruction code, the values its boundary cells drive
while it holds the pins, and the data register that it has captured (R659 to R671). -/
structure TstSt where
  errs : Tab Nat
  inj : Tab Nat
  acc : Tab Nat
  waits : Bool
  tap : Nat
  drive : Option Nat
  dr : Nat
deriving DecidableEq, Repr

/-- A transfer that a loader has accepted (R124, R125): source, lines, engines, target, destination and accumulator. -/
structure Load where
  src : Nat
  lines : Nat
  emask : Nat
  target : Nat
  off : Nat
  acc : Nat
deriving DecidableEq, Repr

/-- The state of the module. -/
structure State where
  pending : List Instr
  sys : SysSt
  words : Tab Word
  ctl : CtlSt
  engs : Tab Engine
  data : Tab Word
  imem : Tab Word
  shared : Tab Word
  load : Tab (Option Load)
  log : LogSt
  flt : FltSt
  mpe : MpeSt
  time : TimeSt
  cndl : CndlSt
  cnt : CntSt
  hst : HstSt
  slots : Tab KeySlot
  flow : FlowSt
  flights : List Flight
  ovAt : Option Nat
  nextId : Nat
  qm : QmSt
  sch : SchSt
  lane : Tab LaneSt
  pll : Tab Pll
  mac : Tab MacP
  msec : MsecSt
  cls : ClsSt
  plc : PlcSt
  pon : Tab PonCh
  trib : TribSt
  mem : MemSt
  key : KeySt
  fuse : FuseSt
  chk : Tab (Option ChkOp)
  pwr : PwrSt
  pair : PairSt
  meas : MeasSt
  sbus : SbusSt
  tst : TstSt
deriving DecidableEq, Repr

/-! ## The state after reset -/

/-- The key of slot 0 in BLANK: the first 256 bits of the SHA-384 of "TG3204-BLANK-ROOT" and the serial number's 6 bytes (R495, R656). -/
def blankRoot : Nat :=
  numOf ((sha384 ([0x54, 0x47, 0x33, 0x32, 0x30, 0x34, 0x2d, 0x42, 0x4c, 0x41, 0x4e, 0x4b, 0x2d, 0x52, 0x4f, 0x4f, 0x54] ++
    (List.range 6).map fun k => (Config.factoryByte k).toNat)).take 32)

/-- Slot 0 as KEY loads it: DERIVE-ONLY, LEN 1, MEASURED, with EXP 0 and no lifetime (R495). The value of CHECK is free (assumption
log 2). -/
def rootSlot (key check : Nat) : KeySlot :=
  { key := key, cls := 3, len := 1, dir := 0, exp := false, measured := true, life := 0, at_ := 0, valid := true, bad := false, badWhy := 0,
    check := check }

/-- LOG of a module at its first power-on: its LIFEMARK waits in the commit buffer, the power-on is counted, and the first 64
sequence numbers are reserved (R644, R651, R94; assumption log 1). -/
def logReset : LogSt :=
  { raised := [], buf := [⟨1, 0, 0, 0, 0, 0, 0x680010, 0, 0, 0⟩], recs := [], nextSeq := 2, reserved := 65, drop := 0, full := false,
    credit := [], supp := [], suppAt := [], hostLatch := none, engLatch := [], journal := [(96, 1)], kept := [(0, 60), (96, 1)], laser := [],
    wrapped := false, tag := [], tagOp := none, tagNext := [], lockT := 0, lockP := 0 }

/-- The time counter at power-on: zero seconds, generation 0, FADJ zero (R516). -/
def timeReset : TimeSt :=
  { sec := 0, ns := 0, frac := 0, gen := 0, fadj := 0, slew := 0, corr := 0, adv := 0, credited := 0, trig := [], tod := [], eg := [],
    ppsOut := [], todOut := [], freqOut := [], eligAt := [], ppsAt := [] }

/-- CNDL at power-on: nothing learned (R673). -/
def cndlReset : CndlSt :=
  { learn := 0, dev := [], fmeans := [], y := 0, y0 := 0, fsum := 0, fn := 0, failed := false, trying := false, tryAt := 0, cmp := none,
    unbound := false, onAt := 0 }

/-- CNT at reset (R628 to R642). -/
def cntReset : CntSt :=
  { leaf := [], flag := [], last := [], group := [], start := ⟨0, 0, 0⟩, dumpSeq := 0, dumpPos := 0, dump := none, late := false,
    resets := [], smpNext := 0, smpHeld := 0, offers := [], caps := [], capPos := 0, capLeft := 0 }

/-- HST at reset: no link, every chain idle; the configuration registers hold what PCIe Base 5.0 resets them to, and a place of the letter store
that the host has not written reads as zero (R183 to R208; assumption log 77). -/
def hstReset : HstSt :=
  { cfg := ⟨0, 0, 0, 2, false, 0⟩, aer := 0, chains := [], boxes := [], served := [], bus := [], store := [], mem := [], hostRead := 0,
    msixOn := false, fmask := false, unmasked := [],
    msixPend := [], table := [], sent := [], msg := none, holdoff := [], held := [], page := [], rate := 0, width := 0 }

/-- MPE at reset: no memory keys, every granule unwritten (R477). -/
def mpeReset : MpeSt :=
  { dram := [], keys := false, odd := [], allWritten := false, regions := [], rights := [], rekey := [], keyGen := [], memKeys := [] }

/-- The fuses of a module as it is made: BLANK, nothing blown (R509, R511). -/
def fuseReset : FuseSt :=
  { blown := 0, state := 0, bank := [], failed := [], hash := [], revoked := [], floor := 0, lock := false, op := none }

/-- PWR at reset: S0 at P0, nothing running (R584, R677). -/
def pwrReset : PwrSt :=
  { run := none, volt := false, voltAt := 0, rail := 0, force := none, wake := none, failed := false, hold := none }

/-- PAIR at reset: off (R602). -/
def pairReset : PairSt :=
  { beats := 0, heard := [], beatAt := [], heardAt := none, mate := none, seekAt := 0, activeAt := 0, pulseAt := none, unsent := [],
    sent := [], recOut := 0, recIn := none, recAt := 0, resync := false, out := [], left := [], inbox := [], quiet := false }

/-- MEAS at reset: every output off (R25, R568). -/
def measReset : MeasSt :=
  { conv := [], stamp := [], open_ := [], streak := [], pwm := [], joined := [], apply := [], go := 0, pins := 0, safe := false, calTj := [] }

/-- The test access port at power-on holds IDCODE (R668). -/
def tapCode : Nat := 2 ^ 28 + 0x3204 * 2 ^ 12 + Config.manufacturerId.toNat * 2 + 1

/-- The module at step 2 of its first start-up after power-on (R672 to R674, R677): E0 runs boot ROM at keeper level, LIFEMARK is
written, slot 0 is loaded, every unit word holds its reset value, time is zero, and the crystal is awaited. What a module brings with it from
its making, and the values the spec leaves open, are assumption log 1. -/
def State.reset : State :=
  { pending := []
    sys := { phase := .crystal, kind := 1, halted := false, ticks := 0, free := 2, railAt := 0, feedA := true, feedB := true,
             lostAt := none, sag := 0, crystal := false,
             crystalTries := 0, slots := [], slotUsed := 0, imgVersion := 0, otherFail := 0, fromHost := false, recorded15 := false,
             alm0 := false, alm1 := false, runState := false, pace := [] }
    words := []
    ctl := { staged := [], pend := [], armed := [], due := [], at_ := [], drainAt := [], ready := [], seq := [], slots := [], marks := [] }
    engs := [], data := [], imem := [], shared := [], load := []
    log := logReset
    flt := { doms := [], halt := none, committed := false, raised := [] }
    mpe := mpeReset
    time := timeReset
    cndl := cndlReset
    cnt := cntReset
    hst := hstReset
    slots := [(0, rootSlot blankRoot ((Config.freeWord 0).toNat + 2 ^ 24 * ((Config.freeWord 1).toNat % 256)))]
    flow := { recs := [], keys := [], c := [], p := [], op := none }
    flights := [], ovAt := none, nextId := 1
    qm := { queues := [], recs := [], host := [], turn := [], asked := [] }
    sch := { sq := [], sb := [], sv := [], c := [], p := [], deficit := [], place := [], rest := [], sampleAt := [] }
    lane := [], pll := [], mac := []
    msec := { tx := [], rx := [], sa := [], notes := [], noteAt := 0, dropping := false, order := 0 }
    cls := { rows0 := [], rows1 := [], op := none, ind := [] }
    plc := { flow := [], pool := [], bucket := [], group := [], hints := [], moves := [], picked := [], moved := [],
             grants := [], rate := [], autos := [], epochAt := 0, still := false }
    pon := []
    trib := { tr := [], out := [], swap := none, wait := [], page := [], last := none }
    mem := { hot := [], due := [], noticeAt := 0, pauseEnd := 0, cool := [], trainedAt := [] }
    key := { sl := [], acc := [], op := none, waits := false, randDue := false, drawn := 0 }
    fuse := fuseReset
    chk := []
    pwr := pwrReset
    pair := pairReset
    meas := measReset
    sbus := { tx := none, idleAt := 0, notes := [], noteAt := 0, sent := [] }
    tst := { errs := [], inj := [], acc := [], waits := false, tap := 2, drive := none, dr := tapCode } }

end Sys2Proof.Machine
end

