-- ==== Sys2Proof/Machine/Ops.lean ====
section
/-! DEFINITION. The named operations over unit words, events, counters, messages, engines and memory that every meaning
is built from. -/
namespace Sys2Proof.Machine

/-- What a command's meaning answers. -/
abbrev Out := Host.Outcome State Fault Refusal

/-! ## Free values -/

/-- The next free value of up to 24 bits and the state that has used it up (assumption log 2). -/
def takeFree (s : State) : Nat × State :=
  ((Config.freeWord s.sys.free).toNat, { s with sys := { s.sys with free := s.sys.free + 1 } })

/-- The next free yes or no and the state that has used it up (assumption log 2). -/
def takeBool (s : State) : Bool × State :=
  (Config.freeBool s.sys.free, { s with sys := { s.sys with free := s.sys.free + 1 } })

/-- The next n bytes of the random source and the state that has used them up (R505, assumption log 3). -/
def takeRandom (n : Nat) (s : State) : List Byte × State :=
  ((List.range n).map fun k => Config.randomByte (s.sys.free + k),
    { s with sys := { s.sys with free := s.sys.free + n }, key := { s.key with drawn := s.key.drawn + 1 } })

/-! ## Time -/

/-- What happens again only after so many ticks, or waits for so many, by the number its last instant is kept under (R94, R199, R203, R466, R472,
R505, R529, R532, R542 to R544, R559, R560, R563, R590, R593, R632, R665, R671). -/
def paceRefresh : Nat := 1
def paceSyncE : Nat := 2
def paceOven : Nat := 3
def paceBandwidth : Nat := 4
def paceModel : Nat := 5
def paceCompare : Nat := 6
def paceReseed : Nat := 7
def paceTod (j : Nat) : Nat := 8 + j
def pacePwm (k : Nat) : Nat := 16 + k
def paceTestFrame : Nat := 24
def paceTerr (j : Nat) : Nat := 96 + j
def paceIrq (v : Nat) : Nat := 160 + v
def paceRetry (n : Nat) : Nat := 192 + n
def paceFull (n : Nat) : Nat := 200 + n
def paceConv (c : Nat) : Nat := 32 + c
def paceBeat : Nat := 12
def paceEpoch : Nat := 14
def paceBuffer : Nat := 15
def paceMessage : Nat := 13
def paceCal (c : Nat) : Nat := 64 + c

/-- Whether n ticks have passed since the instant kept under number k, or none is kept. -/
def paced (s : State) (k n : Nat) : Bool :=
  match tget (fun _ => none) s.sys.pace k with
  | some t => decide (t + n ≤ s.sys.ticks)
  | none => true

/-- This instant kept under number k. -/
def setPace (s : State) (k : Nat) : State := { s with sys := { s.sys with pace := tset (fun _ => none) s.sys.pace k (some s.sys.ticks) } }

/-- The postmark of this instant (R518). -/
def now (s : State) : Mark := ⟨s.time.sec, s.time.ns, s.time.gen⟩

/-- The postmark of an instant so many ns from now, before it where the number is negative (R331). -/
def markIn (s : State) (d : Int) : Mark :=
  let t := ((s.time.sec * 1000000000 + s.time.ns : Nat) + d).toNat
  ⟨t / 1000000000, t % 1000000000, s.time.gen⟩

/-! ## Unit words -/

/-- EN at reset (R181). -/
def enReset (u : Nat) : Nat :=
  if [1, 2, 3, 0xf, 0x10, 0x11, 0x12, 0x13, 0x14, 0x16, 0x18, 0x19, 0x1a].contains u then 1 else 0

/-- Units that have no disable (R181). -/
def noDisable (u : Nat) : Bool := [1, 0xf, 0x10, 0x13, 0x14, 0x16, 0x18, 0x1a].contains u

/-- The rows of a unit's map that stand at word w. -/
def rowsAt (u w : Nat) : List FieldRow :=
  (if w < 16 then mapCOMMON else unitMap u).filter fun r => r.covers w

/-- Reset values that the word maps give in words, not in numbers: E0's RUN (R119), the slots of OPT (R227), the response time of a
PON instance (R279), and region 0 and entry 0 of MPE (R490). -/
def resetSpecial (u i w : Nat) : Option Nat :=
  if u = 1 ∧ i = 0 ∧ w = 0x100 then some 1
  else if u = 4 ∧ w = 0x10 then some ((i + 2) % 8 + ((i + 3) % 8) * 16 + 256)
  else if u = 5 ∧ w = 0x15 then some (Config.ponResponse i % 2 ^ 24)
  else if u = 0x10 ∧ w = 0x12 then some 0x3dffff
  else if u = 0x10 ∧ w = 0x21 then some 0x600000
  else if u = 0x10 ∧ w = 0x22 then some 0x1dffff
  else none

/-- The reset value of a unit word (R11, R169, R181 and the word maps). -/
def resetWord (a : Nat) : Word :=
  let u := uUnit a
  let w := uWord a
  if w = 0 then wd (u * 262144 + uInst a * 1024 + Config.unitRev u % 1024)
  else if w = 1 then wd (enReset u)
  else if w = 2 then 0
  else match resetSpecial u (uInst a) w with
    | some n => wd n
    | none => wd ((rowsAt u w).foldl (fun n r => n + r.reset * 2 ^ r.lo) 0)

/-- The value a unit word holds. -/
def rdW (s : State) (a : Nat) : Word := tget resetWord s.words a

/-- A unit word given a value. -/
def wrW (s : State) (a : Nat) (v : Word) : State := { s with words := tset resetWord s.words a v }

/-- STATE of instance i of unit u: 0 IDLE, 1 ACTIVE, 2 DRAINING, 3 FAILED (R169). STATE resets to 0, and an instance whose EN is 1 does not
stay IDLE: from reset on it reads ACTIVE (assumption log 6, DEDUCED). -/
def ustat (s : State) (u i : Nat) : Nat :=
  let st := bitsOf (rdW s (uaddr u i 2)).toNat 0 2
  if st = 0 then bitsOf (rdW s (uaddr u i 1)).toNat 0 1 else st

/-- Whether instance i of unit u is ACTIVE: it admits work (R169, R181). -/
def active (s : State) (u i : Nat) : Bool := ustat s u i == 1

/-- The address of a named field's word in instance i, off words on. -/
def fAddr (f : Fld) (i off : Nat) : Nat := uaddr f.unit i (f.word + off)

/-- A named field of instance i, off words on. -/
def rdF (s : State) (f : Fld) (i : Nat := 0) (off : Nat := 0) : Nat :=
  bitsOf (rdW s (fAddr f i off)).toNat f.lo f.w

/-- A named field of instance i, off words on, given a value. -/
def wrF (s : State) (f : Fld) (v : Nat) (i : Nat := 0) (off : Nat := 0) : State :=
  wrW s (fAddr f i off) (wd (putBits (rdW s (fAddr f i off)).toNat f.lo f.w v))

/-- Whether a one-bit field is 1. -/
def onF (s : State) (f : Fld) (i : Nat := 0) (off : Nat := 0) : Bool := rdF s f i off == 1

/-- A field of the common block (R169) of instance i of unit u. -/
def rdC (s : State) (f : Fld) (u i : Nat) : Nat := bitsOf (rdW s (uaddr u i f.word)).toNat f.lo f.w

/-- A field of the common block of instance i of unit u given a value. -/
def wrC (s : State) (f : Fld) (u i v : Nat) : State :=
  wrW s (uaddr u i f.word) (wd (putBits (rdW s (uaddr u i f.word)).toNat f.lo f.w v))

/-- Whether a word exists (R156): the common block of every instance, and the words the unit's chapter lists. LANE's group
words stand in the first lane of a group only (R310), TST's ownership word in instance 0 only (R671). -/
def wordExists (a : Nat) : Bool :=
  let u := uUnit a
  let i := uInst a
  let w := uWord a
  a < 2 ^ 24 && i < instCount u &&
    (w < 16 || ((unitMap u).any (fun r => r.covers w) &&
      !(u == 7 && (w == 0x20 || w == 0x21) && (i % 4 != 0 || i ≥ 32)) && !(u == 0x1b && w == 0x19 && i != 0)))

/-- Whether the word's chapter marks it keeper, some field of it at least (R156). -/
def wordKeeper (a : Nat) : Bool := (rowsAt (uUnit a) (uWord a)).any fun r => r.keeper

/-- Whether the word is a result word (R179). -/
def wordResult (a : Nat) : Bool := (rowsAt (uUnit a) (uWord a)).any fun r => r.result

/-- Whether the word is shadowed (R172). -/
def wordCM (a : Nat) : Bool := (rowsAt (uUnit a) (uWord a)).any fun r => r.acc == .cm

/-- Whether a result word is ready (R179). -/
def isReady (s : State) (a : Nat) : Bool := tget (fun _ => false) s.ctl.ready a

/-- Read marks of the slots mapped to address a cleared (R180). -/
def clearMarks (c : CtlSt) (a : Nat) : CtlSt :=
  { c with marks := (c.slots.filter fun p => p.2 == some a).foldl (fun m p => tset (fun _ => false) m p.1 false) c.marks }

/-- Whether a pending set may apply: there is one, and no instant is awaited. -/
def commitDue (s : State) (u n : Nat) : Bool :=
  rdC s fCOMMON_USTAT_CMPEND u n == 1 &&
    ((tget (fun _ => none) s.ctl.armed (uaddr u n 0)).isNone || tget (fun _ => false) s.ctl.due (uaddr u n 0))

/-- A result written to a result word: it is ready, its sequence advances, and the host's next read is its first
(R179, R180). -/
def setResult (s : State) (a : Nat) (v : Nat) : State :=
  let s := wrW s a (wd v)
  { s with ctl := clearMarks { s.ctl with
      ready := tset (fun _ => false) s.ctl.ready a true
      seq := tset (fun _ => 0) s.ctl.seq a ((tget (fun _ => 0) s.ctl.seq a + 1) % 64) } a }

/-- A result given to the whole word of a named field. -/
def result (s : State) (f : Fld) (v : Nat) (i : Nat := 0) (off : Nat := 0) : State := setResult s (fAddr f i off) v

/-! ## Events, counters, faults -/

/-- An event offered to LOG with this instant's postmark (R643). -/
def emitM (s : State) (code p1 p2 p3 : Nat) (m : Mark) (h : Bool := false) : State :=
  { s with log := { s.log with raised := s.log.raised ++
      [⟨code % 2 ^ 24, p1 % 2 ^ 24, p2 % 2 ^ 24, p3 % 2 ^ 24, m, h⟩] } }

/-- An event offered to LOG (R643). -/
def emit (s : State) (code p1 p2 p3 : Nat) : State := emitM s code p1 p2 p3 (now s)

/-- An event of which the spec names two parameters; the third is a free value (assumption log 8). -/
def emit2 (s : State) (code p1 p2 : Nat) : State :=
  let c := takeFree s
  emit c.2 code p1 p2 c.1

/-- An event of which the spec names one parameter; the others are free values (assumption log 8). -/
def emit1 (s : State) (code p1 : Nat) : State :=
  let b := takeFree s
  emit2 b.2 code p1 b.1

/-- An event of which the spec names no parameter; all three are free values (assumption log 8). -/
def emit0 (s : State) (code : Nat) : State :=
  let a := takeFree s
  emit1 a.2 code a.1

/-- A counter's key (R629). -/
def leafKey (unit kind obj : Nat) : Nat := unit * 2 ^ 32 + kind * 2 ^ 20 + obj

/-- The aggregate's object number (R629). -/
def aggObj : Nat := 0xfffff

/-- A counter of the tree (R628, R629). -/
def leaf (s : State) (unit kind obj : Nat) : Nat := tget (fun _ => 0) s.cnt.leaf (leafKey unit kind obj)

/-- n added to a leaf and to its kind's aggregate; the tree does not count during a halt (R628, R629, R641). A leaf never
wraps: 72 bits hold it. -/
def count (s : State) (unit kind obj : Nat) (n : Nat := 1) : State :=
  if s.sys.halted then s
  else { s with cnt := { s.cnt with
      leaf := tset (fun _ => 0) (tset (fun _ => 0) s.cnt.leaf (leafKey unit kind obj) (leaf s unit kind obj + n))
        (leafKey unit kind aggObj) (leaf s unit kind aggObj + n) } }

/-- A fault told to FLT, which has not classed it yet (R603): its code, its recovery domain (63 for none), and an address for the halt
page. -/
def raiseFaultAt (s : State) (code dom p1 p2 : Nat) : State :=
  { s with flt := { s.flt with raised := s.flt.raised ++ [⟨code, dom, p1, p2, now s⟩] } }

/-- A seal that fails: the module halts on it (R106, R479); FLT classes it. -/
def sealFault (s : State) (code a master : Nat) : State :=
  raiseFaultAt (emitM s code (a / 2 ^ 24) (a % 2 ^ 24) master (now s) true) code 63 (a / 2 ^ 24) (a % 2 ^ 24)

/-- A fault told to FLT that has no address. -/
def raiseFault (s : State) (code dom : Nat) : State := raiseFaultAt s code dom 0 0

/-- A recovery domain with nothing running (R604). -/
def domReset : Dom := { run := none, under := 0, since := 0, latched := [], starts := [], failed := false, last := 0 }

/-- Recovery domain d. -/
def dom (s : State) (d : Nat) : Dom := tget (fun _ => domReset) s.flt.doms d

/-- Recovery domain d replaced. -/
def setDom (s : State) (d : Nat) (x : Dom) : State := { s with flt := { s.flt with doms := tset (fun _ => domReset) s.flt.doms d x } }

/-- Whether R615 classes a fault H: the junction limit, the seal failures, and a random-source failure that comes before the memory keys,
which has no domain. -/
def isHalt (f : FaultIn) : Bool :=
  [0x580022, 0x400010, 0x400011, 0x400012].contains f.code || (f.code == 0x440011 && f.dom == 63)

/-! ## Engines -/

/-- The idle item (R150). -/
def idleWin : Window :=
  { idle := true, frag := false, poison := false, trunc := false, fixcs := false, len := 0, source := 0, flow := 0,
    colour := 0, queue := 0, txsc := 0, mark := ⟨0, 0, 0⟩, action := 0, hdr := ⟨0, 0, 0, 0⟩, orig := [], hash := 0, buf := [], tail := [],
    got := 0, full := 0 }

/-- An engine at reset (R99, R100, R111, R120): E0 runs, every other engine is stopped, all at keeper level. -/
def engReset (e : Nat) : Engine :=
  { regs := [], pc := 0, z := false, n := false, c := false, v := false, nr := false, tp := 0,
    st := if e = 0 then .running else .stopped, gated := false, kp := true, tip := false, cause := 0, box := [],
    served := 0, watch := none, watchL := false, wake := none, timeL := false, conds := 0, past := false, step := false, posted := [], far := [],
    unchecked := [], get := none, out := none, serial := 0, count := 0, lastPc := 0, noted := none, dropped := 0,
    sleeping := false, frames := [], arrived := false, win := idleWin }

/-- Engine e. -/
def eng (s : State) (e : Nat) : Engine := tget engReset s.engs e

/-- Engine e replaced. -/
def setEng (s : State) (e : Nat) (g : Engine) : State := { s with engs := tset engReset s.engs e g }

/-- A general register; g0 reads as zero (R99). -/
def reg (g : Engine) (r : Nat) : Word := if r = 0 then 0 else tget (fun _ => 0) g.regs r

/-- A general register written; g0 discards the write (R99). -/
def setReg (g : Engine) (r : Nat) (v : Word) : Engine :=
  if r = 0 then g else { g with regs := tset (fun _ => 0) g.regs r v }

/-- PK: the postbox holds a collectable message (R100, R118, R159). -/
def pk (g : Engine) : Bool := g.box.any fun p => p.ready

/-- fl as a word (R100). -/
def flWord (g : Engine) : Nat :=
  b2n g.z + 2 * b2n g.n + 4 * b2n g.c + 8 * b2n g.v + 16 * b2n g.nr + 32 * b2n (pk g)

/-- Z, N, C, V and NR taken from the low bits of a word; PK is not written (R166). -/
def setFl (g : Engine) (w : Nat) : Engine :=
  { g with z := bitOf w 0, n := bitOf w 1, c := bitOf w 2, v := bitOf w 3, nr := bitOf w 4 }

/-- Whether programs run at all: power is on, the module is neither in S3 nor halted, and no H fault waits for FLT (R128, R610, R617,
R674). -/
def live (s : State) : Bool :=
  !s.sys.halted && !s.flt.raised.any isHalt && !(s.sys.phase == .off || s.sys.phase == .rails || s.sys.phase == .asleep)

/-- MEM runs: its channels are trained, the crystal clocks its PHYs, and the module is not in S3; a halt leaves it running (R85, R471). -/
def memRuns (s : State) : Bool :=
  s.mpe.keys && s.sys.crystal && !(s.sys.phase == .off || s.sys.phase == .rails || s.sys.phase == .asleep)

/-- Whether engine e executes instructions now: RUNNING, not gated, no answer or grant awaited, not asleep. -/
def able (s : State) (e : Nat) : Bool :=
  live s && (eng s e).st == .running && !(eng s e).gated && (eng s e).get.isNone && (eng s e).out.isNone

/-- Offset of engine e's block of control words (R119). -/
def engOff (e : Nat) : Nat := 0x20 * (e % 8)

/-- SAMPLE of engine e's ECTL (R119). -/
def sampling (s : State) (e : Nat) : Bool := onF s fENG_ECTL_SAMPLE (e / 8) (engOff e)

/-- The lantern of engine e (R98). -/
def lanternOf (e : Nat) : Nat := e / 8

/-- Own data memory word a of engine e (R102). -/
def dataW (s : State) (e a : Nat) : Word := tget (fun _ => 0) s.data (e * 32768 + a)

/-- Own data memory word a of engine e written. -/
def setData (s : State) (e a : Nat) (v : Word) : State :=
  { s with data := tset (fun _ => 0) s.data (e * 32768 + a) v }

/-- Instruction memory word a of engine e (R102). -/
def imemW (s : State) (e a : Nat) : Word := tget (fun _ => 0) s.imem (e * 32768 + a)

/-- Instruction memory word a of engine e written; only a loader does (R102, R125). -/
def setImem (s : State) (e a : Nat) (v : Word) : State :=
  { s with imem := tset (fun _ => 0) s.imem (e * 32768 + a) v }

/-- Word a, from 0, of lantern l's shared memory (R97, R102). -/
def sharedW (s : State) (l a : Nat) : Word := tget (fun _ => 0) s.shared (l * 524288 + a)

/-- The engines of lantern l whose watch stands on shared word a have their latch set (R160). -/
def watchHit (s : State) (l a : Nat) : State :=
  (List.range 8).foldl (fun s k =>
    if (eng s (8 * l + k)).watch = some a then setEng s (8 * l + k) { eng s (8 * l + k) with watchL := true } else s) s

/-- Word a, from 0, of lantern l's shared memory written, watches included (R102, R160). -/
def setShared (s : State) (l a : Nat) (v : Word) : State :=
  watchHit { s with shared := tset (fun _ => 0) s.shared (l * 524288 + a) v } l a

/-- The pc, level and record of a trap of cause c with its two details, written by the engine (R111, R113). The saved pc
is that of the trapping instruction, or of the next one for a sample trap. -/
def enterTrap (s : State) (e c : Nat) (d1 d2 : Nat) (skid : Nat) (drops : Nat) : State :=
  let g := eng s e
  let s := setData s e 0x7ff8 g.pc
  let s := setData s e 0x7ff9 (wd (flWord g))
  let s := setData s e 0x7ffa (wd (c + 32 * b2n g.kp + 256 * skid))
  let s := setData s e 0x7ffb (wd d1)
  let s := setData s e 0x7ffc (wd d2)
  let s := setData s e 0x7ffd (wd drops)
  setEng s e { g with pc := wd ((g.tp.toNat + 4 * c) % 32768), kp := true, tip := true, cause := c, st := .running, conds := 0, past := false }

/-! ## Messages -/

/-- Whether a postbox number is assigned (R116). -/
def boxOk (d : Nat) : Bool := d < 0xc0 || (0xf0 ≤ d && d < 0xf8)

/-- What a postbox holds (R116, R202). -/
def boxOf (s : State) (d : Nat) : List Place :=
  if d < 0xc0 then (eng s d).box else tget (fun _ => []) s.hst.boxes (d - 0xf0)

/-- A postbox's content replaced. -/
def setBox (s : State) (d : Nat) (l : List Place) : State :=
  if d < 0xc0 then setEng s d { eng s d with box := l }
  else { s with hst := { s.hst with boxes := tset (fun _ => []) s.hst.boxes (d - 0xf0) l } }

/-- Whether a message is refused: no room, or a gated engine (R116). -/
def boxFull (s : State) (d : Nat) : Bool :=
  16 ≤ (boxOf s d).length || (d < 0xc0 && (eng s d).gated)

/-- An MSI-X vector signalled: held back while its holdoff runs, pending while masked, else sent as its entry's address and data (R203, R205).
With the link down it counts as sent, and the host never sees it (assumption log 76, DESIGN CHOICE). A function in D3hot sends nothing (assumption
log 77, PRESUMED). -/
def signal (s : State) (v : Nat) : State :=
  let h := s.hst
  let w := fun k => tget (fun _ => 0) h.table (4 * v + k)
  if !h.msixOn || h.cfg.d3hot then s
  else if h.fmask || !tget (fun _ => false) h.unmasked v then
    { s with hst := { h with msixPend := tset (fun _ => false) h.msixPend v true } }
  else if tget (fun _ => false) h.holdoff v then
    { s with hst := { h with held := tset (fun _ => false) h.held v true } }
  else { setPace s (paceIrq v) with hst := { h with
      sent := tset (fun _ => 0) h.sent v (tget (fun _ => 0) h.sent v + 1)
      msg := some (w 1 * 2 ^ 32 + w 0, w 2)
      holdoff := tset (fun _ => false) h.holdoff v (rdF s fHST_IRQHOLD_US != 0) } }

/-- Messages of postbox d that can be collected (R118, R159, R202). -/
def ready (s : State) (d : Nat) : Nat := ((boxOf s d).filter fun p => p.ready).length

/-- A sender's place in the arbiter's turn: engines, chains, loader and ROM, then the units that post (R117). -/
def sourceIx (sender : Nat) : Nat :=
  if sender < 192 then sender
  else if 0xf0 ≤ sender ∧ sender < 0xf8 then sender - 48
  else if sender = 0xff then 200
  else 201 + (([0xc9, 0xca, 0xd3, 0xd5, 0xd7, 0xd8, 0xd9].findIdx? fun x => x == sender).getD 0)

/-- The arbiter of postbox d notes the source it granted last (R117). -/
def setServed (s : State) (d ix : Nat) : State :=
  if d < 0xc0 then setEng s d { eng s d with served := ix }
  else { s with hst := { s.hst with served := tset (fun _ => 0) s.hst.served (d - 0xf0) ix } }

/-- The source that the arbiter of postbox d granted last (R117). -/
def servedOf (s : State) (d : Nat) : Nat :=
  if d < 0xc0 then (eng s d).served else tget (fun _ => 0) s.hst.served (d - 0xf0)

/-- A place put at the end of a postbox; a host postbox whose count leaves 0 signals its vector (R203). -/
def putPlace (s : State) (d : Nat) (p : Place) : State :=
  let s' := setBox s d (boxOf s d ++ [p])
  if 0xf0 ≤ d ∧ ready s d = 0 ∧ 0 < ready s' d then signal s' (8 + (d - 0xf0)) else s'

/-- Counter kind of ENG: messages refused by a postbox (R116). -/
def kEngRefused : Nat := 1

/-- A unit's, a chain's or the ROM's message posted: collectable at once, or refused and counted (R116, R117). The Bool says
whether it was accepted. -/
def post (s : State) (d : Nat) (m : Msg) : State × Bool :=
  if !boxOk d then (s, false)
  else if boxFull s d then (count s 1 kEngRefused d, false)
  else (setServed (putPlace s d ⟨m, true, 0⟩) d (sourceIx m.sender), true)

/-! ## SETs and COMMITs on their way -/

/-- Whether two addresses lie in one unit instance. -/
def sameInst (a b : Nat) : Bool := a / 1024 == b / 1024

/-- The first entry of a list that satisfies p, taken out. -/
def takeFirst {α : Type} (p : α → Bool) : List α → Option (α × List α)
  | [] => none
  | x :: l => if p x then some (x, l) else (takeFirst p l).map fun r => (r.1, x :: r.2)

/-- The unit accepts engine e's oldest SET or COMMIT to the instance of address a, if that is the one named (R157): the
state without it. -/
def accept (s : State) (e : Nat) (commit : Bool) (a : Nat) (v : Word) : Option State :=
  if !live s then none
  else match takeFirst (fun p => sameInst p.addr a) (eng s e).posted with
    | some (p, l) =>
      if p.commit == commit && p.addr == a && p.val == v then some (setEng s e { eng s e with posted := l }) else none
    | none => none

/-- A command that is the acceptance of a SET: its effect on the state without the SET, or nothing where the engine has no
such SET in front (assumption log 5). -/
def onSet (s : State) (e a : Nat) (v : Word) (f : State → State) : Out :=
  match accept s e false a v with
  | some s' => .next (f s')
  | none => .next s

/-- An engine's waiting GET answered: the value and NR cleared, or NR set and the register unchanged where a result is not
ready (R155, R180). -/
def answer (s : State) (e : Nat) (v : Option Word) : State :=
  let g := eng s e
  match g.get, v with
  | some (rd, _), some w => setEng s e (setReg { g with get := none, nr := false } rd w)
  | some _, none => setEng s e { g with get := none, nr := true }
  | none, _ => s

/-- Whether engine e's GET of address a may be answered now: every earlier SET and COMMIT of the engine to that unit and
number has been accepted (R157). -/
def getReady (s : State) (e a : Nat) : Bool :=
  live s && (match (eng s e).get with
    | some (_, b) => a == b && !((eng s e).posted.any fun p => sameInst p.addr a)
    | none => false)

/-- n free bytes, and the state that has used them up (assumption log 2). -/
def takeBytes : Nat → State → List Byte × State
  | 0, s => ([], s)
  | n + 1, s =>
    let x := takeFree s
    let y := takeBytes n x.2
    (by8 x.1 :: y.1, y.2)

/-! ## DRAM -/

/-- Bytes of the data space (R105): 120 GB. -/
def dataSpace : Nat := 0x1e00000000

/-- First byte of the spill area: the top SPILLGB GB (R432). -/
def spillBase (s : State) : Nat := dataSpace - rdF s fQM_SHCFG_SPILLGB * 2 ^ 30

/-- A byte of the data space; a byte of an unwritten granule reads as zero (R477). -/
def dramB (s : State) (a : Nat) : Byte := tget (fun _ => 0) s.mpe.dram a

/-- n bytes of the data space from a. -/
def dramRead (s : State) (a n : Nat) : List Byte := (List.range n).map fun k => dramB s (a + k)

/-- Bytes written to the data space from a. -/
def dramWrite (s : State) (a : Nat) (bs : List Byte) : State :=
  let d := (bs.mapIdx fun k b => (a + k, b)).foldl (fun t p => tset (fun _ => 0) t p.1 p.2) s.mpe.dram
  { s with mpe := { s.mpe with dram := d } }

/-- Lines of a range, as line addresses. -/
def linesOf (a n : Nat) : List Nat := (List.range ((a + n - 1) / 64 - a / 64 + 1)).map fun k => (a / 64 + k) * 64

/-- The channel that carries an address below the spill area, by the hash of its 512-byte granule (R462). -/
def dramChannel (a : Nat) : Nat := (Config.channelHash (a / 512)).toNat

/-- Whether the channel in pause carries a line of a range, so that the access is held (R467). -/
def paused (s : State) (a n : Nat) : Bool :=
  onF s fMEM_MSTAT_PAUSE && (linesOf a n).any fun l => dramChannel l == rdF s fMEM_MSTAT_CH

/-- Counter kinds of MPE: ECC corrections per channel, partial-write pairs per master, and lines re-keyed per region (R491). -/
def kMpeFixed : Nat := 0
def kMpePair : Nat := 3
def kMpeRekeyed : Nat := 5

/-- The lines of a range counted as read or written, per master (R491) and per channel (R472). -/
def countLines (s : State) (m a n : Nat) (wr : Bool) : State :=
  (linesOf a n).foldl (fun s l => count (count s 0x10 (1 + b2n wr) m) 0x0f (b2n wr) (dramChannel l)) s

/-- Whether granule g has been written since the memory keys were drawn (R477). -/
def granuleWritten (s : State) (g : Nat) : Bool := s.mpe.allWritten != tget (fun _ => false) s.mpe.odd g

/-- Granule g noted as written or not written. -/
def setWritten (s : State) (g : Nat) (b : Bool) : State :=
  { s with mpe := { s.mpe with odd := tset (fun _ => false) s.mpe.odd g (s.mpe.allWritten != b) } }

/-- The granules of a range that are not written, filled with sealed zeros (R477). -/
def fillRange (s : State) (a n : Nat) : State :=
  if n = 0 then s else ((List.range ((a + n - 1) / 65536 - a / 65536 + 1)).map fun k => a / 65536 + k).foldl (fun s g => setWritten s g true) s

/-- Bytes that a unit of the module writes to the data space: a granule that was not written is filled by it (R477). -/
def deviceWrite (s : State) (a : Nat) (bs : List Byte) : State := dramWrite (fillRange s a bs.length) a bs

/-- The pair of R480 on the line of an address counted: the line read and written, and the pair. -/
def countPair (s : State) (m a : Nat) : State :=
  count (countLines (countLines s m a 1 false) m a 1 true) 0x10 kMpePair m

/-- New memory keys for region r, or at 16 for the private range, from the random source (R477, R482). -/
def drawMemKeys (s : State) (r : Nat) : State :=
  let k := takeRandom 96 s
  { k.2 with mpe := { k.2.mpe with memKeys := tset (fun _ => []) k.2.mpe.memKeys r k.1 } }

/-- Bytes that a master of R489 other than an engine writes, its lines counted. -/
def memWrite (s : State) (m a : Nat) (bs : List Byte) : State :=
  if bs = [] then s else countLines (deviceWrite s a bs) m a bs.length true

/-- The lines of a range that it covers in part, by line number (R480). -/
def partLines (a n : Nat) : List Nat :=
  ((if a % 64 ≠ 0 then [a / 64] else []) ++ (if (a + n) % 64 ≠ 0 then [(a + n) / 64] else [])).eraseDups

/-- A write over written granules, one write per line in ascending order with each partial end line as a pair (R480). bad names the partial line whose
seal fails, 1 for the first one: the lines below it stand, and the module halts with event 0x400_011. -/
def writeRange (s : State) (m a : Nat) (bs : List Byte) (bad : Nat) : State :=
  match if bad = 0 then none else (partLines a bs.length)[bad - 1]? with
  | some l => sealFault (dramWrite s a (bs.take (l * 64 - a))) 0x400011 (l * 64) m
  | none =>
    let s := (partLines a bs.length).foldl (fun s l => count (countLines s m (l * 64) 1 false) 0x10 kMpePair m) s
    countLines (dramWrite s a bs) m a bs.length true

/-- A training of channel c noted at this instant (R467). -/
def trained (s : State) (c : Nat) : State := { s with mem := { s.mem with trainedAt := tset (fun _ => 0) s.mem.trainedAt c s.sys.ticks } }

/-- Region r at reset (R481). -/
def regionReset (r : Nat) : Region := if r = 0 then ⟨0, 0x1dffff, true, false⟩ else ⟨0, 0, false, false⟩

/-- Region r. -/
def region (s : State) (r : Nat) : Region := tget regionReset s.mpe.regions r

/-- The valid region that holds granule g (R481). -/
def regionOf (s : State) (g : Nat) : Option Nat :=
  (List.range 16).find? fun r => (region s r).valid && (region s r).base ≤ g && g ≤ (region s r).limit

/-- A rights window at reset (R490). -/
def winReset (k : Nat) : Win := if k = 0 then ⟨0, 0x1dffff, true, true⟩ else ⟨0, 0, false, false⟩

/-- Window w of rights entry n. -/
def win (s : State) (n w : Nat) : Win := tget winReset s.mpe.rights (n * 4 + w)

/-- Whether master n may access granule g (R485), wr telling a write from a read. -/
def granuleOk (s : State) (n g : Nat) (wr : Bool) : Bool :=
  (List.range 4).any (fun w => (win s n w).base ≤ g && g ≤ (win s n w).limit &&
    (if wr then (win s n w).wr else (win s n w).rd)) &&
  g * 65536 < spillBase s &&
  !((n == 0xc || n == 0xd) && s.fuse.lock) && !((n == 0xc || n == 0xd || n == 0xe) && (regionOf s g).any (fun r => (region s r).prot))

/-- The first byte of an access that MPE refuses (R485, R486). -/
def refusedByte (s : State) (n a len : Nat) (wr : Bool) : Option Nat :=
  ((List.range ((a + len - 1) / 65536 - a / 65536 + 1)).find? fun k => !granuleOk s n (a / 65536 + k) wr).map
    fun k => if k = 0 then a else (a / 65536 + k) * 65536

/-- Counter kind of MPE: accesses refused, per master (R486). -/
def kMpeRefused : Nat := 4

/-- MPE refuses an access: no effect on memory, a count and event 0x400_015 (R486). -/
def refuse (s : State) (n b : Nat) (wr : Bool) : State :=
  emit (count s 0x10 kMpeRefused n) 0x400015 (n + 256 * b2n wr) (b / 2 ^ 24) (b % 2 ^ 24)

/-- Bytes as shared memory packs them, three a word, most significant first, zero past the end (R105). -/
def packWords : List Byte → List Word
  | [] => []
  | [a] => [wd (a.toNat * 65536)]
  | [a, b] => [wd (a.toNat * 65536 + b.toNat * 256)]
  | a :: b :: c :: l => wd (a.toNat * 65536 + b.toNat * 256 + c.toNat) :: packWords l

/-- n bytes of lantern l's shared memory from word a, three a word (R105). -/
def sharedBytes (s : State) (l a n : Nat) : List Byte :=
  (List.range n).map fun k => byteAt (wordBytes (sharedW s l (a + k / 3))) (k % 3)

/-- Bytes put into lantern l's shared memory from word a, three a word (R105). -/
def putShared (s : State) (l a : Nat) (bs : List Byte) : State :=
  ((packWords bs).mapIdx fun k w => (a + k, w)).foldl (fun s p => setShared s l p.1 p.2) s

end Sys2Proof.Machine
end

