-- ==== Sys2Proof/Machine/Flags.lean ====
section
/-! DEFINITION. Every flag computation of the BJ-24 catalogue (R100, R136 to R139, R142). -/
namespace Sys2Proof.Machine

/-- Z and N from a result (R100). -/
def setZN (g : Engine) (r : Word) : Engine := { g with z := r == 0, n := r.msb }

/-- A sum of two words and a carry: the result, the carry out and the signed overflow (R136). -/
def addC (a b : Word) (c : Bool) : Word × Bool × Bool :=
  let r := wd (a.toNat + b.toNat + b2n c)
  (r, 16777216 ≤ a.toNat + b.toNat + b2n c, a.msb == b.msb && r.msb != a.msb)

/-- A difference of two words and a borrow: the result, the borrow out and the signed overflow (R136). -/
def subC (a b : Word) (c : Bool) : Word × Bool × Bool :=
  let r := a - b - wd (b2n c)
  (r, a.toNat < b.toNat + b2n c, a.msb != b.msb && r.msb != a.msb)

/-- A shift left by n below 32: the result and the last bit out (R136, R137). -/
def shl (a : Word) (n : Nat) : Word × Bool := (a <<< n, if n = 0 then false else bitOf (a.toNat * 2 ^ n) 24)

/-- A shift right with zero fill by n below 32: the result and the last bit out (R136, R137). -/
def shr (a : Word) (n : Nat) : Word × Bool := (a >>> n, if n = 0 then false else bitOf a.toNat (n - 1))

/-- A shift right with sign fill by n below 32: the result and the last bit out (R136, R137). -/
def sar (a : Word) (n : Nat) : Word × Bool :=
  (a.sshiftRight n, if n = 0 then false else if 24 ≤ n then a.msb else bitOf a.toNat (n - 1))

/-- A rotation left by n modulo 24 (R136). -/
def rol (a : Word) (n : Nat) : Word := a.rotateLeft (n % 24)

/-- Results without C and V of their own: Z and N set, rd written. -/
def writeZN (g : Engine) (rd : Nat) (r : Word) : Engine := setReg (setZN g r) rd r

/-- Results with C: Z, N and C set, rd written. -/
def writeZNC (g : Engine) (rd : Nat) (x : Word × Bool) : Engine := setReg { setZN g x.1 with c := x.2 } rd x.1

/-- Results with C and V: Z, N, C and V set, rd written. -/
def writeZNCV (g : Engine) (rd : Nat) (x : Word × Bool × Bool) : Engine :=
  setReg { setZN g x.1 with c := x.2.1, v := x.2.2 } rd x.1

/-- Results with V: Z, N and V set, rd written (R138). -/
def writeZNV (g : Engine) (rd : Nat) (r : Word) (v : Bool) : Engine := setReg { setZN g r with v := v } rd r

/-- Whether branch condition COND holds (R142). -/
def condHolds (g : Engine) : Nat → Bool
  | 0 => true
  | 1 => g.z
  | 2 => !g.z
  | 3 => g.c
  | 4 => !g.c
  | 5 => g.n
  | 6 => !g.n
  | 7 => g.v
  | 8 => !g.v
  | 9 => !g.c && !g.z
  | 10 => g.c || g.z
  | 11 => g.n == g.v
  | 12 => g.n != g.v
  | 13 => !g.z && g.n == g.v
  | 14 => g.z || g.n != g.v
  | 15 => g.nr
  | 16 => !g.nr
  | 17 => pk g
  | 18 => !pk g
  | _ => false

end Sys2Proof.Machine
end

