-- ==== Sys2Proof/Machine/Place.lean ====
section
/-! DEFINITION. Queues as other units see them, where flows are placed, what a failed engine brings with it, and taking a
trap (R104, R111 to R114, R209, R216, R217, R220). -/
namespace Sys2Proof.Machine

/-! ## Queues -/

/-- A queue with nothing in it. -/
def queueReset : Queue := { frames := [], headc := 0, blocks := [], rebuild := false }

/-- Scheduler queue q. -/
def queue (s : State) (q : Nat) : Queue := tget (fun _ => queueReset) s.qm.queues q

/-- Scheduler queue q replaced. -/
def setQueue (s : State) (q : Nat) (x : Queue) : State :=
  { s with qm := { s.qm with queues := tset (fun _ => queueReset) s.qm.queues q x } }

/-- Cells of a frame of n bytes, FCS excluded (R426). -/
def cellsOf (n : Nat) : Nat := (n + 63) / 64

/-- A frame as a queue holds it from this instant on. -/
def qframe (s : State) (f : Frame) (port : Option Nat) (cls : Nat) : QFrame :=
  { frame := f, cells := cellsOf f.bytes.length, at_ := s.sys.ticks, port := port, cls := cls }

/-- The EQCNT result of engine e after a change (R438). -/
def eqcnt (s : State) (e : Nat) : State := result s fQM_EQCNT_FRAMES (min (eng s e).frames.length 65535) 0 e

/-- A committed frame put at the end of engine e's frame queue (R437). -/
def pushEng (s : State) (e : Nat) (f : Frame) : State :=
  eqcnt (setEng s e { eng s e with frames := (eng s e).frames ++ [f] }) e

/-- A committed frame put at the end of scheduler queue q (R429). -/
def pushQueue (s : State) (q : Nat) (f : QFrame) : State :=
  setQueue s q { queue s q with frames := (queue s q).frames ++ [f] }

/-! ## Placement of flows -/

/-- A flow record at reset: not valid (R416, R422). -/
def flowReset : FlowRec :=
  { valid := false, progen := false, prog := 0, polen := false, yact := false, ract := false, queue := 0, txsc := 0,
    cir := 0, cbs := 0, pir := 0, pbs := 0 }

/-- The record of flow f. -/
def flowRec (s : State) (f : Nat) : FlowRec := tget (fun _ => flowReset) s.flow.recs f

/-- Whether engine e belongs to pool p (R224). -/
def inPool (s : State) (p e : Nat) : Bool :=
  bitOf (rdF s fPLC_POOL_ENGINES 0 (8 * p + e / 24)) (e / 8 % 3 * 8 + e % 8)

/-- Whether an engine can hold flows: neither FAILED nor GATED, in a domain that has not failed (R217, R220, R612). -/
def engLives (s : State) (e : Nat) : Bool :=
  (eng s e).st != .failed && !(eng s e).gated && !(dom s (14 + lanternOf e)).failed

/-- The engines of pool p that can hold flows, lowest first. -/
def poolEngines (s : State) (p : Nat) : List Nat := (List.range 192).filter fun e => inPool s p e && engLives s e

/-- The one of a list for which f is least, the first of equals. -/
def leastBy (f : Nat → Nat) : List Nat → Option Nat
  | [] => none
  | x :: l =>
    match leastBy f l with
    | none => some x
    | some y => if f x ≤ f y then some x else some y

/-- The least-loaded engine of pool p (R220). -/
def leastLoaded (s : State) (p : Nat) : Option Nat := leastBy (fun e => (eng s e).frames.length) (poolEngines s p)

/-- The engine of the flows of pool p that no move has named: the one a switch or a commit of the pool has named, else the
lowest-numbered; none where the pool has no live engine (R220, R222, R223). -/
def poolEngine (s : State) (p : Nat) : Option Nat :=
  if poolEngines s p = [] then none
  else match tget (fun _ => (none : Option Nat)) s.plc.pool p with
  | some e => if engLives s e then some e else leastLoaded s p
  | none => (poolEngines s p).head?

/-- The engine flow f is placed on; none where its pool has no live engine (R209, R216, R220). -/
def flowEngine (s : State) (f : Nat) : Option Nat :=
  if poolEngines s (flowRec s f).prog = [] then none
  else match tget (fun _ => (none : Option Nat)) s.plc.flow f with
  | some e => if engLives s e then some e else leastLoaded s (flowRec s f).prog
  | none => poolEngine s (flowRec s f).prog

/-- Counter kinds of PLC: moves completed, reversions and switches per object kind, unplaced drops per program (R225). -/
def kPlcMoved : Nat := 0

/-- Reversions, per object kind (R225). -/
def kPlcReverted : Nat := 1

/-- Switches under R220, per object kind (R225). -/
def kPlcSwitched : Nat := 2

/-- Fence-queue cells, per move (R225). -/
def kPlcFence : Nat := 3

/-- Residency misses, per receive channel (R225). -/
def kPlcMiss : Nat := 4

/-- Unplaced drops, per program (R225). -/
def kPlcUnplaced : Nat := 5

/-- One OBJRES result: placement, state and hints (R224). -/
def objRes (s : State) (place st hints : Nat) : State := result s fPLC_OBJRES_WHERE (place % 256 + 256 * st + 1024 * hints)

/-- A move runs no longer. -/
def dropMove (s : State) (m : Move) : State :=
  { s with plc := { s.plc with moves := s.plc.moves.filter fun x => !(x.kind == m.kind && x.index == m.index) } }

/-- The fenced frames of a flow put at the end of the queue of the engine where the flow now stands; with no engine they are dropped and
counted as unplaced (R216, R217, R220). -/
def releaseFlow (s : State) (m : Move) : Option Nat → State
  | some e => m.fence.foldl (fun s f => pushEng s e f) s
  | none => count s 2 kPlcUnplaced (flowRec s m.index).prog m.fence.length

/-- What a reversion leaves behind: its count, event 0x080_010 with kind, index and cause (1 timeout, 2 fence full, 3 target lost; assumption
log 2), and the result of a requested move (R217, R224, R225). -/
def noteReverted (s : State) (m : Move) (cause : Nat) : State :=
  let s := emit (count s 2 kPlcReverted m.kind) 0x080010 m.kind m.index cause
  if m.asked then objRes s m.source 2 (tget (fun _ => 0) s.plc.hints (m.kind * 2 ^ 20 + m.index)) else s

/-- A flow's move reverts: the fenced frames follow the source's, and the map is unchanged (R217). -/
def revertFlow (s : State) (m : Move) (cause : Nat) : State :=
  noteReverted (releaseFlow (dropMove s m) m (some m.source)) m cause

/-- A flow's map entry given an engine, or none. -/
def setFlowEngine (s : State) (f : Nat) (e : Option Nat) : State :=
  { s with plc := { s.plc with flow := tset (fun _ => none) s.plc.flow f e } }

/-- A flow whose source engine is lost while it moves: R220 switches it at once to the least-loaded engine of its pool, where its fenced frames
go. -/
def switchMoving (s : State) (m : Move) : State :=
  let e := leastLoaded s (flowRec s m.index).prog
  let s := setFlowEngine (releaseFlow (dropMove s m) m e) m.index e
  if m.asked then objRes s (e.getD m.source) (if e.isSome then 0 else 2) (tget (fun _ => 0) s.plc.hints m.index) else s

/-- Counter kind of ENG: frames discarded with a failed engine, per lantern (R220). -/
def kEngFaultDrop : Nat := 3

/-- The frames that engine e holds, in its queue, in its window and admitted for it, discarded with it and counted (R220). -/
def dropEngineFrames (s : State) (e : Nat) : State :=
  let bound := fun (x : Flight) => x.stage == 2 && x.dest == .eng e
  let n := (eng s e).frames.length + b2n (!(eng s e).win.idle) + (s.flights.filter bound).length
  if n = 0 then s
  else
    let s := { s with flights := s.flights.map fun x => if bound x then { x with dest := .none } else x }
    count (eqcnt (setEng s e { eng s e with frames := [], arrived := false, win := idleWin }) e) 1 kEngFaultDrop (lanternOf e) n

/-- Whether the flows of pool p that no move has named stand on engine e, dead or alive (R209, R220). -/
def poolNames (s : State) (p e : Nat) : Bool :=
  match tget (fun _ => (none : Option Nat)) s.plc.pool p with
  | some x => x == e
  | none => ((List.range 192).find? fun x => inPool s p x && (x == e || engLives s x)) == some e

/-- The flows that stand on engine e: of those with a valid record that runs a program, each whose map entry, or whose pool where it has none,
names it (R209, R220). -/
def flowsOn (s : State) (e : Nat) : List Nat :=
  (s.flow.recs.filter fun x => x.2.valid && x.2.progen &&
    (match tget (fun _ => (none : Option Nat)) s.plc.flow x.1 with
    | some y => y == e
    | none => poolNames s x.2.prog e)).map fun x => x.1

/-- Event 0x080_011 for each pool of a list that has no live engine left (R220). -/
def notePoolsGone (s : State) (l : List Nat) : State :=
  (l.filter fun p => (poolEngines s p).isEmpty).foldl (fun s _ => emit0 s 0x080011) s

/-- What R220 does when engine e has failed: its flows go to the least-loaded engine of each pool at once, those that move away from it among
them, its frames are discarded and counted, and event 0x080_011 records it, and once more for a pool that has no live engine left. Moves
toward it revert (R217). -/
def engineGone (s : State) (e : Nat) : State :=
  let s := (s.plc.moves.filter fun m => m.kind == 0 && m.target == e).foldl (fun s m => revertFlow s m 3) s
  let s := dropEngineFrames s e
  let pools := (List.range 64).filter fun p => inPool s p e || poolNames s p e
  if pools.isEmpty && !(s.plc.flow.any fun x => x.2 == some e) then s
  else
    let n := ((flowsOn s e).filter fun f => (leastLoaded s (flowRec s f).prog).isSome).length
    let s := (s.plc.moves.filter fun m => m.kind == 0 && m.source == e).foldl switchMoving s
    let s := { s with plc := { s.plc with
        flow := (s.plc.flow.filter fun x => x.2 == some e).foldl
          (fun t x => tset (fun _ => none) t x.1 (leastLoaded s (flowRec s x.1).prog)) s.plc.flow
        pool := (pools.filter fun p => poolNames s p e).foldl
          (fun t p => tset (fun _ => none) t p (leastLoaded s p)) s.plc.pool } }
    notePoolsGone (emit0 (count s 2 kPlcSwitched 0 n) 0x080011) (pools.filter fun p => inPool s p e)

/-! ## Traps -/

/-- An engine failed: FAILED, its flows switched (R220), with a class L fault in its lantern's domain (R104, R114, R604). -/
def failEngine (s : State) (e code : Nat) : State :=
  raiseFault (engineGone (setEng s e { eng s e with st := .failed, conds := 0, step := false }) e) code (14 + lanternOf e)

/-- A trap of a cause other than sample: the record and the vector, or a double trap while TIP is set (R111 to R114). Word 0x7FFD holds the
samples dropped since the last sample trap in every record (R113). -/
def takeTrap (s : State) (e c : Nat) (d1 d2 : Nat) : State :=
  let g := eng s e
  if g.tip then
    failEngine (emit s 0x040010 (e + 256 * c) g.pc.toNat (dataW s e 0x7ff8).toNat) e 0x040010
  else enterTrap s e c d1 d2 0 g.dropped

end Sys2Proof.Machine
end

