-- ==== Sys2Proof/Machine/Operands.lean ====
section
/-! DEFINITION. Every operand form of the BJ-24 catalogue: near addresses, the packet window, register pairs and quads, and
how an instruction of an engine runs, stalls or traps. -/
namespace Sys2Proof.Machine

/-! ## Near memory -/

/-- Word i of the packet window: bytes 3i to 3i+2 (R102). -/
def winWord (g : Engine) (i : Nat) : Word :=
  wd (ofBytes [tget (fun _ => 0) g.win.buf (3 * i), tget (fun _ => 0) g.win.buf (3 * i + 1), tget (fun _ => 0) g.win.buf (3 * i + 2)])

/-- Bytes of the window replaced from offset o; the window keeps the original of each byte stored into it (R330). -/
def putWin (w : Window) (o : Nat) (bs : List Byte) : Window :=
  { w with
    buf := (bs.mapIdx fun k b => (o + k, b)).foldl (fun t p => tset (fun _ => 0) t p.1 p.2) w.buf
    orig := ((List.range bs.length).map fun k => o + k).foldl (fun t a =>
      if (tget (fun _ => none) t a).isSome then t else tset (fun _ => none) t a (some (tget (fun _ => 0) w.buf a))) w.orig }

/-- A word of the frame descriptor (R150). -/
def descWord (w : Window) (i : Nat) : Word :=
  if w.idle then (if i = 0 then 1 else 0)
  else wd (match i with
    | 0 => 2 * b2n w.frag + 4 * b2n w.poison + 8 * b2n w.trunc + 16 * b2n w.fixcs
    | 1 => w.len
    | 2 => w.source
    | 3 => w.flow
    | 4 => w.colour
    | 5 => w.queue
    | 6 => w.txsc
    | 8 => w.mark.s
    | 9 => bitsOf w.mark.n 24 6
    | 10 => w.mark.n
    | 11 => w.mark.g
    | 12 => bitsOf w.action 72 24
    | 13 => bitsOf w.action 48 24
    | 14 => bitsOf w.action 24 24
    | 15 => w.action
    | _ => 0)

/-- A write of a word of the frame descriptor: FIXCS, LEN, QUEUE and TXSC are written, everything else is ignored, and the
idle item stays the idle item (R150). -/
def putDesc (w : Window) (i : Nat) (v : Word) : Window :=
  if w.idle then w
  else if i = 0 then { w with fixcs := bitOf v.toNat 4 }
  else if i = 1 then { w with len := min (bitsOf v.toNat 0 14) 12288 }
  else if i = 5 then { w with queue := bitsOf v.toNat 0 14 }
  else if i = 6 then { w with txsc := bitsOf v.toNat 0 10 }
  else w

/-- What a near load of engine e finds at address a, if R102 permits it at the engine's level. -/
def nearRead (s : State) (e a : Nat) : Option Word :=
  if a < 0x8000 then some (dataW s e a)
  else if 0x10000 ≤ a ∧ a < 0x18000 then (if (eng s e).kp then some (imemW s e (a - 0x10000)) else none)
  else if 0x20000 ≤ a ∧ a < 0x21000 then some (winWord (eng s e) (a - 0x20000))
  else if 0x21000 ≤ a ∧ a < 0x21040 then some (descWord (eng s e).win (a - 0x21000))
  else if 0x80000 ≤ a ∧ a < 0x100000 then some (sharedW s (lanternOf e) (a - 0x80000))
  else none

/-- What a near store of engine e makes of the state, if R102 permits it at the engine's level. -/
def nearWrite (s : State) (e a : Nat) (v : Word) : Option State :=
  let g := eng s e
  if a < 0x7ff8 then some (setData s e a v)
  else if a < 0x8000 then (if g.kp then some (setData s e a v) else none)
  else if 0x20000 ≤ a ∧ a < 0x21000 then some (setEng s e { g with win := putWin g.win (3 * (a - 0x20000)) (wordBytes v) })
  else if 0x21000 ≤ a ∧ a < 0x21040 then some (setEng s e { g with win := putDesc g.win (a - 0x21000) v })
  else if 0x80000 ≤ a ∧ a < 0x100000 then some (setShared s (lanternOf e) (a - 0x80000) v)
  else none

/-- Whether XADD and CAS are permitted at an address: data and shared memory, the trap record excepted (R146). -/
def atomicOk (a : Nat) : Bool := a < 0x7ff8 || (0x80000 ≤ a && a < 0x100000)

/-- Words of shared memory that a block of n bytes occupies (R105). -/
def blockWords (n : Nat) : Nat := (n + 2) / 3

/-- Whether a near address lies inside an outstanding block of the engine, whose access then stalls (R153). -/
def inBlock (g : Engine) (a : Nat) : Bool :=
  g.far.any fun f => match f.kind with
    | .blockLoad p => p ≤ a && a < p + blockWords f.len
    | .blockStore p => p ≤ a && a < p + blockWords f.len
    | _ => false

/-- Whether one of the n window bytes from offset o is a byte of the frame that has not arrived (R151), wherever LEN stands. -/
def notArrived (g : Engine) (o n : Nat) : Bool := !g.win.idle && decide (max o g.win.got < min (o + n) g.win.full)

/-- ra plus IMM10 sign-extended, modulo 2^24 (R145). -/
def nearAddr (g : Engine) (ra : Nat) (imm : BitVec 10) : Nat := (reg g ra + imm.signExtend 24).toNat

/-- The byte offset ra plus IMM10 zero-extended (R148). The sum is not taken modulo 2^24, so it cannot wrap into the window (assumption log 71,
DESIGN CHOICE). -/
def winOff (g : Engine) (ra : Nat) (imm : BitVec 10) : Nat := (reg g ra).toNat + imm.toNat

/-! ## Pairs, quads, encodings -/

/-- Whether a register may begin a pair (R99, R132). -/
def pairOk (r : Nat) : Bool := r % 2 == 0 && r != 0

/-- The 48 bits of a register pair, the first the more significant (R8). -/
def pairVal (g : Engine) (r : Nat) : Nat := (reg g r).toNat * 2 ^ 24 + (reg g (r + 1)).toNat

/-- Register k of quad q (R158). -/
def quad (q k : Nat) : Nat := 4 * q + k

/-- Word 0 of the R format (R131). -/
def encR (op rd ra rb fn : Nat) : Word := wd (op * 262144 + rd * 16384 + ra * 1024 + rb * 64 + fn)

/-- Word 0 of the I and L formats (R131). -/
def encI (op rd ra imm : Nat) : Word := wd (op * 262144 + rd * 16384 + ra * 1024 + imm)

/-! ## Running an instruction -/

/-- What an instruction does: it completes, at the next instruction or elsewhere; it traps before any effect, or after
a record of the refusal; it begins and completes later; or it stalls. -/
inductive Eff where
  | done (s : State)
  | jump (s : State) (pc : Word)
  | trap (c d1 d2 : Nat)
  | trapWith (s : State) (c d1 d2 : Nat)
  | hold (s : State)
  | stall

/-- An instruction of engine e retires and the pc moves; past 0x7FFF the pc keeps its low 15 bits and the next fetch traps (R99, R101, R129,
R131). -/
def retire (s : State) (e : Nat) (pc : Word) : State :=
  let g := eng s e
  setEng s e { g with
    lastPc := g.pc
    pc := wd (pc.toNat % 32768)
    past := decide (0x7fff < pc.toNat)
    noted := g.noted.map fun (x : Word × Nat) => (x.1, x.2 + 1)
    count := if sampling s e then g.count + 1 else g.count }

/-- Whether a register is the destination of an outstanding far load (R153). -/
def loading (g : Engine) (r : Nat) : Bool :=
  g.far.any fun f => match f.kind with
    | .load d => d == r && r != 0
    | _ => false

/-- Whether an outstanding far load stands before a trap entry, which waits for it (R154). -/
def loadsOut (g : Engine) : Bool :=
  g.far.any fun f => match f.kind with
    | .load _ => true
    | _ => false

/-- Whether engine e's count of retired instructions has reached its sampling interval (R120, R129). -/
def sampleDue (s : State) (e : Nat) : Bool :=
  sampling s e && decide ((rdF s fENG_ESAMP_INTERVAL (e / 8) (engOff e) + 1) * 1024 ≤ (eng s e).count)

/-- An engine that has executed the one instruction of a STEP stops: at once, or DRAINING while the instruction still waits for an answer, a
grant or far memory (R121, R684). -/
def stepDone (s : State) (e : Nat) : State :=
  let g := eng s e
  if g.st == .running then
    setEng s e { g with step := false, st := if g.get.isSome || g.out.isSome || !g.far.isEmpty then .draining else .stopped }
  else setEng s e { g with step := false }

/-- The end of an instruction of engine e, which may have been a STEP's. -/
def endInstr (step : Bool) (s : State) (e : Nat) : State := if step then stepDone s e else s

/-- A trap of engine e, which waits for every outstanding far load (R154). -/
def trapOr (s : State) (e c d1 d2 : Nat) : State :=
  if loadsOut (eng s e) then s else endInstr (eng s e).step (takeTrap s e c d1 d2) e

/-- Engine e executes an instruction of size words that uses the listed registers: nothing happens unless the engine runs
(assumption log 5); a fetch above 0x7FFF traps (R101, R133); an instruction that uses a register still being loaded stalls
(R153); so does one that would pass an expiry of the sampling interval or carry the noted sample further than 12 instructions (R129). -/
def instr (s : State) (e size : Nat) (uses : List Nat) (body : Engine → Eff) : Out :=
  let g := eng s e
  if !able s e then .next s
  else if sampleDue s e || g.noted.any fun (x : Word × Nat) => 12 ≤ x.2 then .next s
  else if g.past then .next (trapOr s e 3 0x8000 0)
  else if size = 2 ∧ 0x7fff < g.pc.toNat + 1 then .next (trapOr s e 3 (g.pc.toNat + 1) 0)
  else if uses.any (loading g) then .next s
  else match body g with
    | .done s' => .next (endInstr g.step (retire s' e (g.pc + wd size)) e)
    | .jump s' pc => .next (endInstr g.step (retire s' e pc) e)
    | .trap c d1 d2 => .next (trapOr s e c d1 d2)
    | .trapWith s' c d1 d2 => .next (if loadsOut g then s else endInstr g.step (takeTrap s' e c d1 d2) e)
    | .hold s' => .next s'
    | .stall => .next s

/-- An instruction whose whole effect is on its own engine's registers and flags. -/
def instrG (s : State) (e size : Nat) (uses : List Nat) (f : Engine → Engine) : Out :=
  instr s e size uses fun g => .done (setEng s e (f g))

end Sys2Proof.Machine
end

