-- ==== Sys2Proof/Machine/Alu.lean ====
section
/-! DEFINITION. Arithmetic and logic: the ALU group and the immediate forms (R136 to R141). -/
namespace Sys2Proof.Machine

/-- Byte k of a word, zero-extended; byte 0 is [23:16] and byte 3 is zero (R136). -/
def extb (a : Word) (k : Nat) : Word := if k < 3 then wd (bitsOf a.toNat (16 - 8 * k) 8) else 0

/-- The one signed division whose quotient does not fit: 0x800_000 by 0xFFF_FFF (R138). -/
def divOver (a b : Word) : Bool := a == 0x800000 && b == 0xffffff

/-- Leading zeros of a word, 0 to 24 (R136). -/
def clz (a : Word) : Word := wd (24 - (if a.toNat = 0 then 0 else Nat.log2 a.toNat + 1))

/-- The field of width w at position p, right-aligned; bits above 23 read as zero (R141). -/
def extField (a : Word) (p w : Nat) : Word := wd (bitsOf a.toNat p w)

/-- a with its field of width w at position p replaced by the low bits of b; bits above 23 are dropped (R141). -/
def insField (a b : Word) (p w : Nat) : Word := wd (putBits a.toNat p w b.toNat)

/-- A division by zero traps, with the instruction word as detail 1 (R112, R138). -/
def divTrap (g : Engine) (rb w0 : Nat) (s : State) : Eff := if reg g rb = 0 then .trap 7 w0 0 else .done s

/-- ADD (R136). -/
def execAdd (e : Eng) (rd ra rb : Reg) (s : State) : Out :=
  instrG s e 1 [rd, ra, rb] fun g => writeZNCV g rd (addC (reg g ra) (reg g rb) false)

/-- ADDC (R136). -/
def execAddc (e : Eng) (rd ra rb : Reg) (s : State) : Out :=
  instrG s e 1 [rd, ra, rb] fun g => writeZNCV g rd (addC (reg g ra) (reg g rb) g.c)

/-- SUB (R136). -/
def execSub (e : Eng) (rd ra rb : Reg) (s : State) : Out :=
  instrG s e 1 [rd, ra, rb] fun g => writeZNCV g rd (subC (reg g ra) (reg g rb) false)

/-- SUBC (R136). -/
def execSubc (e : Eng) (rd ra rb : Reg) (s : State) : Out :=
  instrG s e 1 [rd, ra, rb] fun g => writeZNCV g rd (subC (reg g ra) (reg g rb) g.c)

/-- AND (R136). -/
def execAnd (e : Eng) (rd ra rb : Reg) (s : State) : Out :=
  instrG s e 1 [rd, ra, rb] fun g => writeZN g rd (reg g ra &&& reg g rb)

/-- OR (R136). -/
def execOr (e : Eng) (rd ra rb : Reg) (s : State) : Out :=
  instrG s e 1 [rd, ra, rb] fun g => writeZN g rd (reg g ra ||| reg g rb)

/-- XOR (R136). -/
def execXor (e : Eng) (rd ra rb : Reg) (s : State) : Out :=
  instrG s e 1 [rd, ra, rb] fun g => writeZN g rd (reg g ra ^^^ reg g rb)

/-- ANDN (R136). -/
def execAndn (e : Eng) (rd ra rb : Reg) (s : State) : Out :=
  instrG s e 1 [rd, ra, rb] fun g => writeZN g rd (reg g ra &&& ~~~ (reg g rb))

/-- SHL (R136, R137). -/
def execShl (e : Eng) (rd ra rb : Reg) (s : State) : Out :=
  instrG s e 1 [rd, ra, rb] fun g => writeZNC g rd (shl (reg g ra) (bitsOf (reg g rb).toNat 0 5))

/-- SHR (R136, R137). -/
def execShr (e : Eng) (rd ra rb : Reg) (s : State) : Out :=
  instrG s e 1 [rd, ra, rb] fun g => writeZNC g rd (shr (reg g ra) (bitsOf (reg g rb).toNat 0 5))

/-- SAR (R136, R137). -/
def execSar (e : Eng) (rd ra rb : Reg) (s : State) : Out :=
  instrG s e 1 [rd, ra, rb] fun g => writeZNC g rd (sar (reg g ra) (bitsOf (reg g rb).toNat 0 5))

/-- ROL (R136). -/
def execRol (e : Eng) (rd ra rb : Reg) (s : State) : Out :=
  instrG s e 1 [rd, ra, rb] fun g => writeZN g rd (rol (reg g ra) (bitsOf (reg g rb).toNat 0 5))

/-- MUL (R136). -/
def execMul (e : Eng) (rd ra rb : Reg) (s : State) : Out :=
  instrG s e 1 [rd, ra, rb] fun g => writeZN g rd (reg g ra * reg g rb)

/-- MULH (R136). -/
def execMulh (e : Eng) (rd ra rb : Reg) (s : State) : Out :=
  instrG s e 1 [rd, ra, rb] fun g => writeZN g rd (wd (unsext ((reg g ra).toInt * (reg g rb).toInt) 48 / 16777216))

/-- MULHU (R136). -/
def execMulhu (e : Eng) (rd ra rb : Reg) (s : State) : Out :=
  instrG s e 1 [rd, ra, rb] fun g => writeZN g rd (wd ((reg g ra).toNat * (reg g rb).toNat / 16777216))

/-- MIN (R136). -/
def execMin (e : Eng) (rd ra rb : Reg) (s : State) : Out :=
  instrG s e 1 [rd, ra, rb] fun g => writeZN g rd (if (reg g ra).toInt ≤ (reg g rb).toInt then reg g ra else reg g rb)

/-- MAX (R136). -/
def execMax (e : Eng) (rd ra rb : Reg) (s : State) : Out :=
  instrG s e 1 [rd, ra, rb] fun g => writeZN g rd (if (reg g ra).toInt ≤ (reg g rb).toInt then reg g rb else reg g ra)

/-- MINU (R136). -/
def execMinu (e : Eng) (rd ra rb : Reg) (s : State) : Out :=
  instrG s e 1 [rd, ra, rb] fun g => writeZN g rd (if (reg g ra).toNat ≤ (reg g rb).toNat then reg g ra else reg g rb)

/-- MAXU (R136). -/
def execMaxu (e : Eng) (rd ra rb : Reg) (s : State) : Out :=
  instrG s e 1 [rd, ra, rb] fun g => writeZN g rd (if (reg g ra).toNat ≤ (reg g rb).toNat then reg g rb else reg g ra)

/-- EXTB (R136). -/
def execExtb (e : Eng) (rd ra rb : Reg) (s : State) : Out :=
  instrG s e 1 [rd, ra, rb] fun g => writeZN g rd (extb (reg g ra) (bitsOf (reg g rb).toNat 0 2))

/-- DIV (R136, R138). -/
def execDiv (e : Eng) (rd ra rb : Reg) (s : State) : Out :=
  instr s e 1 [rd, ra, rb] fun g => divTrap g rb (encR 1 rd ra rb 0x0f).toNat
    (setEng s e (writeZNV g rd (wd (unsext ((reg g ra).toInt.tdiv (reg g rb).toInt) 24)) (divOver (reg g ra) (reg g rb))))

/-- DIVU (R136, R138). -/
def execDivu (e : Eng) (rd ra rb : Reg) (s : State) : Out :=
  instr s e 1 [rd, ra, rb] fun g => divTrap g rb (encR 1 rd ra rb 0x10).toNat
    (setEng s e (writeZN g rd (wd ((reg g ra).toNat / (reg g rb).toNat))))

/-- REM (R136, R138). -/
def execRem (e : Eng) (rd ra rb : Reg) (s : State) : Out :=
  instr s e 1 [rd, ra, rb] fun g => divTrap g rb (encR 1 rd ra rb 0x11).toNat
    (setEng s e (writeZNV g rd (wd (unsext ((reg g ra).toInt.tmod (reg g rb).toInt) 24)) (divOver (reg g ra) (reg g rb))))

/-- REMU (R136, R138). -/
def execRemu (e : Eng) (rd ra rb : Reg) (s : State) : Out :=
  instr s e 1 [rd, ra, rb] fun g => divTrap g rb (encR 1 rd ra rb 0x12).toNat
    (setEng s e (writeZN g rd (wd ((reg g ra).toNat % (reg g rb).toNat))))

/-- CLZ (R136). -/
def execClz (e : Eng) (rd ra : Reg) (s : State) : Out :=
  instrG s e 1 [rd, ra] fun g => writeZN g rd (clz (reg g ra))

/-- ADDI (R139). -/
def execAddi (e : Eng) (rd ra : Reg) (imm : BitVec 10) (s : State) : Out :=
  instrG s e 1 [rd, ra] fun g => writeZNCV g rd (addC (reg g ra) (imm.signExtend 24) false)

/-- SUBI (R139). -/
def execSubi (e : Eng) (rd ra : Reg) (imm : BitVec 10) (s : State) : Out :=
  instrG s e 1 [rd, ra] fun g => writeZNCV g rd (subC (reg g ra) (imm.signExtend 24) false)

/-- ANDI (R139). -/
def execAndi (e : Eng) (rd ra : Reg) (imm : BitVec 10) (s : State) : Out :=
  instrG s e 1 [rd, ra] fun g => writeZN g rd (reg g ra &&& imm.zeroExtend 24)

/-- ORI (R139). -/
def execOri (e : Eng) (rd ra : Reg) (imm : BitVec 10) (s : State) : Out :=
  instrG s e 1 [rd, ra] fun g => writeZN g rd (reg g ra ||| imm.zeroExtend 24)

/-- XORI (R139). -/
def execXori (e : Eng) (rd ra : Reg) (imm : BitVec 10) (s : State) : Out :=
  instrG s e 1 [rd, ra] fun g => writeZN g rd (reg g ra ^^^ imm.zeroExtend 24)

/-- SHI: SHL, SHR, SAR or ROL by an immediate amount (R139). -/
def execShi (e : Eng) (rd ra : Reg) (kind : Fin 4) (amt : BitVec 5) (s : State) : Out :=
  instrG s e 1 [rd, ra] fun g =>
    if kind.val = 0 then writeZNC g rd (shl (reg g ra) amt.toNat)
    else if kind.val = 1 then writeZNC g rd (shr (reg g ra) amt.toNat)
    else if kind.val = 2 then writeZNC g rd (sar (reg g ra) amt.toNat)
    else writeZN g rd (rol (reg g ra) amt.toNat)

/-- LDI: two words long, no flag changes (R140). -/
def execLdi (e : Eng) (rd : Reg) (imm : Word) (s : State) : Out :=
  instrG s e 2 [rd] fun g => setReg g rd imm

/-- EXT (R141). -/
def execExt (e : Eng) (rd ra : Reg) (pos : Fin 24) (wm1 : BitVec 5) (s : State) : Out :=
  instrG s e 1 [rd, ra] fun g => writeZN g rd (extField (reg g ra) pos (wm1.toNat + 1))

/-- INS (R141). -/
def execIns (e : Eng) (rd ra : Reg) (pos : Fin 24) (wm1 : BitVec 5) (s : State) : Out :=
  instrG s e 1 [rd, ra] fun g => writeZN g rd (insField (reg g rd) (reg g ra) pos (wm1.toNat + 1))

end Sys2Proof.Machine
end

