-- ==== Sys2Proof/Machine/Branch.lean ====
section
/-! DEFINITION. Branches, calls, software traps and the SYS group (R142 to R144, R165, R166). -/
namespace Sys2Proof.Machine

/-- B: taken when COND holds, to an address relative to the branch; a target outside instruction memory traps (R142,
R144). -/
def execB (e : Eng) (cond : Fin 19) (off : BitVec 13) (s : State) : Out :=
  instr s e 1 [] fun g =>
    let t := g.pc + off.signExtend 24
    if !condHolds g cond then .done s
    else if 0x7fff < t.toNat then .trap 3 t.toNat 0
    else .jump s t

/-- JMP (R143). -/
def execJmp (e : Eng) (target : BitVec 15) (s : State) : Out :=
  instr s e 1 [] fun _ => .jump s (target.zeroExtend 24)

/-- CALL: g15 receives the address of the next instruction (R143). -/
def execCall (e : Eng) (target : BitVec 15) (s : State) : Out :=
  instr s e 1 [15] fun g => .jump (setEng s e (setReg g 15 (g.pc + 1))) (target.zeroExtend 24)

/-- JR: ra is read before rd is written (R143). -/
def execJr (e : Eng) (rd ra : Reg) (s : State) : Out :=
  instr s e 1 [rd, ra] fun g =>
    .jump (setEng s e (setReg g rd (g.pc + 1))) (wd (bitsOf (reg g ra).toNat 0 15))

/-- TRAP: software cause 0x10 plus the operand (R165). -/
def execTrap (e : Eng) (n : BitVec 4) (s : State) : Out :=
  instr s e 1 [] fun _ => .trap (0x10 + n.toNat) n.toNat 0

/-- RTT: pc, fl and privilege from the trap record, TIP cleared; keeper level only (R109, R113, R165). -/
def execRtt (e : Eng) (s : State) : Out :=
  instr s e 1 [] fun g =>
    if !g.kp then .trap 2 (encR 0x3d 0 0 0 0).toNat 0
    else .jump (setEng s e { setFl g (dataW s e 0x7ff9).toNat with
        kp := bitOf (dataW s e 0x7ffa).toNat 5, tip := false }) (wd ((dataW s e 0x7ff8).toNat % 32768))

/-- NOP (R166). -/
def execNop (e : Eng) (s : State) : Out := instr s e 1 [] fun _ => .done s

/-- MFL (R166). -/
def execMfl (e : Eng) (rd : Reg) (s : State) : Out :=
  instrG s e 1 [rd] fun g => setReg g rd (wd (flWord g))

/-- MTFL (R166). -/
def execMtfl (e : Eng) (ra : Reg) (s : State) : Out :=
  instrG s e 1 [ra] fun g => setFl g (reg g ra).toNat

/-- MFTP (R166). -/
def execMftp (e : Eng) (rd : Reg) (s : State) : Out :=
  instrG s e 1 [rd] fun g => setReg g rd g.tp

/-- MTTP: bits [14:7] are written, at keeper level only (R109, R111, R166). -/
def execMttp (e : Eng) (ra : Reg) (s : State) : Out :=
  instr s e 1 [ra] fun g =>
    if !g.kp then .trap 2 (encR 0x3e 0 ra 0 4).toNat 0
    else .done (setEng s e { g with tp := wd (bitsOf (reg g ra).toNat 7 8 * 128) })

end Sys2Proof.Machine
end

