-- ==== Sys2Proof/Machine/UnitWord.lean ====
section
/-! DEFINITION. What a SET makes of a unit word: assigned values, the value an RW word takes, and ignored fields (R11, R171). -/
namespace Sys2Proof.Machine

/-- Values that the word maps name as not assigned, or bits that must be 0, inside a field's range: x in the field at bit lo of word
w of unit u. They are engine numbers 0xC0 to 0xFE (R389, R619), cycles 8 to 14 (R568), and the low bits of aligned addresses (R124, R266, R346,
R440, R642), and test pattern 7
(R659). -/
def valueGap (u w lo x : Nat) : Bool :=
  if (u = 0x0a ∧ w = 0x126) ∨ (u = 0x18 ∧ w = 0x10) then 0xc0 ≤ x && x < 0xff
  else if u = 0x15 ∧ ((0x100 ≤ w ∧ w < 0x120 ∧ w % 4 = 0 ∧ lo = 4) ∨ (0x140 ≤ w ∧ w < 0x150 ∧ lo = 5)) then 8 ≤ x && x < 15
  else if (u = 5 ∧ w = 0xb3) ∨ (u = 9 ∧ w = 0x19) ∨ (u = 0x19 ∧ (w = 0x121 ∨ w = 0x131)) then x % 64 != 0
  else if u = 9 ∧ w = 0x15 then x % 2048 != 0
  else if u = 0x19 ∧ w = 0x12 then x % 256 != 0
  else if u = 0x0d ∧ 0x200 ≤ w ∧ w % 4 = 1 then x % 16384 != 0
  else if u = 8 ∧ w = 0x20 ∧ lo = 2 then 256 < x
  else if u = 0x13 ∧ (w = 0x80 ∨ w = 0x88) ∧ lo = 1 then x == 0 || 500000 < x
  else if u = 0x1b ∧ w = 0x10 ∧ lo ≤ 3 then x == 7
  else false

/-- Whether a row of a word map assigns the value that word v of unit u gives its field at word w (R171). -/
def FieldRow.assigns (r : FieldRow) (u w v : Nat) : Bool :=
  r.amin ≤ bitsOf v r.lo r.w && bitsOf v r.lo r.w ≤ r.amax && !valueGap u w r.lo (bitsOf v r.lo r.w)

/-- Event 0x3F_F04 of the unit of word a: the value v given to a field is not assigned (R171). -/
def unassigned (s : State) (a v : Nat) : State := emit2 s (uUnit a * 2 ^ 18 + 0x3ff04) a v

/-- The fields of word a that a SET writes at once (R11). -/
def rwRows (a : Nat) : List FieldRow := (rowsAt (uUnit a) (uWord a)).filter fun r => r.acc == .rw

/-- The value of word a after a SET of v at once: an RW field takes an assigned value and keeps what it holds otherwise, a W1C
bit clears where v has a 1, and every other field stays (R11, R171). -/
def setValue (s : State) (a v : Nat) : Nat :=
  (rowsAt (uUnit a) (uWord a)).foldl (fun w r =>
    match r.acc with
    | .rw => if r.assigns (uUnit a) (uWord a) v then putBits w r.lo r.w (bitsOf v r.lo r.w) else w
    | .w1c => putBits w r.lo r.w (bitsOf w r.lo r.w - (bitsOf w r.lo r.w &&& bitsOf v r.lo r.w))
    | _ => w) (rdW s a).toNat

/-- Word a set to v at once, with an event for each field whose value is not assigned (R171). -/
def setNow (s : State) (a v : Nat) : State :=
  ((rwRows a).filter fun r => !r.assigns (uUnit a) (uWord a) v).foldl (fun s r => unassigned s a (bitsOf v r.lo r.w)) (wrW s a (wd (setValue s a v)))

/-- Whether every RW field of word a has an assigned value in v. -/
def assigned (a v : Nat) : Bool := (rwRows a).all fun r => r.assigns (uUnit a) (uWord a) v

end Sys2Proof.Machine
end

