-- ==== Sys2Proof/Machine/Flow.lean ====
section
/-! DEFINITION. FLOW: flow records, the policer, the exact-match table and its requests (R414 to R424). -/
namespace Sys2Proof.Machine

/-! ## Credits -/

/-- Units of a credit in a byte: a rate of 64 kb/s adds one unit each tick of 1.6 ns (R417, R448). -/
def perByte : Int := 78125

/-- What a credit holds at tick t: it has risen at the rate, never above the burst of so many bytes (R417, R448). -/
def creditAt (c : Credit) (rate burst t : Nat) : Int := min (burst * perByte) (c.v + rate * (t - c.t : Nat))

/-- A credit of so many bytes at tick t. -/
def creditFull (burst t : Nat) : Credit := ⟨burst * perByte, t⟩

/-- A credit that has never been written. -/
def creditReset : Credit := ⟨0, 0⟩

/-- A signed number of units as whole bytes, as a 24-bit register shows it. -/
def creditBytes (v : Int) : Nat := unsext (v / perByte) 24

/-! ## The policer -/

/-- Counter kinds of FLOW, per flow: frames and bytes green, yellow and red, discards by YACT and by RACT, frames to the
flow's program (R421). -/
def kFlowFrames (colour : Nat) : Nat := colour

/-- Bytes of a colour, per flow (R421). -/
def kFlowBytes (colour : Nat) : Nat := 3 + colour

/-- Discards by YACT, per flow (R421). -/
def kFlowYact : Nat := 6

/-- Discards by RACT, per flow (R421). -/
def kFlowRact : Nat := 7

/-- Frames to the flow's program (R421). -/
def kFlowProg : Nat := 8

/-- Frames that reach a flow that is not valid, per source (R416). -/
def kFlowInvalid : Nat := 9

/-- Frames that meet FLOW disabled, per source (R422). -/
def kFlowDisabled : Nat := 10

/-- Frames that a program drops, per flow (R149). -/
def kFlowDropped : Nat := 11

/-- Committed credit of flow f now, in units (R417). -/
def flowC (s : State) (f : Nat) : Int :=
  let r := flowRec s f
  let c := tget (fun _ => creditReset) s.flow.c f
  if r.polen then creditAt c r.cir r.cbs s.sys.ticks else c.v

/-- Peak credit of flow f now, in units (R417). -/
def flowP (s : State) (f : Nat) : Int :=
  let r := flowRec s f
  let c := tget (fun _ => creditReset) s.flow.p f
  if r.polen then creditAt c r.pir r.pbs s.sys.ticks else c.v

/-- Both credits of flow f given values from now on. -/
def setCredits (s : State) (f : Nat) (c p : Int) : State :=
  { s with flow := { s.flow with
      c := tset (fun _ => creditReset) s.flow.c f ⟨c, s.sys.ticks⟩
      p := tset (fun _ => creditReset) s.flow.p f ⟨p, s.sys.ticks⟩ } }

/-- The colour of a frame of flow f decided now: 0 green, 1 yellow, 2 red (R416, R417). -/
def colourOf (s : State) (f : Nat) : Nat :=
  if !(flowRec s f).polen then 0
  else if flowP s f < 0 then 2
  else if flowC s f < 0 then 1
  else 0

/-- The charge of a frame of so many bytes, FCS included, that had this colour (R417); its bytes are counted (R421). -/
def chargeFlow (s : State) (f colour len : Nat) : State :=
  let s := count s 0xc (kFlowBytes colour) f len
  if !(flowRec s f).polen || colour = 2 then s
  else setCredits s f (if colour = 0 then flowC s f - len * perByte else flowC s f) (flowP s f - len * perByte)

/-! ## The exact-match table -/

/-- A 320-bit key or mask from 14 words as R413 lays them out. -/
def key320 (w : Nat → Nat) : Nat :=
  (List.range 13).foldl (fun n j => n + w j * 2 ^ (296 - 24 * j)) 0 + bitsOf (w 13) 16 8

/-- The mask of key profile k (R414). -/
def profMask (s : State) (k : Nat) : Nat := key320 fun j => rdF s fFLOW_KPMSK_M 0 (16 * k + j)

/-- The table's key for a 320-bit key under profile k (R414). -/
def emKey (k key : Nat) : Nat := k * 2 ^ 320 + key

/-- The flow a key names under profile k (R414). -/
def emFind (s : State) (k key : Nat) : Option Nat := tget (fun _ => none) s.flow.keys (emKey k key)

/-- The staged profile and key; the key is masked as its profile's mask in effect masks every key (R414, R423, assumption log
9, DEDUCED). -/
def stagedKey (s : State) : Nat × Nat :=
  let k := rdF s fFLOW_EMPROF_KPROF
  (k, (key320 fun j => rdF s fFLOW_EMKEY_K 0 j) &&& profMask s k)

/-- An exact-match key set or taken out, and the count of its profile (R415, R423). -/
def setKey (s : State) (k key : Nat) (v : Option Nat) : State :=
  let old := emFind s k key
  let s := { s with flow := { s.flow with keys := tset (fun _ => none) s.flow.keys (emKey k key) v } }
  wrF s fFLOW_KPCNT_N (rdF s fFLOW_KPCNT_N 0 k + b2n v.isSome - b2n old.isSome) 0 k

/-! ## Requests -/

/-- A request of FGO with its operation: refused while another runs, else its effect and the result it will give
(R423, R424). -/
def flowRequest (s : State) (e : Nat) (op : Nat) (v : Word) (f : State → State × Nat) : Out :=
  if bitsOf v.toNat 0 4 ≠ op then .next s
  else onSet s e (fAddr fFLOW_FGO_OP 0 0) v fun s =>
    if s.flow.op.isSome then result s fFLOW_FRES_STATE (1 + 2 * 1)
    else
      let r := f s
      { r.1 with flow := { r.1.flow with op := some r.2 } }

/-- The staged record (R416, R423). -/
def stagedRec (s : State) : FlowRec :=
  { valid := onF s fFLOW_FREC0_VALID, progen := onF s fFLOW_FREC0_PROGEN, prog := rdF s fFLOW_FREC0_PROG,
    polen := onF s fFLOW_FREC0_POLEN, yact := onF s fFLOW_FREC0_YACT, ract := onF s fFLOW_FREC0_RACT,
    queue := rdF s fFLOW_FREC1_QUEUE, txsc := rdF s fFLOW_FREC1_TXSC, cir := rdF s fFLOW_FREC2_CIR,
    cbs := rdF s fFLOW_FREC3_CBS, pir := rdF s fFLOW_FREC4_PIR, pbs := rdF s fFLOW_FREC5_PBS }

/-- The record of flow f replaced; RSTCR fills the credits, otherwise each keeps its value, capped at its new burst
(R416, R420). -/
def writeRec (s : State) (f : Nat) (r : FlowRec) (rst : Bool) : State :=
  let c := if rst then r.cbs * perByte else if r.polen then min (r.cbs * perByte) (flowC s f) else flowC s f
  let p := if rst then r.pbs * perByte else if r.polen then min (r.pbs * perByte) (flowP s f) else flowP s f
  setCredits { s with flow := { s.flow with recs := tset (fun _ => flowReset) s.flow.recs f r } } f c p

/-- FGO WRITE (R416, R420, R423). -/
def execFlowRecordWrite (e : Eng) (v : Word) (s : State) : Out :=
  flowRequest s e 1 v fun s =>
    (writeRec s (rdF s fFLOW_FSEL_FLOW) (stagedRec s) (onF s fFLOW_FREC0_RSTCR), 0)

/-- FGO READ: the record goes into the staging words; RSTCR, which no record holds, stays as it is staged (R423). -/
def execFlowRecordRead (e : Eng) (v : Word) (s : State) : Out :=
  flowRequest s e 2 v fun s =>
    let r := flowRec s (rdF s fFLOW_FSEL_FLOW)
    let s := wrW s (fAddr fFLOW_FREC0_VALID 0 0)
      (wd (b2n r.valid + 2 * b2n r.progen + 4 * r.prog + 256 * b2n r.polen + 512 * b2n r.yact + 1024 * b2n r.ract +
        2048 * rdF s fFLOW_FREC0_RSTCR))
    let s := wrW s (fAddr fFLOW_FREC1_QUEUE 0 0) (wd (r.queue + 2 ^ 14 * r.txsc))
    let s := wrF (wrF s fFLOW_FREC2_CIR r.cir) fFLOW_FREC3_CBS r.cbs
    (wrF (wrF s fFLOW_FREC4_PIR r.pir) fFLOW_FREC5_PBS r.pbs, 0)

/-- FGO INSERT: the staged key names FSEL's flow from now on. A key that is present is refused, and so is one for which there
is no place: the table is full, or it holds 114,688 keys or more and both candidate buckets are full, which the spec leaves
to the moment (R415, R423, assumption log 2). -/
def execExactMatchInsert (e : Eng) (v : Word) (s : State) : Out :=
  flowRequest s e 3 v fun s =>
    let k := stagedKey s
    if (emFind s k.1 k.2).isSome then (s, 1 + 2 * 3)
    else if 131072 ≤ s.flow.keys.length then (s, 1 + 2 * 2)
    else if s.flow.keys.length < 114688 then (setKey s k.1 k.2 (some (rdF s fFLOW_FSEL_FLOW)), 0)
    else
      let b := takeBool s
      if b.1 then (b.2, 1 + 2 * 2) else (setKey b.2 k.1 k.2 (some (rdF s fFLOW_FSEL_FLOW)), 0)

/-- FGO DELETE (R415, R423). -/
def execExactMatchDelete (e : Eng) (v : Word) (s : State) : Out :=
  flowRequest s e 4 v fun s =>
    let k := stagedKey s
    if (emFind s k.1 k.2).isSome then (setKey s k.1 k.2 none, 0) else (s, 1 + 2 * 4)

/-- FGO LOOKUP (R423). -/
def execExactMatchLookup (e : Eng) (v : Word) (s : State) : Out :=
  flowRequest s e 5 v fun s =>
    let k := stagedKey s
    match emFind s k.1 k.2 with
    | some f => (s, 16 * f)
    | none => (s, 1 + 2 * 4)

/-- The running request completes and FRES is ready (R424). -/
def execFlowOpComplete (s : State) : Out :=
  match s.flow.op with
  | some r => if live s then .next (result { s with flow := { s.flow with op := none } } fFLOW_FRES_STATE r) else .next s
  | none => .next s

end Sys2Proof.Machine
end

