-- ==== Sys2Proof/Machine/Tree.lean ====
section
/-! DEFINITION. The scheduling tree: nodes, paths, traffic classes, critical queues, and where the frames of a flow are bound
(R212, R213, R271, R425, R442, R443). -/
namespace Sys2Proof.Machine

/-- A node at reset: detached, weight 1 (R459). -/
def nodeReset : Node := { att := false, parent := 0, weight := 1, cls := 0, cir := 0, cbs := 0, pir := 0, pbs := 0 }

/-- The attachment of queue q. -/
def sqNode (s : State) (q : Nat) : Node := tget (fun _ => nodeReset) s.sch.sq q

/-- Subscriber node b. -/
def sbNode (s : State) (b : Nat) : Node := tget (fun _ => nodeReset) s.sch.sb b

/-- Service node v; its parent is its port node. -/
def svNode (s : State) (v : Nat) : Node := tget (fun _ => nodeReset) s.sch.sv v

/-- The path of queue q while it is attached whole: subscriber node, service node, port node (R443). -/
def pathOf (s : State) (q : Nat) : Option (Nat × Nat × Nat) :=
  let a := sqNode s q
  let b := sbNode s a.parent
  let v := svNode s b.parent
  if a.att && b.att && v.att then some (a.parent, b.parent, v.parent) else none

/-- The traffic class of queue q (R442). -/
def qClass (s : State) (q : Nat) : Nat := (sqNode s q).cls

/-- Whether class c is a scheduled-gate class or an express class at port node n (R444). -/
def protectedClass (s : State) (n c : Nat) : Bool :=
  bitOf (rdF s fSCH_PNCFG_GCLASS n) c || (n < 32 && onF s fMAC_MPRE_PREN n && !bitOf (rdF s fMAC_MPRE_PCLASS n) c)

/-- Hints of object index of a kind (R224). -/
def hintsOf (s : State) (kind index : Nat) : Nat := tget (fun _ => 0) s.plc.hints (kind * 2 ^ 20 + index)

/-- Whether queue q is critical (R212). -/
def critical (s : State) (q : Nat) : Bool :=
  bitOf (hintsOf s 2 q) 1 || (match pathOf s q with | some (_, _, n) => protectedClass s n (qClass s q) | none => false)

/-- The spill group of queue q (R209). -/
def groupOf (s : State) (q : Nat) : Nat := tget (fun _ => 0) s.plc.group q

/-- The channel an allocation port node belongs to (R270). -/
def nodeChan (n : Nat) : Option Nat := if 32 ≤ n then some ((n - 32) / 24) else none

/-- The channel that upstream bucket b names (R213). -/
def bucketChan (s : State) (b : Nat) : Nat := tget (fun _ => 0) s.plc.bucket b

/-- Whether queue q lies below an allocation of the PON. -/
def ponQueue (s : State) (q : Nat) : Bool := (pathOf s q).any fun p => 32 ≤ p.2.2

/-- Whether QUEUE's egress is the PON: a multiple of 4 of whose four queues one lies below an allocation (R271). -/
def ponEgress (s : State) (q : Nat) : Bool := q % 4 == 0 && (List.range 4).any fun c => ponQueue s (q + c)

/-- The queue that a frame with this QUEUE and hash enters, or none where it is unplaced (R271, R425). -/
def queueFor (s : State) (q hash : Nat) : Option Nat :=
  if 16376 ≤ q then none
  else if ponEgress s q then
    let c := bucketChan s (hash % 4096)
    if (pathOf s (q + c)).any (fun p => nodeChan p.2.2 == some c) then some (q + c) else none
  else some q

end Sys2Proof.Machine
end

