-- ==== Sys2Proof/Machine/Qm.lean ====
section
/-! DEFINITION. Queues and the buffer shelf: admission, commit, rewind, spill, host rings, pause requests (R425 to R441). -/
namespace Sys2Proof.Machine

/-! ## Flights -/

/-- The frame numbered f inside the module. -/
def flight (s : State) (f : Nat) : Option Flight := s.flights.find? fun x => x.id == f

/-- A frame inside the module replaced. -/
def setFlight (s : State) (x : Flight) : State :=
  { s with flights := s.flights.map fun y => if y.id = x.id then x else y }

/-- A frame taken out of those inside the module. -/
def dropFlight (s : State) (f : Nat) : State := { s with flights := s.flights.filter fun x => x.id != f }

/-- A frame brought into the module under the next number. -/
def addFlight (s : State) (x : Flight) : State :=
  { s with flights := s.flights ++ [{ x with id := s.nextId }], nextId := s.nextId + 1 }

/-- Cells of a frame inside the module. -/
def flightCells (x : Flight) : Nat := cellsOf x.frame.bytes.length

/-! ## Counts -/

/-- Counter kinds of QM, per queue (R441): frames admitted. -/
def kQmFrames : Nat := 0
/-- Cells admitted. -/
def kQmCells : Nat := 1
/-- Drops of a colour. -/
def kQmDrop (colour : Nat) : Nat := 2 + colour
/-- Shelf-full refusals. -/
def kQmShelf : Nat := 5
/-- Spill-full refusals. -/
def kQmSpillFull : Nat := 6
/-- Frames for a queue or a QM that is disabled, or a queue that does not admit after an error. -/
def kQmDisabled : Nat := 7
/-- Rewinds of a cause 1 to 4 (R430). -/
def kQmRewind (cause : Nat) : Nat := 7 + cause
/-- Poisoned frames (R427). -/
def kQmPoison : Nat := 12
/-- Cells spilled. -/
def kQmCellsOut : Nat := 13
/-- Blocks spilled. -/
def kQmBlocksOut : Nat := 14
/-- Cells read back. -/
def kQmCellsIn : Nat := 15
/-- Blocks read back. -/
def kQmBlocksIn : Nat := 16
/-- Pause requests, per port and class. -/
def kQmPause : Nat := 17
/-- Frames discarded with a queue's state (R428). -/
def kQmEcc : Nat := 18
/-- Returns of a host ring that were clamped, per host queue (R437). -/
def kQmClamped : Nat := 19
/-- Frames for a number that carries no traffic, per queue (R425). -/
def kQmUnplaced : Nat := 20
/-- Frames discarded by a host queue without a ring, per host queue (R440). -/
def kQmNoRing : Nat := 21
/-- Frames still queued at the drain bound, per queue (R439). -/
def kQmDrained : Nat := 22

/-! ## Depth and space -/

/-- The record of queue q (R440). -/
def qrecReset : QRec := { qen := true, maxc := 64, yf := 12, rf := 8, headb := 2 }

/-- The record of queue q in effect. -/
def qrec (s : State) (q : Nat) : QRec := tget (fun _ => qrecReset) s.qm.recs q

/-- Committed cells of queue q. -/
def committedCells (s : State) (q : Nat) : Nat := ((queue s q).frames.map fun f => f.cells).sum

/-- Admitted cells of queue q that are not committed. -/
def openCells (s : State) (q : Nat) : Nat :=
  ((s.flights.filter fun x => x.stage == 2 && x.dest == .sched q).map flightCells).sum

/-- D, the depth of queue q in cells (R434). -/
def depth (s : State) (q : Nat) : Nat := committedCells s q + openCells s q

/-- Cells of queue q's tail segment, uncommitted ones included. -/
def tailCells (s : State) (q : Nat) : Nat := depth s q - (queue s q).headc - 8 * (queue s q).blocks.length

/-- Whether QM holds a flight: admitted for a queue of its own, neither cut through at a MAC nor discarded before it (R170, R439). -/
def qmFlight (x : Flight) : Bool :=
  x.stage == 2 && (match x.dest with
    | .none => false
    | .cut _ _ => false
    | _ => true)

/-- Cells that lie on the shelf (R429, R431): every queue's but for its blocks in DRAM, frames of engine and host queues,
fence queues, and frames that are being written. -/
def shelfUsed (s : State) : Nat :=
  (s.qm.queues.map fun p => committedCells s p.1 - 8 * p.2.blocks.length).sum +
  ((s.flights.filter qmFlight).map flightCells).sum +
  (s.engs.map fun p => (p.2.frames.map fun f => cellsOf f.bytes.length).sum).sum +
  (s.qm.host.map fun p => (p.2.wait.map fun f => cellsOf f.bytes.length).sum).sum +
  (s.plc.moves.map fun m => (m.fence.map fun f => cellsOf f.bytes.length).sum).sum

/-- Cells of the shelf (R440). -/
def shelfCells : Nat := 1048576

/-- Free cells of the shelf (R440). -/
def shelfFree (s : State) : Nat := shelfCells - shelfUsed s

/-- Free cells of the shared pool: the shelf without its reserve (R435). -/
def sharedFree (s : State) : Nat := shelfCells - rdF s fQM_SHCFG_CRITRES * 256 - shelfUsed s

/-- Blocks that group g holds in its share of the spill area. -/
def groupBlocks (s : State) (g : Nat) : Nat :=
  (s.qm.queues.map fun p => (p.2.blocks.filter fun c => c / 4 == g).length).sum

/-- Blocks that a group's share of the spill area holds (R432, R462). -/
def groupShare (s : State) : Nat := rdF s fQM_SHCFG_SPILLGB * 2 ^ 30 / 8 / 512

/-- Whether queue q may spill (R212, R431, R440). -/
def maySpill (s : State) (q : Nat) : Bool := !critical s q && rdF s fQM_SHCFG_SPILLGB != 0

/-- Whether DRAM channel c is under notice or in pause (R433, R467). -/
def channelHeld (s : State) (c : Nat) : Bool :=
  rdF s fMEM_MSTAT_CH == c && (onF s fMEM_MSTAT_NOTICE || onF s fMEM_MSTAT_PAUSE)

/-- Whether DRAM channel c is in pause (R467). -/
def channelPaused (s : State) (c : Nat) : Bool := rdF s fMEM_MSTAT_CH == c && onF s fMEM_MSTAT_PAUSE

/-- Blocks of queue q that must come back before all of its oldest frame is in the head segment (R431). -/
def blocksNeeded (x : Queue) : Nat := min x.blocks.length (((x.frames.head?.map fun f => f.cells).getD 0 - x.headc + 7) / 8)

/-- The head of queue q waits for a block: it holds nothing, or its oldest frame needs a block that a paused channel holds (R433). -/
def notReady (s : State) (q : Nat) : Bool :=
  let x := queue s q
  x.blocks != [] && (x.headc == 0 || (x.blocks.take (blocksNeeded x)).any (channelPaused s))

/-! ## Head, blocks and tail -/

/-- Cells of the head segment of queue q at most (R431). -/
def headMax (s : State) (q : Nat) : Nat := (qrec s q).headb * 8

/-- With no block in DRAM, cells of the tail move up into the head segment (R431). -/
def fillHead (s : State) (q : Nat) : State :=
  let x := queue s q
  if x.blocks = [] then setQueue s q { x with headc := min (headMax s q) (committedCells s q) } else s

/-- The channel of group g that takes the next block: in turn, without one under notice (R431, R433). -/
def nextChannel (s : State) (g : Nat) : Nat :=
  let t := tget (fun _ => 0) s.qm.turn g
  4 * g + (((List.range 4).map fun k => (t + k) % 4).find? (fun k => !channelHeld s (4 * g + k))).getD t

/-- Committed cells behind queue q's head segment that lie on the shelf. -/
def behindHead (s : State) (q : Nat) : Nat := committedCells s q - (queue s q).headc - 8 * (queue s q).blocks.length

/-- Blocks written while more than 16 committed cells stand behind the head segment (R431). The first argument bounds the
number of blocks. -/
def spillOut : Nat → State → Nat → State
  | 0, s, _ => s
  | k + 1, s, q =>
    let g := groupOf s q
    if maySpill s q ∧ 16 < behindHead s q ∧ groupBlocks s g < groupShare s then
      let c := nextChannel s g
      let s := { s with qm := { s.qm with turn := tset (fun _ => 0) s.qm.turn g ((c + 1) % 4) } }
      let s := setQueue s q { queue s q with blocks := (queue s q).blocks ++ [c] }
      spillOut k (count (count s 0x0d kQmCellsOut q 8) 0x0d kQmBlocksOut q) q
    else s

/-- Queue q's segments after a change of its committed cells. -/
def settle (s : State) (q : Nat) : State := spillOut (behindHead s q / 8 + 1) (fillHead s q) q

/-! ## Pause requests -/

/-- Cells held in scheduler queues for frames of ingress port p whose queue has class c (R436). -/
def ingressCells (s : State) (p c : Nat) : Nat :=
  (s.qm.queues.map fun x => if qClass s x.1 = c then
    ((x.2.frames.filter fun f => f.port == some p).map fun f => f.cells).sum else 0).sum +
  ((s.flights.filter fun x => x.stage == 2 && x.port == some p &&
    (match x.dest with | .sched q => qClass s q == c | _ => false)).map flightCells).sum

/-- Whether QM asks MAC p for a pause of class c (R436). -/
def asked (s : State) (p c : Nat) : Bool := tget (fun _ => false) s.qm.asked (8 * p + c)

/-- A MAC at reset (R315, R320, R335). -/
def macReset : MacP :=
  { ex := none, pr := none, cur := none, rxEx := none, rxPr := none, hold := false, tries := 0, oper := none, wait := none,
    gates := [], sent := [], stomped := false, pauseSent := none, pauseAt := 0, till := [],
    since := [], verAt := 0, verifySent := 0, respondSent := 0 }

/-- The MAC of port p. -/
def macP (s : State) (p : Nat) : MacP := tget (fun _ => macReset) s.mac p

/-- The MAC of port p replaced. -/
def setMac (s : State) (p : Nat) (m : MacP) : State := { s with mac := tset (fun _ => macReset) s.mac p m }

/-- Counter kind of MAC: pause frames sent, per port. -/
def kMacPauseSent : Nat := 20

/-- The MAC of port p sends a PAUSE or PFC frame for what QM asks, if it sends them at all (R328). -/
def sendPause (s : State) (p : Nat) : State :=
  let cs := (List.range 8).foldl (fun n c => n + b2n (asked s p c) * 2 ^ c) 0
  if cs = 0 ∨ !active s 8 p then s
  else if onF s fMAC_MCFG_PAUSEEN p then
    count (setMac s p { macP s p with pauseSent := some (255, rdF s fMAC_PQUANTA_Q p), pauseAt := s.sys.ticks }) 8 kMacPauseSent p
  else if onF s fMAC_MCFG_PFCEN p then
    count (setMac s p { macP s p with pauseSent := some (cs, rdF s fMAC_PQUANTA_Q p), pauseAt := s.sys.ticks }) 8 kMacPauseSent p
  else s

/-- QM's request for port p and class c after a change; a new one is sent at once (R328, R436). -/
def pauseCheck (s : State) (p c : Nat) : State :=
  let n := ingressCells s p c
  let x := rdF s fQM_IGX_XOFF 0 (2 * p)
  let set := fun b => { s with qm := { s.qm with asked := tset (fun _ => false) s.qm.asked (8 * p + c) b } }
  if asked s p c then (if x = 0 ∨ n ≤ rdF s fQM_IGN_XON 0 (2 * p) * 16 then set false else s)
  else if x ≠ 0 ∧ x * 16 ≤ n then sendPause (count (set true) 0x0d kQmPause (8 * p + c)) p
  else s

/-- The requests of a frame's ingress port after the frame's queue has changed. -/
def pauseFor (s : State) (port : Option Nat) (q : Nat) : State :=
  match port with
  | some p => pauseCheck s p (qClass s q)
  | none => s

/-! ## Host rings -/

/-- A host queue at reset. -/
def hostqReset : HostQ := { wait := [], filled := 0, head := 0 }

/-- Host queue H n. -/
def hostq (s : State) (n : Nat) : HostQ := tget (fun _ => hostqReset) s.qm.host n

/-- Entries of H n's ring (R440). -/
def ringSize (s : State) (n : Nat) : Nat := rdF s fQM_HQCFG_ENTRIES 0 (4 * n)

/-- First byte of entry k of H n's ring (R437, R440). -/
def ringEntry (s : State) (n k : Nat) : Nat :=
  rdF s fQM_HQBASEH_BASE 0 (4 * n) * 2 ^ 24 + rdF s fQM_HQBASEL_BASE 0 (4 * n) + k * 16384

/-- A frame as the packet window or a host ring's entry describes it (R150). -/
def frameWin (f : Frame) : Window :=
  { idle := false, frag := f.frag, poison := f.poison, trunc := decide (12288 < f.bytes.length), fixcs := false,
    len := min f.bytes.length 12288, source := f.source, flow := f.flow, colour := f.colour, queue := f.queue,
    txsc := f.txsc, mark := f.mark, action := f.action, hdr := f.hdr, orig := [], hash := f.hash,
    buf := ((f.bytes.take 12288).mapIdx fun k b => (k, b)).filter (fun p => p.2 != 0), tail := f.bytes.drop 12288, got := 0,
    full := min f.bytes.length 12288 }

/-- The header cell of an entry: descriptor words 0x00 to 0x0F, then zeros (R437). -/
def ringHeader (w : Window) : List Byte :=
  ((List.range 16).map fun i => wordBytes (descWord w i)).flatten ++ List.replicate 16 0

/-- The HQCNT result of H n after a change (R438). -/
def hqcnt (s : State) (n : Nat) : State :=
  result s fQM_HQCNT_FRAMES ((hostq s n).filled + 2 ^ 11 * (hostq s n).head) 0 n

/-- Host queue H n replaced. -/
def setHostq (s : State) (n : Nat) (h : HostQ) : State :=
  { s with qm := { s.qm with host := tset (fun _ => hostqReset) s.qm.host n h } }

/-- The idle item written into entry k of H n's ring (R437). -/
def idleEntry (s : State) (n k : Nat) : State := deviceWrite s (ringEntry s n k) (ringHeader idleWin)

/-- A frame written into the next entry of H n's ring, its bytes first and its header last (R437). -/
def deliverHost (s : State) (n : Nat) (f : Frame) : State :=
  let h := hostq s n
  let a := ringEntry s n ((h.head + h.filled) % ringSize s n)
  let s := deviceWrite s (a + 64) (f.bytes.take 12288)
  let s := deviceWrite s a (ringHeader (frameWin f))
  hqcnt (setHostq s n { h with filled := h.filled + 1 }) n

/-- Waiting frames of H n delivered while its ring has room. The first argument bounds their number. -/
def drainHost : Nat → State → Nat → State
  | 0, s, _ => s
  | k + 1, s, n =>
    match (hostq s n).wait with
    | [] => s
    | f :: l =>
      if (hostq s n).filled < ringSize s n then
        drainHost k (deliverHost (setHostq s n { hostq s n with wait := l }) n f) n
      else s

/-! ## Admission, commit, rewind -/

/-- Why a first cell bound for scheduler queue q is turned away: the counter kind of the refusal (R434, R435, R439). -/
def queueRefusal (s : State) (q colour : Nat) : Option Nat :=
  let r := qrec s q
  let limit := r.maxc * 1024
  if !active s 0x0d 0 || !r.qen || (queue s q).rebuild then some kQmDisabled
  else if (if colour = 0 then limit else limit * (if colour = 1 then r.yf else r.rf) / 16) ≤ depth s q then some (kQmDrop colour)
  else if shelfFree s = 0 then some kQmShelf
  else if !critical s q && (sharedFree s < 512 || (2048 ≤ tailCells s q && maySpill s q)) then some kQmShelf
  else if maySpill s q && groupShare s ≤ groupBlocks s (groupOf s q) then some kQmSpillFull
  else none

/-- Why a first cell bound for a queue of depth d that is no scheduler queue is turned away, under the limits of record r
(R435). -/
def otherRefusal (s : State) (r : QRec) (d colour : Nat) : Option Nat :=
  let limit := r.maxc * 1024
  if !active s 0x0d 0 || !r.qen then some kQmDisabled
  else if (if colour = 0 then limit else limit * (if colour = 1 then r.yf else r.rf) / 16) ≤ d then some (kQmDrop colour)
  else if shelfFree s = 0 then some kQmShelf
  else none

/-- Cells admitted for a destination and not yet committed. -/
def openFor (s : State) (d : Dest) : Nat := ((s.flights.filter fun x => x.stage == 2 && x.dest == d).map flightCells).sum

/-- Cells of a list of frames. -/
def framesCells (l : List Frame) : Nat := (l.map fun f => cellsOf f.bytes.length).sum

/-- Objects of QM's counters for what is no scheduler queue: engine queues from 0x8000 (assumption log 7). -/
def qmObj : Dest → Nat
  | .sched q => q
  | .eng e => 0x8000 + e
  | .host n => 16376 + n
  | _ => 0x9000

/-- A frame rewound: it is as though it had never come (R430). One that is bound for nothing any more just ends. -/
def rewind (s : State) (x : Flight) : State :=
  let s := dropFlight s x.id
  match x.dest with
  | .none => s
  | .sched q => pauseFor (count s 0x0d (kQmRewind x.bad) q) x.port q
  | d => count s 0x0d (kQmRewind x.bad) (qmObj d)

/-- A frame refused at its first cell. -/
def refuseFlight (s : State) (x : Flight) (kind : Nat) : State := count (dropFlight s x.id) 0x0d kind (qmObj x.dest)

/-- A frame whose first cell is admitted; one that has already gone bad is rewound at once (R429, R430). -/
def admitFlight (s : State) (x : Flight) : State :=
  let s := setFlight s { x with stage := 2 }
  let s := count (count s 0x0d kQmFrames (qmObj x.dest)) 0x0d kQmCells (qmObj x.dest) (flightCells x)
  let s := match x.dest with | .sched q => pauseFor s x.port q | _ => s
  if x.bad ≠ 0 then rewind s { x with stage := 2 } else s

/-- The running move of an object (R216). -/
def moveOf (s : State) (kind index : Nat) : Option Move := s.plc.moves.find? fun m => m.kind == kind && m.index == index

/-- Number of an object among those that fence: flows, then buckets (R216). -/
def fenceKey (m : Move) : Nat := m.kind * 2 ^ 20 + m.index

/-- Cells that a move's fence queue holds, those admitted and not yet committed among them (R216). -/
def fenceCells (s : State) (m : Move) : Nat :=
  framesCells m.fence + ((s.flights.filter fun x => x.stage == 2 && x.dest == .fence (fenceKey m)).map flightCells).sum

/-- Counter kind of SCH: frames held in queues whose path is broken, per queue (R443). -/
def kSchDetached : Nat := 8

/-- n frames of queue q counted as held-detached where its path is broken (R443). -/
def noteDetached (s : State) (q n : Nat) : State := if (pathOf s q).isSome then s else count s 0x0e kSchDetached q n

/-- A frame that arrives in a queue of a dozing channel ends the doze (R276). -/
def endDoze (s : State) (q : Nat) : State :=
  match (pathOf s q).bind fun p => nodeChan p.2.2 with
  | some c => if rdF s fPON_CHSTAT_PSM c = 1 then wrF s fPON_CHSTAT_PSM 0 c else s
  | none => s

/-- A frame at the end of scheduler queue q (R276, R429, R431, R443). -/
def enterQueue (s : State) (q : Nat) (f : QFrame) : State := settle (pushQueue (endDoze (noteDetached s q 1) q) q f) q

/-- The fenced frames of a move put at the end of what its place holds: an engine's queue, or for a bucket the queues of its channel (R216, R217,
R271). -/
def releaseFence (s : State) (m : Move) (place : Nat) : State :=
  if m.kind = 0 then releaseFlow s m (some place)
  else m.fence.foldl (fun s f => enterQueue s (f.queue + place) (qframe s f none 0)) s

/-- A move reverts (R217). -/
def revertMove (s : State) (m : Move) (cause : Nat) : State :=
  noteReverted (releaseFence (dropMove s m) m m.source) m cause

/-- The first cell of frame f is admitted or decided against (R425, R434, R435, R437, R439). A fence queue takes it while it
holds at most 2,048 cells; a full one reverts its move (R216, R217). A frame for an engine that is lost by now goes where its flow stands (R220). -/
def execQmAdmit (f : Nat) (s : State) : Out :=
  match flight s f with
  | none => .next s
  | some x =>
    if x.stage ≠ 1 ∨ !live s then .next s
    else match x.dest with
    | .sched q =>
      if 16376 ≤ q then .next (refuseFlight s x kQmUnplaced)
      else match queueRefusal s q x.frame.colour with
        | some k => .next (refuseFlight s x k)
        | none => .next (admitFlight s x)
    | .eng e =>
      let e' := if x.decided && !engLives s e then flowEngine s x.frame.flow else some e
      match e' with
      | none => .next (count (dropFlight s f) 2 kPlcUnplaced (flowRec s x.frame.flow).prog)
      | some e =>
        match otherRefusal s qrecReset (framesCells (eng s e).frames + openFor s (.eng e)) x.frame.colour with
        | some k => .next (refuseFlight s { x with dest := .eng e } k)
        | none => .next (admitFlight s { x with dest := .eng e })
    | .host n =>
      if ringSize s n = 0 then .next (count (dropFlight s f) 0x0d kQmNoRing n)
      else if (queue s (16376 + n)).rebuild then .next (refuseFlight s x kQmDisabled)
      else match otherRefusal s (qrec s (16376 + n)) (framesCells (hostq s n).wait + openFor s (.host n)) x.frame.colour with
        | some k => .next (refuseFlight s x k)
        | none => .next (admitFlight s x)
    | .fence k =>
      match s.plc.moves.find? fun m => fenceKey m == k with
      | some m =>
        if 2048 < fenceCells s m + flightCells x then
          let s := revertMove s m 2
          let d := if m.kind = 0 then Dest.eng m.source else .sched (x.frame.queue + m.source)
          .next (admitFlight s { x with dest := d })
        else .next (admitFlight s x)
      | none =>
        if k < 2 ^ 20 then
          (match flowEngine s k with
          | some e => .next (admitFlight s { x with dest := .eng e })
          | none => .next (count (dropFlight s f) 2 kPlcUnplaced (flowRec s k).prog))
        else .next (admitFlight s { x with dest := .sched (x.frame.queue + bucketChan s (k % 2 ^ 20)) })
    | .cut _ _ => .next s
    | .none => .next (dropFlight s f)

/-- Whether every far load a frame waits for has returned and has passed its seal check (R106). -/
def sealsDone (s : State) (f : Frame) : Bool :=
  f.waits.all fun w =>
    let g := eng s (w / 2 ^ 64)
    !(g.unchecked.any fun u => u.1 == w % 2 ^ 64) && !(g.far.any fun x => x.serial == w % 2 ^ 64)

/-- A committed frame in its place (R429, R437). -/
def commitFrame (s : State) (x : Flight) : State :=
  let s := if x.frame.poison then count s 0x0d kQmPoison (qmObj x.dest) else s
  match x.dest with
  | .sched q => enterQueue s q (qframe s x.frame x.port x.cls)
  | .eng e => pushEng s e x.frame
  | .host n => drainHost 1 (setHostq s n { hostq s n with wait := (hostq s n).wait ++ [x.frame] }) n
  | .fence k =>
    (match s.plc.moves.find? fun m => fenceKey m == k with
    | some m =>
      let s := count s 2 kPlcFence (m.kind * 2 ^ 17 + m.index) (flightCells x)
      { s with plc := { s.plc with moves := s.plc.moves.map fun y =>
          if y.kind = m.kind ∧ y.index = m.index then { y with fence := y.fence ++ [x.frame] } else y } }
    | none =>
      if k < 2 ^ 20 then
        (match flowEngine s k with
        | some e => pushEng s e x.frame
        | none => count s 2 kPlcUnplaced (flowRec s k).prog)
      else enterQueue s (x.frame.queue + bucketChan s (k % 2 ^ 20)) (qframe s x.frame x.port x.cls))
  | _ => s

/-- Whether a destination's frames leave the shelf otherwise than by SCH: a word that fails its parity poisons them as they are read (R427). -/
def readWhole : Dest → Bool
  | .eng _ => true
  | .host _ => true
  | _ => false

/-- The last cell of frame f is in place and its ICV and the seals it waits for are known: it becomes visible (R106, R356,
R429). Parity tells whether a word of a frame of an engine or host queue will fail its check as it is read from the shelf (R427). -/
def execQmFrameCommit (c : LastCell) (s : State) : Out :=
  match flight s c.f with
  | none => .next s
  | some x =>
    if x.stage = 2 ∧ x.ended ∧ x.bad = 0 ∧ x.icv = .none ∧ sealsDone s x.frame ∧ live s then
      .next (commitFrame (dropFlight s c.f) (if c.parity && readWhole x.dest then { x with frame := { x.frame with poison := true } } else x))
    else .next s

/-! ## Dequeue, read-back, errors -/

/-- The oldest frame of scheduler queue q taken out: its cells leave the head segment, then blocks read back, then the tail
(R431). -/
def popQueue (s : State) (q : Nat) : Option (QFrame × State) :=
  let x := queue s q
  match x.frames with
  | [] => none
  | f :: l =>
    let nb := blocksNeeded x
    let h := x.headc + 8 * nb - f.cells
    let s := if nb = 0 then s else count (count s 0x0d kQmCellsIn q (8 * nb)) 0x0d kQmBlocksIn q nb
    let s := setQueue s q { x with frames := l, headc := h, blocks := x.blocks.drop nb }
    some (f, pauseFor (settle s q) f.port q)

/-- The oldest block of queue q returns to its head segment: the segment has room, or its channel is under notice and the shared pool has room,
as has a queue that has become critical (R218, R431, R433). A block of a paused channel waits. A block whose seal fails halts the module (R432);
where in the spill area QM had put it is not stated and is a free value (assumption log 2). -/
def execSpillReadback (q : Fin 16384) (ok : Bool) (s : State) : Out :=
  let x := queue s q
  match x.blocks with
  | [] => .next s
  | c :: l =>
    if !live s || channelPaused s c || !(x.headc + 8 ≤ headMax s q || ((channelHeld s c || critical s q) && 8 ≤ sharedFree s)) then .next s
    else if !ok then 
      let h := takeFree s
      let l := takeFree h.2
      .next (sealFault l.2 0x400010 (h.1 * 2 ^ 24 + l.1) 0x10)
    else
      let s := count (count s 0x0d kQmCellsIn q 8) 0x0d kQmBlocksIn q
      .next (settle (setQueue s q { x with headc := x.headc + 8, blocks := l }) q)

/-- An uncorrectable error of queue q's state: its frames are discarded and counted, event 0x340_011, a class L fault of the
memory system; the queue admits again once the recovery ends (R428). Numbers from 16,376 on are the host queues (R425). -/
def execQueueStateEccError (q : Fin 16384) (s : State) : Out :=
  if !live s then .next s
  else
    let d := if 16376 ≤ q.val then Dest.host (q - 16376) else .sched q
    let wait := if 16376 ≤ q.val then (hostq s (q - 16376)).wait else []
    let n := (queue s q).frames.length + wait.length + (s.flights.filter fun x => x.stage == 2 && x.dest == d).length
    let s := { s with flights := s.flights.filter fun x => !(x.stage == 2 && x.dest == d) }
    let s := if wait = [] then s else setHostq s (q - 16376) { hostq s (q - 16376) with wait := [] }
    let s := setQueue s q { queueReset with rebuild := true }
    let s := (List.range 32).foldl (fun s p => pauseCheck s p (qClass s q)) s
    .next (raiseFault (emit1 (count s 0x0d kQmEcc q n) 0x340011 q) 0x340011 13)

/-- HQDONE: entries of H n's ring are returned in ring order, never more than are filled; each holds the idle item again, and
waiting frames take the room (R437). -/
def execHqdoneWrite (e : Eng) (n : ChainI) (v : Word) (s : State) : Out :=
  onSet s e (fAddr fQM_HQDONE_N 0 (4 * n)) v fun s =>
    let h := hostq s n
    let k := bitsOf v.toNat 0 11
    let r := min k h.filled
    let s := if h.filled < k then count s 0x0d kQmClamped n else s
    let s := (List.range r).foldl (fun s j => idleEntry s n ((h.head + j) % ringSize s n)) s
    let s := setHostq s n { h with filled := h.filled - r, head := (h.head + r) % max 1 (ringSize s n) }
    drainHost h.wait.length (if r = 0 then s else hqcnt s n) n

end Sys2Proof.Machine
end

