-- ==== Sys2Proof/Machine/Ports.lean ====
section
/-! DEFINITION. Port modes: which lanes make a port, its rate and its FEC (R295, R296, R298, R310). -/
namespace Sys2Proof.Machine

/-- Lanes of a mode code, 0 where the code is off or not assigned (R295). -/
def modeLanes (m : Nat) : Nat := [0, 1, 1, 2, 1, 4, 2, 4, 1].getD m 0

/-- Rate of a mode code in Gb/s (R295). -/
def modeRate (m : Nat) : Nat := [0, 25, 50, 100, 100, 200, 200, 400, 25].getD m 0

/-- Lane rate of a mode code: 1 for 25.78125, 2 for 53.125, 3 for 106.25 Gb/s (R295). -/
def modeLaneRate (m : Nat) : Nat := [0, 1, 2, 2, 3, 2, 3, 3, 1].getD m 0

/-- Whether a mode code may start at position j (R295). -/
def modeStarts (m j : Nat) : Bool :=
  if m = 3 ∨ m = 6 then j % 2 == 0 else if m = 5 ∨ m = 7 then j == 0 else m ≤ 8

/-- The mode code at position j of a GMODE word. -/
def modeAt (w j : Nat) : Nat := bitsOf w (4 * j) 4

/-- GMODE of lane l's group, as a number. -/
def gmode (s : State) (l : Nat) : Nat := (rdW s (fAddr fLANE_GMODE_MODE (l / 4 * 4) 0)).toNat

/-- The mode of port p, 0 where p has no lanes of its own (R295). -/
def portMode (s : State) (p : Nat) : Nat := if p < 32 then modeAt (gmode s p) (p % 4) else 0

/-- The port that lane l belongs to; a pair lane is a port of its own (R295, R307). -/
def portOf (s : State) (l : Nat) : Option Nat :=
  if 32 ≤ l then some l
  else ((List.range 4).find? fun j => j ≤ l % 4 && l % 4 < j + modeLanes (modeAt (gmode s l) j)).map fun j => l / 4 * 4 + j

/-- The lanes of port p, lowest first. -/
def portLanes (s : State) (p : Nat) : List Nat :=
  if 32 ≤ p then [p] else (List.range (modeLanes (portMode s p))).map fun k => p + k

/-- Whether port p runs a frame mode (R312). -/
def frameMode (s : State) (p : Nat) : Bool := 1 ≤ portMode s p && portMode s p ≤ 7

/-- Rate of port p in Gb/s. -/
def portRate (s : State) (p : Nat) : Nat := modeRate (portMode s p)

/-- Whether port p has FEC (R295, R307). -/
def portFec (s : State) (p : Nat) : Bool :=
  32 ≤ p || (if portMode s p = 1 ∨ portMode s p = 8 then bitOf (gmode s p) (16 + p % 4) else portMode s p != 0)

/-- Whether a pattern test or a loopback is set on a link (R666): lanes 0 to 33, PON channels from 34, the site bus 38. -/
def testing (s : State) (l : Nat) : Bool := onF s fTST_TSTAT_ACTIVE l

/-- Whether port p is up (R303). -/
def linkUp (s : State) (p : Nat) : Bool :=
  !(portLanes s p).isEmpty && (portLanes s p).all fun l => onF s fLANE_LSTAT_LINKUP l

/-- Whether the lanes of port p stay up in S1 and S2: KEEP stands in all of them; the pair lanes do while PAIR is enabled (R308). -/
def portKept (s : State) (p : Nat) : Bool :=
  if 32 ≤ p then rdC s ⟨0x17, 1, 0, 1⟩ 0x17 0 == 1 else (portLanes s p).all fun l => onF s fLANE_LCFG_KEEP l

/-- Whether lane l runs: the module is not halted, the crystal clocks it (R85), it belongs to a port, every instance of that port is ACTIVE, and
a sleep state leaves it up (R303, R308). -/
def laneRuns (s : State) (l : Nat) : Bool :=
  active s 7 l && s.sys.crystal && !s.sys.halted && (portOf s l).any fun p =>
    (portLanes s p).all (active s 7) && (rdF s fPWR_STATE_CURS == 0 || portKept s p)

/-- Whether PGATE names port p and the module is not ACTIVE: the port is held as in STANDBY (R589, R601). -/
def gatedPort (s : State) (p : Nat) : Bool :=
  rdF s fPAIR_PSTAT_ROLE != 3 &&
    (if p < 24 then bitOf (rdF s fPAIR_PGATE0_PORTS) p else decide (p < 32) && bitOf (rdF s fPAIR_PGATE1_PORTS) (p - 24))

/-- Whether PGATE names PON channel c and the module is not ACTIVE (R589, R601). -/
def gatedChan (s : State) (c : Nat) : Bool := rdF s fPAIR_PSTAT_ROLE != 3 && bitOf (rdF s fPAIR_PGATE1_CHANS) c

/-- Whether a frame is an EAPOL frame (R349). -/
def isEapol (b : List Byte) : Bool := ofBytes (bytesAt b 12 2) == 0x888e

/-- Counter kinds of PAIR (R602): standby discards, per port. -/
def kPairDiscard : Nat := 1
/-- Missed bursts, per channel. -/
def kPairMissed : Nat := 2

/-- The recovery domain of a lane (R604). -/
def laneDom (l : Nat) : Nat := if 32 ≤ l then 12 else 4 + l / 4

/-- Time in ns that so many bytes, preamble and gap included, take at a rate in Gb/s, rounded up. -/
def lineNs (bytes rate : Nat) : Nat := if rate = 0 then 0 else (bytes * 8 + rate - 1) / rate

end Sys2Proof.Machine
end

