-- ==== Sys2Proof/Machine/Msec.lean ====
section
/-! DEFINITION. The line encryptor and its secure associations: ingress, ICV, egress, transmit switch, retention and
notifications (R348 to R391). -/
namespace Sys2Proof.Machine

/-! ## Channels, contexts and counts -/

/-- A transmit channel at reset (R369, R389). -/
def txReset : TxCh :=
  { port := 0, enable := false, suite := 0, conf := true, offset := 0, sciinc := true, es := false, scb := false, nosa := false,
    sci := 0, thr := 30, cur := none, req := none }

/-- Transmit channel c. -/
def txCh (s : State) (c : Nat) : TxCh := tget (fun _ => txReset) s.msec.tx c

/-- Transmit channel c replaced. -/
def setTx (s : State) (c : Nat) (x : TxCh) : State :=
  { s with msec := { s.msec with tx := tset (fun _ => txReset) s.msec.tx c x } }

/-- A receive channel at reset (R369). -/
def rxReset : RxCh :=
  { port := 0, valid := false, suite := 0, replay := true, nosa := 0, agent := 0xff, offset := 0, window := 0, sci := 0,
    copyAt := 0, copies := 0 }

/-- Receive channel c. -/
def rxCh (s : State) (c : Nat) : RxCh := tget (fun _ => rxReset) s.msec.rx c

/-- Receive channel c replaced. -/
def setRx (s : State) (c : Nat) (x : RxCh) : State :=
  { s with msec := { s.msec with rx := tset (fun _ => rxReset) s.msec.rx c x } }

/-- Context k, if it is installed (R372). -/
def saCtx (s : State) (k : Nat) : Option Sa := tget (fun _ => none) s.msec.sa k

/-- Context k replaced. -/
def setSa (s : State) (k : Nat) (x : Option Sa) : State :=
  { s with msec := { s.msec with sa := tset (fun _ => none) s.msec.sa k x } }

/-- The installed context of a direction, channel and AN (R372). -/
def saOf (s : State) (tx : Bool) (ch an : Nat) : Option (Nat × Sa) :=
  match s.msec.sa.find? fun p => p.2.any fun x => x.tx == tx && x.ch == ch && x.an == an with
  | some (k, some x) => some (k, x)
  | _ => none

/-- Whether a suite is an XPN suite (R369). -/
def isXpn (suite : Nat) : Bool := 2 ≤ suite

/-- 2^L of a suite (R377). -/
def pnSpace (suite : Nat) : Nat := if isXpn suite then 2 ^ 64 else 2 ^ 32

/-- Bytes of the confidentiality offset's code (R369). -/
def confBytes (o : Nat) : Nat := if o = 1 then 30 else if o = 2 then 50 else 0

/-- Counter kinds of MSEC (R371, R391), per port: uncontrolled. -/
def kMsUncontrolled : Nat := 0
/-- Untagged, per port. -/
def kMsUntagged : Nat := 1
/-- Bad tag, per port. -/
def kMsBadTag : Nat := 2
/-- Unknown SCI, per port. -/
def kMsUnknown : Nat := 3
/-- Bypassed, per port. -/
def kMsBypass : Nat := 4
/-- Disabled, per port. -/
def kMsDisabled : Nat := 5
/-- Per receive channel: OK; the kind of the same count per SA is one higher. -/
def kMsOk : Nat := 7
/-- Invalid, per receive channel. -/
def kMsInvalid : Nat := 9
/-- Not valid, per receive channel. -/
def kMsNotValid : Nat := 11
/-- Not using SA, per receive channel. -/
def kMsNoSaRx : Nat := 13
/-- Late or duplicate, per receive channel. -/
def kMsLate : Nat := 15
/-- Copy-limited, per receive channel. -/
def kMsCopy : Nat := 19
/-- Octets validated or decrypted, per receive channel. -/
def kMsRxOctets : Nat := 21
/-- Protected or encrypted, per transmit channel. -/
def kMsProtected : Nat := 25
/-- No SA, per transmit channel. -/
def kMsNoSaTx : Nat := 29
/-- BAD slot, per transmit channel. -/
def kMsBadSlot : Nat := 31
/-- Port mismatch, per transmit channel. -/
def kMsMismatch : Nat := 33
/-- Channel disabled, per transmit channel. -/
def kMsChDisabled : Nat := 35
/-- Octets protected or encrypted, per transmit channel. -/
def kMsTxOctets : Nat := 37
/-- Invalid-discarded, per egress port. -/
def kMsInvDiscard : Nat := 41
/-- Switches, per transmit channel. -/
def kMsSwitch : Nat := 42
/-- Refusals of a cause 1 to 4, per transmit channel. -/
def kMsRefused (cause : Nat) : Nat := 42 + cause
/-- Exhaustions, per transmit channel. -/
def kMsExhaust : Nat := 47
/-- Retirements, per receive channel. -/
def kMsRetire : Nat := 48
/-- Notifications dropped. -/
def kMsDropped : Nat := 49
/-- Notifications not sent. -/
def kMsUnsent : Nat := 50

/-- A count on a channel and the same count on its SA's context, one kind above. -/
def countSa (s : State) (kind ch ctx : Nat) (n : Nat := 1) : State := count (count s 0x0a kind ch n) 0x0a (kind + 1) ctx n

/-! ## Notifications -/

/-- A notification; the first that is dropped since there was room is an event (R385; assumption log 85, DEDUCED). -/
def notify (s : State) (code w1 w2 w3 : Nat) : State :=
  let d := rdF s fMSEC_SANOTE_ENG
  let m : Msg := ⟨0xca, code, w1 % 2 ^ 24, w2 % 2 ^ 24, w3 % 2 ^ 24⟩
  if d = 0xff then count s 0x0a kMsUnsent code
  else
    let r := if s.msec.notes.isEmpty then post s d m else (s, false)
    if r.2 then r.1
    else if s.msec.notes.length < 64 then
      { r.1 with msec := { r.1.msec with notes := r.1.msec.notes ++ [m], noteAt := if s.msec.notes.isEmpty then s.sys.ticks else s.msec.noteAt } }
    else
      let x := count { r.1 with msec := { r.1.msec with dropping := true } } 0x0a kMsDropped code
      if s.msec.dropping then x else emit1 x 0x280018 code

/-- Held notifications posted in order until one is refused (R385). The first argument bounds their number. -/
def retryNotes : Nat → State → State
  | 0, s => s
  | n + 1, s =>
    match s.msec.notes with
    | [] => s
    | m :: l =>
      let r := post s (rdF s fMSEC_SANOTE_ENG) m
      if r.2 then retryNotes n { r.1 with msec := { r.1.msec with notes := l, dropping := false } } else r.1

/-- Every 10 µs, 6,250 ticks, a refused notification is posted again (R385). -/
def execMsecNoteRetry (s : State) : Out :=
  if !live s || s.msec.notes.isEmpty || decide (s.sys.ticks < s.msec.noteAt + 6250) then .next s
  else .next (retryNotes s.msec.notes.length { s with msec := { s.msec with noteAt := s.sys.ticks } })

/-! ## The transmit switch -/

/-- A held request refused with a cause (R379, R385). -/
def refuseSwitch (s : State) (ch an cause : Nat) : State :=
  notify (count (setTx s ch { txCh s ch with req := none }) 0x0a (kMsRefused cause) ch) 5 ch an cause

/-- A mirror record that the active module of a pair has to send (R386, R591). -/
def mirrorRecord (s : State) (x : MirrorItem) : State :=
  if rdF s fPAIR_PSTAT_ROLE = 3 then { s with pair := { s.pair with unsent := s.pair.unsent ++ [x] } } else s

/-- The switch itself: at a frame boundary of the channel, to a target that is installed, usable and resident (R377). -/
def doSwitch (s : State) (ch an : Nat) (x : Sa) : State :=
  let old := ((txCh s ch).cur).getD 0
  let s := setTx s ch { txCh s ch with cur := some an, req := none }
  let s := notify (count s 0x0a kMsSwitch ch) 2 ch (an + 4 * old) x.pn
  emit (mirrorRecord s (.switched ch an)) 0x280016 ch an old

/-- What becomes of channel ch's held request now (R377, R379): each frame is encrypted whole in one step, so that the channel
is at a frame boundary between any two. In STANDBY it is held (X14); a request for the current AN completes at once. -/
def trySwitch (s : State) (ch : Nat) : State :=
  let c := txCh s ch
  match c.req with
  | none => s
  | some (an, how, _, due) =>
    let reached := match c.cur.bind (fun a => saOf s true ch a) with
      | some (_, x) => decide (pnSpace c.suite - 2 ^ c.thr ≤ x.pn)
      | none => false
    if rdF s fPAIR_PSTAT_ROLE = 2 then s
    else if c.cur = some an then
      notify (setTx s ch { c with req := none }) 2 ch (an + 4 * an) (((saOf s true ch an).map fun x => x.2.pn).getD 0)
    else if !(due || (how == 3 && reached)) then s
    else match saOf s true ch an with
      | none => if how = 3 then s else refuseSwitch s ch an 1
      | some (_, x) =>
        if x.unusable then (if how = 3 then s else refuseSwitch s ch an 2)
        else if !x.resident then s
        else doSwitch s ch an x

/-- The instant that two words spell in the layout of R161: seconds bits [17:0] and nanoseconds. -/
def instantOf (hi lo : Nat) : Nat × Nat := ((hi * 2 ^ 24 + lo) / 2 ^ 30, (hi * 2 ^ 24 + lo) % 2 ^ 30)

/-- The seconds that 18 bits of seconds name: ahead of now by less than 131,072 s, else in the past by at most as much (R161). -/
def resolveSec (now low : Nat) : Nat :=
  let d := (low + 2 ^ 18 - now % 2 ^ 18) % 2 ^ 18
  if d < 131072 then now + d else now + d - 2 ^ 18

/-- The instant of two words resolved against the time counter (R161). -/
def resolve (s : State) (hi lo : Nat) : Instant :=
  let x := instantOf hi lo
  (resolveSec s.time.sec x.1, x.2)

/-- Whether the time counter has reached an instant. -/
def reached (s : State) (t : Instant) : Bool := t.1 < s.time.sec || (t.1 == s.time.sec && t.2 ≤ s.time.ns)

/-- SWGO with SWHOW 1 to 3: the request is held, replacing any other, and falls due as SWHOW says (R377, R379). -/
def execSwitchRequest (e : Eng) (v : Word) (s : State) : Out :=
  let ch := rdF s fMSEC_SWCH_CH
  let an := rdF s fMSEC_SWREQ_AN
  let how := rdF s fMSEC_SWREQ_HOW
  let lo := rdF s fMSEC_SWT0_T
  let hi := rdF s fMSEC_SWT1_T
  if how = 0 ∨ !bitOf v.toNat 0 then .next s
  else onSet s e (fAddr fMSEC_SWGO_GO 0 0) v fun s =>
    if how = 2 ∧ 1000000000 ≤ (instantOf hi lo).2 then unassigned s (fAddr fMSEC_SWT0_T 0 0) lo
    else if !(txCh s ch).enable then refuseSwitch s ch an 4
    else
      let t := resolve s hi lo
      trySwitch (setTx s ch { txCh s ch with req := some (an, how, t, how == 1 || (how == 2 && reached s t)) }) ch

/-- SWGO with SWHOW 0: the held request is cancelled (R379). -/
def execSwitchCancel (e : Eng) (v : Word) (s : State) : Out :=
  let ch := rdF s fMSEC_SWCH_CH
  if rdF s fMSEC_SWREQ_HOW ≠ 0 ∨ !bitOf v.toNat 0 then .next s
  else onSet s e (fAddr fMSEC_SWGO_GO 0 0) v fun s => setTx s ch { txCh s ch with req := none }

/-- The time counter reaches the instant of channel ch's timed request (R377). -/
def execSwitchTimeDue (ch : Fin 1024) (s : State) : Out :=
  match (txCh s ch).req with
  | some (an, 2, t, false) =>
    if live s && reached s t then .next (trySwitch (setTx s ch { txCh s ch with req := some (an, 2, t, true) }) ch) else .next s
  | _ => .next s

/-! ## Frames -/

/-- The frame's SecTAG, at byte 12 of a frame without FCS. -/
structure SecTag where
  v : Bool
  es : Bool
  sc : Bool
  scb : Bool
  e : Bool
  c : Bool
  an : Nat
  sl : Nat
  pn : Nat
  sci : Nat
  len : Nat
deriving DecidableEq, Repr

/-- The SecTAG of a frame (R350). -/
def secTag (b : List Byte) : SecTag :=
  let t := (byteAt b 14).toNat
  { v := bitOf t 7, es := bitOf t 6, sc := bitOf t 5, scb := bitOf t 4, e := bitOf t 3, c := bitOf t 2, an := t % 4,
    sl := (byteAt b 15).toNat, pn := ofBytes (bytesAt b 16 4), sci := ofBytes (bytesAt b 20 8),
    len := if bitOf t 5 then 28 else 20 }

/-- Whether step 3 of R353 finds the SecTAG invalid. -/
def tagBad (b : List Byte) (t : SecTag) : Bool :=
  t.v || (t.es && t.sc) || (t.sc && t.scb) || (t.c && !t.e) || 47 < t.sl || b.length < t.len + t.sl + 16 || t.pn == 0

/-- PEERSCI of port p (R352, R368). -/
def peerSci (s : State) (p : Nat) : Nat :=
  rdF s fMSEC_PSCI2_SCI 0 (4 * p) * 2 ^ 48 + rdF s fMSEC_PSCI1_SCI 0 (4 * p) * 2 ^ 24 + rdF s fMSEC_PSCI0_SCI 0 (4 * p)

/-- The SCI of an ingress frame (R352). -/
def frameSci (s : State) (p : Nat) (b : List Byte) (t : SecTag) : Nat :=
  if t.sc then t.sci else if t.es then ofBytes (bytesAt b 6 6) * 65536 + 1 else peerSci s p

/-- The receive channel of a port and an SCI (R352). -/
def rxMatch (s : State) (p sci : Nat) : Option Nat :=
  (s.msec.rx.find? fun x => x.2.valid && x.2.port == p && x.2.sci == sci).map fun x => x.1

/-- The secure data of a frame, where SL finds its end (R350). -/
def secureData (b : List Byte) (t : SecTag) : List Byte :=
  if t.sl = 0 then (b.drop t.len).take (b.length - t.len - 16) else (b.drop t.len).take t.sl

/-- The ICV of a frame. -/
def frameIcv (b : List Byte) (t : SecTag) : List Byte := (b.drop (t.len + (secureData b t).length)).take 16

/-- The frame without SecTAG and ICV, its secure data as given. -/
def stripped (b data : List Byte) : List Byte := b.take 12 ++ data

/-- The GCM IV of a frame (IEEE 802.1AE): SCI and PN, or for XPN suites the salt with SSCI and PN. -/
def secIv (suite sci pn ssci salt : Nat) : List Nat :=
  if isXpn suite then xorL (numBytes 12 salt) (numBytes 4 ssci ++ numBytes 8 pn) else numBytes 8 sci ++ numBytes 4 (pn % 2 ^ 32)

/-- The key bytes of a context (R374, R492). -/
def saKey (x : Sa) : List Nat := if x.len = 0 then (numBytes 32 x.key).take 16 else numBytes 32 x.key

/-- Whether verified and decrypted data comes of secure data under a context, and the data (R350, R355): the first bytes up to
the offset, and with E = 0 all of them, are authenticated only. -/
def openData (x : Sa) (suite off sci pn : Nat) (b : List Byte) (t : SecTag) : Bool × List Byte :=
  let ks := roundKeys (saKey x)
  let iv := secIv suite sci pn x.ssci x.salt
  let d := nums (secureData b t)
  let o := if t.e then off else d.length
  let aad := nums (b.take t.len) ++ d.take o
  let ct := d.drop o
  (gcmTag ks iv aad ct == nums (frameIcv b t), bytesOf (d.take o ++ gcmStream ks iv ct))

/-- The PN of a frame in full: for XPN suites its upper half comes from the lowest acceptable PN (R354). -/
def fullPn (suite low pn : Nat) : Nat :=
  if isXpn suite then
    (low / 2 ^ 32 + (if pn < 2 ^ 31 ∧ 2 ^ 31 ≤ low % 2 ^ 32 then 1 else 0)) * 2 ^ 32 + pn
  else pn

/-- The lowest acceptable PN of a receive SA (R354, R374). -/
def lowPn (x : Sa) (window : Nat) : Nat := max (max 1 (x.pn - window)) x.low

/-- What MSEC makes of an ingress frame: it goes no further, or its bytes, its ICV state and whether a SecTAG was removed. -/
abbrev Ingress := Option (List Byte × IcvState × Bool)

/-- A frame discarded under the NOSA policy of receive channel c; COPY places at most 100 frames a second, unchanged, in its
agent's queue, where they become visible once the frame has ended well (R313, R362). -/
def nosaRx (s : State) (p c : Nat) (m : Mark) (b : List Byte) : State :=
  let x := rxCh s c
  if x.nosa ≠ 1 then s
  else
    let fresh := decide (x.copyAt + 625000000 ≤ s.sys.ticks)
    let n := if fresh then 0 else x.copies
    if 100 ≤ n then count s 0x0a kMsCopy c
    else
      let s := setRx s c { x with copyAt := if fresh then s.sys.ticks else x.copyAt, copies := n + 1 }
      let f : Frame := { bytes := b, source := p, flow := 0, colour := 0, queue := 0, txsc := 0, mark := m, action := 0,
                         frag := false, poison := false, fixcs := false, hdr := ⟨0, 0, 0, 0⟩, orig := [], waits := [], hash := 0 }
      addFlight s { id := 0, stage := 1, frame := f, ended := false, bad := 0, icv := .none, dest := .eng x.agent, port := some p,
                    rxLen := 0, decided := false, cls := 0, prot := false, of_ := none }

/-- Counter kind of PLC: residency misses, per receive channel (R214). -/
def missed (s : State) (c : Nat) (x : Sa) : State := if x.resident then s else count s 2 kPlcMiss c

/-- An uncorrectable error in context k, met by a frame of port p: the context is unusable until it is installed again, with a
class L fault of the port's lane group (R366, R367). -/
def contextError (s : State) (p k : Nat) (x : Sa) : State :=
  raiseFault (emit (setSa s k (some { x with unusable := true })) 0x280014 k x.ch (b2n x.tx)) 0x280014 (laneDom p)

/-- Counter kind of MSEC, per port: corrected context errors (R366, R371). -/
def kMsCorrected : Nat := 6

/-- Event 0x280_013: no usable SA in a direction and channel for an AN, with its cause; how a parameter holds direction and channel, and the
numbers of the causes, are not stated (R367, assumption log 2). -/
def noSaEvent (s : State) (tx : Bool) (ch an cause : Nat) : State :=
  emit s 0x280013 (Config.saParam tx ch).toNat an (Config.saCause cause).toNat

/-- Steps 4 to 7 of R353 for a frame with a good SecTAG; v is the port's validateFrames, ecc whether its context has an error: 1 one that is
corrected and counted, 2 an uncorrectable one (R366). -/
def ingressTagged (s : State) (p v ecc : Nat) (m : Mark) (b : List Byte) (t : SecTag) : State × Ingress :=
  let plain : Ingress := if t.e then none else some (stripped b (secureData b t), .none, true)
  match rxMatch s p (frameSci s p b t) with
  | none =>
    let s := emit2 (count s 0x0a kMsUnknown p) 0x280012 p (frameSci s p b t % 2 ^ 24)
    (s, if v = 0 then plain else none)
  | some c =>
    let r := rxCh s c
    let no := fun (s : State) (cause : Nat) => noSaEvent s false c t.an cause
    match saOf s false c t.an with
    | none =>
      let s := no (count s 0x0a kMsNoSaRx c) 1
      if v = 0 then (s, plain) else (nosaRx s p c m b, none)
    | some (k, x) =>
      if x.unusable then (no (countSa s kMsNoSaRx c k) 2, none)
      else if ecc = 2 then (no (countSa (contextError s p k x) kMsNoSaRx c k) 2, none)
      else
        let s := missed (if ecc = 1 then count s 0x0a kMsCorrected p else s) c x
        let low := lowPn x r.window
        let pn := fullPn r.suite low t.pn
        let twin := s.flights.any fun f => f.of_.isNone && f.port == some p &&
          (match f.icv with | .waits k' _ o pn' _ _ _ => k' == k && o == x.order && pn' == pn | .none => false)
        if (r.replay && pn < low) || twin then
          let s := countSa s (if twin then kMsLate + 2 else kMsLate) c k
          (emit s 0x280011 p c (pn % 2 ^ 24), if v = 0 then plain else none)
        else if v = 0 then (s, plain)
        else
          let o := openData x r.suite (confBytes r.offset) (frameSci s p b t) pn b t
          (s, some (stripped b o.2, .waits k c x.order pn o.1 t.e (t.e || v == 2), true))

/-- MSEC on ingress (R349, R353, R364): a frame without its FCS, with its postmark. -/
def msecIngress (s : State) (p ecc : Nat) (m : Mark) (b : List Byte) : State × Ingress :=
  let v := rdF s fMSEC_PCFG_VALIDATE 0 p
  let et := ofBytes (bytesAt b 12 2)
  if !onF s fMSEC_PCFG_MODE 0 p then (count s 0x0a kMsBypass p, some (b, .none, false))
  else if !active s 0x0a 0 then (count s 0x0a kMsDisabled p, none)
  else if et = 0x888e then (count s 0x0a kMsUncontrolled p, some (b, .none, false))
  else if et ≠ 0x88e5 then (count s 0x0a kMsUntagged p, if v = 2 then none else some (b, .none, false))
  else if tagBad b (secTag b) then (count s 0x0a kMsBadTag p, none)
  else ingressTagged s p v ecc m b (secTag b)

/-- What the first verified frame of a receive SA brings: FIRSTRX, and retention for every SA of the channel installed earlier
(R382). -/
def firstVerify (s : State) (k : Nat) (x : Sa) (pn : Nat) : State :=
  let s := notify (setSa s k (some { x with first := true })) 7 k pn x.an
  { s with msec := { s.msec with sa := s.msec.sa.map fun p =>
      (p.1, p.2.map fun y => if !y.tx && y.ch == x.ch && decide (y.order < x.order) && !y.retain then { y with retain := true, retAt := s.sys.ticks } else y) } }

/-- Whether a frame takes the cut-through bypass. -/
def isCut : Dest → Bool
  | .cut _ _ => true
  | _ => false

/-- A frame that goes bad after it has been passed on: it is rewound where it is being written to a queue, and otherwise meets
its end at its admission or at the egress it cuts through to (R313, R356, R430). -/
def spoil (s : State) (x : Flight) (cause : Nat) : State :=
  let x := { x with bad := cause }
  if x.stage = 2 ∧ !isCut x.dest then rewind s x else setFlight s x

/-- The mirror copies of frame f (R404). -/
def copiesOf (s : State) (f : Nat) : List Flight := s.flights.filter fun x => x.of_ == some f

/-- What becomes of frame x and its copies when its ICV has failed under MSEC's rules (R356): none of them goes on. -/
def spoilAll (s : State) (x : Flight) (cause : Nat) : State :=
  (copiesOf s x.id).foldl (fun s y => if y.bad = 0 then spoil s y cause else s) (spoil s x cause)

/-- The ICV of frame f and of its copies settled. -/
def settleIcv (s : State) (f : Nat) : State :=
  { s with flights := s.flights.map fun y => if y.id = f ∨ y.of_ = some f then { y with icv := .none } else y }

/-- A frame offered to the capture ring is marked as one whose ICV failed (R639). -/
def markInvalid (s : State) (f : Nat) : State :=
  { s with cnt := { s.cnt with offers := s.cnt.offers.map fun o => if o.flight = some f then { o with invalid := true } else o } }

/-- The ICV result of frame f is known (R354 to R356, R382). A frame that is already bad is not counted (R358); one whose context has been withdrawn
meanwhile completes under it, with nothing left to advance (R383). -/
def execMsecIcvResult (f : Nat) (s : State) : Out :=
  match flight s f with
  | none => .next s
  | some x =>
    match x.icv with
    | .none => .next s
    | .waits k ch ord pn right enc stops =>
      if !live s || x.of_.isSome then .next s
      else
        let s := settleIcv s f
        let x := { x with icv := .none }
        let s := if right then s else markInvalid s f
        if x.bad ≠ 0 then .next s
        else if right then
          let s := countSa (countSa s kMsOk ch k) (if enc then kMsRxOctets + 2 else kMsRxOctets) ch k x.frame.bytes.length
          .next (match (saCtx s k).filter fun a => a.order == ord with
          | none => s
          | some a =>
            let a := { a with pn := max a.pn (pn + 1), seen := s.sys.ticks + 1 }
            let s := setSa s k (some a)
            if a.first then s else firstVerify s k a pn)
        else
          let s := emit s 0x280010 (x.port.getD 0) ch (pn % 2 ^ 24)
          .next (if stops then spoilAll (countSa s kMsInvalid ch k) x 1 else countSa s kMsNotValid ch k)

/-- A context withdrawn (R379, R383): a switch request that names it is refused, and a current SA leaves its channel with
none. -/
def withdraw (s : State) (k : Nat) : State :=
  match saCtx s k with
  | none => s
  | some x =>
    let s := mirrorRecord (setSa s k none) (.withdraw k)
    if !x.tx then s
    else
      let c := txCh s x.ch
      let s := if c.cur = some x.an then setTx s x.ch { c with cur := none } else s
      match c.req with
      | some (an, _) => if an = x.an then refuseSwitch s x.ch an 3 else s
      | none => s

/-- RETAIN times 10 ms, 6,250,000 ticks, after a receive SA entered retention it is withdrawn and RETIRED is sent (R382). -/
def execRetentionExpiry (c : Fin 4096) (s : State) : Out :=
  match saCtx s c with
  | some x =>
    if live s && x.retain && rdF s fMSEC_RETAIN_MS10 != 0 && decide (x.retAt + 6250000 * rdF s fMSEC_RETAIN_MS10 ≤ s.sys.ticks) then
      .next (notify (count (withdraw s c) 0x0a kMsRetire x.ch) 4 c x.ch x.an)
    else .next s
  | none => .next s

/-! ## Egress -/

/-- The TCI byte of a transmit channel's SecTAG (R350). -/
def tciOf (c : TxCh) (an : Nat) : Nat :=
  b2n c.es * 64 + b2n c.sciinc * 32 + b2n c.scb * 16 + b2n c.conf * 12 + an

/-- A frame protected under a context with a PN (R350). -/
def protectFrame (c : TxCh) (x : Sa) (pn : Nat) (b : List Byte) : List Byte :=
  let d := nums (b.drop 12)
  let sl := if d.length < 48 then d.length else 0
  let tag := [0x88, 0xe5, tciOf c x.an, sl] ++ numBytes 4 (pn % 2 ^ 32) ++ (if c.sciinc then numBytes 8 c.sci else [])
  let ks := roundKeys (saKey x)
  let iv := secIv c.suite c.sci pn x.ssci x.salt
  let o := if c.conf then confBytes c.offset else d.length
  let aad := nums (b.take 12) ++ tag ++ d.take o
  let ct := gcmStream ks iv (d.drop o)
  let f := nums (b.take 12) ++ tag ++ d.take o ++ ct ++ gcmTag ks iv aad ct
  bytesOf (f ++ List.replicate (60 - f.length) 0)

/-- What follows a PN used by channel ch's current SA: THRESH once, a threshold switch, exhaustion (R377, R380, R384). -/
def afterPn (s : State) (ch k : Nat) (x : Sa) : State :=
  let c := txCh s ch
  let top := pnSpace c.suite
  let thr := decide (top - 2 ^ c.thr ≤ x.pn) && !x.thresh
  let out := decide (top ≤ x.pn) && !x.exh
  let s := setSa s k (some { x with thresh := x.thresh || thr, exh := x.exh || out })
  let s := if thr then notify s 1 ch x.pn x.an else s
  let s := if out then emit2 (notify (count s 0x0a kMsExhaust ch) 3 ch 0 x.an) 0x280015 ch x.an else s
  trySwitch s ch

/-- MSEC on egress at port p for transmit channel ch (R360, R362, R364, R366): the bytes the line carries, or none where the frame is
discarded. -/
def msecEgress (s : State) (p ch ecc : Nat) (b : List Byte) : State × Option (List Byte) :=
  if !onF s fMSEC_PCFG_MODE 0 p then (count s 0x0a kMsBypass p, some b)
  else if !active s 0x0a 0 then (count s 0x0a kMsDisabled p, none)
  else if ofBytes (bytesAt b 12 2) = 0x888e then (count s 0x0a kMsUncontrolled p, some b)
  else if !(txCh s ch).enable then (count s 0x0a kMsChDisabled ch, none)
  else if (txCh s ch).port ≠ p then (count s 0x0a kMsMismatch ch, none)
  else
    let s := trySwitch s ch
    let c := txCh s ch
    match c.cur.bind fun an => saOf s true ch an with
    | none => (noSaEvent (count s 0x0a kMsNoSaTx ch) true ch (c.cur.getD 0) 1, if c.nosa then some b else none)
    | some (k, x) =>
      if pnSpace c.suite ≤ x.pn then (noSaEvent (countSa s kMsNoSaTx ch k) true ch x.an 3, none)
      else if x.unusable then (countSa s kMsBadSlot ch k, none)
      else if ecc = 2 then (countSa (contextError s p k x) kMsBadSlot ch k, none)
      else
        let s := if ecc = 1 then count s 0x0a kMsCorrected p else s
        let s := countSa (countSa s (if c.conf then kMsProtected + 2 else kMsProtected) ch k)
          (if c.conf then kMsTxOctets + 2 else kMsTxOctets) ch k b.length
        (afterPn s ch k { x with pn := x.pn + 1 }, some (protectFrame c x x.pn b))

end Sys2Proof.Machine
end

