-- ==== Sys2Proof/Machine/Slots.lean ====
section
/-! DEFINITION. Key slots as the units that use them see them (R492, R493). -/
namespace Sys2Proof.Machine

/-- An empty slot (R492). -/
def slotReset : KeySlot :=
  { key := 0, cls := 0, len := 0, dir := 0, exp := false, measured := false, life := 0, at_ := 0, valid := false, bad := false,
    badWhy := 0, check := 0 }

/-- Key slot n. -/
def keySlot (s : State) (n : Nat) : KeySlot := tget (fun _ => slotReset) s.slots n

/-- A slot's AES key: 16 or 32 bytes (R492, R493). -/
def slotKey (x : KeySlot) : List Nat := if x.len = 0 then (numBytes 32 x.key).take 16 else numBytes 32 x.key

/-- Key slot n replaced. -/
def setSlot (s : State) (n : Nat) (x : KeySlot) : State := { s with slots := tset (fun _ => slotReset) s.slots n x }

/-- Whether slot n holds a usable key of a class (R493): 0 ENC-ONLY, 1 DEC-ONLY, 2 WRAP-ONLY, 3 DERIVE-ONLY. -/
def slotUsable (s : State) (n cls : Nat) : Bool :=
  let k := keySlot s n
  k.valid && !k.bad && k.cls == cls

end Sys2Proof.Machine
end

