-- ==== Sys2Proof/Machine/Key.lean ====
section
/-! DEFINITION. The key store, derivation, measurements, the random source, fuses and lifecycle (R492 to R513). -/
namespace Sys2Proof.Machine

/-- Counter kinds of KEY (R514): operations by KGO's OP. -/
def kKeyOp (op : Nat) : Nat := op
/-- Operations by outcome WHY. -/
def kKeyWhy (why : Nat) : Nat := 8 + why
/-- BAD slots by BADWHY. -/
def kKeyBad (why : Nat) : Nat := 18 + why
/-- DRBG reseeds. -/
def kKeyReseed : Nat := 21

/-- Accumulator k as 48 bytes (R501). -/
def accBytes (s : State) (k : Nat) : List Nat := numBytes 48 (tget (fun _ => 0) s.key.acc k)

/-- An accumulator extended: A becomes SHA-384 of A and H (R501). -/
def extend (s : State) (k : Nat) (h : List Nat) : State :=
  { s with key := { s.key with acc := tset (fun _ => 0) s.key.acc k (numOf (sha384 (accBytes s k ++ h))) } }

/-- Installed contexts that name slot n are unusable at once: it has been rewritten or has turned BAD (R375). -/
def slotChanged (s : State) (n : Nat) : State :=
  (s.msec.sa.filter fun x => x.2.any fun a => a.slot == n).foldl (fun s x =>
    match x.2 with
    | some a => setSa s x.1 (some { a with unusable := true })
    | none => s) s

/-- A slot written: its key, class, LEN, DIR, EXP, LIFE and MEASURED, VALID from the write (R492, R496, R497). A 128-bit key fills bits
[255:128]. The layout that CHECK is computed over is not stated: its value is free (assumption log 2). -/
def writeSlot (s : State) (n key attr life_ : Nat) (measured : Bool) : State :=
  let c := takeFree s
  let d := takeFree c.2
  slotChanged (setSlot d.2 n
    { key := if bitOf attr 2 then key else key / 2 ^ 128 * 2 ^ 128, cls := bitsOf attr 0 2, len := bitsOf attr 2 1, dir := bitsOf attr 3 2,
      exp := bitOf attr 5, measured := measured, life := life_, at_ := tget (fun _ => 0) s.log.journal 0, valid := true, bad := false,
      badWhy := 0, check := c.1 + 2 ^ 24 * (d.1 % 256) }) n

/-- Whether attributes are assigned: DIR 3 never, and a DIR other than 0 for WRAP-ONLY alone (R492). -/
def attrOk (attr : Nat) : Bool := if bitsOf attr 0 2 = 2 then bitsOf attr 3 2 != 3 else bitsOf attr 3 2 == 0

/-- SLATTR as a number. -/
def slAttr (s : State) : Nat := bitsOf (rdW s (fAddr fKEY_SLATTR_CLASS 0 0)).toNat 0 6

/-- The key that SLKEY holds (R513). -/
def slKey (s : State) : Nat :=
  (List.range 10).foldl (fun k j => k * 2 ^ 24 + tget (fun _ => 0) s.key.sl j) 0 * 2 ^ 16 + bitsOf (tget (fun _ => 0) s.key.sl 10) 8 16

/-- The 48 bytes of DMEAS. -/
def dmeas (s : State) : List Nat := ((List.range 16).map fun j => numBytes 3 (rdF s fKEY_DMEAS_M 0 j)).flatten

/-- SLKEY is cleared after every operation (R496). -/
def clearSl (s : State) : State := { s with key := { s.key with sl := [] } }

/-- An operation refused: KRES says why at once (R682). -/
def keyRefuse (s : State) (why : Nat) : State := count (result (clearSl s) fKEY_KRES_WHY why) 0x11 (kKeyWhy why) 0

/-- An operation accepted, to be reported at its completion (R682). -/
def keyRuns (s : State) (slq : Option Nat) : State := { clearSl s with key := { (clearSl s).key with op := some (0, slq) } }

/-- A KGO of operation op: refused when KEY is disabled, busy, or for the first rule it breaks (R512, R513); the list holds the rules of
the operation in their order, with the WHY each gives. -/
def onKgo (s : State) (e : Eng) (v : BitVec 24) (op : Nat) (rules : State → List (Bool × Nat)) (f : State → State) : Out :=
  if bitsOf v.toNat 0 4 != op then .next s
  else onSet s e (fAddr fKEY_KGO_OP 0 0) v fun s =>
    let s := count s 0x11 (kKeyOp op) 0
    match ([(!active s 0x11 0, 8), (s.key.op.isSome || s.key.waits, 1)] ++ rules s).find? fun (x : Bool × Nat) => x.1 with
    | some x => keyRefuse s x.2
    | none => f s

/-- WRITE (R496). -/
def execKeyWrite (e : Eng) (v : BitVec 24) (s : State) : Out :=
  onKgo s e v 1 (fun s => [(rdF s fKEY_SLSEL_SLOT == 0, 2), (!attrOk (slAttr s), 4)]) fun s =>
    keyRuns (writeSlot s (rdF s fKEY_SLSEL_SLOT) (slKey s) (slAttr s) (rdF s fKEY_SLLIFE_LIFE) false) none

/-- The target slot filled from the random source (R496). -/
def generate (s : State) : State :=
  let r := takeRandom 32 s
  keyRuns (writeSlot r.2 (rdF s fKEY_SLSEL_SLOT) (ofBytes r.1) (slAttr s) (rdF s fKEY_SLLIFE_LIFE) false) none

/-- GENERATE: it waits until the random source is ready (R496, R505, R506). -/
def execKeyGenerate (e : Eng) (v : BitVec 24) (s : State) : Out :=
  onKgo s e v 2 (fun s => [(rdF s fKEY_SLSEL_SLOT == 0, 2), (!attrOk (slAttr s), 4), (onF s fKEY_RNGSTAT_FAILED, 6)]) fun s =>
    if onF s fKEY_RNGSTAT_READY then generate s else { s with key := { s.key with waits := true } }

/-- What a DERIVE from source x breaks of R503 and R504. -/
def deriveBad (s : State) (x : KeySlot) : Bool :=
  onF s fKEY_DSRC_SUPPLIED &&
    (!x.measured || bitsOf (slAttr s) 0 2 != 2 || bitsOf (slAttr s) 3 2 != 1 || bitOf (slAttr s) 5)

/-- The digest D of R503. -/
def digest (s : State) (x : KeySlot) : List Nat :=
  if !x.measured then List.replicate 48 0
  else if onF s fKEY_DSRC_SUPPLIED then dmeas s
  else sha384 (accBytes s 0 ++ accBytes s 1 ++ accBytes s 2 ++ accBytes s 3)

/-- DERIVE: the KDF of R502 from the source slot into the target slot (R502 to R504). -/
def execKeyDerive (e : Eng) (v : BitVec 24) (s : State) : Out :=
  onKgo s e v 3 (fun s => [(rdF s fKEY_SLSEL_SLOT == 0, 2), (!attrOk (slAttr s), 4), (!slotUsable s (rdF s fKEY_DSRC_SLOT) 3, 3),
      (deriveBad s (keySlot s (rdF s fKEY_DSRC_SLOT)), 5)]) fun s =>
    let x := keySlot s (rdF s fKEY_DSRC_SLOT)
    let a := slAttr s
    let group := if bitsOf a 0 2 < 2 then 0 else if bitsOf a 0 2 = 2 then 1 else 2
    let n := if bitOf a 2 then 32 else 16
    let label := ((List.range 4).map fun j => numBytes 3 (rdF s fKEY_DLABEL_L 0 j)).flatten
    let k := kdf (slotKey x) (label ++ [0] ++ digest s x ++ [group * 2 + bitsOf a 2 1] ++ numBytes 4 (8 * n)) n
    keyRuns (writeSlot s (rdF s fKEY_SLSEL_SLOT) (numOf k * 2 ^ (256 - 8 * n)) a (rdF s fKEY_SLLIFE_LIFE)
      (x.measured && !onF s fKEY_DSRC_SUPPLIED)) none

/-- ERASE: the slot is not VALID (R496, R497). -/
def execKeyErase (e : Eng) (v : BitVec 24) (s : State) : Out :=
  onKgo s e v 4 (fun s => [(rdF s fKEY_SLSEL_SLOT == 0, 2)]) fun s =>
    keyRuns (slotChanged (setSlot s (rdF s fKEY_SLSEL_SLOT) slotReset) (rdF s fKEY_SLSEL_SLOT)) none

/-- QUERY: the slot's attributes (R513). -/
def execKeyQuery (e : Eng) (v : BitVec 24) (s : State) : Out :=
  onKgo s e v 5 (fun _ => []) fun s =>
    let x := keySlot s (rdF s fKEY_SLSEL_SLOT)
    keyRuns s (some (x.cls + 4 * x.len + 8 * x.dir + 32 * b2n x.exp + 64 * b2n x.measured + 128 * b2n x.valid + 256 * b2n x.bad + 512 * x.badWhy))

/-- MEXTEND: A1, A2 or A3 extended with DMEAS (R501). -/
def execMextend (e : Eng) (v : BitVec 24) (s : State) : Out :=
  onKgo s e v 6 (fun _ => [(bitsOf v.toNat 4 2 == 0, 9)]) fun s => keyRuns (extend s (bitsOf v.toNat 4 2) (dmeas s)) none

/-- The running operation completes: KRES and, for a QUERY, SLQ (R682). -/
def execKeyOpComplete (s : State) : Out :=
  match s.key.op with
  | some (why, slq) =>
    if !live s then .next s
    else
      let s := count (result { s with key := { s.key with op := none } } fKEY_KRES_WHY why) 0x11 (kKeyWhy why) 0
      .next (match slq with
        | some q => result s fKEY_SLQ_ATTR q
        | none => s)
  | none => .next s

/-- A slot turns BAD: event 0x440_010 with the slot and the cause, a class N fault (R494). -/
def slotBad (s : State) (n why : Nat) : State :=
  let s := slotChanged (setSlot s n { keySlot s n with bad := true, badWhy := why }) n
  raiseFault (emit2 (count s 0x11 (kKeyBad why) 0) 0x440010 n why) 0x440010 63

/-- The scrub reaches slot n: a CHECK that mismatches makes it BAD (R494). -/
def execKeyScrub (n : Fin 8192) (mismatch : Bool) (s : State) : Out :=
  if !live s || !(keySlot s n).valid || (keySlot s n).bad || !mismatch then .next s else .next (slotBad s n 1)

/-- Slot n reaches its lifetime (R494, R497). -/
def execKeyLifeExpiry (n : Fin 8192) (s : State) : Out :=
  let x := keySlot s n
  if !live s || !x.valid || x.bad || x.life = 0 || tget (fun _ => 0) s.log.journal 0 < x.at_ + x.life then .next s
  else .next (slotBad s n 2)

/-- RAND given a new result (R505). -/
def newRand (s : State) : State :=
  let r := takeRandom 3 s
  result { r.2 with key := { r.2.key with randDue := false } } fKEY_RAND_R (ofBytes r.1)

/-- The random source is ready, after the crystal: RAND has a result, and a GENERATE that waited proceeds (R505). -/
def execRngReady (s : State) : Out :=
  if !live s || !s.sys.crystal || onF s fKEY_RNGSTAT_READY || onF s fKEY_RNGSTAT_FAILED then .next s
  else
    let s := newRand (setPace (wrF s fKEY_RNGSTAT_READY 1) paceReseed)
    .next (if s.key.waits then generate { s with key := { s.key with waits := false } } else s)

/-- The DRBG is reseeded every 1 s, 625,000,000 ticks, and after 65,536 requests (R505). -/
def execDrbgReseed (s : State) : Out :=
  if !live s || !onF s fKEY_RNGSTAT_READY || onF s fKEY_RNGSTAT_FAILED || !(paced s paceReseed 625000000 || 65536 ≤ s.key.drawn) then .next s
  else .next (count { setPace s paceReseed with key := { s.key with drawn := 0 } } 0x11 kKeyReseed 0)

/-- After a GET or a first host read RAND receives a new result (R505). -/
def execRandRefresh (s : State) : Out :=
  if !live s || !s.key.randDue || !onF s fKEY_RNGSTAT_READY || onF s fKEY_RNGSTAT_FAILED then .next s else .next (newRand s)

/-- A health test fails: FAILED, event 0x440_011, no GENERATE and no RAND from then on; a fault of class H before the memory keys are
drawn and of class F after (R506, R646). -/
def execRngHealthFailure (s : State) : Out :=
  if !live s || onF s fKEY_RNGSTAT_FAILED then .next s
  else
    let s := wrF s fKEY_RNGSTAT_FAILED 1
    let s := { s with ctl := { s.ctl with ready := tset (fun _ => false) s.ctl.ready (fAddr fKEY_RAND_R 0 0) false } }
    let s := if s.key.waits then keyRefuse { s with key := { s.key with waits := false } } 6 else s
    let p := takeFree s
    let q := takeFree p.2
    let r := takeFree q.2
    .next (raiseFault (emitM r.2 0x440011 p.1 q.1 r.1 (now s) (!s.mpe.keys)) 0x440011 (if s.mpe.keys then 13 else 63))

/-! ## Fuses and lifecycle -/

/-- LCSTATE as the fuses stand (R513). -/
def lcState (s : State) : State :=
  let f := s.fuse
  let pend := rdF s fKEY_LCSTATE_PENDING
  let bit := fun (b : Bool) (k : Nat) => b2n b * 2 ^ k
  let bank := if tget (fun _ => false) f.failed 0 then 1 else 0
  wrW s (fAddr fKEY_LCSTATE_STATE 0 0) (wd (f.state + 4 * pend + bit f.lock 3 + bit (tget (fun _ => none) f.hash 0).isSome 4 +
    bit (tget (fun _ => none) f.hash 1).isSome 5 + bit (tget (fun _ => false) f.revoked 0) 6 + bit (tget (fun _ => false) f.revoked 1) 7 +
    f.floor * 256 + bank * 2 ^ 15))

/-- Whether hash h is written and not revoked (R508). -/
def hashLive (f : FuseSt) (h : Nat) : Bool := (tget (fun _ => none) f.hash h).isSome && !tget (fun _ => false) f.revoked h

/-- LCRES written (R513). -/
def lcRes (s : State) (why : Nat) : State := result s fKEY_LCRES_WHY why

/-- An LCGO of operation op with CONFIRM 0xA5: refused when KEY is disabled, while a fuse write runs, or for the first rule broken; else
its fuses are being blown (R509 to R513). -/
def onLcgo (s : State) (e : Eng) (v : BitVec 24) (op : Nat) (rules : State → List (Bool × Nat)) (f : State → State) : Out :=
  if bitsOf v.toNat 0 3 != op then .next s
  else onSet s e (fAddr fKEY_LCGO_OP 0 0) v fun s =>
    if bitsOf v.toNat 16 8 != 0xa5 then s
    else match ([(!active s 0x11 0, 8), (s.fuse.op.isSome, 1)] ++ rules s).find? fun (x : Bool × Nat) => x.1 with
      | some x => lcRes s x.2
      | none => f s

/-- A fuse write that starts. -/
def startFuse (s : State) (op h floor key : Nat) : State := { s with fuse := { s.fuse with op := some ⟨op, h, floor, key⟩ } }

/-- LCGO op 1, to PROVISIONED: from BLANK, with a live hash and a root-key bank that has not failed (R509 to R511). -/
def execLcToProvisioned (e : Eng) (v : BitVec 24) (s : State) : Out :=
  onLcgo s e v 1 (fun s => [(onF s fKEY_RNGSTAT_FAILED, 6),
      (s.fuse.state != 0 || s.fuse.blown != 0 || !(hashLive s.fuse 0 || hashLive s.fuse 1) ||
        (tget (fun _ => false) s.fuse.failed 0 && tget (fun _ => false) s.fuse.failed 1), 7)]) fun s =>
    let r := takeRandom 32 s
    wrF (startFuse r.2 1 0 0 (ofBytes r.1)) fKEY_LCSTATE_PENDING 1

/-- LCGO op 2, to FIELD: from PROVISIONED (R511). -/
def execLcToField (e : Eng) (v : BitVec 24) (s : State) : Out :=
  onLcgo s e v 2 (fun s => [(s.fuse.state != 1 || s.fuse.blown != 1, 7)]) fun s => wrF (startFuse s 2 0 0 0) fKEY_LCSTATE_PENDING 1

/-- LCGO op 3: key hash H from DMEAS, in BLANK or PROVISIONED, into an empty position that is not revoked (R509, R511). -/
def execLcWriteHash (e : Eng) (v : BitVec 24) (s : State) : Out :=
  let h := bitsOf v.toNat 3 1
  onLcgo s e v 3 (fun s => [(s.fuse.state == 2 || (tget (fun _ => none) s.fuse.hash h).isSome || tget (fun _ => false) s.fuse.revoked h, 7)])
    fun s => startFuse s 3 h 0 (numOf (dmeas s))

/-- LCGO op 4: position H revoked, unless no live hash would remain (R509). -/
def execLcRevokeHash (e : Eng) (v : BitVec 24) (s : State) : Out :=
  let h := bitsOf v.toNat 3 1
  onLcgo s e v 4 (fun s => [(!hashLive s.fuse (1 - h), 7)]) fun s => startFuse s 4 h 0 0

/-- LCGO op 5: the version floor raised to FLOOR, at most 64 (R509). -/
def execLcRaiseFloor (e : Eng) (v : BitVec 24) (s : State) : Out :=
  let n := bitsOf v.toNat 4 7
  onLcgo s e v 5 (fun s => [(decide (64 < n), 2), (decide (n ≤ s.fuse.floor), 7)]) fun s => startFuse s 5 0 n 0

/-- LCGO op 6: the test-lock fuse (R509). -/
def execLcBlowTestLock (e : Eng) (v : BitVec 24) (s : State) : Out :=
  onLcgo s e v 6 (fun _ => []) fun s => startFuse s 6 0 0 0

/-- The fuses after a write that has verified (R509 to R511). -/
def blow (f : FuseSt) (x : FuseOp) : FuseSt :=
  let bank := if tget (fun _ => false) f.failed 0 then 1 else 0
  let f := { f with op := none }
  if x.op = 1 then { f with bank := tset (fun _ => none) f.bank bank (some x.key), blown := 1 }
  else if x.op = 2 then { f with blown := 2, lock := true }
  else if x.op = 3 then { f with hash := tset (fun _ => none) f.hash x.h (some x.key) }
  else if x.op = 4 then { f with revoked := tset (fun _ => false) f.revoked x.h true }
  else if x.op = 5 then { f with floor := x.floor }
  else { f with lock := true }

/-- A fuse write ends: the field is blown, and a transition is recorded with event 0x440_012; or it reads as unwritten, LCRES WHY 7 and
event 0x440_013, and a root-key bank that failed is never used again (R510, R511). -/
def execFuseWriteComplete (ok : Bool) (s : State) : Out :=
  match s.fuse.op with
  | some x =>
    if !live s then .next s
    else if ok then
      let s := lcRes (lcState { s with fuse := blow s.fuse x }) 0
      .next (if x.op = 1 ∨ x.op = 2 then emit0 s 0x440012 else s)
    else
      let bank := if tget (fun _ => false) s.fuse.failed 0 then 1 else 0
      let failed := if x.op = 1 then tset (fun _ => false) s.fuse.failed bank true else s.fuse.failed
      .next (emit0 (lcRes (lcState { s with fuse := { s.fuse with op := none, failed := failed } }) 7) 0x440013)
  | none => .next s

end Sys2Proof.Machine
end

