-- ==== Sys2Proof/Machine/EngCtl.lean ====
section
/-! DEFINITION. Control of the engines and the hardware loaders (R119 to R125, R684). -/
namespace Sys2Proof.Machine

/-- The address of ECTL of engine k of lantern l (R119). -/
def ectlAddr (l : Lan) (k : Fin 8) : Nat := fAddr fENG_ECTL_RUN l (0x20 * k.val)

/-- Engine k of lantern l (R98). -/
def engOf (l : Lan) (k : Fin 8) : Nat := 8 * l.val + k.val

/-- The SAMPLE field that a SET of ECTL writes (R119). Clearing it leaves a sample that is already noted, and the count, as they stand (assumption log
70, DESIGN CHOICE). -/
def setSample (s : State) (l : Lan) (k : Fin 8) (v : Word) : State := wrF s fENG_ECTL_SAMPLE (bitsOf v.toNat 2 1) l (0x20 * k.val)

/-- A stopped engine starts at the entry and level of EENTRY (R120, R684); not in a failed domain (R612). -/
def startEngine (s : State) (l : Lan) (k : Fin 8) : State :=
  let e := engOf l k
  let g := eng s e
  if g.st != .stopped || g.gated || (dom s (14 + l.val)).failed then s
  else setEng s e { g with
    pc := wd (rdF s fENG_EENTRY_ENTRY l (0x20 * k.val))
    kp := !onF s fENG_EENTRY_USER l (0x20 * k.val)
    st := .running
    past := false
    conds := 0 }

/-- ECTL with RUN = 1, and neither STEP nor CLRFAIL: RUN reads 1, and an engine found STOPPED starts (R119, R684). -/
def execEngineRun (by_ : Eng) (l : Lan) (k : Fin 8) (v : Word) (s : State) : Out :=
  if !bitOf v.toNat 0 || bitOf v.toNat 1 || bitOf v.toNat 3 then .next s
  else onSet s by_ (ectlAddr l k) v fun s => startEngine (setSample (wrF s fENG_ECTL_RUN 1 l (0x20 * k.val)) l k v) l k

/-- ECTL with RUN = 0: a running or waiting engine admits nothing more and drains (R121); a WAIT in progress does not complete
(assumption log 32). -/
def execEngineStop (by_ : Eng) (l : Lan) (k : Fin 8) (v : Word) (s : State) : Out :=
  if bitOf v.toNat 0 || bitOf v.toNat 1 || bitOf v.toNat 3 then .next s
  else onSet s by_ (ectlAddr l k) v fun s =>
    let s := setSample (wrF s fENG_ECTL_RUN 0 l (0x20 * k.val)) l k v
    let e := engOf l k
    let g := eng s e
    if g.st == .running || g.st == .waiting then setEng s e { g with st := .draining, conds := 0, sleeping := false, step := false } else s

/-- A draining engine has completed its instruction and every outstanding far access (R121). -/
def execEngineStopped (e : Eng) (s : State) : Out :=
  let g := eng s e
  if !live s || g.st != .draining || g.gated || !g.far.isEmpty || g.get.isSome || g.out.isSome then .next s
  else .next (setEng s e { g with st := .stopped })

/-- ECTL with CLRFAIL: a FAILED engine reads STOPPED, its registers and TIP are cleared and its level is keeper; RUN and STEP of the SET are
ignored (R119, R684). Every register of R99 is cleared (assumption log 33). -/
def execClrfail (by_ : Eng) (l : Lan) (k : Fin 8) (v : Word) (s : State) : Out :=
  if !bitOf v.toNat 3 then .next s
  else onSet s by_ (ectlAddr l k) v fun s =>
    let s := setSample s l k v
    let e := engOf l k
    let g := eng s e
    if g.st != .failed then s
    else setEng s e { setFl g 0 with regs := [], pc := 0, tp := 0, past := false, st := .stopped, tip := false, kp := true }

/-! ## Loaders -/

/-- The transfer that lantern l's loader words describe, with an accumulator (R124). -/
def loadOf (s : State) (l acc : Nat) : Load :=
  { src := rdF s fENG_LDSRC0_SRCH l * 2 ^ 24 + rdF s fENG_LDSRC1_SRCL l
    lines := rdF s fENG_LDLEN_LINES l
    emask := rdF s fENG_LDDST_EMASK l
    target := rdF s fENG_LDDST_TARGET l
    off := rdF s fENG_LDOFF_OFFSET l
    acc := acc }

/-- Words of a target: instruction and data memory of an engine, shared memory of a lantern (R97). -/
def targetWords (t : Nat) : Nat := if t = 2 then 524288 else 32768

/-- Why a transfer is refused, in the order of R125 after the running one: 1 an engine that does not read STOPPED, 2 range, 3 rights; 0 for
accepted. -/
def loadWhy (s : State) (l : Nat) (x : Load) : Nat :=
  if x.target < 2 ∧ (List.range 8).any (fun k => bitOf x.emask k && ((eng s (8 * l + k)).st != .stopped || (eng s (8 * l + k)).gated)) then 1
  else if x.lines = 0 ∨ 24576 < x.lines ∨ x.src % 64 ≠ 0 ∨ x.target = 3 ∨ targetWords x.target < x.off + blockWords (64 * x.lines) then 2
  else if dataSpace < x.src + 64 * x.lines ∨ (refusedByte s 0 x.src (64 * x.lines) false).isSome then 3
  else 0

/-- LDGO with GO: refused with its reason, or the transfer runs (R124, R125). -/
def execLoaderGo (by_ : Eng) (l : Lan) (v : Word) (s : State) : Out :=
  onSet s by_ (fAddr fENG_LDGO_ACC l 0) v fun s =>
    if !bitOf v.toNat 2 then s
    else if (tget (fun _ => none) s.load l).isSome then wrF s fENG_LDSTAT_WHY 4 l
    else
      let x := loadOf s l (bitsOf v.toNat 0 2)
      let why := loadWhy s l x
      if why ≠ 0 then wrF (wrF s fENG_LDSTAT_STATE 3 l) fENG_LDSTAT_WHY why l
      else { wrF (wrF s fENG_LDSTAT_STATE 1 l) fENG_LDSTAT_WHY 0 l with load := tset (fun _ => none) s.load l (some x) }

/-- Bytes written to a target of lantern l, packed three a word (R105, R125). -/
def loadBytes (s : State) (l target emask off : Nat) (bs : List Byte) : State :=
  if target = 2 then putShared s l off bs
  else ((List.range 8).filter fun k => bitOf emask k).foldl (fun s k =>
    ((packWords bs).mapIdx fun n w => (off + n, w)).foldl (fun s p =>
      if target = 0 then setImem s (8 * l + k) p.1 p.2 else setData s (8 * l + k) p.1 p.2) s) s

/-- A loader's transfer completes: its bytes are in place, the accumulator is extended by their hash, and LDSTAT reads DONE (R125, R501). A
line whose seal fails halts the module (R125, R479); which line is not stated and is a free value (assumption log 2). R126 gives the words no
order before DONE: that they all land here and none before is the model's choice (assumption log 69, DESIGN CHOICE). -/
def execLoaderDone (l : Lan) (ok : Bool) (s : State) : Out :=
  match tget (fun _ => none) s.load l with
  | none => .next s
  | some x =>
    if !live s || !memRuns s then .next s
    else if !ok then
      let c := takeFree s
      .next (sealFault c.2 0x400010 (x.src + 64 * (c.1 % x.lines)) 0)
    else
      let bs := dramRead s x.src (64 * x.lines)
      let s := countLines s 0 x.src (64 * x.lines) false
      let s := extend (loadBytes s l x.target x.emask x.off bs) x.acc (sha384 (nums bs))
      let s := { s with load := tset (fun _ => none) s.load l none }
      .next (wrF (wrF s fENG_LDSTAT_STATE 2 l) fENG_LDSTAT_WHY 0 l)

end Sys2Proof.Machine
end

