-- ==== Sys2Proof/Machine/FarMem.lean ====
section
/-! DEFINITION. Far memory: single and block accesses, their completion, and FENCE (R105 to R107, R152 to R154). -/
namespace Sys2Proof.Machine

/-- The checks of a far access in the order of R152, from the alignment check on: the trap, with the record of a refusal by
MPE, or nothing. n is the number of bytes, aligned says whether R105's alignment holds. -/
def farCheck (s : State) (e a n : Nat) (wr aligned : Bool) : Option Eff :=
  let d1 := a / 2 ^ 24
  let d2 := a % 2 ^ 24
  if !aligned then some (.trap 4 d1 d2)
  else if dataSpace < a + n then some (.trap 6 d1 d2)
  else
    let m := if (eng s e).kp then 0 else 1
    match refusedByte s m a n wr with
    | some b => some (.trapWith (refuse s m b wr) 5 d1 d2)
    | none => none

/-- A far access put among engine e's outstanding ones; a ninth stalls (R105). -/
def issueFar (s : State) (e : Nat) (kind : FarKind) (a n : Nat) (data : List Byte) : Eff :=
  let g := eng s e
  if 8 ≤ g.far.length then .stall
  else .done (setEng s e { g with far := g.far ++ [⟨g.serial, kind, a, n, data, false⟩], serial := g.serial + 1 })

/-- FLD and FST: 1 to 3 bytes inside one line (R105, R152). -/
def farSingle (s : State) (e op rd ra size : Nat) (uses : List Nat) (wr : Bool) : Out :=
  instr s e 1 uses fun g =>
    if size = 0 ∨ !pairOk ra then .trap 1 (encR op rd ra 0 size).toNat 0
    else
      let a := pairVal g ra
      match farCheck s e a size wr (decide (a % 64 + size ≤ 64)) with
      | some x => x
      | none => issueFar s e (if wr then .store else .load rd) a size (if wr then toBytes size (reg g rd).toNat else [])

/-- FLD (R152, R153). -/
def execFld (e : Eng) (rd ra : Reg) (size : Fin 4) (s : State) : Out :=
  farSingle s e 0x20 rd ra size [rd, ra, ra + 1] false

/-- FST (R152, R153). -/
def execFst (e : Eng) (rd ra : Reg) (size : Fin 4) (s : State) : Out :=
  farSingle s e 0x21 rd ra size [rd, ra, ra + 1] true

/-- FBL and FBS: whole lines, 64 to 4,096 bytes, to or from the lantern's shared memory (R105, R152). -/
def farBlock (s : State) (e op ra rb fn : Nat) (wr : Bool) : Out :=
  instr s e 1 [ra, ra + 1, rb] fun g =>
    if !pairOk ra then .trap 1 (encR op 0 ra rb fn).toNat 0
    else
      let a := pairVal g ra
      let n := 64 * (fn + 1)
      let p := (reg g rb).toNat
      match farCheck s e a n wr (decide (a % 64 = 0)) with
      | some x => x
      | none =>
        if p < 0x80000 ∨ 0x100000 < p + blockWords n then .trap 3 p 0
        else issueFar s e (if wr then .blockStore p else .blockLoad p) a n []

/-- FBL (R152). -/
def execFbl (e : Eng) (ra rb : Reg) (fn : BitVec 6) (s : State) : Out := farBlock s e 0x22 ra rb fn.toNat false

/-- FBS (R152). -/
def execFbs (e : Eng) (ra rb : Reg) (fn : BitVec 6) (s : State) : Out := farBlock s e 0x23 ra rb fn.toNat true

/-- Whether two byte ranges share a line. -/
def shareLine (a n b m : Nat) : Bool := a / 64 ≤ (b + m - 1) / 64 && b / 64 ≤ (a + n - 1) / 64

/-- The outstanding access of serial k of engine e that may take effect now: every earlier access of the engine to the same
line has completed, since accesses to one address take effect in program order ("Ordering"). -/
def farTurn (g : Engine) (k : Nat) : Option Far :=
  match g.far.find? fun f => f.serial == k with
  | none => none
  | some f => if g.far.any fun h => h.serial < k && shareLine h.addr h.len f.addr f.len then none else some f

/-- Engine e's far places without the access of serial k. -/
def dropFar (g : Engine) (k : Nat) : Engine := { g with far := g.far.filter fun f => f.serial != k }

/-- Whether every granule of a range is written (R477). -/
def rangeWritten (s : State) (a n : Nat) : Bool :=
  (List.range ((a + n - 1) / 65536 - a / 65536 + 1)).all fun k => granuleWritten s (a / 65536 + k)

/-- The master code of an engine (R489). -/
def engMaster (s : State) (e : Nat) : Nat := if (eng s e).kp then 0 else 1

/-- Whether an outstanding access is held by the pause of a channel (R467). -/
def farHeld (s : State) (e k : Nat) : Bool := ((eng s e).far.find? fun f => f.serial == k).any fun f => paused s f.addr f.len

/-- Engine e's loads of the written lines of a range wait for their seals under serial k (R106, R478); a read of an unwritten
granule has no seal check (R477). -/
def noteUnchecked (s : State) (e k a n : Nat) : State :=
  let g := eng s e
  setEng s e { g with unchecked := g.unchecked ++
    (((linesOf a n).filter fun l => granuleWritten s (l / 65536)).map fun l => (k, l)) }

/-- The data of an outstanding FLD arrives and is written to its register, before its seal has been checked (R106, R153,
R478). Far accesses stall until MEM is trained and the memory keys are drawn (R471, R477), and while their channel is in pause (R467). -/
def execFarLoadDataReturn (e : Eng) (k : Nat) (s : State) : Out :=
  if !live s || !memRuns s || farHeld s e k then .next s
  else match farTurn (eng s e) k with
    | some ⟨_, .load rd, a, n, _, _⟩ =>
      let s1 := setEng s e (setReg (dropFar (eng s e) k) rd (wd (ofBytes (dramRead s a n))))
      .next (countLines (noteUnchecked s1 e k a n) (engMaster s e) a n false)
    | _ => .next s

/-- An outstanding far store or block completes and frees its place (R105, R127). A single store completes once its pair of
R480 has been carried out; a block takes effect here, after the first write to an unwritten granule has been filled
(R477). -/
def execFarAccessComplete (e : Eng) (k : Nat) (s : State) : Out :=
  if !live s || !memRuns s || farHeld s e k then .next s
  else match farTurn (eng s e) k with
    | some ⟨_, .store, _, _, _, true⟩ => .next (setEng s e (dropFar (eng s e) k))
    | some ⟨_, .blockLoad p, a, n, _, _⟩ =>
        let s1 := putShared (setEng s e (dropFar (eng s e) k)) (lanternOf e) (p - 0x80000) (dramRead s a n)
        .next (countLines (noteUnchecked s1 e k a n) (engMaster s e) a n false)
    | some ⟨_, .blockStore p, a, n, _, _⟩ =>
      if !rangeWritten s a n then .next s
      else
        let s1 := dramWrite (setEng s e (dropFar (eng s e) k)) a (sharedBytes s (lanternOf e) (p - 0x80000) n)
        .next (countLines s1 (engMaster s e) a n true)
    | _ => .next s

/-- FENCE: completes only when every earlier far access has completed and every earlier SET has been accepted (R107). -/
def execFence (e : Eng) (s : State) : Out :=
  instr s e 1 [] fun g => if g.far.isEmpty && g.posted.isEmpty then .done s else .stall

end Sys2Proof.Machine
end

