-- ==== Sys2Proof/Machine/NearMem.lean ====
section
/-! DEFINITION. Near memory and the byte accesses of the packet window (R145 to R148). -/
namespace Sys2Proof.Machine

/-- Whether an access of engine e at near address a must stall: inside an outstanding block (R153), or on bytes of the
window's frame that have not arrived (R151). That a store stalls there as a load does is the model's choice (assumption log 71, DESIGN CHOICE). -/
def nearStall (g : Engine) (a : Nat) : Bool :=
  (0x80000 ≤ a && inBlock g a) || (0x20000 ≤ a && a < 0x21000 && notArrived g (3 * (a - 0x20000)) 3)

/-- An uncorrectable error met at near address a of data or shared memory: the memory trap, event 0x040_012 and a class L fault (R104). -/
def eccTrap (s : State) (e a : Nat) : Eff := .trapWith (raiseFault (emit0 s 0x040012) 0x040012 (14 + lanternOf e)) 9 a 0

/-- LD (R145, R147). An uncorrectable error in data or shared memory raises the memory trap and a class L fault (R104). -/
def execLd (e : Eng) (rd ra : Reg) (imm : BitVec 10) (bad : Bool) (s : State) : Out :=
  instr s e 1 [rd, ra] fun g =>
    let a := nearAddr g ra imm
    match nearRead s e a with
    | none => .trap 3 a 0
    | some w =>
      if nearStall g a then .stall
      else if bad && (a < 0x8000 || 0x80000 ≤ a) then eccTrap s e a
      else .done (setEng s e (setReg g rd w))

/-- ST (R145, R147): a user-level store to the trap record raises the privilege trap. -/
def execSt (e : Eng) (rd ra : Reg) (imm : BitVec 10) (s : State) : Out :=
  instr s e 1 [rd, ra] fun g =>
    let a := nearAddr g ra imm
    match nearWrite s e a (reg g rd) with
    | none => if !g.kp && 0x7ff8 ≤ a && a < 0x8000 then .trap 2 (encI 0x11 rd ra imm.toNat).toNat 0 else .trap 3 a 0
    | some s' => if nearStall g a then .stall else .done s'

/-- XADD (R145, R146); its load meets an uncorrectable error as LD does (R104). -/
def execXadd (e : Eng) (rd : Reg) (ra : AddrReg) (rb : Reg) (s : State) : Out :=
  instr s e 1 [rd, ra.reg, rb] fun g =>
    let a := (reg g ra.reg).toNat
    match nearRead s e a, nearWrite s e a ((nearRead s e a).getD 0 + reg g rb) with
    | some w, some s' =>
      if !atomicOk a then .trap 3 a 0
      else if nearStall g a then .stall
      else if ra.bad then eccTrap s e a
      else .done (setEng s' e (setReg (eng s' e) rd w))
    | _, _ => .trap 3 a 0

/-- CAS (R145, R146): Z is its only flag; its load meets an uncorrectable error as LD does (R104). -/
def execCas (e : Eng) (rd : Reg) (ra : AddrReg) (rb : Reg) (s : State) : Out :=
  instr s e 1 [rd, ra.reg, rb] fun g =>
    let a := (reg g ra.reg).toNat
    match nearRead s e a, nearWrite s e a (reg g rb) with
    | some w, some s' =>
      if !atomicOk a then .trap 3 a 0
      else if nearStall g a then .stall
      else if ra.bad then eccTrap s e a
      else if w = reg g rd then .done (setEng s' e (setReg { eng s' e with z := true } rd w))
      else .done (setEng s e (setReg { g with z := false } rd w))
    | _, _ => .trap 3 a 0

/-- PLDn: n bytes of the window at a byte offset, right-aligned (R148). -/
def pld (s : State) (e rd ra : Nat) (imm : BitVec 10) (n : Nat) : Out :=
  instr s e 1 [rd, ra] fun g =>
    let o := winOff g ra imm
    if 12288 < o + n then .trap 3 o 0
    else if notArrived g o n then .stall
    else .done (setEng s e (setReg g rd (wd (ofBytes ((List.range n).map fun k => tget (fun _ => 0) g.win.buf (o + k))))))

/-- PSTn: the low n bytes of rd at a byte offset of the window (R148); it stalls as PLDn does on bytes that have not arrived (assumption log
71, DESIGN CHOICE). -/
def pst (s : State) (e rd ra : Nat) (imm : BitVec 10) (n : Nat) : Out :=
  instr s e 1 [rd, ra] fun g =>
    let o := winOff g ra imm
    if 12288 < o + n then .trap 3 o 0
    else if notArrived g o n then .stall
    else .done (setEng s e { g with win := putWin g.win o (toBytes n (reg g rd).toNat) })

/-- PLD1 (R148). -/
def execPld1 (e : Eng) (rd ra : Reg) (imm : BitVec 10) (s : State) : Out := pld s e rd ra imm 1

/-- PLD2 (R148). -/
def execPld2 (e : Eng) (rd ra : Reg) (imm : BitVec 10) (s : State) : Out := pld s e rd ra imm 2

/-- PLD3 (R148). -/
def execPld3 (e : Eng) (rd ra : Reg) (imm : BitVec 10) (s : State) : Out := pld s e rd ra imm 3

/-- PST1 (R148). -/
def execPst1 (e : Eng) (rd ra : Reg) (imm : BitVec 10) (s : State) : Out := pst s e rd ra imm 1

/-- PST2 (R148). -/
def execPst2 (e : Eng) (rd ra : Reg) (imm : BitVec 10) (s : State) : Out := pst s e rd ra imm 2

/-- PST3 (R148). -/
def execPst3 (e : Eng) (rd ra : Reg) (imm : BitVec 10) (s : State) : Out := pst s e rd ra imm 3

end Sys2Proof.Machine
end

