-- ==== Sys2Proof/Machine/UnitAccess.lean ====
section
/-! DEFINITION. SET, GET and COMMIT as engines issue them, POST, COLLECT and the postbox arbiter, and WATCH (R107, R108,
R115 to R118, R155 to R160). -/
namespace Sys2Proof.Machine

/-- Whether a SET at user level raises the privilege trap: a keeper word, or any ENG word (R109, R156). A write to CNT's NGO
is keeper only where it sets RESET (R642). -/
def keeperSet (a : Nat) (v : Word) : Bool :=
  uUnit a == 1 || (if uUnit a = 0x19 ∧ uWord a = 0x112 then bitOf v.toNat 1 else wordKeeper a)

/-- A SET or COMMIT put among those of engine e that are not accepted yet; a seventeenth stalls (R157). -/
def issueSet (s : State) (e : Nat) (commit : Bool) (a : Nat) (v : Word) : Eff :=
  let g := eng s e
  if 16 ≤ g.posted.length then .stall
  else .done (setEng s e { g with posted := g.posted ++ [⟨commit, a, v, g.serial⟩], serial := g.serial + 1 })

/-- SET: the address and the level are checked before it leaves the engine, the address first (R155, R156; the order is assumption log 72, DESIGN
CHOICE). -/
def execSet (e : Eng) (ra rb : Reg) (s : State) : Out :=
  instr s e 1 [ra, rb] fun g =>
    let a := (reg g rb).toNat
    if !wordExists a then .trap 8 a 0
    else if !g.kp && keeperSet a (reg g ra) then .trap 2 (encR 0x28 0 ra rb 0).toNat a
    else issueSet s e false a (reg g ra)

/-- COMMIT of the unit and number that bits [23:10] name (R155, R156). Detail 1 of its unit-refused trap shows ra whole (assumption log 72, DESIGN
CHOICE). -/
def execCommit (e : Eng) (ra : Reg) (s : State) : Out :=
  instr s e 1 [ra] fun g =>
    let a := (reg g ra).toNat / 1024 * 1024
    if !wordExists a then .trap 8 (reg g ra).toNat 0
    else issueSet s e true a 0

/-- GET: the engine waits for the unit's answer (R155, R156). -/
def execGet (e : Eng) (rd ra : Reg) (s : State) : Out :=
  instr s e 1 [rd, ra] fun g =>
    let a := (reg g ra).toNat
    if !wordExists a then .trap 8 a 0
    else .done (setEng s e { g with get := some (rd.val, a) })

/-- Counter kind of ENG: messages to a postbox number that is not assigned (R158). -/
def kEngMisdirected : Nat := 2

/-- POST: the message sets out for its postbox and the engine waits for the grant; a number that R116 does not assign sets NR
and counts as misdirected (R158, R159). -/
def execPost (e : Eng) (q : Fin 4) (rb : Reg) (s : State) : Out :=
  instr s e 1 [quad q 0, quad q 1, quad q 2, quad q 3, rb] fun g =>
    let d := bitsOf (reg g rb).toNat 0 8
    let m : Msg := ⟨e, bitsOf (reg g (quad q 0)).toNat 0 16, (reg g (quad q 1)).toNat, (reg g (quad q 2)).toNat, (reg g (quad q 3)).toNat⟩
    if boxOk d then .done (setEng s e { g with out := some (d, m, g.serial), serial := g.serial + 1 })
    else .done (count (setEng s e { g with nr := true }) 1 kEngMisdirected e)

/-- One engine's POST decided by the arbiter of postbox d: granted a place and NR cleared, or refused, counted and NR set
(R116, R117, R159). -/
def decidePost (s : State) (d e : Nat) : State :=
  let g := eng s e
  match g.out with
  | some (d', m, k) =>
    if d' ≠ d then s
    else if boxFull s d then count (setEng s e { g with out := none, nr := true }) 1 kEngRefused d
    else setServed (putPlace (setEng s e { g with out := none, nr := false }) d ⟨m, false, k⟩) d e
  | none => s

/-- The engines of a list in the arbiter's turn: round-robin, starting after the source it last granted (R117). -/
def inTurn (last : Nat) (l : List Nat) : List Nat :=
  ((List.range 208).map fun k => (last + 1 + k) % 208).filter fun x => l.contains x

/-- The engines' POSTs that reach postbox d's arbiter at one turn are decided round-robin (R117). Messages of chains, of loader and ROM and of
the units reach it at turns of their own, which move the place that the round-robin starts from (assumption log 68, DESIGN CHOICE). -/
def execPostboxArbitration (d : BitVec 8) (at_ : List Eng) (s : State) : Out :=
  if !live s || !boxOk d.toNat then .next s
  else .next ((inTurn (servedOf s d.toNat) (at_.map fun e => e.val)).foldl (fun s e => decidePost s d.toNat e) s)

/-- Whether the release of R108 holds for serial k of engine e: every earlier far store and SET is visible; near stores
are, at once. -/
def released (g : Engine) (k : Nat) : Bool :=
  !(g.posted.any fun p => p.serial < k) && !(g.far.any fun f => f.serial < k && (match f.kind with
    | .store => true
    | .blockStore _ => true
    | _ => false))

/-- A granted message becomes collectable, after those its sender posted before it to the same postbox (R108, R117,
R159). -/
def execMessageCollectable (d : BitVec 8) (e : Eng) (k : Nat) (s : State) : Out :=
  if !live s || !boxOk d.toNat then .next s
  else
    let l := boxOf s d.toNat
    let mine := fun (p : Place) => p.msg.sender == e.val && !p.ready
    match l.find? mine with
    | some p =>
      if p.serial = k ∧ released (eng s e) k then
        let s' := setBox s d.toNat (l.map fun x => if mine x && x.serial == k then { x with ready := true } else x)
        .next (if 0xf0 ≤ d.toNat ∧ ready s d.toNat = 0 then signal s' (8 + (d.toNat - 0xf0)) else s')
      else .next s
    | none => .next s

/-- Four words written to a quad. -/
def setQuad (g : Engine) (q : Nat) (a b c d : Word) : Engine :=
  setReg (setReg (setReg (setReg g (quad q 0) a) (quad q 1) b) (quad q 2) c) (quad q 3) d

/-- COLLECT: the oldest collectable message and NR cleared, or zeros and NR set (R118, R158). -/
def execCollect (e : Eng) (q : Fin 4) (s : State) : Out :=
  instrG s e 1 [quad q 0, quad q 1, quad q 2, quad q 3] fun g =>
    match takeFirst (fun p => p.ready) g.box with
    | some (p, l) =>
      setQuad { g with box := l, nr := false } q (wd (p.msg.sender * 65536 + p.msg.tag)) (wd p.msg.w1) (wd p.msg.w2) (wd p.msg.w3)
    | none => setQuad { g with nr := true } q 0 0 0 0

/-- WATCH: arms the watch on a shared-memory word and clears its latch (R160). -/
def execWatch (e : Eng) (ra : Reg) (s : State) : Out :=
  instr s e 1 [ra] fun g =>
    let a := (reg g ra).toNat
    if a < 0x80000 ∨ 0x100000 ≤ a then .trap 3 a 0
    else .done (setEng s e { g with watch := some (a - 0x80000), watchL := false })

end Sys2Proof.Machine
end

