-- ==== Sys2Proof/Machine/Shaper.lean ====
section
/-! DEFINITION. Shapers of the scheduling tree and what the fabric refuses under load (R448, R449, R574, R575). -/
namespace Sys2Proof.Machine

/-! ## Shapers -/

/-- A node's rates and bursts: level 0 port node, 1 service node, 2 subscriber node. -/
def nodeRates (s : State) (lvl n : Nat) : Node :=
  if lvl = 0 then { nodeReset with pir := rdF s fSCH_PNPIR_PIR n, pbs := rdF s fSCH_PNPBS_PBS n }
  else if lvl = 1 then svNode s n
  else sbNode s n

/-- Key of a node's credits. -/
def nodeKey (lvl n : Nat) : Nat := lvl * 65536 + n

/-- A node's credit that nothing has charged yet stands at its burst at reset, which is that of the port node's word (R449,
R459, assumption log 11). -/
def nodeCreditReset (k : Nat) : Credit := if k < 65536 then creditFull 12288 0 else creditReset

/-- Committed credit of a node now (R448). -/
def nodeC (s : State) (lvl n : Nat) : Int :=
  let r := nodeRates s lvl n
  creditAt (tget nodeCreditReset s.sch.c (nodeKey lvl n)) r.cir r.cbs s.sys.ticks

/-- Peak credit of a node now (R448). -/
def nodeP (s : State) (lvl n : Nat) : Int :=
  let r := nodeRates s lvl n
  creditAt (tget nodeCreditReset s.sch.p (nodeKey lvl n)) r.pir r.pbs s.sys.ticks

/-- Both credits of a node from now on. -/
def setNodeCredits (s : State) (lvl n : Nat) (c p : Int) : State :=
  { s with sch := { s.sch with
      c := tset nodeCreditReset s.sch.c (nodeKey lvl n) ⟨c, s.sys.ticks⟩
      p := tset nodeCreditReset s.sch.p (nodeKey lvl n) ⟨p, s.sys.ticks⟩ } }

/-- A node charged so many bytes: its peak credit, and its committed credit for a frame of the committed pass. A rate of 0 has
no credit to charge (R446, R448, R449). A negative charge corrects an earlier one (R453). -/
def chargeNode (s : State) (lvl n : Nat) (bytes : Int) (committed : Bool) : State :=
  let r := nodeRates s lvl n
  setNodeCredits s lvl n (if committed && r.cir != 0 then nodeC s lvl n - bytes * perByte else nodeC s lvl n)
    (if r.pir != 0 then nodeP s lvl n - bytes * perByte else nodeP s lvl n)

/-- Whether a node's peak shaper lets a frame go (R445). -/
def peakOk (s : State) (lvl n : Nat) : Bool := (nodeRates s lvl n).pir == 0 || decide (0 ≤ nodeP s lvl n)

/-- Whether a node takes part in the committed pass now (R446, R449). -/
def committedOk (s : State) (lvl n : Nat) : Bool := (nodeRates s lvl n).cir != 0 && decide (0 ≤ nodeC s lvl n)

/-- Every node of queue q's path charged so many bytes; comm has the levels (1 service, 2 subscriber, as bits) whose committed
credit is charged too (R446, R448). -/
def chargePath (s : State) (q : Nat) (bytes : Int) (comm : Nat) : State :=
  match pathOf s q with
  | some (b, v, n) => chargeNode (chargeNode (chargeNode s 0 n bytes false) 1 v bytes (bitOf comm 1)) 2 b bytes (bitOf comm 2)
  | none => s

/-! ## Overload -/

/-- The overload causes that hold now (R574): the level always, forcing, a junction above 110 °C, a core voltage below the band of
the level in force. -/
def overCauses (s : State) : Nat :=
  let tj := sext (rdF s fPWR_TJ_T) 16
  let mv := rdF s fPWR_VCORE_MV
  let low := [800, 740, 680, 620].getD (rdF s fPWR_STATE_CURL) 0
  1 + 2 * b2n (onF s fPWR_STATE_FORCED) + 4 * b2n (isReady s (fAddr fPWR_TJ_T 0 0) && decide (1100 < tj)) +
    8 * b2n (isReady s (fAddr fPWR_VCORE_MV 0 0) && decide (mv < low))

/-- The fabric refuses work of a port or channel: each cause that holds is counted and OVLD shows it (R574). -/
def overload (s : State) (obj : Nat) : State :=
  let k := overCauses s
  let s := (List.range 4).foldl (fun s i => if bitOf k i then count s 0x16 i obj else s) s
  wrF { s with ovAt := some s.sys.ticks } fPWR_OVLD_CAUSE (rdF s fPWR_OVLD_CAUSE ||| k)

/-- Whether an overload cause has been counted in the last 100 µs, 62,500 ticks (R574, R584). -/
def overRecent (s : State) : Bool := s.ovAt.any fun t => s.sys.ticks - t < 62500

end Sys2Proof.Machine
end

