-- ==== Sys2Proof/Machine/Gates.lean ====
section
/-! DEFINITION. Scheduled gates: entries, lists, the gates of an instant, list commits and time steps (R320 to R327). -/
namespace Sys2Proof.Machine

/-- The time counter in nanoseconds (R515). -/
def nowNs (s : State) : Nat := s.time.sec * 1000000000 + s.time.ns

/-- A gate entry at reset: gates, operation, interval (R336). -/
def gateReset : Nat × Nat × Nat := (0xff, 0, 0)

/-- Entry i of page g of port p. -/
def gateEntry (s : State) (p g i : Nat) : Nat × Nat × Nat := tget (fun _ => gateReset) (macP s p).gates (g * 256 + i)

/-- What holds at an instant: the gates, the operation of the entry in force, its number, and until when, in ns. -/
structure GateAt where
  gates : Nat
  op : Nat
  entry : Nat
  till : Nat
deriving DecidableEq, Repr

/-- The entry at phase x of a cycle, with its number and the phase at which it ends; the last entry holds to the cycle's end
(R320). The numbers are the first entry's number and phase. -/
def gateWalk : List (Nat × Nat × Nat) → Nat → Nat → Nat → Nat → Nat × (Nat × Nat × Nat) × Nat
  | [], i, _, stop, _ => (i, gateReset, stop)
  | [e], i, _, stop, _ => (i, e, stop)
  | e :: l, i, start, stop, x =>
    if x < start + e.2.2 then (i, e, min stop (start + e.2.2)) else gateWalk l (i + 1) (start + e.2.2) stop x

/-- The start of the cycle of list g that instant t lies in (R320). -/
def cycleStart (g : GList) (t : Nat) : Nat :=
  if g.base ≤ t then g.base + (t - g.base) / g.cyc * g.cyc else g.base - (g.base - t + g.cyc - 1) / g.cyc * g.cyc

/-- The entries in use of list g of port p. -/
def listEntries (s : State) (p : Nat) (g : GList) : List (Nat × Nat × Nat) :=
  (List.range g.len).map fun i => gateEntry s p g.page i

/-- What list g of port p gives at instant t, with the instant at which the waiting list takes over: a cycle that would start
within the extension window of that instant does not start, and the last entry that a cycle runs holds instead (R320, R324). -/
def listAt (s : State) (p : Nat) (g : GList) (takeover : Option Nat) (t : Nat) : GateAt :=
  let c := cycleStart g t
  let w := gateWalk (listEntries s p g) 0 0 g.cyc (t - c)
  let last := gateWalk (listEntries s p g) 0 0 g.cyc (g.cyc - 1)
  match takeover with
  | some x =>
    let y := cycleStart g x
    if y < x ∧ x - y ≤ g.ext ∧ y ≤ t then ⟨last.2.1.1, last.2.1.2.1, last.1, x⟩ else ⟨w.2.1.1, w.2.1.2.1, w.1, min x (c + w.2.2)⟩
  | none => ⟨w.2.1.1, w.2.1.2.1, w.1, c + w.2.2⟩

/-- The gates of port p at instant t: of the waiting list once its instant has come, of the operating list before, and GDEF
while there is none (R320, R323, R324). -/
def gatesAt (s : State) (p t : Nat) : GateAt :=
  let m := macP s p
  let rest := fun (takeover : Option Nat) => match m.oper with
    | some g => listAt s p g takeover t
    | none => ⟨rdF s fMAC_GDEF_GATES p, 0, 0, takeover.getD (t + 1000000000000)⟩
  match m.wait with
  | some w => if w.at_ ≤ t then listAt s p w none t else rest (some w.at_)
  | none => rest none

/-- Whether class c's gate stays open from instant t for so many ns. The first argument bounds the entries passed. -/
def staysOpen : Nat → State → Nat → Nat → Nat → Nat → Bool
  | 0, _, _, _, _, _ => false
  | k + 1, s, p, c, t, need =>
    let g := gatesAt s p t
    bitOf g.gates c && (t + need ≤ g.till || staysOpen k s p c g.till (t + need - g.till))

/-- Whether a transmission of so many bytes, preamble and gap included, may start at port p in class c now (R321): its gate is
open and closes no earlier than the transmission ends. -/
def gateFits (s : State) (p c bytes : Nat) : Bool :=
  let need := lineNs bytes (portRate s p)
  bitOf (rdF s fMAC_GSTAT_GATES p) c && staysOpen (need + 1) s p c (nowNs s) need

/-- The express or preemptable selection of a MAC. -/
def selOf (m : MacP) (pre : Bool) : Option Sel := if pre then m.pr else m.ex

/-- A selection that has been sent on while its gate closes (R321). -/
def gateOver (g : Nat) (x : Sel) : Sel := if bitOf g x.cls then x else { x with overrun := true }

/-- The same for a transmission that starts at the next gate change, when the frame that SCH selects now is to be ready (R451). -/
def gateFitsNext (s : State) (p c bytes : Nat) : Bool :=
  let need := lineNs bytes (portRate s p)
  let t := (gatesAt s p (nowNs s)).till
  bitOf (gatesAt s p t).gates c && staysOpen (need + 1) s p c t need

/-- The gates, the entry and the hold state of port p as the present instant gives them; a gate may close on the frame in transmission (R320 to
R322). -/
def gateApply (s : State) (p : Nat) : State :=
  let g := gatesAt s p (nowNs s)
  let m := macP s p
  let m := match m.cur with
    | some false => { m with ex := m.ex.map (gateOver g.gates) }
    | some true => { m with pr := m.pr.map (gateOver g.gates) }
    | none => m
  let s := wrF (wrF s fMAC_GSTAT_GATES g.gates p) fMAC_GSTAT_ENTRY g.entry p
  setMac s p { m with hold := if g.op = 1 then true else if g.op = 2 then false else m.hold }

/-- Seconds nearest to now whose low n bits are given: within 2^(n-1) of it. -/
def nearSec (now low n : Nat) : Nat :=
  let d := (low + 2 ^ n - now % 2 ^ n) % 2 ^ n
  if d < 2 ^ (n - 1) then now + d else now + d - 2 ^ n

/-- GBASE in effect at port p, resolved against a commit time in ns (R323). -/
def gateBase (s : State) (p t : Nat) : Nat :=
  nearSec (t / 1000000000) (rdF s fMAC_GBASE2_S p) 24 * 1000000000 +
  rdF s fMAC_GBASE1_NH p * 2 ^ 24 + rdF s fMAC_GBASE0_NL p

/-- What a commit that has applied at port p brings to its gates; t is the commit time in ns (R323 to R325). -/
def gateCommit (s : State) (p t : Nat) : State :=
  let m := macP s p
  let shown := fun (s : State) => if (macP s p).oper.isNone then wrF s fMAC_GSTAT_GATES (rdF s fMAC_GDEF_GATES p) p else s
  if !onF s fMAC_GCTL_GATEEN p then
    shown (wrF (wrF (setMac s p { m with oper := none, wait := none }) fMAC_GSTAT_WAIT 0 p) fMAC_GSTAT_ENTRY 0 p)
  else
    let base := gateBase s p t
    let cyc := rdF s fMAC_GCYC1_CH p * 2 ^ 24 + rdF s fMAC_GCYC0_CL p
    let n := if t + 2000 ≤ base then 0 else (t + 2000 - base + cyc - 1) / cyc
    let g : GList := { page := rdF s fMAC_GCTL_PAGE p, base := base, cyc := cyc, len := rdF s fMAC_GCTL_GLEN p,
                       ext := rdF s fMAC_GEXT_E p, at_ := base + n * cyc, n := n }
    shown (wrF (setMac s p { m with wait := some g }) fMAC_GSTAT_WAIT 1 p)

/-- Whether entry i of page g of port p may not be written: its page is in force, or its list waits (R325). -/
def pageHeld (s : State) (p g : Nat) : Bool :=
  (macP s p).oper.any (fun l => l.page == g) || (macP s p).wait.any (fun l => l.page == g)

/-- Counter kinds of MAC, per port (R336), or per port * 8 + class: frames received. -/
def kMacRx : Nat := 0
/-- Bytes received. -/
def kMacRxBytes : Nat := 1
/-- Frames sent. -/
def kMacTx : Nat := 2
/-- Bytes sent. -/
def kMacTxBytes : Nat := 3
/-- Runts. -/
def kMacRunt : Nat := 4
/-- Oversize frames. -/
def kMacOver : Nat := 5
/-- FCS errors. -/
def kMacFcs : Nat := 6
/-- Stomps of a cause: 1 ICV, 2 FCS or MAXLEN, 3 reassembly, 4 ingress lost, 5 poison, 6 underrun, 7 halt (R314). -/
def kMacStomp (cause : Nat) : Nat := 7 + cause
/-- Fragments sent. -/
def kMacFragTx : Nat := 15
/-- Fragments received. -/
def kMacFragRx : Nat := 16
/-- Reassembly errors. -/
def kMacReasm : Nat := 17
/-- Frames held by a gate, per class. -/
def kMacHeld : Nat := 18
/-- Frames a gate closed on, per class. -/
def kMacOverrun : Nat := 19
/-- Pause frames received, per class. -/
def kMacPauseRx : Nat := 21
/-- Pause frames ignored, per class. -/
def kMacPauseIgn : Nat := 22
/-- Frames that cut through. -/
def kMacCut : Nat := 23
/-- Frames sent unchanged under R330. -/
def kMacUnfixed : Nat := 24
/-- Writes to gate entries discarded (R325). -/
def kMacEntry : Nat := 25
/-- Writes of EN = 1 ignored (R335). -/
def kMacNoEn : Nat := 26

/-- A write to a gate entry: discarded, counted and recorded where its page is held (R325, R336). -/
def writeEntry (s : State) (p : Nat) (f : Nat × Nat × Nat → Nat × Nat × Nat) : State :=
  let g := rdF s fMAC_GESEL_PG p
  let i := rdF s fMAC_GESEL_ENTRY p
  if pageHeld s p g then emit2 (count s 8 kMacEntry p) 0x200014 g i
  else setMac s p { macP s p with gates := tset (fun _ => gateReset) (macP s p).gates (g * 256 + i) (f (gateEntry s p g i)) }

/-- A SET of GEA: word A of the entry that GESEL names (R336); OP 3 is not assigned (R171). -/
def execGeaWrite (e : Eng) (p : Port) (v : Word) (s : State) : Out :=
  let a := fAddr fMAC_GEA_GATES p 0
  onSet s e a v fun s =>
    let s := if assigned a v.toNat then s else unassigned s a (bitsOf v.toNat 8 2)
    writeEntry s p fun x => (bitsOf v.toNat 0 8, if bitsOf v.toNat 8 2 = 3 then x.2.1 else bitsOf v.toNat 8 2, x.2.2)

/-- A SET of GEB: word B of the entry, and ENTRY moves on by one modulo 256 (R336). -/
def execGebWrite (e : Eng) (p : Port) (v : Word) (s : State) : Out :=
  onSet s e (fAddr fMAC_GEB_INTERVAL p 0) v fun s =>
    let s := writeEntry s p fun x => (x.1, x.2.1, v.toNat)
    wrF s fMAC_GESEL_ENTRY (rdF s fMAC_GESEL_ENTRY p + 1) p

end Sys2Proof.Machine
end

