-- ==== Sys2Proof/Machine/Parser.lean ====
section
/-! DEFINITION. The parser: headers, the field vector, malformed frames, the keys and the load-spread hash (R394 to R400,
R405). -/
namespace Sys2Proof.Machine

/-- What the parser has found: the kind of a malformed frame, FLAGS without the bits that come from elsewhere, and the fields
of R396 and R398. -/
structure Parse where
  bad : Option Nat
  tags : Nat
  ipv4 : Bool
  ipv6 : Bool
  tcp : Bool
  udp : Bool
  frag : Bool
  ipopt : Bool
  eapol : Bool
  ptp : Bool
  ecpri : Bool
  mpls : Bool
  tunnel : Bool
  ttl1 : Bool
  da : Nat
  sa : Nat
  ovid : Nat
  opcp : Nat
  ivid : Nat
  etype : Nat
  dscp : Nat
  ecn : Nat
  proto : Nat
  src : Nat
  dst : Nat
  l4src : Nat
  l4dst : Nat
  tcpf : Nat
  aux : Nat
  flowlbl : Nat
  vni : Nat
  l3at : Nat
  l4at : Nat
  ptpAt : Nat
deriving DecidableEq, Repr

/-- Nothing found yet. -/
def parseStart : Parse :=
  { bad := none, tags := 0, ipv4 := false, ipv6 := false, tcp := false, udp := false, frag := false, ipopt := false,
    eapol := false, ptp := false, ecpri := false, mpls := false, tunnel := false, ttl1 := false, da := 0, sa := 0, ovid := 0,
    opcp := 0, ivid := 0, etype := 0, dscp := 0, ecn := 0, proto := 0, src := 0, dst := 0, l4src := 0, l4dst := 0, tcpf := 0,
    aux := 0, flowlbl := 0, vni := 0, l3at := 0, l4at := 0, ptpAt := 0 }

/-- Byte i of a frame as a number. -/
def fb (d : List Byte) (i : Nat) : Nat := (byteAt d i).toNat

/-- n bytes of a frame from i as a number. -/
def fu (d : List Byte) (i n : Nat) : Nat := ofBytes (bytesAt d i n)

/-- Whether a header that ends before byte e of the frame lies whole in the frame and in its first 256 bytes. -/
def fits (d : List Byte) (e : Nat) : Bool := e ≤ d.length && e ≤ 256

/-- A frame whose header ends at byte e, which does not fit: TRUNC where the frame ends before byte 256, else DEEP (R400,
assumption log 10, DEDUCED). -/
def short (d : List Byte) (p : Parse) : Parse := { p with bad := some (if d.length < 256 then 0 else 7) }

/-- The PTP common header at o: messageType and domainNumber (R394). -/
def parsePtp (d : List Byte) (p : Parse) (o : Nat) : Parse :=
  if !fits d (o + 34) then short d p
  else { p with ptp := true, ptpAt := o, aux := fb d o % 16 * 256 + fb d (o + 4) }

/-- The transport header at o of a frame that is no fragment (R394, R400). -/
def parseL4 (d : List Byte) (p : Parse) (o : Nat) : Parse :=
  if p.proto = 6 then
    if !fits d (o + 20) then short d p
    else if fb d (o + 12) / 16 < 5 then { p with bad := some 6 }
    else if !fits d (o + 4 * (fb d (o + 12) / 16)) then short d p
    else { p with tcp := true, l4at := o, l4src := fu d o 2, l4dst := fu d (o + 2) 2, tcpf := fb d (o + 13) }
  else if p.proto = 17 then
    if !fits d (o + 8) then short d p
    else if fu d (o + 4) 2 < 8 then { p with bad := some 6 }
    else
      let p := { p with udp := true, l4at := o, l4src := fu d o 2, l4dst := fu d (o + 2) 2 }
      if p.l4dst = 4789 then
        if !fits d (o + 16) then short d p else { p with tunnel := true, vni := fu d (o + 12) 3 }
      else if p.l4dst = 319 ∨ p.l4dst = 320 then parsePtp d p (o + 8)
      else p
  else if p.proto = 1 ∨ p.proto = 58 then
    if !fits d (o + 4) then short d p else { p with aux := fu d o 2 }
  else p

/-- The one's complement sum of n 16-bit words from o, folded. -/
def sum16 (d : List Byte) (o n : Nat) : Nat :=
  let t := ((List.range n).map fun k => fu d (o + 2 * k) 2).sum
  let t := t % 65536 + t / 65536
  t % 65536 + t / 65536

/-- The IPv4 header at o and what follows it (R394, R399, R400). -/
def parseIpv4 (d : List Byte) (p : Parse) (o : Nat) : Parse :=
  if !fits d (o + 20) then short d p
  else
    let ihl := fb d o % 16
    if fb d o / 16 ≠ 4 ∨ ihl < 5 then { p with bad := some 2 }
    else if !fits d (o + 4 * ihl) then short d p
    else if sum16 d o (2 * ihl) ≠ 65535 then { p with bad := some 3 }
    else if fu d (o + 2) 2 < 4 * ihl then { p with bad := some 4 }
    else
      let p := { p with
        ipv4 := true, l3at := o, dscp := fb d (o + 1) / 4, ecn := fb d (o + 1) % 4, proto := fb d (o + 9),
        src := fu d (o + 12) 4, dst := fu d (o + 16) 4, ttl1 := decide (fb d (o + 8) ≤ 1), ipopt := decide (5 < ihl),
        frag := fu d (o + 6) 2 % 0x4000 != 0 }
      if p.frag then p else parseL4 d p (o + 4 * ihl)

/-- The extension headers of an IPv6 packet from o: k of them have gone before, of so many bytes; nh is the next header. A
hop-by-hop header is well formed in the first place only (R394, R400, assumption log 10, DEDUCED). -/
def parseExt : Nat → List Byte → Parse → Nat → Nat → Nat → Nat → Nat → Parse
  | 0, _, p, _, _, _, _, _ => p
  | n + 1, d, p, o, k, len, nh, plen =>
    if nh = 0 ∨ nh = 43 ∨ nh = 44 ∨ nh = 60 then
      if k = 4 ∨ (nh = 0 ∧ k ≠ 0) then { p with bad := some 5 }
      else if !fits d (o + 2) then short d p
      else
        let l := if nh = 44 then 8 else 8 * (fb d (o + 1) + 1)
        if !fits d (o + l) then short d p
        else if plen < len + l then { p with bad := some 4 }
        else parseExt n d { p with ipopt := true, frag := p.frag || nh == 44 } (o + l) (k + 1) (len + l) (fb d o) plen
    else
      let p := { p with proto := nh }
      if p.frag then p else parseL4 d p o

/-- The IPv6 header at o and what follows it (R394, R399, R400). -/
def parseIpv6 (d : List Byte) (p : Parse) (o : Nat) : Parse :=
  if !fits d (o + 40) then short d p
  else
    let w := fu d o 4
    let p := { p with
      ipv6 := true, l3at := o, dscp := bitsOf w 22 6, ecn := bitsOf w 20 2, flowlbl := bitsOf w 0 20,
      src := fu d (o + 8) 16, dst := fu d (o + 24) 16, ttl1 := decide (fb d (o + 7) ≤ 1) }
    parseExt 6 d p (o + 40) 0 0 (fb d (o + 6)) (fu d (o + 4) 2)

/-- What stands behind the last tag, its EtherType at o - 2 (R394). -/
def parseType (d : List Byte) (p : Parse) (o : Nat) : Parse :=
  if p.etype = 0x8847 ∨ p.etype = 0x8848 then
    if !fits d (o + 4) then short d p else { p with mpls := true, vni := fu d o 4 / 4096 }
  else if p.etype = 0x0800 then parseIpv4 d p o
  else if p.etype = 0x86dd then parseIpv6 d p o
  else if p.etype = 0xaefe then
    if !fits d (o + 6) then short d p else { p with ecpri := true, aux := fb d (o + 1) * 256 + fb d (o + 4) }
  else if p.etype = 0xfc3d then
    if !fits d (o + 8) then short d p else { p with aux := fu d o 2 }
  else if p.etype = 0x88f7 then parsePtp d p o
  else if p.etype = 0x888e then { p with eapol := true }
  else p

/-- VLAN tags from byte o, the type of what stands there at o - 2 (R394, R400). -/
def parseTags : Nat → List Byte → Parse → Nat → Parse
  | 0, _, p, _ => p
  | n + 1, d, p, o =>
    let t := fu d (o - 2) 2
    if t = 0x8100 ∨ t = 0x88a8 ∨ t = 0x9100 then
      if p.tags = 2 then { p with bad := some 1 }
      else if !fits d (o + 4) then short d p
      else
        let v := fu d o 2
        let p := if p.tags = 0 then { p with ovid := v % 4096, opcp := v / 8192 } else { p with ivid := v % 4096 }
        parseTags n d { p with tags := p.tags + 1 } (o + 4)
    else parseType d { p with etype := t } o

/-- A frame parsed, its FCS left off (R394, R395, R399). -/
def parse (d : List Byte) : Parse :=
  if !fits d 14 then short d parseStart
  else parseTags 4 d { parseStart with da := fu d 0 6, sa := fu d 6 6 } 14

/-- FLAGS: what the parser found, and whether MSEC removed a SecTAG (R397). -/
def flagsOf (p : Parse) (prot : Bool) : Nat :=
  p.tags * 2 ^ 14 + b2n p.ipv4 * 2 ^ 13 + b2n p.ipv6 * 2 ^ 12 + b2n p.tcp * 2 ^ 11 + b2n p.udp * 2 ^ 10 + b2n p.frag * 2 ^ 9 +
  b2n p.ipopt * 2 ^ 8 + b2n prot * 2 ^ 7 + b2n p.eapol * 2 ^ 6 + b2n p.ptp * 2 ^ 5 + b2n p.ecpri * 2 ^ 4 + b2n p.mpls * 2 ^ 3 +
  b2n p.tunnel * 2 ^ 2 + b2n p.ttl1 * 2 + b2n (bitOf p.da 40)

/-- An address of IPv4 as it stands, of IPv6 as the exclusive or of its four words (R396). -/
def fold128 (a : Nat) : Nat := bitsOf a 96 32 ^^^ bitsOf a 64 32 ^^^ bitsOf a 32 32 ^^^ bitsOf a 0 32

/-- The narrow key (R396). -/
def narrowKey (p : Parse) (source pmeta : Nat) (prot : Bool) : Nat :=
  source * 2 ^ 312 + flagsOf p prot * 2 ^ 296 + p.da * 2 ^ 248 + p.sa * 2 ^ 200 + p.ovid * 2 ^ 188 + p.opcp * 2 ^ 185 +
  p.ivid * 2 ^ 173 + p.etype * 2 ^ 157 + p.dscp * 2 ^ 151 + p.ecn * 2 ^ 149 + p.proto * 2 ^ 141 + fold128 p.src * 2 ^ 109 +
  fold128 p.dst * 2 ^ 77 + p.l4src * 2 ^ 61 + p.l4dst * 2 ^ 45 + p.tcpf * 2 ^ 37 + p.aux * 2 ^ 21 + pmeta * 2 ^ 5

/-- The low half of the wide key (R398). -/
def wideLow (p : Parse) : Nat := p.src * 2 ^ 192 + p.dst * 2 ^ 64 + p.flowlbl * 2 ^ 44 + p.vni * 2 ^ 20

/-- The hash input of R405 as bytes. -/
def hashInput (p : Parse) (hf : Nat) : List Nat :=
  if hf = 0 then numBytes 16 ((p.da * 2 ^ 76 + p.sa * 2 ^ 28 + p.ovid * 2 ^ 16 + p.etype) * 2 ^ 4)
  else if hf = 1 then numBytes 33 (p.proto * 2 ^ 256 + p.src * 2 ^ 128 + p.dst)
  else if hf = 2 then numBytes 37 (((p.proto * 2 ^ 16 + p.l4src) * 2 ^ 16 + p.l4dst) * 2 ^ 256 + p.src * 2 ^ 128 + p.dst)
  else
    let l4 := (p.proto * 2 ^ 16 + p.l4src) * 2 ^ 16 + p.l4dst
    let l3 := l4 * 2 ^ 256 + p.src * 2 ^ 128 + p.dst
    numBytes 43 (((l3 * 2 ^ 20 + p.flowlbl) * 2 ^ 24 + p.vni) * 2 ^ 4)

/-- The load-spread hash under a seed for the fields an action selects (R405). -/
def spreadHash (p : Parse) (hfields seed : Nat) : Nat :=
  let hf := if p.frag then 1 else if !p.ipv4 && !p.ipv6 then 0 else hfields
  crc32c (0xff * 2 ^ 24 + seed) (hashInput p hf)

end Sys2Proof.Machine
end

