-- ==== Sys2Proof/Machine/Mac.lean ====
section
/-! DEFINITION. Frame MACs: reception, pause, checksums, transmission and preemption, verification, gate events, and MSEC's turn at
egress (R312 to R336, R360, R531, R575). -/
namespace Sys2Proof.Machine

/-! ## Selections and the line -/

/-- The express or preemptable selection of port p replaced. -/
def setSel (s : State) (p : Nat) (pre : Bool) (x : Option Sel) : State :=
  setMac s p (if pre then { macP s p with pr := x } else { macP s p with ex := x })

/-- Whether preemption is active at port p (R315). -/
def preActive (s : State) (p : Nat) : Bool := onF s fMAC_MPSTAT_ACTIVE p

/-- m, the least fragment of port p in bytes, mCRC included (R316). -/
def minFrag (s : State) (p : Nat) : Nat := 64 * (1 + rdF s fMAC_MPRE_MINFRAG p)

/-- Whether class c of port p is held by received PAUSE or PFC (R328). -/
def pausedClass (s : State) (p c : Nat) : Bool := bitOf (rdF s fMAC_MSTAT_PAUSED p) c

/-- Whether preemptable frames of port p are held: a hold has no effect while preemption is inactive (R322). -/
def held (s : State) (p : Nat) : Bool := preActive s p && (macP s p).hold

/-- Bytes of a selection that the gate check counts: what is left of the frame as MSEC has made it, or of MAXLEN for one that cuts through, with FCS,
preamble and gap; with preemption active a preemptable frame needs room for one fragment only (R321). -/
def gateBytes (s : State) (p : Nat) (x : Sel) (pre : Bool) : Nat :=
  let n := (if x.cut.isSome then rdF s fMAC_MCFG_MAXLEN p else x.bytes.length + 4) - x.off
  (if pre && preActive s p then min n (minFrag s p) else n) + 20

/-- Whether a selection that MSEC has settled may start or resume now: no hold and an open gate with room, and for one that has not begun no
pause of its class, a MAC that is ACTIVE or completes what it has admitted, and no commit that is due at this frame boundary (R181, R316, R321,
R322, R328, R334). -/
def mayStart (s : State) (p : Nat) (x : Sel) (pre : Bool) : Bool :=
  x.ready && !(pre && held s p) && gateFits s p x.cls (gateBytes s p x pre) &&
  (x.off != 0 || (!pausedClass s p x.cls && (ustat s 8 p == 1 || ustat s 8 p == 2) && !commitDue s 8 p))

/-- Whether the MAC of port p may transmit: it has lanes in a frame mode, they run, and the port is up (R303, R312, R334). -/
def macRuns (s : State) (p : Nat) : Bool := frameMode s p && linkUp s p && (portLanes s p).all fun l => laneRuns s l

/-! ## What the scheduler could send -/

/-- Whether every shaper on queue q's path lets a frame go (R453). -/
def pathPeakOk (s : State) (q : Nat) : Bool :=
  (pathOf s q).any fun x => peakOk s 0 x.2.2 && peakOk s 1 x.2.1 && peakOk s 2 x.1

/-- Whether class c of port n is preemptable now (R315, R335). -/
def isPreemptable (s : State) (n c : Nat) : Bool := preActive s n && bitOf (rdF s fMAC_MPRE_PCLASS n) c

/-- Whether queue q of class c below node n holds a frame that could be sent but for gate, pause and hold (R443, R445); to a gated port
only EAPOL leaves (R589). -/
def stands (s : State) (n c q : Nat) : Bool :=
  !(queue s q).frames.isEmpty && !notReady s q && qClass s q == c && (pathOf s q).any (fun p => p.2.2 == n) && pathPeakOk s q &&
    (!gatedPort s n || (queue s q).frames.head?.any fun f => isEapol f.frame.bytes)

/-- Whether the gate of class c of port n has room for the head frame of queue q: now, or at the next gate change for a decision that SCH makes ahead
of it (R321, R445, R451). -/
def gateRoom (s : State) (n c : Nat) (ahead : Bool) (q : Nat) : Bool :=
  let len := ((queue s q).frames.head?.map fun f => f.frame.bytes.length).getD 0 + 4
  let need := (if isPreemptable s n c then min len (minFrag s n) else len) + 20
  if ahead then gateFitsNext s n c need else gateFits s n c need

/-- Whether the head frame of queue q may go at port n in class c: no pause, no hold of a preemptable class, an open gate with
room (R321, R322, R328, R445). Every class of an allocation is open (R454). -/
def open_ (s : State) (n c : Nat) (ahead : Bool) (q : Nat) : Bool :=
  32 ≤ n || (!pausedClass s n c && !(isPreemptable s n c && held s n) && gateRoom s n c ahead q)

/-- The queues of class c below node n that are eligible for a decision made now, or ahead of the next gate change (R445, R451). -/
def candidates (s : State) (n c : Nat) (ahead : Bool := false) : List Nat :=
  (s.qm.queues.filter fun x => stands s n c x.1 && open_ s n c ahead x.1).map fun x => x.1

/-- Whether an express frame is ready at port p that must leave before a cut frame resumes: one that MSEC has still to settle, or one that SCH could
select now (R316). -/
def expressFirst (s : State) (p : Nat) : Bool :=
  match (macP s p).ex with
  | some x => !x.ready
  | none => active s 0x0e p && (List.range 8).any fun c => !isPreemptable s p c && !(candidates s p c).isEmpty

/-- The charge of a frame that cut through corrected to so many bytes (R453). -/
def correctCharge (s : State) (x : Sel) (bytes : Nat) : State :=
  if x.cut.isSome then chargePath s x.queue ((bytes : Int) - x.charged) x.comm else s

/-- A selection given up before any byte of it has left; the frame that cut through is bound for nothing any more. -/
def dropSel (s : State) (p : Nat) (pre : Bool) (x : Sel) : State :=
  let s := setSel (correctCharge s x 0) p pre none
  match x.cut.bind (flight s) with
  | some y => setFlight s { y with dest := .none }
  | none => s

/-- A selection that cuts through, whose ICV has failed before any byte of it left, given up and counted (R356). -/
def dropInvalid (s : State) (p : Nat) (pre : Bool) : State :=
  match (selOf (macP s p) pre).filter fun x => x.off == 0 && (macP s p).cur != some pre && (x.cut.bind (flight s)).any fun y => y.bad == 1 with
  | some x => dropSel (count s 0x0a kMsInvDiscard p) p pre x
  | none => s

/-! ## The line -/


/-- A selection put on the line; its postmark is that of its first fragment, after the 8 bytes of preamble and SFD (R331). -/
def putOnLine (s : State) (p : Nat) (pre : Bool) (x : Sel) : State :=
  let s := setSel s p pre (some (if x.off = 0 then { x with mark := markIn s (lineNs 8 (portRate s p)) } else x))
  setMac s p { macP s p with cur := some pre }

/-- On an idle line the express selection starts if it may, else the preemptable one starts, or resumes after the express frames that are ready
(R316). -/
def startNext (s : State) (p : Nat) : State :=
  let s := dropInvalid (dropInvalid s p false) p true
  let m := macP s p
  if m.cur.isSome || !macRuns s p then s
  else match m.ex.filter fun x => mayStart s p x false with
    | some x => putOnLine s p false x
    | none => match m.pr.filter fun x => mayStart s p x true && (x.off == 0 || !expressFirst s p) with
      | some x => putOnLine s p true x
      | none => s

/-! ## Reception -/

/-- Whether a frame is a PAUSE or PFC frame (R328). -/
def isPause (b : List Byte) : Bool :=
  fu b 0 6 == 0x0180c2000001 && fu b 12 2 == 0x8808 && (fu b 14 2 == 1 || fu b 14 2 == 0x101)

/-- The FCS of a frame as received is right (R313). -/
def fcsGood (b : List Byte) : Bool := b.drop (b.length - 4) == fcsOf (b.take (b.length - 4))

/-- Whether the reserve of port p's receive buffer admits a frame (R575). -/
def reserveAdmits (s : State) (p : Nat) (b : List Byte) : Bool :=
  let t := fu b 12 2
  if t = 0x8100 ∨ t = 0x88a8 ∨ t = 0x9100 then bitOf (rdF s fPWR_OVPCP_PCP 0 p) (fb b 14 / 32) else onF s fPWR_OVPCP_UNTAG 0 p

/-- A frame that comes from the line, as the rest of the module is told of it: bytes without FCS, and the postmark of its SFD, so many ns ago
(R331). -/
def lineFrame (s : State) (p sfd : Nat) (b : List Byte) : Frame :=
  { bytes := b, source := p, flow := 0, colour := 0, queue := 0, txsc := 0, mark := markIn s (-(sfd : Int)), action := 0, frag := false,
    poison := false, fixcs := false, hdr := ⟨0, 0, 0, 0⟩, orig := [], waits := [], hash := 0 }

/-- The frame being received at port p in the express or the preemptable state. -/
def setRxSlot (s : State) (p : Nat) (pre : Bool) (x : Option RxFrame) : State :=
  setMac s p (if pre then { macP s p with rxPr := x } else { macP s p with rxEx := x })

/-- Bit c of PAUSED or WDACT of port p given a value. -/
def setClassBit (s : State) (f : Fld) (p c : Nat) (b : Bool) : State := wrF s f (putBits (rdF s f p) c 1 (b2n b)) p

/-- Ticks that so many pause quanta of 512 bit times last at port p (R328). -/
def quantaTicks (s : State) (p q : Nat) : Nat := if portRate s p = 0 then 0 else (q * 320 + portRate s p - 1) / portRate s p

/-- Class c of port p held by received pause for so many quanta, or released by none; a class that was held stays held without a break (R328,
R329). -/
def holdClass (s : State) (p c q : Nat) : State :=
  let m := macP s p
  let s := setMac s p { m with
    till := tset (fun _ => 0) m.till c (s.sys.ticks + quantaTicks s p q)
    since := if pausedClass s p c then m.since else tset (fun _ => 0) m.since c s.sys.ticks }
  setClassBit s fMAC_MSTAT_PAUSED p c (q != 0)

/-- A received PAUSE or PFC frame acted on (R328, R329): each class it names is held, or released where its time is 0; while the
watchdog recovers it is ignored and counted. -/
def pauseReceived (s : State) (p : Nat) (b : List Byte) : State :=
  let pfc := decide (fu b 14 2 = 0x101)
  let s := (List.range 8).foldl (fun s c =>
    if pfc && !bitOf (fb b 17) c then s
    else
      let s := count s 8 kMacPauseRx (8 * p + c)
      if !onF s fMAC_MCFG_RXPAUSE p then s
      else if bitOf (rdF s fMAC_MSTAT_WDACT p) c then count s 8 kMacPauseIgn (8 * p + c)
      else holdClass s p c (if pfc then fu b (18 + 2 * c) 2 else fu b 16 2)) s
  startNext s p

/-- A frame being received at port p ends (R313, R317): how as MAC_RX_FRAME_END says it. -/
def rxEnd (s : State) (p : Nat) (pre : Bool) (how frags : Nat) : State :=
  match (if pre then (macP s p).rxPr else (macP s p).rxEx) with
  | none => s
  | some ⟨id, b, passed, big⟩ =>
    let s := setRxSlot s p pre none
    let s := if pre then count s 8 kMacFragRx p frags else s
    let s := if how = 1 then count s 8 kMacReasm p else s
    let bad := decide (how = 0) && !fcsGood b
    if !passed then
      if b = [] ∨ how ≠ 0 then s else if bad then count s 8 kMacFcs p else pauseReceived s p b
    else
      let s := if big then count s 8 kMacOver p else if bad then count s 8 kMacFcs p
        else if how = 0 then count (count s 8 kMacRx p) 8 kMacRxBytes p b.length else s
      match flight s id with
      | none => s
      | some x =>
        let x := { x with ended := true, rxLen := b.length }
        let s := (copiesOf s x.id).foldl (fun s y => setFlight s { y with ended := true, rxLen := b.length }) (setFlight s x)
        let s := if x.decided then chargeFlow s x.frame.flow x.frame.colour b.length else s
        let cause := if how = 1 then 3 else if how = 2 then 4 else if big || bad then 2 else 0
        if cause = 0 ∨ x.bad ≠ 0 then s else spoilAll s x cause

/-- A frame's first 64 bytes have arrived at port p (R313, R353, R575); on a gated port all but EAPOL goes no further than MSEC (R589). A start
while a preemptable frame is open ends that frame (R317). -/
def execMacRxFrameStart (p : Port) (pre : Bool) (buf ecc : Fin 3) (x : Arrival) (s : State) : Out :=
  if !live s || !active s 8 p || !frameMode s p || !linkUp s p || (!pre && (macP s p).rxEx.isSome) then .next s
  else
    let s := if pre then rxEnd s p true 1 0 else s
    if x.bytes.length < 64 then .next (count s 8 kMacRunt p)
    else if isPause x.bytes then .next (setRxSlot s p pre (some ⟨0, x.bytes, false, false⟩))
    else if buf.val = 2 ∨ (buf.val = 1 ∧ !reserveAdmits s p x.bytes) then .next (setRxSlot (overload s p) p pre (some ⟨0, [], false, false⟩))
    else
      let max := rdF s fMAC_MCFG_MAXLEN p
      let r := msecIngress s p ecc (markIn s (-(x.sfd : Int))) (if max < x.bytes.length then x.bytes.take max else x.bytes.take (x.bytes.length - 4))
      match r.2 with
      | none => .next (setRxSlot r.1 p pre (some ⟨if r.1.nextId = s.nextId then 0 else s.nextId, x.bytes, true, decide (max < x.bytes.length)⟩))
      | some (b, icv, prot) =>
        let held := gatedPort s p && !isEapol x.bytes
        let s := setRxSlot r.1 p pre (some ⟨r.1.nextId, x.bytes, true, decide (max < x.bytes.length)⟩)
        .next (addFlight (if held then count s 0x17 kPairDiscard p else s)
          { id := 0, stage := if held then 2 else 0, frame := lineFrame s p x.sfd b, ended := false, bad := 0, icv := icv, dest := .none,
            port := some p, rxLen := 0, decided := false, cls := 0, prot := prot, of_ := none })

/-- A frame's end: FCS, length, reassembly and PAUSE settle it; a reassembly error with no frame open, a continuation, is counted
(R313, R317, R328, R417, R430). -/
def execMacRxFrameEnd (p : Port) (pre : Bool) (how : Fin 3) (frags : Nat) (s : State) : Out :=
  if !live s || (!pre && how == 1) then .next s
  else if how.val = 1 ∧ (macP s p).rxPr = none then .next (if active s 8 p && linkUp s p then count s 8 kMacReasm p else s)
  else .next (rxEnd s p pre how frags)

/-! ## Pause -/

/-- Every half quanta period the MAC repeats what QM asks (R328). -/
def execPauseRepeat (p : Port) (s : State) : Out :=
  if !live s || decide (2 * (s.sys.ticks - (macP s p).pauseAt) < quantaTicks s p (rdF s fMAC_PQUANTA_Q p)) then .next s
  else .next (sendPause s p)

/-- The pause time of a received frame runs out: those of its classes whose time it is are released (R328). -/
def execPauseTimeExpiry (p : Port) (classes : BitVec 8) (s : State) : Out :=
  if !live s then .next s
  else .next (startNext ((List.range 8).foldl (fun s c =>
    if bitOf classes.toNat c && pausedClass s p c && decide (tget (fun _ => 0) (macP s p).till c ≤ s.sys.ticks) then
      setClassBit s fMAC_MSTAT_PAUSED p c false
    else s) s) p)

/-- Whether class c of port p has been held, or in recovery, for more than so many ms (R329). -/
def heldFor (s : State) (p c ms : Nat) : Bool := decide (tget (fun _ => 0) (macP s p).since c + 625000 * ms < s.sys.ticks)

/-- A class held longer than WDMS enters recovery and ignores received pause (R329). -/
def execPauseWatchdogTrip (p : Port) (c : Fin 8) (s : State) : Out :=
  if !live s || rdF s fMAC_MPWD_WDMS p == 0 || !pausedClass s p c || !heldFor s p c (rdF s fMAC_MPWD_WDMS p) then .next s
  else
    let s := setClassBit (setClassBit s fMAC_MSTAT_PAUSED p c false) fMAC_MSTAT_WDACT p c true
    let s := setMac s p { macP s p with since := tset (fun _ => 0) (macP s p).since c s.sys.ticks }
    .next (startNext (emit2 s 0x200010 p c) p)

/-- The recovery period of RECOV times 10 ms ends; the next pause is honoured (R329). -/
def execPauseWatchdogRecoveryEnd (p : Port) (c : Fin 8) (s : State) : Out :=
  if !live s || !bitOf (rdF s fMAC_MSTAT_WDACT p) c ||
     decide (s.sys.ticks < tget (fun _ => 0) (macP s p).since c + 6250000 * rdF s fMAC_MPWD_RECOV p) then .next s
  else .next (emit0 (setClassBit s fMAC_MSTAT_WDACT p c false) 0x200011)

/-! ## Verification -/

/-- VSTATE and ACTIVE as a commit of PREN and VERIFY leaves them: verification starts anew where it is asked for (R315, R335). -/
def preCommit (s : State) (p : Nat) : State :=
  let on := onF s fMAC_MPRE_PREN p
  let ver := onF s fMAC_MPRE_VERIFY p
  let s := setMac s p { macP s p with tries := 0 }
  wrF (wrF s fMAC_MPSTAT_VSTATE (b2n (on && ver)) p) fMAC_MPSTAT_ACTIVE (b2n (on && !ver)) p

/-- Verification begins, or VERIFYT runs out: a verify mPacket is sent, or after three without a response verification fails (R315). -/
def execVerifyTimer (p : Port) (s : State) : Out :=
  let v := rdF s fMAC_MPSTAT_VSTATE p
  let m := macP s p
  if !live s || !active s 8 p || !(v == 1 || v == 2) || (m.tries != 0 && decide (s.sys.ticks < m.verAt + 625000 * rdF s fMAC_MPRE_VERIFYT p)) then .next s
  else if m.tries < 3 then
    .next (wrF (setMac s p { m with tries := m.tries + 1, verifySent := m.verifySent + 1, verAt := s.sys.ticks }) fMAC_MPSTAT_VSTATE 2 p)
  else .next (emit0 (wrF s fMAC_MPSTAT_VSTATE 4 p) 0x200013)

/-- A respond mPacket: verification succeeds and preemption is active (R315). -/
def execVerifyResponse (p : Port) (s : State) : Out :=
  if live s && active s 8 p && rdF s fMAC_MPSTAT_VSTATE p == 2 then
    .next (wrF (wrF s fMAC_MPSTAT_VSTATE 3 p) fMAC_MPSTAT_ACTIVE 1 p)
  else .next s

/-- A verify mPacket is answered while PREN = 1 (R315). -/
def execVerifyMpacketReceived (p : Port) (s : State) : Out :=
  let m := macP s p
  if live s && active s 8 p && onF s fMAC_MPRE_PREN p then .next (setMac s p { m with respondSent := m.respondSent + 1 })
  else .next s

/-! ## Checksums -/

/-- Byte a of a frame as it was before its program stored into it (R330). -/
def origByte (f : Frame) (a : Nat) : Byte := (tget (fun _ => none) f.orig a).getD (byteAt f.bytes a)

/-- The 16-bit word at a of a frame as it was, and as it is; past the end e a byte counts as zero. -/
def wordPair (f : Frame) (e a : Nat) : Nat × Nat :=
  let hi := fun (b : Byte) => b.toNat * 256
  if a + 1 < e then (hi (origByte f a) + (origByte f (a + 1)).toNat, hi (byteAt f.bytes a) + (byteAt f.bytes (a + 1)).toNat)
  else (hi (origByte f a), hi (byteAt f.bytes a))

/-- A number folded into 16 bits in one's complement. -/
def fold16 (n : Nat) : Nat := let t := n % 65536 + n / 65536; t % 65536 + t / 65536

/-- RFC 1624: a checksum after words have changed from the first to the second of each pair. -/
def rfc1624 (hc : Nat) (l : List (Nat × Nat)) : Nat :=
  65535 - l.foldl (fun c x => if x.1 = x.2 then c else fold16 (c + (65535 - x.1) + x.2)) (65535 - hc)

/-- Whether the program stored into the 16-bit word at a. -/
def wrote (f : Frame) (a : Nat) : Bool := (tget (fun _ => none) f.orig a).isSome || (tget (fun _ => none) f.orig (a + 1)).isSome

/-- The outer IPv4 header's checksum in full, unless the program wrote it (R330). -/
def fixIpv4 (f : Frame) : Frame :=
  let o := f.hdr.l3
  if f.hdr.ver ≠ 4 ∨ wrote f (o + 10) then f
  else
    let b := putBytes f.bytes (o + 10) [0, 0]
    { f with bytes := putBytes b (o + 10) (toBytes 2 (65535 - fold16 (((List.range (2 * (fb b o % 16))).map fun k => fu b (o + 2 * k) 2).sum))) }

/-- The words of the pseudo-header, each as it was and as it is: addresses, protocol, length (R330). -/
def pseudoPairs (f : Frame) : List (Nat × Nat) :=
  let o := f.hdr.l3
  let e := f.bytes.length
  if f.hdr.ver = 4 then
    (List.range 4).map (fun k => wordPair f e (o + 12 + 2 * k)) ++
      [((origByte f (o + 9)).toNat, (byteAt f.bytes (o + 9)).toNat), wordPair f e (o + 2)]
  else
    (List.range 16).map (fun k => wordPair f e (o + 8 + 2 * k)) ++
      [wordPair f e (o + 4), if f.hdr.l4 = o + 40 then ((origByte f (o + 6)).toNat, (byteAt f.bytes (o + 6)).toNat) else (0, 0)]

/-- The first TCP or UDP checksum after the outer IP header, from the changed words it covers (R330). An IPv4 UDP checksum of zero
stays zero; a UDP checksum that comes out as zero is sent as all ones (RFC 768, assumption log 12). -/
def fixL4 (f : Frame) : Frame :=
  let o := f.hdr.l4
  let c := if f.hdr.proto = 6 then o + 16 else o + 6
  let e := min f.bytes.length (if f.hdr.ver = 4 then f.hdr.l3 + fu f.bytes (f.hdr.l3 + 2) 2 else f.hdr.l3 + 40 + fu f.bytes (f.hdr.l3 + 4) 2)
  if f.frag ∨ !(f.hdr.proto = 6 ∨ f.hdr.proto = 17) ∨ wrote f c ∨ (f.hdr.proto = 17 ∧ f.hdr.ver = 4 ∧ fu f.bytes c 2 = 0) then f
  else
    let body := ((List.range ((e - o + 1) / 2)).map fun k => o + 2 * k).filter fun a => a != c
    let n := rfc1624 (fu f.bytes c 2) (pseudoPairs f ++ body.map (wordPair f e))
    { f with bytes := putBytes f.bytes c (toBytes 2 (if f.hdr.proto = 17 ∧ n = 0 then 65535 else n)) }

/-- A frame sent with FIXCS as it leaves (R330): whether it had a recognised IP header, and the frame. -/
def fixChecksums (f : Frame) : Bool × Frame :=
  if !f.fixcs then (true, f) else if f.hdr.ver = 0 then (false, f) else (true, fixL4 (fixIpv4 f))

/-- Every bit of a list of bytes inverted. -/
def invert (b : List Byte) : List Byte := b.map fun x => ~~~x

/-! ## Transmission -/

/-- A frame selected for port p (R312): its checksums are settled, and a poisoned frame will leave stomped. -/
def selectFrame (s : State) (p : Nat) (pre : Bool) (f : Frame) (cls queue : Nat) (cut : Option Nat) (charged comm : Nat) : State :=
  let r := fixChecksums f
  let s := if r.1 then s else count s 8 kMacUnfixed p
  let x : Sel := { frame := r.2, bytes := r.2.bytes, off := 0, ready := false, cls := cls,
                   stomp := (if f.poison then 5 else 0), icv := false, cut := cut, queue := queue, charged := charged,
                   comm := comm, mark := ⟨0, 0, 0⟩, overrun := false }
  setSel s p pre (some x)

/-- MSEC settles the express or the preemptable selection of port p, and it starts if the line is free (R312, R356, R360, R318). A
frame whose ICV has failed before any byte of it left is not sent. -/
def execMsecEgressFrame (p : Port) (pre : Bool) (ecc : Fin 3) (s : State) : Out :=
  match selOf (macP s p) pre with
  | none => .next s
  | some x =>
    if !live s || x.ready then .next s
    else if (x.cut.bind (flight s)).any fun y => y.bad == 1 then .next (startNext s p)
    else
      let r := msecEgress s p x.frame.txsc ecc x.bytes
      match r.2 with
      | none => .next (startNext (dropSel r.1 p pre x) p)
      | some b =>
        let y := { x with bytes := b, ready := true, icv := decide (b.length ≠ x.bytes.length) }
        let s := setSel r.1 p pre (some y)
        let s := if gateFits s p y.cls (gateBytes s p y pre) then s else count s 8 kMacHeld (8 * p + y.cls)
        .next (startNext s p)

/-- A frame as it ends on the line: with its FCS, or stomped, a frame of a failed ICV with its egress ICV inverted too (R314,
R356). -/
def lineEnd (b : List Byte) (icv : Bool) (cause : Nat) : List Byte :=
  let b := if icv && cause == 1 then b.take (b.length - 16) ++ invert (b.drop (b.length - 16)) else b
  b ++ (if cause = 0 then fcsOf b else invert (fcsOf b))

/-- Counter kind of TIME: egress records discarded, per port (R531). -/
def kTimeEgFull : Nat := 2

/-- The egress record of a PTP event message (R531). -/
def egressRecord (s : State) (p : Nat) (x : Sel) : State :=
  let q := parse x.frame.bytes
  if !q.ptp || 4 ≤ q.aux / 256 then s
  else
    let l := tget (fun _ => []) s.time.eg p
    if 16 ≤ l.length then emit1 (count s 0x13 kTimeEgFull p) 0x4c0015 p
    else
      let r : EgRec := ⟨q.aux / 256, q.aux % 256, fu x.frame.bytes (q.ptpAt + 30) 2, x.mark⟩
      { s with time := { s.time with eg := tset (fun _ => []) s.time.eg p (l ++ [r]) } }

/-- Whether the capture ring takes copies (R640, R641). -/
def capturing (s : State) : Bool := active s 0x19 0 && (rdF s fCNT_CSTAT_STATE == 1 || rdF s fCNT_CSTAT_STATE == 2)

/-- A copy of an egress frame of a port set in EGMASK, as it was before MSEC, offered to the capture ring (R639). -/
def offerEgress (s : State) (p : Nat) (x : Sel) : State :=
  if !capturing s || !bitOf (rdF s fCNT_EGMASK0_P + rdF s fCNT_EGMASK1_P * 2 ^ 24) p then s
  else
    let o : Offer := { egress := true, invalid := false, poison := x.frame.poison, source := p, len := x.frame.bytes.length,
                       mark := x.mark, flow := x.frame.flow, bytes := x.frame.bytes, flight := x.cut }
    { s with cnt := { s.cnt with offers := s.cnt.offers ++ [o] } }

/-- Whole frame x of port p has left, its FCS or the stomp ending its final fragment (R312, R314, R316, R321, R331, R453, R531). -/
def txWhole (s : State) (p : Nat) (pre : Bool) (x : Sel) (cause : Nat) : State :=
  let line := lineEnd x.bytes x.icv cause
  let s := count (count s 8 kMacTx p) 8 kMacTxBytes p line.length
  let s := if cause = 0 then s else count s 8 (kMacStomp cause) p
  let s := if x.off = 0 then s else count s 8 kMacFragTx p
  let s := if bitOf (gatesAt s p (nowNs s)).gates x.cls && !x.overrun then s else count s 8 kMacOverrun (8 * p + x.cls)
  let s := offerEgress (egressRecord s p x) p x
  let s := correctCharge s x (x.frame.bytes.length + 4 + rdF s fSCH_PNCFG_OVH p)
  let s := match x.cut with
    | some f => count (dropFlight s f) 8 kMacCut p
    | none => s
  let s := setSel s p pre none
  setMac s p { macP s p with cur := none, sent := line.drop x.off, stomped := cause != 0 }

/-- The mCRC of a fragment whose last byte is byte n of its frame: the CRC-32 of the frame up to there with its last 16 bits inverted, as IEEE
802.3br has it (R316; assumption log 84, PRESUMED). -/
def mCrc (b : List Byte) (n : Nat) : List Byte := let c := fcsOf (b.take n); c.take 2 ++ invert (c.drop 2)

/-- Why a preemptable frame in transmission may be cut now: an express frame that may start, the hold, or its gate (R316, R321,
R322). -/
def cutReason (s : State) (p : Nat) (x : Sel) : Bool :=
  (macP s p).ex.any (fun y => mayStart s p y false) || (macP s p).hold || !bitOf (gatesAt s p (nowNs s)).gates x.cls

/-- A frame or a fragment has left, and the next express or resumed frame starts. A fragment is cut only under the conditions of
R316. A frame that cuts through ends once its last byte has come and its ICV is known (R357). -/
def execMacTxFrameEnd (p : Port) (cutAt : Nat) (under : Bool) (s : State) : Out :=
  match (macP s p).cur with
  | none => .next s
  | some pre =>
    match selOf (macP s p) pre with
    | none => .next s
    | some x =>
      if !live s then .next s
      else if cutAt ≠ 0 then
        if pre && preActive s p && cutReason s p x && minFrag s p ≤ cutAt + 4 && x.off + cutAt + 60 ≤ x.bytes.length then
          let s := setSel (count s 8 kMacFragTx p) p true (some { x with off := x.off + cutAt, overrun := false })
          let sent := (x.bytes.drop x.off).take cutAt ++ mCrc x.bytes (x.off + cutAt)
          .next (startNext (setMac s p { macP s p with cur := none, sent := sent, stomped := false }) p)
        else .next s
      else
        match x.cut.bind (flight s) with
        | some f =>
          if !under && (!f.ended || f.icv != .none) then .next s
          else .next (startNext (txWhole s p pre x (if f.bad ≠ 0 then f.bad else if under then 6 else 0)) p)
        | none => .next (startNext (txWhole s p pre x x.stomp) p)

/-- Every frame in transmission ends stomped where it stands, one whose fragments have left in part too, and each is counted; how much of it has
left is not stated and is a free value (R314, R334, assumption log 2). -/
def stompAll (s : State) : State :=
  (List.range 32).foldl (fun s p =>
    let m := macP s p
    let part := m.pr.filter fun x => x.off != 0 && m.cur != some true
    let s := count s 8 (kMacStomp 7) p (b2n m.cur.isSome + b2n part.isSome)
    match (m.cur.bind (selOf m)).or part with
    | none => setMac s p { macP s p with ex := none, pr := none, cur := none }
    | some x =>
      let k := takeFree s
      let s := k.2
      setMac s p { macP s p with ex := none, pr := none, cur := none, stomped := true,
                                 sent := lineEnd (x.bytes.take (k.1 % (x.bytes.length + 1))) false 7 }) s

/-! ## Gates -/

/-- A gate entry's interval ends and the next sets the gates, or its hold is issued ahead by the bound of R319 (R320, R322). -/
def execGateEntryChange (p : Port) (early : Bool) (s : State) : Out :=
  if !live s then .next s
  else if early then
    let g := gatesAt s p (nowNs s + lineNs (minFrag s p + 75) (portRate s p))
    .next (if g.op = 1 then setMac s p { macP s p with hold := true } else s)
  else .next (startNext (gateApply s p) p)

/-- What R324 makes of the operating list of port p at T: 0 a full cycle ends, 1 the last cycle is extended, 2 it is truncated, 3 no list operates. -/
def switchOutcome (s : State) (p t : Nat) : Nat :=
  match (macP s p).oper with
  | none => 3
  | some g => let c := cycleStart g t; if c = t then 0 else if t - c ≤ g.ext then 1 else 2

/-- At instant T the waiting list becomes the operating list, GN is written, and event 0x200_012 records N, T and the outcome (R323, R324). How
24 bits hold T and the outcome is not stated: opaque functions of them (assumption log 2). -/
def execGateListSwitch (p : Port) (s : State) : Out :=
  match (macP s p).wait with
  | none => .next s
  | some g =>
    if !live s || decide (nowNs s < g.at_) then .next s
    else
      let s0 := s
      let s := setMac s p { macP s p with oper := some g, wait := none }
      let s := wrF (wrF s fMAC_GSTAT_OPAGE g.page p) fMAC_GSTAT_WAIT 0 p
      let s := result s fMAC_GN_N (min g.n 0xffffff) p
      let out := (Config.gateOutcome (switchOutcome s0 p g.at_)).toNat
      .next (startNext (gateApply (emit s 0x200012 (min g.n 0xffffff) (Config.gateInstant g.at_).toNat out) p) p)

/-- Time has stepped: every port with a gate list takes the entry in force at the new time (R326). -/
def gatesStepped (s : State) : State :=
  (List.range 32).foldl (fun s p =>
    if (macP s p).oper.isSome then startNext (gateApply (emit0 s 0x200015) p) p else s) s

end Sys2Proof.Machine
end

