-- ==== Sys2Proof/Machine/Wake.lean ====
section
/-! DEFINITION. Wake events as their sources raise them (R578), and what holds in each power state. -/
namespace Sys2Proof.Machine

/-- Whether a sleep entry runs: it lets a wake event wait (R578). -/
def entering (s : State) : Bool := s.pwr.run == some 1

/-- A wake event of source k of R578: it waits to be acted on where its source is enabled and the module sleeps or is on its way
there; in S0 it has no effect, and after a failed wake it is ignored (R578, R580). -/
def wakeSource (s : State) (k : Nat) : State :=
  if (rdF s fPWR_STATE_CURS == 0 && !entering s) || s.pwr.failed || s.pwr.wake.isSome || !bitOf (rdF s fPWR_WAKEMASK_EN) k then s
  else { s with pwr := { s.pwr with wake := some (k, entering s) } }

/-- Whether the always-on domain runs: everywhere but with the power off (R576, R674). -/
def alwaysOn (s : State) : Bool := !(s.sys.phase == .off || s.sys.phase == .rails)

/-- Whether the time unit has a clock, and with it the converters, the site bus and the ToD ports: the candle or the crystal (R85). -/
def clocked (s : State) : Bool := alwaysOn s && (s.sys.crystal || onF s fCNDL_CSTAT_OSC)

/-- The module asleep in S3: the always-on domain alone runs (R576). -/
def inS3 (s : State) : Bool := s.sys.phase == .asleep

/-- A unit's message to an engine that a word names, 0xFF naming none (R115, R116): refused messages are counted by the postbox and,
where the unit counts them, by the caller. -/
def postTo (s : State) (eng : Nat) (m : Msg) : State × Bool := if eng < 0xc0 then post s eng m else (s, false)

end Sys2Proof.Machine
end

