-- ==== Sys2Proof/Machine/Meas.lean ====
section
/-! DEFINITION. Converters, watchers, outputs and control cycles of MEAS (R556 to R568). -/
namespace Sys2Proof.Machine

/-- Counter kinds of MEAS, per channel (R568): results. -/
def kMeasResult : Nat := 0
/-- Collisions. -/
def kMeasCollision : Nat := 1
/-- Results skipped for a calibration slot. -/
def kMeasSkip : Nat := 2
/-- Firings inside a forced slot. -/
def kMeasForced : Nat := 3
/-- Watcher trips. -/
def kMeasTrip : Nat := 4
/-- Refused messages. -/
def kMeasMsg : Nat := 5
/-- Applies, per cycle. -/
def kMeasApply : Nat := 6
/-- Late instants, per cycle. -/
def kMeasLate : Nat := 7
/-- Ignored writes, per output: PWM k is k, DIO j is 8 + j. -/
def kMeasIgnored : Nat := 8

/-- Whether MEAS converts: enabled, or draining what it has begun (R567). -/
def measOn (s : State) : Bool := live s && clocked s && bitsOf (rdW s (uaddr 0x15 0 2)).toNat 0 2 != 0

/-- A message of MEAS to WENG: one that is refused is counted (R561, R564). -/
def measPost (s : State) (obj tag w1 w2 : Nat) : State :=
  let e := rdF s fMEAS_WENG_ENG
  if 0xc0 ≤ e then s
  else if !live s then count s 0x15 kMeasMsg obj
  else
    let r := post s e ⟨0xd5, tag, w1, w2, 0⟩
    if r.2 then r.1 else count r.1 0x15 kMeasMsg obj

/-- The full scale of a RANGE code in nV (R558). -/
def fullScale (range : Nat) : Nat := if range = 0 then 312500000 else if range = 1 then 2500000000 else if range = 2 then 20000000000 else 64000000000

/-- The input of channel c in units of 2^-23 of its full scale, or of 1 mV for channels 16 and 17, for an input of v nV as the converter measures
it, its noise and its errors included: V / FS × 2^23, rounded down (R556 to R558; assumption log 87, DESIGN CHOICE). -/
def inputUnits (s : State) (c : Nat) (v : Int) : Int :=
  if 16 ≤ c then v / 1000000 else v * 8388608 / (fullScale (rdF s fMEAS_ACFG_RANGE 0 (4 * c)) : Int)

/-- The conversion period of channel c in ns: 1 / RATE, 1 kS/s for channels 16 and 17, and 10 S/s in S3 (R556, R559, R562). -/
def convPeriod (s : State) (c : Nat) : Nat :=
  if inS3 s then 100000000
  else if 16 ≤ c then 1000000
  else
    let r := rdF s fMEAS_ACFG_RATE 0 (4 * c)
    if r < 6 then 31250 * 2 ^ r else if r = 6 then 10000000 else if r = 7 then 100000000 else 1000000000

/-- The least number of ticks of 1.6 ns in which the counter passes n ns: it may run 1,500 ppm fast (R515). -/
def leastTicks (n : Nat) : Nat := n * 624 / 1000

/-- AVAL of an AIN channel for x, the input in units of 2^-23 full scale (R557). -/
def ainCode (isOpen surge : Bool) (x : Int) : Nat :=
  if isOpen then 0x800000
  else if surge || decide (8388608 ≤ x) then 0x7fffff
  else if x < -8388608 then 0x800001
  else unsext (max (-8388606) (min 8388606 x)) 24

/-- Results in a row that count toward a trip or a release of channel c. -/
def streak (s : State) (c : Nat) : Nat := tget (fun _ => 0) s.meas.streak c

/-- The streak of channel c replaced. -/
def setStreak (s : State) (c n : Nat) : State := { s with meas := { s.meas with streak := tset (fun _ => 0) s.meas.streak c n } }

/-- Channel c's bit of WSTAT. -/
def tripped (s : State) (c : Nat) : Bool := bitOf (rdF s fMEAS_WSTAT_TRIP) c

/-- Channel c's bit of WSTAT given a value. -/
def setTrip (s : State) (c : Nat) (b : Bool) : State :=
  wrF s fMEAS_WSTAT_TRIP (putBits (rdF s fMEAS_WSTAT_TRIP) c 1 (b2n b))

/-- The watcher of channel c sees result v (R561). -/
def watcher (s : State) (c v : Nat) : State :=
  if !onF s fMEAS_ACFG_WEN 0 (4 * c) || s.sys.halted then s
  else
    let x := sext v 24
    let hi := sext (rdF s fMEAS_WHI_T 0 (4 * c)) 24
    let lo := sext (rdF s fMEAS_WLO_T 0 (4 * c)) 24
    let inv := onF s fMEAS_ACFG_WINV 0 (4 * c)
    let was := tripped s c
    let hit := if was then (if inv then decide (hi ≤ x) else decide (x ≤ lo)) else (if inv then decide (x < lo) else decide (hi < x))
    if !hit then setStreak s c 0
    else if streak s c < rdF s fMEAS_ACFG_WCNT 0 (4 * c) then setStreak s c (streak s c + 1)
    else
      let s := emit2 (setTrip (setStreak s c 0) c (!was)) (if was then 0x540011 else 0x540010) c v
      let s := if was then s else count s 0x15 kMeasTrip c
      let s := if onF s fMEAS_ACFG_WMSG 0 (4 * c) then measPost s c (c + 32 * b2n !was) v 0 else s
      if !was && onF s fMEAS_ACFG_WWAKE 0 (4 * c) then wakeSource s 2 else s

/-- Whether channel c converts now (R556, R559, R562, R567): 16 and 17 whenever the module is powered, in S3 those that WEN and WS3
name, else a channel of MODE 1, or of MODE 2 with a firing to convert. -/
def converts (s : State) (c : Nat) : Bool :=
  if 16 ≤ c then alwaysOn s
  else if inS3 s then onF s fMEAS_ACFG_WEN 0 (4 * c) && onF s fMEAS_ACFG_WS3 0 (4 * c)
  else measOn s && (rdF s fMEAS_ACFG_MODE 0 (4 * c) == 1 ||
    (rdF s fMEAS_ACFG_MODE 0 (4 * c) == 2 && (tget (fun _ => none) s.meas.conv c).isSome))

/-- Whether the conversion period of channel c has passed: since its last result or its commit, or since the firing it converts (R559). -/
def periodPassed (s : State) (c : Nat) : Bool :=
  match tget (fun _ => none) s.meas.conv c with
  | some t => decide (t + convPeriod s c ≤ nowNs s)
  | none => paced s (paceConv c) (leastTicks (convPeriod s c))

/-- A result of channel c for an input of v nV (R556 to R559). -/
def execConversionResult (c : Fin 18) (v : Int) (surge : Bool) (s : State) : Out :=
  let n := c.val
  if !converts s n || !periodPassed s n then .next s
  else
    let x := inputUnits s n v
    let v := if 16 ≤ n then unsext x 24
      else ainCode (onF s fMEAS_ACFG_OPEN 0 (4 * n) && tget (fun _ => false) s.meas.open_ n) surge x
    let m := s.meas
    let stamp := match tget (fun _ => none) m.conv n with
      | some t => tset (fun _ => 0) m.stamp n t
      | none => m.stamp
    let s := setPace { s with meas := { m with stamp := stamp, conv := tset (fun _ => none) m.conv n none } } (paceConv n)
    .next (watcher (count (result s fMEAS_AVAL_V v 0 (4 * n)) 0x15 kMeasResult n) n v)

/-- Whether a calibration slot of channel c is due: CALINT s since its last, or the junction temperature has moved 5 °C since then; one that is forced
has waited 2 × CALINT (R560). -/
def calDue (s : State) (c : Nat) (forced : Bool) : Bool :=
  let n := 625000000 * rdF s fMEAS_MCAL_CALINT
  if forced then paced s (paceCal c) (2 * n)
  else paced s (paceCal c) n || 50 ≤ (sext (rdF s fPWR_TJ_T) 16 - tget (fun _ => 0) s.meas.calTj c).natAbs

/-- A calibration slot of AIN channel c: what it finds of the input, the four results it takes in MODE 1, and a forced slot's missed
firings (R560). Channels 16 and 17 calibrate without a trace. -/
def execCalibrationSlot (c : Fin 18) (isOpen forced : Bool) (missed : Nat) (s : State) : Out :=
  let n := c.val
  if 16 ≤ n || !measOn s || rdF s fMEAS_ACFG_MODE 0 (4 * n) = 0 || !calDue s n (forced && rdF s fMEAS_ACFG_MODE 0 (4 * n) == 2) then .next s
  else
    let s := setPace { s with meas := { s.meas with
      open_ := tset (fun _ => false) s.meas.open_ n isOpen, calTj := tset (fun _ => 0) s.meas.calTj n (sext (rdF s fPWR_TJ_T) 16) } } (paceCal n)
    if rdF s fMEAS_ACFG_MODE 0 (4 * n) = 1 then .next (count s 0x15 kMeasSkip n 4)
    else if forced then .next (emit1 (count s 0x15 kMeasForced n missed) 0x540014 n)
    else .next s

/-- A firing of trigger t in ns, its k: mode 2 channels begin to convert or count a collision, and cycles gain an apply instant (R559,
R566). -/
def measFire (s : State) (t ns k : Nat) : State :=
  if !live s || !active s 0x15 0 then s
  else
    let s := (List.range 16).foldl (fun s c =>
      if rdF s fMEAS_ACFG_MODE 0 (4 * c) != 2 || rdF s fMEAS_ACFG_TRIG 0 (4 * c) != t then s
      else if (tget (fun _ => none) s.meas.conv c).isSome then count s 0x15 kMeasCollision c
      else { s with meas := { s.meas with conv := tset (fun _ => none) s.meas.conv c (some ns) } }) s
    (List.range 8).foldl (fun s c =>
      if !onF s fMEAS_CYCFG_EN 0 (2 * c) || rdF s fMEAS_CYCFG_TRIG 0 (2 * c) != t then s
      else
        let l := tget (fun _ => []) s.meas.apply c ++ [(ns + rdF s fMEAS_CYDLY_OUTDLY 0 (2 * c), k)]
        { s with meas := { s.meas with apply := tset (fun _ => []) s.meas.apply c l } }) s

/-- Whether PAIR drives DIO15 (R564). -/
def pairPin (s : State) (j : Nat) : Bool := j == 15 && active s 0x17 0

/-- Whether PAIR pulls DIO15 low: 20 us, 12,500 ticks, from each reset pulse (R598). -/
def pairLow (s : State) : Bool := s.pair.pulseAt.any fun (t : Nat) => s.sys.ticks < t + 12500

/-- What the test port drives at an output pin while EXTEST, CLAMP or HIGHZ is in force, none where it does not hold the pins: nothing or a
level, as its cells say (R668, R669). Pins are numbered PWM from 0, DIO from 8, ALM from 24, PPS from 26, FREQ from 28, TOD from 30, the mate
lines from 32. -/
def tapPin (s : State) (pin : Nat) : Option (Option Bool) :=
  s.tst.drive.map fun cells => if s.tst.tap = 4 then none else Config.cellLevel pin cells

/-- The level at pin j (R564, R567, R579): what an output drives or is held at, else what the outside gives; DIO15 of an enabled PAIR is
open-drain. -/
def pinLevel (s : State) (j : Nat) : Bool :=
  let outside := bitOf s.meas.pins j
  match tapPin s (8 + j) with
  | some x => x.getD outside
  | none => if pairPin s j then !pairLow s && outside
  else match s.pwr.hold with
  | some h => if bitOf h.dio.1 j then bitOf h.dio.2 j else outside
  | none =>
    if s.meas.safe then
      (if rdF s fMEAS_DCFG_DIR 0 j = 0 ∨ rdF s fMEAS_DCFG_SAFE 0 j = 0 then outside else rdF s fMEAS_DCFG_SAFE 0 j == 2)
    else match rdF s fMEAS_DCFG_DIR 0 j with
      | 1 => onF s fMEAS_DCFG_VAL 0 j
      | 2 => onF s fMEAS_DCFG_VAL 0 j && outside
      | _ => outside

/-- DIOIN: the levels at the pins (R568). -/
def dioIn (s : State) : Nat := (List.range 16).foldl (fun n j => n + b2n (pinLevel s j) * 2 ^ j) 0

/-- A level that has stood at DIOj for its debounce time; on an input of an enabled MEAS an edge of a selected kind is seen (R564). In
S3 only inputs with DWAKE watch (R567). -/
def execDioEdge (j : Fin 16) (rising : Bool) (s : State) : Out :=
  let n := j.val
  if bitOf s.meas.pins n == rising then .next s
  else
    let s := { s with meas := { s.meas with pins := putBits s.meas.pins n 1 (b2n rising) } }
    let wakes := onF s fMEAS_DCFG_DWAKE 0 n
    if pairPin s n || rdF s fMEAS_DCFG_DIR 0 n != 0 || !active s 0x15 0 || !(live s || (inS3 s && wakes)) ||
       !bitOf (rdF s fMEAS_DCFG_EDGE 0 n) (if rising then 0 else 1) then .next s
    else
      let s := wrF s fMEAS_DIOEDGE_E (putBits (rdF s fMEAS_DIOEDGE_E) n 1 1)
      let t := nowNs s - (rdF s fMEAS_DCFG_DEB 0 n + 1) * 10000
      let s := if onF s fMEAS_DCFG_DMSG 0 n then measPost s n (0x40 + n) (t / 1000000000 % 2 ^ 24) (t % 1000000000) else s
      .next (if wakes then wakeSource s 3 else s)

/-- A read of DIOEDGE answers and clears (R11, R568). -/
def execDioedgeRead (e : Eng) (s : State) : Out :=
  let a := fAddr fMEAS_DIOEDGE_E 0 0
  if !getReady s e a then .next s else .next (wrF (answer s e (some (rdW s a))) fMEAS_DIOEDGE_E 0)

/-- CYGO (R566). -/
def execCygoWrite (e : Eng) (v : BitVec 24) (s : State) : Out :=
  onSet s e (fAddr fMEAS_CYGO_GO 0 0) v fun s => { s with meas := { s.meas with go := s.meas.go ||| bitsOf v.toNat 0 8 } }

/-- The members of cycle c take their staged values (R566). -/
def applyCycle (s : State) (c : Nat) : State :=
  let s := (List.range 8).foldl (fun s k =>
    if rdF s fMEAS_PCFG_CYC 0 (4 * k) = c then wrF s fMEAS_PDUTY_T (rdF s fMEAS_PNEXT_T 0 (4 * k)) 0 (4 * k) else s) s
  (List.range 16).foldl (fun s j =>
    if rdF s fMEAS_DCFG_CYC 0 j = c ∧ rdF s fMEAS_DCFG_DIR 0 j ≠ 0 ∧ pairPin s j = false then
      wrF s fMEAS_DCFG_VAL (b2n (bitOf (rdF s fMEAS_DIONEXT_V) j)) 0 j
    else s) s

/-- An apply instant of cycle c is reached: the values ready are taken, or the instant is late (R566). -/
def execCycleApply (c : Fin 8) (s : State) : Out :=
  let n := c.val
  match tget (fun _ => []) s.meas.apply n with
  | (t, k) :: l =>
    if !live s || decide (nowNs s < t) then .next s
    else
      let s := { s with meas := { s.meas with apply := tset (fun _ => []) s.meas.apply n l } }
      if !active s 0x15 0 || !onF s fMEAS_CYCFG_EN 0 (2 * n) then .next s
      else
        let join := (List.range 8).foldl (fun t k =>
          if rdF s fMEAS_PCFG_CYC 0 (4 * k) = n ∧ onF s fMEAS_PCFG_EN 0 (4 * k) then tset (fun _ => false) t k true else t) s.meas.joined
        let s := { s with meas := { s.meas with joined := join } }
        if bitOf s.meas.go n then
          let go := putBits s.meas.go n 1 0
          .next (applyCycle (count { s with meas := { s.meas with go := go } } 0x15 kMeasApply n) n)
        else .next (emit2 (count s 0x15 kMeasLate n) 0x540015 n k)
  | [] => .next s

/-- A period of PWM k starts with the DUTY that stands, when the one before has ended; a member's first waits for its cycle (R563, R566). -/
def execPwmPeriodStart (k : Fin 8) (s : State) : Out :=
  let o := 4 * k.val
  if !live s || s.meas.safe || !onF s fMEAS_PCFG_EN 0 o ||
     (rdF s fMEAS_PCFG_CYC 0 o < 8 && !tget (fun _ => false) s.meas.joined k) ||
     !paced s (pacePwm k) (leastTicks (8 * ((tget (fun _ => none) s.meas.pwm k).getD (0, 0)).1)) then .next s
  else
    let p := rdF s fMEAS_PPER_T 0 o
    .next (setPace { s with meas := { s.meas with pwm := tset (fun _ => none) s.meas.pwm k (some (p, min p (rdF s fMEAS_PDUTY_T 0 o))) } } (pacePwm k))

/-- What a site output drives: nothing, a level, or periods of so many units of 8 ns that begin high for so many and end low, or the inverse
(R563). -/
inductive Drive where
  | off
  | level (high : Bool)
  | wave (period high : Nat) (inverted : Bool)
deriving DecidableEq, Repr

/-- What a level or high impedance drives. -/
def driveOf (x : Option Bool) : Drive :=
  match x with
  | some b => .level b
  | none => .off

/-- The level of PWM k in its SAFE state, none for high impedance (R567). -/
def pwmSafe (s : State) (k : Nat) : Option Bool :=
  if rdF s fMEAS_PCFG_SAFE 0 (4 * k) = 0 then none else some (rdF s fMEAS_PCFG_SAFE 0 (4 * k) == 2)

/-- PWMk at J1 (R25, R563, R567, R579): before its first period nothing is driven. -/
def pwmPin (s : State) (k : Nat) : Drive :=
  match tapPin s k, s.pwr.hold with
  | some x, _ => driveOf x
  | none, some h => driveOf (tget (fun _ => none) h.pwm k)
  | none, none =>
    if !alwaysOn s then .off
    else if s.meas.safe then driveOf (pwmSafe s k)
    else match tget (fun _ => none) s.meas.pwm k with
      | some x => .wave x.1 x.2 (onF s fMEAS_PCFG_POL 0 (4 * k))
      | none => .off

/-- ALMk_N in its SAFE state: pulled low where SAFE is 1 (R567). -/
def almSafe (s : State) (k : Nat) : Bool := if k = 0 then onF s fMEAS_ALM_SAFE0 else onF s fMEAS_ALM_SAFE1

/-- Whether ALMk_N is pulled low: by start-up or a failed wake, as held, in its SAFE state, or by its ACTIVE bit (R565, R567, R579, R580, R679). -/
def almLow (s : State) (k : Nat) : Bool :=
  alwaysOn s && match tapPin s (24 + k) with
  | some x => x == some false
  | none => ((if k = 0 then s.sys.alm0 else s.sys.alm1) || (match s.pwr.hold with
    | some h => tget (fun _ => false) h.alm k
    | none => if s.meas.safe then almSafe s k else if k = 0 then onF s fMEAS_ALM_ACTIVE0 else onF s fMEAS_ALM_ACTIVE1))

/-- Every output takes its SAFE state, as in a halt and at the entry to S3 (R567). -/
def outputsSafe (s : State) : State := { s with meas := { s.meas with safe := true, pwm := [], joined := [], apply := [], go := 0, conv := [] } }

/-- What a SET of a MEAS word does beyond R171, or none where it does no more: DUTY and VAL of members, DCFG of DIO15 under PAIR, SAFE 2
of an open-drain DIO, and a PWM whose EN or CYC changes (R564, R566, R567). -/
def measWrite (s : State) (a v : Nat) : Option State :=
  let w := uWord a
  if 0x100 ≤ w ∧ w < 0x120 then
    let k := (w - 0x100) / 4
    if w % 4 = 2 ∧ rdF s fMEAS_PCFG_CYC 0 (4 * k) < 8 then some (count s 0x15 kMeasIgnored k)
    else if w % 4 = 0 then
      let t := setNow s a v
      let keep := onF t fMEAS_PCFG_EN 0 (4 * k) && rdF t fMEAS_PCFG_CYC 0 (4 * k) == rdF s fMEAS_PCFG_CYC 0 (4 * k)
      some (if keep then t else { t with meas := { t.meas with
        joined := tset (fun _ => false) t.meas.joined k false
        pwm := if onF t fMEAS_PCFG_EN 0 (4 * k) then t.meas.pwm else tset (fun _ => none) t.meas.pwm k none } })
    else none
  else if 0x140 ≤ w ∧ w < 0x150 then
    let j := w - 0x140
    if pairPin s j then some (count s 0x15 kMeasIgnored (8 + j))
    else
      let old := onF s fMEAS_DCFG_VAL 0 j
      let member := rdF s fMEAS_DCFG_CYC 0 j < 8
      let t := if member && bitOf v 2 != old then count s 0x15 kMeasIgnored (8 + j) else s
      let t := setNow t a (if member then putBits v 2 1 (b2n old) else v)
      if rdF t fMEAS_DCFG_DIR 0 j = 2 ∧ rdF t fMEAS_DCFG_SAFE 0 j = 2 then
        let t := wrF (unassigned t a 2) fMEAS_DCFG_SAFE (rdF s fMEAS_DCFG_SAFE 0 j) 0 j
        some (if rdF t fMEAS_DCFG_SAFE 0 j = 2 then wrF t fMEAS_DCFG_DIR (rdF s fMEAS_DCFG_DIR 0 j) 0 j else t)
      else some t
  else none

end Sys2Proof.Machine
end

