-- ==== Sys2Proof/Machine/Cls.lean ====
section
/-! DEFINITION. Classification: the search, actions, mirror and capture, the flow decision, where a frame goes, cut-through, and
the writing of entries (R213, R271, R332, R392 to R413, R416 to R418, R425, R453). -/
namespace Sys2Proof.Machine

/-! ## Rows -/

/-- A row at reset: not valid (R412). -/
def rowReset : ClsRow := { key := 0, mask := 0, act := 0, valid := false, wide := false }

/-- Row i of copy 0 or copy 1. -/
def clsRow (s : State) (copy1 : Bool) (i : Nat) : ClsRow :=
  tget (fun _ => rowReset) (if copy1 then s.cls.rows1 else s.cls.rows0) i

/-- Row i of copy 0 or copy 1 replaced. -/
def setRow (s : State) (copy1 : Bool) (i : Nat) (r : ClsRow) : State :=
  if copy1 then { s with cls := { s.cls with rows1 := tset (fun _ => rowReset) s.cls.rows1 i r } }
  else { s with cls := { s.cls with rows0 := tset (fun _ => rowReset) s.cls.rows0 i r } }

/-- Whether row i is part of a valid pair (R401). -/
def inPair (s : State) (copy1 : Bool) (i : Nat) : Bool :=
  let r := clsRow s copy1 (i / 2 * 2)
  r.valid && r.wide

/-- Whether row i, or the pair whose first row it is, matches (R401). -/
def rowMatches (s : State) (copy1 : Bool) (low high : Nat) (i : Nat) : Bool :=
  let r := clsRow s copy1 i
  let hit := fun (x : ClsRow) (k : Nat) => x.key &&& x.mask == k &&& x.mask
  if i % 2 = 1 ∧ inPair s copy1 i then false
  else if r.wide then r.valid && hit r high && hit (clsRow s copy1 (i + 1)) low
  else r.valid && hit r high

/-- The lowest index that matches (R402). -/
def firstMatch (s : State) (copy1 : Bool) (low high : Nat) : Option Nat :=
  ((if copy1 then s.cls.rows1 else s.cls.rows0).find? fun x => rowMatches s copy1 low high x.1).map fun x => x.1

/-- A row that fails its parity in both copies is made invalid in both: event 0x2C0_010 and a class N fault (R411). The first row
of a pair takes the pair with it, and so does the second (assumption log 13, DEDUCED). -/
def loseRow (s : State) (i : Nat) : State :=
  let j := if inPair s false i then i / 2 * 2 else i
  let off := fun (s : State) (k : Nat) =>
    setRow (setRow s false k { clsRow s false k with valid := false }) true k { clsRow s true k with valid := false }
  raiseFault (emit1 (off (off s i) j) 0x2c0010 i) 0x2c0010 63

/-! ## Sources, counts, actions -/

/-- Source index of a SOURCE (R392). -/
def sourceIndex (source : Nat) : Nat := if source < 32 then source else 32 + source % 4

/-- Whether a source is searched in copy 1 (R392). -/
def inCopy1 (source : Nat) : Bool := if source < 32 then decide (16 ≤ source) else decide (2 ≤ source % 4)

/-- Counter kinds of CLS: frames and bytes per entry. -/
def kClsFrames : Nat := 0
/-- Bytes per entry. -/
def kClsBytes : Nat := 1
/-- Frames that an entry's ACT 0 discards. -/
def kClsDropped : Nat := 2
/-- Frames that a fixed action discards. -/
def kClsFixedDrop : Nat := 3
/-- Misses per source. -/
def kClsMiss : Nat := 4
/-- Fragments per source. -/
def kClsFrag : Nat := 5
/-- Malformed frames of kind k, per source. -/
def kClsMalformed (k : Nat) : Nat := 6 + k
/-- Frames that meet CLS disabled, per source. -/
def kClsDisabled : Nat := 14

/-- Fixed action f (R413). -/
def fixedAction (s : State) (f : Nat) : Nat :=
  ((rdF s fCLS_FA_A 0 (4 * f) * 2 ^ 24 + rdF s fCLS_FA_A 0 (4 * f + 1)) * 2 ^ 24 + rdF s fCLS_FA_A 0 (4 * f + 2)) * 2 ^ 24 +
  rdF s fCLS_FA_A 0 (4 * f + 3)

/-- What the search of a parsed frame decides: an entry's number or none and then a fixed action's, and the action (R400,
R402). -/
def decideAction (s : State) (p : Parse) (source : Nat) (prot : Bool) : State × Option Nat × Nat × Nat :=
  let i := sourceIndex source
  match p.bad with
  | some k => (count s 0x0b (kClsMalformed k) i, none, 8 + k, fixedAction s (8 + k))
  | none =>
    let copy1 := inCopy1 source
    match firstMatch s copy1 (wideLow p) (narrowKey p source (rdF s fCLS_SRCCFG_PMETA 0 i) prot) with
    | some n => (s, some n, 0, (clsRow s copy1 n).act)
    | none =>
      let f := rdF s fCLS_SRCCFG_DEFIDX 0 i
      (count s 0x0b kClsMiss i, none, f, fixedAction s f)

/-- The headers that the frame's descriptor keeps (R330, R394). -/
def hdrsOf (p : Parse) : Hdrs :=
  { l3 := p.l3at, ver := if p.ipv4 then 4 else if p.ipv6 then 6 else 0, l4 := p.l4at,
    proto := if p.tcp then 6 else if p.udp then 17 else 0 }

/-! ## Where a frame goes -/

/-- A frame that goes no further: it stays until its end and its ICV are settled, bound for nothing. -/
def endHere (s : State) (x : Flight) : State := setFlight s { x with stage := 2, dest := .none }

/-- A frame sent toward a destination: admission decides next. -/
def sendTo (s : State) (x : Flight) (d : Dest) : State := setFlight s { x with stage := 1, dest := d }

/-- The destination of a frame with this QUEUE and hash that runs no program, or none where it is unplaced (R216, R271, R425). -/
def queueDest (s : State) (q hash : Nat) : Option Dest :=
  if q < 16376 ∧ ponEgress s q ∧ (moveOf s 1 (hash % 4096)).isSome then some (.fence (2 ^ 20 + hash % 4096))
  else (queueFor s q hash).map Dest.sched

/-- The levels of queue q's path whose committed credit a frame charges that starts now (R446). -/
def committedLevels (s : State) (q : Nat) : Nat :=
  match pathOf s q with
  | some (b, v, _) => 2 * b2n (committedOk s 1 v) + 4 * b2n (committedOk s 2 b)
  | none => 0

/-- Whether a queue of class c below port node n holds a frame or takes one. -/
def classBusy (s : State) (n c : Nat) : Bool :=
  (s.qm.queues.any fun x => !x.2.frames.isEmpty && qClass s x.1 == c && (pathOf s x.1).any fun y => y.2.2 == n) ||
  (s.flights.any fun x => x.stage == 2 &&
    (match x.dest with | .sched q => qClass s q == c && (pathOf s q).any (fun y => y.2.2 == n) | _ => false))

/-- Whether a frame takes the cut-through bypass to port n in class c through queue q (R332, R445, R453). The spec has the
conditions hold when the frame's first 64 bytes have arrived; here that is the instant of its search (assumption log 14). -/
def mayCut (s : State) (x : Flight) (n c q : Nat) : Bool :=
  let m := macP s n
  let pre := isPreemptable s n c
  decide (n < 32) && onF s fMAC_CT_CTEN n && bitOf (rdF s fMAC_CT_CTCLASS n) c && m.ex.isNone && (!pre || m.pr.isNone) &&
  !classBusy s n c && macRuns s n && active s 8 n && active s 0x0e n && x.bad == 0 &&
  (match x.port with | some p => portRate s n ≤ portRate s p | none => portMode s n == 1) &&
  !pausedClass s n c && !(pre && m.hold) && gateFits s n c (rdF s fMAC_MCFG_MAXLEN n + 20) && !overRecent s && pathPeakOk s q &&
  (!gatedPort s n || isEapol x.frame.bytes)

/-- A frame that cuts through: charged under MAXLEN and selected at its egress (R332, R453). -/
def cutThrough (s : State) (x : Flight) (n c q : Nat) : State :=
  let len := rdF s fMAC_MCFG_MAXLEN n + rdF s fSCH_PNCFG_OVH n
  let comm := committedLevels s q
  let s := chargePath s q len comm
  let s := setFlight s { x with stage := 2, dest := .cut n q }
  selectFrame s n (isPreemptable s n c) x.frame c q (some x.id) len comm

/-- A frame that FLOW lets pass, on its way (R209, R216, R332, R416, R425). -/
def place (s : State) (x : Flight) (r : FlowRec) (hash : Nat) : State :=
  if r.progen then
    let s := count s 0x0c kFlowProg x.frame.flow
    if (moveOf s 0 x.frame.flow).isSome then sendTo s x (.fence x.frame.flow)
    else match flowEngine s x.frame.flow with
      | some e => sendTo s x (.eng e)
      | none => endHere (count s 2 kPlcUnplaced r.prog) x
  else match queueDest s x.frame.queue hash with
    | none => endHere (count s 0x0d kQmUnplaced x.frame.queue) x
    | some (.sched q) =>
      (match pathOf s q with
      | some (_, _, n) => if mayCut s x n (qClass s q) q then cutThrough s x n (qClass s q) q else sendTo s x (.sched q)
      | none => sendTo s x (.sched q))
    | some d => sendTo s x d

/-- FLOW's decision on a frame: its colour, its counts, its charge if it has ended, and whether it passes (R416 to R418, R421,
R422). -/
def flowDecide (s : State) (x : Flight) (r : FlowRec) (hash : Nat) : State :=
  let f := x.frame.flow
  let src := sourceIndex x.frame.source
  if !active s 0x0c 0 then endHere (count s 0x0c kFlowDisabled src) x
  else if !r.valid then endHere (count s 0x0c kFlowInvalid src) x
  else
    let c := colourOf s f
    let x := { x with frame := { x.frame with colour := c }, decided := true }
    let s := count s 0x0c (kFlowFrames c) f
    let s := if x.ended then chargeFlow s f c x.rxLen else s
    if c = 1 ∧ r.yact then endHere (count s 0x0c kFlowYact f) x
    else if c = 2 ∧ r.ract then endHere (count s 0x0c kFlowRact f) x
    else place s x r hash

/-! ## The search -/

/-- A frame whose action carries CAPT offered to the capture ring, copied after MSEC (R639). -/
def offerCapture (s : State) (x : Flight) : State :=
  if !capturing s then s
  else
    let o : Offer := { egress := false, invalid := false, poison := false, source := x.frame.source, len := x.frame.bytes.length,
                       mark := x.frame.mark, flow := x.frame.flow, bytes := x.frame.bytes, flight := some x.id }
    { s with cnt := { s.cnt with offers := s.cnt.offers ++ [o] } }

/-- A copy of a frame for the mirror queue: it is stored and forwarded, and shares the frame's end and ICV (R403, R404). -/
def mirror (s : State) (x : Flight) (q hash : Nat) : State :=
  match queueDest s q hash with
  | none => count s 0x0d kQmUnplaced q
  | some d => addFlight s { x with stage := 1, dest := d, of_ := some x.id, decided := false, frame := { x.frame with queue := q } }

/-- The flow that an action names, by itself or through the exact-match table (R403, R404, R414). -/
def flowOf (s : State) (a key : Nat) : Nat :=
  if bitsOf a 94 2 = 2 then
    let k := bitsOf a 90 4
    (emFind s k (key &&& profMask s k)).getD (bitsOf a 48 17)
  else bitsOf a 48 17

/-- A frame is parsed, searched, and takes its action (R392 to R406). ACT 3, which is not assigned, discards as ACT 0 does
(assumption log 13). -/
def execClsSearch (f : Nat) (lost : List (Fin 65536)) (s : State) : Out :=
  match flight s f with
  | none => .next s
  | some x =>
    if !live s || x.stage ≠ 0 then .next s
    else
      let i := sourceIndex x.frame.source
      if !active s 0x0b 0 then .next (endHere (count s 0x0b kClsDisabled i) x)
      else
        let s := lost.foldl (fun s r => loseRow s r.val) s
        let p := parse x.frame.bytes
        let d := decideAction s p x.frame.source x.prot
        let a := d.2.2.2
        let hash := spreadHash p (bitsOf a 83 2) (rdF s fCLS_HSEED_SEED)
        let key := narrowKey p x.frame.source (rdF s fCLS_SRCCFG_PMETA 0 i) x.prot
        let s := match d.2.1 with
          | some n => count (count d.1 0x0b kClsFrames n) 0x0b kClsBytes n (x.frame.bytes.length + 4)
          | none => d.1
        let s := if p.frag then count s 0x0b kClsFrag i else s
        let fl := flowOf s a key
        let r := flowRec s fl
        let t := tget (fun _ => 0) s.cls.ind (bitsOf a 85 4 * 4096 + hash % 4096)
        let h := bitOf a 89
        let x := { x with frame := { x.frame with
          flow := fl, action := a, frag := p.frag, hdr := hdrsOf p, hash := hash % 4096,
          queue := (if h then t % 2 ^ 14 else r.queue), txsc := (if h then t / 2 ^ 14 else r.txsc) } }
        let s := setFlight s x
        let s := if bitOf a 82 then offerCapture s x else s
        let s := if bitOf a 81 then mirror s x (bitsOf a 34 14) hash else s
        if bitsOf a 94 2 = 0 ∨ bitsOf a 94 2 = 3 then
          .next (endHere (match d.2.1 with
            | some n => count s 0x0b kClsDropped n
            | none => count s 0x0b kClsFixedDrop d.2.2.1) x)
        else .next (flowDecide s x r hash)

/-! ## Writing entries -/

/-- A staged number of 320 bits from 14 words (R413). -/
def staged320 (s : State) (fld : Fld) : Nat := key320 fun j => rdF s fld 0 j

/-- The 14 words that a number of 320 bits makes (R413). -/
def unstage320 (s : State) (fld : Fld) (k : Nat) : State :=
  (List.range 14).foldl (fun s j => wrF s fld (if j < 13 then bitsOf k (296 - 24 * j) 24 else bitsOf k 0 8 * 2 ^ 16) 0 j) s

/-- The staged action (R413). -/
def stagedAct (s : State) : Nat :=
  ((rdF s fCLS_EACT_A 0 0 * 2 ^ 24 + rdF s fCLS_EACT_A 0 1) * 2 ^ 24 + rdF s fCLS_EACT_A 0 2) * 2 ^ 24 + rdF s fCLS_EACT_A 0 3

/-- The rows of the staged entry (R401, R413). -/
def stagedRows (s : State) : List ClsRow :=
  let r : ClsRow := { key := staged320 s fCLS_EKEYH_K, mask := staged320 s fCLS_EMSKH_M, act := stagedAct s,
                      valid := onF s fCLS_ECTL_VALID, wide := onF s fCLS_ECTL_WIDE }
  if r.wide then [r, { rowReset with key := staged320 s fCLS_EKEYL_K, mask := staged320 s fCLS_EMSKL_M }] else [r]

/-- Rows written to a copy from index i on. -/
def putRows (s : State) (copy1 : Bool) (i : Nat) (l : List ClsRow) : State :=
  (l.mapIdx fun k r => (i + k, r)).foldl (fun s x => setRow s copy1 x.1 x.2) s

/-- ERES given a state and a cause (R410). -/
def eres (s : State) (st why : Nat) : State := result s fCLS_ERES_STATE (st + 2 * why)

/-- The cause for which the staged write is refused, 0 for none (R410). -/
def entryRefusal (s : State) : Nat :=
  let i := rdF s fCLS_ESEL_INDEX
  let wide := onF s fCLS_ECTL_WIDE
  if s.cls.op.isSome then 1
  else if wide ∧ i % 2 = 1 then 2
  else if !wide ∧ inPair s false i then (if i % 2 = 1 then 3 else 4)
  else 0

/-- EGO WRITE: the staged entry goes into copy 0, and copy 1 takes it next; or it is refused (R408 to R410). With READ set too it
is a write (assumption log 13). -/
def execClsEntryWrite (e : Eng) (v : Word) (s : State) : Out :=
  if !bitOf v.toNat 0 then .next s
  else onSet s e (fAddr fCLS_EGO_WRITE 0 0) v fun s =>
    let why := entryRefusal s
    if why ≠ 0 then eres s 1 why
    else
      let i := rdF s fCLS_ESEL_INDEX
      let l := stagedRows s
      let s := putRows s false i l
      { s with cls := { s.cls with op := some (i, l) } }

/-- Copy 1 takes the entry too, and ERES is ready (R408). -/
def execClsEntryWriteDone (s : State) : Out :=
  match s.cls.op with
  | none => .next s
  | some (i, l) =>
    if live s then
      let s := putRows s true i l
      .next (eres { s with cls := { s.cls with op := none } } 0 0)
    else .next s

/-- EGO READ: copy 0's entry at INDEX goes into the staging words (R413); while a write is in progress it is refused (R410). -/
def execClsEntryRead (e : Eng) (v : Word) (s : State) : Out :=
  if bitOf v.toNat 0 || !bitOf v.toNat 1 then .next s
  else onSet s e (fAddr fCLS_EGO_WRITE 0 0) v fun s =>
    if s.cls.op.isSome then eres s 1 1
    else
      let i := rdF s fCLS_ESEL_INDEX
      let r := clsRow s false i
      let s := wrF (wrF s fCLS_ECTL_VALID (b2n r.valid)) fCLS_ECTL_WIDE (b2n r.wide)
      let s := unstage320 (unstage320 s fCLS_EKEYH_K r.key) fCLS_EMSKH_M r.mask
      let s := if r.wide then
          unstage320 (unstage320 s fCLS_EKEYL_K (clsRow s false (i + 1)).key) fCLS_EMSKL_M (clsRow s false (i + 1)).mask
        else s
      eres ((List.range 4).foldl (fun s w => wrF s fCLS_EACT_A (bitsOf r.act (72 - 24 * w) 24) 0 w) s) 0 0

/-- A SET of HIDATA: the indirection entry at HISEL, and INDEX moves on (R406, R407, R413). -/
def execHidataWrite (e : Eng) (v : Word) (s : State) : Out :=
  onSet s e (fAddr fCLS_HIDATA_ENTRY 0 0) v fun s =>
    let i := rdF s fCLS_HISEL_INDEX
    let k := rdF s fCLS_HISEL_GROUP * 4096 + i
    wrF { s with cls := { s.cls with ind := tset (fun _ => 0) s.cls.ind k v.toNat } } fCLS_HISEL_INDEX (i + 1)

/-- The scrub checks a row: one that fails in one copy is rewritten from the other, one that fails in both is made invalid
(R411). -/
def execClsScrub (row : Fin 65536) (bad0 bad1 : Bool) (s : State) : Out :=
  if !live s then .next s
  else if bad0 && bad1 then .next (loseRow s row)
  else if bad0 then .next (setRow s false row (clsRow s true row))
  else if bad1 then .next (setRow s true row (clsRow s false row))
  else .next s

end Sys2Proof.Machine
end

