-- ==== Sys2Proof/Machine/Plc.lean ====
section
/-! DEFINITION. Placement: requests, moves, balance epochs, picks, resident contexts, and a channel that leaves operation (R209 to
R224). -/
namespace Sys2Proof.Machine

/-! ## Objects -/

/-- Key of an object: kind 0 flow, 1 bucket, 2 queue, 3 SA context, 4 pool (R224). -/
def objKey (kind index : Nat) : Nat := kind * 2 ^ 20 + index

/-- Whether an index names an object of its kind (R209, R224). -/
def objExists (kind index : Nat) : Bool :=
  match kind with
  | 0 => index < 131072
  | 1 => index < 4096
  | 2 => index < 16384
  | 3 => index < 4096
  | 4 => index < 64
  | _ => false

/-- Whether channel c is in operation (R249). -/
def chanOperating (s : State) (c : Nat) : Bool := c < 4 && onF s fPON_CHSTAT_OPER c

/-- The placement in force of an object, none where it has none: a critical queue has no spill group (R212). -/
def placeOf (s : State) (kind index : Nat) : Option Nat :=
  match kind with
  | 0 => flowEngine s index
  | 1 => some (bucketChan s index)
  | 2 => if critical s index then none else some (groupOf s index)
  | 3 => (saCtx s index).map fun x => b2n x.resident
  | _ => none

/-- The OBJRES of an object with a state; the placement of an object that has none is a free value (assumption log 2). -/
def reportObj (s : State) (kind index st : Nat) : State :=
  match placeOf s kind index with
  | some w => objRes s w st (hintsOf s kind index)
  | none =>
    let k := takeFree s
    objRes k.2 k.1 st (hintsOf s kind index)

/-- A move of an object that has ended: the tick of its last automatic one is noted, since requested ones do not count against DWELL (R221),
and the move is counted (R225). -/
def noteMoved (s : State) (kind index : Nat) (asked : Bool) : State :=
  let s := count s 2 kPlcMoved kind
  if asked then s
  else { s with plc := { s.plc with moved := tset (fun _ => 0) s.plc.moved (objKey kind index) (s.sys.ticks + 1) } }

/-- An object's map entry given a placement. -/
def setPlace (s : State) (kind index target : Nat) : State :=
  match kind with
  | 0 => setFlowEngine s index (some target)
  | 1 => { s with plc := { s.plc with bucket := tset (fun _ => 0) s.plc.bucket index target } }
  | 2 => { s with plc := { s.plc with group := tset (fun _ => 0) s.plc.group index target } }
  | _ => s

/-- The moves of flows and buckets that run (R216). -/
def runningMoves (s : State) : Nat := (s.plc.moves.filter fun m => m.kind < 2).length

/-! ## SA contexts -/

/-- Contexts in the store. -/
def residents (s : State) : Nat := (s.msec.sa.filter fun p => p.2.any fun x => x.resident).length

/-- Contexts that the store holds (R209). -/
def storeSize : Nat := 2560

/-- Whether a context is the current SA of an enabled transmit channel or the target of a held switch request (R215). -/
def firstRank (s : State) (x : Sa) : Bool :=
  x.tx && ((txCh s x.ch).enable && (txCh s x.ch).cur == some x.an || (txCh s x.ch).req.any fun r => r.1 == x.an)

/-- Whether a context is an installed receive SA that is not in retention (R214). -/
def secondRank (x : Sa) : Bool := !x.tx && !x.retain

/-- Precedence of a context that is not of the first rank: the higher, the rather it stays (R215). -/
def rankOf (s : State) (k : Nat) (x : Sa) : Nat :=
  if secondRank x then 1 + x.seen + (if bitOf (hintsOf s 3 k) 2 then 2 ^ 64 else 0) else 0

/-- The resident context of lowest precedence outside the first rank (R215). -/
def lowestResident (s : State) : Option Nat :=
  leastBy (fun k => match saCtx s k with | some x => rankOf s k x | none => 0)
    ((s.msec.sa.filter fun p => p.2.any fun x => x.resident && !firstRank s x).map fun p => p.1)

/-- The move of a context that waits for a frame boundary of its channel (R219). -/
def saMove (s : State) (c : Nat) : Option Move := s.plc.moves.find? fun m => m.kind == 3 && m.index == c

/-- The waiting move of context c ends with a state: 0 where the context has come to its target, 3 where that is refused; a requested one is
reported (R219, R224, R225). -/
def endSaMove (s : State) (c st : Nat) : State :=
  match saMove s c with
  | none => s
  | some m =>
    let s := dropMove s m
    let s := if st = 0 then noteMoved s 3 c m.asked else s
    if m.asked then reportObj s 3 c st else s

/-- Context k put into the store or taken out of it: a move of it that wanted this is over, and a switch that waits for it is tried (R214, R224,
R377). -/
def setResident (s : State) (k : Nat) (b : Bool) : State :=
  match saCtx s k with
  | none => s
  | some x =>
    let s := setSa s k (some { x with resident := b })
    let s := if (saMove s k).any fun m => m.target == b2n b then endSaMove s k 0 else s
    if b && x.tx then trySwitch s x.ch else s

/-- Whether R215 admits context k to the store now, and the context it displaces. -/
def admits (s : State) (k : Nat) (x : Sa) : Option (Option Nat) :=
  if residents s < storeSize then some none
  else match lowestResident s with
    | none => none
    | some y =>
      let low := match saCtx s y with | some z => rankOf s y z | none => 0
      if firstRank s x || decide (low < rankOf s k x) then some (some y) else none

/-- A context enters the store where R215 admits it, displacing the one of lowest precedence where it must. -/
def bringIn (s : State) (k : Nat) (x : Sa) : State :=
  match admits s k x with
  | none => s
  | some none => setResident s k true
  | some (some y) => setResident (setResident s y false) k true

/-- A context that is newly installed, or that an enabled channel or a switch request names, becomes resident where R215 admits it; one that it
does not admit stays in DRAM for the epochs to decide. What R214 and R215 ask for here is no choice of an epoch, and it holds whatever AUTOSA and
PIN say (assumption log 78, DEDUCED). -/
def execContextResident (c : Fin 4096) (s : State) : Out :=
  match saCtx s c with
  | none => .next s
  | some x =>
    if !live s || !active s 2 0 || x.resident || !(x.fresh || firstRank s x) then .next s
    else .next (bringIn (setSa s c (some { x with fresh := false })) c { x with fresh := false })

/-- Whether a resident context may leave the store: never one of the first rank, and a receive SA outside retention only as the one of lowest
precedence in a full store, unless a program asks (R214, R215). -/
def mayLeave (s : State) (c : Nat) (x : Sa) (asked : Bool) : Bool :=
  !firstRank s x && (asked || !secondRank x || (decide (storeSize ≤ residents s) && lowestResident s == some c))

/-- A context whose move waits goes between DRAM and the store at a frame boundary of its channel; a move that R215 does not admit any more ends
refused (R215, R219, R224). -/
def execContextMove (c : Fin 4096) (toStore : Bool) (s : State) : Out :=
  match saMove s c with
  | none => .next s
  | some m =>
    if !live s || m.target != b2n toStore then .next s
    else match saCtx s c with
      | none => .next (endSaMove s c 3)
      | some x =>
        if toStore then .next (endSaMove (bringIn s c x) c 3)
        else if mayLeave s c x m.asked then .next (setResident s c false)
        else .next (endSaMove s c 3)

/-! ## Moves -/

/-- A move set going: its object is fenced, or a context waits for a frame boundary (R216, R219). -/
def startMove (s : State) (kind index source target : Nat) (asked : Bool) : State :=
  { s with plc := { s.plc with moves := s.plc.moves ++ [⟨kind, index, source, target, [], asked, s.sys.ticks, none⟩] } }

/-- Whether an object may be placed on a target: an engine of its flow's pool that lives, a channel in operation, one of the 8
spill groups for a queue that is not critical, DRAM or the store for a context (R209, R212, R217). -/
def targetOk (s : State) (kind index target : Nat) : Bool :=
  match kind with
  | 0 => target < 192 && inPool s (flowRec s index).prog target && engLives s target
  | 1 => chanOperating s target
  | 2 => target < 8 && !critical s index
  | 3 => target < 2 && (saCtx s index).isSome && !(target == 0 && (saCtx s index).any fun x => firstRank s x)
  | _ => false

/-- A requested MOVE (R216, R218, R219, R222): refused with STATE 3 where the object moves already, 16 moves run, or the target
does not fit; done at once where the placement is in force; a queue changes group at once; a flow, a bucket or a context sets
out. -/
def askMove (s : State) : State :=
  let kind := rdF s fPLC_OBJKIND_KIND
  let index := rdF s fPLC_OBJIDX_INDEX
  let target := rdF s fPLC_OBJTGT_TARGET
  if !active s 2 0 || !objExists kind index || (moveOf s kind index).isSome then reportObj s kind index 3
  else if placeOf s kind index = some target then reportObj s kind index 0
  else if !targetOk s kind index target || (kind < 2 && 16 ≤ runningMoves s) then reportObj s kind index 3
  else if kind = 2 then reportObj (noteMoved (setPlace s 2 index target) 2 index true) 2 index 0
  else match placeOf s kind index with
    | some p => startMove s kind index p target true
    | none => reportObj s kind index 3

/-- The request bit of OBJGO that a SET of v acts on: the lowest that is set (assumption log 15). -/
def objAction (v : Word) : Option Nat := (List.range 4).find? fun k => bitOf v.toNat k

/-- A SET of OBJGO that asks for action k. -/
def onObjGo (s : State) (e : Nat) (v : Word) (k : Nat) (f : State → State) : Out :=
  if objAction v ≠ some k then .next s else onSet s e (fAddr fPLC_OBJGO_QUERY 0 0) v f

/-- QUERY: the object's placement, whether it moves, and its hints (R224). -/
def execPlcQuery (e : Eng) (v : Word) (s : State) : Out :=
  onObjGo s e v 0 fun s =>
    let kind := rdF s fPLC_OBJKIND_KIND
    let index := rdF s fPLC_OBJIDX_INDEX
    if objExists kind index then reportObj s kind index (b2n (moveOf s kind index).isSome) else reportObj s kind index 3

/-- MOVE (R216, R222, R224). -/
def execPlcMove (e : Eng) (v : Word) (s : State) : Out := onObjGo s e v 1 askMove

/-- HINT: the object's hints become OBJHINT's (R224). -/
def execPlcHint (e : Eng) (v : Word) (s : State) : Out :=
  onObjGo s e v 2 fun s =>
    let k := objKey (rdF s fPLC_OBJKIND_KIND) (rdF s fPLC_OBJIDX_INDEX)
    let h := rdF s fPLC_OBJHINT_PIN + 2 * rdF s fPLC_OBJHINT_CRIT + 4 * rdF s fPLC_OBJHINT_NEAR
    { s with plc := { s.plc with hints := tset (fun _ => 0) s.plc.hints k h } }

/-- Whether PICK may return engine x of pool p: STOPPED and not reserved (R211). -/
def mayPick (s : State) (p x : Nat) : Bool :=
  inPool s p x && (eng s x).st == .stopped && !(eng s x).gated && (tget (fun _ => none) s.plc.picked x).isNone

/-- PICK: the least busy STOPPED engine of the pool is returned and reserved; with hint NEAR one of lantern 0 where there is one;
with none, STATE 3 (R211, R224). -/
def execPlcPick (e : Eng) (v : Word) (least : Eng) (s : State) : Out :=
  let p := rdF s fPLC_OBJIDX_INDEX
  let isPool := rdF s fPLC_OBJKIND_KIND == 4 && p < 64 && active s 2 0
  let l := (List.range 192).filter fun x => isPool && mayPick s p x
  let near := bitOf (hintsOf s 4 p) 2 && l.any fun x => x < 8
  if !l.isEmpty && (!l.contains least.val || (near && 8 ≤ least.val)) then .next s
  else onObjGo s e v 3 fun s =>
    if l.isEmpty then reportObj s 4 p 3
    else objRes { s with plc := { s.plc with picked := tset (fun _ => none) s.plc.picked least (some s.sys.ticks) } } least 0 (hintsOf s 4 p)

/-- The reservation of a picked engine ends after 10 ms, 6,250,000 ticks (R211). -/
def execPickReservationExpiry (x : Eng) (s : State) : Out :=
  match tget (fun _ => none) s.plc.picked x with
  | none => .next s
  | some t =>
    if live s && decide (t + 6250000 ≤ s.sys.ticks) then .next { s with plc := { s.plc with picked := tset (fun _ => none) s.plc.picked x none } }
    else .next s

/-- Whether the source of a move holds nothing of the object any more (R216): no frame of the flow in the engine or on its way out
of it; or no frame of the bucket in the channel's queues or its open burst, and PONGUARD, in steps of 10 ns, since the end of the last burst that
carried one. -/
def drained (s : State) (m : Move) : Bool :=
  if m.kind = 0 then
    let g := eng s m.source
    !(g.frames.any fun f => f.flow == m.index) && (g.win.idle || g.win.flow != m.index) &&
    !(s.flights.any fun x => x.frame.flow == m.index && (x.dest == .eng m.source || (x.stage == 1 && (match x.dest with
      | .fence _ => false
      | _ => true))))
  else
    let below := fun (q : Nat) => (pathOf s q).any fun p => nodeChan p.2.2 == some m.source
    m.endAt.all (fun t => decide (4 * t + 25 * rdF s fPLC_PONGUARD_G ≤ 4 * s.sys.ticks)) &&
    !(s.qm.queues.any fun q => below q.1 && q.2.frames.any fun f => f.frame.hash == m.index) &&
    !(s.flights.any fun x => x.frame.hash == m.index && (match x.dest with | .sched q => below q | _ => false)) &&
    !(s.sch.rest.any fun r => nodeChan r.1 == some m.source && r.2.any fun f => f.hash == m.index) &&
    !(s.pon.any fun c => c.1 == m.source && c.2.burst.any fun b => b.sent.any fun f => f.frame.hash == m.index)

/-- The drain of a move is complete: the fence queue goes to the target and the map names it (R216). -/
def execMoveDrainComplete (kind : Fin 2) (index : Fin 131072) (s : State) : Out :=
  match moveOf s kind index with
  | none => .next s
  | some m =>
    if !live s || !drained s m then .next s
    else
      let s := noteMoved (setPlace (releaseFence (dropMove s m) m m.target) m.kind m.index m.target) m.kind m.index m.asked
      .next (if m.asked then reportObj s m.kind m.index 0 else s)

/-- A move's drain misses TIMEOUT, in steps of 10 µs: it reverts (R217). -/
def execMoveTimeout (kind : Fin 2) (index : Fin 131072) (s : State) : Out :=
  match moveOf s kind index with
  | none => .next s
  | some m =>
    if live s && decide (m.at_ + rdF s fPLC_MOVECTL_TIMEOUT * 6250 ≤ s.sys.ticks) then .next (revertMove s m 1) else .next s

/-! ## Balance epochs -/

/-- Whether channel c is in O6 (R254). -/
def inO6 (s : State) (c : Nat) : Bool := rdF s fPON_CHSTAT_ACTST c == 6

/-- Buckets on channel c. -/
def bucketsOn (s : State) (c : Nat) : Nat := ((List.range 4096).filter fun b => bucketChan s b == c).length

/-- Bytes granted to channel c in the last 10 ms, 6,250,000 ticks: its granted upstream rate (R209). -/
def recentGrants (s : State) (c : Nat) : Nat :=
  (((tget (fun _ => []) s.plc.grants c).filter fun (g : Nat × Nat) => s.sys.ticks < g.1 + 6250000).map fun g => g.2).sum

/-- A grant of n bytes taken by channel c, for the rate of the next 10 ms. -/
def noteGrant (s : State) (c n : Nat) : State :=
  let l := (tget (fun _ => []) s.plc.grants c).filter fun (g : Nat × Nat) => s.sys.ticks < g.1 + 6250000
  { s with plc := { s.plc with grants := tset (fun _ => []) s.plc.grants c (l ++ [(s.sys.ticks, n)]) } }

/-- The granted rate of channel c as PLC uses it: in O6 the one of the 10 ms before O6 was entered (R209, R274). -/
def rateOf (s : State) (c : Nat) : Nat := if inO6 s c then tget (fun _ => 0) s.plc.rate c else recentGrants s c

/-- PON tells PLC the rate of the 10 ms before channel c entered O6 (R274). -/
def keepRate (s : State) (c : Nat) : State :=
  { s with plc := { s.plc with rate := tset (fun _ => 0) s.plc.rate c (recentGrants s c) } }

/-- Whether channel c's share of the buckets differs by more than 10 % from its share of the granted rate, 10 % of the latter (R210;
assumption log 79, DEDUCED). -/
def shareDiffers (s : State) (c : Nat) : Bool :=
  let all := ((List.range 4).map (rateOf s)).sum
  let a := bucketsOn s c * all
  let b := rateOf s c * 4096
  b < 10 * (max a b - min a b)

/-- Depth of engine e's frame queue. -/
def engDepth (s : State) (e : Nat) : Nat := (eng s e).frames.length

/-- Whether R210 and R215 let PLC move an object from where it stands to a target; bw is the spill bandwidth of each group, in both directions. -/
def worthMoving (s : State) (bw : List Nat) (kind index source target : Nat) : Bool :=
  match kind with
  | 0 =>
    let l := poolEngines s (flowRec s index).prog
    let total := (l.map (engDepth s)).sum
    onF s fPLC_MODE_AUTOFLOW && 5 * total < 4 * engDepth s source * l.length && engDepth s target * l.length < total
  | 1 => onF s fPLC_MODE_AUTOPON && !inO6 s source && !inO6 s target && (shareDiffers s source || shareDiffers s target)
  | 2 => onF s fPLC_MODE_AUTOSPILL && decide (5 * bw.sum < 4 * 8 * bw.getD source 0)
  | _ => onF s fPLC_MODE_AUTOSA && (saCtx s index).any fun x => if target = 1 then (admits s index x).isSome else mayLeave s index x false

/-- The automatic moves of the last second, 625,000,000 ticks (R221). -/
def recentAutos (s : State) : List Nat := s.plc.autos.filter fun t => s.sys.ticks < t + 625000000

/-- An automatic move counted against MAXRATE (R221). -/
def noteAuto (s : State) : State := { s with plc := { s.plc with autos := recentAutos s ++ [s.sys.ticks] } }

/-- One automatic move that PLC wants: made where R210, R212, R215, R216 and R221 let it; X5 stops those of flows and buckets. -/
def autoMove (bw : List Nat) (s : State) (w : Fin 4 × Fin 131072 × Fin 256) : State :=
  let kind := w.1.val
  let index := w.2.1.val
  let target := w.2.2.val
  let last := tget (fun _ => 0) s.plc.moved (objKey kind index)
  match placeOf s kind index with
  | none => s
  | some p =>
    if !objExists kind index || p = target || !targetOk s kind index target || bitOf (hintsOf s kind index) 0 ||
       (moveOf s kind index).isSome || (kind < 2 && (s.plc.still || 16 ≤ runningMoves s)) || !worthMoving s bw kind index p target ||
       rdF s fPLC_MOVECTL_MAXRATE * 1000 ≤ (recentAutos s).length ||
       (last != 0 && s.sys.ticks + 1 < last + rdF s fPLC_MOVECTL_DWELL * 625000) then s
    else if kind = 2 then noteMoved (setPlace (noteAuto s) 2 index target) 2 index false
    else startMove (noteAuto s) kind index p target false

/-- The flows that stand on a live engine outside their pool, since a commit has taken it out (R222). -/
def strayFlows (s : State) : List Nat :=
  (s.flow.recs.filter fun x => x.2.valid && x.2.progen && (moveOf s 0 x.1).isNone &&
    (flowEngine s x.1).any fun e => !inPool s x.2.prog e).map fun x => x.1

/-- A stray flow moved out to the least-loaded engine of its pool while fewer than 16 moves run; AUTOFLOW, PIN, DWELL and MAXRATE do not hold it
back (R222; assumption log 80, DEDUCED). -/
def moveOut (s : State) (f : Nat) : State :=
  match flowEngine s f, leastLoaded s (flowRec s f).prog with
  | some p, some e => if 16 ≤ runningMoves s then s else startMove (noteAuto s) 0 f p e false
  | _, _ => s

/-- Installed receive SAs outside retention that are held in DRAM (R215). -/
def heldOut (s : State) : Nat := (s.msec.sa.filter fun p => p.2.any fun x => secondRank x && !x.resident).length

/-- Whether the receive SAs that R214 names exceed the room that the first group leaves (R215). -/
def crowded (s : State) : Bool :=
  decide (storeSize < (s.msec.sa.filter fun p => p.2.any fun x => firstRank s x || secondRank x).length)

/-- A balance epoch of (E + 1) × 10 µs ends: PLC makes the automatic moves it wants, flows outside their pools first, and event 0x080_012
records receive SAs held out (R209, R210, R215, R221, R222, X5). The first epoch after a change of role makes none (X17). -/
def execBalanceEpoch (out back : List Nat) (wants : List (Fin 4 × Fin 131072 × Fin 256)) (s : State) : Out :=
  if !live s || !active s 2 0 || decide (s.sys.ticks < s.plc.epochAt + (rdF s fPLC_EPOCH_E + 1) * 6250) then .next s
  else
    let s := { s with plc := { s.plc with epochAt := s.sys.ticks, still := s.plc.still || s.pwr.run.isSome } }
    let s := if s.pair.quiet then { s with pair := { s.pair with quiet := false } }
      else wants.foldl (autoMove (List.zipWith (· + ·) out back)) (if s.plc.still then s else (strayFlows s).foldl moveOut s)
    let s := { s with plc := { s.plc with still := false } }
    .next (if crowded s then emit1 s 0x080012 (heldOut s) else s)

/-! ## A channel that leaves operation -/

/-- Counter kind of PON: frames discarded with a channel that left operation, per allocation (R220). -/
def kPonLost : Nat := 0

/-- Whether queue q lies below an allocation of channel c, and which (R270). -/
def allocBelow (s : State) (c q : Nat) : Option Nat :=
  match pathOf s q with
  | some (_, _, n) => if nodeChan n = some c then some (n - 32) else none
  | none => none

/-- Whether queue q is one that the frames of a bucket enter on channel c (R271). -/
def bucketQueue (s : State) (c q : Nat) : Bool := c ≤ q && ponEgress s (q - c)

/-- The frames of those of channel c's allocation queues that which names, those admitted and not yet committed and what is left of fragmented ones
among them, discarded and counted per allocation (R220, R278). -/
def dropChannelFrames (s : State) (c : Nat) (which : Nat → Bool) : State :=
  let s := s.qm.queues.foldl (fun s x =>
    match allocBelow s c x.1 with
    | some a =>
      if x.2.frames = [] ∨ !which x.1 then s
      else count (setQueue s x.1 { x.2 with frames := [], headc := 0, blocks := [] }) 5 kPonLost a x.2.frames.length
    | none => s) s
  let s := s.flights.foldl (fun s x =>
    match x.stage, x.dest with
    | 2, .sched q =>
      (match (if which q then allocBelow s c q else none) with
      | some a => count (setFlight s { x with dest := .none }) 5 kPonLost a
      | none => s)
    | _, _ => s) s
  (List.range 24).foldl (fun s a =>
    let n := 32 + 24 * c + a
    if (tget (fun _ => none) s.sch.rest n).isNone then s
    else count { s with sch := { s.sch with rest := tset (fun _ => none) s.sch.rest n none } } 5 kPonLost (24 * c + a)) s

/-- The channel for the k-th of n buckets spread over channels by granted rate, or evenly where no rate has been measured. -/
def spreadTo (s : State) (l : List Nat) (k n : Nat) : Nat :=
  let total := (l.map (rateOf s)).sum
  let w := fun c => if total = 0 then 1 else rateOf s c
  let x := k * (l.map w).sum / n
  (l.foldl (fun (a : Nat × Nat) c => if a.1 ≤ x then (a.1 + w c, c) else a) (0, l.headD 0)).2

/-- A bucket whose source channel is lost while it moves goes where R220 has switched it, its fenced frames with it. -/
def endBucketMove (s : State) (m : Move) : State :=
  let s := releaseFence (dropMove s m) m (bucketChan s m.index)
  if m.asked then reportObj s 1 m.index 0 else s

/-- Channel c has left operation (R217, R220, R249): moves toward it revert, the frames of its queues are discarded, its buckets, those that move
away from it among them, are spread at once over the channels in operation, and event 0x080_011 records it. Which bucket goes to which channel is not
stated: the place where the spread begins is a free value (assumption log 2). -/
def channelGone (s : State) (c : Nat) : State :=
  let s := (s.plc.moves.filter fun m => m.kind == 1 && m.target == c).foldl (fun s m => revertMove s m 3) s
  let l := (List.range 4).filter fun d => d != c && chanOperating s d
  let mine := (List.range 4096).filter fun b => bucketChan s b == c
  let s := dropChannelFrames s c (bucketQueue s c)
  let f := takeFree s
  let s := if l = [] then s else
    count ((mine.mapIdx fun k b => (b, spreadTo s l ((k + f.1) % mine.length) mine.length)).foldl (fun s x => setPlace s 1 x.1 x.2) f.2)
      2 kPlcSwitched 1 mine.length
  emit0 ((s.plc.moves.filter fun m => m.kind == 1 && m.source == c).foldl endBucketMove s) 0x080011

end Sys2Proof.Machine
end

