-- ==== Sys2Proof/Machine/Time.lean ====
section
/-! DEFINITION. The time counter, its references and states, adjustments, timing inputs and outputs, with the entry and exit of candle
holdover (R515 to R535, R545 to R549). -/
namespace Sys2Proof.Machine

/-- Counter kinds of TIME: ToD characters discarded, per input. -/
def kTimeTod : Nat := 0
/-- Refused adjustments. -/
def kTimeRefused : Nat := 1
/-- Trigger messages refused, per trigger. -/
def kTimeMsg : Nat := 3
/-- Counter kinds of CNDL: holdover entries. -/
def kCndlEntry : Nat := 0
/-- Seconds in holdover, per class. -/
def kCndlSeconds : Nat := 1
/-- Clamps. -/
def kCndlClamp : Nat := 2
/-- Jumps. -/
def kCndlJump : Nat := 3
/-- Candle restarts. -/
def kCndlRestart : Nat := 4

/-- FADJ in force, shown in FADJ1:FADJ0 (R516, R521). -/
def setFadj (s : State) (f : Int) : State :=
  let s := { s with time := { s.time with fadj := f } }
  wrF (wrF s fTIME_FADJ1_F (unsext f 32 / 2 ^ 24)) fTIME_FADJ0_F (unsext f 32)

/-! ## Holdover figures -/

/-- LEARNH from the seconds learned (R545). -/
def setLearn (s : State) (n : Nat) : State :=
  wrF { s with cndl := { s.cndl with learn := n } } fCNDL_LEARNH_H (min 0xffffff (n / 3600))

/-- The learning class that would apply now (R549); RESID counts in units of 10^-14. -/
def learnClass (s : State) : Nat :=
  if 72 ≤ rdF s fCNDL_LEARNH_H ∧ rdF s fCNDL_RESID_R ≤ 200 then 2 else if 24 ≤ rdF s fCNDL_LEARNH_H then 1 else 0

/-- TE(t) of a class in ns, t in seconds, rounded to the nearest (R549; assumption log 23). -/
def holdBound (cls t : Nat) : Nat :=
  let x := if cls = 2 then 50000 * t + 11 * t * t else if cls = 1 then 200000 * t + 30 * t * t else 1000000 * t + 100 * t * t
  (200000000 + x + 5000000) / 10000000

/-- STATE becomes HOLDOVER: FADJ becomes the mean of the last HAVG seconds of FMEAN, y0 and the class are fixed, and event 0x500_010 records the
entry (R547). Before the oven is stable holdover has no figure, as R551 has it (R67; assumption log 23, DEDUCED). With no FMEAN yet FADJ stays
(assumption log 23). -/
def enterHoldover (s : State) : State :=
  let l := s.cndl.fmeans.take (rdF s fCNDL_HAVG_S)
  let s := if l.isEmpty then s else setFadj s (l.sum / l.length)
  let c := learnClass s
  let s := { s with cndl := { s.cndl with y0 := s.cndl.y, unbound := !onF s fCNDL_CSTAT_OVENOK }, time := { s.time with corr := 0 } }
  let s := wrF (wrF (wrF s fCNDL_CSTAT_HOLD 1) fCNDL_CSTAT_LCLASS c) fCNDL_HELAPS_S 0
  emit (count s 0x14 kCndlEntry 0) 0x500010 c (rdF s fCNDL_LEARNH_H) (if s.cndl.unbound then 0xffffff else holdBound c 28800)

/-- The end of a holdover: at a new reference the correction in force goes into FADJ and event 0x500_011 records it; a failed
candle ends it without either (R548, R554). -/
def leaveHoldover (s : State) (ref : Bool) : State :=
  let f := s.time.fadj + s.time.corr
  let s := wrF { s with time := { s.time with corr := 0 } } fCNDL_CSTAT_HOLD 0
  if ref then emit2 (setFadj s f) 0x500011 (rdF s fCNDL_HELAPS_S) (rdF s fCNDL_HBOUND_NS) else s

/-- TSTAT.STATE derived anew, with what its change brings to the holdover (R527, R547, R548, R554). -/
def timeState (s : State) : State :=
  let old := rdF s fTIME_TSTAT_STATE
  let sel := rdF s fTIME_TSTAT_SELREF
  let new := if sel ≠ 0 then (if onF s fTIME_SERVO_LOCKED then 2 else 1)
    else if (old = 2 ∨ old = 3) ∧ onF s fCNDL_CSTAT_OSC then 3 else 0
  let s := wrF s fTIME_TSTAT_STATE new
  if new = 3 ∧ old ≠ 3 then enterHoldover s
  else if old = 3 ∧ new ≠ 3 then leaveHoldover s (decide (sel ≠ 0))
  else s

/-! ## References -/

/-- Whether hardware disqualifies reference r (R524), or its inputs are off in S3 (R538). -/
def refOff (s : State) (r : Nat) : Bool :=
  inS3 s || (match r with
    | 1 => onF s fTIME_PPSST_PPSLOS
    | 2 => onF s fTIME_PPSST_PPSLOS 0 8
    | 4 => !onF s fLANE_LSTAT_LINKUP (rdF s fTIME_REFSRC_SEPORT)
    | 5 => !chanOperating s (rdF s fTIME_REFSRC_PONCH) || rdF s fPON_CHSTAT_ACTST (rdF s fTIME_REFSRC_PONCH) == 6
    | _ => false)

/-- Whether reference r is eligible (R525). -/
def eligible (s : State) (r : Nat) : Bool :=
  bitOf (rdF s fTIME_REFCTL_EN) (r - 1) && bitOf (rdF s fTIME_REFCTL_QUAL) (r - 1) && !refOff s r

/-- The eligible references noted: since when each has been eligible without a break, and ELIG (R526, R539). -/
def noteRefs (s : State) : State :=
  let s := [1, 2, 3, 4, 5].foldl (fun s r =>
    let x := tget (fun _ => none) s.time.eligAt r
    let y := if eligible s r then some (x.getD s.sys.ticks) else none
    { s with time := { s.time with eligAt := tset (fun _ => none) s.time.eligAt r y } }) s
  wrF s fTIME_TSTAT_ELIG (([1, 2, 3, 4, 5].filter (eligible s)).foldl (fun n r => n + 2 ^ (r - 1)) 0)

/-- The eligible reference of highest priority, 0 for none: the codes stand in the order of R524. -/
def bestRef (s : State) : Nat := ([1, 2, 3, 4, 5].find? (eligible s)).getD 0

/-- A running slew ends and what remains of it is discarded (R522). -/
def endSlew (s : State) : State := wrF { s with time := { s.time with slew := 0 } } fTIME_ADJRES_SLEWING 0

/-- SELREF becomes r: LOCKED clears, a running slew ends, and event 0x4C0_012 records old and new (R522, R526). -/
def selectRef (s : State) (r : Nat) : State :=
  let old := rdF s fTIME_TSTAT_SELREF
  if r = old then s
  else timeState (emit2 (endSlew (wrF (wrF s fTIME_SERVO_LOCKED 0) fTIME_TSTAT_SELREF r)) 0x4c0012 old r)

/-- A selection that waits for no WTR: SELREF has stopped being eligible, or the module is in FREERUN (R526). A failed timing domain
selects nothing (R612). -/
def execRefSelection (s : State) : Out :=
  if !alwaysOn s || !active s 0x13 0 then .next s
  else
    let s := noteRefs s
    let cur := rdF s fTIME_TSTAT_SELREF
    if cur ≠ 0 ∧ eligible s cur then .next s
    else if cur = 0 ∧ rdF s fTIME_TSTAT_STATE = 3 then .next s
    else .next (selectRef s (bestRef s))

/-- Reference r, of higher priority than SELREF, or any in HOLDOVER, has been eligible for WTR seconds (R526). -/
def execWtrExpiry (r : Fin 6) (s : State) : Out :=
  if !alwaysOn s || !active s 0x13 0 then .next s
  else
    let s := noteRefs s
    let cur := rdF s fTIME_TSTAT_SELREF
    match tget (fun _ => none) s.time.eligAt r with
    | some t =>
      if decide ((r : Nat) = 0) || !(cur == 0 || decide ((r : Nat) < cur)) || (cur == 0 && rdF s fTIME_TSTAT_STATE != 3) ||
         s.sys.ticks < t + rdF s fTIME_REFCTL_WTR * 625000000 || bestRef s != r then .next s
      else .next (selectRef s r)
    | none => .next s

/-! ## The counter -/

/-- The slew term of one tick in units of 2^-40 ns: SLEW ppm of 1.6 ns in the sign of what remains, and no more than that (R515,
R522). -/
def slewTerm (s : State) : Int :=
  let m : Int := (rdF s fTIME_SLEW_PPM * 1759218604 / 1000 : Nat)
  if 0 ≤ s.time.slew then min m s.time.slew else max (-m) s.time.slew

/-- The increment of one tick in units of 2^-40 ns (R515). -/
def increment (s : State) : Int := (0x199999999 * 256 + 0x9a : Nat) + s.time.fadj + slewTerm s + s.time.corr

/-- A new FREQ takes effect at a second boundary (R535). -/
def secondBoundary (s : State) : State :=
  [0, 1].foldl (fun s j =>
    let f := if onF s fTIME_FRQCFG_EN 0 (8 * j) && live s then rdF s fTIME_FREQ1_F 0 (8 * j) * 2 ^ 24 + rdF s fTIME_FREQ0_F 0 (8 * j) else 0
    { s with time := { s.time with freqOut := tset (fun _ => 0) s.time.freqOut j f } }) s

/-- One tick of the counter (R515, R516), with what CNDL sums over its second (R545). -/
def countTick (s : State) : State :=
  let f := s.time.frac + (increment s).toNat
  let n := s.time.ns + f / 2 ^ 40
  let s' := { s with
    time := { s.time with frac := f % 2 ^ 40, ns := n % 1000000000, sec := (s.time.sec + n / 1000000000) % 2 ^ 72
                          slew := s.time.slew - slewTerm s, adv := s.time.adv + f / 2 ^ 40 }
    cndl := { s.cndl with fsum := s.cndl.fsum + s.time.fadj + slewTerm s, fn := s.cndl.fn + 1 } }
  if n < 1000000000 then s' else secondBoundary s'

/-- The wake times that a step of the counter has passed set their latches at once (R162). -/
def latchPassed (s : State) : State :=
  (List.range 192).foldl (fun s e =>
    match (eng s e).wake with
    | some (w, n) =>
      if s.time.sec < w ∨ (s.time.sec = w ∧ s.time.ns < n) then s else setEng s e { eng s e with wake := none, timeL := true }
    | none => s) s

/-- The counter set to t units of 2^-40 ns in one tick: generation, events 0x4C0_010 and 0x4C0_011, TVALID, the end of a running slew,
wake times that the step passes, and gates at the new time (R162, R326, R522, R523). -/
def stepTime (s : State) (t : Int) (kind ref : Nat) : State :=
  let u := (t % ((2 ^ 72 * 1000000000 * 2 ^ 40 : Nat) : Int)).toNat
  let old := s.time
  let g := (old.gen + 1) % 2 ^ 24
  let s := { s with time := { s.time with sec := u / 2 ^ 40 / 1000000000, ns := u / 2 ^ 40 % 1000000000, frac := u % 2 ^ 40, gen := g } }
  let s := wrF (wrF (endSlew s) fTIME_TGEN_GEN g) fTIME_TSTAT_TVALID 1
  let s := emit s 0x4c0010 (old.sec / 2 ^ 24) old.sec (old.ns / 2 ^ 24 + 256 * kind)
  gatesStepped (latchPassed (emit s 0x4c0011 old.ns old.gen ref))

/-- LATCH of set k: the counter and the generation copied (R519). -/
def execSnapshotLatch (e : Eng) (k : Fin 8) (v : BitVec 24) (s : State) : Out :=
  onSet s e (fAddr fTIME_LATCH_GO 0 (8 * k)) v fun s =>
    if !bitOf v.toNat 0 then s
    else
      let t := s.time
      let s := wrF (wrF (wrF s fTIME_S2_S (t.sec / 2 ^ 48) 0 (8 * k)) fTIME_S1_S (t.sec / 2 ^ 24) 0 (8 * k)) fTIME_S0_S t.sec 0 (8 * k)
      let s := wrF (wrF s fTIME_NH_N (t.ns / 2 ^ 24) 0 (8 * k)) fTIME_NL_N t.ns 0 (8 * k)
      wrF (wrF s fTIME_FRAC_F (t.frac / 2 ^ 22) 0 (8 * k)) fTIME_GEN_G t.gen 0 (8 * k)

/-- FADJ1:FADJ0 as staged (R521). -/
def stagedFadj (s : State) : Int := sext (rdF s fTIME_FADJ1_F * 2 ^ 24 + rdF s fTIME_FADJ0_F) 32

/-- Counter time in units of 2^-40 ns. -/
def timeUnits (s : State) : Int := (nowNs s * 2 ^ 40 + s.time.frac : Nat)

/-- The counter value that an adjustment asks for, in units of 2^-40 ns (R522). -/
def adjTarget (s : State) (set : Bool) : Int :=
  if set then
    (((rdF s fTIME_SETS2_S * 2 ^ 48 + rdF s fTIME_SETS1_S * 2 ^ 24 + rdF s fTIME_SETS0_S) * 1000000000 +
      rdF s fTIME_SETN1_NH * 2 ^ 24 + rdF s fTIME_SETN0_NL) * 2 ^ 40 : Nat)
  else timeUnits s + sext (rdF s fTIME_OFFS1_O * 2 ^ 24 + rdF s fTIME_OFFS0_O) 48 * (2 ^ 40 : Nat)

/-- ADJRES STATE of a refused request, 0 for one that is carried out: 3 conflicting or empty, 1 not accepted under R520, 2 out of range
(R520, R521, R683; the order is assumption log 24). -/
def adjCheck (s : State) (v : Nat) : Nat :=
  let sel := rdF s fTIME_TSTAT_SELREF
  if (bitOf v 1 && bitOf v 2) || bitsOf v 0 3 = 0 then 3
  else if bitsOf v 4 3 ≠ sel then 1
  else if sel = 4 ∧ bitsOf v 1 2 ≠ 0 then 1
  else if rdF s fTIME_TSTAT_STATE = 3 ∧ sel = 0 ∧ bitOf v 0 then 1
  else if bitOf v 0 && 1759218604 < (stagedFadj s).natAbs then 2
  else 0

/-- A request of ADJGO: refused whole, counted and recorded by event 0x4C0_016, or carried out: FADJ first, then the offset or the new
time by a step or a slew (R520 to R523, R683). -/
def adjust (s : State) (v : Nat) : State :=
  let st := adjCheck s v
  let s := if 6 ≤ bitsOf v 4 3 then unassigned s (fAddr fTIME_ADJGO_REF 0 0) (bitsOf v 4 3) else s
  if st ≠ 0 then
    emit (result (count s 0x13 kTimeRefused 0) fTIME_ADJRES_STATE (st + 4 * b2n (s.time.slew != 0))) 0x4c0016 (bitsOf v 4 3)
      (rdF s fTIME_TSTAT_SELREF) (bitsOf v 0 4 + 16 * st)
  else
    let d := adjTarget s (bitOf v 2) - timeUnits s
    let s := if bitOf v 0 then setFadj s (stagedFadj s) else s
    let s :=
      if bitsOf v 1 2 = 0 then s
      else if (bitOf v 2 || bitOf v 3) && 1000 * 2 ^ 40 < d.natAbs then
        stepTime s (timeUnits s + d) (b2n (bitOf v 2)) (bitsOf v 4 3)
      else { s with time := { s.time with slew := d } }
    result s fTIME_ADJRES_STATE (4 * b2n (s.time.slew != 0))

/-- ADJGO with FREQ and neither OFFSET nor SET, or empty (R521, R683). -/
def execAdjFreq (e : Eng) (v : BitVec 24) (s : State) : Out :=
  if bitsOf v.toNat 1 2 != 0 then .next s else onSet s e (fAddr fTIME_ADJGO_REF 0 0) v fun s => adjust s v.toNat

/-- ADJGO with OFFSET (R522). -/
def execAdjOffset (e : Eng) (v : BitVec 24) (s : State) : Out :=
  if bitsOf v.toNat 1 2 != 1 then .next s else onSet s e (fAddr fTIME_ADJGO_REF 0 0) v fun s => adjust s v.toNat

/-- ADJGO with SET (R522); with OFFSET too it is refused (R683). -/
def execAdjSet (e : Eng) (v : BitVec 24) (s : State) : Out :=
  if !bitOf v.toNat 2 then .next s else onSet s e (fAddr fTIME_ADJGO_REF 0 0) v fun s => adjust s v.toNat

/-- A slew that has absorbed its whole offset ends: SLEWING clears (R522). -/
def execSlewEnd (s : State) : Out := if s.time.slew != 0 then .next s else .next (endSlew s)

/-! ## Inputs -/

/-- Whether the timing inputs work: power is on and the module is not in S3 (R538). -/
def inputsOn (s : State) : Bool := clocked s && !inS3 s

/-- An edge of PPS_INi, postmarked less the cable delay (R528). -/
def execPpsInEdge (j : Fin 2) (s : State) : Out :=
  let o := 8 * (j : Nat)
  if !inputsOn s || !onF s fTIME_PPSCFG_EN 0 o then .next s
  else
    let t := nowNs s - rdF s fTIME_PPSCFG_DLY 0 o
    let s := result (result s fTIME_PS_S (t / 1000000000 % 2 ^ 24) 0 o) fTIME_PNH_NH (t % 1000000000 / 2 ^ 24) 0 o
    let s := result (result s fTIME_PNL_NL (t % 1000000000 % 2 ^ 24) 0 o) fTIME_PG_G s.time.gen 0 o
    let s := { s with time := { s.time with ppsAt := tset (fun _ => 0) s.time.ppsAt j s.sys.ticks } }
    .next (noteRefs (wrF s fTIME_PPSST_PPSLOS 0 0 o))

/-- 1.5 s, 937,500,000 ticks, without an edge (R528). -/
def execPpsLoss (j : Fin 2) (s : State) : Out :=
  let o := 8 * (j : Nat)
  if !inputsOn s || onF s fTIME_PPSST_PPSLOS 0 o || s.sys.ticks < tget (fun _ => 0) s.time.ppsAt j + 937500000 then .next s
  else .next (noteRefs (emit0 (wrF s fTIME_PPSST_PPSLOS 1 0 o) 0x4c0014))

/-- The characters that ToD input j holds. -/
def todFifo (s : State) (j : Nat) : List (Nat × Bool) := tget (fun _ => []) s.time.tod j

/-- The characters of ToD input j, with TODRX showing the oldest (R529). -/
def setTod (s : State) (j : Nat) (l : List (Nat × Bool)) : State :=
  let s := { s with time := { s.time with tod := tset (fun _ => []) s.time.tod j l } }
  let v := match l with
    | x :: _ => x.1 % 256 + 256 * b2n x.2 + 512
    | [] => 0
  wrW s (fAddr fTIME_TODRX_BYTE 0 (8 * j)) (wd v)

/-- The bit rate of a RATE code (R539). -/
def baud (code : Nat) : Nat := if code = 7 then 921600 else if code = 6 then 460800 else if code = 5 then 230400 else if code = 4 then 115200 else
  if code = 3 then 57600 else if code = 2 then 38400 else if code = 1 then 19200 else 9600

/-- A ToD character of 10 bits at RATE, whose bit time may be 3 % short: into the FIFO of 64, or discarded and counted (R72, R529). -/
def execTodCharReceived (j : Fin 2) (c : BitVec 8) (ferr : Bool) (s : State) : Out :=
  if !inputsOn s || !onF s fTIME_TODCFG_EN 0 (8 * j) || !paced s (paceTod j) (6062500000 / baud (rdF s fTIME_TODCFG_RATE 0 (8 * j))) then .next s
  else if 64 ≤ (todFifo s j).length then .next (count (setPace s (paceTod j)) 0x13 kTimeTod j)
  else .next (setTod (setPace s (paceTod j)) j (todFifo s j ++ [(c.toNat, ferr)]))

/-- TODTAKE (R529). -/
def execTodtake (e : Eng) (j : Fin 2) (v : BitVec 24) (s : State) : Out :=
  onSet s e (fAddr fTIME_TODTAKE_TAKE 0 j) v fun s => if bitOf v.toNat 0 then setTod s j (todFifo s j).tail else s

/-- EGTAKE: the oldest record of port EGSEL removed (R531). -/
def execEgtake (e : Eng) (v : BitVec 24) (s : State) : Out :=
  onSet s e (fAddr fTIME_EGTAKE_TAKE 0 0) v fun s =>
    let p := rdF s fTIME_EGSEL_PORT
    if bitOf v.toNat 0 then
      { s with time := { s.time with eg := tset (fun _ => []) s.time.eg p (tget (fun _ => []) s.time.eg p).tail } }
    else s

/-- Every 100 ms, 62,500,000 ticks, the recovered frequency, while REF 4 is enabled (R532). -/
def execSynceFreqMeasure (v : BitVec 24) (s : State) : Out :=
  if inputsOn s && bitOf (rdF s fTIME_REFCTL_EN) 3 && paced s paceSyncE 62500000 then .next (result (setPace s paceSyncE) fTIME_SEFREQ_F v.toNat)
  else .next s

/-! ## Outputs -/

/-- Counter time in ns, moved by output j's ADV (R533). -/
def outNs (s : State) (j : Nat) : Nat := nowNs s + rdF s fTIME_PPOADV_ADV 0 (8 * j)

/-- PPS_OUTj takes the level of this instant: high from ADV before a second boundary for WIDTH (R533), low in a halt and in S3
(R538). -/
def execPpsOutPulse (j : Fin 2) (s : State) : Out :=
  let o := 8 * (j : Nat)
  let high := live s && onF s fTIME_PPOCFG_EN 0 o && decide (outNs s j % 1000000000 < rdF s fTIME_PPOCFG_WIDTH 0 o * 1000)
  .next { s with time := { s.time with ppsOut := tset (fun _ => false) s.time.ppsOut j high } }

/-- CRC-16 of R534, one byte in. -/
def crc16Byte (c : Nat) (b : Byte) : Nat :=
  (List.range 8).foldl (fun c k =>
    let top := decide (c / 2 ^ 15 % 2 ≠ b.toNat / 2 ^ (7 - k) % 2)
    if top then (c * 2 % 2 ^ 16) ^^^ 0x1021 else c * 2 % 2 ^ 16) c

/-- CRC-16 of R534: preset 0xFFFF. -/
def crc16 (bs : List Byte) : Nat := bs.foldl crc16Byte 0xffff

/-- The ToD message for the edge of second t (R534). -/
def todMessage (s : State) (t : Nat) : List Byte :=
  let flags := b2n (onF s fTIME_UTCOFF_LEAP59) + 2 * b2n (onF s fTIME_UTCOFF_LEAP61) + 4 * b2n (onF s fTIME_UTCOFF_VALID) +
    8 * b2n (onF s fTIME_TSTAT_TVALID)
  let st := rdF s fTIME_TSTAT_STATE + 4 * rdF s fTIME_TSTAT_NOCANDLE + 8 * rdF s fTIME_TSTAT_SELREF
  let body := [by8 1, by8 16] ++ toBytes 6 t ++ toBytes 2 (rdF s fTIME_UTCOFF_OFF) ++ [by8 flags, by8 st] ++ toBytes 3 s.time.gen ++ [by8 0]
  [by8 0x54, by8 0x47] ++ body ++ toBytes 2 (crc16 body)

/-- Once per second, 10 ms to 20 ms after the named edge, the ToD message leaves (R534). -/
def execTodOutMessage (j : Fin 2) (s : State) : Out :=
  let o := 8 * (j : Nat)
  let x := outNs s j % 1000000000
  if !live s || !onF s fTIME_TODOCFG_EN 0 o || !onF s fTIME_TODOCFG_MSGEN 0 o || x < 10000000 || 20000000 < x then .next s
  else .next { s with time := { s.time with todOut := tset (fun _ => []) s.time.todOut j (todMessage s (outNs s j / 1000000000)) } }

/-- Whether an output, enabled or not, is in high impedance: until a program enables it, and where no power is on (R25, R95, R533 to R535). -/
def outOff (s : State) (en : Bool) : Bool := !alwaysOn s || !en

/-- PPS_OUTj at J1: none for high impedance, low through a halt, held through S3 (R25, R533, R538, R579). -/
def ppsPin (s : State) (j : Nat) : Option Bool :=
  match tapPin s (26 + j), s.pwr.hold with
  | some x, _ => x
  | none, some h => tget (fun _ => none) h.pps j
  | none, none => if outOff s (onF s fTIME_PPOCFG_EN 0 (8 * j)) then none else some (live s && tget (fun _ => false) s.time.ppsOut j)

/-- FREQ_OUTj at J1 in Hz while no pad is held and the test port does not hold it: none for high impedance, 0 for low, as through a halt (R25,
R535, R538). -/
def freqPin (s : State) (j : Nat) : Option Nat :=
  if outOff s (onF s fTIME_FRQCFG_EN 0 (8 * j)) then none else some (if live s then tget (fun _ => 0) s.time.freqOut j else 0)

/-- TOD_OUTj at J1 while no pad is held and the test port does not hold it: none for high impedance; else its bit rate and the message it sends
or has sent last, none where it idles high, as through a halt and with MSGEN 0 (R25, R534, R538). -/
def todPin (s : State) (j : Nat) : Option (Nat × List Byte) :=
  if outOff s (onF s fTIME_TODOCFG_EN 0 (8 * j)) then none
  else some (baud (rdF s fTIME_TODOCFG_RATE 0 (8 * j)),
    if live s && onF s fTIME_TODOCFG_MSGEN 0 (8 * j) then tget (fun _ => []) s.time.todOut j else [])

/-! ## The clock source -/

/-- TIME moves between the candle and the crystal: NOCANDLE, CLKSRC and event 0x4C0_013 (R517). -/
def clockTo (s : State) (candle : Bool) : State :=
  emit0 (wrF (wrF s fTIME_TSTAT_NOCANDLE (b2n !candle)) fTIME_TSTAT_CLKSRC (b2n !candle)) 0x4c0013

end Sys2Proof.Machine
end

