-- ==== Sys2Proof/Machine/Cndl.lean ====
section
/-! DEFINITION. The candle, its oven, and the holdover model (R541 to R555). -/
namespace Sys2Proof.Machine

/-- CSTAT's LCLASS shows the class at entry in HOLDOVER and the class now otherwise (R555). -/
def showClass (s : State) : State := if onF s fCNDL_CSTAT_HOLD then s else wrF s fCNDL_CSTAT_LCLASS (learnClass s)

/-- The candle oscillates in range: OSC sets and TIME moves to it; after a failure that is a restart, which costs learning (R541,
R554). -/
def execCandleOscReady (s : State) : Out :=
  if !alwaysOn s || onF s fCNDL_CSTAT_OSC || (s.cndl.failed && !s.cndl.trying) then .next s
  else
    let s := if s.cndl.failed then
        emit0 (setLearn (count s 0x14 kCndlRestart 0) (min s.cndl.learn (24 * 3600))) 0x500015
      else s
    .next (clockTo (wrF { s with cndl := { s.cndl with failed := false, trying := false } } fCNDL_CSTAT_OSC 1) true)

/-- OVENOK sets, 60 s, 37,500,000,000 ticks, after power-on or after it was lost at the earliest (R542). -/
def execOvenOkSet (s : State) : Out :=
  if !alwaysOn s || onF s fCNDL_CSTAT_OVENOK || !paced s paceOven 37500000000 || s.sys.ticks < s.cndl.onAt + 37500000000 then .next s
  else .next (emit0 (wrF s fCNDL_CSTAT_OVENOK 1) 0x500012)

/-- OVENOK clears: a class N fault while OSC is set, and a running holdover loses its bound (R542, R551). -/
def execOvenOkClear (s : State) : Out :=
  if !alwaysOn s || !onF s fCNDL_CSTAT_OVENOK then .next s
  else
    let s := emit0 (wrF (setPace s paceOven) fCNDL_CSTAT_OVENOK 0) 0x500013
    let s := { s with cndl := { s.cndl with unbound := s.cndl.unbound || onF s fCNDL_CSTAT_HOLD } }
    .next (if onF s fCNDL_CSTAT_OSC then raiseFault s 0x500013 38 else s)

/-- The comparison of a second, the candle's frequency against the crystal's in units of 10^-12: a change of more than 10 ppb is a jump
(R543). -/
def execCandleCompare (d : BitVec 32) (s : State) : Out :=
  if !alwaysOn s || !s.sys.crystal || !onF s fCNDL_CSTAT_OSC || !paced s paceCompare 625000000 then .next s
  else
    let s := setPace s paceCompare
    let jump := s.cndl.cmp.any fun (x : Int) => decide (10000 < (d.toInt - x).natAbs)
    let s := { s with cndl := { s.cndl with cmp := some d.toInt } }
    if jump then
      .next (emit0 (setLearn (wrF (count s 0x14 kCndlJump 0) fCNDL_CSTAT_JUMP 1) (min s.cndl.learn (24 * 3600))) 0x500017)
    else .next s

/-- A model coefficient. -/
def coef (s : State) (f : Fld) : Int := sext (rdF s f) 24

/-- y in units of 2^-24 FADJ unit (R544), h the heater power and e the oven error. -/
def modelY (s : State) (h : Nat) (e : Int) : Int :=
  let tau : Int := ((s.sys.ticks - s.cndl.onAt) / 625000000 : Nat)
  let dh : Int := (h : Int) - rdF s fCNDL_H0_P
  coef s fCNDL_KA_K * 16384 * tau / 3600 + coef s fCNDL_KH_K * 4096 * dh + coef s fCNDL_KH2_K * dh * dh + coef s fCNDL_KE_K * 4096 * e

/-- The integer square root of a number below 2^128. -/
def isqrt (n : Nat) : Nat := (List.range 64).reverse.foldl (fun r k => if (r + 2 ^ k) * (r + 2 ^ k) ≤ n then r + 2 ^ k else r) 0

/-- RESID from the differences FMEAN - y: their rms about their mean, in units of 10^-14 (R545). One FADJ unit is 2^-40 / 1.6, so a
difference of d units of 2^-24 of it is d * 10^14 / (1.6 * 2^64). -/
def residOf (l : List Int) : Nat :=
  let n : Int := l.length
  let k := l.sum / n
  let var := ((l.map fun d => (d - k) * (d - k)).sum / n).toNat
  min 0xffffff (isqrt var * 62500000000000 / 2 ^ 64)

/-- A second in LOCKED: FMEAN, and with OVENOK the residue and a second of learning, which a halt stops (R545, R553). -/
def learnSecond (s : State) : State :=
  let f := if s.cndl.fn = 0 then s.time.fadj + slewTerm s else s.cndl.fsum / s.cndl.fn
  let s := result (result s fCNDL_FMEAN1_F (unsext f 32 / 2 ^ 24)) fCNDL_FMEAN0_F (unsext f 32 % 2 ^ 24)
  let s := { s with cndl := { s.cndl with fmeans := (f :: s.cndl.fmeans).take 3600 } }
  if !onF s fCNDL_CSTAT_OVENOK then s
  else
    let l := ((f * 16777216 - s.cndl.y) :: s.cndl.dev).take 86400
    let s := result { s with cndl := { s.cndl with dev := l } } fCNDL_RESID_R (residOf l)
    if s.sys.halted then s else setLearn s (s.cndl.learn + 1)

/-- A second in holdover: the correction -(y - y0) clamped to 88,000 units, HELAPS and the count (R547, R555). -/
def holdSecond (s : State) : State :=
  let d := -((s.cndl.y - s.cndl.y0) / 16777216)
  let clamp := decide (88000 < d.natAbs)
  let c : Int := if clamp then (if d < 0 then -88000 else 88000) else d
  let s := { s with time := { s.time with corr := c } }
  let s := count (wrF s fCNDL_HELAPS_S (min 0xffffff (rdF s fCNDL_HELAPS_S + 1))) 0x14 kCndlSeconds (rdF s fCNDL_CSTAT_LCLASS)
  if clamp then emit0 (wrF (count s 0x14 kCndlClamp 0) fCNDL_CSTAT_CLAMP 1) 0x500016 else s

/-- HBOUND's result of a second (R551, R552); a figure beyond 24 bits is a free value (assumption log 23). -/
def boundSecond (s : State) : State :=
  if onF s fCNDL_CSTAT_HOLD && s.cndl.unbound then result s fCNDL_HBOUND_NS 0xffffff
  else
    let b := if onF s fCNDL_CSTAT_HOLD then holdBound (rdF s fCNDL_CSTAT_LCLASS) (rdF s fCNDL_HELAPS_S) else holdBound (learnClass s) 28800
    if b < 2 ^ 24 then result s fCNDL_HBOUND_NS b else result (takeFree s).2 fCNDL_HBOUND_NS (takeFree s).1

/-- A second of CNDL: heater power and oven error, y, learning or correction, and HBOUND (R544, R545, R547, R552). -/
def execModelEval (h err : BitVec 24) (fast : Bool) (s : State) : Out :=
  if !alwaysOn s || !paced s paceModel 625000000 then .next s
  else
    let s := result (result (setPace s paceModel) fCNDL_HPWR_P h.toNat) fCNDL_OERR_E err.toNat
    let s := { s with cndl := { s.cndl with y := modelY s h.toNat err.toInt, unbound := s.cndl.unbound || (fast && onF s fCNDL_CSTAT_HOLD) } }
    let s := if onF s fCNDL_CSTAT_HOLD then holdSecond s else if rdF s fTIME_TSTAT_STATE = 2 then learnSecond s else s
    let s := { s with cndl := { s.cndl with fsum := 0, fn := 0 } }
    .next (boundSecond (showClass s))

/-- LSEED: LEARNH becomes the lower of it and 24 (R553). -/
def execLseedWrite (e : Eng) (v : BitVec 24) (s : State) : Out :=
  onSet s e (fAddr fCNDL_LSEED_H 0 0) v fun s => showClass (setLearn s (min (bitsOf v.toNat 0 5) 24 * 3600))

/-- The candle stops: OSC and OVENOK clear, TIME moves to the crystal, a holdover ends, and a class N fault is raised (R554). -/
def execCandleStop (s : State) : Out :=
  if !alwaysOn s || !onF s fCNDL_CSTAT_OSC then .next s
  else
    let s := wrF (wrF (setPace s paceOven) fCNDL_CSTAT_OSC 0) fCNDL_CSTAT_OVENOK 0
    let s := { s with cndl := { s.cndl with failed := true, trying := false, tryAt := s.sys.ticks, cmp := none } }
    .next (raiseFault (emit0 (timeState (clockTo s false)) 0x500014) 0x500014 38)

/-- Every 60 s, 37,500,000,000 ticks, a failed candle is tried again (R554). -/
def execCandleRestartAttempt (s : State) : Out :=
  if !alwaysOn s || !s.cndl.failed || s.sys.ticks < s.cndl.tryAt + 37500000000 then .next s
  else .next { s with cndl := { s.cndl with trying := true, tryAt := s.sys.ticks } }

/-- A read of CSTAT answers and clears CLAMP and JUMP (R11, R555). -/
def execCstatRead (e : Eng) (s : State) : Out :=
  let a := fAddr fCNDL_CSTAT_OSC 0 0
  if !getReady s e a then .next s
  else
    let s := showClass s
    .next (wrF (wrF (answer s e (some (rdW s a))) fCNDL_CSTAT_CLAMP 0) fCNDL_CSTAT_JUMP 0)

end Sys2Proof.Machine
end

