-- ==== Sys2Proof/Machine/Hst.lean ====
section
/-! DEFINITION. The host interface: result slots, chains and letters, DMA, host postboxes, interrupts and the link
(R180, R183 to R208). -/
namespace Sys2Proof.Machine

/-! ## The endpoint -/

/-- The device ID (R184). -/
def deviceId : Nat := 0x3204

/-- The class code: other network controller (R184). -/
def classCode : Nat := 0x028000

/-- The revision ID is the revision field of HST.UID (R184), whose low 8 bits the register holds. -/
def revisionId : Nat := Config.unitRev 3 % 256

/-- The words of the function's configuration space that hold the identifiers, by byte offset: vendor ID and device ID, revision ID and class code
(R184). -/
def configId (off : Nat) : Nat :=
  if off = 0 then Config.vendorId.toNat + deviceId * 2 ^ 16 else if off = 8 then revisionId + classCode * 2 ^ 8 else 0

/-- The bits of a size code of the configuration registers: 128, 256 or 512 bytes (R183). -/
def pcieBytes (c : Fin 3) : Nat := 128 * 2 ^ c.val

/-- Whether requests of the host reach the module and the module may issue requests: the link is up and the function is in D0 (R183, R201; D3hot
as PCIe Base 5.0 has it, assumption log 77, PRESUMED). -/
def hostUp (s : State) : Bool := s.hst.rate != 0 && !s.hst.cfg.d3hot

/-- A bit of the AER uncorrectable error status set: 12 poisoned TLP received, 14 completion timeout (R183; the bits as PCIe Base 5.0 has them,
assumption log 77, PRESUMED). -/
def noteAer (s : State) (b : Nat) : State := { s with hst := { s.hst with aer := s.hst.aer ||| 2 ^ b } }

/-! ## Chains -/

/-- A chain at reset (R192, R204). -/
def chainReset : Chain :=
  { st := 0, start := 0, cur := 0, letters := 0, letter := none, done := 0, retry := false, inStore := false,
    drainAt := 0 }

/-- Chain n. -/
def chain (s : State) (n : Nat) : Chain := tget (fun _ => chainReset) s.hst.chains n

/-- Chain n replaced. -/
def setChain (s : State) (n : Nat) (c : Chain) : State :=
  { s with hst := { s.hst with chains := tset (fun _ => chainReset) s.hst.chains n c } }

/-- Word k of a letter (R188). -/
def lw (l : List Nat) (k : Nat) : Nat := l.getD k 0

/-- LAST (R188). -/
def lLast (l : List Nat) : Bool := bitOf (lw l 0) 0

/-- KIND (R188). -/
def lKind (l : List Nat) : Nat := bitsOf (lw l 0) 4 4

/-- LEN (R188). -/
def lLen (l : List Nat) : Nat := bitsOf (lw l 1) 0 25

/-- SWAP (R188). -/
def lSwap (l : List Nat) : Nat := bitsOf (lw l 1) 25 2

/-- NEXT (R188). -/
def lNext (l : List Nat) : Nat := lw l 2 * 2 ^ 32 + lw l 3

/-- HADDR (R188). -/
def lHaddr (l : List Nat) : Nat := lw l 4 * 2 ^ 32 + lw l 5

/-- The far address (R188). -/
def lFar (l : List Nat) : Nat := bitsOf (lw l 6) 0 24 * 2 ^ 24 + bitsOf (lw l 7) 0 24

/-- OWN (R188). -/
def lOwn (l : List Nat) : Bool := bitOf (lw l 15) 31

/-- Whether the letter's reserved bits are zero, those of fields its kind does not use included; NEXT is ignored while LAST is set
(R188, R195; assumption log 61). -/
def lReserved (l : List Nat) : Bool :=
  let k := lKind l
  bitsOf (lw l 0) 2 2 == 0 && bitsOf (lw l 0) 8 8 == 0 && bitsOf (lw l 1) 27 5 == 0 &&
  bitsOf (lw l 11) 25 7 == 0 && bitsOf (lw l 12) 24 8 == 0 && bitsOf (lw l 13) 30 2 == 0 && bitsOf (lw l 14) 24 8 == 0 &&
  bitsOf (lw l 15) 8 22 == 0 &&
  (lLast l || bitsOf (lw l 3) 0 6 == 0) &&
  (if k = 2 ∨ k = 3 then bitsOf (lw l 6) 24 8 == 0 && bitsOf (lw l 7) 24 8 == 0 && lw l 8 == 0 && lw l 9 == 0 && lw l 10 == 0
   else lw l 1 == 0 && lw l 5 == 0 && lw l 6 == 0 && lw l 7 == 0) &&
  (if k = 1 then bitsOf (lw l 4) 8 24 == 0 && bitsOf (lw l 8) 24 8 == 0 && bitsOf (lw l 9) 24 8 == 0 && bitsOf (lw l 10) 24 8 == 0
   else k == 2 || k == 3 || (lw l 4 == 0 && lw l 8 == 0 && lw l 9 == 0 && lw l 10 == 0))

/-- Whether a bus address falls in BAR2, the letter store of 16,384 places of 64 bytes (R183, R187, "Chains and collectors"). -/
def inBar2 (s : State) (a : Nat) : Bool :=
  let b := s.hst.cfg.bar2.toNat
  b != 0 && b ≤ a && a < b + 2 ^ 20

/-- A 32-bit word of a letter written at a bus address: to its place in the letter store, or to host memory (R187, R189). -/
def busW (s : State) (inStore : Bool) (a v : Nat) : State :=
  if inStore then { s with hst := { s.hst with store := tset (fun _ => 0) s.hst.store ((a - s.hst.cfg.bar2.toNat) / 4) v } }
  else { s with hst := { s.hst with bus := tset (fun _ => 0) s.hst.bus (a / 4) v } }

/-- What a collector's read of the letter at address a finds, and the state with what the host had written there before: a place of the letter
store holds what host and module have written to it, and host memory is the host's (R187, R191). -/
def readLetterAt (s : State) (a : Nat) (w : List (BitVec 32)) : State × List Nat :=
  let ws := w.map fun x => x.toNat
  if inBar2 s a then
    let s := (ws.zipIdx).foldl (fun s x => busW s true (a + 4 * x.2) x.1) s
    (s, (List.range 16).map fun k => tget (fun _ => 0) s.hst.store ((a - s.hst.cfg.bar2.toNat) / 4 + k))
  else (s, ws)

/-- Words 11 to 14 and then word 15 of a completed letter (R188, R189). -/
def writeStatus (s : State) (inStore : Bool) (a done code : Nat) : State :=
  let s := busW s inStore (a + 44) done
  let s := busW s inStore (a + 48) (s.time.sec % 2 ^ 24)
  let s := busW s inStore (a + 52) s.time.ns
  let s := busW s inStore (a + 56) s.time.gen
  busW s inStore (a + 60) (code + (if code = 0 then 0 else 2 ^ 30))

/-- Chain n's letter ends with a code: its status is written, the counts advance, and the chain goes on to NEXT, parks,
or fails with event 0x0C0_020 and its vector signalled (R189, R191, R194, R199). A letter that was never read has no status written and is not
counted (assumption log 61). A chain that drains reads IDLE once its letter has completed. -/
def endLetter (s : State) (n code : Nat) (status : Bool := true) : State :=
  let c := chain s n
  let l := c.letter.getD []
  let s := if status && c.letter.isSome then writeStatus s c.inStore c.cur c.done code else s
  let s := wrF s fHST_CHSTAT_LASTCODE code 0 (2 * n)
  let c' := { c with letters := if c.letter.isSome then (c.letters + 1) % 2 ^ 32 else c.letters, retry := false }
  if code ≠ 0 then
    let s := setChain s n { c' with st := 4 }
    signal (emit s 0x0c0020 n code c.done) n
  else
    let s := if c.st = 5 then setChain s n { c' with st := 0, letter := none, done := 0 }
      else if lLast l then setChain s n { c' with st := 2, done := 0 }
      else setChain s n { c' with st := 1, cur := lNext l, letter := none, done := 0 }
    if bitOf (lw l 0) 1 then signal s n else s

/-- Whether host writes to chain and postbox registers act: after the handover or in recovery, and not in a halt (R205,
R680). -/
def hostOpen (s : State) : Bool := !s.sys.halted && (s.sys.runState || s.sys.phase == .recovery)

/-- Counter kind of HST: writes discarded (R186). -/
def kHstDiscarded : Nat := 0

/-- A host write that is discarded and counted (R186). -/
def discardWrite (s : State) : State := count s 3 kHstDiscarded 0

/-- A host write to a chain or postbox register: it never reaches the module while the link is down (R201), and is discarded and counted before the
handover and in a halt (R205, R680). -/
def onHost (s : State) (f : State → State) : Out :=
  if !hostUp s then .next s else if !hostOpen s then .next (discardWrite s) else .next (f s)

/-- Whether chain n may start: HST is ACTIVE, the chain is enabled and the host domain has not failed (R181, R182, R193, R612). -/
def chainOn (s : State) (n : Nat) : Bool :=
  active s 3 0 && onF s fHST_CHCTL_EN 0 (2 * n) &&
  !(dom s 40).failed

/-- CHAIN_START (R193): a write at any other moment is discarded, with event 0x0C0_010. -/
def execChainStart (n : ChainI) (h l : BitVec 32) (s : State) : Out :=
  onHost s fun s =>
    let c := chain s n
    if (c.st = 0 ∨ c.st = 4) ∧ chainOn s n ∧ l.toNat % 64 = 0 then
      setChain s n { c with st := 1, start := h.toNat, cur := h.toNat * 2 ^ 32 + l.toNat, letter := none, done := 0 }
    else emit2 (setChain s n { c with start := h.toNat }) 0x0c0010 n c.st

/-- Chain n takes the letter it has read: executed if OWN is set, else the chain stalls; an unassigned KIND or DEST, a kind
the chain does not allow and a reserved field not zero end it (R191, R194, R199). -/
def takeLetter (s : State) (n : Nat) (l : List Nat) (inStore : Bool) : State :=
  let c := chain s n
  if !lOwn l then setChain s n { c with st := 3, letter := none, inStore := inStore }
  else
    let s := setChain s n { c with st := 1, letter := some l, done := 0, inStore := inStore, retry := false }
    if 3 < lKind l ∨ (lKind l = 1 ∧ 0xbf < bitsOf (lw l 4) 0 8) then endLetter s n 6
    else if !bitOf (rdF s fHST_CHCTL_KINDS 0 (2 * n)) (lKind l) then endLetter s n 7
    else if !lReserved l then endLetter s n 4
    else s

/-- A completion error of a read of host memory noted in AER: a poisoned completion (R183, R199). -/
def noteErr (s : State) (err : Fin 4) : State := if err.val = 3 then noteAer s 12 else s

/-- How a read ended, as LetterRead has it, from the completion's status and whether it is poisoned (R199). -/
def readErr (cpl : Fin 3) (poison : Bool) : Fin 4 :=
  match cpl with
  | 0 => if poison then 3 else 0
  | 1 => 1
  | 2 => 2

/-- LETTER_FETCHED (R191). A read of host memory that ends in an error ends the letter with HOSTERR (R199). -/
def execLetterFetched (n : ChainI) (w : List (BitVec 32)) (cpl : Fin 3) (poison : Bool) (s : State) : Out :=
  let err := readErr cpl poison
  let c := chain s n
  if s.sys.halted ∨ !hostUp s ∨ c.st ≠ 1 ∨ c.letter.isSome then .next s
  else if err.val ≠ 0 ∧ !inBar2 s c.cur then .next (endLetter (noteErr s err) n 1)
  else
    let r := readLetterAt s c.cur w
    .next (takeLetter r.1 n r.2 (inBar2 s c.cur))

/-- A re-read of the letter that a chain is parked or stalled on fails with a code: the chain goes to FAILED, and that letter, which is no letter of
the module's now, has no status written and is not counted (R189, R199; assumption log 75, DEDUCED). -/
def failRead (s : State) (n code : Nat) : State :=
  let s := wrF s fHST_CHSTAT_LASTCODE code 0 (2 * n)
  signal (emit (setChain s n { chain s n with st := 4 }) 0x0c0020 n code 0) n

/-- A re-read of the letter a chain is parked or stalled on: LAST clear sends a parked chain on to NEXT, OWN set lets a
stalled chain execute the letter (R194); one that ends in an error fails the chain (R199). -/
def reread (s : State) (n : Nat) (w : List (BitVec 32)) (err : Fin 4) : State :=
  let c := chain s n
  let store := inBar2 s c.cur
  if s.sys.halted ∨ !hostUp s ∨ (c.st ≠ 2 ∧ c.st ≠ 3) then s
  else if err.val ≠ 0 ∧ !store then failRead (noteErr s err) n 1
  else
    let r := readLetterAt s c.cur w
    if c.st = 2 then
      (if lLast r.2 then r.1 else setChain r.1 n { c with st := 1, cur := lNext r.2, letter := none, done := 0 })
    else if lOwn r.2 then takeLetter r.1 n r.2 store
    else r.1

/-- PARKED_REREAD (R194). -/
def execParkedReread (n : ChainI) (r : LetterRead) (s : State) : Out := .next (reread s n r.w r.err)

/-- DOORBELL_RING (R192, R194). -/
def execDoorbellRing (n : ChainI) (r : LetterRead) (s : State) : Out := onHost s fun s => reread s n r.w r.err

/-- CHAIN_RESUME: as after any completed letter (R200); refused in a failed host domain (R612). A chain whose letter was never read, so that its LAST
is not known, parks on that letter's address (assumption log 75, DESIGN CHOICE). -/
def execChainResume (n : ChainI) (s : State) : Out :=
  onHost s fun s =>
    let c := chain s n
    if c.st ≠ 4 ∨ !chainOn s n then s
    else match c.letter with
      | some l =>
        if lLast l then setChain s n { c with st := 2, done := 0 }
        else setChain s n { c with st := 1, cur := lNext l, letter := none, done := 0 }
      | none => setChain s n { c with st := 2, done := 0 }

/-- Chain n stops: a letter in execution is completed or failed first, everything else is left untouched (R181, R204). -/
def stopChain (s : State) (n : Nat) : State :=
  let c := chain s n
  if c.st = 1 ∧ c.letter.isSome then setChain s n { c with st := 5, drainAt := s.sys.ticks }
  else if c.st = 1 ∨ c.st = 2 ∨ c.st = 3 then setChain s n { c with st := 0, letter := none }
  else s

/-- CHAIN_DISABLE: EN of an enabled chain cleared (R204). -/
def execChainDisable (e : Eng) (n : ChainI) (v : Word) (s : State) : Out :=
  if bitOf v.toNat 0 ∨ !onF s fHST_CHCTL_EN 0 (2 * n) then .next s
  else onSet s e (fAddr fHST_CHCTL_EN 0 (2 * n)) v fun s =>
    stopChain (wrW s (fAddr fHST_CHCTL_EN 0 (2 * n)) (wd (bitsOf v.toNat 0 12))) n

/-- Whether the window has something at a byte offset (R186, R192, R202). -/
def windowListed (o : Nat) : Bool :=
  o < 4 || (0x1000 ≤ o && o < 0x1800 && o % 0x100 < 0x20) || (0x2000 ≤ o && o < 0x2800 && o % 0x100 < 0x18) ||
    (0x4000 ≤ o && o < 0x8040) || (0x9000 ≤ o && o < 0x9020) || (0x10000 ≤ o && o < 0x10200) || (0x10800 ≤ o && o < 0x10808)

/-- Whether a byte offset of the window is a chain or host postbox register that the host writes (R192, R202). -/
def windowCommand (o : Nat) : Bool :=
  (0x1000 ≤ o && o < 0x1800 && o % 0x100 < 0x10) || (0x2000 ≤ o && o < 0x2800 && 0x14 ≤ o % 0x100 && o % 0x100 < 0x18)

/-- A write to BAR0 that no other command takes: to an offset that the window does not list, or to a chain or postbox register while such writes are
not taken, it is discarded and counted (R186, R205, R680); to a listed offset that the host can only read it has no effect (assumption log 61, DESIGN
CHOICE). A write to a register that is taken is a command of its own. -/
def execBar0WriteDiscarded (off : BitVec 20) (s : State) : Out :=
  if hostUp s && (!windowListed off.toNat || (windowCommand off.toNat && !hostOpen s)) then .next (discardWrite s) else .next s

/-- HOST_POSTBOX_TAKE: ignored when empty; messages left over signal the vector again (R202, R203). -/
def execHostPostboxTake (n : ChainI) (s : State) : Out :=
  onHost s fun s => match takeFirst (fun p => p.ready) (boxOf s (0xf0 + n)) with
    | some (_, l) =>
      let s' := setBox s (0xf0 + n) l
      if 0 < ready s' (0xf0 + n) then signal s' (8 + n) else s'
    | none => s

/-- Whether chain n executes a letter of a kind now. -/
def executing (s : State) (n k : Nat) : Bool :=
  !s.sys.halted && hostUp s && ((chain s n).st == 1 || (chain s n).st == 5) &&
  (match (chain s n).letter with
    | some l => lKind l == k
    | none => false)

/-- NOP_LETTER (R188). -/
def execNopLetter (n : ChainI) (s : State) : Out :=
  if executing s n 0 then .next (endLetter s n 0) else .next s

/-- A MSG letter's message offered to its postbox: done, or to be tried again (R116, R188, R199). -/
def sendMsg (s : State) (n : Nat) : State :=
  let l := (chain s n).letter.getD []
  let m : Msg := ⟨0xf0 + n, bitsOf (lw l 0) 16 16, bitsOf (lw l 8) 0 24, bitsOf (lw l 9) 0 24, bitsOf (lw l 10) 0 24⟩
  let r := post s (bitsOf (lw l 4) 0 8) m
  if r.2 then endLetter r.1 n 0
  else
    let x := setPace (if (chain r.1 n).retry then r.1 else setPace r.1 (paceFull n)) (paceRetry n)
    setChain x n { chain x n with retry := true }

/-- MSG_LETTER (R188). -/
def execMsgLetter (n : ChainI) (s : State) : Out :=
  if executing s n 1 && !(chain s n).retry then .next (sendMsg s n) else .next s

/-- MSG_LETTER_RETRY: once per watch interval, (WATCH + 1) × 0.5 µs (R199, R204). -/
def execMsgLetterRetry (n : ChainI) (s : State) : Out :=
  if executing s n 1 && (chain s n).retry && paced s (paceRetry n) (625 * (rdF s fHST_CHCTL_WATCH 0 (2 * n) + 1) / 2) then .next (sendMsg s n) else .next s

/-- MSG_FULL_TIMEOUT: 1 ms, 625,000 ticks, of refusals (R199). -/
def execMsgFullTimeout (n : ChainI) (s : State) : Out :=
  if executing s n 1 && (chain s n).retry && paced s (paceFull n) 625000 then .next (endLetter s n 5) else .next s

/-- Whether a READ or WRITE letter meets R197. -/
def dmaFormat (l : List Nat) : Bool :=
  let m := if lSwap l = 3 then 8 else 4
  lLen l % m == 0 && lHaddr l % m == 0 && lFar l % m == 0 && 4 ≤ lLen l && lLen l ≤ 16777216 &&
  lLen l % 2 ^ lSwap l == 0 && lFar l + lLen l ≤ dataSpace

/-- Byte order reversed within each unit of 2^k bytes (R198). -/
def swapBytes (k : Nat) (bs : List Byte) : List Byte :=
  bs.mapIdx fun i _ => byteAt bs (i / 2 ^ k * 2 ^ k + (2 ^ k - 1 - i % 2 ^ k))

/-- The checks of R197 before a letter's first byte moves: the letter ended, or nothing. -/
def dmaCheck (s : State) (n : Nat) (l : List Nat) (wr : Bool) : Option State :=
  if !dmaFormat l then some (endLetter s n 4)
  else match refusedByte s (2 + n) (lFar l) (lLen l) wr with
    | some b => some (endLetter (refuse s (2 + n) b wr) n 3)
    | none => none

/-- The bytes of a READ letter move to DRAM: all of them with code 0, or those in full swap units that came before the transfer failed with a code;
past a failure's DONE the destination is undefined (R197 to R199). A first write to an unwritten granule waits for its fill (R477); the seal of a
partial line that fails, as bad names it, halts the module (R480). -/
def moveRead (s : State) (n : Nat) (bytes : List Byte) (code bad : Nat) : State :=
  let c := chain s n
  let l := c.letter.getD []
  let unit := 2 ^ lSwap l
  match dmaCheck s n l true with
  | some s' => s'
  | none =>
    if !((List.range ((lFar l + lLen l - 1) / 65536 - lFar l / 65536 + 1)).all
      fun k => granuleWritten s (lFar l / 65536 + k)) then s
    else
      let got := bytesAt bytes 0 (if code = 0 then lLen l else min bytes.length (lLen l - 1) / unit * unit)
      let free := takeBytes (lLen l - got.length) s
      let s := writeRange free.2 (2 + n) (lFar l) (swapBytes (lSwap l) (got ++ free.1)) bad
      if s.sys.halted then s else
      let s := setChain s n { c with done := got.length }
      if code = 0 then s else endLetter s n code

/-- READ_LETTER: exactly LEN bytes from the host to DRAM, or a completion error (R197 to R199). -/
def execReadLetter (n : ChainI) (bytes : List Byte) (x : MoveEnd) (s : State) : Out :=
  if !executing s n 2 || (chain s n).done != 0 then .next s
  else .next (moveRead (noteErr s x.err) n bytes (if x.err.val = 0 then 0 else 1) x.bad)

/-- WRITE_LETTER: LEN bytes from DRAM to the host, after their seal checks (R197, R198, R478). -/
def execWriteLetter (n : ChainI) (s : State) : Out :=
  if !executing s n 3 then .next s
  else
    let c := chain s n
    let l := c.letter.getD []
    if c.done ≠ 0 then .next s
    else match dmaCheck s n l false with
      | some s' => .next s'
      | none =>
        let bs := swapBytes (lSwap l) (dramRead s (lFar l) (lLen l))
        let s := countLines s (2 + n) (lFar l) (lLen l) false
        let m := (bs.mapIdx fun k b => (lHaddr l + k, b)).foldl (fun t p => tset (fun _ => 0) t p.1 p.2) s.hst.mem
        .next (setChain { s with hst := { s.hst with mem := m } } n { c with done := lLen l })

/-- DMA_COMPLETE (R189, R198). -/
def execDmaComplete (n : ChainI) (s : State) : Out :=
  let c := chain s n
  if (executing s n 2 || executing s n 3) && c.done != 0 && c.done == lLen (c.letter.getD []) then .next (endLetter s n 0)
  else .next s

/-- COMPLETION_TIMEOUT: a read or re-read of a letter in host memory, or a READ's data, that does not come (R199). -/
def execCompletionTimeout (x : LateRead) (s : State) : Out :=
  let c := chain s x.n
  let host := !inBar2 s c.cur
  if s.sys.halted || !hostUp s then .next s
  else if c.st == 1 && c.letter.isNone && host then .next (endLetter (noteAer s 14) x.n 2)
  else if executing s x.n 2 && c.done == 0 then .next (moveRead (noteAer s 14) x.n x.bytes 2 0)
  else if (c.st == 2 || c.st == 3) && host then .next (failRead (noteAer s 14) x.n 2)
  else .next s

/-- IRQ_HOLDOFF_EXPIRY: IRQHOLD µs, 625 ticks each, have passed since a vector was signalled, and one held back is signalled now (R203). -/
def execIrqHoldoffExpiry (v : Fin 32) (s : State) : Out :=
  let h := s.hst
  if !tget (fun _ => false) h.holdoff v || !paced s (paceIrq v) (625 * rdF s fHST_IRQHOLD_US) then .next s
  else
    let s' := { s with hst := { h with holdoff := tset (fun _ => false) h.holdoff v false, held := tset (fun _ => false) h.held v false } }
    .next (if tget (fun _ => false) h.held v then signal s' v else s')

/-- PCIE_LINK_DOWN: letters in flight fail with code 0x09, the status of a letter in host memory not written, and a class L
fault is raised (R201). A parked or stalled chain has no letter in flight and keeps its state; in a halt the collectors stand (R205; assumption
log 61). MSI-X Enable, masks and pending bits stay as they are (assumption log 76, DESIGN CHOICE). -/
def execPcieLinkDown (s : State) : Out :=
  if s.hst.rate = 0 then .next s
  else
    let s1 := if s.sys.halted then s else (List.range 8).foldl (fun s n =>
      let c := chain s n
      if c.st = 1 ∨ c.st = 5 then endLetter s n 9 c.inStore else s) s
    let s2 := { s1 with hst := { s1.hst with rate := 0, width := 0 } }
    .next (raiseFault (emit0 s2 0x0c0030) 0x0c0030 40)

/-- PCIE_LINK_UP: the endpoint trains to L0, and the host configures the function (R183, R201, R208, R674 step 5); its link timers need the crystal
(R85), and PCIE_REFCLK is there where the command comes. On a link that is up, the host writes the configuration registers again. -/
def execPcieLinkUp (link : PcieLink) (cfg : PcieCfg) (s : State) : Out :=
  if (s.sys.phase == .off || s.sys.phase == .rails || s.sys.phase == .asleep || !s.sys.crystal) ∨
    link.rate.val = 0 ∨ link.width.val = 0 ∨ link.width.val = 3 then .next s
  else .next { s with hst := { s.hst with
    rate := link.rate
    width := link.width
    cfg := cfg
    aer := s.hst.aer - (s.hst.aer &&& cfg.aerClear.toNat) } }

/-- MSIX_UNMASK: the host writes a table entry, MSI-X Enable and Function Mask; an entry whose message waits is sent once neither masks it (R186,
R203, R205). -/
def execMsixUnmask (x : MsixWrite) (f : MsixCtl) (s : State) : Out :=
  if !hostUp s then .next s
  else
    let h := s.hst
    let put := fun (t : Tab Nat) (k n : Nat) => tset (fun _ => 0) t (4 * x.v.val + k) n
    let h1 := { h with
      table := put (put (put h.table 0 (x.addr.toNat % 2 ^ 32)) 1 (x.addr.toNat / 2 ^ 32)) 2 x.data.toNat
      unmasked := tset (fun _ => false) h.unmasked x.v (!x.mask)
      msixOn := f.en
      fmask := f.fm }
    .next ((List.range 32).foldl (fun s k =>
      if !s.hst.fmask && s.hst.msixOn && tget (fun _ => false) s.hst.unmasked k && tget (fun _ => false) s.hst.msixPend k then
        signal { s with hst := { s.hst with msixPend := tset (fun _ => false) s.hst.msixPend k false } } k
      else s) { s with hst := h1 })

/-- LINK_READ: a GET of LINK returns FLR and clears it (R11, R204). -/
def execLinkRead (e : Eng) (s : State) : Out :=
  let a := fAddr fHST_LINK_RATE 0 0
  if !getReady s e a then .next s
  else
    let v := putBits (putBits (rdW s a).toNat 0 3 s.hst.rate) 3 3 s.hst.width
    .next (wrF (answer s e (some (wd v))) fHST_LINK_FLR 0)

/-- The address a slot is mapped to, if it is a result word (R180, R204). -/
def slotAddr (s : State) (n : Nat) : Option Nat :=
  match tget (fun _ => (none : Option Nat)) s.ctl.slots n with
  | some a => if wordExists a && wordResult a then some a else none
  | none => none

/-- RESULT_SLOT_HOST_READ: the layout of R10 with VALID, REREAD and the sequence, and the slot's read mark set (R180); with the link
down no read reaches the module (R201). -/
def execResultSlotHostRead (slot : Fin 4096) (s : State) : Out :=
  if !hostUp s then .next s
  else match slotAddr s slot with
  | some a =>
    if isReady s a then
      let v := 2 ^ 31 + 2 ^ 30 * b2n (tget (fun _ => false) s.ctl.marks slot) +
        2 ^ 24 * tget (fun _ => 0) s.ctl.seq a + (rdW s a).toNat
      let first := a == fAddr fKEY_RAND_R 0 0 && !tget (fun _ => false) s.ctl.marks slot
      let s := { s with key := { s.key with randDue := s.key.randDue || first } }
      .next { s with hst := { s.hst with hostRead := v }, ctl := { s.ctl with marks := tset (fun _ => false) s.ctl.marks slot true } }
    else .next { s with hst := { s.hst with hostRead := 0 } }
  | none => .next { s with hst := { s.hst with hostRead := 0 } }

/-- RESULT_SLOT_MAP: a write to RMADDR maps slot RMSLOT at once; 0 unmaps it (R204). -/
def execResultSlotMap (e : Eng) (v : Word) (s : State) : Out :=
  onSet s e (fAddr fHST_RMADDR_ADDR 0 0) v fun s =>
    let k := rdF s fHST_RMSLOT_SLOT
    let s := wrW s (fAddr fHST_RMADDR_ADDR 0 0) v
    { s with ctl := { s.ctl with
        slots := tset (fun _ => none) s.ctl.slots k (if v = 0 then none else some v.toNat)
        marks := tset (fun _ => false) s.ctl.marks k false } }

end Sys2Proof.Machine
end

