-- ==== Sys2Proof/Machine/Cnt.lean ====
section
/-! DEFINITION. The counter tree's dumps, node access, engine samples and the capture ring (R628 to R642). -/
namespace Sys2Proof.Machine

/-- Counter kinds of CNT: corrections. -/
def kCntCorrected : Nat := 0
/-- Messages refused. -/
def kCntRefused : Nat := 1
/-- Sample records overwritten. -/
def kCntOverwrite : Nat := 8
/-- Capture copies lost. -/
def kCntLost : Nat := 9
/-- Triggers ignored. -/
def kCntIgnored : Nat := 10

/-- CNT's master code (R489). -/
def cntMaster : Nat := 0x0b

/-- CNT dumps, samples and captures: its instance is ACTIVE (R641). -/
def cntRuns (s : State) : Bool := live s && active s 0x19 0

/-- How many objects each kind of a unit has, kind 0 first (R629, the units' chapters; assumption log 20). -/
def kindSizes (u : Nat) : List Nat :=
  if u = 1 then [192, 256, 192, 24]
  else if u = 2 then [4, 4, 4, 4, 1024, 64]
  else if u = 3 then [1]
  else if u = 5 then 96 :: List.replicate 17 4
  else if u = 6 then List.replicate 8 64
  else if u = 7 then List.replicate 5 34
  else if u = 8 then List.replicate 18 32 ++ [256, 256, 32, 256, 256, 32, 32, 32, 32]
  else if u = 9 then List.replicate 17 1
  else if u = 0x0a then List.replicate 7 32 ++ (List.replicate 17 [1024, 4096]).flatten ++ [32] ++ List.replicate 7 1024 ++ [1, 1]
  else if u = 0x0b then [65536, 65536, 65536] ++ List.replicate 12 36
  else if u = 0x0c then List.replicate 9 131072 ++ [36, 36, 131072]
  else if u = 0x0d then List.replicate 17 16384 ++ [256] ++ List.replicate 5 16384
  else if u = 0x0e then [1024, 1024, 1024, 1024, 4096, 512, 4096, 512, 16384]
  else if u = 0x0f then List.replicate 8 32
  else if u = 0x10 then [32, 64, 64, 64, 64, 16]
  else if u = 0x13 then List.replicate 8 32
  else if u = 0x15 then List.replicate 6 18 ++ [8, 8, 32]
  else if u = 0x17 then [10, 32, 4, 2] ++ List.replicate 8 1
  else if u = 0x18 then List.replicate 9 64
  else if u = 0x19 then [1, 256, 65536] ++ List.replicate 5 16384 ++ [1, 1, 1]
  else if u = 0x1b then List.replicate 8 40
  else List.replicate 16 64

/-- How many objects kind k of unit u has; kind 0xFFF counts the work discarded at drain bounds, per instance (R170). -/
def kindObjs (u k : Nat) : Nat := if k = 0xfff then max 1 (instCount u) else (kindSizes u).getD k 1

/-- The kinds that the valid DLIST entries list, in entry order, given the DLIST words (R632). -/
def dumpKinds (dlist : Nat → Nat) : List (Nat × Nat) :=
  ((List.range 64).filter fun i => bitOf (dlist i) 18).map fun i => (bitsOf (dlist i) 0 6, bitsOf (dlist i) 6 12)

/-- Bytes of one dump of the given kinds (R632, R633). -/
def dumpBytes (l : List (Nat × Nat)) : Nat := 64 + 16 * (l.map fun x => kindObjs x.1 x.2 + 1).sum

/-- A DLIST word in effect. -/
def dlistWord (s : State) (i : Nat) : Nat := (rdW s (fAddr fCNT_DLIST_UNIT 0 i)).toNat

/-- The flags of a node. -/
def nodeFlag (s : State) (k : Nat) : Nat := tget (fun _ => 0) s.cnt.flag k

/-- The value of a node. -/
def nodeVal (s : State) (k : Nat) : Nat := tget (fun _ => 0) s.cnt.leaf k

/-- A node's value and flags replaced. -/
def setNode (s : State) (k v f : Nat) : State :=
  { s with cnt := { s.cnt with leaf := tset (fun _ => 0) s.cnt.leaf k v, flag := tset (fun _ => 0) s.cnt.flag k f } }

/-- The nodes of a kind in object order, its aggregate last (R629, R632). -/
def kindNodes (u k : Nat) : List Nat := (List.range (kindObjs u k)).map (fun o => leafKey u k o) ++ [leafKey u k aggObj]

/-- A dump entry of 16 bytes (R633). -/
def dumpEntry (s : State) (k : Nat) : List Byte :=
  toBytes 9 (nodeVal s k) ++ toBytes 1 (nodeFlag s k) ++ toBytes 1 (k / 2 ^ 32) ++ toBytes 2 (k / 2 ^ 20 % 2 ^ 12) ++ toBytes 3 (k % 2 ^ 20)

/-- A postmark as 13 bytes: seconds, nanoseconds, generation (R633, R637, R639). -/
def markBytes (m : Mark) : List Byte := toBytes 6 m.s ++ toBytes 4 m.n ++ toBytes 3 m.g

/-- The life counter (R651, R655). -/
def life (s : State) : Nat := tget (fun _ => 0) s.log.journal 0

/-- A node set to zero with every leaf below it: LOST and REBUILT clear on all of them, FLOOR on the node (R638). -/
def resetNode (s : State) (k : Nat) : State :=
  if k % 2 ^ 20 = aggObj then
    let kind := k / 2 ^ 20
    let s := { s with cnt := { s.cnt with
      leaf := s.cnt.leaf.filter fun x => x.1 / 2 ^ 20 != kind
      flag := s.cnt.flag.filter fun x => x.1 / 2 ^ 20 != kind } }
    s
  else setNode s k 0 (putBits (putBits (putBits (nodeFlag s k) 0 1 0) 1 1 0) 2 1 0)

/-- The maximum leaves start from zero at each switch (R636). -/
def dropMaxima (s : State) : State :=
  { s with cnt := { s.cnt with leaf := s.cnt.leaf.filter fun x =>
      x.1 / 2 ^ 20 != 0x19 * 2 ^ 12 + 5 && x.1 / 2 ^ 20 != 0x19 * 2 ^ 12 + 7 } }

/-- The dump that a switch starts: its entries, and its header but for the LATE bit (R631 to R633). -/
def startDump (s : State) : State :=
  let kinds := dumpKinds (dlistWord s)
  let nodes := (kinds.map fun x => kindNodes x.1 x.2).flatten
  let size := dumpBytes kinds
  let ring := rdF s fCNT_DSIZE_MB * 2 ^ 20
  if ring = 0 then s
  else
    let pos := if ring < s.cnt.dumpPos + size then 0 else s.cnt.dumpPos
    let flagged := b2n (nodes.any fun k => nodeFlag s k != 0)
    let head := [by8 0x54, by8 0x47, by8 0x43, by8 0x44] ++ toBytes 6 s.cnt.dumpSeq ++ markBytes s.cnt.start ++ markBytes (now s) ++
      toBytes 6 (life s) ++ toBytes 4 nodes.length ++ toBytes 1 (2 * flagged) ++ List.replicate 17 0
    let last := nodes.foldl (fun t k => tset (fun _ => 0) t k (nodeVal s k)) s.cnt.last
    let flags := nodes.foldl (fun t k => tset (fun _ => 0) t k (putBits (nodeFlag s k) 2 1 0)) s.cnt.flag
    { s with cnt := { s.cnt with dump := some (pos, head, (nodes.map (dumpEntry s)).flatten), last := last, flag := flags
                                 dumpPos := (pos + size + 255) / 256 * 256 } }

/-- Whether a switch is due: DCOUNT × DUNIT since the last one, in ticks (R632). -/
def switchDue (s : State) : Bool :=
  paced s paceEpoch (rdF s fCNT_DCFG_DCOUNT * (if rdF s fCNT_DCFG_DUNIT = 0 then 6250 else if rdF s fCNT_DCFG_DUNIT = 1 then 625000 else 625000000))

/-- An epoch switch falls due: node resets take effect, a dump of the listed kinds starts and a new epoch begins; while a dump is not yet
written the switch waits, that dump is late, and event 0x640_013 records its sequence (R631, R632, R636, R638). -/
def execEpochSwitch (s : State) : Out :=
  if !cntRuns s || !switchDue s then .next s
  else if s.cnt.dump.isSome then
    if s.cnt.late then .next s else .next (emit1 { s with cnt := { s.cnt with late := true } } 0x640013 s.cnt.dumpSeq)
  else
    let s := s.cnt.resets.foldl resetNode { setPace s paceEpoch with cnt := { s.cnt with resets := [] } }
    let s := dropMaxima (startDump s)
    .next { s with cnt := { s.cnt with start := now s } }

/-- A dump has been written, its entries first and its header last, and DAGENT is told; MPE may refuse it (R489, R632, R633). -/
def execDumpComplete (s : State) : Out :=
  match s.cnt.dump with
  | some (pos, head, body) =>
    if !live s then .next s
    else
      let a := rdF s fCNT_DBASEH_BASE * 2 ^ 24 + rdF s fCNT_DBASEL_BASE + pos
      let head := putBytes head 46 [byteAt head 46 ||| by8 (b2n s.cnt.late)]
      let seq := s.cnt.dumpSeq
      let done := { s with cnt := { s.cnt with dump := none, late := false, dumpSeq := seq + 1 } }
      match (if dataSpace < a + 64 + body.length then some a else refusedByte s cntMaster a (64 + body.length) true) with
      | some b => .next (refuse done cntMaster b true)
      | none =>
        let s := memWrite (memWrite done cntMaster (a + 64) body) cntMaster a head
        let r := postTo s (rdF s fCNT_DAGENT_ENG) ⟨0xd9, seq % 65536, pos / 256, 0, 0⟩
        .next (if r.2 || 0xc0 ≤ rdF s fCNT_DAGENT_ENG then r.1 else count r.1 0x19 kCntRefused 0)
  | none => .next s

/-- An error in counter SRAM: a single bit is corrected and counted; an uncorrectable one zeroes a leaf and flags it LOST, its aggregate
FLOOR, with events 0x640_010 and 0x640_011, or has an aggregate rebuilt from its leaves, with event 0x640_012 (R630). -/
def execCounterEccError (unit kind obj : Nat) (single : Bool) (s : State) : Out :=
  if !live s || 63 < unit || 4095 < kind || aggObj < obj then .next s
  else if single then .next (count s 0x19 kCntCorrected 0)
  else
    let k := leafKey unit kind obj
    if obj = aggObj then
      let sum := (s.cnt.leaf.filter fun x => x.1 / 2 ^ 20 == k / 2 ^ 20 && x.1 != k).foldl (fun n x => n + x.2) 0
      .next (emit0 (setNode s k sum (putBits (nodeFlag s k) 2 1 1)) 0x640012)
    else
      let a := leafKey unit kind aggObj
      let s := setNode s k 0 (putBits (nodeFlag s k) 0 1 1)
      let s := setNode s a (nodeVal s a) (putBits (nodeFlag s a) 1 1 1)
      let l := tget (fun _ => 0) s.cnt.last k
      .next (emit (emit2 s 0x640010 (unit + 64 * kind) obj) 0x640011 (l / 2 ^ 48) (l / 2 ^ 24) l)

/-- The key of the node that NSEL names (R642). -/
def selNode (s : State) : Nat := leafKey (rdF s fCNT_NSELK_UNIT) (rdF s fCNT_NSELK_KIND) (rdF s fCNT_NSELO_OBJ)

/-- NREAD: the node's live value and flags (R638). Of two bits in one write the lower one acts (assumption log 15). -/
def execNodeRead (e : Eng) (v : BitVec 24) (s : State) : Out :=
  if !bitOf v.toNat 0 then .next s
  else onSet s e (fAddr fCNT_NGO_READ 0 0) v fun s =>
    let x := nodeVal s (selNode s)
    wrF (wrF (wrF (wrF s fCNT_NVAL2_V (x / 2 ^ 48)) fCNT_NVAL1_V (x / 2 ^ 24)) fCNT_NVAL0_V x) fCNT_NFLAG_F (nodeFlag s (selNode s))

/-- NRESET: the node is zeroed at the next switch (R638). -/
def execNodeReset (e : Eng) (v : BitVec 24) (s : State) : Out :=
  if bitOf v.toNat 0 || !bitOf v.toNat 1 then .next s
  else onSet s e (fAddr fCNT_NGO_READ 0 0) v fun s => { s with cnt := { s.cnt with resets := s.cnt.resets ++ [selNode s] } }

/-- Sample records the ring holds (R642). -/
def smpRing (s : State) : Nat := rdF s fCNT_SSIZE_KREC * 1024

/-- SMPGO: a record appended to the sample ring, the oldest overwritten and counted when it is full (R637). -/
def execSampleAppend (e : Eng) (v : BitVec 24) (s : State) : Out :=
  onSet s e (fAddr fCNT_SMPGO_GO 0 0) v fun s =>
    if !bitOf v.toNat 0 || smpRing s = 0 || !cntRuns s then s
    else
      let a := rdF s fCNT_SBASEH_BASE * 2 ^ 24 + rdF s fCNT_SBASEL_BASE + 32 * s.cnt.smpNext
      let b := markBytes (now s) ++ toBytes 1 e.val ++ toBytes 2 (rdF s fCNT_SMPPC_PC) ++ toBytes 1 (rdF s fCNT_SMPPC_SKID) ++
        toBytes 3 (rdF s fCNT_SMPDROP_N) ++ List.replicate 12 0
      match (if dataSpace < a + 32 then some a else refusedByte s cntMaster a 32 true) with
      | some x => refuse s cntMaster x true
      | none =>
        let s := if s.cnt.smpHeld = smpRing s then count s 0x19 kCntOverwrite 0 else s
        memWrite { s with cnt := { s.cnt with smpNext := (s.cnt.smpNext + 1) % smpRing s, smpHeld := min (smpRing s) (s.cnt.smpHeld + 1) } } cntMaster a b

/-! ## Capture -/

/-- The ring freezes: event 0x640_014 records its first and last record, CFIRST and CLAST hold them (R640, R642). -/
def freeze (s : State) : State :=
  let a := ((s.cnt.caps.head?.map fun x => x.1).getD 0)
  let z := ((s.cnt.caps.getLast?.map fun x => x.1).getD 0)
  let s := wrF { s with cnt := { s.cnt with offers := [], capLeft := 0 } } fCNT_CSTAT_STATE 3
  let s := result (result s fCNT_CFIRST1_OFF (a / 2 ^ 24)) fCNT_CFIRST0_OFF a
  emit2 (result (result s fCNT_CLAST1_OFF (z / 2 ^ 24)) fCNT_CLAST0_OFF z) 0x640014 a z

/-- A trigger: an armed ring fills on for CPOST MB, or freezes at once; a filling one ignores and counts it (R640). -/
def captureTrigger (s : State) : State :=
  let st := rdF s fCNT_CSTAT_STATE
  if st = 1 then
    if rdF s fCNT_CPOST_MB = 0 then freeze s
    else wrF { s with cnt := { s.cnt with capLeft := rdF s fCNT_CPOST_MB * 2 ^ 20 } } fCNT_CSTAT_STATE 2
  else if st = 2 then count s 0x19 kCntIgnored 0
  else s

/-- CGO ARM: an idle or frozen ring is emptied and armed; a filling one ignores and counts it (R640). A ring of size 0 is off. -/
def execCaptureArm (e : Eng) (v : BitVec 24) (s : State) : Out :=
  if !bitOf v.toNat 0 then .next s
  else onSet s e (fAddr fCNT_CGO_ARM 0 0) v fun s =>
    let st := rdF s fCNT_CSTAT_STATE
    if !cntRuns s || rdF s fCNT_CSIZE_U = 0 then s
    else if st = 0 ∨ st = 3 then wrF { s with cnt := { s.cnt with caps := [], capPos := 0, capLeft := 0, offers := [] } } fCNT_CSTAT_STATE 1
    else if st = 2 then count s 0x19 kCntIgnored 0
    else s

/-- CGO TRIGGER (R640). -/
def execCaptureTrigger (e : Eng) (v : BitVec 24) (s : State) : Out :=
  if bitOf v.toNat 0 || !bitOf v.toNat 1 then .next s
  else onSet s e (fAddr fCNT_CGO_ARM 0 0) v fun s => if cntRuns s then captureTrigger s else s

/-- CGO STOP: the ring freezes at once (R640). -/
def execCaptureStop (e : Eng) (v : BitVec 24) (s : State) : Out :=
  if bitsOf v.toNat 0 3 != 4 then .next s
  else onSet s e (fAddr fCNT_CGO_ARM 0 0) v fun s => if rdF s fCNT_CSTAT_STATE = 3 then s else freeze s

/-- The fill after the trigger is complete: the ring freezes (R640). -/
def execCaptureFrozen (s : State) : Out :=
  if !live s || rdF s fCNT_CSTAT_STATE != 2 || s.cnt.capLeft != 0 then .next s else .next (freeze s)

/-- Whether an offered copy can be written: its frame has ended and its ICV is known (R639). -/
def offerDone (s : State) (o : Offer) : Bool :=
  match o.flight with
  | none => true
  | some f => match flight s f with
    | none => true
    | some x => x.ended && x.icv == .none

/-- A capture record: header, the first SNAP bytes, padded to whole units of 64 bytes (R639). -/
def captureBytes (s : State) (o : Offer) : List Byte :=
  let snap := rdF s fCNT_SNAP_B
  let body := o.bytes.take snap
  let units := (32 + body.length + 63) / 64
  let flags := b2n o.egress + 2 * b2n o.invalid + 4 * b2n o.poison + 8 * b2n (decide (snap < o.bytes.length))
  toBytes 2 units ++ toBytes 1 flags ++ toBytes 1 o.source ++ toBytes 2 o.len ++ markBytes o.mark ++ toBytes 3 o.flow ++
    List.replicate 10 0 ++ body ++ List.replicate (64 * units - 32 - body.length) 0

/-- The oldest offered copy is written to the ring, header last, over the oldest records; one that cannot be written when due is lost and
counted (R639). A record that would pass the ring's end starts at its base (assumption log 21). -/
def execCaptureRecord (lost : Bool) (s : State) : Out :=
  match s.cnt.offers with
  | o :: l =>
    if !cntRuns s || !offerDone s o || (rdF s fCNT_CSTAT_STATE == 2 && s.cnt.capLeft == 0) then .next s
    else
      let b := captureBytes s o
      let n := b.length / 64
      let ring := rdF s fCNT_CSIZE_U * 2 ^ 20
      let s := { s with cnt := { s.cnt with offers := l } }
      let pos := if ring < s.cnt.capPos + n then 0 else s.cnt.capPos
      let a := rdF s fCNT_CBASEH_BASE * 2 ^ 24 + rdF s fCNT_CBASEL_BASE + 64 * pos
      if lost then .next (count s 0x19 kCntLost 0)
      else match (if dataSpace < a + b.length then some a else refusedByte s cntMaster a b.length true) with
        | some x => .next (count (refuse s cntMaster x true) 0x19 kCntLost 0)
        | none =>
          let kept := s.cnt.caps.filter fun x => !(decide (x.1 < pos + n) && decide (pos < x.1 + x.2))
          .next (memWrite { s with cnt := { s.cnt with caps := kept ++ [(pos, n)], capPos := pos + n, capLeft := s.cnt.capLeft - b.length } } cntMaster a b)
  | [] => .next s

end Sys2Proof.Machine
end

