-- ==== Sys2Proof/Machine/Trib.lean ====
section
/-! DEFINITION. Slotted tributaries: containers, elastic stores, the connection memory, page swaps, the all-ones action (R281 to
R294). -/
namespace Sys2Proof.Machine

/-- A tributary with empty stores and no cause in force. -/
def tribuReset : Tribu :=
  { store := [], seqD := none, seqU := 0, chan := false, frame := false, source := false, ais := false, goodF := 0, goodS := 0,
    gotF := false, badF := false, gotS := false, badS := false, lastAt := 0, up := [], owed := 0, run := false, came := 0 }

/-- Tributary q. -/
def tribu (s : State) (q : Nat) : Tribu := tget (fun _ => tribuReset) s.trib.tr q

/-- Tributary q replaced. -/
def setTribu (s : State) (q : Nat) (x : Tribu) : State :=
  { s with trib := { s.trib with tr := tset (fun _ => tribuReset) s.trib.tr q x } }

/-- A connection entry (R287, R294). -/
structure Conn where
  port : Nat
  valid : Bool
  ds : Bool
  us : Bool
  feed : Bool
  cpf : Nat
deriving DecidableEq, Repr

/-- Entry q of page p. -/
def conn (s : State) (p q : Nat) : Conn :=
  let n := 64 * p + q
  { port := rdF s fTRIB_CONN_CPORT 0 n, valid := onF s fTRIB_CONN_VALID 0 n, ds := onF s fTRIB_CONN_DS 0 n,
    us := onF s fTRIB_CONN_US 0 n, feed := onF s fTRIB_CONN_DSFEED 0 n, cpf := rdF s fTRIB_CONN_CPF 0 n }

/-- The page in force for channel c: during a swap the channels change one by one (R289). -/
def pageOf (s : State) (c : Nat) : Nat := tget (fun _ => 0) s.trib.page c

/-- The entry in force of tributary q. -/
def connOf (s : State) (q : Nat) : Conn := conn s (pageOf s (q / 16)) q

/-- Counter kinds of TRIB, per tributary (R294): containers sent. -/
def kTribTx : Nat := 0
/-- Containers received. -/
def kTribRx : Nat := 1
/-- Containers discarded. -/
def kTribBad : Nat := 2
/-- Containers missing. -/
def kTribMissing : Nat := 3
/-- Idle blocks deleted. -/
def kTribDel : Nat := 4
/-- Idle blocks inserted. -/
def kTribIns : Nat := 5
/-- Blocks discarded at a disable. -/
def kTribDrain : Nat := 6
/-- Writes to entries of the active page. -/
def kTribConn : Nat := 7

/-! ## Blocks -/

/-- The bits of a byte in the order of the line, least significant first, as a number read most significant first. -/
def lineByte (b : Nat) : Nat := (List.range 8).foldl (fun n i => 2 * n + bitsOf b i 1) 0

/-- The bits of a 7-bit control character in the order of the line. -/
def lineChar (c : Nat) : Nat := (List.range 7).foldl (fun n i => 2 * n + bitsOf c i 1) 0

/-- A control block in transmission order: sync header 10, block type, and eight control characters (IEEE 802.3 clause 49,
assumption log 16, PRESUMED). -/
def ctlBlock (type char : Nat) : Nat :=
  2 * 2 ^ 64 + lineByte type * 2 ^ 56 + (List.range 8).foldl (fun n _ => n * 128 + lineChar char) 0

/-- An idle block: type 0x1E, eight idle characters (R284). -/
def idleBlock : Nat := ctlBlock 0x1e 0

/-- An error block: type 0x1E, eight error characters (R285). -/
def errorBlock : Nat := ctlBlock 0x1e 0x1e

/-- A block of all ones (R290). -/
def onesBlock : Nat := 2 ^ 66 - 1

/-- Whether a block is a start block (IEEE 802.3 clause 49, assumption log 16, PRESUMED). -/
def isStart (b : Nat) : Bool := b / 2 ^ 64 == 2 && [0x33, 0x66, 0x78].any fun t => bitsOf b 56 8 == lineByte t

/-- Whether a block is a terminate block (IEEE 802.3 clause 49, assumption log 16, PRESUMED). -/
def isTerminate (b : Nat) : Bool :=
  b / 2 ^ 64 == 2 && [0x87, 0x99, 0xaa, 0xb4, 0xcc, 0xd2, 0xe1, 0xff].any fun t => bitsOf b 56 8 == lineByte t

/-- A block into an elastic store of this target: an idle block too many is left out, one too few is put in behind an idle or a
terminate block (R284). The numbers count deletions and insertions; fill tells how full the store is taken to be (assumption log 63). -/
def pushBlock (target : Nat) (fill : List Nat × Nat × Nat → Nat) (a : List Nat × Nat × Nat) (b : Nat) : List Nat × Nat × Nat :=
  if target + 64 < fill a ∧ b = idleBlock then (a.1, a.2.1 + 1, a.2.2)
  else if fill a + 64 < target ∧ (b = idleBlock ∨ isTerminate b) then (a.1 ++ [b, idleBlock], a.2.1, a.2.2 + 1)
  else (a.1 ++ [b], a.2.1, a.2.2)

/-- Blocks through an elastic store of tributary q, with their counts (R284). -/
def pushBlocks (s : State) (q cpf : Nat) (fill : List Nat × Nat × Nat → Nat) (l bs : List Nat) : State × List Nat :=
  let r := bs.foldl (pushBlock (32 * cpf) fill) (l, 0, 0)
  (count (count s 6 kTribDel q r.2.1) 6 kTribIns q r.2.2, r.1)

/-- The 32 blocks of a container (R281). -/
def containerBlocks (b : List Byte) : List Nat :=
  let n := ofBytes (bytesAt b 4 264)
  (List.range 32).map fun k => bitsOf n (66 * (31 - k)) 66

/-- A container of 268 bytes (R281). -/
def makeContainer (seq t : Nat) (ais : Bool) (blocks : List Nat) : List Byte :=
  toBytes 2 seq ++ [by8 (128 * b2n ais), by8 t] ++ toBytes 264 (blocks.foldl (fun n b => n * 2 ^ 66 + b) 0)

/-! ## Causes -/

/-- The lowest-numbered cause in force, 0 for none (R290). -/
def causeOf (x : Tribu) : Nat := if x.chan then 1 else if x.frame then 2 else if x.source then 3 else 0

/-- Whether tributary q is received into its store (R287, R292). -/
def dsOn (s : State) (q : Nat) : Bool := active s 6 0 && (connOf s q).valid && (connOf s q).ds

/-- Of the blocks in a downstream store that feeds a port those that have left it by now at the client's nominal rate, 48,828.125 in 125 µs: the
model takes them out at the next TRIB frame boundary (R283, assumption log 63). -/
def gone (x : Tribu) (e : Conn) : Nat :=
  if x.run && e.feed && e.cpf != 0 then min x.store.length (x.came * 48828125 / (32000 * e.cpf)) else 0

/-- Tributary q with new causes: the first of them starts the action, which empties the store, with event 0x180_010 of q and the cause; the
action goes on until the store has refilled (R290). -/
def setCauses (s : State) (q : Nat) (x : Tribu) : State :=
  let new := causeOf x
  if new = 0 then setTribu s q x
  else
    let s' := setTribu s q { x with store := [], run := false, came := 0, ais := x.ais || dsOn s q }
    if dsOn s q && !x.ais then emit2 s' 0x180010 q new else s'

/-- A store that has reached its target begins to run; with every cause cleared the all-ones action ends here, and event 0x180_011 records it
(R290). -/
def refill (s : State) (q : Nat) : State :=
  let x := tribu s q
  if x.run || causeOf x != 0 || x.store.length < 32 * (connOf s q).cpf then s
  else
    let s := setTribu s q { x with run := true, ais := false, came := 0 }
    if x.ais then emit0 s 0x180011 else s

/-- Cause 2 begins (R285, R290). -/
def breakFrame (s : State) (q : Nat) : State := setCauses s q { tribu s q with frame := true, goodF := 0, gotF := false, badF := true }

/-- Channel c has lost LOCK or left operation: cause 1 for its tributaries, and cause 2, since no container comes (R290). -/
def tribChannelLost (s : State) (c : Nat) : State :=
  (List.range 16).foldl (fun s t =>
    let q := 16 * c + t
    if dsOn s q then setCauses s q { tribu s q with chan := true, frame := true, goodF := 0, goodS := 0, seqD := none } else s) s

/-- What a downstream PHY frame that ends has shown of tributary q (R290): two frames in a row of containers in sequence clear cause 2,
two of containers without AIS clear cause 3, and cause 1 goes with LOCK, operation and cause 2. up tells whether channel c is locked
and in operation. -/
def tribFrameEnd (s : State) (c : Nat) (up : Bool) : State :=
  (List.range 16).foldl (fun s t =>
    let q := 16 * c + t
    let x := tribu s q
    if !dsOn s q then s
    else
      let gf := if x.gotF && !x.badF then x.goodF + 1 else 0
      let gs := if x.gotS && !x.badS then x.goodS + 1 else 0
      let fr := x.frame && gf < 2
      setCauses s q { x with
        goodF := min gf 2, goodS := min gs 2, frame := fr, source := x.source && gs < 2, chan := x.chan && !(up && !fr),
        gotF := false, badF := false, gotS := false, badS := false }) s

/-- Containers by which a list of blocks exceeds a store of 2 × CPF containers (R284). -/
def tooMany (cpf : Nat) (l : List Nat) : Nat := (l.length - 64 * cpf + 31) / 32

/-- Blocks into the downstream store of tributary q, which holds up to 2 × CPF containers and loses its oldest beyond that (R284; assumption log
63). -/
def pushDown (s : State) (q : Nat) (bs : List Nat) : State × List Nat :=
  let x := tribu s q
  let e := connOf s q
  let r := pushBlocks s q e.cpf (fun a => a.1.length - gone x e) x.store bs
  let extra := tooMany e.cpf (r.2.drop (gone x e))
  (count r.1 6 kTribBad q extra, r.2.drop (32 * extra))

/-- A downstream container of tributary q (R281, R282, R285, R290). -/
def containerIn (s : State) (q : Nat) (b : List Byte) : State :=
  if !dsOn s q then s
  else if b.length ≠ 268 ∨ (byteAt b 2).toNat % 128 ≠ 0 ∨ (byteAt b 3).toNat ≠ q % 16 then count s 6 kTribBad q
  else
    let x := tribu s q
    let seq := ofBytes (b.take 2)
    let gap := match x.seqD with | some n => (seq + 65536 - n) % 65536 | none => 0
    let ais := bitOf (byteAt b 2).toNat 7
    let s := count (count s 6 kTribRx q) 6 kTribMissing q gap
    let x := { x with seqD := some ((seq + 1) % 65536), lastAt := s.sys.ticks, gotS := x.gotS || !ais, badS := x.badS || ais }
    let s := if 16 ≤ gap then breakFrame (setTribu s q x) q else setTribu s q { x with gotF := x.gotF || gap == 0, badF := x.badF || gap != 0 }
    let s := if ais then setCauses s q { tribu s q with source := true, goodS := 0 } else s
    if causeOf (tribu s q) ≠ 0 then s
    else
      let r := pushDown s q (List.replicate (32 * gap) errorBlock ++ containerBlocks b)
      refill (setTribu r.1 q { tribu r.1 q with store := r.2, came := (tribu r.1 q).came + 32 * (gap + 1) }) q

/-- No container for 250 µs, 156,250 ticks: cause 2 (R290). -/
def execContainerTimeout (q : Fin 64) (s : State) : Out :=
  if live s && dsOn s q && !(tribu s q).frame && decide ((tribu s q).lastAt + 156250 ≤ s.sys.ticks) then .next (breakFrame s q) else .next s

/-! ## Upstream -/

/-- Whether the containers of tributary q carry AIS: its client has lost block lock, or its store is empty (R291). -/
def upAis (s : State) (q : Nat) : Bool := !onF s fLANE_LSTAT_BLOCK (connOf s q).port || (tribu s q).up.isEmpty

/-- Whether tributary q is sent upstream (R287, R292). -/
def usOn (s : State) (q : Nat) : Bool := active s 6 0 && (connOf s q).valid && (connOf s q).us

/-- TSTAT of tributary q (R290, R291, R294). -/
def tribStatus (s : State) (q : Nat) : Nat :=
  let x := tribu s q
  let e := connOf s q
  b2n (dsOn s q && x.ais) + 2 * (if dsOn s q then causeOf x else 0) + 8 * b2n (usOn s q && upAis s q) +
    16 * (((x.store.length - gone x e) / 32) % 4096)

/-- The next container of tributary q for a grant, if one is due and, but for AIS, a whole one stands ready (R281, R283, R291). -/
def nextContainer (s : State) (q : Nat) : Option (List Byte × State) :=
  let x := tribu s q
  let ais := upAis s q
  let s := count (setTribu s q { x with seqU := (x.seqU + 1) % 65536, owed := x.owed - 1, up := if ais then x.up else x.up.drop 32 }) 6 kTribTx q
  if x.owed = 0 then none
  else if ais then some (makeContainer x.seqU (q % 16) true (List.replicate 32 onesBlock), s)
  else if x.up.length < 32 then none
  else some (makeContainer x.seqU (q % 16) false (x.up.take 32), s)

/-- The blocks that client ports in a tributary mode and in block lock have received go into the upstream stores, and CPF containers more fall due; a
store above 2 × CPF containers loses its oldest, whose sequence numbers are left out (R283 to R285, R287, R298; assumption log 63). -/
def takeUpstream (s : State) (rx : List (Port × List (BitVec 66))) : State :=
  (List.range 64).foldl (fun s q =>
    let e := connOf s q
    if !(e.valid && e.us) then s
    else
      let hears := portMode s e.port == 8 && onF s fLANE_LSTAT_BLOCK e.port
      let bs := if hears then ((rx.filter fun x => x.1.val == e.port).map fun x => x.2.map fun b => b.toNat).flatten else []
      let x := tribu s q
      let r := pushBlocks s q e.cpf (fun a => x.up.length + a.2.2 - a.2.1) x.up bs
      let extra := tooMany e.cpf r.2
      count (setTribu r.1 q { x with up := r.2.drop (32 * extra), seqU := (x.seqU + extra) % 65536, owed := min (x.owed + e.cpf) (2 * e.cpf) })
        6 kTribBad q extra) s

/-- Blocks that a client at its nominal rate of 390.625 M blocks/s takes in the 125 µs that end now, 48,828.125 on average (R283). -/
def blocksLeaving (s : State) : Nat := (s.time.ns / 125000 + 1) * 390625 / 8 - s.time.ns / 125000 * 390625 / 8

/-! ## Client outputs -/

/-- A client output that nothing feeds: it sends all ones (R287). -/
def clientReset : ClientOut := { source := none, lead := 1, frame := false, sent := [] }

/-- The output of client port p. -/
def clientOut (s : State) (p : Nat) : ClientOut := tget (fun _ => clientReset) s.trib.out p

/-- The tributary whose store feeds port p: during a swap that of the new page where both would (R287, R289). -/
def feeder (s : State) (p : Nat) : Option Nat :=
  let l := (List.range 64).filter fun q => (connOf s q).valid && (connOf s q).ds && (connOf s q).feed && (connOf s q).port == p
  match l.filter fun q => pageOf s (q / 16) == rdF s fTRIB_ACTPG_PAGE with
  | q :: _ => some q
  | [] => l.head?

/-- Whether a frame is in progress behind a list of blocks. -/
def inFrame (was : Bool) (l : List Nat) : Bool := l.foldl (fun f b => if isStart b then true else if isTerminate b then false else f) was

/-- What a port sends of n blocks of its tributary's store: its lead until the next start block, then what the store gives; one block less where an
error block ends a frame first (R289, R290). -/
def sendStore (x : ClientOut) (err : Bool) (bs : List Nat) : ClientOut :=
  let first := if err then [(1, errorBlock)] else []
  if x.lead = 0 then { x with frame := inFrame x.frame bs, sent := first ++ (bs.drop first.length).map fun b => (1, b) }
  else
    let before := (bs.takeWhile fun b => !isStart b).length
    let rest := bs.drop before
    { x with
      lead := if rest = [] then x.lead else 0
      frame := inFrame false rest
      sent := first ++ (before - first.length, if x.lead = 1 then onesBlock else idleBlock) :: rest.map fun b => (1, b) }

/-- The 125 µs of port p in a tributary mode that end now: n blocks of the store that feeds it, or all ones where nothing does, the all-ones
action is in force or the store has not reached its target; a store that runs empty starts cause 2. A port whose source has changed begins the
new one at a start block, a frame in progress ending with an error block (R284, R285, R287, R289, R290, R292; assumption log 63). -/
def feedPort (s : State) (p n : Nat) : State :=
  let x := clientOut s p
  let f := feeder s p
  let moved := f != x.source
  let x := { x with source := f, lead := if moved then 2 else x.lead }
  let put := fun (s : State) (y : ClientOut) => { s with trib := { s.trib with out := tset (fun _ => clientReset) s.trib.out p y } }
  let ones := { x with lead := 1, frame := false, sent := (if moved && x.frame then [(1, errorBlock)] else []) ++ [(n, onesBlock)] }
  match f with
  | none => put s ones
  | some q =>
    let t := tribu s q
    if !t.run || t.ais then put s ones
    else if t.store.length < n ∧ active s 6 0 then put (breakFrame s q) ones
    else put (setTribu s q { t with store := t.store.drop n, came := 0 }) (sendStore x (moved && x.frame) (t.store.take n))

/-- Every client port in a tributary mode is fed (R287). -/
def feedPorts (s : State) : State :=
  ((List.range 32).filter fun p => portMode s p == 8).foldl (fun s p => feedPort s p (blocksLeaving s)) s

/-! ## Pages -/

/-- The entries of the new page take effect for channel c: a store that keeps DS = 1 carries on, any other begins empty, and upstream the whole
containers of the old port go first (R289). -/
def swapChannel (s : State) (c : Nat) : State :=
  match s.trib.swap with
  | none => s
  | some p =>
    if !s.trib.wait.contains c then s
    else
      let keep := (List.range 16).map fun t => (conn s (pageOf s c) (16 * c + t)).ds && (conn s (pageOf s c) (16 * c + t)).valid
      let ports := (List.range 16).map fun t => (conn s (pageOf s c) (16 * c + t)).port
      let l := s.trib.wait.filter fun d => d != c
      let s := { s with trib := { s.trib with page := tset (fun _ => 0) s.trib.page c p, wait := l, swap := if l = [] then none else some p } }
      (List.range 16).foldl (fun s t =>
        let q := 16 * c + t
        let x := tribu s q
        let e := conn s p q
        let x := if keep.getD t false && e.ds && e.valid then x
          else { tribuReset with seqU := x.seqU, up := x.up, owed := x.owed, lastAt := s.sys.ticks }
        let whole := if ports.getD t 0 = e.port then x.up else x.up.take (x.up.length / 32 * 32)
        setTribu s q (if e.us && e.valid then { x with up := whole } else { x with up := [], owed := 0 })) s

/-- A TRIB frame boundary's number: the time counter's second and its 125 µs in it (R289). -/
def boundaryNo (s : State) : Nat × Nat := (s.time.sec, s.time.ns / 125000)

/-- Whether the time counter stands at a TRIB frame boundary, within a tick (R289). -/
def atBoundary (s : State) : Bool := decide (s.time.ns % 125000 < 2)

/-- A TRIB frame boundary: client blocks come in, stores feed their ports, and a due swap takes effect on the channels that have no
downstream to give them a frame boundary of their own (R287, R289); while TRIB drains, stores empty toward their ports only (R292). -/
def execTribFrameBoundary (rx : List (Port × List (BitVec 66))) (s : State) : Out :=
  if !live s || !atBoundary s || s.trib.last == some (boundaryNo s) then .next s
  else
    let s := { s with trib := { s.trib with last := some (boundaryNo s) } }
    let s := if active s 6 0 then takeUpstream s rx else s
    let s := if ustat s 6 0 = 1 ∨ ustat s 6 0 = 2 then feedPorts s else s
    .next ((List.range 4).foldl (fun s c => if onF s fPON_CHSTAT_LOCK c then s else swapChannel s c) s)

/-- A SET of a connection entry: stored, or discarded, counted and recorded for the active page (R288, R294). -/
def execConnWrite (e : Eng) (n : Fin 128) (v : Word) (s : State) : Out :=
  let a := fAddr fTRIB_CONN_CPORT 0 n
  onSet s e a v fun s =>
    if n.val / 64 = rdF s fTRIB_ACTPG_PAGE then emit1 (count s 6 kTribConn (n.val % 64)) 0x180013 a
    else setNow s a v.toNat

end Sys2Proof.Machine
end

