-- ==== Sys2Proof/Machine/Pon.lean ====
section
/-! DEFINITION. PON convergence: the downstream frame and what it carries, activation, grants and bursts, PLOAM, the download path
(R246 to R280). -/
namespace Sys2Proof.Machine

/-- A PON channel at reset. -/
def ponReset : PonCh :=
  { seen := 0, act := none, hold := none, ploams := [], grants := [], burst := none, sfc := none, frag := [], broken := [],
    snGrant := none, level := none, pllLost := false, super := 0, serial := [], reg := [], bursts := 0, light := 0, lightAt := 0, last := none,
    replies := 0, said := [] }

/-- PON channel c. -/
def ponCh (s : State) (c : Nat) : PonCh := tget (fun _ => ponReset) s.pon c

/-- PON channel c replaced. -/
def setPon (s : State) (c : Nat) (x : PonCh) : State := { s with pon := tset (fun _ => ponReset) s.pon c x }

/-- Counter kinds of PON, per channel (R279), beside kPonLost: unknown port-ID. -/
def kPonPort : Nat := 1
/-- Key errors downstream. -/
def kPonKey : Nat := 2
/-- Headers corrected. -/
def kPonHec : Nat := 3
/-- Bytes of lost spans. -/
def kPonSpan : Nat := 4
/-- Frames lost to a broken fragment chain. -/
def kPonFrag : Nat := 5
/-- Corrected bits, corrected codewords, uncorrectable codewords. -/
def kPonFec (i : Nat) : Nat := 6 + i
/-- PLOAM messages whose MIC fails. -/
def kPonMic : Nat := 9
/-- Messages for an agent value of 0xFF. -/
def kPonNoAgent : Nat := 10
/-- Upstream PLOAMs discarded: a PUGO too many, or unsent at a disable or an exit from operation. -/
def kPonPloam : Nat := 11
/-- Missed bursts. -/
def kPonMissed : Nat := 12
/-- Poisoned frames sent. -/
def kPonPoison : Nat := 13
/-- Sections written. -/
def kPonSect : Nat := 14
/-- Oversize sections. -/
def kPonOverSect : Nat := 15
/-- Refused section writes. -/
def kPonRefSect : Nat := 16
/-- Upstream frames discarded under a key error. -/
def kPonUpKey : Nat := 17

/-! ## The end of a burst -/

/-- WLOCK of slot c clears and records event 0x100_012; the wavelength loop begins anew (R239). -/
def clearWlock (s : State) (c : Nat) : State :=
  if !onF s fOPT_OSTAT_WLOCK c then s
  else setPon (emit0 (wrF s fOPT_OSTAT_WLOCK 0 c) 0x100012) c { ponCh s c with bursts := 0, light := 0 }

/-- What the wavelength loop of slot c learns from a burst that ends now: after 32 bursts with 20 µs of light, 12,500 ticks, it has locked, unless
CALHOLD holds it (R238, R240). -/
def sampleBurst (s : State) (c : Nat) (b : Burst) : State :=
  let x := ponCh s c
  let x := { x with bursts := x.bursts + 1, light := x.light + (s.sys.ticks - b.openAt), lightAt := s.sys.ticks }
  let s := setPon s c x
  if 32 ≤ x.bursts ∧ 12500 ≤ x.light ∧ onF s fOPT_OCAL_CALHOLD c = false then wrF s fOPT_OSTAT_WLOCK 1 c else s

/-- The running bucket moves away from channel c whose frames a burst that ends now has carried: PONGUARD counts from here (R216). -/
def noteCarried (s : State) (c : Nat) (b : Burst) : State :=
  { s with plc := { s.plc with moves := s.plc.moves.map fun m =>
    if m.kind == 1 && m.source == c && b.sent.any (fun x => x.frame.hash == m.index) then { m with endAt := some s.sys.ticks } else m } }

/-- The open burst of channel c ends; a power level that arrived during it applies (R231). -/
def endBurst (s : State) (c : Nat) : State :=
  let x := ponCh s c
  match x.burst with
  | none => s
  | some b =>
    let s := noteCarried (sampleBurst (setPon s c { x with burst := none, level := none, last := some b }) c b) c b
    match x.level with
    | some l => wrF s fOPT_OSTAT_PLEVEL l c
    | none => s

/-! ## Activation -/

/-- ACTST of channel c (R254). -/
def actst (s : State) (c : Nat) : Nat := rdF s fPON_CHSTAT_ACTST c

/-- Byte a of the tag area (R656). -/
def tagByte (s : State) (a : Nat) : Byte := tget (fun _ => 0) s.log.tag a

/-- At its entry to O1 a channel reads the serial number and the registration identifier that it presents until its next entry; a blank serial
number is recorded (R247, R248). -/
def checkSerial (s : State) (c : Nat) : State :=
  let b := (List.range 8).map (tagByte s)
  let s := setPon s c { ponCh s c with serial := b, reg := (List.range 40).map fun k => tagByte s (8 + k) }
  if b.all (fun x => x == 0) || b.all (fun x => x == 0xff) then emit1 s 0x140014 c else s

/-- Upstream PLOAMs that are left unsent: discarded and counted (R262). -/
def dropPloams (s : State) (c : Nat) : State :=
  let x := ponCh s c
  wrF (count (setPon s c { x with ploams := [] }) 5 kPonPloam c x.ploams.length) fPON_PUCOUNT_N 0 c

/-- Channel c in or out of operation; leaving brings R220, the end of queued PLOAMs, and cause 1 to its tributaries (R249, R262,
R290). -/
def setOper (s : State) (c : Nat) (b : Bool) : State :=
  let was := onF s fPON_CHSTAT_OPER c
  let s := wrF s fPON_CHSTAT_OPER (b2n b) c
  if was && !b then tribChannelLost (dropPloams (channelGone s c) c) c else s

/-- What channel c leaves behind as it changes its state to st: an open burst ends outside O4 and O5, and grants and a serial-number grant of the old
state are not used (R254). -/
def leaveAct (s : State) (c st : Nat) : State :=
  let s := if st = 4 ∨ st = 5 then s else endBurst s c
  let x := ponCh s c
  setPon s c { x with act := none, hold := none, snGrant := if st = 2 then x.snGrant else none,
                      grants := if st = actst s c then x.grants else [] }

/-- Channel c enters O6: the hold of O6HOLD ms, 625,000 ticks each, starts, event 0x140_010 records it, and PLC keeps the rate of the 10 ms before
(R256, R274). -/
def enterO6 (s : State) (c : Nat) : State :=
  let s := keepRate s c
  emit0 (setPon s c { ponCh s c with hold := some (s.sys.ticks + rdF s fPON_O6HOLD_MS c * 625000) }) 0x140010

/-- ACTST of channel c given a state (R249, R254): in O5, and in O6 while its hold runs, it is in operation. -/
def putAct (s : State) (c st : Nat) : State :=
  let was := actst s c
  let s := if st = 6 ∧ was ≠ 6 then enterO6 (leaveAct s c st) c else leaveAct s c st
  setOper (wrF s fPON_CHSTAT_ACTST st c) c (st == 5 || (ponCh s c).hold.isSome)

/-- Channel c goes to an activation state; at an entry to O1 the serial number is read (R247, R254). -/
def setAct (s : State) (c st : Nat) : State :=
  let s' := putAct s c st
  if st = 1 ∧ actst s c ≠ 1 then checkSerial s' c else s'

/-- A fragment chain of a port-ID that has been broken: its frame is counted once, and its later fragments are discarded (R252). -/
def breakChain (s : State) (c id : Nat) : State :=
  let x := ponCh s c
  let s := setPon s c { x with frag := tset (fun _ => none) x.frag id none, broken := tset (fun _ => false) x.broken id true }
  if tget (fun _ => false) x.broken id then s else count s 5 kPonFrag c

/-- Every open fragment chain of channel c broken, since the fragments that follow are lost (R252). -/
def breakChains (s : State) (c : Nat) : State := (ponCh s c).frag.foldl (fun s f => breakChain s c f.1) s

/-- LODS: LOCK clears, an armed capture disarms, open fragment chains break, the tributaries take cause 1, and a channel in O5 goes to O6 with
its hold timer, a class N fault (R250, R252, R256, R275, R290). -/
def lods (s : State) (c : Nat) : State :=
  let s := setPon s c { ponCh s c with seen := 0 }
  if !onF s fPON_CHSTAT_LOCK c then s
  else
    let s := breakChains (wrF (wrF s fPON_CHSTAT_LOCK 0 c) fPON_CHSTAT_LODS 1 c) c
    let s := tribChannelLost (setPon s c { ponCh s c with sfc := none }) c
    if actst s c = 5 then raiseFault (setAct s c 6) 0x140010 c else s

/-- Expected PSBd are missed: a hunting channel counts two in a row anew, and three missed clear LOCK (R250). -/
def execPsbdMissed (c : Chan) (s : State) : Out :=
  if live s then .next (lods s c) else .next s

/-- The O6 hold expires: the channel goes to O1, a class L fault (R256). -/
def execO6HoldExpiry (c : Chan) (s : State) : Out :=
  match (ponCh s c).hold with
  | none => .next s
  | some t =>
    if live s && actst s c == 6 && decide (t ≤ s.sys.ticks) then .next (raiseFault (emit0 (setAct s c 1) 0x140015) 0x140015 c)
    else .next s

/-- A SET of ACTSET: the channel moves at the next downstream frame boundary; a value that is not assigned is refused (R171, R254,
R279). -/
def execActset (e : Eng) (c : Chan) (v : Word) (s : State) : Out :=
  let a := fAddr fPON_ACTSET_STATE c 0
  onSet s e a v fun s =>
    let st := bitsOf v.toNat 0 4
    if 1 ≤ st ∧ st ≤ 9 ∧ st ≠ 3 then setPon s c { ponCh s c with act := some st } else unassigned s a st

/-! ## What a downstream frame carries -/

/-- The VALID port entry of a port-ID (R252, R280). -/
def portEntry (s : State) (c id : Nat) : Option Nat :=
  (List.range 256).find? fun i => onF s fPON_PORTB_VALID c (2 * i) && rdF s fPON_PORTA_PORTID c (2 * i) == id

/-- The key of a slot of a class, where it is usable (R269, R493). -/
def keyIn (s : State) (slot cls : Nat) : Option (List Nat) := if slotUsable s slot cls then some (slotKey (keySlot s slot)) else none

/-- The key that a frame of a KIND under key index 1 or 2 is opened with, if its key word is VALID and its slot usable (R252, R267, R269). -/
def downKey (s : State) (c kind key : Nat) : Option (List Nat) :=
  let k := (if kind = 3 then 2 else 0) + key - 1
  if (key == 1 || key == 2) && onF s fPON_DKEY1_VALID c k then keyIn s (rdF s fPON_DKEY1_SLOT c k) 1 else none

/-- Bytes of a payload ciphered or deciphered in counter mode from the block of a direction, a superframe and a position (R267). -/
def payloadCtr (key : List Nat) (up : Bool) (superframe pos : Nat) (b : List Byte) : List Byte :=
  bytesOf (xorL (nums b) (ctrStream key (Config.ponCounter up superframe pos).toNat b.length))

/-- A downstream payload opened: clear under key index 0, deciphered under 1 and 2, none where no key opens it (R252, R267, R268). -/
def openPayload (s : State) (c kind key pos : Nat) (b : List Byte) : Option (List Byte) :=
  if key = 0 then some b else (downKey s c kind key).map fun k => payloadCtr k false (ponCh s c).super pos b

/-- The default PLOAM integrity key of ITU-T G.9804.2 (R261; assumption log 17, PRESUMED). -/
def defaultPloamKey : List Nat := List.replicate 16 0x55

/-- The MIC of a PLOAM message of 40 bytes in a direction, 1 downstream and 2 upstream: AES-CMAC over the direction and the message, its first 8 bytes
(R261; assumption log 17, PRESUMED). -/
def ploamMic (key : List Nat) (dir : Nat) (m : List Byte) : List Byte := bytesOf ((cmac key (dir :: nums m)).take 8)

/-- The key that checks a downstream message: the default key for a broadcast or while PLKEYV is not VALID, else PLKEYV's, if it is usable (R261). -/
def checkKey (s : State) (c : Nat) (broadcast : Bool) : Option (List Nat) :=
  if broadcast || !onF s fPON_PLKEYV_VALID c then some defaultPloamKey else keyIn s (rdF s fPON_PLKEYV_SLOT c) 1

/-- The key of the MIC that PON appends: PLKEYG's while it is VALID, else the default key (R261). -/
def makeKey (s : State) (c : Nat) : Option (List Nat) :=
  if onF s fPON_PLKEYG_VALID c then keyIn s (rdF s fPON_PLKEYG_SLOT c) 0 else some defaultPloamKey

/-- The ONU-ID that a PLOAM message is addressed to, and whether its MIC holds (R260, R261; assumption log 17). -/
def ploamOnu (m : List Byte) : Nat := fu m 0 2 % 1024

/-- Whether the MIC of a downstream PLOAM message holds (R261). -/
def micHolds (s : State) (c : Nat) (m : List Byte) : Bool :=
  (checkKey s c (ploamOnu m == 0x3ff)).any fun k => m.drop 40 == ploamMic k 1 (m.take 40)

/-- A frame from channel c placed in the frame queue of an agent (R260); an agent of 0xFF discards and counts it (R263). -/
def toAgent (s : State) (c agent : Nat) (b : List Byte) (m : Mark) : State :=
  if 192 ≤ agent then count s 5 kPonNoAgent c
  else
    let f := { lineFrame s (0x40 + c) 0 b with mark := m }
    addFlight s { id := 0, stage := 1, frame := f, ended := true, bad := 0, icv := .none, dest := .eng agent, port := none,
                  rxLen := b.length, decided := false, cls := 0, prot := false, of_ := none }

/-- The section number and the section data of an OMCI Download section message for Software image instance me (ITU-T G.988,
assumption log 17, PRESUMED), baseline or extended. -/
def sectionOf (b : List Byte) (me : Nat) : Option (Nat × List Byte) :=
  if (byteAt b 2).toNat % 32 ≠ 20 ∨ fu b 4 2 ≠ 7 ∨ fu b 6 2 ≠ me then none
  else if fb b 3 = 0x0a then some (fb b 8, bytesAt b 9 31)
  else if fb b 3 = 0x0b then some (fb b 10, bytesAt b 11 (fu b 8 2 - 1))
  else none

/-- The far address of the download area of channel c, its window's offset included (R264). -/
def dlAddr (s : State) (c : Nat) : Nat × Nat :=
  let b := rdF s fPON_DLBASEH_BASE c * 2 ^ 24 + rdF s fPON_DLBASEL_BASE c
  (b, b + rdF s fPON_DLWOFF1_OFF c * 2 ^ 24 + rdF s fPON_DLWOFF0_OFF c)

/-- The value a result word holds, 0 before its first result. -/
def resultOr0 (s : State) (f : Fld) (i : Nat) : Nat := if isReady s (fAddr f i 0) then rdF s f i else 0

/-- A Download section message of a KIND 1 frame placed in DRAM (R264). -/
def downloadSection (s : State) (c : Nat) (b : List Byte) : State :=
  if !onF s fPON_DLCTL_DLARM c then s
  else match sectionOf b (rdF s fPON_DLME_ME c) with
    | none => s
    | some (n, d) =>
      let len := rdF s fPON_DLSLEN_N c
      let s := if len < d.length then count s 5 kPonOverSect c else s
      let d := d.take len
      let a := (dlAddr s c).2 + n * len
      let fail := fun (s : State) => wrF (count s 5 kPonRefSect c) fPON_DLCTL_DLERR 1 c
      if d = [] then s
      else if (dlAddr s c).1 + 64 * rdF s fPON_DLLIM_LIM c < a + d.length ∨ dataSpace < a + d.length then fail s
      else match refusedByte s 0x0e a d.length true with
        | some x => fail (refuse s 0x0e x true)
        | none => result (count (memWrite s 0x0e a d) 5 kPonSect c) fPON_DLCNT_N (min (resultOr0 s fPON_DLCNT_N c + 1) 0xffffff) c

/-- A whole XGEM payload of port entry i goes where its KIND says (R252, R260, R264): data with its FCS checked. -/
def deliverXgem (s : State) (c i : Nat) (b : List Byte) (m : Mark) : State :=
  match rdF s fPON_PORTB_KIND c (2 * i) with
  | 1 => toAgent (downloadSection s c b) c (rdF s fPON_AGENTS_OMCI c) b m
  | 2 => containerIn s (16 * c + rdF s fPON_PORTB_TRIBNO c (2 * i)) b
  | _ =>
    let f := { lineFrame s (0x40 + c) 0 (b.take (b.length - 4)) with mark := m }
    addFlight s { id := 0, stage := 0, frame := f, ended := true, bad := if fcsGood b then 0 else 2, icv := .none, dest := .none,
                  port := none, rxLen := b.length, decided := false, cls := 0, prot := false, of_ := none }

/-- A chain of a port-ID is not followed any more, without a count of its own. -/
def dropChain (s : State) (c id : Nat) (rest : Bool) : State :=
  let x := ponCh s c
  setPon s c { x with frag := tset (fun _ => none) x.frag id none, broken := tset (fun _ => false) x.broken id rest }

/-- A fragment of a frame whose payload is open: the first one breaks a chain that is still open, and the last one delivers the whole frame
(R252). -/
def joinXgem (s : State) (c i port : Nat) (first last : Bool) (b : List Byte) : State :=
  let isOpen := (tget (fun _ => none) (ponCh s c).frag port).isSome
  let s := if first && isOpen then breakChain s c port else s
  let old := if first then some ([], now s) else tget (fun _ => none) (ponCh s c).frag port
  match old with
  | none => breakChain s c port
  | some (h, m) =>
    let s := dropChain s c port false
    if last then deliverXgem s c i (h ++ b) m
    else setPon s c { ponCh s c with frag := tset (fun _ => none) (ponCh s c).frag port (some (h ++ b, m)) }

/-- An XGEM frame or fragment (R251 to R253, R267): where the buffer toward the fabric is full the whole frame is discarded under the overload cause
(R86). -/
def xgemIn (s : State) (c port key pos : Nat) (first last corrected full : Bool) (b : List Byte) : State :=
  let s := if corrected then count s 5 kPonHec c else s
  match portEntry s c port with
  | none => count s 5 kPonPort c
  | some i =>
    match openPayload s c (rdF s fPON_PORTB_KIND c (2 * i)) key pos b with
    | none =>
      let s := count s 5 kPonKey c
      if first && last then s else breakChain s c port
    | some b =>
      if full then dropChain (overload s (0x100 + c)) c port (!last)
      else joinXgem s c i port first last b

/-- The VALID allocation of channel c with an Alloc-ID (R272, R280). -/
def allocOf (s : State) (c id : Nat) : Option Nat :=
  (List.range 24).find? fun a => onF s fPON_ALLOCA_VALID c (2 * a) && rdF s fPON_ALLOCA_ALLOCID c (2 * a) == id

/-- Whether an ONU-ID is the channel's own (R260). -/
def ownOnu (s : State) (c onu : Nat) : Bool := onF s fPON_ONUID_IDVALID c && onu == rdF s fPON_ONUID_ID c

/-- One thing that a downstream frame carries, taken by channel c (R231, R250 to R262, R272). -/
def itemIn (c : Nat) (s : State) (i : PonItem) : State :=
  match i with
  | .xgem port key pos first last corrected full b => if active s 5 c then xgemIn s c port key pos first last corrected full b else s
  | .lost n ports => ports.foldl (fun s p => breakChain s c p) (count s 5 kPonSpan c n)
  | .ploam b =>
    if !(ownOnu s c (ploamOnu b) || ploamOnu b == 0x3ff) || !active s 5 c then s
    else if !micHolds s c b then emit0 (count s 5 kPonMic c) 0x140012
    else toAgent s c (rdF s fPON_AGENTS_PLOAM c) b (now s)
  | .grant id prof len start dbru ploam =>
    if actst s c ≠ 5 ∨ !active s 5 c then s
    else match allocOf s c id with
      | some a => noteGrant (setPon s c { ponCh s c with grants := (ponCh s c).grants ++ [⟨some a, prof, len, dbru, ploam, start, s.sys.ticks⟩] }) c len
      | none => s
  | .serialGrant =>
    if actst s c = 2 ∧ active s 5 c then
      let r := takeRandom 2 s
      setPon r.2 c { ponCh r.2 c with snGrant := some (ofBytes r.1) }
    else s
  | .rangingGrant onu prof len start =>
    if actst s c = 4 ∧ ownOnu s c onu ∧ active s 5 c then
      setPon s c { ponCh s c with grants := (ponCh s c).grants ++ [⟨none, prof, len, false, true, start, s.sys.ticks⟩] }
    else s
  | .fec bits words bad => count (count (count s 5 (kPonFec 0) c bits) 5 (kPonFec 1) c words) 5 (kPonFec 2) c bad
  | .power l =>
    if (ponCh s c).burst.isSome then setPon s c { ponCh s c with level := some l } else wrF s fOPT_OSTAT_PLEVEL l c

/-- The armed superframe's PSBd is postmarked; the four words carry one sequence (R275). -/
def captureSfc (s : State) (c superframe : Nat) : State :=
  if (ponCh s c).sfc ≠ some (superframe % 2 ^ 48) then s
  else
    let m := now s
    let s := setPon s c { ponCh s c with sfc := none }
    let s := result (result s fPON_SFCTS_S (m.s % 2 ^ 24) c) fPON_SFCTNH_NH (m.n / 2 ^ 24) c
    result (result s fPON_SFCTNL_NL (m.n % 2 ^ 24) c) fPON_SFCTG_G (m.g % 2 ^ 24) c

/-- A second PSBd in a row sets LOCK; a channel in O6 whose hold runs goes back to O5 at once (R250, R256). -/
def psbdSeen (s : State) (c : Nat) : State :=
  let x := ponCh s c
  let s := setPon s c { x with seen := min (x.seen + 1) 2 }
  if x.seen + 1 < 2 ∨ onF s fPON_CHSTAT_LOCK c then s
  else
    let s := wrF (wrF s fPON_CHSTAT_LOCK 1 c) fPON_CHSTAT_LODS 0 c
    if actst s c = 6 ∧ x.hold.isSome then setAct s c 5 else s

/-- A downstream PHY frame at the expected spacing (R250 to R268, R272, R275, R289): frame-boundary changes apply, and a locked channel
takes what the frame carries. -/
def execDownstreamFrame (c : Chan) (superframe : Nat) (items : List PonItem) (s : State) : Out :=
  if !live s || ustat s 5 c == 0 || ustat s 5 c == 3 || onF s fOPT_OSTAT_LOS c || !onF s fOPT_OSTAT_RXREADY c ||
     (ponCh s c).pllLost then .next s
  else
    let s := psbdSeen (setPon s c { ponCh s c with super := superframe }) c
    let s := swapChannel s c
    let s := match (ponCh s c).act with
      | some a => setAct s c a
      | none => s
    if !onF s fPON_CHSTAT_LOCK c then .next s
    else
      let s := items.foldl (itemIn c) (captureSfc s c superframe)
      .next (tribFrameEnd s c (onF s fPON_CHSTAT_LOCK c && onF s fPON_CHSTAT_OPER c))

/-! ## Upstream -/

/-- The port node of allocation a of channel c (R270). -/
def allocNode (c a : Nat) : Nat := 32 + 24 * c + a

/-- Whether the optical slot of channel c lets a burst out (R230, R233, R243). -/
def mayEmit (s : State) (c : Nat) : Bool :=
  active s 4 c && onF s fOPT_OSTAT_TXREADY c && !onF s fOPT_OSTAT_CUT c && !onF s fOPT_OSTAT_LOS c

/-- The XGEM payload of an Ethernet frame: with its FCS, or one made invalid where the frame is poisoned (R272). -/
def upPayload (f : Frame) : Frame := { f with bytes := f.bytes ++ (if f.poison then invert (fcsOf f.bytes) else fcsOf f.bytes) }

/-- How many bytes of a payload of n bytes go into a burst with so many free, each piece with a header of 8 bytes: all, or as many as
leave no fragment under 8 bytes, or none (R272). -/
def fragmentSize (free n : Nat) : Nat :=
  if n + 8 ≤ free then n else if 16 ≤ min (free - 8) (n - 8) + 8 ∧ 16 ≤ n then min (free - 8) (n - 8) else 0

/-- The port entry that allocation a's frames carry (R279). -/
def upPort (s : State) (c a : Nat) : Nat := rdF s fPON_ALLOCB_UPORT c (2 * a)

/-- The key index of allocation a's payloads in a burst of key index k: 0, clear, where its port entry asks for no encryption (R267, R268). -/
def upIndex (s : State) (c a k : Nat) : Nat := if onF s fPON_PORTB_UENC c (2 * upPort s c a) then k else 0

/-- The key under upstream index 1 or 2, if its key word is VALID and its slot usable (R267, R269). -/
def upKey (s : State) (c k : Nat) : Option (List Nat) :=
  if onF s fPON_UKEY1_VALID c (k - 1) then keyIn s (rdF s fPON_UKEY1_SLOT c (k - 1)) 0 else none

/-- Whether a payload for allocation a can be ciphered in a burst of key index k (R267, R269). -/
def upKeyOk (s : State) (c a k : Nat) : Bool := upIndex s c a k == 0 || (upKey s c (upIndex s c a k)).isSome

/-- A piece of a payload put into the open burst of channel c for allocation a, ciphered as the burst's key index says, behind a header of 8 bytes
(R267, R268, R272). -/
def putPiece (s : State) (c a : Nat) (f : Frame) (last : Bool) : State :=
  match (ponCh s c).burst with
  | none => s
  | some b =>
    let k := upIndex s c a b.key
    let bytes := match k, upKey s c k with
      | 0, _ => f.bytes
      | _, some key => payloadCtr key true b.super (b.grant.len - b.free + 8) f.bytes
      | _, none => f.bytes
    setPon s c { ponCh s c with burst := some { b with
      sent := b.sent ++ [⟨rdF s fPON_PORTA_PORTID c (2 * upPort s c a), k, last, { f with bytes := bytes }⟩]
      free := b.free - 8 - f.bytes.length } }

/-- A payload put into the open burst of channel c for allocation a: one whose key is in error is discarded and counted, and what does not fit waits
for the allocation's next burst (R269, R272, R454). -/
def putPayload (s : State) (c a : Nat) (f : Frame) : State :=
  match (ponCh s c).burst with
  | none => s
  | some b =>
    let setRest := fun (s : State) r => { s with sch := { s.sch with rest := tset (fun _ => none) s.sch.rest (allocNode c a) r } }
    if !upKeyOk s c a b.key then setRest (count s 5 kPonUpKey c) none
    else
      let k := fragmentSize b.free f.bytes.length
      let rest := f.bytes.drop k
      let s := if k = 0 then setPon s c { ponCh s c with burst := some { b with free := 0 } }
        else putPiece s c a { f with bytes := f.bytes.take k } rest.isEmpty
      setRest s (if rest = [] then none else some { f with bytes := rest })

/-- Containers of a tributary put into the open burst for allocation a while they fit; one whose key is in error is discarded and counted (R269, R281,
R291). The first argument bounds their number. -/
def putContainers : Nat → State → Nat → Nat → Nat → State
  | 0, s, _, _, _ => s
  | k + 1, s, c, a, q =>
    match (ponCh s c).burst with
    | none => s
    | some b =>
      if b.free < 276 ∨ !((connOf s q).valid && (connOf s q).us && active s 6 0) then s
      else match nextContainer s q with
        | none => s
        | some (x, s) =>
          if upKeyOk s c a b.key then putContainers k (putPiece s c a (lineFrame s 0xff 0 x) true) c a q
          else putContainers k (count s 5 kPonUpKey c) c a q

/-- The buffer report of an allocation: bytes of its visible frames, FCS included, and 8 for each, rounded up to words of 4 bytes and at most what 24
bits hold (R273; the unit and the field, assumption log 17, PRESUMED). -/
def bufferReport (s : State) (n : Nat) : Nat :=
  min 0xffffff (((s.qm.queues.map fun x =>
    if (pathOf s x.1).any fun p => p.2.2 == n then (x.2.frames.map fun f => f.frame.bytes.length + 12).sum else 0).sum + 3) / 4)

/-- The upstream PLOAM of a burst with its MIC: the oldest queued, or the empty acknowledgement of ITU-T G.9804.2, which the spec does not give and is
free bytes. Without a usable key its MIC is free bytes as well (R260 to R262, assumption log 2). -/
def takePloam (s : State) (c : Nat) : List Byte × State :=
  let x := ponCh s c
  let r := match x.ploams with
    | [] => takeBytes 40 s
    | p :: l => (p, wrF (setPon s c { x with ploams := l }) fPON_PUCOUNT_N l.length c)
  match makeKey r.2 c with
  | some k => (r.1 ++ ploamMic k 2 r.1, r.2)
  | none =>
    let m := takeBytes 8 r.2
    (r.1 ++ m.1, m.2)

/-- Bytes 0 to 7 of a pattern that three words hold (R279). -/
def eightBytes (s : State) (f : Fld) (c p : Nat) : List Byte :=
  (((List.range 3).map fun k => wordBytes (rdW s (fAddr f c (p + k)))).flatten).take 8

/-- The preamble and the delimiter of burst profile p (R279). -/
def burstHead (s : State) (c p : Nat) : List Byte :=
  (List.replicate (rdF s fPON_BPROF_PRELEN c (8 * p)) (eightBytes s fPON_BPROFP0_PRE c (8 * p))).flatten ++
  eightBytes s fPON_BPROFD0_DELIM c (8 * p)

/-- When a grant's burst starts, in periods of 1 / 49.7664 GHz after its frame: StartTime, the equalisation delay in force and the response time
(R259). -/
def burstTime (s : State) (c : Nat) (g : Grant) : Nat := g.start + rdF s fPON_EQD_D c + rdF s fPON_RSPT_T c

/-- Whether a grant's burst is due by the end of this tick; a tick of 1.6 ns is 79.62624 periods (R259). -/
def burstDue (s : State) (c : Nat) (g : Grant) : Bool :=
  decide (burstTime s c g * 100000 < (s.sys.ticks + 1 - g.at_) * 7962624)

/-- The burst of a grant as it opens (R259, R268, R273, R279). -/
def openBurst (s : State) (c : Nat) (g : Grant) (ploam : Option (List Byte)) : Burst :=
  let trib := g.alloc.any fun a => onF s fPON_ALLOCA_TRIB c (2 * a)
  let report := match g.alloc with
    | some a => if trib then 0 else bufferReport s (allocNode c a)
    | none => 0
  { grant := g, start := burstTime s c g, openAt := s.sys.ticks, head := burstHead s c g.prof, fec := onF s fPON_BPROF_FEC c (8 * g.prof),
    key := rdF s fPON_UKSEL_IDX c, super := (ponCh s c).super, sent := [], free := g.len, ploam := ploam,
    report := if g.dbru then some report else none }

/-- What an open burst carries first: the containers of a tributary allocation, or what is left of its allocation's last frame (R272, R281,
R454). -/
def beginBurst (s : State) (c : Nat) (g : Grant) : State :=
  match g.alloc with
  | none => s
  | some a =>
    if onF s fPON_ALLOCA_TRIB c (2 * a) then putContainers (g.len / 276) s c a (16 * c + rdF s fPON_ALLOCA_TRIBNO c (2 * a))
    else match tget (fun _ => none) s.sch.rest (allocNode c a) with
      | some r => putPayload s c a r
      | none => s

/-- A grant's burst falls due: missed, or open (R230, R259, R262, R272, R273, R281, R454). -/
def execBurstStart (c : Chan) (s : State) : Out :=
  let x := ponCh s c
  match x.grants, x.burst with
  | g :: l, none =>
    if !live s || !burstDue s c g then .next s
    else
      let s := setPon s c { x with grants := l }
      let p := 8 * g.prof
      if gatedChan s c then .next (count (count s 5 kPonMissed c) 0x17 kPairMissed c)
      else if 4 ≤ g.prof ∨ !onF s fPON_BPROF_VALID c p ∨ rdF s fPON_BPROF_RATE c p ≠ rdF s fOPT_OCFG_RATE c then
        .next (emit0 (count s 5 kPonMissed c) 0x140013)
      else if !mayEmit s c then .next (count s 5 kPonMissed c)
      else
        let pl := if g.ploam then (let r := takePloam s c; (some r.1, r.2)) else (none, s)
        let s := setPon pl.2 c { ponCh pl.2 c with burst := some (openBurst pl.2 c g pl.1) }
        .next (beginBurst s c g)
  | _, _ => .next s

/-- A burst ends at its grant end; what is free in it has been filled with idle framing (R231, R272). -/
def execBurstEnd (c : Chan) (s : State) : Out := if live s then .next (endBurst s c) else .next s

/-- The Serial_Number_ONU reply, with the serial number as read at O1, is sent once its random delay has passed; without light it is a missed burst
(R230, R247, R254, R255). -/
def execSerialNumberReply (c : Chan) (s : State) : Out :=
  let x := ponCh s c
  if !live s || x.snGrant.isNone then .next s
  else
    let s := setPon s c { x with snGrant := none }
    if gatedChan s c then .next (count (count s 5 kPonMissed c) 0x17 kPairMissed c)
    else if mayEmit s c then .next (setPon s c { ponCh s c with replies := x.replies + 1, said := x.serial }) else .next (count s 5 kPonMissed c)

/-- The 40 bytes of PUDATA (R279). -/
def pudata (s : State) (c : Nat) : List Byte :=
  (((List.range 14).map fun k => wordBytes (rdW s (fAddr fPON_PUDATA_BYTES c k))).flatten).take 40

/-- PUGO: PUDATA is queued, or discarded while four are queued (R260, R262). -/
def execPloamUpstreamGo (e : Eng) (c : Chan) (v : Word) (s : State) : Out :=
  onSet s e (fAddr fPON_PUGO_GO c 0) v fun s =>
    let x := ponCh s c
    if !bitOf v.toNat 0 then s
    else if 4 ≤ x.ploams.length then count s 5 kPonPloam c
    else wrF (setPon s c { x with ploams := x.ploams ++ [pudata s c] }) fPON_PUCOUNT_N (x.ploams.length + 1) c

/-- SFCARM arms one capture (R275). -/
def execSfcCaptureArm (e : Eng) (c : Chan) (v : Word) (s : State) : Out :=
  onSet s e (fAddr fPON_SFCARM_ARM c 0) v fun s =>
    if bitOf v.toNat 0 then setPon s c { ponCh s c with sfc := some (rdF s fPON_SFCM1_SFC c * 2 ^ 24 + rdF s fPON_SFCM0_SFC c) } else s

/-- A SET of DLCTL: DLARM as given, a 1 clears DLERR, and DLCNT counts from 0 again once DLARM is set (R266). -/
def setDlctl (s : State) (c : Nat) (v : Word) : State :=
  let was := onF s fPON_DLCTL_DLARM c
  let s := setNow s (fAddr fPON_DLCTL_DLARM c 0) v.toNat
  if !was && onF s fPON_DLCTL_DLARM c then result s fPON_DLCNT_N 0 c else s

/-- A SET of DLCTL with bit 1 set clears DLERR (R266). -/
def execDlerrClear (e : Eng) (c : Chan) (v : Word) (s : State) : Out :=
  if bitOf v.toNat 1 then onSet s e (fAddr fPON_DLCTL_DLARM c 0) v fun s => setDlctl s c v else .next s

/-- In watchful sleep the receiver of a channel is powered on or off on PON's schedule (R244, R276). -/
def execWatchfulSleepReceiverCycle (c : Chan) (on : Bool) (s : State) : Out :=
  if live s && rdF s fPON_CHSTAT_PSM c == 2 && active s 4 c then
    .next (wrF s fOPT_OSTAT_RXREADY (b2n (on && !onF s fOPT_OSTAT_LOS c)) c)
  else .next s

/-- The PON framer's PLL loses lock: a class L fault of the channel's domain, whose recovery relocks it (R91, R615). -/
def execPonFramerPllLockLoss (c : Chan) (s : State) : Out :=
  if !live s || (ponCh s c).pllLost then .next s
  else
    let s := lods (setPon s c { ponCh s c with pllLost := true }) c
    .next (raiseFault (emit0 s 0x140016) 0x140016 c)

end Sys2Proof.Machine
end

