-- ==== Sys2Proof/Machine/Log.lean ====
section
/-! DEFINITION. The event recorder, the life journal and the tag area (R643 to R658, R94). -/
namespace Sys2Proof.Machine

/-- Counter kind of LOG: records refused or dropped (R646). -/
def kLogDrop : Nat := 0

/-- Whether a code is one of LOG's own. -/
def ownCode (c : Nat) : Bool := 0x680000 ≤ c && c < 0x6c0000

/-- Whether an event is the record of an H fault (R646): 0x440_011 is one where its unit says so. -/
def hRecord (x : Ev) : Bool := x.hfault || [0x580022, 0x400010, 0x400011, 0x400012, 0x600015].contains x.code

/-- Positions for ordinary records, and all positions (R646). -/
def ordinaryRoom : Nat := 262080
/-- All positions. -/
def allRoom : Nat := 262144

/-- RSTAT and RDROP as the recorder stands; only committed records count (R648, R658). -/
def logStat (s : State) : State :=
  wrF (wrF (wrF s fLOG_RSTAT_COUNT (min s.log.recs.length 524287)) fLOG_RSTAT_FULL (b2n s.log.full)) fLOG_RDROP_N (min s.log.drop 0xffffff)

/-- The commit buffer committed (R94). -/
def flush (s : State) : State :=
  logStat { s with log := { s.log with recs := s.log.recs ++ s.log.buf, buf := [] } }

/-- A record refused or dropped (R646). -/
def dropRecord (s : State) : State :=
  logStat (count { s with log := { s.log with drop := s.log.drop + 1 } } 0x1a kLogDrop 0)

/-- A record stored with the next sequence number, reserving the next 64 where none is left; a full commit buffer is committed
(R94, R643, R645). -/
def storeRecord (s : State) (x : Ev) (supp : Nat) : State :=
  let l := s.log
  let r : Rec := { seq := l.nextSeq, life := life s % 65536, sec := x.mark.s % 2 ^ 48, ns := x.mark.n, gen := x.mark.g % 256,
                   supp := min supp 255, code := x.code, p1 := x.p1, p2 := x.p2, p3 := x.p3 }
  let s := { s with log := { l with
    buf := l.buf ++ [r], nextSeq := l.nextSeq + 1, reserved := if l.nextSeq = l.reserved then l.reserved + 64 else l.reserved } }
  let s := if l.buf.isEmpty then setPace s paceBuffer else s
  if 64 ≤ s.log.buf.length then flush s else s

/-- Where the next record would stand. -/
def nextPos (s : State) : Nat := s.log.recs.length + s.log.buf.length

/-- A record of LOG's own, stored while any position remains (R646, R647). -/
def ownRecord (s : State) (code p1 p2 p3 : Nat) : State :=
  if nextPos s < allRoom then storeRecord s ⟨code, p1 % 2 ^ 24, p2 % 2 ^ 24, p3 % 2 ^ 24, now s, false⟩ 0 else dropRecord s

/-- The LIFEMARK record (R644). -/
def lifemark (s : State) : State := ownRecord s 0x680010 (life s / 2 ^ 24) (life s) s.time.gen

/-- Credit of a code (R647). -/
def creditOf (s : State) (c : Nat) : Nat := tget (fun _ => 16) s.log.credit c

/-- Suppressed records of a code (R647). -/
def suppOf (s : State) (c : Nat) : Nat := tget (fun _ => 0) s.log.supp c

/-- A record of code c suppressed (R647). -/
def suppress (s : State) (c : Nat) : State :=
  { s with log := { s.log with supp := tset (fun _ => 0) s.log.supp c (suppOf s c + 1)
                               suppAt := tset (fun _ => 0) s.log.suppAt c s.sys.ticks } }

/-- A record of code c taken from its credit, its suppressed count restarting (R647). -/
def spend (s : State) (c : Nat) (exempt : Bool) : State :=
  { s with log := { s.log with
      supp := tset (fun _ => 0) s.log.supp c 0
      credit := if exempt then s.log.credit else tset (fun _ => 16) s.log.credit c (creditOf s c - 1) } }

/-- What LOG makes of an event (R646, R647): after a halt only its own records and those of H faults; a code without credit is
suppressed; past the ordinary positions only its own and those of H faults; the last ordinary position brings FULL. -/
def takeEvent (s : State) (x : Ev) : State :=
  let own := ownCode x.code
  let h := hRecord x
  let exempt := own || h || x.code == 0x4c0010 || x.code == 0x4c0011
  if s.sys.halted && !own && !h then dropRecord s
  else if !exempt && creditOf s x.code = 0 then suppress s x.code
  else if nextPos s < ordinaryRoom && !s.log.full then
    let s := storeRecord (spend s x.code exempt) x (suppOf s x.code)
    if nextPos s = ordinaryRoom then
      let s := ownRecord { s with log := { s.log with full := true } } 0x680012 0 0 0
      logStat s
    else s
  else if (own || h) && nextPos s < allRoom then storeRecord (spend s x.code exempt) x (suppOf s x.code)
  else dropRecord s

/-- The oldest event offered reaches LOG (R645 to R647); one that matches CEVT is a trigger of the capture ring (R640). -/
def execEventRecord (s : State) : Out :=
  match s.log.raised with
  | x :: l =>
    if !alwaysOn s then .next s
    else
      let s := takeEvent { s with log := { s.log with raised := l } } x
      .next (if onF s fCNT_CEVEN_EN && rdF s fCNT_CEVT_CODE == x.code && cntRuns s then captureTrigger s else s)
  | [] => .next s

/-- The commit buffer is committed whole, 10 ms, 6,250,000 ticks, after its first record (R94). -/
def execCommitBufferFlush (s : State) : Out :=
  if !alwaysOn s || s.log.buf.isEmpty || !paced s paceBuffer 6250000 then .next s else .next (flush s)

/-- A credit instant: the counter has advanced a further 15,625,000 ns, and each credit below 16 gains one (R647). -/
def execCreditInstant (s : State) : Out :=
  if s.time.adv < s.time.credited + 15625000 then .next s
  else .next { s with
    time := { s.time with credited := s.time.credited + 15625000 }
    log := { s.log with credit := s.log.credit.foldl (fun t x => tset (fun _ => 16) t x.1 (min 16 (creditOf s x.1 + 1))) s.log.credit } }

/-- A suppressed count that has waited 1 s, 625,000,000 ticks, is written as SUPPRESSED (R647). -/
def execSuppressedRecord (code : BitVec 24) (s : State) : Out :=
  let c := code.toNat
  if !alwaysOn s || suppOf s c = 0 || s.sys.ticks < tget (fun _ => 0) s.log.suppAt c + 625000000 then .next s
  else
    let n := suppOf s c
    .next (ownRecord { s with log := { s.log with supp := tset (fun _ => 0) s.log.supp c 0 } } 0x680015 c n 0)

/-- The most-worn block of an area erased once more: past 90,000 cycles its WEAR bit is set and event 0x680_016 recorded; area 1 is the
recorder and 2 the journal (R651, R653, R658). -/
def wearOf (s : State) (area : Nat) : State :=
  let k := 77 + area
  let n := tget (fun _ => 0) s.log.journal k + 1
  let s := { s with log := { s.log with journal := tset (fun _ => 0) s.log.journal k n } }
  if n = 90001 then emit0 (wrF s fLOG_WEAR_AREA (rdF s fLOG_WEAR_AREA ||| 2 ^ area)) 0x680016 else s

/-- RCTL CLEAR with 0xA5: the commit buffer is committed, the recorder erased, CLEARED written at position 0 with the last sequence
and DROP, and a LIFEMARK after it; cursors return to 0. A window latched before keeps its record (R649, R650). -/
def execRecorderClear (e : Eng) (v : BitVec 24) (s : State) : Out :=
  onSet s e (fAddr fLOG_RCTL_CLEAR 0 0) v fun s =>
    if !bitOf v.toNat 0 || bitsOf v.toNat 16 8 != 0xa5 then s
    else
      let last := s.log.nextSeq - 1
      let drop := min s.log.drop 0xffffff
      let s := { flush s with log := { (flush s).log with recs := [], drop := 0, full := false } }
      let s := lifemark (ownRecord s 0x680011 (last / 2 ^ 24) last drop)
      let s := wrF (wrF (wrF s fLOG_HCUR_POS 0) fLOG_ECUR_POS 0) fLOG_ECUR_POS 0 0 16
      logStat (wearOf s 1)

/-! ## Reading -/

/-- A record as its 32 bytes (R643). -/
def recBytes (r : Rec) : List Byte :=
  toBytes 6 r.seq ++ toBytes 2 r.life ++ toBytes 6 r.sec ++ toBytes 4 r.ns ++ toBytes 1 r.gen ++ toBytes 1 r.supp ++ toBytes 3 r.code ++
    toBytes 3 r.p1 ++ toBytes 3 r.p2 ++ toBytes 3 r.p3

/-- A latched record's bytes; a position that holds none reads as zeros (R648). -/
def latchBytes (r : Option Rec) : List Byte := (r.map recBytes).getD (List.replicate 32 0)

/-- The host reads the first word of its window: the record at its cursor is latched (R648). -/
def execHostRecordLatch (s : State) : Out :=
  if !hostUp s || s.sys.phase == .off || s.sys.phase == .rails || s.sys.phase == .asleep then .next s
  else
    let r := s.log.recs[rdF s fLOG_HCUR_POS]?
    .next { s with log := { s.log with hostLatch := r }, hst := { s.hst with hostRead := ofBytes (bytesAt (latchBytes r) 0 4) } }

/-- The host reads the last word of its window: the cursor moves on by one, unless the position held no record (R648). -/
def execHostRecordAdvance (s : State) : Out :=
  if !hostUp s || s.sys.phase == .off || s.sys.phase == .rails || s.sys.phase == .asleep then .next s
  else
    let s := { s with hst := { s.hst with hostRead := ofBytes (bytesAt (latchBytes s.log.hostLatch) 28 4) } }
    .next (if s.log.hostLatch.isSome then wrF s fLOG_HCUR_POS (rdF s fLOG_HCUR_POS + 1) else s)

/-- The eleven words of an engine cursor set (R658). -/
def engWords (r : Option Rec) : List Nat :=
  match r with
  | none => List.replicate 11 0
  | some r => [r.seq / 2 ^ 24, r.seq, r.life * 256 + r.gen, r.sec / 2 ^ 24, r.sec, r.ns / 2 ^ 24 * 256 + r.supp, r.ns, r.code, r.p1, r.p2, r.p3]

/-- GET of EW0: the record at the set's cursor is latched, and its eleven words read it (R648, R658). -/
def execEngineRecordLatch (e : Eng) (k : Fin 2) (s : State) : Out :=
  let a := fAddr fLOG_EW0_SEQ 0 (16 * k)
  if !getReady s e a then .next s
  else
    let r := s.log.recs[rdF s fLOG_ECUR_POS 0 (16 * k)]?
    let s := { s with log := { s.log with engLatch := tset (fun _ => none) s.log.engLatch k r } }
    let s := (engWords r).zipIdx.foldl (fun s x => wrW s (a + x.2) (wd x.1)) s
    .next (answer s e (some (rdW s a)))

/-- GET of EW10: the set's cursor moves on by one, unless the position held no record (R648). -/
def execEngineRecordAdvance (e : Eng) (k : Fin 2) (s : State) : Out :=
  let a := fAddr fLOG_EW10_P3 0 (16 * k)
  if !getReady s e a then .next s
  else
    let s' := if (tget (fun _ => none) s.log.engLatch k).isSome then wrF s fLOG_ECUR_POS (rdF s fLOG_ECUR_POS 0 (16 * k) + 1) 0 (16 * k) else s
    .next (answer s' e (some (rdW s a)))

/-! ## Journal -/

/-- A journal entry: the life counter plus 60 s, and every other counter as it stands (R652). -/
def commitJournal (s : State) : State :=
  { s with log := { s.log with kept := tset (fun _ => 0) s.log.journal 0 (life s + 60) } }

/-- A journal entry falls due (R652). -/
def execJournalCommit (worn : Bool) (s : State) : Out :=
  if !alwaysOn s then .next s else .next (commitJournal (if worn then wearOf s 2 else s))

/-- The life counter's low 16 bits have wrapped: LOG writes a LIFEMARK (R644). -/
def execLifeCounterWrap (s : State) : Out :=
  if !s.log.wrapped || !alwaysOn s then .next s else .next (lifemark { s with log := { s.log with wrapped := false } })

/-- The journal counter n more. -/
def journalAdd (s : State) (k : Nat) : State :=
  { s with log := { s.log with journal := tset (fun _ => 0) s.log.journal k (tget (fun _ => 0) s.log.journal k + 1) } }

/-- The band of a junction temperature in 0.1 °C: LSEL 5 to 11 (R651). -/
def tjBand (t : Int) : Nat :=
  if t < 0 then 5 else if t < 400 then 6 else if t < 700 then 7 else if t < 850 then 8 else if t < 1100 then 9 else if t < 1250 then 10 else 11

/-- What a second adds to the journal: the life counter, the junction temperature's band, and the channels at raised refresh (R651). An entry that has
not been committed when the life counter reaches the value stored last is committed now, so that no value is ever shown twice (R94, R652). -/
def journalSecond (s : State) : State :=
  let s := { journalAdd s 0 with log := { (journalAdd s 0).log with wrapped := s.log.wrapped || (life s + 1) % 65536 == 0 } }
  let s := if tget (fun _ => 0) s.log.kept 0 ≤ life s then commitJournal s else s
  let s := if isReady s (fAddr fPWR_TJ_T 0 0) then journalAdd s (tjBand (sext (rdF s fPWR_TJ_T) 16)) else s
  (List.range 32).foldl (fun s c =>
    let r := rdF s fMEM_CHSTAT_REFX 0 c
    if r = 1 then journalAdd s (12 + c) else if r = 2 then journalAdd s (44 + c) else s) s

/-! ## Tag area -/

/-- TRES written (R657, R658). -/
def tagRes (s : State) (why : Nat) : State := result s fLOG_TRES_STATE (b2n (why != 0) + 2 * why)

/-- TRADDR: 48 bytes latched into TRD0 to TRD15 (R657). Bytes past the area's end are free values (assumption log 2). -/
def execTagReadLatch (e : Eng) (v : BitVec 24) (s : State) : Out :=
  onSet s e (fAddr fLOG_TRADDR_A 0 0) v fun s =>
    let a := bitsOf v.toNat 0 12
    let n := min 48 (4096 - a)
    let f := takeBytes (48 - n) (wrF s fLOG_TRADDR_A a)
    let b := (List.range n).map (fun k => tagByte f.2 (a + k)) ++ f.1
    (packWords b).zipIdx.foldl (fun s x => wrW s (fAddr fLOG_TRD0_D 0 x.2) x.1) f.2

/-- Whether block b is locked (R657). -/
def tagLocked (s : State) (b : Nat) : Bool := bitOf s.log.lockT b || bitOf s.log.lockP b

/-- Bytes of TBUF. -/
def tagBuf (s : State) (n : Nat) : List Byte :=
  (((List.range 86).map fun k => wordBytes (rdW s (fAddr fLOG_TBUF0_D 0 k))).flatten).take n

/-- TGO op 1: a write begins, or is refused: WHY 1 while another runs, 2 for its span, 3 for a locked block (R657). -/
def execTagWrite (e : Eng) (v : BitVec 24) (s : State) : Out :=
  if bitsOf v.toNat 0 2 != 1 then .next s
  else onSet s e (fAddr fLOG_TGO_OP 0 0) v fun s =>
    let a := rdF s fLOG_TWADDR_A
    let n := rdF s fLOG_TWLEN_N
    if s.log.tagOp.isSome then tagRes s 1
    else if n = 0 ∨ 256 < n ∨ 256 < a % 256 + n then tagRes s 2
    else if tagLocked s (a / 256) then tagRes s 3
    else { s with log := { s.log with tagOp := some ⟨1, a / 256, a, tagBuf s n⟩ } }

/-- A block locked, until reset or for good: event 0x680_014 (R657). -/
def lockBlock (s : State) (op b : Nat) : State :=
  let l := s.log
  let s := if op = 2 then { s with log := { l with lockT := putBits l.lockT b 1 1 } } else { s with log := { l with lockP := putBits l.lockP b 1 1 } }
  tagRes (emit0 (wrF (wrF s fLOG_TLOCKT_B s.log.lockT) fLOG_TLOCKP_B s.log.lockP) 0x680014) 0

/-- A lock asked for: while a write to that block runs it waits for the write, and another operation refuses it (R657). -/
def askLock (s : State) (op b : Nat) : State :=
  match s.log.tagOp with
  | some t => if t.block = b then { s with log := { s.log with tagNext := s.log.tagNext ++ [⟨op, b, 0, []⟩] } } else tagRes s 1
  | none => lockBlock s op b

/-- TGO op 2: the block is locked to the next reset (R657). -/
def execTagLockToReset (e : Eng) (v : BitVec 24) (s : State) : Out :=
  if bitsOf v.toNat 0 2 != 2 then .next s
  else onSet s e (fAddr fLOG_TGO_OP 0 0) v fun s => askLock s 2 (bitsOf v.toNat 4 4)

/-- TGO op 3 with 0xA5: the block is locked for good; without it the operation is refused, WHY 4 (R657). -/
def execTagLockPermanent (e : Eng) (v : BitVec 24) (s : State) : Out :=
  if bitsOf v.toNat 0 2 != 3 then .next s
  else onSet s e (fAddr fLOG_TGO_OP 0 0) v fun s =>
    if bitsOf v.toNat 16 8 != 0xa5 then tagRes s 4 else askLock s 3 (bitsOf v.toNat 4 4)

/-- The running tag write commits: its bytes stand, the journal counts it, event 0x680_013 names the block, and locks that waited apply
(R657). -/
def execTagWriteCommit (s : State) : Out :=
  match s.log.tagOp with
  | some t =>
    if !alwaysOn s then .next s
    else
      let l := s.log.tagNext
      let tag := (t.data.mapIdx fun k b => (t.addr + k, b)).foldl (fun m x => tset (fun _ => 0) m x.1 x.2) s.log.tag
      let s := { s with log := { s.log with tag := tag, tagOp := none, tagNext := [] } }
      .next (l.foldl (fun s x => lockBlock s x.op x.block) (tagRes (emit1 (journalAdd s (80 + t.block)) 0x680013 t.block) 0))
  | none => .next s

/-- A keeper write of 1 clears the failed-wake cause's PRESENT (R11, R654, R658). -/
def execFwcauseClear (e : Eng) (v : BitVec 24) (s : State) : Out :=
  onSet s e (fAddr fLOG_FWCAUSE_CAUSE 0 0) v fun s => if bitOf v.toNat 8 then wrF s fLOG_FWCAUSE_PRESENT 0 else s

end Sys2Proof.Machine
end

