-- ==== Sys2Proof/Machine/Opt.lean ====
section
/-! DEFINITION. The PON optical front end: light, readiness, wavelength lock, the laser latch and its watchdog, monitoring (R226 to
R245). -/
namespace Sys2Proof.Machine

/-- Received power below -31 dBm for 2 µs: LOS, the receiver is not ready, and PON loses synchronisation at once (R233, R250). -/
def execLosSet (c : Chan) (s : State) : Out :=
  if !live s || onF s fOPT_OSTAT_LOS c then .next s
  else
    let s := wrF (wrF s fOPT_OSTAT_LOS 1 c) fOPT_OSTAT_RXREADY 0 c
    .next (lods (emit1 s 0x100013 c) c)

/-- Received power above -29 dBm for 2 µs (R232). -/
def execLosClear (c : Chan) (s : State) : Out :=
  if live s && active s 4 c then .next (wrF s fOPT_OSTAT_LOS 0 c) else .next s

/-- The latch cuts slot c for a cause; CUTWHY shows the highest, and a burst in progress ends there (R234, R236). -/
def cutLaser (s : State) (c why : Nat) : State :=
  let s := wrF (wrF s fOPT_OSTAT_CUT 1 c) fOPT_OSTAT_CUTWHY (max why (rdF s fOPT_OSTAT_CUTWHY c)) c
  endBurst s c

/-- A keeper program writes CUT (R234). CUT and CLR in one write act as CUT (assumption log 15). -/
def execLaserCut (e : Eng) (c : Chan) (v : Word) (s : State) : Out :=
  if bitOf v.toNat 0 then onSet s e (fAddr fOPT_OLATCH_CUT c 0) v fun s => cutLaser s c 1 else .next s

/-- CLR clears a cut whose condition no longer holds, never one of CUTWHY 5 (R236). -/
def execLaserCutClear (e : Eng) (c : Chan) (v : Word) (holds : Bool) (s : State) : Out :=
  if bitOf v.toNat 0 || !bitOf v.toNat 1 then .next s
  else onSet s e (fAddr fOPT_OLATCH_CUT c 0) v fun s =>
    if holds || rdF s fOPT_OSTAT_CUTWHY c == 5 then s else wrF (wrF s fOPT_OSTAT_CUT 0 c) fOPT_OSTAT_CUTWHY 0 c

/-- Whether a burst of ns exceeds a grant of len bytes by 64 ns at the slot's rate, 6.2208 or 3.1104 bytes a ns (R229, R234, R235). -/
def pastGrant (s : State) (c len ns : Nat) : Bool :=
  decide (64 * 10000 + len * 10000 * 10000 / (if onF s fOPT_OCFG_RATE c then 62208 else 31104) ≤ ns * 10000)

/-- Whether the watchdog's condition for CUTWHY 2 to 4 holds after ns of light: a burst, open or just ended, beyond its grant and 64 ns; one of more
than 125 µs; or light for more than 64 ns with no burst open (R234, R235). -/
def watchdogSees (s : State) (c : Nat) (why : Fin 3) (ns : Nat) : Bool :=
  let x := ponCh s c
  match why with
  | 0 => (match x.burst, x.last with
    | some b, _ => pastGrant s c b.grant.len ns
    | none, some b => pastGrant s c b.grant.len ns
    | none, none => false)
  | 1 => (x.burst.isSome || x.last.isSome) && decide (125000 < ns)
  | _ => x.burst.isNone && decide (64 < ns)

/-- The watchdog cuts slot c under CUTWHY 2 to 4 (R234, R235). Light that outlasts its grant may come after PON's burst has ended. -/
def execWatchdogCut (c : Chan) (why : Fin 3) (ns : Nat) (s : State) : Out :=
  if !live s || !watchdogSees s c why ns then .next s
  else
    let s := cutLaser s c (why + 2)
    let s := wrF s fOPT_OCUTS_CUTS (min (rdF s fOPT_OCUTS_CUTS c + 1) 0xffffff) c
    .next (raiseFault (emit s 0x100010 c (why + 2) ns) 0x100010 c)

/-- The receive filter is tuned and the APD biased (R241). -/
def execRxReady (c : Chan) (s : State) : Out :=
  if live s && active s 4 c && !onF s fOPT_OSTAT_LOS c then .next (wrF s fOPT_OSTAT_RXREADY 1 c) else .next s

/-- The laser is pre-tuned to its position (R241). -/
def execTxReady (c : Chan) (s : State) : Out :=
  if live s && active s 4 c then .next (setPon (wrF s fOPT_OSTAT_TXREADY 1 c) c { ponCh s c with bursts := 0, light := 0, lightAt := s.sys.ticks })
  else .next s

/-- The wavelength loop has locked on live bursts, between two of them (R238); while CALHOLD = 1 it keeps its last setting (R240). -/
def execWlockSet (c : Chan) (s : State) : Out :=
  if live s && active s 4 c && onF s fOPT_OSTAT_TXREADY c && !onF s fOPT_OCAL_CALHOLD c && (ponCh s c).bursts != 0 && (ponCh s c).burst.isNone then
    .next (wrF s fOPT_OSTAT_WLOCK 1 c)
  else .next s

/-- WLOCK clears: 1 s, 625,000,000 ticks, without light, or 1 s of bursts with CALHOLD (R239, R240). -/
def execWlockClear (c : Chan) (s : State) : Out :=
  let x := ponCh s c
  let dark := x.burst.isNone && decide (x.lightAt + 625000000 ≤ s.sys.ticks)
  if live s && onF s fOPT_OSTAT_WLOCK c && (dark || (onF s fOPT_OCAL_CALHOLD c && x.bursts != 0)) then .next (clearWlock s c) else .next s

/-- Every 1 ms the monitoring words take new results; RXPWR reads 0x800_000 under LOS (R245). -/
def execOptMonitorResult (c : Chan) (power temp apd : Word) (burst : Option (Word × Word × Word)) (s : State) : Out :=
  if !live s || ustat s 4 c == 0 then .next s
  else
    let s := result s fOPT_RXPWR_P (if onF s fOPT_OSTAT_LOS c then 0x800000 else power.toNat) c
    let s := result (result s fOPT_LTEMP_T temp.toNat c) fOPT_APDV_V apd.toNat c
    match burst with
    | some (p, i, d) => .next (result (result (result s fOPT_TXPWR_P p.toNat c) fOPT_BIAS_I i.toNat c) fOPT_WLOFF_D d.toNat c)
    | none => .next s

/-- Slot c turns its receiver and its laser off: nothing of it is ready, and PON sees that as loss of signal (R242, R243). -/
def optOff (s : State) (c : Nat) : State :=
  lods (clearWlock (wrF (wrF s fOPT_OSTAT_RXREADY 0 c) fOPT_OSTAT_TXREADY 0 c) c) c

/-- A halt cuts all four lasers until reset, switches the receivers off and disarms the download paths (R234, R236, R244, R265). -/
def haltLasers (s : State) : State :=
  (List.range 4).foldl (fun s c =>
    let s := wrF (wrF s fOPT_OSTAT_CUT 1 c) fOPT_OSTAT_CUTWHY 5 c
    endBurst (wrF (wrF s fOPT_OSTAT_RXREADY 0 c) fPON_DLCTL_DLARM 0 c) c) s

end Sys2Proof.Machine
end

