-- ==== Sys2Proof/Machine/Lane.lean ====
section
/-! DEFINITION. Local and pair lanes: bring-up, polarity, lane order, adaptation and the losses of lock (R295 to R311). -/
namespace Sys2Proof.Machine

/-- A lane's receiver at reset. -/
def laneReset : LaneSt := { adapted := false, taps := [], eqAt := 0, polAt := 0, skew := 0 }

/-- The receiver of lane l. -/
def laneSt (s : State) (l : Nat) : LaneSt := tget (fun _ => laneReset) s.lane l

/-- The receiver of lane l replaced. -/
def setLane (s : State) (l : Nat) (x : LaneSt) : State := { s with lane := tset (fun _ => laneReset) s.lane l x }

/-- Counter kinds of LANE, per lane (R311): symbol errors. -/
def kLaneSym : Nat := 0

/-- FEC codewords, corrected (0) and uncorrected (1). -/
def kLaneFec (i : Nat) : Nat := 1 + i

/-- Lock losses. -/
def kLaneLoss : Nat := 3

/-- Polarity searches. -/
def kLaneSearch : Nat := 4

/-! ## Transmitters -/

/-- The J1 transmitter (0 to 3 in its group) or, with f the receive map, the J1 receiver that carries the logical position of lane l; a pair lane has
its own (R302, R307, R310). -/
def j1Of (s : State) (f : Fld) (l : Nat) : Nat := if 32 ≤ l then l else l / 4 * 4 + bitsOf (rdF s f (l / 4 * 4)) (2 * (l % 4)) 2

/-- The lane whose logical position J1 transmitter k carries (R302). -/
def txLane (s : State) (k : Nat) : Nat :=
  if 32 ≤ k then k else ((List.range 4).find? fun j => j1Of s fLANE_GMAP_TXMAP (k / 4 * 4 + j) == k).map (fun j => k / 4 * 4 + j) |>.getD k

/-- What a J1 transmitter does (R303, R308, R309): it floats unpowered, stands at electrical idle, or sends the stream of a lane: idle while the
port is not up, with an equaliser preset, and inverted or not. -/
inductive TxState where
  | floating
  | electricalIdle
  | sends (lane : Nat) (idle : Bool) (preset : Nat) (inverted : Bool)
deriving DecidableEq, Repr

/-- What J1 transmitter k does now (R300, R302, R303, R308, R309). TXINV and TXEQ of instance k are those of transmitter k (assumption log 82,
DEDUCED). -/
def txState (s : State) (k : Nat) : TxState :=
  let l := txLane s k
  if s.sys.phase == .off || s.sys.phase == .rails || s.sys.phase == .asleep then .floating
  else if !laneRuns s l then .electricalIdle
  else .sends l (!onF s fLANE_LSTAT_LINKUP l) (rdF s fLANE_LCFG_TXEQ k) (onF s fLANE_LCFG_TXINV k)

/-! ## The transmit PLL -/

/-- The transmit PLL of group g. -/
def pll (s : State) (g : Nat) : Pll := tget (fun _ => ⟨0, 0⟩) s.pll g

/-- The frequency of the source of group g's transmit PLL as a deviation in units of FADJ, 2^-40 ns a tick: the time unit's with SYNCE, else the
crystal's, whose deviation is 0 by definition (R306, R521). -/
def pllSource (s : State) (g : Nat) : Int :=
  if decide (g < 8) && onF s fLANE_GMODE_SYNCE (4 * g) then s.time.fadj + s.time.corr else 0

/-- The transmit frequency of group g: from what it was at the last change of its source it moves toward the source by at most 0.1 ppm, 175,921 units,
in 1 ms of 625,000 ticks (R306). -/
def txFreq (s : State) (g : Nat) : Int :=
  let m : Int := ((s.sys.ticks - (pll s g).at_) * 175921 / 625000 : Nat)
  max ((pll s g).from_ - m) (min ((pll s g).from_ + m) (pllSource s g))

/-- The source of group g's transmit PLL changes between a state s and a state c (R306). -/
def moveSource (s c : State) (g : Nat) : State :=
  if onF s fLANE_GMODE_SYNCE (4 * g) = onF c fLANE_GMODE_SYNCE (4 * g) then c
  else { c with pll := tset (fun _ => ⟨0, 0⟩) c.pll g ⟨txFreq s g, s.sys.ticks⟩ }

/-! ## Receivers -/

/-- Whether what happens at lane l's receiver can happen now. -/
def laneUp (s : State) (l : Nat) : Bool := live s && laneRuns s l

/-- The receiver of lane l back before step 2 of R303: nothing detected, locked or adapted, its link down (R305). -/
def laneDown (s : State) (l : Nat) : State :=
  let s := wrF (wrF (wrF s fLANE_LSTAT_SIGDET 0 l) fLANE_LSTAT_CDRLOCK 0 l) fLANE_LSTAT_BLOCK 0 l
  setLane (wrF (wrF s fLANE_LSTAT_FECLOCK 0 l) fLANE_LSTAT_LINKUP 0 l) l { laneSt s l with adapted := false }

/-- Port p is down: all its lanes, and what its MAC was receiving (R305, R314). -/
def portDown (s : State) (p : Nat) : State :=
  let s := (portLanes s p).foldl laneDown s
  if p < 32 then rxEnd (rxEnd s p false 2 0) p true 2 0 else s

/-- Signal is detected and the clock recovered on lane l (R303, step 2). -/
def execLaneSignalDetect (l : LaneI) (s : State) : Out :=
  if !laneUp s l || onF s fLANE_LSTAT_CDRLOCK l then .next s
  else .next (wrF (wrF s fLANE_LSTAT_SIGDET 1 l) fLANE_LSTAT_CDRLOCK 1 l)

/-- Initial adaptation ends on lane l, and its polarity search begins (R299, R303, steps 3 and 4). -/
def execLaneAdaptationDone (l : LaneI) (s : State) : Out :=
  if !laneUp s l || !onF s fLANE_LSTAT_CDRLOCK l || (laneSt s l).adapted then .next s
  else .next (count (setLane s l { laneSt s l with adapted := true, polAt := s.sys.ticks }) 7 kLaneSearch l)

/-- After 2 ms, 1,250,000 ticks, without lock the receiver of lane l takes the other polarity (R299). -/
def execPolarityToggle (l : LaneI) (s : State) : Out :=
  let x := laneSt s l
  if !laneUp s l || !x.adapted || onF s fLANE_LSTAT_BLOCK l || decide (s.sys.ticks < x.polAt + 1250000) then .next s
  else .next (wrF (setLane s l { x with polAt := s.sys.ticks }) fLANE_LSTAT_RXINV (1 - rdF s fLANE_LSTAT_RXINV l) l)

/-- PL1's receiver has found which of the partner's lanes arrives: PSWAP shows in both pair lanes whether they run crossed, and the partner's PL0
on PL1_RX is event 0x1C0_013 (R307). -/
def noteSwap (s : State) (swap : Bool) : State :=
  let was := onF s fLANE_LSTAT_PSWAP 33
  let s := wrF (wrF s fLANE_LSTAT_PSWAP (b2n swap) 32) fLANE_LSTAT_PSWAP (b2n swap) 33
  if swap && !was then emit0 s 0x1c0013 else s

/-- Lane l finds block or alignment-marker lock: the polarity stays, LPOS shows its place in its port, and the markers its skew (R297, R299, R301,
R307). -/
def execLaneBlockLock (l : LaneI) (m : Markers) (swap : Bool) (s : State) : Out :=
  if !laneUp s l || !(laneSt s l).adapted || onF s fLANE_LSTAT_BLOCK l then .next s
  else
    let n := ((portOf s l).map fun p => (portLanes s p).length).getD 1
    let s := wrF (wrF s fLANE_LSTAT_BLOCK 1 l) fLANE_LSTAT_LPOS (if m.place < n then m.place else 0) l
    let s := setLane s l { laneSt s l with skew := m.skew }
    .next (if l.val = 33 then noteSwap s swap else s)

/-- The port whose lowest lane is l comes up: FEC locks where its mode has FEC, LINKUP reads 1 in all its lanes, and event 0x1C0_010 is recorded;
its MAC may transmit from then on (R303, steps 5 and 6). All lanes have lock, each at a place of its own and with no more skew between them than
the 180 ns that deskew takes, and the transmit PLL is locked (R297). -/
def execLaneFecLock (l : LaneI) (s : State) : Out :=
  let ls := portLanes s l
  if ls.isEmpty || linkUp s l || ls.any (testing s) || !ls.all (fun x => laneUp s x && onF s fLANE_LSTAT_BLOCK x && onF s fLANE_LSTAT_PLLLOCK x) ||
     !decide (ls.map fun x => rdF s fLANE_LSTAT_LPOS x).Nodup || ls.any (fun x => ls.any fun y => (laneSt s y).skew + 180 < (laneSt s x).skew) then .next s
  else
    let fec := b2n (portFec s l)
    let s := emit0 (ls.foldl (fun s x => wrF (wrF s fLANE_LSTAT_FECLOCK fec x) fLANE_LSTAT_LINKUP 1 x) s) 0x1c0010
    .next (if l.val < 32 then startNext s l else s)

/-- An update of the receive equaliser of lane l: one tap moves by one step, no sooner than 10 us, 6,250 ticks, after the last
update, and not while ADAPTHOLD is 1 (R304). -/
def execEqUpdate (l : LaneI) (tap : Fin 14) (up : Bool) (s : State) : Out :=
  let x := laneSt s l
  if !laneUp s l || !(onF s fLANE_LSTAT_LINKUP l || testing s l) || onF s fLANE_LCAL_ADAPTHOLD l || s.sys.ticks < x.eqAt + 6250 then .next s
  else .next (setLane s l { x with
    taps := tset (fun _ => 0) x.taps tap (tget (fun _ => 0) x.taps tap + (if up then 1 else -1)), eqAt := s.sys.ticks })

/-- Block, alignment or FEC lock is lost on lane l: its port is down, event 0x1C0_011 records it, a fault of class N
(R305). -/
def execLaneLockLoss (l : LaneI) (s : State) : Out :=
  if !laneUp s l || !onF s fLANE_LSTAT_BLOCK l then .next s
  else match portOf s l with
    | some p => .next (raiseFault (emit0 (count (portDown s p) 7 kLaneLoss l) 0x1c0011) 0x1c0011 (laneDom l))
    | none => .next s

/-- The lanes of a group; group 8 is the pair lanes. -/
def groupLanes (g : Nat) : List Nat := if g < 8 then (List.range 4).map fun k => 4 * g + k else [32, 33]

/-- The ports of a group. -/
def groupPorts (s : State) (g : Nat) : List Nat := (groupLanes g).filter fun l => portOf s l == some l

/-- Group g's transmit PLL is out of lock: PLLLOCK reads 0 in its lanes and its ports are down (R91, R305). -/
def pllLost (s : State) (g : Nat) : State :=
  let s := (groupLanes g).foldl (fun s l => wrF s fLANE_LSTAT_PLLLOCK 0 l) s
  let s := (groupPorts s g).foldl portDown s
  raiseFault (emit0 s 0x1c0012) 0x1c0012 (laneDom (4 * g))

/-- The transmit PLL of group g loses lock: event 0x1C0_012, a class L fault of the group's domain (R305). -/
def execLanePllLockLoss (g : Fin 9) (s : State) : Out :=
  if !live s || !(groupLanes g).any (fun l => onF s fLANE_LSTAT_PLLLOCK l) then .next s
  else .next (pllLost s g)

/-- Every 1 ms while CDRLOCK the receive signal-to-noise ratio is a new result, and the symbol errors and FEC codewords of that ms are counted
(R310, R311). -/
def execRxsnrResult (l : LaneI) (x : RxFigures) (s : State) : Out :=
  if !laneUp s l || !onF s fLANE_LSTAT_CDRLOCK l then .next s
  else
    let s := count s 7 kLaneSym l x.symbols
    let s := if onF s fLANE_LSTAT_FECLOCK l then count (count s 7 (kLaneFec 0) l x.corrected) 7 (kLaneFec 1) l x.uncorrected else s
    .next (result s fLANE_RXSNR_S x.v.toNat l)

/-- The transmit PLL of group g is in lock again (R303, R615). -/
def pllLocked (s : State) (g : Nat) : State := (groupLanes g).foldl (fun s l => wrF s fLANE_LSTAT_PLLLOCK 1 l) s

/-- As a lane of group g is enabled its transmit PLL locks, unless a recovery of its lock runs or there is no crystal (R303, R305, R615). -/
def pllStart (s : State) (g : Nat) : State :=
  if !s.sys.crystal || (dom s (laneDom (4 * g))).run.any (fun r => r.1 == 0x1c0012 || (dom s (laneDom (4 * g))).under == 0x1c0012) then s
  else pllLocked s g

end Sys2Proof.Machine
end

