-- ==== Sys2Proof/Machine/Pair.lean ====
section
/-! DEFINITION. A pair of modules: roles, mate lines, heartbeats, the mirror and partner messages (R585 to R602). -/
namespace Sys2Proof.Machine

/-- Counter kinds of PAIR (R602): role changes, per cause. -/
def kPairRole : Nat := 0
/-- Heartbeats lost, per lane. -/
def kPairLost : Nat := 3
/-- Mirror records sent. -/
def kPairSent : Nat := 4
/-- Mirror records applied. -/
def kPairApplied : Nat := 5
/-- Mirror records discarded. -/
def kPairDropped : Nat := 6
/-- Resynchronisations. -/
def kPairResync : Nat := 7
/-- Partner messages. -/
def kPairMsg : Nat := 8
/-- Partner messages discarded. -/
def kPairMsgDrop : Nat := 9
/-- Partner resets. -/
def kPairReset : Nat := 10
/-- SWITCH writes ignored. -/
def kPairIgnored : Nat := 11

/-- PAIR's role (R585): 0 OFF, 1 SEEKING, 2 STANDBY, 3 ACTIVE. -/
def role (s : State) : Nat := rdF s fPAIR_PSTAT_ROLE

/-- Whether PAIR runs: EN = 1, and the module is neither halted, off nor in S3. -/
def pairOn (s : State) : Bool := live s && active s 0x17 0

/-- The module's serial number, bytes 0 to 5 of the factory record (R3, R656). -/
def serialNumber : Nat := ofBytes ((List.range 6).map Config.factoryByte)

/-- MATE_FIT as the conditions of R587 and R580 have it. -/
def fitNow (s : State) : Bool := pairOn s && onF s fPAIR_FITOK_OK && memRuns s && !s.pwr.failed

/-- The mate lines driven anew (R586, R587). -/
def driveMate (s : State) : State :=
  wrF (wrF s fPAIR_PSTAT_FIT (b2n (fitNow s))) fPAIR_PSTAT_ACT (b2n (pairOn s && role s == 3))

/-- The mate lines at J1, MATE_ACT and MATE_FIT: undriven at collapse, in reset and in S3 (R95, R586 to R588). -/
def matePins (s : State) : Option Bool × Option Bool :=
  let own := fun (f : Fld) => if !alwaysOn s || inS3 s then none else some (onF s f)
  ((tapPin s 32).getD (own fPAIR_PSTAT_ACT), (tapPin s 33).getD (own fPAIR_PSTAT_FIT))

/-! ## Taking over -/

/-- The guard on one installed transmit SA whose PN has been mirrored; a current SA then meets R380 and R384 (R387, R596). -/
def guardSa (s : State) (k : Nat) (x : Sa) : State :=
  let x := { x with pn := x.pn + 2 ^ 26, mir := false }
  if (txCh s x.ch).cur = some x.an then afterPn s x.ch k x else setSa s k (some x)

/-- The notifications of an enabled transmit channel at a takeover: TAKEOVER, and THRESH for a 32-bit suite where R380 has not sent it
(R387). With no current SA the PN is a free value (assumption log 26). -/
def takeoverNote (s : State) (ch : Nat) (c : TxCh) : State :=
  if !c.enable then s
  else match c.cur.bind fun a => saOf s true ch a with
    | some (k, x) =>
      let s := notify s 6 ch x.pn (x.pn / 2 ^ 24)
      if isXpn c.suite || x.thresh then s else notify (setSa s k (some { x with thresh := true })) 1 ch x.pn x.an
    | none => notify (takeFree (takeFree s).2).2 6 ch (takeFree s).1 (takeFree (takeFree s).2).1

/-- What a module does on entering ACTIVE before it raises MATE_ACT (R387, R596). -/
def takeOver (s : State) : State :=
  let guarded := s.msec.sa.filter fun (x : Nat × Option Sa) => x.2.any fun y => y.tx && y.mir
  let bare := s.msec.sa.filter fun (x : Nat × Option Sa) => x.2.any fun y => y.tx && !y.mir
  let s := guarded.foldl (fun s x => match x.2 with
    | some y => guardSa s x.1 y
    | none => s) s
  let s := s.msec.tx.foldl (fun s x => takeoverNote s x.1 x.2) s
  let s := emit1 s 0x280017 guarded.length
  if onF s fPAIR_PSTAT_SYNCED then s else bare.foldl (fun s x => withdraw s x.1) s

/-- Requests held for transmit channels act after a takeover, and are lost with the role of an old active module (X14). -/
def heldRequests (s : State) (keep : Bool) : State :=
  s.msec.tx.foldl (fun s x =>
    if (txCh s x.1).req.isNone then s
    else if keep then trySwitch s x.1 else setTx s x.1 { txCh s x.1 with req := none }) s

/-- A role change: PWHY, the count of its cause, and no automatic move in the next epoch (R594, X17). -/
def roleNote (s : State) (cause : Nat) : State :=
  let s := count (result s fPAIR_PWHY_CAUSE cause) 0x17 kPairRole cause
  { s with pair := { s.pair with quiet := true } }

/-- The module enters ACTIVE under a cause (R594 to R596). -/
def enterActive (s : State) (cause : Nat) : State :=
  let s := wrF (takeOver s) fPAIR_PSTAT_ROLE 3
  let s := { s with pair := { s.pair with activeAt := s.sys.ticks, resync := false } }
  let s := driveMate (wrF (emit1 (roleNote s cause) 0x5c0010 cause) fPAIR_PSTAT_GRACE 1)
  heldRequests (postTo s (rdF s fPAIR_MAGENT_ENG) ⟨0xd7, 0xffff, cause, 0, 0⟩).1 true

/-- What leaving ACTIVE brings, whatever the next role (R594, X14). -/
def leaveActive (s : State) : State :=
  let s := heldRequests (wrF s fPAIR_PSTAT_GRACE 0) false
  { s with pair := { s.pair with unsent := [] } }

/-- The module enters STANDBY under a cause: its partner's mirror starts anew, and with an ACTIVE partner a resynchronisation runs
(R592, R594). -/
def enterStandby (s : State) (cause : Nat) : State :=
  let was := role s == 3
  let s := if was then emit1 (leaveActive s) 0x5c0011 cause else s
  let s := wrF (wrF s fPAIR_PSTAT_ROLE 2) fPAIR_PSTAT_SYNCED 0
  let sa := s.msec.sa.map fun (x : Nat × Option Sa) => (x.1, x.2.map fun y => { y with mir := false })
  let s := { s with msec := { s.msec with sa := sa }, pair := { s.pair with resync := true, recIn := none, recAt := s.sys.ticks } }
  driveMate (roleNote s cause)

/-- EN set: SEEKING, or STANDBY at once where MATE_ACT_IN is high (R594). -/
def pairEnable (s : State) : State :=
  let s := { s with pair := { s.pair with seekAt := s.sys.ticks, heardAt := none, heard := [], mate := none } }
  let s := driveMate (wrF s fPAIR_PSTAT_ROLE 1)
  if onF s fPAIR_PSTAT_PACT then enterStandby s 1 else s

/-- EN cleared: OFF, and both lines low (R594, R601). -/
def pairDisable (s : State) : State :=
  let s := if role s = 3 then emit1 (heldRequests (wrF s fPAIR_PSTAT_GRACE 0) false) 0x5c0011 9 else s
  driveMate (roleNote (wrF (wrF s fPAIR_PSTAT_ROLE 0) fPAIR_PSTAT_SYNCED 0) 9)

/-- The lines and the role drop with no cause of R594: a halt, a failed wake, or the entry to S3 (R588). -/
def dropActive (s : State) : State :=
  if role s = 3 then driveMate (wrF (leaveActive s) fPAIR_PSTAT_ROLE 2) else driveMate s

/-! ## Conditions of R594 -/

/-- Whether a standby may take over: it is fit, and not in the 10 ms, 6,250,000 ticks, after its partner was first heard unless SYNCED
is set (R594, R600). -/
def mayTakeOver (s : State) : Bool :=
  role s == 2 && onF s fPAIR_PSTAT_FIT &&
    (onF s fPAIR_PSTAT_SYNCED || s.pair.heardAt.all fun (t : Nat) => decide (t + 6250000 ≤ s.sys.ticks))

/-- Causes 4 and 7: the partner is not heard and holds MATE_ACT (R594, R595, R598). -/
def notHeard (s : State) : State :=
  if onF s fPAIR_PSTAT_HEARD || !onF s fPAIR_PSTAT_PACT then s
  else if mayTakeOver s then enterActive s 4
  else if role s == 3 && !onF s fPAIR_PSTAT_GRACE && !s.pair.pulseAt.any (fun (t : Nat) => decide (s.sys.ticks < t + 62500)) then
    enterStandby s 7
  else s

/-- SEEKT in ticks: 1 ms with PRIMARY = 1, 5 ms with PRIMARY = 0. -/
def seekTicks (s : State) : Nat := if onF s fPAIR_PCFG_PRIMARY then 625000 else 3125000

/-- SEEKT has passed in SEEKING (R594, cause 2). -/
def execSeekTimeout (s : State) : Out :=
  if !pairOn s || role s != 1 || s.sys.ticks < s.pair.seekAt + seekTicks s || !onF s fPAIR_PSTAT_FIT || onF s fPAIR_PSTAT_PACT then .next s
  else .next (enterActive s 2)

/-- MATE_ACT_IN falls (R594, cause 3); the command brings the level of MATE_FIT_IN too. -/
def execMateActInFall (fit : Bool) (s : State) : Out :=
  if !alwaysOn s then .next s
  else
    let fell := onF s fPAIR_PSTAT_PACT
    let s := wrF (wrF s fPAIR_PSTAT_PFIT (b2n fit)) fPAIR_PSTAT_PACT 0
    .next (if fell && pairOn s && mayTakeOver s then enterActive s 3 else s)

/-- MATE_ACT_IN rises: cause 1 in SEEKING, and a wake event (R578, R594). -/
def execMateActInRise (fit : Bool) (s : State) : Out :=
  if !alwaysOn s || onF s fPAIR_PSTAT_PACT then .next s
  else
    let s := wrF (wrF s fPAIR_PSTAT_PFIT (b2n fit)) fPAIR_PSTAT_PACT 1
    .next (wakeSource (if pairOn s && role s == 1 then enterStandby s 1 else s) 5)

/-! ## Heartbeats -/

/-- What a heartbeat carries (R590): ROLE, MATE_FIT, PRIMARY, the sequence and the serial number. -/
def heartbeat (s : State) : Nat × Bool × Bool × Nat × Nat :=
  (role s, onF s fPAIR_PSTAT_FIT, onF s fPAIR_PCFG_PRIMARY, s.pair.beats, serialNumber)

/-- Every 10 us, 6,250 ticks, a heartbeat leaves on both lanes, and with it the messages that await sending (R590, R593). -/
def execHeartbeatSend (s : State) : Out :=
  if !pairOn s || !paced s paceBeat 6250 then .next s
  else
    let s := setPace s paceBeat
    let up := linkUp s 32 || linkUp s 33
    let p := { s.pair with beats := (s.pair.beats + 1) % 2 ^ 16 }
    let p := if up then { p with out := [], left := if p.out.isEmpty then p.left else p.out } else p
    .next (wrF { s with pair := p } fPAIR_MTXRES_FULL (b2n (64 ≤ p.out.length)))

/-- LANES and HEARD as the last heartbeats leave them: 30 us, 18,750 ticks, each (R590). -/
def showHeard (s : State) : State :=
  let on := fun k => (tget (fun _ => none) s.pair.heard k).isSome && decide (s.sys.ticks ≤ tget (fun _ => 0) s.pair.beatAt k + 18750)
  let s := wrF s fPAIR_PSTAT_LANES (b2n (on 0) + 2 * b2n (on 1))
  wrF s fPAIR_PSTAT_HEARD (b2n (on 0 || on 1))

/-- A valid heartbeat of the partner on lane k: it is heard, and causes 1 and 8 are looked at (R590, R594). -/
def execHeartbeatReceived (k : Fin 2) (mate : Fin 4) (fit primary : Bool) (seq : BitVec 16) (sn : BitVec 48) (s : State) : Out :=
  if !pairOn s || !linkUp s (32 + k) then .next s
  else
    let lost := match tget (fun _ => (none : Option Nat)) s.pair.heard k with
      | some x => (seq.toNat + 2 ^ 16 - x - 1) % 2 ^ 16
      | none => 0
    let s := count s 0x17 kPairLost k lost
    let s := { s with pair := { s.pair with
      heard := tset (fun _ => none) s.pair.heard k (some seq.toNat)
      beatAt := tset (fun _ => 0) s.pair.beatAt k s.sys.ticks
      heardAt := some (s.pair.heardAt.getD s.sys.ticks)
      mate := some (mate.val, b2n fit, b2n primary) } }
    let s := showHeard (wrF (wrF s fPAIR_PSER1_SN (sn.toNat / 2 ^ 24)) fPAIR_PSER0_SN sn.toNat)
    let mine := rdF s fPAIR_PCFG_PRIMARY
    if mate.val = 3 ∧ role s = 1 then .next (enterStandby s 1)
    else if mate.val = 3 ∧ role s = 3 ∧ (mine < b2n primary ∨ (mine = b2n primary ∧ sn.toNat < serialNumber)) then .next (enterStandby s 8)
    else .next s

/-- 30 us without a heartbeat (R590, R594). -/
def execPartnerNotHeard (s : State) : Out := if pairOn s then .next (notHeard (showHeard s)) else .next s

/-- GRACE, 50 us or 31,250 ticks, ends: a hung partner is reset where RSTEN is set, and otherwise cause 7 is looked at (R595, R598). -/
def execGraceEnd (s : State) : Out :=
  if !pairOn s || !onF s fPAIR_PSTAT_GRACE || s.sys.ticks < s.pair.activeAt + 31250 then .next s
  else
    let s := showHeard (wrF s fPAIR_PSTAT_GRACE 0)
    if role s == 3 && onF s fPAIR_PCFG_RSTEN && onF s fPAIR_PSTAT_PACT && !onF s fPAIR_PSTAT_HEARD then
      .next (emit0 (count { s with pair := { s.pair with pulseAt := some s.sys.ticks } } 0x17 kPairReset 0) 0x5c0012)
    else .next (notHeard s)

/-- PRESET: the partner is reset in any role in which PAIR drives DIO15 (R598). -/
def execPartnerReset (e : Eng) (v : BitVec 24) (s : State) : Out :=
  if bitOf v.toNat 0 || !bitOf v.toNat 1 then .next s
  else onSet s e (fAddr fPAIR_PCMD_SWITCH 0 0) v fun s =>
    if !pairOn s then s
    else emit0 (count { s with pair := { s.pair with pulseAt := some s.sys.ticks } } 0x17 kPairReset 0) 0x5c0012

/-! ## The mirror -/

/-- Mirror records sent on both lanes, each with the next record sequence (R591). -/
def sendRecords (s : State) (l : List MirrorItem) : State :=
  let p := s.pair
  count { s with pair := { p with
    sent := l.zipIdx.map fun (x : MirrorItem × Nat) => ((p.recOut + x.2) % 2 ^ 32, x.1)
    recOut := (p.recOut + l.length) % 2 ^ 32, unsent := [] } } 0x17 kPairSent 0 l.length

/-- The PN records of the installed SAs, transmit ones only where asked (R386, R597). -/
def pnRecords (s : State) (txOnly : Bool) : List MirrorItem :=
  s.msec.sa.filterMap fun (x : Nat × Option Sa) => x.2.bind fun y => if y.tx || !txOnly then some (.pn x.1 y.pn) else none

/-- The active module sends what it has to mirror and each installed SA's PN (R386, R591). -/
def execMirrorRefresh (s : State) : Out :=
  if !pairOn s || role s != 3 then .next s else .next (sendRecords s (s.pair.unsent ++ pnRecords s false))

/-- A mirror record applied by the standby (R386, R388, X14). An install moves no key: the standby's own programs install (R593; assumption log
27). -/
def applyRecord (s : State) (x : MirrorItem) : State :=
  match x with
  | .pn k n => match saCtx s k with
    | some y => setSa s k (some { y with pn := n % 2 ^ 64, mir := true })
    | none => s
  | .install _ => s
  | .withdraw k => withdraw s k
  | .switched ch an =>
    if ch < 1024 ∧ (saOf s true ch an).isSome then setTx s ch { txCh s ch with cur := some an, req := none } else s

/-- A mirror record reaches the standby: the first copy of each sequence is applied, a gap clears SYNCED and starts a resynchronisation
(R591, R592). -/
def execMirrorRecordReceived (k : Fin 2) (seq : BitVec 32) (x : MirrorItem) (s : State) : Out :=
  if !pairOn s || !linkUp s (32 + k) then .next s
  else if role s != 2 then .next (count s 0x17 kPairDropped 0)
  else
    let s := { s with pair := { s.pair with recAt := s.sys.ticks } }
    let d := match s.pair.recIn with
      | some n => (seq.toNat + 2 ^ 32 - n) % 2 ^ 32
      | none => 0
    if 2 ^ 31 ≤ d then .next (count s 0x17 kPairDropped 0)
    else
      let s := if d = 0 then s else wrF { s with pair := { s.pair with resync := true } } fPAIR_PSTAT_SYNCED 0
      let s := count { s with pair := { s.pair with recIn := some ((seq.toNat + 1) % 2 ^ 32) } } 0x17 kPairApplied 0
      .next (applyRecord s x)

/-- A resynchronisation ends: SYNCED sets, event 0x5C0_014 (R592). -/
def execResyncComplete (s : State) : Out :=
  if !pairOn s || role s != 2 || !s.pair.resync then .next s
  else .next (emit0 (count (wrF { s with pair := { s.pair with resync := false } } fPAIR_PSTAT_SYNCED 1) 0x17 kPairResync 0) 0x5c0014)

/-- 1 ms, 625,000 ticks, without a record of a partner that is heard and ACTIVE (R592). The records then make a resynchronisation again
(assumption log 27). -/
def execSyncLoss (s : State) : Out :=
  if !pairOn s || role s != 2 || !onF s fPAIR_PSTAT_HEARD || !s.pair.mate.any (fun (m : Nat × Nat × Nat) => m.1 == 3) ||
     s.sys.ticks < s.pair.recAt + 625000 then .next s
  else .next (wrF { s with pair := { s.pair with resync := true } } fPAIR_PSTAT_SYNCED 0)

/-- SWITCH: the PN of every transmit SA is mirrored, then the module goes STANDBY under cause 5; elsewhere it is ignored and counted
(R597). The command brings the level of MATE_FIT_IN. -/
def execPairSwitch (e : Eng) (v : BitVec 24) (fit : Bool) (s : State) : Out :=
  if !bitOf v.toNat 0 then .next s
  else onSet s e (fAddr fPAIR_PCMD_SWITCH 0 0) v fun s =>
    let s := wrF s fPAIR_PSTAT_PFIT (b2n fit)
    if role s = 3 ∧ fit = true then enterStandby (sendRecords s (s.pair.unsent ++ pnRecords s true)) 5
    else count s 0x17 kPairIgnored 0

/-! ## Messages -/

/-- MTXGO: the staged message awaits sending; with 64 waiting it is not taken (R593; assumption log 27). -/
def execPartnerMessageSend (e : Eng) (v : BitVec 24) (s : State) : Out :=
  onSet s e (fAddr fPAIR_MTXGO_GO 0 0) v fun s =>
    if !bitOf v.toNat 0 || !pairOn s then s
    else if 64 ≤ s.pair.out.length then count s 0x17 kPairMsgDrop 0
    else
      let w := fun k => (rdW s (fAddr fPAIR_MTX_W 0 k)).toNat
      let l := s.pair.out ++ [⟨0xd7, w 0 % 2 ^ 16, w 1, w 2, w 3⟩]
      wrF (count { s with pair := { s.pair with out := l } } 0x17 kPairMsg 0) fPAIR_MTXRES_FULL (b2n (64 ≤ l.length))

/-- Messages of the partner posted to MAGENT in order until one is refused; one that has waited 1 ms, 625,000 ticks, is discarded (R593).
The first argument bounds their number. -/
def deliver : Nat → State → State
  | 0, s => s
  | n + 1, s =>
    match s.pair.inbox with
    | [] => s
    | (m, t) :: l =>
      let d := rdF s fPAIR_MAGENT_ENG
      let r := postTo s d m
      if r.2 then deliver n { r.1 with pair := { r.1.pair with inbox := l } }
      else if 0xc0 ≤ d ∨ t + 625000 ≤ s.sys.ticks then
        deliver n (count { r.1 with pair := { r.1.pair with inbox := l } } 0x17 kPairMsgDrop 0)
      else r.1

/-- A message of the partner arrives (R593). -/
def execPartnerMessageReceived (tag : BitVec 16) (w1 w2 w3 : BitVec 24) (s : State) : Out :=
  if !pairOn s then .next s
  else
    let first := s.pair.inbox.isEmpty
    let s := { s with pair := { s.pair with inbox := s.pair.inbox ++ [(⟨0xd7, tag.toNat, w1.toNat, w2.toNat, w3.toNat⟩, s.sys.ticks)] } }
    .next (if first then deliver 1 (setPace s paceMessage) else s)

/-- Every 10 us, 6,250 ticks, refused messages are tried again (R593). -/
def execPartnerMessageRetry (s : State) : Out :=
  if pairOn s && paced s paceMessage 6250 then .next (deliver s.pair.inbox.length (setPace s paceMessage)) else .next s

/-- A write of FITOK (R587). -/
def execFitokWrite (e : Eng) (v : BitVec 24) (s : State) : Out :=
  onSet s e (fAddr fPAIR_FITOK_OK 0 0) v fun s => driveMate (setNow s (fAddr fPAIR_FITOK_OK 0 0) v.toNat)

end Sys2Proof.Machine
end

