-- ==== Sys2Proof/Machine/Pattern.lean ====
section
/-! DEFINITION. The test patterns of R659 and what TST counts. -/
namespace Sys2Proof.Machine

/-- Counter kinds of TST, per instance (R671): bits checked. -/
def kTstChecked : Nat := 0
/-- Bit errors. -/
def kTstErrors : Nat := 1
/-- Lock losses. -/
def kTstLoss : Nat := 2
/-- Bits injected. -/
def kTstInjected : Nat := 3
/-- Test frames sent. -/
def kTstTx : Nat := 4
/-- Test frames received. -/
def kTstRx : Nat := 5
/-- Test frames lost. -/
def kTstLost : Nat := 6
/-- TINJGO writes ignored. -/
def kTstIgnored : Nat := 7

/-- Degree and second tap of a PRBS code (R659). -/
def prbsTaps (code : Nat) : Nat × Nat :=
  match code with
  | 1 => (7, 6)
  | 2 => (9, 5)
  | 3 => (15, 14)
  | 4 => (23, 18)
  | _ => (31, 28)

/-- The first n bits of a PRBS of degree d and second tap m from register r: the register's oldest bit leaves, and the exclusive or of
the two taps enters (R659; assumption log 28). -/
def prbsBits (d m : Nat) : Nat → Nat → List Bool
  | 0, _ => []
  | n + 1, r => bitOf r (d - 1) :: prbsBits d m n ((2 * r + b2n (bitOf r (d - 1) != bitOf r (m - 1))) % 2 ^ d)

/-- The 80 bits of TUSER of an instance (R659). -/
def tuser (s : State) (j : Nat) : Nat :=
  rdF s fTST_TUSER3_U j * 2 ^ 72 + rdF s fTST_TUSER2_U j * 2 ^ 48 + rdF s fTST_TUSER1_U j * 2 ^ 24 + rdF s fTST_TUSER0_U j

/-- The first n bits of a pattern, inverted where asked (R659). -/
def patternBits (s : State) (j code : Nat) (inv : Bool) (n : Nat) : List Bool :=
  let l := if code = 6 then (List.range n).map fun k => bitOf (tuser s j) (79 - k % 80)
    else prbsBits (prbsTaps code).1 (prbsTaps code).2 n (2 ^ (prbsTaps code).1 - 1)
  l.map fun b => b != inv

/-- Bits as bytes in the order in which Ethernet sends them, the least significant bit of a byte first. The first argument is the number
of bytes. -/
def bitsToBytes : Nat → List Bool → List Byte
  | 0, _ => []
  | n + 1, l => by8 ((l.take 8).zipIdx.foldl (fun a (x : Bool × Nat) => a + b2n x.1 * 2 ^ x.2) 0) :: bitsToBytes n (l.drop 8)

/-- The first n bytes of a pattern (R665). -/
def patternBytes (s : State) (j code : Nat) (inv : Bool) (n : Nat) : List Byte := bitsToBytes n (patternBits s j code inv (8 * n))

/-- How many bits differ between two byte strings of one length. -/
def bitErrors (a b : List Byte) : Nat :=
  ((a.zip b).map fun (x : Byte × Byte) => ((List.range 8).filter fun k => bitOf (x.1 ^^^ x.2).toNat k).length).sum

end Sys2Proof.Machine
end

