-- ==== Sys2Proof/Machine/Sbus.lean ====
section
/-! DEFINITION. The site bus (R337 to R347). -/
namespace Sys2Proof.Machine

/-- Counter kinds of SBUS (R347): frames sent and received. -/
def kSbusFrames (rx : Bool) : Nat := if rx then 1 else 0
/-- Bytes sent and received. -/
def kSbusBytes (rx : Bool) : Nat := if rx then 3 else 2
/-- Collisions. -/
def kSbusCollision : Nat := 4
/-- Late collisions. -/
def kSbusLate : Nat := 5
/-- Excessive collisions. -/
def kSbusExcess : Nat := 6
/-- Deferrals. -/
def kSbusDefer : Nat := 7
/-- Jabber events. -/
def kSbusJabber : Nat := 8
/-- FCS errors. -/
def kSbusFcs : Nat := 9
/-- Runts. -/
def kSbusRunt : Nat := 10
/-- Oversize frames. -/
def kSbusOver : Nat := 11
/-- Filtered frames. -/
def kSbusFilter : Nat := 12
/-- Frames that found the ring full. -/
def kSbusFull : Nat := 13
/-- Frames without an agent. -/
def kSbusNoAgent : Nat := 14
/-- RXDONE counts clamped. -/
def kSbusClamp : Nat := 15
/-- Wake events. -/
def kSbusWake : Nat := 16

/-- SBUS's master code (R489). -/
def sbusMaster : Nat := 0x0a

/-- SBUS admits work: its instance is ACTIVE, or DRAINING with work admitted before (R181, R345). -/
def sbusRuns (s : State) : Bool := live s && clocked s && (active s 9 0 || ustat s 9 0 == 2)

/-- Whether the module puts its 100 ohms on the segment: TERM, while it has power (R26, R338, R346). -/
def sbusTerminated (s : State) : Bool := onF s fSBUS_SCFG_TERM && s.sys.phase != .off && s.sys.phase != .rails

/-- The held frame replaced; BUSY shows whether there is one (R346). -/
def setTxFrame (s : State) (x : Option SbusTx) : State :=
  wrF { s with sbus := { s.sbus with tx := x } } fSBUS_SSTAT_BUSY (b2n x.isSome)

/-- TXRES written (R344, R346). -/
def txRes (s : State) (code tries : Nat) : State := result s fSBUS_TXRES_CODE (code + 8 * tries)

/-- The held frame is done with: TXRES says how, and the bus falls idle so many ticks from now (R339, R344). -/
def endTx (s : State) (x : SbusTx) (code wait : Nat) : State :=
  let s := { setTxFrame s none with sbus := { (setTxFrame s none).sbus with idleAt := s.sys.ticks + wait } }
  txRes (wrF s fSBUS_SSTAT_CARRIER 0) code x.tries

/-- TXGO: the frame is held and its fetch begins, or the write is refused with code 5 (R344). A write to an instance that admits no work
starts nothing (assumption log 19). -/
def execSbusTxgo (e : Eng) (v : BitVec 24) (s : State) : Out :=
  onSet s e (fAddr fSBUS_TXGO_GO 0 0) v fun s =>
    if !bitOf v.toNat 0 || !active s 9 0 then s
    else
      let n := rdF s fSBUS_TXLEN_LEN
      if s.sbus.tx.isSome ∨ n = 0 ∨ 1518 < n then txRes s 5 0
      else setTxFrame s (some { addr := rdF s fSBUS_TXADDRH_ADDR * 2 ^ 24 + rdF s fSBUS_TXADDRL_ADDR, len := n, bytes := none,
                                sending := false, tries := 0, until_ := none })

/-- The fetch of the held frame ends: refused with code 4, or the frame stands as the wire will carry it, padded and with its FCS
(R344); SBUS waits for the seals (R478), and one that fails halts the module (R479). -/
def execSbusFetchComplete (sealOk : Bool) (s : State) : Out :=
  match s.sbus.tx with
  | some x =>
    if !sbusRuns s || x.bytes.isSome then .next s
    else match (if dataSpace < x.addr + x.len then some x.addr else refusedByte s sbusMaster x.addr x.len false) with
      | some b => .next (endTx (refuse s sbusMaster b false) x 4 0)
      | none =>
        if !sealOk then .next (sealFault s 0x400010 (x.addr / 64 * 64) sbusMaster)
        else
          let s := countLines s sbusMaster x.addr x.len false
          let b := dramRead s x.addr x.len
          let b := b ++ List.replicate (60 - b.length) 0
          .next (setTxFrame s (some { x with bytes := some (b ++ fcsOf b) }))
  | none => .next s

/-- Whether the bus has been idle for 9.6 us, 6,000 ticks, and is not jabbered (R339, R340). -/
def busIdle (s : State) : Bool :=
  !onF s fSBUS_SSTAT_CARRIER && !onF s fSBUS_SSTAT_JABBER && decide (s.sbus.idleAt + 6000 ≤ s.sys.ticks)

/-- A transmission attempt of the held frame starts (R339). -/
def execSbusTxAttempt (deferred : Bool) (s : State) : Out :=
  match s.sbus.tx with
  | some x =>
    if !sbusRuns s || testing s 38 || x.bytes.isNone || x.sending || x.until_.isSome || !busIdle s then .next s
    else
      let s := if deferred then count s 9 kSbusDefer 0 else s
      .next (wrF (setTxFrame s (some { x with sending := true, tries := x.tries + 1 })) fSBUS_SSTAT_CARRIER 1)
  | none => .next s

/-- A collision: jam of 32 bits, 2,000 ticks; then a back-off of r slot times of 51.2 us, or the frame discarded after its sixteenth, or at
once after its first 64 bytes (R339). -/
def execSbusCollision (sent : BitVec 11) (s : State) : Out :=
  match s.sbus.tx with
  | some x =>
    if !sbusRuns s || !x.sending then .next s
    else if 64 ≤ sent.toNat then .next (endTx (emit0 (count (count s 9 kSbusCollision 0) 9 kSbusLate 0) 0x240011) x 2 2000)
    else if 16 ≤ x.tries then .next (endTx (emit0 (count (count s 9 kSbusCollision 0) 9 kSbusExcess 0) 0x240010) x 1 2000)
    else
      let r := takeRandom 2 (count s 9 kSbusCollision 0)
      let slots := ofBytes r.1 % 2 ^ min x.tries 10
      let s := { r.2 with sbus := { r.2.sbus with idleAt := s.sys.ticks + 2000 } }
      .next (wrF (setTxFrame s (some { x with sending := false, until_ := some (s.sys.ticks + 2000 + 32000 * slots) }))
        fSBUS_SSTAT_CARRIER 0)
  | none => .next s

/-- The back-off of the held frame ends (R339). -/
def execSbusBackoffEnd (s : State) : Out :=
  match s.sbus.tx with
  | some x =>
    match x.until_ with
    | some t => if live s && decide (t ≤ s.sys.ticks) then .next (setTxFrame s (some { x with until_ := none })) else .next s
    | none => .next s
  | none => .next s

/-- The held frame ends on the wire: TXRES code 0 with the attempts made (R344). -/
def execSbusTxComplete (s : State) : Out :=
  match s.sbus.tx with
  | some x =>
    if !sbusRuns s || !x.sending then .next s
    else
      let b := x.bytes.getD []
      let s := count (count s 9 (kSbusFrames false) 0) 9 (kSbusBytes false) 0 b.length
      .next (endTx { s with sbus := { s.sbus with sent := b } } x 0 0)
  | none => .next s

/-- Whether SBUS accepts a frame's destination (R341). -/
def sbusForUs (s : State) (b : List Byte) : Bool :=
  let d := ofBytes (b.take 6)
  onF s fSBUS_SCFG_PROMISC || d == rdF s fSBUS_MACADR1_ADDR * 2 ^ 24 + rdF s fSBUS_MACADR0_ADDR || d == 2 ^ 48 - 1 ||
    (onF s fSBUS_SCFG_MCAST && bitOf (d / 2 ^ 40) 0)

/-- The message of a ring entry posted, or kept for another try (R342). -/
def sbusNote (s : State) (k n : Nat) : State :=
  let r := postTo s (rdF s fSBUS_AGENT_ENG) ⟨0xc9, k, n, 0, 0⟩
  if r.2 then r.1 else { r.1 with sbus := { r.1.sbus with notes := r.1.sbus.notes ++ [(k, n)], noteAt := r.1.sys.ticks } }

/-- A frame written to the next ring entry: its length, postmark and bytes (R342); a partial line's seal that fails, as bad names it, halts the module
with the lines below it written (R480). Bytes that no field names keep what they hold. -/
def sbusRing (s : State) (start : Nat × Nat) (b : List Byte) (bad : Nat) : State :=
  let k := rdF s fSBUS_RXSTAT_HEAD
  let a := rdF s fSBUS_RXBASEH_BASE * 2 ^ 24 + rdF s fSBUS_RXBASEL_BASE + 2048 * k
  match (if dataSpace < a + 2048 then some a else refusedByte s sbusMaster a (64 + b.length) true) with
  | some x => count (refuse s sbusMaster x true) 9 kSbusFull 0
  | none =>
    let head := toBytes 2 b.length ++ dramRead s (a + 2) 2 ++ toBytes 3 start.1 ++ toBytes 4 start.2 ++ toBytes 3 s.time.gen
    let s := writeRange (fillRange s a (64 + b.length)) sbusMaster a (head ++ dramRead s (a + 14) 50 ++ b) bad
    if s.sys.halted then s else
    let s := wrF (wrF s fSBUS_RXSTAT_USED (rdF s fSBUS_RXSTAT_USED + 1)) fSBUS_RXSTAT_HEAD (k + 1)
    sbusNote (count (count s 9 (kSbusFrames true) 0) 9 (kSbusBytes true) 0 b.length) k b.length

/-- A frame that comes while a site-bus test runs: a test frame is compared with the pattern, nothing else is delivered (R665). -/
def testFrameIn (s : State) (b : List Byte) : State :=
  if ofBytes (bytesAt b 12 2) ≠ 0x88b5 ∨ rdF s fTST_TCFG_CHK 38 = 0 then s
  else
    let n := bitErrors (bytesAt b 14 1500) (patternBytes s 38 (rdF s fTST_TCFG_CHK 38) (onF s fTST_TCFG_CINV 38) 1500)
    let s := { s with tst := { s.tst with waits := false, errs := tset (fun _ => 0) s.tst.errs 38 (tget (fun _ => 0) s.tst.errs 38 + n) } }
    count (count (count s 0x1b kTstRx 38) 0x1b kTstChecked 38 12000) 0x1b kTstErrors 38 n

/-- A frame ends on the segment: received into the ring, or discarded and counted by cause (R341, R342); in S1 and S2 an accepted frame
is a wake event (R345). -/
def execSbusRxFrame (start : Nat × Nat) (x : RingFrame) (s : State) : Out :=
  if !sbusRuns s || !active s 9 0 || onF s fSBUS_SSTAT_JABBER || s.sbus.tx.any (fun x => x.sending) then .next s
  else
    let s := { s with sbus := { s.sbus with idleAt := s.sys.ticks } }
    if testing s 38 then .next (testFrameIn s x.bytes)
    else if x.bytes.length < 64 then .next (count s 9 kSbusRunt 0)
    else if 1522 < x.bytes.length then .next (count s 9 kSbusOver 0)
    else if !fcsGood x.bytes then .next (count s 9 kSbusFcs 0)
    else if !sbusForUs s x.bytes then .next (count s 9 kSbusFilter 0)
    else
      let s := if onF s fSBUS_SCFG_WAKEEN ∧ rdF s fPWR_STATE_CURS ≠ 0 then wakeSource (count s 9 kSbusWake 0) 1 else s
      if 0xc0 ≤ rdF s fSBUS_AGENT_ENG then .next (count s 9 kSbusNoAgent 0)
      else if 64 ≤ rdF s fSBUS_RXSTAT_USED then .next (count s 9 kSbusFull 0)
      else .next (sbusRing s start (x.bytes.take (x.bytes.length - 4)) x.bad)

/-- Refused ring messages posted again, oldest first, 10 us, 6,250 ticks, after their last try (R342). -/
def execSbusPostRetry (s : State) : Out :=
  if !live s || s.sbus.notes.isEmpty || decide (s.sys.ticks < s.sbus.noteAt + 6250) then .next s
  else .next (s.sbus.notes.foldl (fun s x => sbusNote s x.1 x.2) { s with sbus := { s.sbus with notes := [] } })

/-- RXDONE: entries returned in ring order; a count above USED is clamped and counted (R343). -/
def execSbusRxdone (e : Eng) (v : BitVec 24) (s : State) : Out :=
  onSet s e (fAddr fSBUS_RXDONE_N 0 0) v fun s =>
    let n := bitsOf v.toNat 0 7
    let used := rdF s fSBUS_RXSTAT_USED
    wrF (if used < n then count s 9 kSbusClamp 0 else s) fSBUS_RXSTAT_USED (used - min n used)

/-- Carrier for more than 20 ms: JABBER is set, attempts stop, event 0x240_012, a class L fault of the site bus (R340). A frame being
sent by another node is what jabbers; a held frame waits. -/
def execJabberDetect (s : State) : Out :=
  if !live s || !active s 9 0 || onF s fSBUS_SSTAT_JABBER then .next s
  else
    let s := wrF (wrF (count s 9 kSbusJabber 0) fSBUS_SSTAT_JABBER 1) fSBUS_SSTAT_CARRIER 1
    let s := setTxFrame s (s.sbus.tx.map fun x => { x with sending := false })
    .next (raiseFault (emit0 s 0x240012) 0x240012 39)

/-- A halt: a frame in transmission ends stomped where it stands, and nothing more is driven (R345); how much of it has left is a free value
(assumption log 2). -/
def sbusStomp (s : State) : State :=
  match s.sbus.tx.filter fun x => x.sending with
  | none => setTxFrame s none
  | some x =>
    let k := takeFree s
    let b := x.bytes.getD []
    let s := setTxFrame k.2 none
    wrF { s with sbus := { s.sbus with sent := lineEnd (b.take (k.1 % (b.length - 3))) false 7 } } fSBUS_SSTAT_CARRIER 0

/-- 1 ms after carrier ends JABBER clears (R340): the bus fell idle 1 ms, 625,000 ticks, ago. -/
def execJabberClear (s : State) : Out :=
  if !live s || !onF s fSBUS_SSTAT_JABBER then .next s
  else
    let s := wrF (wrF s fSBUS_SSTAT_JABBER 0) fSBUS_SSTAT_CARRIER 0
    .next { s with sbus := { s.sbus with idleAt := s.sys.ticks - 625000 } }

/-- In S3 the always-on watcher sees carrier of at least 8 us: a wake event where WAKEEN is 1 (R345). -/
def execSbusCarrierWake (s : State) : Out :=
  if !inS3 s || !onF s fSBUS_SCFG_WAKEEN then .next s else .next (wakeSource (count s 9 kSbusWake 0) 1)

end Sys2Proof.Machine
end

