-- ==== Sys2Proof/Machine/Flt.lean ====
section
/-! DEFINITION. Faults, recovery domains and the halt (R603 to R619). -/
namespace Sys2Proof.Machine

/-- Counter kinds of FLT, per domain (R619), domain 63 for none: faults of class N (0), L (1), F (2). -/
def kFltFault (cls : Nat) : Nat := cls
/-- Latched faults. -/
def kFltLatched : Nat := 3
/-- Recoveries ended. -/
def kFltEnded : Nat := 4
/-- Recoveries ended unsuccessfully. -/
def kFltUnsuccessful : Nat := 5
/-- Escalations. -/
def kFltEscalated : Nat := 6
/-- Clearances. -/
def kFltCleared : Nat := 7
/-- Messages of R614 refused. -/
def kFltMsg : Nat := 8

/-- The class of a fault that is not H: 0 N, 1 L, 2 F (R615). -/
def classOf (code : Nat) : Nat :=
  if [0x440011, 0x3c0013, 0x600010].contains code then 2
  else if [0x340011, 0x040011, 0x040010, 0x040012, 0x1c0012, 0x280014, 0x140016, 0x140015, 0x100010, 0x0c0030, 0x240012].contains code then 1
  else 0

/-- The lanes of a lane domain (R604). -/
def domLanes (d : Nat) : List Nat := if d = 12 then [32, 33] else groupLanes (d - 4)

/-- Whether some installed SA context of a port of lane domain d is unusable. -/
def contextBad (s : State) (d : Nat) : Bool :=
  s.msec.sa.any fun (x : Nat × Option Sa) => x.2.any fun y =>
    y.unusable && laneDom (if y.tx then (txCh s y.ch).port else (rxCh s y.ch).port) == d

/-- The "Holds while" condition of a fault in domain d (R615), false for "—". -/
def holds (s : State) (code d : Nat) : Bool :=
  if code = 0x3c0013 then (List.range 32).any fun c => tget (fun _ => false) s.mem.hot c
  else if code = 0x340011 then s.qm.queues.any fun (x : Nat × Queue) => x.2.rebuild
  else if code = 0x040011 ∨ code = 0x040010 then (List.range 8).any fun k => (eng s (8 * (d - 14) + k)).st == .failed
  else if code = 0x1c0012 then (domLanes d).any fun l => active s 7 l && !onF s fLANE_LSTAT_PLLLOCK l
  else if code = 0x280014 then contextBad s d
  else if code = 0x140016 then (ponCh s d).pllLost
  else if code = 0x100010 then onF s fOPT_OSTAT_CUT d
  else if code = 0x240012 then onF s fSBUS_SSTAT_JABBER
  else false

/-- Whether the event of the "Ends" column has come for a fault of domain d (R615). A relock comes with the command that reports it. -/
def ended (s : State) (code d : Nat) : Bool :=
  if code = 0x3c0013 then (List.range 32).all fun c => rdF s fMEM_CHSTAT_REFX 0 c != 2
  else if code = 0x140015 then actst s d == 1
  else if code = 0x0c0030 then (List.range 8).all fun n => (chain s n).st == 0 || (chain s n).st == 4
  else if code = 0x1c0012 ∨ code = 0x140016 then true
  else !holds s code d

/-- Whether a recovery ends as it begins: those of memory ECC and of the random source (R615). -/
def endsAtOnce (code : Nat) : Bool := code == 0x040012 || code == 0x440011

/-- The bound of a recovery in ticks of 1.6 ns (R615). -/
def boundTicks (code : Nat) : Nat :=
  if code = 0x3c0013 then 3600 * 625000000
  else if code = 0x340011 then 62500
  else if code = 0x1c0012 ∨ code = 0x140016 then 18750000
  else if code = 0x140015 then 625000
  else if code = 0x0c0030 then 31250000
  else 625000000

/-- The message to FAGENT (R614). -/
def fltNote (s : State) (d cls code action : Nat) : State :=
  let e := rdF s fFLT_FAGENT_ENG
  if 0xc0 ≤ e then s
  else
    let r := post s e ⟨0xd8, d + 256 * cls, code, action, 0⟩
    if r.2 then r.1 else count r.1 0x18 kFltMsg 0

/-- The part of an F fault's action that concerns the whole module: FITOK clears, and an ACTIVE module becomes STANDBY under cause 6
(R587, R603, R609). -/
def handOver (s : State) : State :=
  let s := wrF s fPAIR_FITOK_OK 0
  if role s = 3 then enterStandby s 6 else driveMate s

/-! ## Failed domains -/

/-- The unit instances confined to a domain (R604, R612). -/
def domUnits (d : Nat) : List (Nat × Nat) :=
  if d < 4 then [(4, d), (5, d)]
  else if d < 13 then (domLanes d).map (fun l => (7, l)) ++ (if d = 12 then [] else (domLanes d).map fun l => (8, l))
  else if d = 13 then [(0x0d, 0), (0x0f, 0), (0x10, 0)]
  else if d < 38 then [(1, d - 14), (0x12, d - 14)]
  else if d = 38 then [(0x13, 0), (0x14, 0)]
  else if d = 39 then [(9, 0)]
  else [(3, 0)]

/-- STATE of every instance of a domain given a value. -/
def domStates (s : State) (d v : Nat) : State := (domUnits d).foldl (fun s x => wrC s fCOMMON_USTAT_STATE x.1 x.2 v) s

/-- A domain goes to its failed state for a fault (R612). -/
def failDomain (s : State) (d code : Nat) : State :=
  let s := domStates (setDom s d { dom s d with run := none, latched := [], starts := [], failed := true, last := code }) d 3
  if d < 4 then setAct (optOff (cutLaser s d 1) d) d 1
  else if d < 13 then (domLanes d).foldl laneDown s
  else if d = 13 then s
  else if d < 38 then
    (List.range 8).foldl (fun s k =>
      let e := 8 * (d - 14) + k
      engineGone (setEng s e { eng s e with st := .stopped, conds := 0, step := false }) e) s
  else if d = 38 then selectRef s 0
  else if d = 39 then setTxFrame { s with sbus := { s.sbus with notes := [] } } none
  else (List.range 8).foldl (fun s n => if (chain s n).st = 0 then setChain s n { chain s n with st := 4 } else
    if (chain s n).st = 4 then s else setChain s n { chain s n with st := 4 }) s

/-! ## Recoveries -/

/-- The L recoveries that began in the last 10 s, 6,250,000,000 ticks (R611). -/
def recentStarts (s : State) (d : Nat) : List Nat := (dom s d).starts.filter fun t => s.sys.ticks < t + 6250000000

/-- A recovery of a fault takes a domain; one that ends at once records its end (R605). -/
def beginRecovery (s : State) (d code cls under : Nat) : State :=
  if endsAtOnce (if code = 0x600010 then under else code) then
    emit2 (count (setDom s d { dom s d with run := none }) 0x18 kFltEnded d) 0x600014 d code
  else setDom s d { dom s d with run := some (code, cls), under := under, since := s.sys.ticks }

/-- An L recovery begins in a domain, or is the ninth within 10 s and escalates: in a paired module to an F fault, in a solo one to
the failed state (R611). The number is the message's action. -/
def startLocal (s : State) (d code : Nat) : State × Nat :=
  let l := recentStarts s d
  if l.length < 8 then (beginRecovery (setDom s d { dom s d with starts := l ++ [s.sys.ticks] }) d code 1 0, 0)
  else
    let s := count (setDom s d { dom s d with starts := [] }) 0x18 kFltEscalated d
    if role s = 2 ∨ role s = 3 then
      (beginRecovery (handOver (emit0 (count s 0x18 (kFltFault 2) d) 0x600010)) d 0x600010 2 code, 2)
    else (failDomain (emit0 s 0x600011) d code, 2)

/-- A fault latched in a domain whose recovery of another fault runs (R606). -/
def latchFault (s : State) (d code cls running : Nat) : State :=
  let x := dom s d
  let l := if x.latched.any (fun (y : Nat × Nat × Nat) => y.1 == code) then
      x.latched.map fun (y : Nat × Nat × Nat) => if y.1 = code then (y.1, y.2.1, y.2.2 + 1) else y
    else x.latched ++ [(code, cls, 1)]
  emit (count (setDom s d { x with latched := l }) 0x18 kFltLatched d) 0x600013 d code running

/-- The latched faults re-evaluated in order of arrival: the first that still holds runs and those behind it stay latched, the others
are dropped (R607). -/
def reevaluate (s : State) (d : Nat) : State :=
  let l := (dom s d).latched.dropWhile fun (y : Nat × Nat × Nat) => !(y.2.1 != 0 && holds s y.1 d)
  match l with
  | [] => setDom s d { dom s d with latched := [] }
  | y :: t =>
    let s := setDom s d { dom s d with latched := t }
    if y.2.1 = 2 then beginRecovery s d y.1 2 0 else (startLocal s d y.1).1

/-- An L or F fault meets the domain's state (R605 to R611): the state, and the action that the message names. -/
def meetFault (s : State) (d code cls : Nat) : State × Nat :=
  match (dom s d).run with
  | none => if cls = 0 then (s, 3) else if cls = 1 then startLocal s d code else (beginRecovery s d code cls 0, 0)
  | some (rc, rcls) =>
    if cls ≤ rcls then (latchFault s d code cls rc, if cls = 2 then 0 else 1)
    else
      let was := if rc = 0x600010 then (dom s d).under else rc
      let s := latchFault (setDom s d { dom s d with run := none }) d was rcls code
      let s := beginRecovery s d code cls 0
      (if (dom s d).run.isNone then reevaluate s d else s, 0)

/-- A fault that is not H arrives before a halt (R603 to R614). -/
def takeFault (s : State) (code d : Nat) : State :=
  let cls := classOf code
  let s := count s 0x18 (kFltFault cls) d
  let s := if cls = 2 then handOver s else s
  if d = 63 then fltNote s d cls code 3
  else if (dom s d).failed then fltNote s d cls code (if cls = 2 then 0 else 3)
  else
    let r := meetFault s d code cls
    fltNote r.1 d cls code r.2

/-- The event comes that ends the running recovery of a domain; a relock, which needs the crystal, sets the lock it is about (R85, R91, R605,
R615). -/
def execRecoveryEnd (d : Fin 41) (s : State) : Out :=
  match (dom s d).run with
  | some (code, _) =>
    let c := if code = 0x600010 then (dom s d).under else code
    if !live s || !ended s c d || ((c == 0x1c0012 || c == 0x140016) && !s.sys.crystal) then .next s
    else
      let s := if c = 0x1c0012 then (domLanes d).foldl (fun s l => wrF s fLANE_LSTAT_PLLLOCK 1 l) s
        else if c = 0x140016 then setPon s d { ponCh s d with pllLost := false } else s
      let s := setDom s d { dom s d with run := none }
      .next (reevaluate (emit2 (count s 0x18 kFltEnded d) 0x600014 d code) d)
  | none => .next s

/-- A recovery misses its bound: its fault is re-evaluated first, and runs again where its condition holds (R605). -/
def execRecoveryTimeout (d : Fin 41) (s : State) : Out :=
  match (dom s d).run with
  | some (code, cls) =>
    let under := (dom s d).under
    let c := if code = 0x600010 then under else code
    if !live s || s.sys.ticks < (dom s d).since + boundTicks c then .next s
    else
      let s := count (setDom s d { dom s d with run := none }) 0x18 kFltUnsuccessful d
      if !holds s c d then .next (reevaluate s d)
      else if cls = 2 then .next (beginRecovery s d code 2 under)
      else .next (startLocal s d c).1
  | none => .next s

/-- DCLR: the escalation count clears; a failed domain leaves that state, its units return to IDLE, and a fault whose condition still
holds is raised again (R613). An instance that has no disable reads ACTIVE again (assumption log 29). -/
def execDomainClear (e : Eng) (v : BitVec 24) (s : State) : Out :=
  onSet s e (fAddr fFLT_DCLR_CLR 0 0) v fun s =>
    if !bitOf v.toNat 0 then s
    else
      let d := rdF s fFLT_DSEL_DOM
      let x := dom s d
      let s := emit2 (count (setDom s d { x with starts := [] }) 0x18 kFltCleared d) 0x600012 d (b2n x.failed)
      if !x.failed then s
      else
        let s := (domUnits d).foldl (fun s y =>
          let s := wrC s fCOMMON_USTAT_STATE y.1 y.2 0
          if noDisable y.1 then s else wrC s fCOMMON_UCTRL_EN y.1 y.2 0) (setDom s d domReset)
        if holds s x.last d then raiseFault s x.last d else s

/-! ## The halt -/

/-- Every event up to the record of the H fault taken by LOG (R645), and the sequence of that record, 0 where none is stored. The first
argument bounds their number. -/
def recordHalt : Nat → State → Nat → State × Nat
  | 0, s, _ => (s, 0)
  | n + 1, s, code =>
    match s.log.raised with
    | [] => (s, (((s.log.recs ++ s.log.buf).filter fun r => r.code == code).getLast?.map fun r => r.seq).getD 0)
    | x :: l =>
      let before := s.log.nextSeq
      let s := takeEvent { s with log := { s.log with raised := l } } x
      if x.code = code ∧ hRecord x then (s, if before < s.log.nextSeq then before else 0) else recordHalt n s code

/-- The halt page (R205). -/
def haltPage (f : FaultIn) (seq : Nat) : Tab Nat :=
  [(0, 1), (4, f.code), (8, f.p1), (0xc, f.p2), (0x10, f.mark.s / 2 ^ 24 % 2 ^ 24), (0x14, f.mark.s % 2 ^ 24), (0x18, f.mark.n),
   (0x1c, f.mark.g), (0x20, seq / 2 ^ 24 % 2 ^ 24), (0x24, seq % 2 ^ 24)].foldl
    (fun (t : Tab Nat) (x : Nat × Nat) => tset (fun _ => 0) t x.1 x.2) []

/-- HCOUNT one more (R619). -/
def countHalt (s : State) : State := wrF s fFLT_HCOUNT_N (min 255 (rdF s fFLT_HCOUNT_N + 1))

/-- The module halts on its first H fault (R205, R583, R616). -/
def halt (s : State) (f : FaultIn) : State :=
  let r := recordHalt s.log.raised.length s f.code
  let s := sbusStomp (stompAll (haltLasers r.1))
  let s := { s with engs := s.engs.map fun (x : Nat × Engine) => (x.1, { x.2 with posted := [], out := none }) }
  let s := outputsSafe s
  let s := { s with time := { s.time with ppsOut := [], todOut := [], freqOut := [] } }
  let s := wrF (wrF s fPWR_STATE_PENDV 0) fPWR_STATE_BUSY 0
  let s := countHalt { s with pwr := { s.pwr with run := none, volt := false, force := none, wake := none }
                              hst := { s.hst with page := haltPage f r.2 } }
  let s := { s with flt := { s.flt with halt := some f, committed := false } }
  let s := signal (dropActive s) 16
  { s with sys := { s.sys with halted := true } }

/-- FLT takes the oldest fault told to it, or an H fault before every other: it halts the module, is recorded in a halt, or is classed
(R603 to R616). -/
def execFaultRaised (s : State) : Out :=
  if !alwaysOn s then .next s
  else match takeFirst isHalt s.flt.raised with
    | some (f, l) =>
      let s := { s with flt := { s.flt with raised := l } }
      if s.sys.halted then .next (countHalt (emitM s 0x600015 f.code 0 0 (now s) true)) else .next (halt s f)
    | none =>
      match s.flt.raised with
      | f :: l =>
        let s := { s with flt := { s.flt with raised := l } }
        .next (if s.sys.halted then s else takeFault s f.code f.dom)
      | [] => .next s

/-- The halt record is committed, the commit buffer flushed ahead of it, with a journal entry that counts the halt (R94, R616, R651,
R652). -/
def execHaltRecordCommit (s : State) : Out :=
  if !s.sys.halted || s.flt.committed then .next s
  else
    let s := commitJournal (journalAdd (flush s) 97)
    .next { s with flt := { s.flt with committed := true } }

end Sys2Proof.Machine
end

