-- ==== Sys2Proof/Machine/Trigger.lean ====
section
/-! DEFINITION. The triggers of TIME and what a firing brings to the units (R536, R537). -/
namespace Sys2Proof.Machine

/-- A trigger that does not run. -/
def trigReset : Trig := ⟨false, 0, 0, 0⟩

/-- Trigger t. -/
def trigOf (s : State) (t : Nat) : Trig := tget (fun _ => trigReset) s.time.trig t

/-- Trigger t replaced, TRUN showing whether it runs. -/
def setTrig (s : State) (t : Nat) (x : Trig) : State :=
  wrF { s with time := { s.time with trig := tset (fun _ => trigReset) s.time.trig t x } } fTIME_TRUN_RUN (b2n x.run) 0 (16 * t)

/-- START of trigger t as it stands in its words: seconds bits [17:0] and nanoseconds (R161, R536). -/
def trigStart (s : State) (t : Nat) : Nat × Nat :=
  let x := rdF s fTIME_TST1_T 0 (16 * t) * 2 ^ 24 + rdF s fTIME_TST0_T 0 (16 * t)
  (bitsOf x 30 18, bitsOf x 0 30)

/-- PERIOD of trigger t in ns. -/
def trigPeriod (s : State) (t : Nat) : Nat :=
  rdF s fTIME_TPS_S 0 (16 * t) * 1000000000 + rdF s fTIME_TPN1_N 0 (16 * t) * 2 ^ 24 + rdF s fTIME_TPN0_N 0 (16 * t)

/-- Whether a value that R540 names stands in trigger t: nanoseconds of 10^9 or more, a PERIOD below 1 us, or MSG with ENG above
0xBF. -/
def trigBad (s : State) (t : Nat) : Bool :=
  decide (1000000000 ≤ (trigStart s t).2) || decide (trigPeriod s t < 1000) ||
  decide (1000000000 ≤ rdF s fTIME_TPN1_N 0 (16 * t) * 2 ^ 24 + rdF s fTIME_TPN0_N 0 (16 * t)) ||
  (onF s fTIME_TRGCTL_MSG 0 (16 * t) && decide (0xbf < rdF s fTIME_TRGCTL_ENG 0 (16 * t)))

/-- ARM: the trigger starts from k 0 at START as R161 resolves it; refused while a value of R540 stands, and without effect while EN is 0
(R536, R540; assumption log 25). -/
def execTriggerArm (e : Eng) (t : Fin 16) (v : BitVec 24) (s : State) : Out :=
  if !bitOf v.toNat 0 then .next s
  else onSet s e (fAddr fTIME_TARM_ARM 0 (16 * t)) v fun s =>
    if trigBad s t || !onF s fTIME_TRGCTL_EN 0 (16 * t) then s
    else
      let x := trigStart s t
      setTrig s t ⟨true, nearSec s.time.sec x.1 18, x.2, 0⟩

/-- STOP (R536). -/
def execTriggerStop (e : Eng) (t : Fin 16) (v : BitVec 24) (s : State) : Out :=
  if bitOf v.toNat 0 || !bitOf v.toNat 1 then .next s
  else onSet s e (fAddr fTIME_TARM_ARM 0 (16 * t)) v fun s => setTrig s t { trigOf s t with run := false }

/-- The instant of firing k of trigger t in ns (R536). -/
def fireNs (s : State) (t k : Nat) : Nat := (trigOf s t).s * 1000000000 + (trigOf s t).n + k * trigPeriod s t

/-- A firing of trigger t with number k: the units that name it, TFIRE, its message and its wake (R536). -/
def fireEffects (s : State) (t k : Nat) : State :=
  let ns := fireNs s t k
  let s := result s fTIME_TFIRE_K (k % 2 ^ 24) 0 (16 * t)
  let s := measFire s t ns k
  let s := if onF s fCNT_CTRG_TEN && rdF s fCNT_CTRG_TRIG == t && cntRuns s then captureTrigger s else s
  let s := if !onF s fTIME_TRGCTL_MSG 0 (16 * t) then s
    else
      let r := if live s then postTo s (rdF s fTIME_TRGCTL_ENG 0 (16 * t))
          ⟨0xd3, t, ns / 1000000000 % 2 ^ 24, ns % 1000000000, k % 2 ^ 24⟩ else (s, false)
      if r.2 then r.1 else count r.1 0x13 kTimeMsg t
  if onF s fTIME_TRGCTL_WAKE 0 (16 * t) then wakeSource s 6 else s

/-- An instant of trigger t is reached. Where a forward step has passed several, it fires once, for the last of them, and the others are
missed (R537); COUNT ends it; at a halt nothing fires (R538). -/
def execTriggerFire (t : Fin 16) (s : State) : Out :=
  let x := trigOf s t
  let p := trigPeriod s t
  if !alwaysOn s || s.sys.halted || !x.run || !onF s fTIME_TRGCTL_EN 0 (16 * t) || nowNs s < fireNs s t x.k || p = 0 then .next s
  else
    let cnt := rdF s fTIME_TCNT_C 0 (16 * t)
    let last := x.k + (nowNs s - fireNs s t x.k) / p
    let last := if cnt = 0 then last else max x.k (min last (cnt - 1))
    let s := wrF s fTIME_TMISS_M (min 0xffffff (rdF s fTIME_TMISS_M 0 (16 * t) + (last - x.k))) 0 (16 * t)
    let s := fireEffects s t last
    .next (setTrig s t { x with k := last + 1, run := cnt = 0 || decide (last + 1 < cnt) })

/-- What a SET of a TIME word does beyond R171: a write that would leave a value of R540 that spans words or fields keeps what the word
held (assumption log 25), and a change of the references' words is looked at. -/
def timeWrite (s : State) (a v : Nat) : State :=
  let w := uWord a
  let s' := setNow s a v
  let t := (w - 0x200) / 16
  let bad :=
    if 0x200 ≤ w ∧ w < 0x300 then
      (if w % 16 = 1 ∨ w % 16 = 2 then decide (1000000000 ≤ (trigStart s' t).2)
       else if 3 ≤ w % 16 ∧ w % 16 ≤ 5 then
         decide (trigPeriod s' t < 1000) || decide (1000000000 ≤ rdF s' fTIME_TPN1_N 0 (16 * t) * 2 ^ 24 + rdF s' fTIME_TPN0_N 0 (16 * t))
       else if w % 16 = 0 then onF s' fTIME_TRGCTL_MSG 0 (16 * t) && decide (0xbf < rdF s' fTIME_TRGCTL_ENG 0 (16 * t))
       else false)
    else if w = 0x27 ∨ w = 0x28 then decide (1000000000 ≤ rdF s' fTIME_SETN1_NH * 2 ^ 24 + rdF s' fTIME_SETN0_NL)
    else if w = 0x84 ∨ w = 0x85 ∨ w = 0x8c ∨ w = 0x8d then
      let f := rdF s' fTIME_FREQ1_F 0 (w / 8 * 8 - 0x80) * 2 ^ 24 + rdF s' fTIME_FREQ0_F 0 (w / 8 * 8 - 0x80)
      decide (f = 0) || decide (25000000 < f)
    else false
  if !bad then (if w = 0x12 then timeState s' else if w = 0x13 ∨ w = 0x14 then noteRefs s' else s')
  else if 0x200 ≤ w ∧ w % 16 = 0 then
    let keep := setNow s a (putBits (putBits v 1 1 (rdF s fTIME_TRGCTL_MSG 0 (16 * t))) 3 8 (rdF s fTIME_TRGCTL_ENG 0 (16 * t)))
    unassigned keep a (bitsOf v 3 8)
  else unassigned s a v

end Sys2Proof.Machine
end

