-- ==== Sys2Proof/Machine/Tst.lean ====
section
/-! DEFINITION. Pattern tests, loopbacks and the boundary-scan port (R659 to R671). -/
namespace Sys2Proof.Machine

/-- Whether TST has a test or loopback set on link j: its instance runs and TCFG asks for one (R666). -/
def testAsked (s : State) (j : Nat) : Bool :=
  active s 0x1b j && (rdF s fTST_TCFG_GEN j != 0 || rdF s fTST_TCFG_CHK j != 0 || rdF s fTST_TCFG_LOOP j != 0)

/-- TSTAT of link j as TCFG leaves it: a test that starts takes the link out of service, one that ends has its lane repeat R303, and either
ends the checker's lock (R663, R666). -/
def tstRefresh (s : State) (j : Nat) : State :=
  let was := testing s j
  let on := testAsked s j
  let s := wrF (wrF s fTST_TSTAT_ACTIVE (b2n on) j) fTST_TSTAT_LOOPON (b2n (on && rdF s fTST_TCFG_LOOP j != 0)) j
  let s := if on && rdF s fTST_TCFG_CHK j != 0 then s else wrF s fTST_TSTAT_LOCK 0 j
  let s := if on && rdF s fTST_TCFG_GEN j != 0 && rdF s fTST_TINJ_KIND j == 3 then s
    else { s with tst := { s.tst with inj := tset (fun _ => 0) s.tst.inj j 0 } }
  let s := if j = 38 then { s with tst := { s.tst with waits := false } } else s
  if was != on && decide (j < 34) then
    (match portOf s j with
    | some p => (portLanes s p).foldl laneDown s
    | none => laneDown s j)
  else s

/-- Whether a commit of TCFG as given (GEN, CHK, LOOP) is one that link j may not take (R660, R663, R664, X13). -/
def tstRefused (s : State) (j gen chk loop : Nat) : Bool :=
  let start := gen != 0 || chk != 0 || loop != 0
  if j < 34 then
    start && ((portOf s j).isNone || rdC s ⟨7, 1, 0, 1⟩ 7 j == 0 || (32 ≤ j && rdC s ⟨0x17, 1, 0, 1⟩ 0x17 0 == 1))
  else if j < 38 then
    (loop != 0 && loop != 3) || (start && (rdC s ⟨5, 1, 0, 1⟩ 5 (j - 34) == 1 || (gen != 0 && loop != 3)))
  else 1 < loop

/-- The checker of link j has predicted 256 bits and locks (R661); a near-end PCS loopback does not use it (R663). -/
def execCheckerLock (j : Fin 39) (s : State) : Out :=
  if !live s || !testing s j || rdF s fTST_TCFG_CHK j = 0 || onF s fTST_TSTAT_LOCK j || (j.val < 34 && rdF s fTST_TCFG_LOOP j == 1) then .next s
  else .next (wrF { s with tst := { s.tst with errs := tset (fun _ => 0) s.tst.errs j 0 } } fTST_TSTAT_LOCK 1 j)

/-- The checker of link j loses lock and seeks it again (R661). -/
def execCheckerLockLoss (j : Fin 39) (s : State) : Out :=
  if !live s || !onF s fTST_TSTAT_LOCK j then .next s
  else .next (emit0 (count (wrF s fTST_TSTAT_LOCK 0 j) 0x1b kTstLoss j) 0x6c0010)

/-- TINJGO (R662): the kind that TINJ holds starts; one that comes while a single or burst injection runs is ignored. -/
def execInject (e : Eng) (j : Fin 39) (v : BitVec 24) (busy : Bool) (s : State) : Out :=
  onSet s e (fAddr fTST_TINJGO_GO j 0) v fun s =>
    let kind := rdF s fTST_TINJ_KIND j
    let last := tget (fun _ => 0) s.tst.inj j
    if !bitOf v.toNat 0 || !testing s j || rdF s fTST_TCFG_GEN j = 0 then s
    else if busy && (last == 1 || last == 2) then count s 0x1b kTstIgnored j
    else
      let s := { s with tst := { s.tst with inj := tset (fun _ => 0) s.tst.inj j kind, acc := tset (fun _ => 0) s.tst.acc j 0 } }
      count s 0x1b kTstInjected j (if kind = 1 then 1 else if kind = 2 then rdF s fTST_TINJ_LEN j + 1 else 0)

/-- Every 1 ms, 625,000 ticks, TERR receives the errors since lock; bits checked, bit errors and the bits that a rate injection has inverted, one
in every 2^RATE of those generated, are counted (R661, R662, R671). -/
def execTerrResult (j : Fin 39) (bits errors generated : Nat) (s : State) : Out :=
  if !live s || !testing s j || !paced s (paceTerr j) 625000 then .next s
  else
    let s := setPace s (paceTerr j)
    let n := tget (fun _ => 0) s.tst.errs j + (if onF s fTST_TSTAT_LOCK j then errors else 0)
    let s := { s with tst := { s.tst with errs := tset (fun _ => 0) s.tst.errs j n } }
    let s := if onF s fTST_TSTAT_LOCK j then count (count s 0x1b kTstChecked j bits) 0x1b kTstErrors j errors else s
    let acc := tget (fun _ => 0) s.tst.acc j + generated
    let s := if tget (fun _ => 0) s.tst.inj j = 3 then
        count { s with tst := { s.tst with acc := tset (fun _ => 0) s.tst.acc j (acc % 2 ^ rdF s fTST_TINJ_RATE j) } } 0x1b kTstInjected j
          (acc / 2 ^ rdF s fTST_TINJ_RATE j)
      else s
    .next (result s fTST_TERR_N (min 0xffffff n) j)

/-- The site-bus test frame (R665): broadcast, EtherType 0x88B5, 1,500 bytes of the pattern. -/
def testFrame (s : State) : List Byte :=
  let b := toBytes 6 (2 ^ 48 - 1) ++ toBytes 3 (rdF s fSBUS_MACADR1_ADDR) ++ toBytes 3 (rdF s fSBUS_MACADR0_ADDR) ++ [by8 0x88, by8 0xb5] ++
    patternBytes s 38 (rdF s fTST_TCFG_GEN 38) (onF s fTST_TCFG_GINV 38) 1500
  b ++ fcsOf b

/-- Every 2 ms, 1,250,000 ticks, a test frame leaves, onto an idle segment or, with LOOP 1, straight to the receive MAC; one that has not come
back is lost (R663, R665). -/
def execTestFrameSend (s : State) : Out :=
  if !live s || !testing s 38 || rdF s fTST_TCFG_GEN 38 = 0 || (rdF s fTST_TCFG_LOOP 38 = 0 && !busIdle s) ||
     !paced s paceTestFrame 1250000 then .next s
  else
    let s := setPace s paceTestFrame
    let s := if s.tst.waits && rdF s fTST_TCFG_CHK 38 != 0 then count s 0x1b kTstLost 38 else s
    let b := testFrame s
    let s := count { s with tst := { s.tst with waits := true }, sbus := { s.sbus with sent := b } } 0x1b kTstTx 38
    .next (if rdF s fTST_TCFG_LOOP 38 = 1 then testFrameIn s b else s)

/-! ## The test access port -/

/-- Whether the TAP listens: power is on and the test-lock fuse is intact (R28, R670). -/
def tapOpen (s : State) : Bool := alwaysOn s && !s.fuse.lock

/-- An instruction of the TAP with what its cells drive, or none, and its data register; a change of who holds the pins is recorded by
event 0x6C0_012 (R668, R669). -/
def tapTo (s : State) (code : Nat) (drive : Option Nat) (dr : Nat) : State :=
  let was := s.tst.drive.isSome
  let s := wrF { s with tst := { s.tst with tap := code, drive := drive, dr := dr } } fTST_TAPOWN_OWN (b2n drive.isSome)
  if was != drive.isSome then emit0 s 0x6c0012 else s

/-- The identification register (R668). -/
def idCode : Nat := tapCode

/-- Test-Logic-Reset: IDCODE is selected and the TAP holds no pin (R668, R669). -/
def execTapReset (s : State) : Out := if tapOpen s then .next (tapTo s 2 none idCode) else .next s

/-- EXTEST: the cells drive the pins with what has been shifted in, and capture them (R668, R669). -/
def execExtest (cells pins : Nat) (s : State) : Out := if tapOpen s then .next (tapTo s 0 (some cells) pins) else .next s

/-- SAMPLE/PRELOAD: the cells capture the pins, which stay functional (R668). -/
def execSamplePreload (pins : Nat) (s : State) : Out := if tapOpen s then .next (tapTo s 1 none pins) else .next s

/-- IDCODE (R668). -/
def execIdcode (s : State) : Out := if tapOpen s then .next (tapTo s 2 none idCode) else .next s

/-- CLAMP: the pins are held from the cells, BYPASS selected, whose bit captures 0 (R668, R669). -/
def execClamp (cells : Nat) (s : State) : Out := if tapOpen s then .next (tapTo s 3 (some cells) 0) else .next s

/-- HIGHZ: every cell-controlled output is at high impedance: nothing is driven, and the TAP holds the pins (R668, R669). -/
def execHighz (s : State) : Out := if tapOpen s then .next (tapTo s 4 (some 0) 0) else .next s

/-- ENGDEBUG: external engine debug opens (R668). -/
def execEngdebug (s : State) : Out := if tapOpen s then .next (tapTo s 0x10 none 0) else .next s

/-- PTEST: the production test port opens (R668). -/
def execPtest (s : State) : Out := if tapOpen s then .next (tapTo s 0x11 none 0) else .next s

/-- BYPASS, and every code that is not listed (R668). -/
def execBypass (code : BitVec 8) (s : State) : Out :=
  if [0, 1, 2, 3, 4, 0x10, 0x11].contains code.toNat || !tapOpen s then .next s else .next (tapTo s 0xff none 0)

end Sys2Proof.Machine
end

