-- ==== Sys2Proof/Machine/Reset.lean ====
section
/-! DEFINITION. The reset kinds and what each keeps (R672, R673), and step 2 of start-up (R495, R644, R674). -/
namespace Sys2Proof.Machine

/-- Unit words that a reset of a kind keeps: LOG's stored words always; the time state, CNDL's words and HCOUNT on RST_N and on a wake
from S3 (R516, R553, R619, R654, R658, R673). -/
def keepsWord (cold : Bool) (a : Nat) : Bool :=
  let u := uUnit a
  let w := uWord a
  (u == 0x1a && [0x53, 0x54, 0x55, 0xe9].contains w) ||
  (!cold && ((u == 0x14 && 16 ≤ w) ||
    [fAddr fTIME_FADJ1_F 0 0, fAddr fTIME_FADJ0_F 0 0, fAddr fTIME_TSTAT_SELREF 0 0, fAddr fTIME_TGEN_GEN 0 0,
     fAddr fFLT_HCOUNT_N 0 0].contains a))

/-- LOG after a reset: what the nonvolatile store holds, and on a power-on no more than that (R94, R647, R652, R657, R673). -/
def logKept (l : LogSt) (cold : Bool) : LogSt :=
  { logReset with
    raised := if cold then [] else l.raised
    buf := if cold then [] else l.buf
    recs := l.recs
    nextSeq := if cold then l.reserved else l.nextSeq
    reserved := l.reserved
    full := l.full
    journal := if cold then l.kept else l.journal
    kept := l.kept
    laser := if cold then [] else l.laser
    wrapped := !cold && l.wrapped
    tag := l.tag
    lockP := l.lockP }

/-- The module after a reset of a kind (R673): 1 power-on, 2 RST_N, 3 wake from S3. A running slew ends, because SELREF becomes 0 (R516,
R522). What the outside drives on the input pins stays. -/
def resetModule (s : State) (kind : Nat) : State :=
  let cold := kind == 1
  let s := if cold then s else endSlew (selectRef s 0)
  let r := State.reset
  let t := s.time
  let n : State := { r with
    pending := s.pending
    sys := { r.sys with
      phase := if cold then .rails else .crystal
      kind := kind
      ticks := s.sys.ticks
      free := s.sys.free
      railAt := s.sys.ticks
      feedA := s.sys.feedA
      feedB := s.sys.feedB
      lostAt := s.sys.lostAt
      sag := s.sys.sag
      slots := s.sys.slots
      pace := tset (fun _ => none) (s.sys.pace.filter fun x => !cold && [paceOven, paceModel, paceCompare, paceBuffer].contains x.1) paceEpoch
        (some s.sys.ticks) }
    words := s.words.filter fun (x : Nat × Word) => keepsWord cold x.1
    log := logKept s.log cold
    time := if cold then timeReset else { timeReset with
      sec := t.sec
      ns := t.ns
      frac := t.frac
      gen := t.gen
      fadj := t.fadj
      corr := t.corr
      adv := t.adv
      credited := t.credited }
    cndl := if cold then { cndlReset with onAt := s.sys.ticks } else s.cndl
    hst := { hstReset with
      bus := s.hst.bus
      mem := s.hst.mem
      sent := s.hst.sent
      msg := s.hst.msg }
    slots := []
    fuse := { s.fuse with
      op := none
      state := if kind = 3 then s.fuse.state else s.fuse.blown }
    pwr := { pwrReset with hold := if kind = 3 then s.pwr.hold else none }
    meas := { measReset with pins := s.meas.pins }
    tst := if cold then r.tst else { r.tst with
      tap := s.tst.tap
      drive := s.tst.drive
      dr := s.tst.dr } }
  let n := wrF (wrF n fPAIR_PSTAT_PACT (rdF s fPAIR_PSTAT_PACT)) fPAIR_PSTAT_PFIT (rdF s fPAIR_PSTAT_PFIT)
  let n := wrF n fTST_TAPOWN_OWN (b2n n.tst.drive.isSome)
  let n := if kind = 3 then wrF (wrF n fPWR_PADS_HELD 1) fKEY_LCSTATE_PENDING (rdF s fKEY_LCSTATE_PENDING) else n
  lcState (logStat n)

/-- The root key of the lifecycle state in force: the fused key of the bank in use, or in BLANK the published derivation (R495, R509,
R510). -/
def rootKey (f : FuseSt) : Nat :=
  if f.state = 0 then blankRoot
  else ((tget (fun _ => none) f.bank (if tget (fun _ => false) f.failed 0 then 1 else 0)).getD 0)

/-- Step 2 of start-up: E0 runs boot ROM at keeper level, LOG writes LIFEMARK, and slot 0 is loaded (R495, R644, R674). -/
def romStart (s : State) : State :=
  let c := takeFree { s with sys := { s.sys with phase := .crystal, crystal := false, crystalTries := 0, railAt := s.sys.ticks } }
  let d := takeFree c.2
  lifemark (setSlot d.2 0 (rootSlot (rootKey s.fuse) (c.1 + 2 ^ 24 * (d.1 % 256))))

/-- Every domain off: a collapse (R91, R95). The nonvolatile store keeps what is committed (R94). -/
def powerOff (s : State) : State :=
  let r := resetModule s 1
  { r with sys := { r.sys with phase := .off, feedA := false, feedB := false, lostAt := none, sag := 0 } }

/-- What S3 loses at its entry: engines and their memories, DRAM with its keys and regions, queues and frames, key slots, accumulators
and installed contexts (R128, R365, R439, R471, R512, X9). Every other word returns to reset on wake. -/
def loseVolatile (s : State) : State :=
  let r := State.reset
  { s with
    engs := r.engs
    data := r.data
    imem := r.imem
    shared := r.shared
    load := r.load
    mpe := r.mpe
    qm := r.qm
    flights := r.flights
    slots := r.slots
    msec := r.msec
    key := r.key
    chk := r.chk
    pon := r.pon
    mac := r.mac
    plc := r.plc
    sbus := r.sbus }

end Sys2Proof.Machine
end

