-- ==== Sys2Proof/Machine/Power.lean ====
section
/-! DEFINITION. Performance levels and sleep (R66, R88, R89, R569 to R584). -/
namespace Sys2Proof.Machine

/-- The level in force. -/
def curLevel (s : State) : Nat := rdF s fPWR_STATE_CURL

/-- The level that requests lead to now: P3 while forcing holds, else LEVEL (R66, R573). -/
def wantedLevel (s : State) : Nat := if onF s fPWR_STATE_FORCED then 3 else rdF s fPWR_LEVEL_REQ

/-- Whether the whole of level l is in force: its ceilings and its voltage. -/
def atLevel (s : State) (l : Nat) : Bool := curLevel s == l && s.pwr.rail == l

/-- A transition begins toward state st and level l; it lowers the ceilings at once and sends a voltage request where the level
is not in force whole (R570, R572). A balance epoch that overlaps it makes no automatic move (X5). -/
def beginTransition (s : State) (kind st l : Nat) : State :=
  let volt := !atLevel s l
  let s := wrF (wrF (wrF s fPWR_STATE_BUSY 1) fPWR_STATE_TGTS st) fPWR_STATE_TGTL l
  let s := if curLevel s < l then wrF s fPWR_STATE_CURL l else s
  let s := wrF s fPWR_PMSTAT_TRIES (b2n volt)
  { s with pwr := { s.pwr with run := some kind, volt := volt, voltAt := s.sys.ticks }, plc := { s.plc with still := true } }

/-- The entry to a sleep state begins: it lowers to P3, and the entry to S3 leaves ACTIVE first (R577, R588). -/
def beginEntry (s : State) (st : Nat) : State := beginTransition (if st = 3 then dropActive s else s) 1 st 3

/-- A level transition in the state in force. -/
def beginLevel (s : State) (l : Nat) : State := beginTransition s 0 (rdF s fPWR_STATE_CURS) l

/-- The transition is over, and TARGET reads what is in force. -/
def clearRun (s : State) : State :=
  let s := wrF (wrF s fPWR_STATE_BUSY 0) fPWR_PMSTAT_TRIES 0
  let s := wrF (wrF s fPWR_STATE_TGTS (rdF s fPWR_STATE_CURS)) fPWR_STATE_TGTL (curLevel s)
  { s with pwr := { s.pwr with run := none, volt := false } }

/-- Forcing to P3 starts with its event: the junction temperature, the sensor and the level left (R88). -/
def beginForce (s : State) (tj sensor : Nat) : State :=
  let s := emit (wrF s fPWR_STATE_FORCED 1) 0x580020 tj sensor (curLevel s)
  let s := { s with plc := { s.plc with still := true } }
  if rdF s fPWR_STATE_CURS = 0 ∧ atLevel s 3 = false then beginLevel s 3 else s

/-- A forcing that waited for the running transition starts (R89). -/
def forceWaited (s : State) : State :=
  match s.pwr.force with
  | some (tj, sensor) => beginForce { s with pwr := { s.pwr with force := none } } tj sensor
  | none => s

/-- What follows a transition in S0: a forcing that waited, then the pending request where its pair differs from the pair reached
(R89, R572); a level request waits on while forcing holds (R66). -/
def followOn (s : State) : State :=
  let s := forceWaited s
  if s.pwr.run.isSome || !onF s fPWR_STATE_PENDV then s
  else
    let st := rdF s fPWR_STATE_PENDS
    let l := rdF s fPWR_STATE_PENDL
    let s := wrF s fPWR_STATE_PENDV 0
    if st ≠ 0 then beginEntry s st
    else if onF s fPWR_STATE_FORCED || atLevel s l then s
    else beginLevel s l

/-- A request for a pair: it starts at once, or takes the pending slot, and a replacement is counted (R572). E0's WAIT whose pending sleep
request a newer request replaces goes on waiting: nothing in the spec completes it (R164; assumption log 67). -/
def requestPair (s : State) (st l : Nat) : State :=
  if s.pwr.run.isNone then
    (if st ≠ 0 then beginEntry s st else if atLevel s l then s else beginLevel s l)
  else
    let s := if onF s fPWR_STATE_PENDV then wrF s fPWR_STATE_REPL ((rdF s fPWR_STATE_REPL + 1) % 256) else s
    wrF (wrF (wrF s fPWR_STATE_PENDV 1) fPWR_STATE_PENDS st) fPWR_STATE_PENDL l

/-- LEVEL: the request waits for the release while forcing holds, and for the wake in a sleep state (R66, R572, X1). -/
def execLevelRequest (e : Eng) (v : BitVec 24) (s : State) : Out :=
  let a := fAddr fPWR_LEVEL_REQ 0 0
  onSet s e a v fun s =>
    let s := setNow s a v.toNat
    if onF s fPWR_STATE_FORCED || s.pwr.force.isSome || rdF s fPWR_STATE_CURS != 0 then s
    else requestPair s 0 (rdF s fPWR_LEVEL_REQ)

/-! ## Ends of a transition -/

/-- E0's WAIT of R164 completes. -/
def endSleepWait (s : State) : State :=
  let g := eng s 0
  if !g.sleeping then s else endInstr g.step (retire (setEng s 0 { g with sleeping := false, st := .running }) 0 (g.pc + 1)) 0

/-- The wake from S1 or S2 completes: S0 at the level in force, MODE cleared, lanterns no longer gated, channels at full power, event
0x580_015 with the source, and E0's WAIT (R276, R578). -/
def completeWake (s : State) : State :=
  let (src, dur) := s.pwr.wake.getD (0, false)
  let s := wrF (wrF (wrF s fPWR_STATE_CURS 0) fPWR_STATE_CURL (rdF s fPWR_STATE_TGTL)) fPWR_MODE_SLEEP 0
  let s := clearRun { s with pwr := { s.pwr with wake := none } }
  let s := { s with engs := s.engs.map fun (x : Nat × Engine) => (x.1, { x.2 with gated := false }) }
  let s := (List.range 4).foldl (fun s c => wrF s fPON_CHSTAT_PSM 0 c) s
  let s := result s fPWR_WAKEWHY_SRC (2 ^ src + 128 * b2n dur)
  followOn (endSleepWait (emit1 s 0x580015 src))

/-- The wake from S3 begins: the module is reset and starts up from crystal start (R578, R672, R674), and WAKEWHY and event 0x580_015
tell the source. -/
def startFromS3 (s : State) : State :=
  let (src, dur) := s.pwr.wake.getD (0, false)
  let s := romStart (resetModule s 3)
  emit1 (result s fPWR_WAKEWHY_SRC (2 ^ src + 128 * b2n dur)) 0x580015 src

/-- The regulator acknowledges: the rail holds the target, and a level transition or a wake completes; an entry goes on with its next
step, and a forcing that waited for its lowering starts (R89, R570, R577, R578). -/
def execVoltageAck (s : State) : Out :=
  if !s.pwr.volt || !alwaysOn s || s.sys.halted then .next s
  else
    let s := { s with pwr := { s.pwr with volt := false, rail := rdF s fPWR_STATE_TGTL } }
    match s.pwr.run with
    | some 0 => .next (followOn (clearRun (wrF s fPWR_STATE_CURL (rdF s fPWR_STATE_TGTL))))
    | some 2 => .next (if inS3 s then startFromS3 s else completeWake s)
    | _ => .next (forceWaited (wrF s fPWR_PMSTAT_TRIES 0))

/-- A wake whose request has failed three times leaves the module in its sleep state (R580). The number of the cause is a free value
(assumption log 2). -/
def failWake (s : State) : State :=
  let c := takeFree (clearRun { s with pwr := { s.pwr with wake := none, failed := true } })
  let s := wrF (wrF c.2 fLOG_FWCAUSE_CAUSE c.1) fLOG_FWCAUSE_PRESENT 1
  let s := forceWaited (driveMate (emit0 s 0x580012))
  { s with sys := { s.sys with alm0 := true } }

/-- A voltage request not acknowledged within 2 ms, 1,250,000 ticks: sent again, and after three attempts the transition ends (R571,
R580). A sleep entry that ends so leaves the module in S0, and E0's WAIT completes (assumption log 30). -/
def execVoltageRequestTimeout (s : State) : Out :=
  if !s.pwr.volt || !alwaysOn s || s.sys.halted || s.sys.ticks < s.pwr.voltAt + 1250000 then .next s
  else
    let n := rdF s fPWR_PMSTAT_TRIES
    if n < 3 then
      .next { emit0 (wrF s fPWR_PMSTAT_TRIES (n + 1)) 0x580011 with pwr := { s.pwr with voltAt := s.sys.ticks } }
    else if s.pwr.run = some 2 then .next (failWake s)
    else
      let sleeping := s.pwr.run == some 1
      let s := raiseFault (emit0 (clearRun s) 0x580016) 0x580016 63
      .next (followOn (if sleeping then endSleepWait { s with pwr := { s.pwr with wake := none } } else s))

/-! ## Sleep entry and wake -/

/-- Local ports without KEEP, and tests on their lanes, stop (R308, X8). -/
def stopLanes (s : State) (all : Bool) : State :=
  (List.range 34).foldl (fun s p =>
    if portOf s p != some p || (!all && portKept s p) then s
    else
      let s := (portLanes s p).foldl (fun s l =>
        let s := wrF (wrF (wrF s fTST_TSTAT_ACTIVE 0 l) fTST_TSTAT_LOOPON 0 l) fTST_TSTAT_LOCK 0 l
        { s with tst := { s.tst with inj := tset (fun _ => 0) s.tst.inj l 0 } }) s
      portDown s p) s

/-- Engines of the lanterns that GATE names; lantern 0 is never gated (R128). -/
def gateEngines (s : State) : List Nat :=
  let g := rdF s fPWR_GATE_LANTERNS * 2
  (List.range 192).filter fun e => bitOf g (lanternOf e) && lanternOf e != 0

/-- The engine of pool p that takes what stands on a gated one. -/
def stayOn (s : State) (l : List Nat) (p : Nat) : Option Nat :=
  leastBy (fun e => (eng s e).frames.length) ((poolEngines s p).filter fun e => !l.contains e)

/-- The flows that stand on engines to be gated and have an engine of their pool that stays on, each with the move it must make before its
lantern is gated (R223). -/
def flowsToClear (s : State) : List (Nat × Nat × Nat) :=
  let l := gateEngines s
  s.flow.recs.filterMap fun x =>
    if !(x.2.valid && x.2.progen) then none
    else match flowEngine s x.1, stayOn s l x.2.prog with
      | some e, some t => if l.contains e then some (x.1, e, t) else none
      | _, _ => none

/-- The lanterns are gated once every flow that could leave them has left (R128, R223, R577): their engines stop where they are, the unnamed
flows of a pool take an engine that stays on, and event 0x080_011 records each pool that is left without a live engine (R220). -/
def gateLanterns (s : State) : State :=
  let l := gateEngines s
  let pools := (List.range 64).filter fun p => l.any fun e => inPool s p e && engLives s e
  let pool := ((List.range 64).filter fun p => (poolEngine s p).any l.contains).foldl
    (fun t p => match stayOn s l p with
      | some e => tset (fun _ => none) t p (some e)
      | none => t) s.plc.pool
  let s := l.foldl (fun s e => setEng s e { eng s e with gated := true }) { s with plc := { s.plc with pool := pool } }
  notePoolsGone s pools

/-- The levels at which the DIO pads are held: those of the SAFE states that they take (R567, R579). -/
def heldPads (s : State) : Nat × Nat :=
  (List.range 16).foldl (fun (x : Nat × Nat) j =>
    if rdF s fMEAS_DCFG_DIR 0 j = 0 ∨ rdF s fMEAS_DCFG_SAFE 0 j = 0 then x
    else (x.1 + 2 ^ j, x.2 + b2n (rdF s fMEAS_DCFG_SAFE 0 j == 2) * 2 ^ j)) (0, 0)

/-- Every output pad as S3 holds it, its SAFE state or, for a timing output, the level it had; the level of a frequency or ToD output at that
instant is a free value (R577, R579; assumption log 2). -/
def padsNow (s : State) : Pads :=
  let pick := fun (f : Nat → Option Bool) (l : List Nat) => l.foldl (fun t k => tset (fun _ => none) t k (f k)) []
  { dio := heldPads s
    pwm := pick (pwmSafe s) (List.range 8)
    alm := [0, 1].foldl (fun t k => tset (fun _ => false) t k (almSafe s k)) []
    pps := pick (ppsPin s) [0, 1]
    freq := pick (fun j => (freqPin s j).map fun f => f != 0 && Config.freeBool (s.sys.free + j)) [0, 1]
    tod := pick (fun j => (todPin s j).map fun x => x.2.isEmpty || Config.freeBool (s.sys.free + 2 + j)) [0, 1] }

/-- The module reaches a sleep state: STATE reads it, event 0x580_014 records it, and a journal entry is committed (R577, R652). A
pending request is dropped: LEVEL holds its level for the wake (X1). -/
def asleep (s : State) (st : Nat) : State :=
  let s := wrF (wrF (wrF s fPWR_STATE_CURS st) fPWR_STATE_CURL 3) fPWR_STATE_PENDV 0
  commitJournal (emit1 (clearRun s) 0x580014 st)

/-- Whether a valid entry of channel c in the active page keeps it at full power: a US entry keeps it from doze, a DS entry from
watchful sleep (R293). -/
def slotsAwake (s : State) (st c : Nat) : Bool :=
  (List.range 16).any fun t =>
    let e := conn s (rdF s fTRIB_ACTPG_PAGE) (16 * c + t)
    e.valid && (if st = 1 then e.us else e.ds)

/-- The steps of R577 for S1 and S2 after the first; a channel that its tributaries keep awake stays at full power (R276, R293). -/
def enterLight (s : State) (st : Nat) (chans : Nat) : State :=
  let s := stopLanes (if st = 2 then gateLanterns s else s) false
  let s := (List.range 4).foldl (fun s c =>
    if bitOf chans c && chanOperating s c && !slotsAwake s st c then wrF s fPON_CHSTAT_PSM st c else s) s
  asleep s st

/-- The frames left when QM's drain ends, counted per queue (R439). -/
def countLeft (s : State) : State :=
  s.qm.queues.foldl (fun s x => count s 0x0d kQmDrained x.1 x.2.frames.length) s

/-- The steps of R577 for S3 after the first: lanes and tests, chains and QM, outputs at SAFE with their pads held, and every rail but the
always-on rail off; the letter store is lost; SELREF becomes 0 and the mate's lines are undriven (R207, R308, R439, R471, R567, R588, X10).
Without the candle the crystal goes on for the counter (R538). -/
def enterDeep (s : State) : State :=
  let s := countLeft (stopLanes s true)
  let hold := padsNow s
  let s := { s with sys := { s.sys with free := s.sys.free + 4 } }
  let s := endSlew (selectRef (outputsSafe s) 0)
  let s := wrF (asleep s 3) fPWR_PADS_HELD 1
  let s := loseVolatile s
  driveMate { s with
    pwr := { s.pwr with rail := 4, hold := some hold }
    hst := { s.hst with rate := 0, width := 0, store := [] }
    sys := { s.sys with phase := .asleep, runState := false, crystal := s.sys.crystal && onF s fTIME_TSTAT_NOCANDLE } }

/-- The steps of a sleep entry after the lowering (R577); chans are the channels whose head end allows the low-power mode (R276). It waits
for a fuse write (X7), for S2 until no move runs and every flow that can has been moved off the lanterns to be gated, up to 16 at once (R216, R223,
X12), and for S3 until every chain has ended its letter (R207). -/
def execSleepEntry (chans : BitVec 4) (s : State) : Out :=
  let st := rdF s fPWR_STATE_TGTS
  if s.pwr.run != some 1 || s.pwr.volt || !live s || s.fuse.op.isSome then .next s
  else if st = 3 then
    let s := (List.range 8).foldl stopChain s
    if (List.range 8).any fun n => (chain s n).st == 5 then .next s else .next (enterDeep s)
  else if st = 2 && runningMoves s != 0 then .next s
  else if st = 2 && !(flowsToClear s).isEmpty then
    .next (((flowsToClear s).take 16).foldl (fun s m => startMove s 0 m.1 m.2.1 m.2.2 false) s)
  else .next (enterLight s st chans.toNat)

/-- A wake event is acted on: a transition to S0 begins, at LEVEL or, while forcing holds, P3; from S3 at P0, to which LEVEL returns (R578, R580,
R672). -/
def execWakeEvent (s : State) : Out :=
  if s.pwr.wake.isNone || s.pwr.run.isSome || s.pwr.failed || s.sys.halted || !alwaysOn s || rdF s fPWR_STATE_CURS = 0 then .next s
  else
    let s' := beginTransition s 2 0 (if inS3 s then 0 else wantedLevel s)
    .next (if s'.pwr.volt then s' else completeWake s')

/-- DOORBELL with WAKE (R192, R578). -/
def execDoorbellWake (_n : ChainI) (s : State) : Out := onHost s fun s => wakeSource s 4

/-- A forced-wake indication from the head end of channel c (R277, R578). -/
def execPonForcedWake (c : Chan) (s : State) : Out :=
  if live s && active s 5 c && onF s fPON_CHSTAT_LOCK c then .next (wakeSource s 0) else .next s

/-- PADS with REL = 1: the pads are released to what the words say (R579). -/
def execPadRelease (e : Eng) (v : BitVec 24) (s : State) : Out :=
  onSet s e (fAddr fPWR_PADS_REL 0 0) v fun s =>
    if !bitOf v.toNat 0 then s
    else { wrF s fPWR_PADS_HELD 0 with pwr := { s.pwr with hold := none } }

/-! ## Temperature, core voltage, overload -/

/-- Whether the sensors and the core's monitor run: power is on and the module is not in S3. -/
def sensorsOn (s : State) : Bool := alwaysOn s && !inS3 s

/-- TJ receives the highest of the sixteen sensors (R582). At or above 135 °C the H fault is raised (R88, R615); the first reading at or above
125 °C starts forcing, after a running transition (R88, R89); below 115 °C a forcing ends, and the level last requested is restored (R66). -/
def execTjSample (t : BitVec 16) (sensor : Fin 16) (s : State) : Out :=
  if !sensorsOn s then .next s
  else
    let tj := sext t.toNat 16
    let p := unsext tj 24
    let was := isReady s (fAddr fPWR_TJ_T 0 0) && decide (1350 ≤ sext (rdF s fPWR_TJ_T) 16)
    let s := result s fPWR_TJ_T (t.toNat + 65536 * sensor.val)
    if 1350 ≤ tj then
      .next (if was then s else raiseFault (emitM s 0x580022 p sensor (curLevel s) (now s) true) 0x580022 63)
    else if s.sys.halted then .next s
    else if 1250 ≤ tj then
      .next (if onF s fPWR_STATE_FORCED || s.pwr.force.isSome then s
        else if s.pwr.run.isSome && (s.pwr.volt || s.pwr.run != some 1) then { s with pwr := { s.pwr with force := some (p, sensor.val) } }
        else beginForce s p sensor)
    else if tj < 1150 ∧ onF s fPWR_STATE_FORCED then
      let l := rdF s fPWR_LEVEL_REQ
      let s := emit1 (wrF s fPWR_STATE_FORCED 0) 0x580021 l
      let s := { s with plc := { s.plc with still := true } }
      .next (if rdF s fPWR_STATE_CURS != 0 || s.pwr.run == some 1 || s.pwr.run == some 2 then s
        else if s.pwr.run.isSome then
          (if onF s fPWR_STATE_PENDV && rdF s fPWR_STATE_PENDS != 0 then s
           else wrF (wrF (wrF s fPWR_STATE_PENDV 1) fPWR_STATE_PENDS 0) fPWR_STATE_PENDL l)
        else if atLevel s l then s
        else beginLevel s l)
    else .next s

/-- VCORE receives the core voltage in mV (R584). -/
def execVcoreResult (mv : BitVec 12) (s : State) : Out :=
  if sensorsOn s then .next (result s fPWR_VCORE_MV mv.toNat) else .next s

/-- A read of OVLD answers and clears CAUSE (R11, R574, R584). -/
def execOvldRead (e : Eng) (s : State) : Out :=
  let a := fAddr fPWR_OVLD_CAUSE 0 0
  if !getReady s e a then .next s
  else
    let v := rdF s fPWR_OVLD_CAUSE + 16 * b2n (overRecent s)
    .next (wrF (answer s e (some (wd v))) fPWR_OVLD_CAUSE 0)

end Sys2Proof.Machine
end

