-- ==== Sys2Proof/Machine/Wait.lean ====
section
/-! DEFINITION. Wake times, WAIT and samples (R129, R130, R160 to R164). -/
namespace Sys2Proof.Machine

/-- 2^18 s and 131,072 s in ns. -/
def wakeSpan : Nat := 262144 * 1000000000

/-- What TIMEAT makes of a pair: the wake time as seconds and ns, or none where the pair lies in the past and the latch sets at once (R161). A
pair exactly 131,072 s away counts as ahead (assumption log 31). -/
def wakeTime (s : State) (pair : Nat) : Option (Nat × Nat) :=
  let t := s.time.sec * 1000000000 + s.time.ns
  let w := pair / 2 ^ 30 * 1000000000 + pair % 2 ^ 30
  let d := (w + wakeSpan - t % wakeSpan) % wakeSpan
  if d = 0 ∨ wakeSpan / 2 < d then none else some ((t + d) / 1000000000, (t + d) % 1000000000)

/-- TIMEAT: the wake time is armed and the latch cleared; nanoseconds of 1,000,000,000 or above, and an RA that begins no pair, are illegal
(R132, R161). -/
def execTimeat (e : Eng) (ra : Reg) (s : State) : Out :=
  instr s e 1 [ra, ra + 1] fun g =>
    let p := pairVal g ra
    if !pairOk ra || decide (1000000000 ≤ p % 2 ^ 30) then .trap 1 (encR 0x3a 0 ra 0 0).toNat 0
    else
      let w := wakeTime s p
      .done (setEng s e { g with wake := w, timeL := w.isNone })

/-- TIMEAT with FN 1: the wake time is disarmed and the latch cleared (R161). -/
def execTimeatDisarm (e : Eng) (s : State) : Out := instrG s e 1 [] fun g => { g with wake := none, timeL := false }

/-- The time counter has reached an engine's wake time by its advance: the latch sets (R162). -/
def execTimeLatchSet (e : Eng) (s : State) : Out :=
  let g := eng s e
  match g.wake with
  | some (w, n) =>
    if !live s || decide (s.time.sec < w) || (s.time.sec == w && decide (s.time.ns < n)) then .next s
    else .next (setEng s e { g with wake := none, timeL := true })
  | none => .next s

/-- Whether one of the conditions that WAIT selects holds (R163). -/
def waitHolds (g : Engine) (c : Nat) : Bool :=
  (bitOf c 0 && pk g) || (bitOf c 1 && g.watchL) || (bitOf c 2 && g.timeL) || (bitOf c 3 && !g.frames.isEmpty)

/-- WAIT: completes at once where a selected condition holds or none is selected, else the engine waits (R163). On E0 with MODE not 0 it
begins a sleep entry, which at user level is a privilege trap (R109, R164, R572). -/
def execWait (e : Eng) (conds : BitVec 4) (s : State) : Out :=
  instr s e 1 [] fun g =>
    let mode := rdF s fPWR_MODE_SLEEP
    if e.val = 0 ∧ mode ≠ 0 then
      (if !g.kp then .trap 2 (encI 0x39 0 0 conds.toNat).toNat 0
       else .hold (requestPair (setEng s e { g with st := .waiting, conds := 0, sleeping := true }) mode (rdF s fPWR_LEVEL_REQ)))
    else if conds = 0 || waitHolds g conds.toNat then .done s
    else .hold (setEng s e { g with st := .waiting, conds := conds.toNat })

/-- A selected condition has come to hold and the WAIT completes (R163). -/
def execWaitWake (e : Eng) (s : State) : Out :=
  let g := eng s e
  if !live s || g.st != .waiting || g.gated || g.sleeping || !waitHolds g g.conds then .next s
  else .next (endInstr g.step (retire (setEng s e { g with st := .running, conds := 0 }) e (g.pc + 1)) e)

/-- The expiry of a sampling interval: the count restarts, and the pc of the instruction that reached it is noted, or with TIP set the sample is
dropped and counted (R129, R130). -/
def expire (s : State) (e : Nat) : State :=
  let g := eng s e
  if g.tip then setEng s e { g with count := 0, dropped := g.dropped + 1 }
  else setEng s e { g with noted := some (g.lastPc, 0), count := 0 }

/-- The retired-instruction count reaches the sampling interval (R129, R130). -/
def execSampleIntervalExpiry (e : Eng) (s : State) : Out :=
  if !live s || !sampleDue s e then .next s else .next (expire s e)

/-- The trap of a noted sample, with the noted pc as detail 1 and the instructions retired since as skid; where a trap has set TIP since, the
sample is dropped and counted instead (R129, R130). -/
def sampleTrap (s : State) (e : Nat) : State :=
  let g := eng s e
  match g.noted with
  | some (pc, k) =>
    if g.tip then setEng s e { g with noted := none, dropped := g.dropped + 1 }
    else enterTrap (setEng s e { g with noted := none, dropped := 0 }) e 0xa pc.toNat 0 k g.dropped
  | none => s

/-- The sample trap; its entry waits for outstanding far loads (R129, R130, R154). -/
def execSampleTrap (e : Eng) (s : State) : Out :=
  if !able s e || loadsOut (eng s e) then .next s else .next (sampleTrap s e)

/-- Counter kind of ENG: memory errors corrected (R104). -/
def kEngEcc : Nat := 0

/-- An engine whose next instruction word holds an uncorrectable error goes to FAILED without executing it (R104). -/
def fetchFails (s : State) (e : Nat) : State := failEngine (emit2 s 0x040011 e (eng s e).pc.toNat) e 0x040011

/-- An uncorrectable error in the instruction word that the engine is to execute; or a single-bit error in a word of its memories, or of shared
memory as it is read, which is corrected and counted (R104). -/
def execImemEccError (x : EccHit) (s : State) : Out :=
  if x.single then .next (if live s then count s 1 kEngEcc x.e else s)
  else if !able s x.e then .next s
  else .next (fetchFails s x.e)

end Sys2Proof.Machine
end

