-- ==== Sys2Proof/Machine/Window.lean ====
section
/-! DEFINITION. Frames in an engine's packet window: TAKE, SEND, DROP and ADJ (R148 to R151). -/
namespace Sys2Proof.Machine

/-- A frame as the window takes it: its first 192 bytes have arrived (R150, R151). -/
def takenWin (f : Frame) : Window :=
  let w := frameWin f
  { w with got := if w.full ≤ 192 then 12288 else 192 }

/-- TAKE: the oldest frame of the engine's queue enters the window, once its descriptor and first 192 bytes have arrived; NR where the
window holds a frame or the queue is empty (R149, R151, R437). -/
def execTake (e : Eng) (s : State) : Out :=
  instr s e 1 [] fun g =>
    if !g.win.idle then .done (setEng s e { g with nr := true })
    else match g.frames with
      | [] => .done (setEng s e { g with nr := true })
      | f :: l =>
        if !g.arrived then .stall
        else .done (eqcnt (setEng s e { g with frames := l, arrived := false, win := takenWin f, nr := false }) e)

/-- The head of the engine's next frame arrives, or the rest of the frame in its window (R151). -/
def execFrameArrivalInWindow (e : Eng) (rest : Bool) (s : State) : Out :=
  let g := eng s e
  if !live s then .next s
  else if rest then
    .next (if g.win.idle then s else setEng s e { g with win := { g.win with got := 12288 } })
  else .next (if g.frames = [] then s else setEng s e { g with arrived := true })

/-- The far loads that a frame sent now waits for: those on their way and those whose seal is not checked (R106). -/
def loadWaits (e : Nat) (g : Engine) : List Nat :=
  ((g.far.filter fun f => match f.kind with
      | .load _ => true
      | .blockLoad _ => true
      | _ => false).map (fun f => f.serial) ++ g.unchecked.map fun u => u.1).map fun k => e * 2 ^ 64 + k

/-- The frame that SEND makes of the window: LEN bytes, then what lies beyond the window (R148, R150). -/
def sentFrame (e : Nat) (g : Engine) : Frame :=
  let w := g.win
  { bytes := ((List.range w.len).map fun k => tget (fun _ => 0) w.buf k) ++ (if w.trunc then w.tail else [])
    source := w.source
    flow := w.flow
    colour := w.colour
    queue := w.queue
    txsc := w.txsc
    mark := w.mark
    action := w.action
    frag := w.frag
    poison := w.poison
    fixcs := w.fixcs
    hdr := w.hdr
    orig := w.orig
    waits := loadWaits e g
    hash := w.hash }

/-- A frame offered to QM for a destination. -/
def offerFrame (s : State) (f : Frame) (d : Dest) : State :=
  addFlight s { id := 0, stage := 1, frame := f, ended := true, bad := 0, icv := .none, dest := d, port := none, rxLen := f.bytes.length + 4,
                decided := true, cls := 0, prot := false, of_ := none }

/-- Where QUEUE leads: a host queue, a scheduler queue or the queue of a bucket's channel, whose running move fences it; or nowhere (R213,
R216, R271, R425). -/
def sendDest (s : State) (q hash : Nat) : Option Dest :=
  if 16376 ≤ q then some (.host (q - 16376)) else queueDest s q hash

/-- SEND: the window's frame goes to queue QUEUE with its descriptor, and the window is idle again; NR where it holds no frame (R149). -/
def execSend (e : Eng) (s : State) : Out :=
  instr s e 1 [] fun g =>
    if g.win.idle then .done (setEng s e { g with nr := true })
    else
      let s' := setEng s e { g with win := idleWin, nr := false }
      match sendDest s g.win.queue g.win.hash with
      | some d => .done (offerFrame s' (sentFrame e g) d)
      | none => .done (count s' 0x0d kQmUnplaced g.win.queue)

/-- DROP: the window's frame is discarded and counted against its flow; NR where there is none (R149). -/
def execDrop (e : Eng) (s : State) : Out :=
  instr s e 1 [] fun g =>
    if g.win.idle then .done (setEng s e { g with nr := true })
    else .done (count (setEng s e { g with win := idleWin, nr := false }) 0x0c kFlowDropped g.win.flow)

/-- A table of window bytes moved by d bytes; what falls before byte 0 or at n and beyond is gone. -/
def shiftTab {α : Type} (t : Tab α) (d : Int) (n : Nat) : Tab α :=
  (t.filter fun p => decide (0 ≤ (p.1 : Int) + d) && decide ((p.1 : Int) + d < n)).map fun p => (((p.1 : Int) + d).toNat, p.2)

/-- The classifier's header offsets after d bytes are inserted at the front; a header that is cut into is no longer known (R330). -/
def shiftHdrs (h : Hdrs) (d : Int) : Hdrs :=
  let l3 := (h.l3 : Int) + d
  let l4 := (h.l4 : Int) + d
  { l3 := l3.toNat, ver := if l3 < 0 then 0 else h.ver, l4 := l4.toNat, proto := if l3 < 0 ∨ l4 < 0 then 0 else h.proto }

/-- The window after ADJ by d: zero bytes inserted or bytes removed at the front, LEN moved, and the bytes at or beyond LEN zero (R148,
R149). -/
def adjWin (w : Window) (d : Int) : Window :=
  let n := ((w.len : Int) + d).toNat
  { w with
    len := n
    hdr := shiftHdrs w.hdr d
    orig := shiftTab w.orig d 12288
    buf := shiftTab (w.buf.filter fun p => p.1 < w.len) d n
    got := if w.got = 12288 then 12288 else ((w.got : Int) + d).toNat
    full := min n ((w.full : Int) + d).toNat }

/-- ADJ: bytes inserted or removed at the front of the window's frame; NR where there is no frame or the new LEN would lie outside 14 to
12,288 (R149). -/
def execAdj (e : Eng) (rb : Reg) (s : State) : Out :=
  instr s e 1 [rb] fun g =>
    let d := (reg g rb).toInt
    let n := (g.win.len : Int) + d
    if g.win.idle || decide (12288 < n) || decide (n < 14) then .done (setEng s e { g with nr := true })
    else .done (setEng s e { g with win := adjWin g.win d, nr := false })

end Sys2Proof.Machine
end

