-- ==== Sys2Proof/Machine/Bj24.lean ====
section
/-! DEFINITION. The BJ-24 encodings (R131, R132, R135), the illegal trap, and STEP, which runs one instruction from memory (R684). -/
namespace Sys2Proof.Machine

/-- OP of an instruction word (R131). -/
def opOf (w : Word) : Nat := bitsOf w.toNat 18 6

/-- RD of an instruction word (R131). -/
def rdOf (w : Word) : Reg := Fin.ofNat 16 (bitsOf w.toNat 14 4)

/-- RA of an instruction word (R131). -/
def raOf (w : Word) : Reg := Fin.ofNat 16 (bitsOf w.toNat 10 4)

/-- RB of an instruction word (R131). -/
def rbOf (w : Word) : Reg := Fin.ofNat 16 (bitsOf w.toNat 6 4)

/-- FN of an instruction word (R131). -/
def fnOf (w : Word) : Nat := bitsOf w.toNat 0 6

/-- IMM10 of an instruction word (R131). -/
def immOf (w : Word) : BitVec 10 := BitVec.ofNat 10 w.toNat

/-- An instruction's meaning where its fields that must be zero are zero (R132). -/
def ifZero (fields : List Nat) (f : State → Out) : Option (State → Out) := if fields.all (fun x => x == 0) then some f else none

/-- The ALU group (R136). -/
def aluRun (e : Eng) (w : Word) : Option (State → Out) :=
  let d := rdOf w
  let a := raOf w
  let b := rbOf w
  match fnOf w with
  | 0x00 => some (execAdd e d a b)
  | 0x01 => some (execAddc e d a b)
  | 0x02 => some (execSub e d a b)
  | 0x03 => some (execSubc e d a b)
  | 0x04 => some (execAnd e d a b)
  | 0x05 => some (execOr e d a b)
  | 0x06 => some (execXor e d a b)
  | 0x07 => some (execAndn e d a b)
  | 0x08 => some (execShl e d a b)
  | 0x09 => some (execShr e d a b)
  | 0x0a => some (execSar e d a b)
  | 0x0b => some (execRol e d a b)
  | 0x0c => some (execMul e d a b)
  | 0x0d => some (execMulh e d a b)
  | 0x0e => some (execMulhu e d a b)
  | 0x0f => some (execDiv e d a b)
  | 0x10 => some (execDivu e d a b)
  | 0x11 => some (execRem e d a b)
  | 0x12 => some (execRemu e d a b)
  | 0x13 => some (execMin e d a b)
  | 0x14 => some (execMax e d a b)
  | 0x15 => some (execMinu e d a b)
  | 0x16 => some (execMaxu e d a b)
  | 0x17 => ifZero [b] (execClz e d a)
  | 0x18 => some (execExtb e d a b)
  | _ => none

/-- The FRM group (R149). -/
def frmRun (e : Eng) (w : Word) : Option (State → Out) :=
  match fnOf w with
  | 0 => ifZero [rdOf w, raOf w, rbOf w] (execTake e)
  | 1 => ifZero [rdOf w, raOf w, rbOf w] (execSend e)
  | 2 => ifZero [rdOf w, raOf w, rbOf w] (execDrop e)
  | 3 => ifZero [rdOf w, raOf w] (execAdj e (rbOf w))
  | _ => none

/-- The SYS group (R166). -/
def sysRun (e : Eng) (w : Word) : Option (State → Out) :=
  match fnOf w with
  | 0 => ifZero [rdOf w, raOf w, rbOf w] (execNop e)
  | 1 => ifZero [raOf w, rbOf w] (execMfl e (rdOf w))
  | 2 => ifZero [rdOf w, rbOf w] (execMtfl e (raOf w))
  | 3 => ifZero [raOf w, rbOf w] (execMftp e (rdOf w))
  | 4 => ifZero [rdOf w, rbOf w] (execMttp e (raOf w))
  | _ => none

/-- EXT and INS: a position of 24 to 31 is illegal (R141). -/
def fieldRun (w : Word) (f : Fin 24 → BitVec 5 → State → Out) : Option (State → Out) :=
  let p := bitsOf w.toNat 5 5
  if h : p < 24 then some (f ⟨p, h⟩ (BitVec.ofNat 5 w.toNat)) else none

/-- B: COND values 19 to 31 are illegal (R142). -/
def branchRun (e : Eng) (w : Word) : Option (State → Out) :=
  let c := bitsOf w.toNat 13 5
  if h : c < 19 then some (execB e ⟨c, h⟩ (BitVec.ofNat 13 w.toNat)) else none

/-- FLD and FST: FN[5:2] and RB zero, a size of 1 to 3, a register pair in RA (R132, R152). -/
def farRun (w : Word) (f : Fin 4 → State → Out) : Option (State → Out) :=
  if pairOk (raOf w) && fnOf w % 4 != 0 then ifZero [rbOf w, fnOf w / 4] (f (Fin.ofNat 4 (fnOf w))) else none

/-- What an instruction of engine e does, its words given, or none where the encoding is illegal (R131 to R166). A field that an instruction
neither uses nor marks as zero is ignored (R132; assumption log 37). bad: the
data word that it reads holds an uncorrectable error (R104). -/
def bjRun (e : Eng) (w w1 : Word) (bad : Bool := false) : Option (State → Out) :=
  let d := rdOf w
  let a := raOf w
  let b := rbOf w
  let n := fnOf w
  let i := immOf w
  match opOf w with
  | 0x01 => aluRun e w
  | 0x02 => some (execAddi e d a i)
  | 0x03 => some (execAndi e d a i)
  | 0x04 => some (execOri e d a i)
  | 0x05 => some (execXori e d a i)
  | 0x06 => ifZero [bitsOf w.toNat 5 3] (execShi e d a (Fin.ofNat 4 (bitsOf w.toNat 8 2)) (BitVec.ofNat 5 w.toNat))
  | 0x07 => some (execSubi e d a i)
  | 0x08 => ifZero [a, i.toNat] (execLdi e d w1)
  | 0x09 => fieldRun w (execExt e d a)
  | 0x0a => fieldRun w (execIns e d a)
  | 0x10 => some (execLd e d a i bad)
  | 0x11 => some (execSt e d a i)
  | 0x12 => ifZero [n] (execXadd e d ⟨a, bad⟩ b)
  | 0x13 => ifZero [n] (execCas e d ⟨a, bad⟩ b)
  | 0x14 => some (execPld1 e d a i)
  | 0x15 => some (execPld2 e d a i)
  | 0x16 => some (execPld3 e d a i)
  | 0x17 => some (execPst1 e d a i)
  | 0x18 => some (execPst2 e d a i)
  | 0x19 => some (execPst3 e d a i)
  | 0x1a => frmRun e w
  | 0x20 => farRun w (execFld e d a)
  | 0x21 => farRun w (execFst e d a)
  | 0x22 => if pairOk a then ifZero [d] (execFbl e a b (BitVec.ofNat 6 n)) else none
  | 0x23 => if pairOk a then ifZero [d] (execFbs e a b (BitVec.ofNat 6 n)) else none
  | 0x24 => ifZero [d, a, b, n] (execFence e)
  | 0x28 => ifZero [d, n] (execSet e a b)
  | 0x29 => ifZero [b, n] (execGet e d a)
  | 0x2a => ifZero [d, b, n] (execCommit e a)
  | 0x2c => if n < 4 then ifZero [a] (execPost e (Fin.ofNat 4 n) b) else none
  | 0x2d => if n < 4 then ifZero [a, b] (execCollect e (Fin.ofNat 4 n)) else none
  | 0x30 => branchRun e w
  | 0x31 => ifZero [bitsOf w.toNat 15 3] (execJmp e (BitVec.ofNat 15 w.toNat))
  | 0x32 => ifZero [bitsOf w.toNat 15 3] (execCall e (BitVec.ofNat 15 w.toNat))
  | 0x33 => ifZero [b, n] (execJr e d a)
  | 0x38 => some (execWatch e a)
  | 0x39 => ifZero [a, bitsOf w.toNat 4 6] (execWait e (BitVec.ofNat 4 w.toNat))
  | 0x3a =>
    if n = 0 then (if pairOk a then some (execTimeat e a) else none)
    else if n = 1 then ifZero [a] (execTimeatDisarm e)
    else none
  | 0x3c => ifZero [d, a, bitsOf w.toNat 4 6] (execTrap e (BitVec.ofNat 4 w.toNat))
  | 0x3d => ifZero [d, a, b, n] (execRtt e)
  | 0x3e => sysRun e w
  | _ => none

/-- An instruction whose encoding is illegal raises the illegal trap, with word 0 and, where its OP has two words, word 1 as details
(R112, R132). The fetch comes first: an LDI at 0x7FFF raises the address trap though its RA or IMM10 is not zero (R133; assumption log 73,
DESIGN CHOICE). -/
def execIllegalEncoding (e : Eng) (w0 w1 : Word) (s : State) : Out :=
  if (bjRun e w0 w1).isSome then .next s
  else instr s e (if opOf w0 = 8 then 2 else 1) [] fun _ => .trap 1 w0.toNat (if opOf w0 = 8 then w1.toNat else 0)

/-- What engine e executes next from its instruction memory. -/
def runNext (e : Eng) (bad : Bool) (s : State) : Out :=
  let pc := (eng s e).pc.toNat
  let w0 := imemW s e pc
  let w1 := imemW s e (pc + 1)
  match bjRun e w0 w1 bad with
  | some f => f s
  | none => execIllegalEncoding e w0 w1 s

/-- What a sample asks for before the next instruction of engine e: an expiry is noted, and one that 12 instructions have followed traps (R129,
R130). -/
def settleSample (s : State) (e : Nat) : State :=
  let s := if sampleDue s e then expire s e else s
  if (eng s e).noted.any fun (x : Word × Nat) => decide (12 ≤ x.2) then sampleTrap s e else s

/-- ECTL with STEP, and not CLRFAIL: a STOPPED engine executes one instruction from EPC and stops again; RUN keeps its value (R119, R684).
An instruction that stalls or waits leaves the engine RUNNING or WAITING until it completes, which stops the engine (assumption log 32). -/
def execEngineStep (by_ : Eng) (l : Lan) (k : Fin 8) (v : StepWord) (s : State) : Out :=
  if !bitOf v.v.toNat 1 || bitOf v.v.toNat 3 then .next s
  else match accept s by_ false (ectlAddr l k) v.v with
    | none => .next s
    | some s =>
      let s := setSample s l k v.v
      let e : Eng := Fin.ofNat 192 (engOf l k)
      let g := eng s e
      if g.st != .stopped || g.gated || (dom s (14 + l.val)).failed then .next s
      else
        let s := settleSample (setEng s e { g with st := .running, step := true }) e
        if !(eng s e).past && v.fetch then .next (fetchFails s e) else runNext e v.bad s

end Sys2Proof.Machine
end

