-- ==== Sys2Proof/Machine/Boot.lean ====
section
/-! DEFINITION. Start-up, images, recovery, the feeds and the crystal (R36, R73, R85, R91 to R95, R123, R507, R508, R581, R672 to
R680). -/
namespace Sys2Proof.Machine

/-! ## Images -/

/-- A big-endian field of n bytes at offset a of an image (R123). -/
def imgField (b : List Byte) (a n : Nat) : Nat := ofBytes ((b.drop a).take n)

/-- The image length that a header states (R123). -/
def imgLength (b : List Byte) : Nat := imgField b 8 4

/-- The image version (R123). -/
def imgVersionOf (b : List Byte) : Nat := imgField b 12 4

/-- Whether a header meets R123, in an image of at most n bytes; a length with no room for header, table and signature does not
(assumption log 35). -/
def headerOk (b : List Byte) (n : Nat) : Bool :=
  imgField b 0 4 == 0x5447494d && imgField b 4 2 == 1 && decide (1 ≤ imgField b 6 2 ∧ imgField b 6 2 ≤ 512) &&
    decide (imgLength b ≤ 33554432 ∧ imgLength b ≤ n ∧ 64 + 16 * imgField b 6 2 + 96 ≤ imgLength b) &&
    decide (imgField b 16 1 ≤ 3) && ((b.drop 17).take 47).all fun x => x == 0

/-- The hash of a signer's key: SHA-384 of signer record bytes 0 to 95 (R507, R508). -/
def signerHash (signer : List Byte) : Nat := numOf (sha384 (nums (signer.take 96)))

/-- Condition 2 of R508: the signer's hash is written and not revoked; in BLANK with no hash written any key is accepted. -/
def signerOk (s : State) (signer : List Byte) : Bool :=
  let hash := tget (fun _ => none) s.fuse.hash
  (s.fuse.state == 0 && (hash 0).isNone && (hash 1).isNone) ||
    [0, 1].any fun k => hash k == some (signerHash signer) && !tget (fun _ => false) s.fuse.revoked k

/-- Condition 3 of R508: the last 96 bytes of the image sign what stands before them. -/
def signatureOk (b signer : List Byte) : Bool :=
  let n := imgLength b - 96
  ecdsaOk (ofBytes (signer.take 48)) (ofBytes ((signer.drop 48).take 48)) (imgField b n 48) (imgField b (n + 48) 48) (nums (b.take n))

/-- The first condition of R508 that an image of at most n bytes fails, 0 for none. -/
def imageWhy (s : State) (b signer : List Byte) (n : Nat) : Nat :=
  if !headerOk b n || imgField b 16 1 != 0 then 1
  else if !signerOk s signer then 2
  else if !signatureOk b signer then 3
  else if imgVersionOf b / 2 ^ 24 < s.fuse.floor then 4
  else 0

/-- A section of an image (R123). -/
structure Section where
  lanterns : Nat
  engines : Nat
  target : Nat
  user : Bool
  start : Bool
  off : Nat
  len : Nat
  dst : Nat
deriving DecidableEq, Repr

/-- The section table of the image in DRAM at far address 0 (R123, R676). -/
def sections (s : State) : List Section :=
  let b := dramRead s 0 (64 + 16 * 512)
  (List.range (imgField b 6 2)).map fun k =>
    let e := b.drop (64 + 16 * k)
    let f := imgField e 4 1
    { lanterns := imgField e 0 3, engines := imgField e 3 1, target := bitsOf f 0 2, user := bitOf f 4, start := bitOf f 5,
      off := imgField e 5 4, len := imgField e 9 4, dst := imgField e 13 3 }

/-- Whether a section's part for lantern l writes E0's own memories: it is loaded at the handover (R677). -/
def forE0 (x : Section) (l : Nat) : Bool := l == 0 && x.target != 2 && bitOf x.engines 0

/-- One transfer of a section into lantern l, refused as a loader refuses it, its bytes extending accumulator 0 (R123, R125, R508). -/
def loadSection (s : State) (x : Section) (l : Nat) : State :=
  let t : Load := { src := x.off, lines := x.len / 64, emask := x.engines, target := x.target, off := x.dst, acc := 0 }
  if x.len % 64 ≠ 0 ∨ loadWhy s l t ≠ 0 then s
  else
    let bs := dramRead s x.off x.len
    extend (loadBytes s l x.target x.engines x.dst bs) 0 (sha384 (nums bs))

/-- The transfers of the image: sections in the table's order, the lanterns of each in ascending order; E0's own, or all the others. -/
def loadImage (s : State) (e0 : Bool) : State :=
  (sections s).foldl (fun s x =>
    ((List.range 24).filter fun l => bitOf x.lanterns l && forE0 x l == e0).foldl (fun s l => loadSection s x l) s) s

/-- Engines other than E0 whose instruction section carries the start flag start at its first word and level (R123, R677). -/
def startSections (s : State) : State :=
  ((sections s).filter fun x => x.target == 0 && x.start).foldl (fun s x =>
    ((List.range 192).filter fun e => e != 0 && bitOf x.lanterns (e / 8) && bitOf x.engines (e % 8)).foldl (fun s e =>
      if (eng s e).st != .stopped then s
      else setEng s e { eng s e with pc := wd x.dst, kp := !x.user, st := .running, past := false, conds := 0 }) s) s

/-- An accepted image in DRAM: A0 extended by its signer's key, the sections loaded but for E0's own, the engines started that they
name, and E0 stopped (R508, R674, R677). -/
def acceptImage (s : State) (signer : List Byte) : State :=
  let s := extend s 0 (sha384 (nums (signer.take 96)))
  let s := startSections (loadImage s false)
  let s := setEng s 0 { eng s 0 with st := .draining, conds := 0 }
  { s with sys := { s.sys with phase := .handover, imgVersion := imgVersionOf (dramRead s 0 64) } }

/-! ## Recovery -/

/-- Event 0x440_015, recorded once (R679). -/
def recordOnce (s : State) : State :=
  if s.sys.recorded15 then s
  else
    let s := emit0 s 0x440015
    { s with sys := { s.sys with recorded15 := true } }

/-- Window 0 of rights entry 2 (R490). -/
def setHostWindow (s : State) (w : Win) : State :=
  { s with mpe := { s.mpe with rights := tset winReset s.mpe.rights 8 w } }

/-- The entry to recovery: chain 0 is enabled, rights entry 2 opens the first 32 MB, ALM0_N is driven low and the event recorded (R678,
R679). -/
def enterRecovery (s : State) : State :=
  let s := recordOnce (setHostWindow (wrF s fHST_CHCTL_EN 1) ⟨0, 511, true, true⟩)
  { s with sys := { s.sys with phase := .recovery, alm0 := true } }

/-- The signer record that ROM takes for an image that a host has placed is the command's operand: where it stands is not stated
(assumption log 35). ROM checks the image that the oldest message of a host chain in E0's postbox announces and replies to host
postbox 0xF0; an accepted one is loaded, and entry 2 and chain 0 return to their reset values (R508, R678). -/
def execRecoveryImageCheck (signer : List Byte) (s : State) : Out :=
  if s.sys.phase != .recovery || !live s then .next s
  else match takeFirst (fun (p : Place) => p.ready && decide (0xf0 ≤ p.msg.sender ∧ p.msg.sender < 0xf8)) (boxOf s 0) with
    | none => .next s
    | some (p, l) =>
      let s := setBox s 0 l
      let n := min (64 * p.msg.w1) 33554432
      let b := dramRead s 0 n
      let why := imageWhy s b signer n
      let c := takeFree s
      let s := if why = 0 then s else emit c.2 0x440014 c.1 why (takeFree c.2).1
      let x := takeFree s
      let y := takeFree x.2
      let z := takeFree y.2
      let s := (post z.2 0xf0 ⟨0xff, why, x.1, y.1, z.1⟩).1
      if why ≠ 0 then .next s
      else
        let s := acceptImage s signer
        let s := setHostWindow (setChain (wrF s fHST_CHCTL_EN 0) 0 chainReset) (winReset 8)
        .next { s with sys := { s.sys with fromHost := true, alm0 := false } }

/-- The payload of the broadcast: serial number, event code 0x440_015 and LCSTATE bits [7:0] (R679). -/
def broadcastFrame (s : State) : List Byte :=
  let serial := (List.range 6).map Config.factoryByte
  List.replicate 6 0xff ++ (0x02 :: serial.drop 1) ++ [0x88, 0xb6] ++ serial ++ [0x44, 0x00, 0x15] ++
    [by8 (rdW s (fAddr fKEY_LCSTATE_STATE 0 0)).toNat]

/-- Once per second in recovery or after a crystal failure, while the time unit runs: the site-bus broadcast leaves, padded to 60 bytes
with its FCS (R339, R679). -/
def execRecoveryBroadcast (s : State) : Out :=
  if !(s.sys.phase == .recovery || s.sys.phase == .noCrystal) || !live s || !(s.sys.crystal || onF s fCNDL_CSTAT_OSC) then .next s
  else
    let f := broadcastFrame s
    let b := f ++ List.replicate (60 - f.length) 0
    let b := b ++ fcsOf b
    .next { count (count s 9 (kSbusFrames false) 0) 9 (kSbusBytes false) 0 b.length with sbus := { s.sbus with sent := b } }

/-! ## The steps of start-up -/

/-- Step 1 ends: with power-good the module goes on to step 2, and figures stated from power-on run from here (R16); without it every rail but
the always-on rail is dropped (R674, R675). -/
def railsTried (s : State) (good : Bool) : State :=
  if good then romStart { s with cndl := { s.cndl with onAt := s.sys.ticks } } else { s with sys := { s.sys with phase := .rails, railAt := s.sys.ticks } }

/-- POWER_ON: a feed reaches -40.5 V; the power-on is counted and committed, so that the life counter never shows a value twice, and
step 1 runs (R55, R94, R651, R652, R672, R674). -/
def execPowerOn (a b good : Bool) (s : State) : Out :=
  if s.sys.phase != .off || !(a || b) then .next s
  else
    let s := commitJournal (journalAdd (resetModule s 1) 96)
    .next (railsTried { s with sys := { s.sys with feedA := a, feedB := b } } good)

/-- RAIL_START_RETRY: 100 ms, 62,500,000 ticks, after the last try, while a feed stays in range (R675). -/
def execRailStartRetry (good : Bool) (s : State) : Out :=
  if s.sys.phase != .rails || !(s.sys.feedA || s.sys.feedB) || s.sys.ticks < s.sys.railAt + 62500000 then .next s
  else .next (railsTried s good)

/-- RST_N_RESET: RST_N was low for so many ns. 10 us or more reset the module, less than 1 us is ignored, and between the two the module
either resets completely or not at all (R73, R672, R673). -/
def execRstNReset (low : Nat) (takes : Bool) (s : State) : Out :=
  if s.sys.phase == .off || low < 1000 || (low < 10000 && !takes) then .next s
  else .next (romStart (resetModule s 2))

/-- CRYSTAL_READY: step 3 ends and step 4 begins (R581, R674); a crystal that had stopped runs again (R85). -/
def execCrystalReady (s : State) : Out :=
  if s.sys.phase == .off || s.sys.phase == .rails || s.sys.phase == .asleep || s.sys.phase == .noCrystal || s.sys.crystal then .next s
  else
    let s := { s with sys := { s.sys with crystal := true, phase := if s.sys.phase == .crystal then .training else s.sys.phase } }
    .next (driveMate s)

/-- CRYSTAL_START_TIMEOUT: 50 ms, 31,250,000 ticks, without the crystal. It is restarted twice; after the third failure the core goes on
without its islands, with event 0x580_013, a class N fault, MATE_FIT and ALM1_N low, and ROM continues at R679 (R581, R615, R675). -/
def execCrystalStartTimeout (s : State) : Out :=
  if s.sys.phase != .crystal || s.sys.crystal || s.sys.ticks < s.sys.railAt + 31250000 then .next s
  else
    let s := { s with sys := { s.sys with crystalTries := s.sys.crystalTries + 1, railAt := s.sys.ticks } }
    if s.sys.crystalTries < 3 then .next s
    else
      let s := raiseFault (emit0 s 0x580013) 0x580013 63
      .next (driveMate (recordOnce { s with sys := { s.sys with phase := .noCrystal, alm1 := true } }))

/-- An image slot (R94). -/
def imageSlot (s : State) (k : Nat) : Slot := tget (fun _ => ⟨false, [], []⟩) s.sys.slots k

/-- The order in which ROM tries the valid slots (R676). -/
def slotOrder (s : State) : List Nat :=
  let l := if imgVersionOf (imageSlot s 0).bytes < imgVersionOf (imageSlot s 1).bytes then [1, 0] else [0, 1]
  l.filter fun k => (imageSlot s k).valid

/-- The stage-1 image of slot k: the first image in the slot (R676). -/
def slotImage (s : State) (k : Nat) : List Byte :=
  let b := (imageSlot s k).bytes
  b.take (min (imgLength b) 33554432)

/-- Steps 6 to 8 for the slots that are left to try, each copied to far address 0 and checked: the first that meets R508 is accepted, and
without one the module enters recovery; other is what the handover message will say of the other slot (R508, R674, R676 to R678). -/
def trySlots : List Nat → Nat → State → State
  | [], _, s => enterRecovery s
  | k :: l, other, s =>
    let x := imageSlot s k
    let s := deviceWrite s 0 (slotImage s k)
    let why := imageWhy s x.bytes x.signer x.bytes.length
    if why = 0 then
      let s := acceptImage s x.signer
      { s with sys := { s.sys with slotUsed := k, otherFail := other, fromHost := false } }
    else trySlots l why (emit2 s 0x440014 k why)

/-- DRAM_TRAINED: every channel is trained and the memory keys are drawn, which needs the random source; ROM then chooses an image slot
(R471, R477, R505, R674, R676). -/
def execDramTrained (s : State) : Out :=
  if s.sys.phase != .training || !live s || !s.sys.crystal || !onF s fKEY_RNGSTAT_READY || onF s fKEY_RNGSTAT_FAILED then .next s
  else
    let s := (List.range 17).foldl drawMemKeys { s with mpe := { s.mpe with keys := true } }
    let s := (List.range 32).foldl (fun s c => trained (wrF s fMEM_CHSTAT_TRAINOK 1 0 c) c) s
    .next (trySlots (slotOrder s) (if (imageSlot s 0).valid && (imageSlot s 1).valid then 0 else 15) s)

/-- The entry of E0: the first word of its instruction section that carries the start flag (R677). -/
def e0Entry (s : State) : Option Nat :=
  ((sections s).find? fun x => x.target == 0 && x.start && bitOf x.lanterns 0 && bitOf x.engines 0).map fun x => x.dst

/-- BOOT_HANDOVER: E0 reads STOPPED, the loader of lantern 0 writes E0's own sections and starts E0 at keeper level; RUN, event
0x040_020 and the boot message are as R677 states. An entry that no section gives, and the slot and the other slot's condition of an image
from a host, are free values (assumption log 35). -/
def execBootHandover (s : State) : Out :=
  if s.sys.phase != .handover || !live s || (eng s 0).st != .stopped then .next s
  else
    let s := loadImage s true
    let x := takeFree s
    let y := takeFree x.2
    let z := takeFree y.2
    let used := if s.sys.fromHost then x.1 % 2 else s.sys.slotUsed
    let other := if s.sys.fromHost then y.1 % 16 else s.sys.otherFail
    let entry := (e0Entry s).getD (z.1 % 32768)
    let v := s.sys.imgVersion
    let m : Msg := ⟨0xff, s.sys.kind + 4 * b2n s.sys.fromHost, used, other + 16 * (v / 2 ^ 24), v % 2 ^ 24⟩
    let s := setEng z.2 0 { eng z.2 0 with pc := wd entry, kp := true, st := .running, past := false, conds := 0, box := [⟨m, true, 0⟩] }
    .next (emit2 { s with sys := { s.sys with phase := .running, runState := true } } 0x040020 used (v % 2 ^ 24))

/-! ## Feeds and crystal in operation -/

/-- The event of a feed's loss or return: the unit that raises it stands in [23:18] of its code (R15). Which unit that is, and the rest
of the code, are not stated and are free values (assumption log 8). -/
def feedEvent (s : State) : State :=
  let u := takeFree s
  let c := takeFree u.2
  emit0 c.2 ((1 + u.1 % 27) * 2 ^ 18 + c.1 % 2 ^ 18)

/-- FEED_LOSS: one feed leaves its range. While the other is in range nothing but the event follows (R36); without it the instant is
kept, and the stages of R91 come by their own commands. -/
def execFeedLoss (b : Bool) (s : State) : Out :=
  if s.sys.phase == .off || !(if b then s.sys.feedB else s.sys.feedA) then .next s
  else
    let s := { s with sys := { s.sys with feedA := s.sys.feedA && b, feedB := s.sys.feedB && !b } }
    if !(s.sys.feedA || s.sys.feedB) then .next { s with sys := { s.sys with lostAt := some s.sys.ticks } }
    else .next (if alwaysOn s then feedEvent s else s)

/-- FEED_RETURN: a lost feed is in range again. With the other in range the return is recorded (R36); a module that rode through the
loss of both runs on, its rails back in range (R57, R93). -/
def execFeedReturn (b : Bool) (s : State) : Out :=
  if s.sys.phase == .off || (if b then s.sys.feedB else s.sys.feedA) then .next s
  else
    let other := s.sys.feedA || s.sys.feedB
    let s := { s with sys := { s.sys with feedA := s.sys.feedA || !b, feedB := s.sys.feedB || b, lostAt := none, sag := 0 } }
    .next (if other && alwaysOn s then feedEvent s else s)

/-- The lane and PON islands lose lock: each lost lock is a class L fault in its recovery domain (R91, R615). -/
def islandsLost (s : State) : State :=
  let s := ((List.range 9).filter fun g => (groupLanes g).any fun l => onF s fLANE_LSTAT_PLLLOCK l).foldl pllLost s
  ((List.range 4).filter fun c => !(ponCh s c).pllLost).foldl (fun s c =>
    raiseFault (emit0 (lods (setPon s c { ponCh s c with pllLost := true }) c) 0x140016) 0x140016 c) s

/-- Whether both feeds have been out of range for more than 1.0 ms, 625,000 ticks: the module rides through less (R57). -/
def feedsGone (s : State) : Bool :=
  s.sys.phase != .off && !(s.sys.feedA || s.sys.feedB) && s.sys.lostAt.any fun t => decide (t + 625000 < s.sys.ticks)

/-- ISLAND_RAIL_SAG: stage 3 of R91, once both feeds have been gone for long enough (R57). The fabric's slowing is a matter of time
alone. -/
def execIslandRailSag (s : State) : Out :=
  if !feedsGone s || s.sys.sag != 0 then .next s
  else
    let s := { s with sys := { s.sys with sag := 3 } }
    .next (if live s then islandsLost s else s)

/-- DRAM_PHY_LOCK_LOST: the next read on the channel fails its seal, and the module halts on that (R469, R479). With the feeds in range
it is a loss of the PHY's own or the crystal's (R85, R469); without them it is stage 4 of R91, which follows stage 3 and no other
(R92). -/
def execDramPhyLockLost (_c : Fin 32) (line : Nat) (master : Fin 64) (s : State) : Out :=
  let gone := !(s.sys.feedA || s.sys.feedB)
  if gone && s.sys.sag != 3 then .next s
  else
    let s := if gone then { s with sys := { s.sys with sag := 4 } } else s
    .next (if live s && s.mpe.keys && decide (line < dataSpace) then sealFault s 0x400010 (line / 64 * 64) master else s)

/-- COLLAPSE: stage 5 of R91, which follows stage 4 (R92). Every domain is off, and outputs release (R71, R95). -/
def execCollapse (s : State) : Out :=
  if s.sys.phase == .off || s.sys.sag != 4 || s.sys.feedA || s.sys.feedB then .next s else .next (powerOff s)

/-- CRYSTAL_LOSS: the islands that the crystal clocks go down (R85), and MATE_FIT falls (R587). The time unit runs on from the candle, if
that oscillates. -/
def execCrystalLoss (s : State) : Out :=
  if !alwaysOn s || !s.sys.crystal then .next s
  else
    let s := { s with sys := { s.sys with crystal := false } }
    if !live s then .next (driveMate s)
    else match execPcieLinkDown (driveMate (islandsLost s)) with
      | .next t => .next t
      | _ => .next s

end Sys2Proof.Machine
end

