-- ==== Sys2Proof/Machine/Chk.lean ====
section
/-! DEFINITION. The check-value engine (R498 to R500, R514). -/
namespace Sys2Proof.Machine

/-- Counter kinds of CHK, per instance: operations by COP. -/
def kChkOp (op : Nat) : Nat := op
/-- Operations by CODE. -/
def kChkCode (code : Nat) : Nat := 9 + code

/-- CTATTR of instance l as a number. -/
def ctAttr (s : State) (l : Nat) : Nat := bitsOf (rdW s (fAddr fCHK_CTATTR_CLASS l 0)).toNat 0 6

/-- CRES of instance l (R514). -/
def chkRes (s : State) (l code n : Nat) : State := count (result s fCHK_CRES_CODE (code + 16 * n) l) 0x12 (kChkCode code) l

/-- Whether so many bytes from shared-memory word a fit. -/
def chkFits (a n : Nat) : Bool := a + blockWords n ≤ 524288

/-- The input bytes of instance l (R498). -/
def chkInput (s : State) (l : Nat) : List Nat := nums (sharedBytes s l (rdF s fCHK_CIN_ADDR l) (rdF s fCHK_CLEN_N l))

/-- The bytes that words of instance l from f on spell, three a word. -/
def chkBytes (s : State) (l : Nat) (f : Fld) (words n : Nat) : List Nat :=
  (((List.range words).map fun j => numBytes 3 (rdF s f l j)).flatten).take n

/-- An operation that will end with a code, so many bytes at COUT and nothing more. -/
def chkPlain (code : Nat) : ChkOp := { code := code, out := 0, bytes := [], tag := [], slot := none }

/-- A CGO of operation op at instance l. The codes are looked for in the order 8, 6, 7, 9, 5, 3, 4, which the spec does not give
(assumption log 22): n bytes of input must lie in a range and, with the output, inside shared memory; the key slot must be VALID, not
BAD, and of its class and DIR. What the operation makes of it is held until its completion. -/
def onCgo (s : State) (e : Eng) (l : Lan) (v : BitVec 24) (op cls : Nat) (lengthOk : State → Bool) (dirOk : KeySlot → Bool)
    (more : State → Option Nat) (f : State → KeySlot → ChkOp) : Out :=
  if !bitOf v.toNat 0 || rdF s fCHK_COP_OP l != op then .next s
  else onSet s e (fAddr fCHK_CGO_GO l 0) v fun s =>
    let s := count s 0x12 (kChkOp op) l
    let x := keySlot s (rdF s fCHK_CSLOT_SLOT l)
    let rules := [(!active s 0x12 l, 8), ((tget (fun _ => none) s.chk l).isSome, 6), (lanternOf e != l.val, 7),
      (op == 6 && !(eng s e).kp, 9), (!lengthOk s, 5), (!x.valid || x.bad, 3), (x.cls != cls || !dirOk x, 4)]
    match (rules.find? fun y => y.1).map (fun y => y.2) <|> more s with
    | some c => chkRes s l c 0
    | none => { s with chk := tset (fun _ => none) s.chk l (some (f s x)) }

/-- Whether the input of a CMAC or GMAC is in range. -/
def macLen (l : Nat) (s : State) : Bool := rdF s fCHK_CLEN_N l ≤ 4096 && chkFits (rdF s fCHK_CIN_ADDR l) (rdF s fCHK_CLEN_N l)

/-- The operation of a generated tag. -/
def tagOf (s : State) (l : Nat) (t : List Nat) : ChkOp := { chkPlain 0 with tag := bytesOf (t.take (rdF s fCHK_CTLEN_N l)) }

/-- The operation of a verified tag: code 0 or 1 (R499). -/
def verOf (s : State) (l : Nat) (t : List Nat) : ChkOp :=
  let n := rdF s fCHK_CTLEN_N l
  chkPlain (if t.take n = chkBytes s l fCHK_CTAG_T 6 n then 0 else 1)

/-- The CMAC of instance l's input under a slot. -/
def chkCmac (s : State) (l : Nat) (x : KeySlot) : List Nat := cmac (slotKey x) (chkInput s l)

/-- The GMAC of instance l's input under a slot and CIV. -/
def chkGmac (s : State) (l : Nat) (x : KeySlot) : List Nat := gmac (slotKey x) (chkBytes s l fCHK_CIV_IV 4 12) (chkInput s l)

/-- CMAC-GEN (R498). -/
def execCmacGen (e : Eng) (l : Lan) (v : BitVec 24) (s : State) : Out :=
  onCgo s e l v 1 0 (macLen l) (fun _ => true) (fun _ => none) fun s x => tagOf s l (chkCmac s l x)

/-- CMAC-VER (R498, R499). -/
def execCmacVer (e : Eng) (l : Lan) (v : BitVec 24) (s : State) : Out :=
  onCgo s e l v 2 1 (macLen l) (fun _ => true) (fun _ => none) fun s x => verOf s l (chkCmac s l x)

/-- GMAC-GEN (R498). -/
def execGmacGen (e : Eng) (l : Lan) (v : BitVec 24) (s : State) : Out :=
  onCgo s e l v 3 0 (macLen l) (fun _ => true) (fun _ => none) fun s x => tagOf s l (chkGmac s l x)

/-- GMAC-VER (R498, R499). -/
def execGmacVer (e : Eng) (l : Lan) (v : BitVec 24) (s : State) : Out :=
  onCgo s e l v 4 1 (macLen l) (fun _ => true) (fun _ => none) fun s x => verOf s l (chkGmac s l x)

/-- Whether a slot wraps: DIR 0 or 1 (R493). -/
def mayWrap (x : KeySlot) : Bool := x.dir < 2

/-- Whether a slot unwraps: DIR 0 or 2 (R493). -/
def mayUnwrap (x : KeySlot) : Bool := x.dir != 1

/-- An operation that writes bytes at COUT. -/
def outOf (s : State) (l : Nat) (b : List Nat) : ChkOp :=
  { chkPlain 0 with out := rdF s fCHK_COUT_ADDR l, bytes := bytesOf b }

/-- WRAP-KEY: the key of slot CKSRC, of any class with EXP 1, as an RFC 3394 envelope (R493, R498). -/
def execWrapKey (e : Eng) (l : Lan) (v : BitVec 24) (s : State) : Out :=
  let src := fun (s : State) => keySlot s (rdF s fCHK_CKSRC_SLOT l)
  onCgo s e l v 5 2 (fun s => chkFits (rdF s fCHK_COUT_ADDR l) ((slotKey (src s)).length + 8)) mayWrap
    (fun s => if !(src s).valid || (src s).bad then some 3 else if !(src s).exp then some 4 else none)
    fun s x => outOf s l (wrapKey (slotKey x) (slotKey (src s)))

/-- UNWRAP-KEY: an RFC 3394 envelope into slot CTSLOT; a failed integrity check writes nothing (R498, R499). -/
def execUnwrapKey (e : Eng) (l : Lan) (v : BitVec 24) (s : State) : Out :=
  onCgo s e l v 6 2
    (fun s => rdF s fCHK_CLEN_N l == (if bitOf (ctAttr s l) 2 then 40 else 24) && chkFits (rdF s fCHK_CIN_ADDR l) (rdF s fCHK_CLEN_N l)) mayUnwrap
    (fun s => if rdF s fCHK_CTSLOT_SLOT l = 0 || !attrOk (ctAttr s l) then some 4 else none)
    fun s x => match unwrapKey (slotKey x) (chkInput s l) with
      | some k => { chkPlain 0 with slot := some (rdF s fCHK_CTSLOT_SLOT l, numOf (k ++ List.replicate (32 - k.length) 0)) }
      | none => chkPlain 2

/-- WRAP-DATA: 1 to 4,088 bytes as an RFC 5649 envelope (R498). -/
def execWrapData (e : Eng) (l : Lan) (v : BitVec 24) (s : State) : Out :=
  onCgo s e l v 7 2
    (fun s => let n := rdF s fCHK_CLEN_N l
      1 ≤ n && n ≤ 4088 && chkFits (rdF s fCHK_CIN_ADDR l) n && chkFits (rdF s fCHK_COUT_ADDR l) (max 16 (8 + (n + 7) / 8 * 8))) mayWrap
    (fun _ => none) fun s x => outOf s l (wrapData (slotKey x) (chkInput s l))

/-- UNWRAP-DATA: the data of an RFC 5649 envelope; a failed integrity check writes nothing (R498, R499). -/
def execUnwrapData (e : Eng) (l : Lan) (v : BitVec 24) (s : State) : Out :=
  onCgo s e l v 8 2
    (fun s => let n := rdF s fCHK_CLEN_N l
      16 ≤ n && n ≤ 4096 && n % 8 == 0 && chkFits (rdF s fCHK_CIN_ADDR l) n && chkFits (rdF s fCHK_COUT_ADDR l) (n - 8)) mayUnwrap
    (fun _ => none) fun s x => match unwrapData (slotKey x) (chkInput s l) with
      | some d => outOf s l d
      | none => chkPlain 2

/-- The running operation of instance l completes: its bytes, tag or slot are written and CRES says so; a failed integrity check records
event 0x480_010 (R498, R499). Tag bytes past CTLEN are free values (assumption log 2). -/
def execChkOpComplete (l : Lan) (s : State) : Out :=
  match tget (fun _ => none) s.chk l with
  | some x =>
    if !live s then .next s
    else
      let s := { s with chk := tset (fun _ => none) s.chk l none }
      let s := putShared s l x.out x.bytes
      let s := if x.tag = [] then s
        else
          let f := takeBytes (18 - x.tag.length) s
          (packWords (x.tag ++ f.1)).zipIdx.foldl (fun s w => result s fCHK_CTAGOUT_T w.1.toNat l w.2) f.2
      let s := match x.slot with
        | some (n, k) => writeSlot s n k (ctAttr s l) (rdF s fCHK_CTLIFE_LIFE l) false
        | none => s
      .next (chkRes (if x.code = 2 then emit0 s 0x480010 else s) l x.code x.bytes.length)
  | none => .next s

end Sys2Proof.Machine
end

