-- ==== Sys2Proof/Machine/Mem.lean ====
section
/-! DEFINITION. Refresh, retraining and the results of the memory controller (R466 to R472). -/
namespace Sys2Proof.Machine

/-- Counter kinds of MEM, per channel (R472): pauses. -/
def kMemPause : Nat := 3
/-- Accesses that a pause held. -/
def kMemHeld : Nat := 4
/-- Failed retrainings. -/
def kMemFail : Nat := 5

/-- One channel's refresh-rate report: doubled or quadrupled refresh from the first report that asks for it, until 1 s of reports at or
below 85 °C, 625,000,000 ticks (R466). -/
def refreshReport (s : State) (c : Nat) (code : BitVec 5) (lvl : Fin 3) : State :=
  let old := rdF s fMEM_CHSTAT_REFX 0 c
  let s := wrF s fMEM_CHSTAT_REPORT code.toNat 0 c
  let s := { s with mem := { s.mem with hot := tset (fun _ => false) s.mem.hot c (lvl == 2) } }
  let since := (tget (fun _ => none) s.mem.cool c).getD s.sys.ticks
  let setCool := fun (s : State) (x : Option Nat) => { s with mem := { s.mem with cool := tset (fun _ => none) s.mem.cool c x } }
  if lvl = 0 then
    let s := setCool s (some since)
    if old ≠ 0 ∧ since + 625000000 ≤ s.sys.ticks then emit0 (wrF s fMEM_CHSTAT_REFX 0 0 c) 0x3c0012 else s
  else
    let s := setCool s none
    let s := wrF s fMEM_CHSTAT_REFX (max old lvl) 0 c
    if lvl = 2 ∧ old < 2 then raiseFault (emit0 s 0x3c0013) 0x3c0013 13
    else if lvl = 1 ∧ old < 1 then emit0 s 0x3c0011
    else s

/-- Every 2 ms, 1,250,000 ticks, the refresh-rate report of every die is read (R466). -/
def execRefreshReportRead (reports : List (BitVec 5 × Fin 3)) (s : State) : Out :=
  if !memRuns s || !paced s paceRefresh 1250000 then .next s
  else .next ((reports.take 32).zipIdx.foldl (fun s x => refreshReport s x.2 x.1.1 x.1.2) (setPace s paceRefresh))

/-- With neither a notice nor a pause running, the channel that has waited longest is given notice (R467). -/
def nextNotice (s : State) : State :=
  match s.mem.due with
  | c :: l =>
    if onF s fMEM_MSTAT_NOTICE || onF s fMEM_MSTAT_PAUSE then s
    else wrF (wrF { s with mem := { s.mem with due := l, noticeAt := s.sys.ticks } } fMEM_MSTAT_CH c) fMEM_MSTAT_NOTICE 1
  | [] => s

/-- A retraining of channel c is due: it waits its turn; a channel that waits already, or is under notice, is not asked twice
(R467). -/
def retrainDue (s : State) (c : Nat) : State :=
  if s.mem.due.contains c || (rdF s fMEM_MSTAT_CH == c && onF s fMEM_MSTAT_NOTICE) then s
  else nextNotice { s with mem := { s.mem with due := s.mem.due ++ [c] } }

/-- A retraining falls due by its interval since the last training, in ms, or by a temperature that has changed by deg °C since then, which RTTEMP 0
leaves out (R467). -/
def execRetrainDue (x : Retrain) (s : State) : Out :=
  let due := match x.deg with
    | none => decide (tget (fun _ => 0) s.mem.trainedAt x.c + 625000 * rdF s fMEM_MCFG_RTINT ≤ s.sys.ticks)
    | some d => rdF s fMEM_MCFG_RTTEMP != 0 && decide (rdF s fMEM_MCFG_RTTEMP ≤ d)
  if memRuns s && due then .next (retrainDue s x.c) else .next s

/-- TRAINNOW (R467, R472). -/
def execTrainnow (e : Eng) (c : Fin 32) (v : BitVec 24) (s : State) : Out :=
  onSet s e (fAddr fMEM_TRAIN_TRAINNOW 0 c) v fun s => if bitOf v.toNat 0 && memRuns s then retrainDue s c else s

/-- At least 5 us, 3,125 ticks, after its notice, and 2 us, 1,250 ticks, after the last pause, the channel pauses (R467). -/
def execRetrainPauseStart (s : State) : Out :=
  if !memRuns s || !onF s fMEM_MSTAT_NOTICE || s.sys.ticks < s.mem.noticeAt + 3125 || s.sys.ticks < s.mem.pauseEnd + 1250 then .next s
  else .next (count (wrF (wrF s fMEM_MSTAT_NOTICE 0) fMEM_MSTAT_PAUSE 1) 0x0f kMemPause (rdF s fMEM_MSTAT_CH))

/-- The pause ends; a result outside the margin keeps the old settings, event 0x3C0_010, a class N fault (R467, R468). -/
def execRetrainPauseEnd (ok : Bool) (step held : Nat) (s : State) : Out :=
  if !memRuns s || !onF s fMEM_MSTAT_PAUSE then .next s
  else
    let c := rdF s fMEM_MSTAT_CH
    let s := wrF (trained { s with mem := { s.mem with pauseEnd := s.sys.ticks } } c) fMEM_MSTAT_PAUSE 0
    let s := wrF (count s 0x0f kMemHeld c held) fMEM_CHSTAT_TRAINOK (b2n ok) 0 c
    if ok then .next (nextNotice s)
    else
      let s := wrF (count s 0x0f kMemFail c) fMEM_CHSTAT_TFAIL (min 255 (rdF s fMEM_CHSTAT_TFAIL 0 c + 1)) 0 c
      .next (nextNotice (raiseFault (emit2 s 0x3c0010 c step) 0x3c0010 13))

/-- Every 1 ms, 625,000 ticks, the bandwidth carried is a new result (R472). -/
def execMemBandwidthResult (v : BitVec 24) (s : State) : Out :=
  if memRuns s && paced s paceBandwidth 625000 then .next (result (setPace s paceBandwidth) fMEM_MBW_BW v.toNat) else .next s

end Sys2Proof.Machine
end

