-- ==== Sys2Proof/Machine/Mpe.lean ====
section
/-! DEFINITION. Seals, partial writes, granule fills and re-keys (R475 to R484). -/
namespace Sys2Proof.Machine

/-- Corrections of the memory's ECC counted on the channel of a line (R476). -/
def countFixed (s : State) (line n : Nat) : State := if n = 0 then s else count s 0x10 kMpeFixed (dramChannel line) n

/-- The seal check of a line that an engine's load has read completes, after fix corrections: its data counts as checked, or the module halts
(R106, R476, R478, R479). -/
def execSealCheck (e : Eng) (k line : Nat) (r : LineRead) (s : State) : Out :=
  let g := eng s e
  if !live s || !g.unchecked.contains (k, line) then .next s
  else if r.ok then .next (countFixed (setEng s e { g with unchecked := g.unchecked.filter fun x => x != (k, line) }) line r.fix)
  else .next (sealFault (countFixed s line r.fix) 0x400010 line (engMaster s e))

/-- The pair of R480 for a single far store: the line is read and checked, merged and written, or left as it was by a failed seal, on which
the module halts with event 0x400_011. A granule must be written first (R477), and the boundary line of a re-key waits (R483). -/
def execPartialWrite (e : Eng) (k : Nat) (r : LineRead) (s : State) : Out :=
  if !live s || !memRuns s || farHeld s e k then .next s
  else match farTurn (eng s e) k with
    | some ⟨_, .store, a, n, data, false⟩ =>
      if !rangeWritten s a n then .next s
      else if !r.ok then .next (sealFault (countFixed s a r.fix) 0x400011 (a / 64 * 64) (engMaster s e))
      else
        let g := eng s e
        let s' := setEng (dramWrite s a data) e { g with far := g.far.map fun f => if f.serial == k then { f with written := true } else f }
        .next (countFixed (countPair s' (engMaster s e) a) a r.fix)
    | _ => .next s

/-- Whether an engine's store or a READ letter waits for granule g to be filled (R477). -/
def fillWanted (s : State) (g : Nat) : Bool :=
  ((List.range 8).any fun n => executing s n 2 && (chain s n).done == 0 &&
    (let l := (chain s n).letter.getD []; lFar l / 65536 ≤ g && g ≤ (lFar l + lLen l - 1) / 65536)) ||
  s.engs.any fun x => x.2.far.any fun f => f.addr / 65536 ≤ g && g ≤ (f.addr + f.len - 1) / 65536 && (match f.kind with
    | .store => true
    | .blockStore _ => true
    | _ => false)

/-- The first write to an unwritten granule has it filled with sealed zero lines (R477). -/
def execGranuleFill (g : Nat) (s : State) : Out :=
  if !live s || !memRuns s || granuleWritten s g || !fillWanted s g then .next s else .next (setWritten s g true)

/-- The background fill has written every granule that was unwritten: INIT.DONE sets (R477, R490). -/
def execBackgroundFillDone (s : State) : Out :=
  if !live s || !memRuns s || (s.mpe.allWritten && s.mpe.odd.isEmpty) then .next s
  else .next (wrF { s with mpe := { s.mpe with allWritten := true, odd := [] } } fMPE_INIT_DONE 1)

/-- The running re-key of region r. -/
def rekeyOf (s : State) (r : Nat) : Option Rekey := tget (fun _ => none) s.mpe.rekey r

/-- The re-key of region r replaced. -/
def setRekey (s : State) (r : Nat) (x : Option Rekey) : State :=
  { s with mpe := { s.mpe with rekey := tset (fun _ => none) s.mpe.rekey r x } }

/-- RKGO: new keys are drawn and the re-key of region RKSEL starts at its first line, event 0x400_013, or it is refused (R482, R484). With the
random source failed no key can be drawn and nothing starts (R506; assumption log 86, DESIGN CHOICE). -/
def execRekeyStart (e : Eng) (v : BitVec 24) (s : State) : Out :=
  onSet s e (fAddr fMPE_RKGO_GO 0 0) v fun s =>
    let r := rdF s fMPE_RKSEL_R
    if !bitOf v.toNat 0 || !memRuns s then s
    else if (rekeyOf s r).isSome then result s fMPE_RKRES_STATE 1
    else if !(region s r).valid then result s fMPE_RKRES_STATE 2
    else if onF s fKEY_RNGSTAT_FAILED then s
    else
      let old := tget (fun _ => []) s.mpe.memKeys r
      let s := drawMemKeys { s with mpe := { s.mpe with keyGen := tset (fun _ => 0) s.mpe.keyGen r (tget (fun _ => 0) s.mpe.keyGen r + 1) } } r
      emit0 (result (setRekey s r (some ⟨(region s r).base * 65536, old⟩)) fMPE_RKRES_STATE 0) 0x400013

/-- The re-key engine takes the line at region r's boundary, or skips an unwritten granule, and the boundary moves on; past the last line
the re-key ends, event 0x400_014. A seal that fails halts the module with event 0x400_012 (R482, R483). -/
def execRekeyLine (r : Fin 16) (d : LineRead) (s : State) : Out :=
  match rekeyOf s r with
  | some x =>
    if !live s || !memRuns s || paused s x.line 64 then .next s
    else
      let w := granuleWritten s (x.line / 65536)
      let s := if w then countFixed s x.line d.fix else s
      let next := if w then x.line + 64 else (x.line / 65536 + 1) * 65536
      if w && !d.ok then .next (sealFault s 0x400012 x.line 0x12)
      else
        let s := if w then count (countPair s 0x12 x.line) 0x10 kMpeRekeyed r else s
        if ((region s r).limit + 1) * 65536 ≤ next then .next (emit0 (setRekey s r none) 0x400014)
        else .next (setRekey s r (some ⟨next, x.old⟩))
  | none => .next s

/-! ## What the DRAM dies hold -/

/-- The memory keys of the line at an address: those of its region, or, at and above the boundary of a running re-key, the old ones (R477, R483). -/
def keysAt (s : State) (a : Nat) : List Byte :=
  let r := ((List.range 16).find? fun r => (region s r).valid && (region s r).base ≤ a / 65536 && a / 65536 ≤ (region s r).limit).getD 0
  match rekeyOf s r with
  | some x => if x.line ≤ a then x.old else tget (fun _ => []) s.mpe.memKeys r
  | none => tget (fun _ => []) s.mpe.memKeys r

/-- The four ciphertext blocks of a line: AES-256-XTS, the data unit a 256-byte sector, the tweak its number, and the block index its place there
(R474). -/
def lineCipher (s : State) (line : Nat) : List (List Nat) :=
  let k := nums (keysAt s line)
  (List.range 4).map fun j =>
    xtsBlock (k.take 32) ((k.drop 32).take 32) (line / 256) (line % 256 / 16 + j) (nums (dramRead s (line + 16 * j) 16))

/-- The seal of a line: the first 32 bits of the CBC-MAC over its address and its ciphertext under the seal key (R475). -/
def lineSeal (s : State) (line : Nat) : List Nat :=
  (cbcMac ((nums (keysAt s line)).drop 64) (numBytes 16 line :: lineCipher s line)).take 4

end Sys2Proof.Machine
end

