-- ==== Sys2Proof/Machine/Sch.lean ====
section
/-! DEFINITION. Service decisions of the scheduling tree: eligibility, deficit round robin, charges, samples (R442 to R459, R634,
R635). -/
namespace Sys2Proof.Machine

/-- Counter kinds of SCH, per port node * 8 + class: frames served. -/
def kSchFrames : Nat := 0
/-- Bytes served. -/
def kSchBytes : Nat := 1
/-- Gate-held decisions. -/
def kSchHeld : Nat := 2
/-- Decisions lost under overload. -/
def kSchLost : Nat := 3
/-- Committed bytes of a subscriber node (0) or a service node (1). -/
def kSchCommitted (svc : Nat) : Nat := 4 + svc
/-- Excess bytes of a subscriber node (0) or a service node (1). -/
def kSchExcess (svc : Nat) : Nat := 6 + svc

/-- Counter kind of CNT: the queue-delay histogram, object 64 * group + bucket (R634). -/
def kCntHist : Nat := 2
/-- Counter kinds of CNT per sampled queue (R635): samples, sum and maximum of depths, sum and maximum of delays. -/
def kCntSample (i : Nat) : Nat := 3 + i

/-! ## Candidates -/

/-- Whether class c of node n has a candidate that waits for a gate, a pause or a hold (R451, R459). -/
def blocked (s : State) (n c : Nat) : Bool := s.qm.queues.any fun x => stands s n c x.1 && !open_ s n c false x.1

/-- Whether class c of node n has a candidate that its gate cannot take (R451). -/
def gateHeld (s : State) (n c : Nat) (ahead : Bool) : Bool :=
  decide (n < 32) && s.qm.queues.any fun x => stands s n c x.1 && !gateRoom s n c ahead x.1

/-- The classes of node n in the order of R444: protected ones first, each group from the highest number down. -/
def classOrder (s : State) (n : Nat) : List Nat :=
  let l := (List.range 8).map fun k => 7 - k
  l.filter (protectedClass s n) ++ l.filter fun c => !protectedClass s n c

/-! ## Deficit round robin -/

/-- Key of a deficit: pass, level of the child (0 queue, 1 subscriber, 2 service), class, child (R446). -/
def deficitKey (pass lvl c child : Nat) : Nat := ((pass * 4 + lvl) * 8 + c) * 65536 + child

/-- A choice among children, each given as (number, weight, length of its head frame): from the child served last on, in the order
of their numbers, the first whose deficit covers its head; a child gains its quantum when its turn comes (R446, R447, assumption
log 18). The first argument bounds the turns. -/
def drrTurns : Nat → List (Nat × Nat × Nat) → (Nat → Nat) → Nat → Bool → Tab Int → Option (Nat × Tab Int)
  | 0, _, _, _, _, _ => none
  | k + 1, l, key, i, fresh, t =>
    match l[i % l.length]? with
    | none => none
    | some (x, w, len) =>
      let d := tget (fun _ => 0) t (key x) + (if fresh then (w * 256 : Nat) else 0)
      if len ≤ d then some (x, tset (fun _ => 0) t (key x) (d - len))
      else drrTurns k l key (i + 1) true (tset (fun _ => 0) t (key x) d)

/-- A choice by deficit round robin under a parent's place: the child and the state that has chosen it. -/
def drr (s : State) (pass lvl c parent : Nat) (l : List (Nat × Nat × Nat)) : Option (Nat × State) :=
  let p := tget (fun _ => 0) s.sch.place (deficitKey pass lvl c parent)
  let after := l.filter (fun x => p ≤ x.1)
  let l' := after ++ l.filter (fun x => x.1 < p)
  match drrTurns (64 * l.length + 1) l' (deficitKey pass lvl c) 0 (l'.head?.any fun x => x.1 != p) s.sch.deficit with
  | none => none
  | some (x, t) =>
    some (x, { s with sch := { s.sch with deficit := t, place := tset (fun _ => 0) s.sch.place (deficitKey pass lvl c parent) x } })

/-- The charge of the head frame of queue q at node n: its length with FCS and OVH (R448). -/
def headCharge (s : State) (n q : Nat) : Nat :=
  ((queue s q).frames.head?.map fun f => f.frame.bytes.length + 4).getD 0 + rdF s fSCH_PNCFG_OVH n

/-- A subscriber node's choice among its queues of the class (R446). -/
def pickQueue (s : State) (n c b : Nat) (l : List Nat) : Option (Nat × State) :=
  drr s 0 0 c b ((l.filter fun q => (sqNode s q).parent == b).map fun q => (q, (sqNode s q).weight, headCharge s n q))

/-- Children with what each would send, those of the committed pass if there are any, else all, with the pass (R446). -/
def passOf (s : State) (lvl : Nat) (l : List (Nat × Nat × Nat)) : Nat × List (Nat × Nat × Nat) :=
  let m := l.filter fun x => committedOk s lvl x.1
  if m = [] then (1, l) else (0, m)

/-- A list without repeats, in rising order as its source lists them. -/
def nodup (l : List Nat) : List Nat := l.foldl (fun a x => if a.contains x then a else a ++ [x]) []

/-- A service node's choice among its subscriber nodes, and the chosen node's queue: (queue, subscriber pass, state) (R446). -/
def pickSub (s : State) (n c v : Nat) (l : List Nat) : Option (Nat × Nat × State) :=
  let subs := (nodup (l.map fun q => (sqNode s q).parent)).filter fun b => (sbNode s b).parent == v
  let kids := (subs.filterMap fun b => (pickQueue s n c b l).map fun r => (b, (sbNode s b).weight, headCharge s n r.1))
  let p := passOf s 2 kids
  match drr s p.1 1 c v p.2 with
  | none => none
  | some (b, s) => (pickQueue s n c b l).map fun r => (r.1, p.1, r.2)

/-- A port node's choice within a class: (queue, levels of the committed pass as bits, state) (R444, R446). -/
def pickService (s : State) (n c : Nat) (l : List Nat) : Option (Nat × Nat × State) :=
  let svcs := nodup (l.map fun q => (sbNode s (sqNode s q).parent).parent)
  let kids := svcs.filterMap fun v => (pickSub s n c v l).map fun r => (v, (svNode s v).weight, headCharge s n r.1)
  let p := passOf s 1 kids
  match drr s p.1 2 c n p.2 with
  | none => none
  | some (v, s) => (pickSub s n c v l).map fun r => (r.1, 2 * b2n (p.1 == 0) + 4 * b2n (r.2.1 == 0), r.2.2)

/-! ## The decision -/

/-- The bucket of a queue delay d in units of 10 ns (R634). -/
def delayBucket (d : Nat) : Nat :=
  if d = 0 then 0 else if d = 1 then 1
  else if 100000000 ≤ d then 63
  else 2 * Nat.log2 d + d / 2 ^ (Nat.log2 d - 1) % 2

/-- Delay since a tick in units of 10 ns, saturating at 1 s (R457). -/
def delayOf (s : State) (tick : Nat) : Nat := min ((s.sys.ticks - tick) * 16 / 100) 100000000

/-- The group of queue q (R634, R642). -/
def queueGroup (s : State) (q : Nat) : Nat := tget (fun k => k / 16) s.cnt.group q

/-- What a served frame counts (R446, R459, R634). -/
def countServed (s : State) (n c q : Nat) (f : QFrame) (charge comm : Nat) : State :=
  let s := count (count s 0x0e kSchFrames (8 * n + c)) 0x0e kSchBytes (8 * n + c) (f.frame.bytes.length + 4)
  let s := count s 0x19 kCntHist (64 * queueGroup s q + delayBucket (delayOf s f.at_))
  match pathOf s q with
  | some (b, v, _) =>
    let s := count s 0x0e (if bitOf comm 1 then kSchCommitted 1 else kSchExcess 1) v charge
    count s 0x0e (if bitOf comm 2 then kSchCommitted 0 else kSchExcess 0) b charge
  | none => s

/-- The head frame of queue q taken out, charged and counted; parity tells whether a word of it fails its check (R427, R446, R448). -/
def serve (s : State) (n c q comm : Nat) (parity : Bool) : Option (Frame × Nat × State) :=
  match popQueue s q with
  | none => none
  | some (f, s) =>
    let len := f.frame.bytes.length + 4 + rdF s fSCH_PNCFG_OVH n
    let s := if parity && !f.frame.poison then count s 0x0d kQmPoison q else s
    some ({ f.frame with poison := f.frame.poison || parity }, len, countServed (chargePath s q len comm) n c q f len comm)

/-- Whether port node n may decide for a selection now (R451, R454, R458): a port that runs with the selection free, an allocation
whose burst is open and has nothing left over from an earlier frame. -/
def mayDecide (s : State) (n : Nat) (pre : Bool) : Bool :=
  active s 0x0e n &&
  (if n < 32 then macRuns s n && active s 8 n && (preActive s n || !pre) && (selOf (macP s n) pre).isNone
   else !pre && (match (ponCh s ((n - 32) / 24)).burst with
     | some b => b.grant.alloc == some ((n - 32) % 24) && b.free != 0 && (tget (fun _ => none) s.sch.rest n).isNone
     | none => false))

/-- The selected head of queue q put into the open burst of an allocation (R269, R272, R454): a frame that does not fit at all stays,
and idle framing fills the grant. -/
def serveBurst (s : State) (n c q comm : Nat) (parity : Bool) : State :=
  let ch := (n - 32) / 24
  let a := (n - 32) % 24
  match (ponCh s ch).burst, (queue s q).frames.head? with
  | some b, some h =>
    if fragmentSize b.free (h.frame.bytes.length + 4) = 0 then setPon s ch { ponCh s ch with burst := some { b with free := 0 } }
    else match serve s n c q comm parity with
      | none => s
      | some (f, _, s) => putPayload (if f.poison ∧ upKeyOk s ch a b.key then count s 5 kPonPoison ch else s) ch a (upPayload f)
  | _, _ => s

/-- Counters of a decision: classes that it passes over because a gate cannot take their frames, and classes that overload makes lose (R451,
R456, R574). -/
def countWaits (s : State) (n : Nat) (cls lost : List Nat) (ahead : Bool := false) : State :=
  let s := cls.foldl (fun s c => if gateHeld s n c ahead then count s 0x0e kSchHeld (8 * n + c) else s) s
  lost.foldl (fun s c => overload (count s 0x0e kSchLost (8 * n + c)) (0x1000 + 8 * n + c)) s

/-- A service decision of port node n (R444 to R454): the first class with an eligible candidate, and within it the head frame of the
queue that the tree chooses. Unprotected classes may lose it to overload (R456); a decision may be made ahead of the next gate change (R451). -/
def execServiceDecision (n : Fin 128) (d : Decision) (parity : Bool) (lost : BitVec 8) (s : State) : Out :=
  if !live s || !mayDecide s n d.pre then .next s
  else
    let cls := (classOrder s n).filter fun c => !(n < 32 && preActive s n) || isPreemptable s n c == d.pre
    let out := cls.filter fun c => bitOf lost.toNat c && !protectedClass s n c && !(candidates s n c d.ahead).isEmpty
    let takes := fun (c : Nat) => !out.contains c && !(candidates s n c d.ahead).isEmpty
    let s := countWaits s n (cls.takeWhile fun c => !takes c) out d.ahead
    match cls.find? takes with
    | none => .next (if n.val < 32 then startNext s n else s)
    | some c =>
      match pickService s n c (candidates s n c d.ahead) with
      | none => .next s
      | some (q, comm, s) =>
        if 32 ≤ n.val then .next (serveBurst s n c q comm parity)
        else match serve s n c q comm parity with
          | none => .next s
          | some (f, len, s) => .next (selectFrame s n d.pre f c q none len comm)

/-- A maximum leaf raised (R636). -/
def raiseLeaf (s : State) (kind obj v : Nat) : State :=
  let k := leafKey 0x19 kind obj
  let a := leafKey 0x19 kind aggObj
  let l := tset (fun _ => 0) s.cnt.leaf k (max v (tget (fun _ => 0) s.cnt.leaf k))
  let l := tset (fun _ => 0) l a (max v (tget (fun _ => 0) l a))
  if s.sys.halted then s else { s with cnt := { s.cnt with leaf := l } }

/-- Every SMPINT, 625 ticks for each us, the depth and the head-of-queue delay of each attached queue of the node are sampled (R457, R635). -/
def execSchSample (n : Fin 128) (s : State) : Out :=
  if !live s || !active s 0x0e n || rdF s fSCH_SMPINT_I n == 0 ||
     decide (s.sys.ticks < tget (fun _ => 0) s.sch.sampleAt n + 625 * rdF s fSCH_SMPINT_I n) then .next s
  else .next (((s.sch.sq.filter fun x => (pathOf s x.1).any fun p => p.2.2 == n.val).map fun x => x.1).foldl (fun s q =>
    let d := depth s q
    let w := ((queue s q).frames.head?.map fun f => delayOf s f.at_).getD 0
    let s := count (count (count s 0x19 (kCntSample 0) q) 0x19 (kCntSample 1) q d) 0x19 (kCntSample 3) q w
    raiseLeaf (raiseLeaf s (kCntSample 2) q d) (kCntSample 4) q w)
    { s with sch := { s.sch with sampleAt := tset (fun _ => 0) s.sch.sampleAt n s.sys.ticks } })

end Sys2Proof.Machine
end

