-- ==== Sys2Proof/Machine/View.lean ====
section
/-! DEFINITION. The value in effect that a GET returns for each unit word (R11, R155, R157, R179): words that stand as stored, and
words that show a record, a queue, a store or another part of the state. -/
namespace Sys2Proof.Machine

/-- STATE of an engine as ESTAT codes it; GATED stands over the others (R120, R128). -/
def estate (g : Engine) : Nat :=
  if g.gated then 5
  else match g.st with
    | .stopped => 0
    | .running => 1
    | .waiting => 2
    | .draining => 3
    | .failed => 4

/-- ESTAT and EPC of engine e (R120): the pc is shown in STOPPED and FAILED; PBCOUNT counts collectable messages. -/
def viewEng (s : State) (l w old : Nat) : Nat :=
  let e := 8 * l + (w - 0x100) / 32
  let g := eng s e
  if w < 0x100 then old
  else if w % 32 = 2 then estate g + 8 * b2n g.kp + 16 * b2n g.tip + 32 * g.cause + 1024 * ready s e
  else if w % 32 = 3 then (if estate g = 0 ∨ estate g = 4 then g.pc.toNat else 0)
  else old

/-- TXA's layout of a transmit record (R369). -/
def txWord (c : TxCh) : Nat :=
  c.port + 32 * b2n c.enable + 64 * c.suite + 256 * b2n c.conf + 512 * c.offset + 2048 * b2n c.sciinc + 4096 * b2n c.es +
    8192 * b2n c.scb + 16384 * b2n c.nosa

/-- RXA's layout of a receive record (R369). -/
def rxWord (c : RxCh) : Nat :=
  c.port + 32 * b2n c.valid + 64 * c.suite + 256 * b2n c.replay + 512 * c.nosa + 2048 * c.agent + 524288 * c.offset

/-- TXRST of a transmit channel (R389). -/
def txrst (s : State) (ch : Nat) : Nat :=
  let c := txCh s ch
  let exh := c.cur.any fun an => (saOf s true ch an).any fun (x : Nat × Sa) => x.2.exh
  c.cur.getD 0 + 4 * b2n c.cur.isSome + (match c.req with
    | some (an, how, _) => 8 * an + 32 * how
    | none => 0) + 128 * b2n exh

/-- SARA of a context (R390): STATE of a transmit SA is 1 current, 2 request target; of a receive SA 1 in use, 2 in retention. -/
def saraWord (s : State) : Option Sa → Nat
  | none => 0
  | some x =>
    let c := txCh s x.ch
    let st := if x.tx then (if c.cur = some x.an then 1 else if c.req.any (fun (r : Nat × Nat × Instant × Bool) => r.1 == x.an) then 2 else 0)
      else if x.retain then 2 else 1
    1 + 2 * b2n x.tx + 4 * x.ch + 4096 * x.an + 16384 * st + 65536 * b2n x.resident + 131072 * b2n x.unusable

/-- Word j, 0 the highest, of a 64-bit number as SCI and PN words lay it out: 16, 24 and 24 bits. -/
def word64 (n j : Nat) : Nat := if j = 0 then bitsOf n 48 16 else if j = 1 then bitsOf n 24 24 else bitsOf n 0 24

/-- MSEC's words that show a record (R369, R370, R389, R390). -/
def viewMsec (s : State) (w old : Nat) : Nat :=
  let t := rdF s fMSEC_TXRSEL_CH
  let r := rdF s fMSEC_RXRSEL_CH
  let x := saCtx s (rdF s fMSEC_SARSEL_CTX)
  if w = fMSEC_TXRA_PORT.word then txWord (txCh s t)
  else if 0x10a ≤ w ∧ w ≤ 0x10c then word64 (txCh s t).sci (w - 0x10a)
  else if w = fMSEC_TXRST_CURAN.word then txrst s t
  else if w = fMSEC_RXRA_PORT.word then rxWord (rxCh s r)
  else if w = fMSEC_RXRWIN_WINDOW.word then (rxCh s r).window
  else if 0x11b ≤ w ∧ w ≤ 0x11d then word64 (rxCh s r).sci (w - 0x11b)
  else if w = fMSEC_SARA_INST.word then saraWord s x
  else if 0x153 ≤ w ∧ w ≤ 0x155 then word64 ((x.map fun y => y.pn).getD 0) (w - 0x153)
  else old

/-- QM's words that show the shelf and a queue (R440). -/
def viewQm (s : State) (w old : Nat) : Nat :=
  let q := rdF s fQM_QRSEL_Q
  if w = fQM_SHFREE_CELLS.word then shelfFree s
  else if w = fQM_QRST_CRIT.word then b2n (critical s q) + 2 * groupOf s q + 16 * b2n (notReady s q)
  else if w = fQM_QRD1_D.word then bitsOf (depth s q) 24 6
  else if w = fQM_QRD0_D.word then bitsOf (depth s q) 0 24
  else if w = fQM_QRFR_N.word then min (queue s q).frames.length 0xffffff
  else old

/-- SCH's words that show port node n and the node that RDSEL names (R459). -/
def viewSch (s : State) (n w old : Nat) : Nat :=
  let k := rdF s fSCH_RDSEL_INDEX n
  let kind := rdF s fSCH_RDSEL_KIND n
  let cls := fun (f : Nat → Bool) => (List.range 8).foldl (fun a c => a + b2n (f c) * 2 ^ c) 0
  if w = fSCH_PNSTAT_ELIG.word then
    cls (fun c => !(candidates s n c).isEmpty) + 256 * cls (fun c => blocked s n c)
  else if w = fSCH_RDA_A.word then
    (if kind = 0 then (sqNode s k).parent + 4096 * b2n (sqNode s k).att + 8192 * (sqNode s k).cls + 65536 * (sqNode s k).weight
     else if kind = 1 then (sbNode s k).parent + 512 * b2n (sbNode s k).att + 1024 * (sbNode s k).weight
     else b2n (svNode s k).att + 2 * (svNode s k).weight)
  else if w = fSCH_RDCC_C.word then (if kind = 0 then 0 else creditBytes (nodeC s (3 - kind) k))
  else if w = fSCH_RDPC_P.word then (if kind = 0 then 0 else creditBytes (nodeP s (3 - kind) k))
  else old

/-- RWBASE's and RWLIM's layout of a rights window (R490). -/
def rightsWord (x : Win) (limit : Bool) : Nat :=
  if limit then x.limit else x.base + 2097152 * b2n x.rd + 4194304 * b2n x.wr

/-- MPE's words that show a rights entry and a re-key (R490). -/
def viewMpe (s : State) (w old : Nat) : Nat :=
  let k := rekeyOf s (rdF s fMPE_RKSEL_R)
  if 0x31 ≤ w ∧ w ≤ 0x38 then rightsWord (win s (rdF s fMPE_RTRSEL_E) ((w - 0x31) / 2)) (w % 2 == 0)
  else if w = fMPE_RKSTAT_RUN.word then b2n k.isSome
  else if w = fMPE_RKB1_B.word then bitsOf ((k.map fun x => x.line).getD 0) 24 24
  else if w = fMPE_RKB0_B.word then bitsOf ((k.map fun x => x.line).getD 0) 0 24
  else old

/-- TIME's words that show the oldest egress record of port EGSEL (R531, R539). -/
def viewEg (s : State) (w old : Nat) : Nat :=
  let l := tget (fun _ => []) s.time.eg (rdF s fTIME_EGSEL_PORT)
  let r := l.head?.getD ⟨0, 0, 0, ⟨0, 0, 0⟩⟩
  if w = fTIME_EGHEAD_MTYPE.word then r.mtype + 16 * r.domain + 4096 * b2n (!l.isEmpty) + 8192 * l.length
  else if w = fTIME_EGSEQ_SEQ.word then r.seq
  else if w = fTIME_EGS_S.word then bitsOf r.mark.s 0 24
  else if w = fTIME_EGNH_NH.word then bitsOf r.mark.n 24 6
  else if w = fTIME_EGNL_NL.word then bitsOf r.mark.n 0 24
  else if w = fTIME_EGG_G.word then bitsOf r.mark.g 0 24
  else old

/-- FLT's words that show the domain DSEL (R619). -/
def viewFlt (s : State) (w old : Nat) : Nat :=
  let d := rdF s fFLT_DSEL_DOM
  let x := dom s d
  if w = fFLT_DSTAT_STATE.word then
    (if x.failed then 2 else b2n x.run.isSome) + 4 * ((x.run.map fun (r : Nat × Nat) => r.2).getD 0) +
      16 * min x.latched.length 63 + 1024 * min (recentStarts s d).length 9
  else if w = fFLT_DFAULT_CODE.word then (x.run.map fun (r : Nat × Nat) => r.1).getD 0
  else old

/-- LOG's words that show a life counter and the factory record (R651, R656, R658). -/
def viewLog (s : State) (w old : Nat) : Nat :=
  let c := tget (fun _ => 0) s.log.journal (rdF s fLOG_LSEL_C)
  let k := 3 * rdF s fLOG_FRSEL_W
  let b := fun i => if i < 256 then (Config.factoryByte i).toNat else 0
  if w = fLOG_LVAL1_V.word then bitsOf c 24 24
  else if w = fLOG_LVAL0_V.word then bitsOf c 0 24
  else if w = fLOG_FRDATA_D.word then b k * 65536 + b (k + 1) * 256 + b (k + 2)
  else old

/-- Words of the remaining units that show a part of the state: HST's CHSTAT, TRIB's TSTAT, MAC's gate entry words, CLS's HIDATA, KEY's
MREAD, TIME's ELIG, MEAS's DIOIN, PAIR's PSTAT and CNT's QGRPV (R204, R294, R336, R413, R513, R539, R568, R590, R642). -/
def viewRest (s : State) (u i w old : Nat) : Nat :=
  if u = 3 ∧ 0x10 ≤ w ∧ w < 0x20 ∧ w % 2 = 1 then (chain s ((w - 0x11) / 2)).st + 8 * rdF s fHST_CHSTAT_LASTCODE 0 (w - 0x11)
  else if u = 6 ∧ 0x180 ≤ w ∧ w < 0x1c0 then tribStatus s (w - 0x180)
  else if u = 8 ∧ w = fMAC_GEA_GATES.word then
    let g := gateEntry s i (rdF s fMAC_GESEL_PG i) (rdF s fMAC_GESEL_ENTRY i)
    g.1 + 256 * g.2.1
  else if u = 8 ∧ w = fMAC_GEB_INTERVAL.word then (gateEntry s i (rdF s fMAC_GESEL_PG i) (rdF s fMAC_GESEL_ENTRY i)).2.2
  else if u = 0x0b ∧ w = fCLS_HIDATA_ENTRY.word then
    tget (fun _ => 0) s.cls.ind (rdF s fCLS_HISEL_GROUP * 4096 + rdF s fCLS_HISEL_INDEX)
  else if u = 0x11 ∧ 0x41 ≤ w ∧ w ≤ 0x50 then
    ofBytes (bytesOf (((accBytes s (rdF s fKEY_MRSEL_ACC)).drop (3 * (w - 0x41))).take 3))
  else if u = 0x13 ∧ w = fTIME_TSTAT_ELIG.word then (rdW (noteRefs s) (uaddr u i w)).toNat
  else if u = 0x15 ∧ w = fMEAS_DIOIN_V.word then dioIn s
  else if u = 0x17 ∧ w = fPAIR_PSTAT_HEARD.word then (rdW (showHeard s) (uaddr u i w)).toNat
  else if u = 0x19 ∧ w = fCNT_QGRPV_G.word then queueGroup s (rdF s fCNT_QGRP_Q)
  else old

/-- The value in effect of the word at an address. -/
def viewWord (s : State) (a : Nat) : Word :=
  let u := uUnit a
  let w := uWord a
  let old := (rdW s a).toNat
  if w < 16 then rdW s a
  else wd (match u with
    | 0x01 => viewEng s (uInst a) w old
    | 0x0a => viewMsec s w old
    | 0x0d => viewQm s w old
    | 0x0e => viewSch s (uInst a) w old
    | 0x10 => viewMpe s w old
    | 0x13 => viewEg s w (viewRest s u (uInst a) w old)
    | 0x18 => viewFlt s w old
    | 0x1a => viewLog s w old
    | _ => viewRest s u (uInst a) w old)

/-- Words whose read is a command of its own: those that clear on a read (R11), and the first and the last word of an engine cursor set
(R648). -/
def ownRead (a : Nat) : Bool :=
  let u := uUnit a
  let w := uWord a
  w == 2 || (u == 3 && w == fHST_LINK_RATE.word) || (u == 0x14 && w == fCNDL_CSTAT_HOLD.word) ||
    (u == 0x15 && w == fMEAS_DIOEDGE_E.word) || (u == 0x16 && w == fPWR_OVLD_CAUSE.word) ||
    (u == 0x1a && (w == 0x21 || w == 0x2b || w == 0x31 || w == 0x3b))

/-- The unit answers a GET: the value in effect, or NR for a result that is not ready. A GET of RAND has KEY draw a new result (R155, R157,
R179, R180, R505). -/
def execGetAnswer (e : Eng) (s : State) : Out :=
  match (eng s e).get with
  | none => .next s
  | some (_, a) =>
    if !getReady s e a || ownRead a then .next s
    else if wordResult a && !isReady s a then .next (answer s e none)
    else
      let s' := answer s e (some (viewWord s a))
      .next (if a = fAddr fKEY_RAND_R 0 0 then { s' with key := { s'.key with randDue := true } } else s')

/-- A read of USTAT answers and clears LATE and CMREF (R11, R169). -/
def execUstatRead (e : Eng) (u : UnitI) (n : InstI) (s : State) : Out :=
  if !getReady s e (uaddr u n 2) then .next s
  else
    let v := wd (putBits (rdW s (uaddr u n 2)).toNat 0 2 (ustat s u n))
    .next (wrC (wrC (answer s e (some v)) fCOMMON_USTAT_LATE u n 0) fCOMMON_USTAT_CMREF u n 0)

end Sys2Proof.Machine
end

