-- ==== Sys2Proof/Machine/Commit.lean ====
section
/-! DEFINITION. Shadows, commits and what each unit refuses of a commit or makes of one (R172 to R178 and the commit rules of the unit
chapters). -/
namespace Sys2Proof.Machine

/-! ## Shadows and the pending set -/

/-- The words of an instance that a table of values by address names, with their values. -/
def instWords (t : Tab (Option Word)) (u n : Nat) : List (Nat × Word) :=
  t.filterMap fun (p : Nat × Option Word) => if sameInst p.1 (uaddr u n 0) then p.2.map fun v => (p.1, v) else none

/-- A table of values by address without an instance's. -/
def dropInst (t : Tab (Option Word)) (u n : Nat) : Tab (Option Word) := t.filter fun p => !sameInst p.1 (uaddr u n 0)

/-- A SET of a CM word writes its shadow (R172). -/
def stageWord (s : State) (a : Nat) (v : Word) : State :=
  if wordCM a then { s with ctl := { s.ctl with staged := tset (fun _ => none) s.ctl.staged a (some v) } } else s

/-- The shadows of instance n of unit u snapshotted as the pending set, the commit time noted, and CMPEND set; a pending set that stood
before is superseded (R173, R174). -/
def snapshot (s : State) (u n : Nat) : State :=
  let s := if rdC s fCOMMON_USTAT_CMPEND u n = 1 then wrC s fCOMMON_UCMSEQ_SUPER u n (rdC s fCOMMON_UCMSEQ_SUPER u n + 1) else s
  let s := { s with ctl := { s.ctl with
    pend := (instWords s.ctl.staged u n).foldl (fun t (p : Nat × Word) => tset (fun _ => none) t p.1 (some p.2)) s.ctl.pend
    staged := dropInst s.ctl.staged u n
    at_ := tset (fun _ => 0) s.ctl.at_ (uaddr u n 0) (nowNs s) } }
  wrC s fCOMMON_USTAT_CMPEND u n 1

/-- No commit of the instance is armed. -/
def disarm (s : State) (u n : Nat) : State :=
  wrC { s with ctl := { s.ctl with
    armed := tset (fun _ => none) s.ctl.armed (uaddr u n 0) none
    due := tset (fun _ => false) s.ctl.due (uaddr u n 0) false } } fCOMMON_USTAT_ARMED u n 0

/-- The pending set is done with. -/
def clearPend (s : State) (u n : Nat) : State :=
  wrC (disarm { s with ctl := { s.ctl with pend := dropInst s.ctl.pend u n } } u n) fCOMMON_USTAT_CMPEND u n 0

/-- A CM word given a value: its CM fields take it. -/
def takeWord (s : State) (p : Nat × Word) : State :=
  wrW s p.1 (wd (((rowsAt (uUnit p.1) (uWord p.1)).filter fun r => r.acc == .cm).foldl
    (fun w r => putBits w r.lo r.w (bitsOf p.2.toNat r.lo r.w)) (rdW s p.1).toNat))

/-- The state with every word of the pending set in effect. -/
def withPending (s : State) (u n : Nat) : State := (instWords s.ctl.pend u n).foldl takeWord s

/-- Whether the pending set holds word w. -/
def wroteW (s : State) (u n w : Nat) : Bool := (tget (fun _ => none) s.ctl.pend (uaddr u n w)).isSome

/-- The words of the pending set that hold a value not assigned (R175). -/
def unassignedWords (s : State) (u n : Nat) : List Nat :=
  (instWords s.ctl.pend u n).filterMap fun p =>
    if (rowsAt u (uWord p.1)).any (fun r => r.acc == .cm && !r.assigns u (uWord p.1) p.2.toNat) then some (uWord p.1) else none

/-- Words named by the broken ones of a list of rules. -/
def brokenOf (l : List (Bool × Nat)) : List Nat := l.filterMap fun x => if x.1 then some x.2 else none

/-- Whether a list of numbers has no repeats. -/
def distinct (l : List Nat) : Bool := (nodup l).length == l.length

/-! ## What each unit refuses: s is the state before the commit, c the state with the pending set in effect -/

/-- Containers that the entries of page p with US = 1, or with DS = 1, give channel ch in 125 µs (R283). -/
def containerSum (s : State) (p ch : Nat) (us : Bool) : Nat :=
  ((List.range 16).map fun t => let e := conn s p (16 * ch + t)
    if e.valid && (if us then e.us else e.ds) then e.cpf else 0).sum

/-- OPT (R227, R242). -/
def refusedOpt (s c : State) (n : Nat) : List Nat :=
  let diff := fun (f : Fld) => rdF s f n != rdF c f n
  let same := fun (f : Fld) => (List.range 4).any fun m => m != n && rdF s f m == rdF c f n
  brokenOf [(rdC s fCOMMON_UCTRL_EN 4 n == 1 && (diff fOPT_OCFG_DSPOS || diff fOPT_OCFG_USPOS || diff fOPT_OCFG_RATE) ||
    same fOPT_OCFG_DSPOS || same fOPT_OCFG_USPOS ||
    (rdF c fOPT_OCFG_RATE n == 0 && 900 < containerSum s (rdF s fTRIB_ACTPG_PAGE) n true), fOPT_OCFG_DSPOS.word)]

/-- Whether a slot that a key word names has the wrong attribute (R269): word k of 0x20 to 0x27, ENC-ONLY for generating and upstream,
DEC-ONLY for checking and downstream. -/
def badKeyWord (s c : State) (n w : Nat) : Bool :=
  let v := (rdW c (uaddr 5 n w)).toNat
  let x := keySlot s (bitsOf v 0 13)
  let cls := if w = 0x20 ∨ w = 0x26 ∨ w = 0x27 then 0 else 1
  bitOf v 13 && !(x.valid && x.cls == cls)

/-- PON (R263, R269, R280); the UPORT of an allocation counts while the allocation is VALID (assumption log 81, DEDUCED). -/
def refusedPon (s c : State) (n : Nat) : List Nat :=
  let al := (List.range 24).filter fun a => onF c fPON_ALLOCA_VALID n (2 * a)
  let po := (List.range 256).filter fun p => onF c fPON_PORTB_VALID n (2 * p)
  let pl := rdF c fPON_AGENTS_PLOAM n
  let om := rdF c fPON_AGENTS_OMCI n
  let pooled := fun (e : Nat) => e < 192 && (List.range 64).any fun p => inPool s p e
  brokenOf ([(!distinct (al.map fun a => rdF c fPON_ALLOCA_ALLOCID n (2 * a)), fPON_ALLOCA_ALLOCID.word),
      (!distinct (po.map fun p => rdF c fPON_PORTA_PORTID n (2 * p)), fPON_PORTA_PORTID.word),
      (decide (16 < ((List.range 24).filter fun a => onF c fPON_ALLOCA_TRIB n (2 * a)).length), fPON_ALLOCA_ALLOCID.word),
      (al.any fun a => !onF c fPON_PORTB_VALID n (2 * rdF c fPON_ALLOCB_UPORT n (2 * a)), fPON_ALLOCB_UPORT.word),
      ((pl == om && pl != 0xff) || pooled pl || pooled om, fPON_AGENTS_PLOAM.word)] ++
    (List.range 8).map fun k => (badKeyWord s c n (0x20 + k), 0x20 + k))

/-- TRIB (R283, R288). -/
def refusedTrib (s c : State) : List Nat :=
  let p := rdF c fTRIB_ACTPG_PAGE
  let all := (List.range 64).map fun q => conn s p q
  let es := all.filter fun e => e.valid
  let perPort := fun (f : Conn → Bool) (k : Nat) => (List.range 32).any fun port => decide (k < (es.filter fun e => e.port == port && f e).length)
  brokenOf [(es.any (fun e => decide (e.cpf < 1527) || portMode s e.port != 8) || all.any (fun e => e.feed && !e.ds) ||
     perPort (fun e => e.feed) 1 || perPort (fun e => e.us) 4 ||
     (List.range 4).any fun ch => decide (1800 < containerSum s p ch false) ||
       decide ((if rdF s fOPT_OCFG_RATE ch = 0 then 900 else 1800) < containerSum s p ch true), fTRIB_ACTPG_PAGE.word)]

/-- LANE (R295, R296, R310, R311). -/
def refusedLane (s c : State) (n : Nat) : List Nat :=
  if n % 4 ≠ 0 ∨ 32 ≤ n then []
  else
    let m := fun (x : State) (j : Nat) => modeAt (gmode x n) j
    let inside := fun (j : Nat) => (List.range j).any fun k => m c k != 0 && j < k + modeLanes (m c k)
    let perm := fun (f : Fld) => distinct ((List.range 4).map fun k => bitsOf (rdF c f n) (2 * k) 2)
    let busy := fun (x : State) (j : Nat) => (portOf x (n + j)).any fun p => (portLanes x p).any fun l => rdC s fCOMMON_UCTRL_EN 7 l == 1
    let map := fun (x : State) (f : Fld) (j : Nat) => bitsOf (rdF x f n) (2 * j) 2
    let moved := fun (j : Nat) => m s j != m c j || bitOf (gmode s n) (16 + j) != bitOf (gmode c n) (16 + j) ||
      map s fLANE_GMAP_RXMAP j != map c fLANE_GMAP_RXMAP j || map s fLANE_GMAP_TXMAP j != map c fLANE_GMAP_TXMAP j
    let pos := List.range 4
    let rates := (pos.filter fun j => m c j != 0).map fun j => modeLaneRate (m c j)
    brokenOf [(pos.any (fun j => !modeStarts (m c j) j || (m c j != 0 && inside j) ||
        (bitOf (gmode c n) (16 + j) && m c j != 1 && m c j != 8)) || decide (1 < (nodup rates).length) ||
        pos.any (fun j => moved j && (busy s j || busy c j)), fLANE_GMODE_MODE.word),
      (!perm fLANE_GMAP_RXMAP || !perm fLANE_GMAP_TXMAP, fLANE_GMAP_RXMAP.word)]

/-- MAC (R327, R335). -/
def refusedMac (s c : State) (n : Nat) : List Nat :=
  let on := onF c fMAC_GCTL_GATEEN n
  let len := rdF c fMAC_GCTL_GLEN n
  let pg := rdF c fMAC_GCTL_PAGE n
  let cyc := rdF c fMAC_GCYC1_CH n * 2 ^ 24 + rdF c fMAC_GCYC0_CL n
  brokenOf [(onF c fMAC_MCFG_PAUSEEN n && onF c fMAC_MCFG_PFCEN n, fMAC_MCFG_MAXLEN.word),
    (on && (len == 0 || (macP s n).oper.any (fun g => g.page == pg) ||
      (List.range len).any fun i => (gateEntry s n pg i).2.2 == 0 || (gateEntry s n pg i).2.1 == 3), fMAC_GCTL_GATEEN.word),
    (on && decide (1000000000 ≤ rdF c fMAC_GBASE1_NH n * 2 ^ 24 + rdF c fMAC_GBASE0_NL n), fMAC_GBASE1_NH.word),
    (on && !(decide (1000 ≤ cyc) && decide (cyc ≤ 1000000000)), fMAC_GCYC1_CH.word)]

/-- SBUS: the ring's base moves while entries are in use (R347). -/
def refusedSbus (s c : State) : List Nat :=
  brokenOf [(rdF s fSBUS_RXSTAT_USED != 0 && (rdF s fSBUS_RXBASEH_BASE != rdF c fSBUS_RXBASEH_BASE ||
    rdF s fSBUS_RXBASEL_BASE != rdF c fSBUS_RXBASEL_BASE), fSBUS_RXBASEH_BASE.word)]

/-- The number that three words of 16, 24 and 24 bits from w on spell. -/
def num64 (s : State) (w : Nat) : Nat :=
  let v := fun k => (rdW s (uaddr 0x0a 0 (w + k))).toNat
  bitsOf (v 0) 0 16 * 2 ^ 48 + v 1 * 2 ^ 24 + v 2

/-- The transmit record that the words in effect make of channel TXSEL (R369, R370, R389). -/
def stagedTx (c : State) (old : TxCh) : TxCh :=
  { old with port := rdF c fMSEC_TXA_PORT, enable := onF c fMSEC_TXA_ENABLE, suite := rdF c fMSEC_TXA_SUITE, conf := onF c fMSEC_TXA_CONF
             offset := rdF c fMSEC_TXA_OFFSET, sciinc := onF c fMSEC_TXA_SCIINC, es := onF c fMSEC_TXA_ES, scb := onF c fMSEC_TXA_SCB
             nosa := onF c fMSEC_TXA_NOSA, sci := num64 c fMSEC_TXSCI2_SCI.word, thr := rdF c fMSEC_TXTHR_T }

/-- The receive record that the words in effect make of channel RXSEL (R369, R370). -/
def stagedRx (c : State) (old : RxCh) : RxCh :=
  { old with port := rdF c fMSEC_RXA_PORT, valid := onF c fMSEC_RXA_VALID, suite := rdF c fMSEC_RXA_SUITE
             replay := onF c fMSEC_RXA_REPLAY, nosa := rdF c fMSEC_RXA_NOSA, agent := rdF c fMSEC_RXA_AGENT
             offset := rdF c fMSEC_RXA_OFFSET, window := rdF c fMSEC_RXWIN_WINDOW, sci := num64 c fMSEC_RXSCI2_SCI.word }

/-- Whether the pending set writes the context words: only then does a commit install or withdraw (R383, R390, R391; DEDUCED, assumption
log 34). -/
def writesSa (s : State) : Bool := (List.range 12).any fun k => wroteW s 0x0a 0 (0x140 + k)

/-- The suite of a channel once the commit has applied. -/
def suiteAfter (s c : State) (tx : Bool) (ch : Nat) : Nat :=
  if tx then (if ch = rdF c fMSEC_TXSEL_CH then rdF c fMSEC_TXA_SUITE else (txCh s ch).suite)
  else if ch = rdF c fMSEC_RXSEL_CH then rdF c fMSEC_RXA_SUITE else (rxCh s ch).suite

/-- Whether some installed context belongs to a channel. -/
def hasSa (s : State) (tx : Bool) (ch : Nat) : Bool := s.msec.sa.any fun p => p.2.any fun x => x.tx == tx && x.ch == ch

/-- MSEC's context words (R374, R391). -/
def refusedSa (s c : State) : List Nat :=
  let k := rdF c fMSEC_SASEL_CTX
  let tx := onF c fMSEC_SAA_DIR
  let ch := rdF c fMSEC_SAA_CH
  let suite := suiteAfter s c tx ch
  let slot := rdF c fMSEC_SAKEY_SLOT
  let pn := num64 c fMSEC_SAPN2_PN.word
  if !writesSa s || !onF c fMSEC_SAA_INST then []
  else brokenOf [((saCtx s k).isSome || (saOf s tx ch (rdF c fMSEC_SAA_AN)).isSome, fMSEC_SAA_INST.word),
    (!slotUsable s slot (if tx then 0 else 1) || (keySlot s slot).len != suite % 2, fMSEC_SAKEY_SLOT.word),
    (pn == 0 || (!isXpn suite && decide (0xffffffff < pn)), fMSEC_SAPN2_PN.word)]

/-- MSEC (R371, R389, R391). -/
def refusedMsec (s c : State) : List Nat :=
  let t := txCh s (rdF c fMSEC_TXSEL_CH)
  let t' := stagedTx c t
  let k := rdF c fMSEC_RXSEL_CH
  let r := rxCh s k
  let r' := stagedRx c r
  brokenOf [((t.enable && t'.enable && (t.port != t'.port || t.suite != t'.suite || t.offset != t'.offset || t.sci != t'.sci)) ||
      (t'.sciinc && t'.es) || (!t'.conf && t'.offset != 0) ||
      (t.suite != t'.suite && hasSa s true (rdF c fMSEC_TXSEL_CH)), fMSEC_TXA_PORT.word),
    (!isXpn t'.suite && decide (31 < t'.thr), fMSEC_TXTHR_T.word),
    ((r.valid && r'.valid && (r.port != r'.port || r.suite != r'.suite || r.offset != r'.offset || r.sci != r'.sci)) ||
      (r'.valid && s.msec.rx.any fun p => p.1 != k && p.2.valid && p.2.port == r'.port && p.2.sci == r'.sci) ||
      (r'.nosa == 1 && r'.agent == 0xff) || (decide (0xbf < r'.agent) && r'.agent != 0xff) ||
      (r.suite != r'.suite && hasSa s false k), fMSEC_RXA_PORT.word)] ++ refusedSa s c

/-- CLS: a fixed action with ACT 3 (R413). -/
def refusedCls (c : State) : List Nat :=
  brokenOf ((List.range 16).map fun f => (bitsOf (rdF c fCLS_FA_A 0 (4 * f)) 22 2 == 3, fCLS_FA_A.word + 4 * f))

/-- FLOW: the mask of a profile with keys changes (R424). -/
def refusedFlow (s c : State) : List Nat :=
  brokenOf ((List.range 16).map fun k => (rdF s fFLOW_KPCNT_N 0 k != 0 && profMask s k != profMask c k, fFLOW_KPMSK_M.word + 16 * k))

/-- The queue record that the words in effect make of queue QSEL (R440). -/
def stagedQ (c : State) : QRec :=
  { qen := onF c fQM_QA_QEN, maxc := rdF c fQM_QA_MAXC, yf := rdF c fQM_QB_YF, rf := rdF c fQM_QB_RF, headb := rdF c fQM_QB_HEADB }

/-- QM (R441). -/
def refusedQm (s c : State) : List Nat :=
  let r := stagedQ c
  brokenOf ([(decide (r.yf < r.rf), fQM_QB_YF.word),
      (critical s (rdF c fQM_QSEL_Q) && decide (shelfCells < r.maxc * 1024), fQM_QA_QEN.word),
      (rdF s fQM_SHCFG_SPILLGB != rdF c fQM_SHCFG_SPILLGB && s.qm.queues.any (fun x => x.2.blocks != []), fQM_SHCFG_CRITRES.word)] ++
    ((List.range 32).map fun p => (rdF c fQM_IGX_XOFF 0 (2 * p) != 0 && decide (rdF c fQM_IGX_XOFF 0 (2 * p) ≤ rdF c fQM_IGN_XON 0 (2 * p)),
      fQM_IGX_XOFF.word + 2 * p)) ++
    (List.range 8).map fun h => ((hostq s h).filled != 0 && (List.range 3).any (fun k =>
      rdW s (uaddr 0x0d 0 (0x200 + 4 * h + k)) != rdW c (uaddr 0x0d 0 (0x200 + 4 * h + k))), 0x200 + 4 * h))

/-- Whether service node v is attached under port node n. -/
def svUnder (s : State) (n v : Nat) : Bool := (svNode s v).att && (svNode s v).parent == n

/-- Whether subscriber node b is attached under port node n. -/
def sbUnder (s : State) (n b : Nat) : Bool := (sbNode s b).att && svUnder s n (sbNode s b).parent

/-- A service node as instance n's words make it (R459). -/
def stagedSv (c : State) (n : Nat) : Node :=
  { att := onF c fSCH_SVA_ATT n, parent := n, weight := rdF c fSCH_SVA_WEIGHT n, cls := 0, cir := rdF c fSCH_SVCIR_CIR n
    cbs := rdF c fSCH_SVCBS_CBS n, pir := rdF c fSCH_SVPIR_PIR n, pbs := rdF c fSCH_SVPBS_PBS n }

/-- A subscriber node as instance n's words make it (R459). -/
def stagedSb (c : State) (n : Nat) : Node :=
  { att := onF c fSCH_SBA_ATT n, parent := rdF c fSCH_SBA_PARENT n, weight := rdF c fSCH_SBA_WEIGHT n, cls := 0
    cir := rdF c fSCH_SBCIR_CIR n, cbs := rdF c fSCH_SBCBS_CBS n, pir := rdF c fSCH_SBPIR_PIR n, pbs := rdF c fSCH_SBPBS_PBS n }

/-- A queue's attachment as instance n's words make it (R459). -/
def stagedSq (c : State) (n : Nat) : Node :=
  { nodeReset with att := onF c fSCH_SQA_ATT n, parent := rdF c fSCH_SQA_PARENT n, weight := rdF c fSCH_SQA_WEIGHT n
                   cls := rdF c fSCH_SQA_CLASS n }

/-- The credits of a node or port node as its rates change: they stand at what they had come to, and those of a node that is attached now
stand at their bursts (R448, R449). -/
def attachCredits (s : State) (lvl k : Nat) (old new : Node) (c : State) : State :=
  if new.att && !old.att then setNodeCredits c lvl k (new.cbs * perByte) (new.pbs * perByte)
  else setNodeCredits c lvl k (nodeC s lvl k) (nodeP s lvl k)

/-- The node records whose select words the pending set of instance n holds written, with their credits (R449, R460). c holds the words,
s the nodes. -/
def writeNodes (s : State) (n : Nat) (sv sb sq : Bool) (c : State) : State :=
  let v := rdF c fSCH_SVSEL_SV n
  let b := rdF c fSCH_SBSEL_SB n
  let q := rdF c fSCH_SQSEL_Q n
  let c' := setNodeCredits c 0 n (nodeC s 0 n) (nodeP s 0 n)
  let c' := if sv then attachCredits s 1 v (svNode s v) (stagedSv c n) c' else c'
  let c' := if sb then attachCredits s 2 b (sbNode s b) (stagedSb c n) c' else c'
  { c' with sch := { c'.sch with
    sv := if sv then tset (fun _ => nodeReset) c'.sch.sv v (stagedSv c n) else c'.sch.sv
    sb := if sb then tset (fun _ => nodeReset) c'.sch.sb b (stagedSb c n) else c'.sch.sb
    sq := if sq then tset (fun _ => nodeReset) c'.sch.sq q (stagedSq c n) else c'.sch.sq } }

/-- Frames that queues hold whose path a commit breaks are counted as held-detached (R443); s is the state before it. -/
def countDetached (s c : State) : State :=
  s.qm.queues.foldl (fun c x => if (pathOf s x.1).isSome then noteDetached c x.1 x.2.frames.length else c) c

/-- SCH (R460). A PARENT is checked of a record with ATT = 1 (DEDUCED, assumption log 34). -/
def refusedSch (s c : State) (n : Nat) : List Nat :=
  let sv := wroteW s 0x0e n fSCH_SVSEL_SV.word
  let sb := wroteW s 0x0e n fSCH_SBSEL_SB.word
  let sq := wroteW s 0x0e n fSCH_SQSEL_Q.word
  let d := writeNodes s n sv sb sq c
  let v := rdF c fSCH_SVSEL_SV n
  let b := rdF c fSCH_SBSEL_SB n
  let q := rdF c fSCH_SQSEL_Q n
  let exceeds := fun (x : Node) => x.pir != 0 && decide (x.pir < x.cir)
  brokenOf [(sv && (svNode s v).att && (svNode s v).parent != n, fSCH_SVA_ATT.word),
    (sv && exceeds (svNode d v), fSCH_SVCIR_CIR.word),
    (sb && ((sbNode s b).att && (svNode s (sbNode s b).parent).att && (svNode s (sbNode s b).parent).parent != n ||
      ((sbNode d b).att && !svUnder d n (sbNode d b).parent)), fSCH_SBA_PARENT.word),
    (sb && exceeds (sbNode d b), fSCH_SBCIR_CIR.word),
    (sq && ((pathOf s q).any (fun p => p.2.2 != n) || ((sqNode d q).att && !sbUnder d n (sqNode d q).parent) ||
      ((sqNode d q).att && decide (16376 ≤ q))), fSCH_SQA_PARENT.word)]

/-- The region that the words in effect make of region REGSEL (R490). -/
def stagedRegion (c : State) : Region :=
  ⟨rdF c fMPE_REGA_BASE, rdF c fMPE_REGB_LIMIT, onF c fMPE_REGB_VALID, onF c fMPE_REGB_PROT⟩

/-- The window w that the words in effect make of entry RTSEL (R490). -/
def stagedWin (c : State) (w : Nat) : Win :=
  ⟨rdF c fMPE_RWBASE_BASE 0 (2 * w), rdF c fMPE_RWLIM_LIMIT 0 (2 * w), onF c fMPE_RWBASE_RD 0 (2 * w), onF c fMPE_RWBASE_WR 0 (2 * w)⟩

/-- Whether bounds lie the wrong way round or beyond the data space. -/
def badRange (base limit : Nat) : Bool := decide (limit < base) || decide (0x1dffff < limit)

/-- MPE (R484, R491). -/
def refusedMpe (s c : State) : List Nat :=
  let k := rdF c fMPE_REGSEL_R
  let x := region s k
  let y := stagedRegion c
  let l := ((List.range 16).map fun r => if r = k then y else region s r).filter fun r => r.valid
  let sizes := (l.map fun r => r.limit + 1 - r.base).sum
  let overlap := l.mapIdx fun i a => (l.drop (i + 1)).any fun b => a.base ≤ b.limit && b.base ≤ a.limit
  brokenOf ([(l.any (fun r => badRange r.base r.limit) || sizes != 0x1e0000 || overlap.any (fun b => b) ||
      ((rekeyOf s k).isSome && (x.base != y.base || x.limit != y.limit || x.valid != y.valid)), fMPE_REGA_BASE.word)] ++
    (List.range 4).map fun w => let z := stagedWin c w
      ((z.rd || z.wr) && badRange z.base z.limit, fMPE_RWBASE_BASE.word + 2 * w))

/-- MEAS: a watcher's limits (R568). -/
def refusedMeas (c : State) : List Nat :=
  brokenOf ((List.range 18).map fun k => (onF c fMEAS_ACFG_WEN 0 (4 * k) &&
    decide (sext (rdF c fMEAS_WHI_T 0 (4 * k)) 24 ≤ sext (rdF c fMEAS_WLO_T 0 (4 * k)) 24), fMEAS_ACFG_RANGE.word + 4 * k))

/-- CNT (R632, R642); with DSIZE 0 there are no dumps. -/
def refusedCnt (s c : State) : List Nat :=
  let mb := rdF c fCNT_DSIZE_MB
  brokenOf [(mb != 0 && decide (mb * 2 ^ 20 < dumpBytes (dumpKinds (dlistWord c))), fCNT_DSIZE_MB.word),
    (rdF s fCNT_CSTAT_STATE != 0 && (rdF s fCNT_CBASEH_BASE != rdF c fCNT_CBASEH_BASE || rdF s fCNT_CBASEL_BASE != rdF c fCNT_CBASEL_BASE ||
      rdF s fCNT_CSIZE_U != rdF c fCNT_CSIZE_U), fCNT_CBASEH_BASE.word)]

/-- The words for which instance n of unit u refuses the pending set, by their word numbers (R175). -/
def refusedWords (s c : State) (u n : Nat) : List Nat :=
  unassignedWords s u n ++ (match u with
    | 0x04 => refusedOpt s c n
    | 0x05 => refusedPon s c n
    | 0x06 => refusedTrib s c
    | 0x07 => refusedLane s c n
    | 0x08 => refusedMac s c n
    | 0x09 => refusedSbus s c
    | 0x0a => refusedMsec s c
    | 0x0b => refusedCls c
    | 0x0c => refusedFlow s c
    | 0x0d => refusedQm s c
    | 0x0e => refusedSch s c n
    | 0x10 => refusedMpe s c
    | 0x14 => brokenOf [(rdF s fTIME_TSTAT_STATE == 3 && !(instWords s.ctl.pend 0x14 0).isEmpty, fCNDL_KA_K.word)]
    | 0x15 => refusedMeas c
    | 0x17 => brokenOf [(decide (0xbf < rdF c fPAIR_MAGENT_ENG) && rdF c fPAIR_MAGENT_ENG != 0xff, fPAIR_MAGENT_ENG.word)]
    | 0x19 => refusedCnt s c
    | 0x1b => brokenOf [(wroteW s 0x1b n fTST_TCFG_GEN.word &&
        tstRefused s n (rdF c fTST_TCFG_GEN n) (rdF c fTST_TCFG_CHK n) (rdF c fTST_TCFG_LOOP n), fTST_TCFG_GEN.word)]
    | _ => [])

/-! ## What an applied commit brings: s is the state before, c the state with the words in effect -/

/-- TRIB: a page swap falls due for every channel, at once where the interchange is idle (R182, R289). -/
def swapDue (s c : State) : State :=
  if rdF s fTRIB_ACTPG_PAGE = rdF c fTRIB_ACTPG_PAGE then c
  else
    let c := { c with trib := { c.trib with swap := some (rdF c fTRIB_ACTPG_PAGE), wait := [0, 1, 2, 3] } }
    let c := if active s 6 0 then c else (List.range 4).foldl swapChannel c
    emit1 c 0x180012 (rdC c fCOMMON_UCMSEQ_CMSEQ 6 0)

/-- MSEC: the channel records, and the context installed with the key of its slot or withdrawn (R370, R374, R375, R379, R383). -/
def applyMsec (s c : State) : State :=
  let t := rdF c fMSEC_TXSEL_CH
  let r := rdF c fMSEC_RXSEL_CH
  let gone := (txCh c t).req.isSome && !onF c fMSEC_TXA_ENABLE
  let c' := setRx (setTx c t (stagedTx c (txCh c t))) r (stagedRx c (rxCh c r))
  let c' := if gone then refuseSwitch c' t (((txCh c t).req.map fun (q : Nat × Nat × Instant × Bool) => q.1).getD 0) 4 else c'
  let k := rdF c fMSEC_SASEL_CTX
  if !writesSa s then c'
  else if !onF c fMSEC_SAA_INST then withdraw c' k
  else
    let x := keySlot c (rdF c fMSEC_SAKEY_SLOT)
    let pn := num64 c fMSEC_SAPN2_PN.word
    let w := fun (f : Fld) => rdF c f
    let sa : Sa := { tx := onF c fMSEC_SAA_DIR, ch := w fMSEC_SAA_CH, an := w fMSEC_SAA_AN, slot := w fMSEC_SAKEY_SLOT, key := x.key
                     len := x.len, pn := pn, low := pn, ssci := w fMSEC_SASSCI1_SSCI * 2 ^ 24 + w fMSEC_SASSCI0_SSCI
                     salt := ((w fMSEC_SASALT3_SALT * 2 ^ 24 + w fMSEC_SASALT2_SALT) * 2 ^ 24 + w fMSEC_SASALT1_SALT) * 2 ^ 24 + w fMSEC_SASALT0_SALT
                     unusable := false, retain := false, retAt := 0, first := false, thresh := false, exh := false, resident := false, fresh := true
                     order := c.msec.order, seen := 0, mir := false }
    let c' := setSa { c' with msec := { c'.msec with order := c'.msec.order + 1 } } k (some sa)
    mirrorRecord c' (.install k)

/-- The granules of a region record. -/
def inRegion (x : Region) (g : Nat) : Bool := x.valid && x.base ≤ g && g ≤ x.limit

/-- MPE: the region and rights records; granules whose region changes read as unwritten (R481, R490). -/
def applyMpe (c : State) : State :=
  let k := rdF c fMPE_REGSEL_R
  let e := rdF c fMPE_RTSEL_E
  let x := region c k
  let y := stagedRegion c
  let c := { c with mpe := { c.mpe with
    regions := tset regionReset c.mpe.regions k y
    rights := (List.range 4).foldl (fun t w => tset winReset t (e * 4 + w) (stagedWin c w)) c.mpe.rights } }
  if x.base = y.base ∧ x.limit = y.limit ∧ x.valid = y.valid then c
  else
    let gs := (List.range 0x1e0000).filter fun g => inRegion x g != inRegion y g
    gs.foldl (fun s g => setWritten s g false) { c with mpe := { c.mpe with
      dram := c.mpe.dram.filter fun p => inRegion x (p.1 / 65536) == inRegion y (p.1 / 65536) } }

/-- MEAS: a first conversion period begins, and a channel whose watcher is off has not tripped (R559, R561). -/
def applyMeas (c : State) : State :=
  (List.range 18).foldl (fun s k =>
    let s := if k < 16 then setPace s (paceConv k) else s
    if onF s fMEAS_ACFG_WEN 0 (4 * k) then s else setStreak (setTrip s k false) k 0) c

/-- PLC: a changed pool moves no flow by itself, so the flows that no move has named stay where they stand (R216, R222; DEDUCED, assumption
log 62). -/
def applyPlc (s c : State) : State :=
  let none' : Nat → Option Nat := fun _ => none
  let t := (List.range 64).foldl (fun t p =>
    if (tget none' t p).isSome then t
    else
      match (poolEngine s p).or (poolEngine c p) with
      | some e => tset none' t p (some e)
      | none => t) c.plc.pool
  { c with plc := { c.plc with pool := t } }

/-- The words of host queue H n's ring (R440). -/
def ringWords (s : State) (n : Nat) : List Word := (List.range 3).map fun k => rdW s (uaddr 0x0d 0 (0x200 + 4 * n + k))

/-- QM: the queue record, and a ring that a commit changes starts anew, with the idle item in each of its entries where QM is ACTIVE (R437,
R440; DESIGN CHOICE, assumption log 65). -/
def applyQm (s c : State) : State :=
  let c := { c with qm := { c.qm with recs := tset (fun _ => qrecReset) c.qm.recs (rdF c fQM_QSEL_Q) (stagedQ c) } }
  (List.range 8).foldl (fun c h =>
    if ringWords s h = ringWords c h then c
    else
      let c := setHostq c h { hostq c h with head := 0 }
      if active c 0x0d 0 then (List.range (ringSize c h)).foldl (fun c k => idleEntry c h k) c else c) c

/-- What a commit of instance n of unit u that has applied brings beside its words. -/
def applyHook (s c : State) (u n : Nat) : State :=
  match u with
  | 0x02 => applyPlc s c
  | 0x06 => swapDue s c
  | 0x07 => if n % 4 = 0 ∧ n < 32 then moveSource s c (n / 4) else c
  | 0x08 =>
    let c := gateCommit c n (tget (fun _ => 0) s.ctl.at_ (uaddr u n 0))
    if rdF s fMAC_MPRE_PREN n = rdF c fMAC_MPRE_PREN n ∧ rdF s fMAC_MPRE_VERIFY n = rdF c fMAC_MPRE_VERIFY n then c else preCommit c n
  | 0x0a => applyMsec s c
  | 0x0d => applyQm s c
  | 0x0e => countDetached s <| writeNodes s n (wroteW s u n fSCH_SVSEL_SV.word) (wroteW s u n fSCH_SBSEL_SB.word) (wroteW s u n fSCH_SQSEL_Q.word) c
  | 0x10 => applyMpe c
  | 0x15 => applyMeas c
  | 0x1b => tstRefresh c n
  | _ => c

/-- The commit point of instance n of unit u: the pending set applies whole, or is refused whole with event 0x3F_F00, the address being that
of the lowest word that a broken rule names (R173, R175; assumption log 34). -/
def commitNow (s : State) (u n : Nat) : State :=
  let c := withPending s u n
  match (refusedWords s c u n).min? with
  | some w =>
    emit2 (wrC (clearPend s u n) fCOMMON_USTAT_CMREF u n 1) (u * 2 ^ 18 + 0x3ff00) (rdC s fCOMMON_UCMSEQ_CMSEQ u n) (uaddr u n w)
  | none =>
    let c := wrC c fCOMMON_UCMSEQ_CMSEQ u n (rdC c fCOMMON_UCMSEQ_CMSEQ u n + 1)
    clearPend (applyHook s c u n) u n

/-- Units whose commit point is at acceptance (R181). -/
def atAcceptance (u : Nat) : Bool := [1, 2, 0x11, 0x14, 0x16, 0x17, 0x18, 0x1a].contains u

/-- A commit that is due applies at once where the commit point is at acceptance or the instance is IDLE (R181, R182). -/
def commitAtOnce (s : State) (u n : Nat) : State :=
  if commitDue s u n && (atAcceptance u || ustat s u n == 0) then commitNow s u n else s

end Sys2Proof.Machine
end

