-- ==== Sys2Proof/Machine/Units.lean ====
section
/-! DEFINITION. What every unit does with its words: writes at once, snapshots, commit points, scheduled commits, disabling and enabling
(R169 to R182). -/
namespace Sys2Proof.Machine

/-! ## Writes at once -/

/-- Whether a write to a word is a command of its own, which UNIT_WORD_WRITE leaves to that command: requests, registers with an effect beyond
their bits, and ignored writes that their chapter counts. -/
def ownRow (s : State) (a v : Nat) : Bool :=
  let w := uWord a
  let b := fun k => bitOf v k
  if w = 1 then true
  else if w = 8 then b 0 || b 1
  else match uUnit a with
    | 0x01 => w == fENG_LDGO_ACC.word || (0x100 ≤ w && w % 32 == 0)
    | 0x02 => w == fPLC_OBJGO_QUERY.word && v % 16 != 0
    | 0x03 => w == fHST_RMADDR_ADDR.word || (0x10 ≤ w && w < 0x20 && w % 2 == 0 && !b 0 && onF s fHST_CHCTL_EN 0 (w - 0x10))
    | 0x04 => w == fOPT_OLATCH_CUT.word && (b 0 || b 1)
    | 0x05 => w == fPON_ACTSET_STATE.word || w == fPON_PUGO_GO.word || w == fPON_SFCARM_ARM.word || (w == fPON_DLCTL_DLARM.word && b 1)
    | 0x06 => 0x100 ≤ w && w < 0x180
    | 0x08 => w == fMAC_GEA_GATES.word || w == fMAC_GEB_INTERVAL.word
    | 0x09 => w == fSBUS_TXGO_GO.word || w == fSBUS_RXDONE_N.word
    | 0x0a => w == fMSEC_SWGO_GO.word && b 0
    | 0x0b => (w == fCLS_EGO_WRITE.word && (b 0 || b 1)) || w == fCLS_HIDATA_ENTRY.word
    | 0x0c => w == fFLOW_FGO_OP.word && 1 ≤ v % 16 && v % 16 ≤ 5
    | 0x0d => 0x200 ≤ w && w < 0x220 && w % 4 == 3
    | 0x0f => 0x40 ≤ w && w < 0x60
    | 0x10 => w == fMPE_RKGO_GO.word
    | 0x11 => (w == fKEY_KGO_OP.word && 1 ≤ v % 16 && v % 16 ≤ 6) || (w == fKEY_LCGO_OP.word && 1 ≤ v % 8 && v % 8 ≤ 6)
    | 0x12 => w == fCHK_CGO_GO.word && b 0 && 1 ≤ rdF s fCHK_COP_OP (uInst a) && rdF s fCHK_COP_OP (uInst a) ≤ 8
    | 0x13 => w == fTIME_ADJGO_FREQ.word || w == 0x70 || w == 0x71 || w == fTIME_EGTAKE_TAKE.word || (0x100 ≤ w && w < 0x140 && w % 8 == 0) ||
        (0x200 ≤ w && w % 16 == 7 && (b 0 || b 1))
    | 0x14 => w == fCNDL_LSEED_H.word
    | 0x15 => w == fMEAS_CYGO_GO.word
    | 0x16 => w == fPWR_LEVEL_REQ.word || w == fPWR_PADS_REL.word
    | 0x17 => (w == fPAIR_PCMD_SWITCH.word && (b 0 || b 1)) || w == fPAIR_MTXGO_GO.word || w == fPAIR_FITOK_OK.word
    | 0x18 => w == fFLT_DCLR_CLR.word
    | 0x19 => (w == fCNT_NGO_READ.word && (b 0 || b 1)) || w == fCNT_SMPGO_GO.word || (w == fCNT_CGO_ARM.word && v % 8 != 0)
    | 0x1a => w == fLOG_RCTL_CLEAR.word || w == fLOG_TRADDR_A.word || w == fLOG_FWCAUSE_CAUSE.word ||
        (w == fLOG_TGO_OP.word && 1 ≤ v % 16 && v % 16 ≤ 3)
    | 0x1b => w == fTST_TINJGO_GO.word
    | _ => false

/-- A KGO or LCGO whose OP is not assigned: refused with WHY 4, behind the refusals of a disabled or busy unit (R512, R513). -/
def keyOpUnassigned (s : State) (a v : Nat) : State :=
  let why := fun (busy : Bool) => if !active s 0x11 0 then 8 else if busy then 1 else 4
  if uWord a = fKEY_KGO_OP.word then
    (if active s 0x11 0 && (s.key.op.isSome || s.key.waits) then count (result s fKEY_KRES_WHY 1) 0x11 (kKeyWhy 1) 0
     else keyRefuse s (why false))
  else if bitsOf v 16 8 = 0xa5 then lcRes s (why s.fuse.op.isSome)
  else s

/-- A CGO with GO = 1 while COP names no operation: CRES has the code of the first refusal of R512 or R513, else a code that the spec does
not state, a free value (assumption log 22). -/
def chkOpUnassigned (s : State) (e l : Nat) : State :=
  if !active s 0x12 l then chkRes s l 8 0
  else if (tget (fun _ => none) s.chk l).isSome then chkRes s l 6 0
  else if lanternOf e ≠ l then chkRes s l 7 0
  else
    let c := takeFree s
    chkRes c.2 l (c.1 % 16) 0

/-- What a write of v to word a, which no other command takes, does beyond R171: the staged key of KEY, unassigned operations of FLOW, KEY
and CHK, DLCTL, words of TIME and MEAS that depend on one another, a queue's group, and CPOST (R266, R423, R513, R540, R568, R640, R642). -/
def writeWord (s : State) (e a v : Nat) : State :=
  let w := uWord a
  match uUnit a with
  | 0x05 => if w = fPON_DLCTL_DLARM.word then setDlctl s (uInst a) (wd v) else setNow s a v
  | 0x0c =>
    if w = fFLOW_FGO_OP.word then result s fFLOW_FRES_STATE (1 + 2 * (if s.flow.op.isSome then 1 else 5)) else setNow s a v
  | 0x11 =>
    if 0x13 ≤ w ∧ w ≤ 0x1d then { s with key := { s.key with sl := tset (fun _ => 0) s.key.sl (w - 0x13) v } }
    else if w = fKEY_KGO_OP.word ∨ w = fKEY_LCGO_OP.word then keyOpUnassigned s a v
    else setNow s a v
  | 0x12 => if w = fCHK_CGO_GO.word then (if bitOf v 0 then chkOpUnassigned s e (uInst a) else s) else setNow s a v
  | 0x13 => timeWrite s a v
  | 0x15 => (measWrite s a v).getD (setNow s a v)
  | 0x19 =>
    if w = fCNT_QGRPV_G.word then
      { s with cnt := { s.cnt with group := tset (fun k => k / 16) s.cnt.group (rdF s fCNT_QGRP_Q) (bitsOf v 0 10) } }
    else if w = fCNT_CPOST_MB.word ∧ rdF s fCNT_CSIZE_U * 64 < bitsOf v 0 17 then unassigned s a (bitsOf v 0 17)
    else setNow s a v
  | _ => setNow s a v

/-- A unit accepts a SET to a word with no row of its own: RW fields take the value at once, but for a value not assigned, which is recorded;
CM words take it into the shadow; what is read-only, reserved or a result ignores it (R11, R169, R171, R172, R179). -/
def execUnitWordWrite (e : Eng) (a : Word) (v : Word) (s : State) : Out :=
  if ownRow s a.toNat v.toNat then .next s
  else onSet s e a.toNat v fun s => stageWord (writeWord s e a.toNat v.toNat) a.toNat v

/-! ## Commits -/

/-- An accepted COMMIT: the shadows become the pending set; an armed commit is superseded (R173, R174, R178). -/
def execCommitSnapshot (e : Eng) (u : UnitI) (n : InstI) (s : State) : Out :=
  match accept s e true (uaddr u n 0) 0 with
  | some s' => .next (commitAtOnce (disarm (snapshot s' u n) u n) u n)
  | none => .next s

/-- Whether a commit point can come now: no burst of the optical slot or of the PON channel is open (R231, R259, R268), no letter is being
executed, no frame or fragment of the MAC is left in part, no frame of SBUS is on the wire, and no operation of the lantern's CHK runs (R181). -/
def atPoint (s : State) (u n : Nat) : Bool :=
  match u with
  | 0x04 => (ponCh s n).burst.isNone
  | 0x05 => (ponCh s n).burst.isNone
  | 0x06 => atBoundary s || !active s 6 0
  | 0x08 => (macP s n).cur.isNone && (macP s n).pr.all fun x => x.off == 0
  | 0x09 => s.sbus.tx.all fun x => !x.sending
  | 0x03 => (List.range 8).all fun k => !(((chain s k).st == 1 || (chain s k).st == 5) && (chain s k).letter.isSome)
  | 0x12 => (tget (fun _ => none) s.chk n).isNone
  | 0x19 => (switchDue s && s.cnt.dump.isNone) || !active s 0x19 0
  | _ => true

/-- The commit point of an instance is reached (R173, R175, R181, R182). -/
def execCommitPoint (u : UnitI) (n : InstI) (s : State) : Out :=
  if live s && commitDue s u n && atPoint s u n then
    let s := commitNow s u n
    .next (if (u : Nat) = 8 then startNext s n else s)
  else .next s

/-- The armed instant as it stands in UCT1:UCT0 (R161, R177). -/
def armWords (s : State) (u n : Nat) : Nat × Nat := (rdC s fCOMMON_UCT1_T1 u n, rdC s fCOMMON_UCT0_T0 u n)

/-- The instance's pending set is due from now on; this is its commit time (R177, R323). -/
def setDue (s : State) (u n : Nat) : State :=
  { s with ctl := { s.ctl with
    due := tset (fun _ => false) s.ctl.due (uaddr u n 0) true
    at_ := tset (fun _ => 0) s.ctl.at_ (uaddr u n 0) (nowNs s) } }

/-- ARM: refused for nanoseconds of 10^9 or more; else the shadows are the pending set of the instant, due at once with LATE and event
0x3F_F01 where the instant has passed (R161, R177, R178); an instant that is the present one counts as passed (assumption log 74, DESIGN
CHOICE). -/
def armCommit (s : State) (u n : Nat) : State :=
  let t := armWords s u n
  let seq := rdC s fCOMMON_UCMSEQ_CMSEQ u n
  if 1000000000 ≤ (instantOf t.1 t.2).2 then
    emit2 (wrC s fCOMMON_USTAT_CMREF u n 1) (u * 2 ^ 18 + 0x3ff00) seq (uaddr u n 7)
  else
    let at' := resolve s t.1 t.2
    let s := snapshot s u n
    let s := wrC { s with ctl := { s.ctl with
      armed := tset (fun _ => none) s.ctl.armed (uaddr u n 0) (some at')
      due := tset (fun _ => false) s.ctl.due (uaddr u n 0) false } } fCOMMON_USTAT_ARMED u n 1
    if reached s at' then
      commitAtOnce (emit (wrC (setDue s u n) fCOMMON_USTAT_LATE u n 1) (u * 2 ^ 18 + 0x3ff01) t.1 t.2 seq) u n
    else s

/-- ARM without DISARM (R177, R178). -/
def execScheduledCommitArm (e : Eng) (u : UnitI) (n : InstI) (v : Word) (s : State) : Out :=
  if !bitOf v.toNat 0 || bitOf v.toNat 1 then .next s
  else onSet s e (uaddr u n 8) v fun s => armCommit s u n

/-- DISARM, alone or with ARM: an armed commit is given up, and the shadows keep what programs wrote (R178). -/
def execScheduledCommitDisarm (e : Eng) (u : UnitI) (n : InstI) (v : Word) (s : State) : Out :=
  if !bitOf v.toNat 1 then .next s
  else onSet s e (uaddr u n 8) v fun s =>
    if rdC s fCOMMON_USTAT_ARMED u n = 0 then s
    else
      let back := (instWords s.ctl.pend u n).foldl (fun t (p : Nat × Word) =>
        if (tget (fun _ => none) t p.1).isSome then t else tset (fun _ => none) t p.1 (some p.2)) s.ctl.staged
      clearPend { s with ctl := { s.ctl with staged := back } } u n

/-- The time counter has reached an armed instant: the pending set is due (R177). -/
def execScheduledCommitDue (u : UnitI) (n : InstI) (s : State) : Out :=
  match tget (fun _ => none) s.ctl.armed (uaddr u n 0) with
  | none => .next s
  | some t =>
    if live s && reached s t && !tget (fun _ => false) s.ctl.due (uaddr u n 0) then .next (commitAtOnce (setDue s u n) u n) else .next s

/-! ## Disabling and enabling -/

/-- The idle item written into every entry of each host queue's ring (R437). -/
def idleRings (s : State) : State :=
  (List.range 8).foldl (fun s h => (List.range (ringSize s h)).foldl (fun s k => idleEntry s h k) s) s

/-- What an instance does as it becomes ACTIVE: a PON channel enters O1 (R247, R254), LANE's transmit PLL locks, QM fills its rings with idle
items, PAIR seeks its partner, TST starts what its words ask for (R303, R437, R594, R661). -/
def onActive (s : State) (u n : Nat) : State :=
  match u with
  | 0x05 => checkSerial s n
  | 0x07 => pllStart s (n / 4)
  | 0x08 => startNext s n
  | 0x0d => idleRings s
  | 0x17 => pairEnable s
  | 0x1b => tstRefresh s n
  | _ => s

/-- What an instance does as its EN is cleared, beside admitting nothing more: HST's chains stop, a PON channel's
leaves operation and its download path is disarmed (R249, R265), a lane's port goes down, PAIR goes OFF,
a test ends (R181, R204, R309, R594, R667). -/
def onDisabled (s : State) (u n : Nat) : State :=
  match u with
  | 0x03 => (List.range 8).foldl stopChain s
  | 0x05 => setOper (wrF s fPON_DLCTL_DLARM 0 n) n false
  | 0x07 =>
    (match portOf s n with
    | some p => portDown s p
    | none => laneDown s n)
  | 0x17 => pairDisable s
  | 0x1b => tstRefresh s n
  | _ => s

/-- Every store of the interchange empty and every client output at all ones; the blocks left are counted where they are discarded (R292). -/
def emptyStores (s : State) (counted : Bool) : State :=
  (List.range 64).foldl (fun s q =>
    let x := tribu s q
    let s := if counted && x.store.length + x.up.length != 0 then count s 6 kTribDrain q (x.store.length + x.up.length) else s
    setTribu s q { x with store := [], up := [], owed := 0, run := false, came := 0 }) { s with trib := { s.trib with out := [] } }

/-- What an instance does on reaching IDLE: its result words are not ready (R179); an optical slot's receiver and laser are off (R243); a
PON channel reads O1 without LOCK and ONU-ID, its unsent PLOAMs discarded (R262, R278); the interchange's stores are empty (R292). PON sees a slot
that turns off as loss of signal (R242). -/
def onIdle (s : State) (u n : Nat) : State :=
  let s := { s with ctl := { s.ctl with ready := s.ctl.ready.filter fun p => !sameInst p.1 (uaddr u n 0) } }
  match u with
  | 0x04 => optOff s n
  | 0x05 => wrF (lods (dropPloams (putAct s n 1) n) n) fPON_ONUID_IDVALID 0 n
  | 0x06 => emptyStores s true
  | _ => s

/-- The instance becomes ACTIVE. -/
def goActive (s : State) (u n : Nat) : State := onActive (wrC s fCOMMON_USTAT_STATE u n 1) u n

/-- A draining instance reads IDLE; a commit that was due applies, and with REEN it goes to ACTIVE at once (R179, R182). -/
def goIdle (s : State) (u n : Nat) : State :=
  let s := onIdle (wrC s fCOMMON_USTAT_STATE u n 0) u n
  let s := if commitDue s u n then commitNow s u n else s
  if rdC s fCOMMON_USTAT_REEN u n = 1 then goActive (wrC s fCOMMON_USTAT_REEN u n 0) u n else s

/-- The instance goes to DRAINING; its drain bound runs from this tick (R181). -/
def beginDrain (s : State) (u n : Nat) : State :=
  wrC { s with ctl := { s.ctl with drainAt := tset (fun _ => 0) s.ctl.drainAt (uaddr u n 0) s.sys.ticks } } fCOMMON_USTAT_STATE u n 2

/-- EN cleared: admission stops and STATE reads DRAINING; during DRAINING it takes back REEN (R181, R182). -/
def execUnitDisable (e : Eng) (u : UnitI) (n : InstI) (v : Word) (s : State) : Out :=
  if bitOf v.toNat 0 then .next s
  else onSet s e (uaddr u n 1) v fun s =>
    if noDisable u then s
    else
      let st := ustat s u n
      let s := wrC s fCOMMON_UCTRL_EN u n 0
      match st with
      | 1 => onDisabled (beginDrain s u n) u n
      | 2 => wrC s fCOMMON_USTAT_REEN u n 0
      | _ => s

/-- EN set: UDRAIN counts anew; an IDLE instance is ACTIVE, and a draining one reads REEN. A MAC whose port has no lanes in a frame mode
ignores the write and counts it (R169, R181, R182, R335). -/
def execUnitEnable (e : Eng) (u : UnitI) (n : InstI) (v : Word) (s : State) : Out :=
  if !bitOf v.toNat 0 then .next s
  else onSet s e (uaddr u n 1) v fun s =>
    if (u : Nat) = 8 && !frameMode s n then count s 8 kMacNoEn n
    else if noDisable u || rdC s fCOMMON_UCTRL_EN u n == 1 then s
    else
      let st := ustat s u n
      let s := wrC (wrC s fCOMMON_UCTRL_EN u n 1) fCOMMON_UDRAIN_DISC u n 0
      match st with
      | 0 => goActive s u n
      | 2 => wrC s fCOMMON_USTAT_REEN u n 1
      | _ => s

/-- Frames that QM holds: in scheduler queues, engine queues, host queues, or admitted and not yet committed. -/
def qmHolds (s : State) : Bool :=
  s.qm.queues.any (fun x => x.2.frames != []) || (List.range 192).any (fun e => (eng s e).frames != []) ||
    (List.range 8).any (fun h => (hostq s h).wait != []) || s.flights.any qmFlight

/-- Frames that channel c holds: in queues below its allocations, admitted for one of them, or in part not sent yet (R278). -/
def ponHeld (s : State) (c : Nat) : Nat :=
  (s.qm.queues.map fun x => if (allocBelow s c x.1).isSome then x.2.frames.length else 0).sum +
  (s.flights.filter fun x => x.stage == 2 && (match x.dest with | .sched q => (allocBelow s c q).isSome | _ => false)).length +
  ((List.range 24).filter fun a => (tget (fun _ => none) s.sch.rest (allocNode c a)).isSome).length

/-- Whether an instance that drains still holds work that it admitted (R181). -/
def holdsWork (s : State) (u n : Nat) : Bool :=
  match u with
  | 0x02 => !s.plc.moves.isEmpty
  | 0x03 => (List.range 8).any fun k => (chain s k).st == 5
  | 0x04 => (ponCh s n).burst.isSome
  | 0x05 => ponHeld s n != 0 || (ponCh s n).burst.isSome
  | 0x06 => (List.range 64).any fun q => (tribu s q).store != [] || (tribu s q).up != []
  | 0x08 => (macRuns s n && ((macP s n).ex.isSome || (macP s n).pr.isSome)) || (macP s n).cur.isSome || (macP s n).rxEx.isSome || (macP s n).rxPr.isSome
  | 0x09 => s.sbus.tx.isSome
  | 0x0a => s.flights.any fun x => x.icv != .none
  | 0x0d => qmHolds s
  | 0x11 => s.key.op.isSome || s.key.waits
  | 0x12 => (tget (fun _ => none) s.chk n).isSome
  | 0x17 => !s.pair.unsent.isEmpty
  | 0x19 => s.cnt.dump.isSome
  | _ => false

/-- The admitted work of a draining instance is complete: it reads IDLE, and goes to ACTIVE where REEN is set (R181, R182). -/
def execDrainComplete (u : UnitI) (n : InstI) (s : State) : Out :=
  if live s && ustat s u n == 2 && !holdsWork s u n then .next (goIdle s u n) else .next s

/-- Every frame that QM holds discarded and counted per queue, with their number (R439). -/
def dropQm (s : State) : State × Nat :=
  let open' := s.flights.filter qmFlight
  let nq := (s.qm.queues.map fun x => x.2.frames.length).sum
  let ne := ((List.range 192).map fun e => (eng s e).frames.length).sum
  let nh := ((List.range 8).map fun h => (hostq s h).wait.length).sum
  let s := countLeft s
  let s := { s with qm := { s.qm with queues := [] }, flights := s.flights.filter fun x => !qmFlight x }
  let s := open'.foldl (fun s x => count s 0x0d kQmDrained (qmObj x.dest)) s
  let s := (List.range 192).foldl (fun s e =>
    if (eng s e).frames = [] then s
    else eqcnt (setEng (count s 0x0d kQmDrained (qmObj (.eng e)) (eng s e).frames.length) e { eng s e with frames := [] }) e) s
  let s := (List.range 8).foldl (fun s h =>
    if (hostq s h).wait = [] then s
    else setHostq (count s 0x0d kQmDrained (qmObj (.host h)) (hostq s h).wait.length) h { hostq s h with wait := [] }) s
  (s, nq + ne + nh + open'.length)

/-- The drain bounds of R181 in ticks of 1.6 ns, for the units that may hold work at the bound. -/
def drainBound (u : Nat) : Nat :=
  match u with
  | 0x02 => 625000
  | 0x03 => 31250000
  | 0x05 => 2500000
  | 0x06 => 78125
  | 0x09 => 37500000
  | 0x0d => 62500000
  | 0x17 => 625000
  | _ => 0

/-- The chains that have drained for the 50 ms of R181, through a disable of HST or of their own (R204, R207). -/
def overdueChains (s : State) : List Nat :=
  (List.range 8).filter fun k => (chain s k).st == 5 && decide ((chain s k).drainAt + drainBound 3 ≤ s.sys.ticks)

/-- What is left at the drain bound discarded, with the number of work items; running moves revert, and a letter in execution fails with code
0x08 (R181, R199, R217, R278, R292, R345, R439, R601). The cause number of a reversion by a disable is a free value (assumption log 2). -/
def discardHeld (s : State) (u n : Nat) : State × Nat :=
  match u with
  | 0x02 =>
    let c := takeFree s
    (s.plc.moves.foldl (fun s m => revertMove s m c.1) c.2, 0)
  | 0x03 =>
    let l := overdueChains s
    (l.foldl (fun s k => endLetter s k 8) s, l.length)
  | 0x05 =>
    (dropChannelFrames s n fun _ => true, ponHeld s n)
  | 0x06 =>
    let left := ((List.range 64).map fun q => (tribu s q).store.length + (tribu s q).up.length).sum
    (emptyStores s true, left)
  | 0x09 =>
    (match s.sbus.tx with
    | some x => (endTx s x 3 0, 1)
    | none => (s, 0))
  | 0x0d => dropQm s
  | 0x17 => ({ s with pair := { s.pair with unsent := [] } }, s.pair.unsent.length)
  | _ => (s, 0)

/-- Units that the spec lets hold work at the bound (R181); work of the others completes within it. -/
def mayHold (u : Nat) : Bool := [0x02, 0x03, 0x05, 0x06, 0x09, 0x0d, 0x17].contains u

/-- Counter kind of every unit: work items discarded at a drain bound, per instance (R170). -/
def kDrain : Nat := 0xfff

/-- Whether an instance has drained for its bound and still holds work that R181 lets it discard. -/
def overdue (s : State) (u n : Nat) : Bool :=
  if u = 3 then n == 0 && !(overdueChains s).isEmpty
  else ustat s u n == 2 && mayHold u && holdsWork s u n &&
    decide (tget (fun _ => 0) s.ctl.drainAt (uaddr u n 0) + drainBound u ≤ s.sys.ticks)

/-- The drain bound expires with work still held: it is discarded and counted, event 0x3F_F02 records the count, and a draining instance that holds
nothing more reads IDLE (R170, R181). -/
def execDrainBoundExpiry (u : UnitI) (n : InstI) (s : State) : Out :=
  if !live s || !overdue s u n then .next s
  else
    let r := discardHeld s u n
    let k := r.2
    let s := if k = 0 then r.1
      else emit1 (count (wrC r.1 fCOMMON_UDRAIN_DISC u n (min 0xffffff (rdC r.1 fCOMMON_UDRAIN_DISC u n + k))) u kDrain n k)
        (u * 2 ^ 18 + 0x3ff02) k
    .next (if ustat s u n = 2 ∧ (u.val ≠ 3 ∨ !holdsWork s u n) then goIdle s u n else s)

/-- FUNCTION_LEVEL_RESET: HST disabled and then enabled, which takes effect at IDLE while a letter is in execution; MSI-X table and read marks
cleared, LINK.FLR set (R182, R206). That MSI-X Enable and Function Mask clear with it is as PCIe Base 5.0 has it (assumption log 77, PRESUMED).
It does not leave a halt, in which the collectors stand already. -/
def execFunctionLevelReset (s : State) : Out :=
  if s.hst.rate = 0 then .next s
  else
    let s := { s with
      hst := { s.hst with unmasked := [], table := [], msixPend := [], held := [], msixOn := false, fmask := false }
      ctl := { s.ctl with marks := [] } }
    let s := wrF s fHST_LINK_FLR 1
    let st := ustat s 3 0
    if s.sys.halted || st == 3 then .next s
    else
      let s := if st = 1 then onDisabled (beginDrain s 3 0) 3 0 else s
      let s := wrC (wrC s fCOMMON_UCTRL_EN 3 0 1) fCOMMON_UDRAIN_DISC 3 0 0
      if st = 0 then .next (goActive s 3 0)
      else
        let s := wrC s fCOMMON_USTAT_REEN 3 0 1
        .next (if holdsWork s 3 0 then s else goIdle s 3 0)

end Sys2Proof.Machine
end

