-- ==== Sys2Proof/Machine/Dispatch.lean ====
section
/-! DEFINITION. One arm for each command: one direct call of its meaning, or the command refused by name. -/
namespace Sys2Proof.Machine

/-- A command's effect on everything but the queue of waiting commands. -/
def exec (i : Instr) (s : State) : Host.Outcome State Fault Refusal :=
  match i with
  | .powerOn a b good => Sys2Proof.Machine.execPowerOn a b good s
  | .railStartRetry good => Sys2Proof.Machine.execRailStartRetry good s
  | .rstNReset low takes => Sys2Proof.Machine.execRstNReset low takes s
  | .crystalReady => Sys2Proof.Machine.execCrystalReady s
  | .crystalStartTimeout => Sys2Proof.Machine.execCrystalStartTimeout s
  | .dramTrained => Sys2Proof.Machine.execDramTrained s
  | .bootHandover => Sys2Proof.Machine.execBootHandover s
  | .recoveryImageCheck signer => Sys2Proof.Machine.execRecoveryImageCheck signer s
  | .recoveryBroadcast => Sys2Proof.Machine.execRecoveryBroadcast s
  | .feedLoss b => Sys2Proof.Machine.execFeedLoss b s
  | .feedReturn b => Sys2Proof.Machine.execFeedReturn b s
  | .islandRailSag => Sys2Proof.Machine.execIslandRailSag s
  | .dramPhyLockLost c line master => Sys2Proof.Machine.execDramPhyLockLost c line master s
  | .collapse => Sys2Proof.Machine.execCollapse s
  | .commitBufferFlush => Sys2Proof.Machine.execCommitBufferFlush s
  | .tjSample t sensor => Sys2Proof.Machine.execTjSample t sensor s
  | .vcoreResult mv => Sys2Proof.Machine.execVcoreResult mv s
  | .add e rd ra rb => Sys2Proof.Machine.execAdd e rd ra rb s
  | .addc e rd ra rb => Sys2Proof.Machine.execAddc e rd ra rb s
  | .sub e rd ra rb => Sys2Proof.Machine.execSub e rd ra rb s
  | .subc e rd ra rb => Sys2Proof.Machine.execSubc e rd ra rb s
  | .and e rd ra rb => Sys2Proof.Machine.execAnd e rd ra rb s
  | .or e rd ra rb => Sys2Proof.Machine.execOr e rd ra rb s
  | .xor e rd ra rb => Sys2Proof.Machine.execXor e rd ra rb s
  | .andn e rd ra rb => Sys2Proof.Machine.execAndn e rd ra rb s
  | .shl e rd ra rb => Sys2Proof.Machine.execShl e rd ra rb s
  | .shr e rd ra rb => Sys2Proof.Machine.execShr e rd ra rb s
  | .sar e rd ra rb => Sys2Proof.Machine.execSar e rd ra rb s
  | .rol e rd ra rb => Sys2Proof.Machine.execRol e rd ra rb s
  | .mul e rd ra rb => Sys2Proof.Machine.execMul e rd ra rb s
  | .mulh e rd ra rb => Sys2Proof.Machine.execMulh e rd ra rb s
  | .mulhu e rd ra rb => Sys2Proof.Machine.execMulhu e rd ra rb s
  | .div e rd ra rb => Sys2Proof.Machine.execDiv e rd ra rb s
  | .divu e rd ra rb => Sys2Proof.Machine.execDivu e rd ra rb s
  | .rem e rd ra rb => Sys2Proof.Machine.execRem e rd ra rb s
  | .remu e rd ra rb => Sys2Proof.Machine.execRemu e rd ra rb s
  | .min e rd ra rb => Sys2Proof.Machine.execMin e rd ra rb s
  | .max e rd ra rb => Sys2Proof.Machine.execMax e rd ra rb s
  | .minu e rd ra rb => Sys2Proof.Machine.execMinu e rd ra rb s
  | .maxu e rd ra rb => Sys2Proof.Machine.execMaxu e rd ra rb s
  | .clz e rd ra => Sys2Proof.Machine.execClz e rd ra s
  | .extb e rd ra rb => Sys2Proof.Machine.execExtb e rd ra rb s
  | .addi e rd ra imm => Sys2Proof.Machine.execAddi e rd ra imm s
  | .subi e rd ra imm => Sys2Proof.Machine.execSubi e rd ra imm s
  | .andi e rd ra imm => Sys2Proof.Machine.execAndi e rd ra imm s
  | .ori e rd ra imm => Sys2Proof.Machine.execOri e rd ra imm s
  | .xori e rd ra imm => Sys2Proof.Machine.execXori e rd ra imm s
  | .shi e rd ra kind amt => Sys2Proof.Machine.execShi e rd ra kind amt s
  | .ldi e rd imm => Sys2Proof.Machine.execLdi e rd imm s
  | .ext e rd ra pos wm1 => Sys2Proof.Machine.execExt e rd ra pos wm1 s
  | .ins e rd ra pos wm1 => Sys2Proof.Machine.execIns e rd ra pos wm1 s
  | .illegalEncoding e w0 w1 => Sys2Proof.Machine.execIllegalEncoding e w0 w1 s
  | .b e cond off => Sys2Proof.Machine.execB e cond off s
  | .jmp e target => Sys2Proof.Machine.execJmp e target s
  | .call e target => Sys2Proof.Machine.execCall e target s
  | .jr e rd ra => Sys2Proof.Machine.execJr e rd ra s
  | .ld e rd ra imm bad => Sys2Proof.Machine.execLd e rd ra imm bad s
  | .st e rd ra imm => Sys2Proof.Machine.execSt e rd ra imm s
  | .xadd e rd ra rb => Sys2Proof.Machine.execXadd e rd ra rb s
  | .cas e rd ra rb => Sys2Proof.Machine.execCas e rd ra rb s
  | .pld1 e rd ra imm => Sys2Proof.Machine.execPld1 e rd ra imm s
  | .pld2 e rd ra imm => Sys2Proof.Machine.execPld2 e rd ra imm s
  | .pld3 e rd ra imm => Sys2Proof.Machine.execPld3 e rd ra imm s
  | .pst1 e rd ra imm => Sys2Proof.Machine.execPst1 e rd ra imm s
  | .pst2 e rd ra imm => Sys2Proof.Machine.execPst2 e rd ra imm s
  | .pst3 e rd ra imm => Sys2Proof.Machine.execPst3 e rd ra imm s
  | .take e => Sys2Proof.Machine.execTake e s
  | .frameArrivalInWindow e rest => Sys2Proof.Machine.execFrameArrivalInWindow e rest s
  | .send e => Sys2Proof.Machine.execSend e s
  | .drop e => Sys2Proof.Machine.execDrop e s
  | .adj e rb => Sys2Proof.Machine.execAdj e rb s
  | .fld e rd ra size => Sys2Proof.Machine.execFld e rd ra size s
  | .farLoadDataReturn e k => Sys2Proof.Machine.execFarLoadDataReturn e k s
  | .fst e rd ra size => Sys2Proof.Machine.execFst e rd ra size s
  | .fbl e ra rb fn => Sys2Proof.Machine.execFbl e ra rb fn s
  | .fbs e ra rb fn => Sys2Proof.Machine.execFbs e ra rb fn s
  | .farAccessComplete e k => Sys2Proof.Machine.execFarAccessComplete e k s
  | .fence e => Sys2Proof.Machine.execFence e s
  | .set e ra rb => Sys2Proof.Machine.execSet e ra rb s
  | .get e rd ra => Sys2Proof.Machine.execGet e rd ra s
  | .getAnswer e => Sys2Proof.Machine.execGetAnswer e s
  | .commit e ra => Sys2Proof.Machine.execCommit e ra s
  | .post e q rb => Sys2Proof.Machine.execPost e q rb s
  | .postboxArbitration d at_ => Sys2Proof.Machine.execPostboxArbitration d at_ s
  | .messageCollectable d e k => Sys2Proof.Machine.execMessageCollectable d e k s
  | .collect e q => Sys2Proof.Machine.execCollect e q s
  | .watch e ra => Sys2Proof.Machine.execWatch e ra s
  | .timeat e ra => Sys2Proof.Machine.execTimeat e ra s
  | .timeatDisarm e => Sys2Proof.Machine.execTimeatDisarm e s
  | .timeLatchSet e => Sys2Proof.Machine.execTimeLatchSet e s
  | .wait e conds => Sys2Proof.Machine.execWait e conds s
  | .waitWake e => Sys2Proof.Machine.execWaitWake e s
  | .trap e n => Sys2Proof.Machine.execTrap e n s
  | .rtt e => Sys2Proof.Machine.execRtt e s
  | .nop e => Sys2Proof.Machine.execNop e s
  | .mfl e rd => Sys2Proof.Machine.execMfl e rd s
  | .mtfl e ra => Sys2Proof.Machine.execMtfl e ra s
  | .mftp e rd => Sys2Proof.Machine.execMftp e rd s
  | .mttp e ra => Sys2Proof.Machine.execMttp e ra s
  | .sampleIntervalExpiry e => Sys2Proof.Machine.execSampleIntervalExpiry e s
  | .sampleTrap e => Sys2Proof.Machine.execSampleTrap e s
  | .imemEccError x => Sys2Proof.Machine.execImemEccError x s
  | .engineRun by_ l k v => Sys2Proof.Machine.execEngineRun by_ l k v s
  | .engineStop by_ l k v => Sys2Proof.Machine.execEngineStop by_ l k v s
  | .engineStopped e => Sys2Proof.Machine.execEngineStopped e s
  | .engineStep by_ l k v => Sys2Proof.Machine.execEngineStep by_ l k v s
  | .clrfail by_ l k v => Sys2Proof.Machine.execClrfail by_ l k v s
  | .loaderGo by_ l v => Sys2Proof.Machine.execLoaderGo by_ l v s
  | .loaderDone l ok => Sys2Proof.Machine.execLoaderDone l ok s
  | .unitWordWrite e a v => Sys2Proof.Machine.execUnitWordWrite e a v s
  | .commitSnapshot e u n => Sys2Proof.Machine.execCommitSnapshot e u n s
  | .commitPoint u n => Sys2Proof.Machine.execCommitPoint u n s
  | .unitDisable e u n v => Sys2Proof.Machine.execUnitDisable e u n v s
  | .unitEnable e u n v => Sys2Proof.Machine.execUnitEnable e u n v s
  | .drainComplete u n => Sys2Proof.Machine.execDrainComplete u n s
  | .drainBoundExpiry u n => Sys2Proof.Machine.execDrainBoundExpiry u n s
  | .scheduledCommitArm e u n v => Sys2Proof.Machine.execScheduledCommitArm e u n v s
  | .scheduledCommitDisarm e u n v => Sys2Proof.Machine.execScheduledCommitDisarm e u n v s
  | .scheduledCommitDue u n => Sys2Proof.Machine.execScheduledCommitDue u n s
  | .ustatRead e u n => Sys2Proof.Machine.execUstatRead e u n s
  | .resultSlotHostRead slot => Sys2Proof.Machine.execResultSlotHostRead slot s
  | .resultSlotMap e v => Sys2Proof.Machine.execResultSlotMap e v s
  | .chainStart n h l => Sys2Proof.Machine.execChainStart n h l s
  | .doorbellRing n r => Sys2Proof.Machine.execDoorbellRing n r s
  | .doorbellWake n => Sys2Proof.Machine.execDoorbellWake n s
  | .chainResume n => Sys2Proof.Machine.execChainResume n s
  | .chainDisable e n v => Sys2Proof.Machine.execChainDisable e n v s
  | .bar0WriteDiscarded off => Sys2Proof.Machine.execBar0WriteDiscarded off s
  | .hostPostboxTake n => Sys2Proof.Machine.execHostPostboxTake n s
  | .letterFetched n w cpl poison => Sys2Proof.Machine.execLetterFetched n w cpl poison s
  | .parkedReread n r => Sys2Proof.Machine.execParkedReread n r s
  | .nopLetter n => Sys2Proof.Machine.execNopLetter n s
  | .msgLetter n => Sys2Proof.Machine.execMsgLetter n s
  | .msgLetterRetry n => Sys2Proof.Machine.execMsgLetterRetry n s
  | .msgFullTimeout n => Sys2Proof.Machine.execMsgFullTimeout n s
  | .readLetter n bytes x => Sys2Proof.Machine.execReadLetter n bytes x s
  | .writeLetter n => Sys2Proof.Machine.execWriteLetter n s
  | .dmaComplete n => Sys2Proof.Machine.execDmaComplete n s
  | .completionTimeout x => Sys2Proof.Machine.execCompletionTimeout x s
  | .irqHoldoffExpiry v => Sys2Proof.Machine.execIrqHoldoffExpiry v s
  | .pcieLinkDown => Sys2Proof.Machine.execPcieLinkDown s
  | .pcieLinkUp link cfg => Sys2Proof.Machine.execPcieLinkUp link cfg s
  | .functionLevelReset => Sys2Proof.Machine.execFunctionLevelReset s
  | .msixUnmask x f => Sys2Proof.Machine.execMsixUnmask x f s
  | .linkRead e => Sys2Proof.Machine.execLinkRead e s
  | .balanceEpoch out back wants => Sys2Proof.Machine.execBalanceEpoch out back wants s
  | .plcQuery e v => Sys2Proof.Machine.execPlcQuery e v s
  | .plcMove e v => Sys2Proof.Machine.execPlcMove e v s
  | .plcHint e v => Sys2Proof.Machine.execPlcHint e v s
  | .plcPick e v least => Sys2Proof.Machine.execPlcPick e v least s
  | .pickReservationExpiry x => Sys2Proof.Machine.execPickReservationExpiry x s
  | .moveDrainComplete kind index => Sys2Proof.Machine.execMoveDrainComplete kind index s
  | .moveTimeout kind index => Sys2Proof.Machine.execMoveTimeout kind index s
  | .contextResident c => Sys2Proof.Machine.execContextResident c s
  | .contextMove c toStore => Sys2Proof.Machine.execContextMove c toStore s
  | .losSet c => Sys2Proof.Machine.execLosSet c s
  | .losClear c => Sys2Proof.Machine.execLosClear c s
  | .laserCut e c v => Sys2Proof.Machine.execLaserCut e c v s
  | .laserCutClear e c v holds => Sys2Proof.Machine.execLaserCutClear e c v holds s
  | .watchdogCut c why ns => Sys2Proof.Machine.execWatchdogCut c why ns s
  | .rxReady c => Sys2Proof.Machine.execRxReady c s
  | .txReady c => Sys2Proof.Machine.execTxReady c s
  | .wlockSet c => Sys2Proof.Machine.execWlockSet c s
  | .wlockClear c => Sys2Proof.Machine.execWlockClear c s
  | .optMonitorResult c power temp apd burst => Sys2Proof.Machine.execOptMonitorResult c power temp apd burst s
  | .downstreamFrame c superframe items => Sys2Proof.Machine.execDownstreamFrame c superframe items s
  | .psbdMissed c => Sys2Proof.Machine.execPsbdMissed c s
  | .o6HoldExpiry c => Sys2Proof.Machine.execO6HoldExpiry c s
  | .actset e c v => Sys2Proof.Machine.execActset e c v s
  | .serialNumberReply c => Sys2Proof.Machine.execSerialNumberReply c s
  | .burstStart c => Sys2Proof.Machine.execBurstStart c s
  | .burstEnd c => Sys2Proof.Machine.execBurstEnd c s
  | .ploamUpstreamGo e c v => Sys2Proof.Machine.execPloamUpstreamGo e c v s
  | .sfcCaptureArm e c v => Sys2Proof.Machine.execSfcCaptureArm e c v s
  | .ponForcedWake c => Sys2Proof.Machine.execPonForcedWake c s
  | .dlerrClear e c v => Sys2Proof.Machine.execDlerrClear e c v s
  | .containerTimeout q => Sys2Proof.Machine.execContainerTimeout q s
  | .tribFrameBoundary rx => Sys2Proof.Machine.execTribFrameBoundary rx s
  | .connWrite e n v => Sys2Proof.Machine.execConnWrite e n v s
  | .polarityToggle l => Sys2Proof.Machine.execPolarityToggle l s
  | .laneSignalDetect l => Sys2Proof.Machine.execLaneSignalDetect l s
  | .laneAdaptationDone l => Sys2Proof.Machine.execLaneAdaptationDone l s
  | .laneBlockLock l m swap => Sys2Proof.Machine.execLaneBlockLock l m swap s
  | .laneFecLock l => Sys2Proof.Machine.execLaneFecLock l s
  | .eqUpdate l tap up => Sys2Proof.Machine.execEqUpdate l tap up s
  | .laneLockLoss l => Sys2Proof.Machine.execLaneLockLoss l s
  | .lanePllLockLoss g => Sys2Proof.Machine.execLanePllLockLoss g s
  | .ponFramerPllLockLoss c => Sys2Proof.Machine.execPonFramerPllLockLoss c s
  | .rxsnrResult l x => Sys2Proof.Machine.execRxsnrResult l x s
  | .macRxFrameStart p pre buf ecc x => Sys2Proof.Machine.execMacRxFrameStart p pre buf ecc x s
  | .macRxFrameEnd p pre how frags => Sys2Proof.Machine.execMacRxFrameEnd p pre how frags s
  | .pauseRepeat p => Sys2Proof.Machine.execPauseRepeat p s
  | .pauseWatchdogTrip p c => Sys2Proof.Machine.execPauseWatchdogTrip p c s
  | .pauseWatchdogRecoveryEnd p c => Sys2Proof.Machine.execPauseWatchdogRecoveryEnd p c s
  | .verifyTimer p => Sys2Proof.Machine.execVerifyTimer p s
  | .verifyResponse p => Sys2Proof.Machine.execVerifyResponse p s
  | .verifyMpacketReceived p => Sys2Proof.Machine.execVerifyMpacketReceived p s
  | .macTxFrameEnd p cutAt under => Sys2Proof.Machine.execMacTxFrameEnd p cutAt under s
  | .gateEntryChange p early => Sys2Proof.Machine.execGateEntryChange p early s
  | .gateListSwitch p => Sys2Proof.Machine.execGateListSwitch p s
  | .geaWrite e p v => Sys2Proof.Machine.execGeaWrite e p v s
  | .gebWrite e p v => Sys2Proof.Machine.execGebWrite e p v s
  | .sbusTxgo e v => Sys2Proof.Machine.execSbusTxgo e v s
  | .sbusFetchComplete sealOk => Sys2Proof.Machine.execSbusFetchComplete sealOk s
  | .sbusTxAttempt deferred => Sys2Proof.Machine.execSbusTxAttempt deferred s
  | .sbusCollision sent => Sys2Proof.Machine.execSbusCollision sent s
  | .sbusBackoffEnd => Sys2Proof.Machine.execSbusBackoffEnd s
  | .sbusTxComplete => Sys2Proof.Machine.execSbusTxComplete s
  | .sbusRxFrame start x => Sys2Proof.Machine.execSbusRxFrame start x s
  | .sbusPostRetry => Sys2Proof.Machine.execSbusPostRetry s
  | .sbusRxdone e v => Sys2Proof.Machine.execSbusRxdone e v s
  | .jabberDetect => Sys2Proof.Machine.execJabberDetect s
  | .jabberClear => Sys2Proof.Machine.execJabberClear s
  | .sbusCarrierWake => Sys2Proof.Machine.execSbusCarrierWake s
  | .msecIcvResult f => Sys2Proof.Machine.execMsecIcvResult f s
  | .msecEgressFrame p pre ecc => Sys2Proof.Machine.execMsecEgressFrame p pre ecc s
  | .switchRequest e v => Sys2Proof.Machine.execSwitchRequest e v s
  | .switchCancel e v => Sys2Proof.Machine.execSwitchCancel e v s
  | .switchTimeDue ch => Sys2Proof.Machine.execSwitchTimeDue ch s
  | .retentionExpiry c => Sys2Proof.Machine.execRetentionExpiry c s
  | .msecNoteRetry => Sys2Proof.Machine.execMsecNoteRetry s
  | .clsSearch f lost => Sys2Proof.Machine.execClsSearch f lost s
  | .clsEntryWrite e v => Sys2Proof.Machine.execClsEntryWrite e v s
  | .clsEntryWriteDone => Sys2Proof.Machine.execClsEntryWriteDone s
  | .clsEntryRead e v => Sys2Proof.Machine.execClsEntryRead e v s
  | .hidataWrite e v => Sys2Proof.Machine.execHidataWrite e v s
  | .clsScrub row bad0 bad1 => Sys2Proof.Machine.execClsScrub row bad0 bad1 s
  | .flowRecordWrite e v => Sys2Proof.Machine.execFlowRecordWrite e v s
  | .flowRecordRead e v => Sys2Proof.Machine.execFlowRecordRead e v s
  | .exactMatchInsert e v => Sys2Proof.Machine.execExactMatchInsert e v s
  | .exactMatchDelete e v => Sys2Proof.Machine.execExactMatchDelete e v s
  | .exactMatchLookup e v => Sys2Proof.Machine.execExactMatchLookup e v s
  | .flowOpComplete => Sys2Proof.Machine.execFlowOpComplete s
  | .qmAdmit f => Sys2Proof.Machine.execQmAdmit f s
  | .qmFrameCommit c => Sys2Proof.Machine.execQmFrameCommit c s
  | .spillReadback q ok => Sys2Proof.Machine.execSpillReadback q ok s
  | .queueStateEccError q => Sys2Proof.Machine.execQueueStateEccError q s
  | .hqdoneWrite e n v => Sys2Proof.Machine.execHqdoneWrite e n v s
  | .serviceDecision n d parity lost => Sys2Proof.Machine.execServiceDecision n d parity lost s
  | .schSample n => Sys2Proof.Machine.execSchSample n s
  | .refreshReportRead reports => Sys2Proof.Machine.execRefreshReportRead reports s
  | .retrainDue x => Sys2Proof.Machine.execRetrainDue x s
  | .trainnow e c v => Sys2Proof.Machine.execTrainnow e c v s
  | .retrainPauseStart => Sys2Proof.Machine.execRetrainPauseStart s
  | .retrainPauseEnd ok step held => Sys2Proof.Machine.execRetrainPauseEnd ok step held s
  | .memBandwidthResult v => Sys2Proof.Machine.execMemBandwidthResult v s
  | .sealCheck e k line r => Sys2Proof.Machine.execSealCheck e k line r s
  | .partialWrite e k r => Sys2Proof.Machine.execPartialWrite e k r s
  | .granuleFill g => Sys2Proof.Machine.execGranuleFill g s
  | .backgroundFillDone => Sys2Proof.Machine.execBackgroundFillDone s
  | .rekeyStart e v => Sys2Proof.Machine.execRekeyStart e v s
  | .rekeyLine r d => Sys2Proof.Machine.execRekeyLine r d s
  | .keyWrite e v => Sys2Proof.Machine.execKeyWrite e v s
  | .keyGenerate e v => Sys2Proof.Machine.execKeyGenerate e v s
  | .keyDerive e v => Sys2Proof.Machine.execKeyDerive e v s
  | .keyErase e v => Sys2Proof.Machine.execKeyErase e v s
  | .keyQuery e v => Sys2Proof.Machine.execKeyQuery e v s
  | .mextend e v => Sys2Proof.Machine.execMextend e v s
  | .keyOpComplete => Sys2Proof.Machine.execKeyOpComplete s
  | .keyScrub n mismatch => Sys2Proof.Machine.execKeyScrub n mismatch s
  | .keyLifeExpiry n => Sys2Proof.Machine.execKeyLifeExpiry n s
  | .rngReady => Sys2Proof.Machine.execRngReady s
  | .drbgReseed => Sys2Proof.Machine.execDrbgReseed s
  | .randRefresh => Sys2Proof.Machine.execRandRefresh s
  | .rngHealthFailure => Sys2Proof.Machine.execRngHealthFailure s
  | .lcToProvisioned e v => Sys2Proof.Machine.execLcToProvisioned e v s
  | .lcToField e v => Sys2Proof.Machine.execLcToField e v s
  | .lcWriteHash e v => Sys2Proof.Machine.execLcWriteHash e v s
  | .lcRevokeHash e v => Sys2Proof.Machine.execLcRevokeHash e v s
  | .lcRaiseFloor e v => Sys2Proof.Machine.execLcRaiseFloor e v s
  | .lcBlowTestLock e v => Sys2Proof.Machine.execLcBlowTestLock e v s
  | .fuseWriteComplete ok => Sys2Proof.Machine.execFuseWriteComplete ok s
  | .cmacGen e l v => Sys2Proof.Machine.execCmacGen e l v s
  | .cmacVer e l v => Sys2Proof.Machine.execCmacVer e l v s
  | .gmacGen e l v => Sys2Proof.Machine.execGmacGen e l v s
  | .gmacVer e l v => Sys2Proof.Machine.execGmacVer e l v s
  | .wrapKey e l v => Sys2Proof.Machine.execWrapKey e l v s
  | .unwrapKey e l v => Sys2Proof.Machine.execUnwrapKey e l v s
  | .wrapData e l v => Sys2Proof.Machine.execWrapData e l v s
  | .unwrapData e l v => Sys2Proof.Machine.execUnwrapData e l v s
  | .chkOpComplete l => Sys2Proof.Machine.execChkOpComplete l s
  | .snapshotLatch e k v => Sys2Proof.Machine.execSnapshotLatch e k v s
  | .adjFreq e v => Sys2Proof.Machine.execAdjFreq e v s
  | .adjOffset e v => Sys2Proof.Machine.execAdjOffset e v s
  | .adjSet e v => Sys2Proof.Machine.execAdjSet e v s
  | .slewEnd => Sys2Proof.Machine.execSlewEnd s
  | .ppsInEdge j => Sys2Proof.Machine.execPpsInEdge j s
  | .ppsLoss j => Sys2Proof.Machine.execPpsLoss j s
  | .todCharReceived j c ferr => Sys2Proof.Machine.execTodCharReceived j c ferr s
  | .todtake e j v => Sys2Proof.Machine.execTodtake e j v s
  | .refSelection => Sys2Proof.Machine.execRefSelection s
  | .wtrExpiry r => Sys2Proof.Machine.execWtrExpiry r s
  | .egtake e v => Sys2Proof.Machine.execEgtake e v s
  | .synceFreqMeasure v => Sys2Proof.Machine.execSynceFreqMeasure v s
  | .ppsOutPulse j => Sys2Proof.Machine.execPpsOutPulse j s
  | .todOutMessage j => Sys2Proof.Machine.execTodOutMessage j s
  | .triggerArm e t v => Sys2Proof.Machine.execTriggerArm e t v s
  | .triggerStop e t v => Sys2Proof.Machine.execTriggerStop e t v s
  | .triggerFire t => Sys2Proof.Machine.execTriggerFire t s
  | .candleOscReady => Sys2Proof.Machine.execCandleOscReady s
  | .ovenOkSet => Sys2Proof.Machine.execOvenOkSet s
  | .ovenOkClear => Sys2Proof.Machine.execOvenOkClear s
  | .candleCompare d => Sys2Proof.Machine.execCandleCompare d s
  | .modelEval h err fast => Sys2Proof.Machine.execModelEval h err fast s
  | .lseedWrite e v => Sys2Proof.Machine.execLseedWrite e v s
  | .candleStop => Sys2Proof.Machine.execCandleStop s
  | .candleRestartAttempt => Sys2Proof.Machine.execCandleRestartAttempt s
  | .cstatRead e => Sys2Proof.Machine.execCstatRead e s
  | .conversionResult c v surge => Sys2Proof.Machine.execConversionResult c v surge s
  | .calibrationSlot c isOpen forced missed => Sys2Proof.Machine.execCalibrationSlot c isOpen forced missed s
  | .dioEdge j rising => Sys2Proof.Machine.execDioEdge j rising s
  | .dioedgeRead e => Sys2Proof.Machine.execDioedgeRead e s
  | .cygoWrite e v => Sys2Proof.Machine.execCygoWrite e v s
  | .cycleApply c => Sys2Proof.Machine.execCycleApply c s
  | .levelRequest e v => Sys2Proof.Machine.execLevelRequest e v s
  | .voltageAck => Sys2Proof.Machine.execVoltageAck s
  | .voltageRequestTimeout => Sys2Proof.Machine.execVoltageRequestTimeout s
  | .sleepEntry chans => Sys2Proof.Machine.execSleepEntry chans s
  | .wakeEvent => Sys2Proof.Machine.execWakeEvent s
  | .padRelease e v => Sys2Proof.Machine.execPadRelease e v s
  | .ovldRead e => Sys2Proof.Machine.execOvldRead e s
  | .heartbeatSend => Sys2Proof.Machine.execHeartbeatSend s
  | .heartbeatReceived k mate fit primary seq sn => Sys2Proof.Machine.execHeartbeatReceived k mate fit primary seq sn s
  | .partnerNotHeard => Sys2Proof.Machine.execPartnerNotHeard s
  | .mirrorRecordReceived k seq x => Sys2Proof.Machine.execMirrorRecordReceived k seq x s
  | .mirrorRefresh => Sys2Proof.Machine.execMirrorRefresh s
  | .resyncComplete => Sys2Proof.Machine.execResyncComplete s
  | .syncLoss => Sys2Proof.Machine.execSyncLoss s
  | .partnerMessageSend e v => Sys2Proof.Machine.execPartnerMessageSend e v s
  | .partnerMessageReceived tag w1 w2 w3 => Sys2Proof.Machine.execPartnerMessageReceived tag w1 w2 w3 s
  | .partnerMessageRetry => Sys2Proof.Machine.execPartnerMessageRetry s
  | .seekTimeout => Sys2Proof.Machine.execSeekTimeout s
  | .mateActInFall fit => Sys2Proof.Machine.execMateActInFall fit s
  | .mateActInRise fit => Sys2Proof.Machine.execMateActInRise fit s
  | .pairSwitch e v fit => Sys2Proof.Machine.execPairSwitch e v fit s
  | .graceEnd => Sys2Proof.Machine.execGraceEnd s
  | .partnerReset e v => Sys2Proof.Machine.execPartnerReset e v s
  | .fitokWrite e v => Sys2Proof.Machine.execFitokWrite e v s
  | .faultRaised => Sys2Proof.Machine.execFaultRaised s
  | .recoveryEnd d => Sys2Proof.Machine.execRecoveryEnd d s
  | .recoveryTimeout d => Sys2Proof.Machine.execRecoveryTimeout d s
  | .domainClear e v => Sys2Proof.Machine.execDomainClear e v s
  | .haltRecordCommit => Sys2Proof.Machine.execHaltRecordCommit s
  | .epochSwitch => Sys2Proof.Machine.execEpochSwitch s
  | .dumpComplete => Sys2Proof.Machine.execDumpComplete s
  | .counterEccError unit kind obj single => Sys2Proof.Machine.execCounterEccError unit kind obj single s
  | .nodeRead e v => Sys2Proof.Machine.execNodeRead e v s
  | .nodeReset e v => Sys2Proof.Machine.execNodeReset e v s
  | .sampleAppend e v => Sys2Proof.Machine.execSampleAppend e v s
  | .captureArm e v => Sys2Proof.Machine.execCaptureArm e v s
  | .captureTrigger e v => Sys2Proof.Machine.execCaptureTrigger e v s
  | .captureStop e v => Sys2Proof.Machine.execCaptureStop e v s
  | .captureFrozen => Sys2Proof.Machine.execCaptureFrozen s
  | .captureRecord lost => Sys2Proof.Machine.execCaptureRecord lost s
  | .eventRecord => Sys2Proof.Machine.execEventRecord s
  | .creditInstant => Sys2Proof.Machine.execCreditInstant s
  | .suppressedRecord code => Sys2Proof.Machine.execSuppressedRecord code s
  | .recorderClear e v => Sys2Proof.Machine.execRecorderClear e v s
  | .hostRecordLatch => Sys2Proof.Machine.execHostRecordLatch s
  | .hostRecordAdvance => Sys2Proof.Machine.execHostRecordAdvance s
  | .engineRecordLatch e k => Sys2Proof.Machine.execEngineRecordLatch e k s
  | .engineRecordAdvance e k => Sys2Proof.Machine.execEngineRecordAdvance e k s
  | .journalCommit worn => Sys2Proof.Machine.execJournalCommit worn s
  | .tagReadLatch e v => Sys2Proof.Machine.execTagReadLatch e v s
  | .tagWrite e v => Sys2Proof.Machine.execTagWrite e v s
  | .tagWriteCommit => Sys2Proof.Machine.execTagWriteCommit s
  | .tagLockToReset e v => Sys2Proof.Machine.execTagLockToReset e v s
  | .tagLockPermanent e v => Sys2Proof.Machine.execTagLockPermanent e v s
  | .fwcauseClear e v => Sys2Proof.Machine.execFwcauseClear e v s
  | .checkerLock j => Sys2Proof.Machine.execCheckerLock j s
  | .checkerLockLoss j => Sys2Proof.Machine.execCheckerLockLoss j s
  | .inject e j v busy => Sys2Proof.Machine.execInject e j v busy s
  | .terrResult j bits errors generated => Sys2Proof.Machine.execTerrResult j bits errors generated s
  | .testFrameSend => Sys2Proof.Machine.execTestFrameSend s
  | .tapReset => Sys2Proof.Machine.execTapReset s
  | .extest cells pins => Sys2Proof.Machine.execExtest cells pins s
  | .samplePreload pins => Sys2Proof.Machine.execSamplePreload pins s
  | .idcode => Sys2Proof.Machine.execIdcode s
  | .clamp cells => Sys2Proof.Machine.execClamp cells s
  | .highz => Sys2Proof.Machine.execHighz s
  | .engdebug => Sys2Proof.Machine.execEngdebug s
  | .ptest => Sys2Proof.Machine.execPtest s
  | .bypass code => Sys2Proof.Machine.execBypass code s
  | .pauseTimeExpiry p classes => Sys2Proof.Machine.execPauseTimeExpiry p classes s
  | .watchfulSleepReceiverCycle c on => Sys2Proof.Machine.execWatchfulSleepReceiverCycle c on s
  | .pwmPeriodStart k => Sys2Proof.Machine.execPwmPeriodStart k s
  | .lifeCounterWrap => Sys2Proof.Machine.execLifeCounterWrap s
  | .crystalLoss => Sys2Proof.Machine.execCrystalLoss s

end Sys2Proof.Machine
end

