-- ==== Sys2Proof/Machine/Tick.lean ====
section
/-! DEFINITION. What passes with time while no command waits: one tick of 1.6 ns. -/
namespace Sys2Proof.Machine

/-- A tick of laser light of slot c: 625,000 of them are one more ms in the journal (R651). -/
def laserTick (s : State) (c : Nat) : State :=
  if (ponCh s c).burst.isNone then s
  else
    let n := tget (fun _ => 0) s.log.laser c + 1
    let setLaser := fun (s : State) (n : Nat) => { s with log := { s.log with laser := tset (fun _ => 0) s.log.laser c n } }
    if n < 625000 then setLaser s n else journalAdd (setLaser s 0) (1 + c)

/-- One tick of 1.6 ns: the time counter advances where it has a clock, the references that are eligible are noted, open bursts add to the
lasers' on-time, and every second the journal counts (R515, R521, R526, R651). -/
def tick (s : State) : State :=
  let s := { s with sys := { s.sys with ticks := s.sys.ticks + 1 } }
  let s := if clocked s then countTick s else s
  if !alwaysOn s then s
  else
    let s := noteRefs s
    let s := (List.range 4).foldl laserTick s
    if s.sys.ticks % 625000000 = 0 then journalSecond s else s

end Sys2Proof.Machine
end

