-- ==== Sys2Proof/WellFormed.lean ====
section
/-! DEFINITION. Which commands are well formed: operands whose type admits more than the spec gives the row. -/
namespace Sys2Proof

/-- An item of a downstream PHY frame: a 16-bit port-ID, a 2-bit key index, an alloc-ID of 14 bits, a 10-bit ONU-ID and PLOAM messages of
48 bytes (R254 to R272). -/
def PonItem.wf : PonItem → Bool
  | .xgem port key _ _ _ _ _ _ => decide (port < 2 ^ 16) && decide (key < 4)
  | .lost _ ports => ports.all fun p => decide (p < 2 ^ 16)
  | .ploam message => message.length == 48
  | .grant alloc prof _ _ _ _ => decide (alloc < 2 ^ 14) && decide (prof < 4)
  | .serialGrant => true
  | .rangingGrant onu prof _ _ => decide (onu < 2 ^ 10) && decide (prof < 4)
  | .fec _ words uncorrectable => decide (uncorrectable ≤ words)
  | .power _ => true

/-- A mirror record: one of 4,096 contexts, one of 1,024 channels with an AN of 2 bits, a PN of 64 bits (R362, R372, R386). -/
def MirrorItem.wf : MirrorItem → Bool
  | .pn ctx n => decide (ctx < 4096) && decide (n < 2 ^ 64)
  | .install ctx => decide (ctx < 4096)
  | .withdraw ctx => decide (ctx < 4096)
  | .switched ch an => decide (ch < 1024) && decide (an < 4)

/-- A line of the data space (R473, R478). -/
def lineOk (line : Nat) : Bool := decide (line < Machine.dataSpace) && line % 64 == 0

/-- A unit instance that exists (R4, R5). -/
def instOk (u : UnitI) (n : InstI) : Bool := decide (n.val < Machine.instCount u.val)

/-- A letter is 16 host words (R188), or none where the host has written none to its place of the letter store (R187). -/
def letterOk (w : List (BitVec 32)) : Bool := w.length == 16 || w.isEmpty

/-- Whether a command's operands are ones the spec gives its row. -/
def Instr.wf : Instr → Bool
  | .powerOn .. | .railStartRetry .. | .rstNReset .. | .crystalReady .. | .crystalStartTimeout .. | .dramTrained ..
  | .bootHandover .. => true
  | .recoveryImageCheck signer => signer.length == 128
  | .recoveryBroadcast .. | .feedLoss .. | .feedReturn .. | .islandRailSag .. => true
  | .dramPhyLockLost _ line _ => lineOk line
  | .collapse .. | .commitBufferFlush .. | .tjSample .. | .vcoreResult .. | .add .. | .addc .. | .sub .. | .subc .. | .and ..
  | .or .. | .xor .. | .andn .. | .shl .. | .shr .. | .sar .. | .rol .. | .mul .. | .mulh .. | .mulhu .. | .div .. | .divu ..
  | .rem .. | .remu .. | .min .. | .max .. | .minu .. | .maxu .. | .clz .. | .extb .. | .addi .. | .subi .. | .andi .. | .ori ..
  | .xori .. | .shi .. | .ldi .. | .ext .. | .ins .. => true
  | .illegalEncoding e w0 w1 => (Machine.bjRun e w0 w1).isNone
  | .b .. | .jmp .. | .call .. | .jr .. | .ld .. | .st .. | .xadd .. | .cas .. | .pld1 .. | .pld2 .. | .pld3 .. | .pst1 ..
  | .pst2 .. | .pst3 .. | .take .. | .frameArrivalInWindow .. | .send .. | .drop .. | .adj .. => true
  | .fld _ _ ra size => Machine.pairOk ra && size.val != 0
  | .farLoadDataReturn .. => true
  | .fst _ _ ra size => Machine.pairOk ra && size.val != 0
  | .fbl _ ra _ _ => Machine.pairOk ra
  | .fbs _ ra _ _ => Machine.pairOk ra
  | .farAccessComplete .. | .fence .. | .set .. | .get .. | .getAnswer .. | .commit .. | .post .. => true
  | .postboxArbitration d at_ => Machine.boxOk d.toNat && !at_.isEmpty && decide at_.Nodup
  | .messageCollectable d _ _ => Machine.boxOk d.toNat
  | .collect .. | .watch .. => true
  | .timeat _ ra => Machine.pairOk ra
  | .timeatDisarm .. | .timeLatchSet .. | .wait .. | .waitWake .. | .trap .. | .rtt .. | .nop .. | .mfl .. | .mtfl .. | .mftp ..
  | .mttp .. | .sampleIntervalExpiry .. | .sampleTrap .. | .imemEccError .. | .engineRun .. | .engineStop .. | .engineStopped ..
  | .engineStep .. | .clrfail .. | .loaderGo .. | .loaderDone .. | .unitWordWrite .. => true
  | .commitSnapshot _ u n => instOk u n
  | .commitPoint u n => instOk u n
  | .unitDisable _ u n _ => instOk u n
  | .unitEnable _ u n _ => instOk u n
  | .drainComplete u n => instOk u n
  | .drainBoundExpiry u n => instOk u n
  | .scheduledCommitArm _ u n _ => instOk u n
  | .scheduledCommitDisarm _ u n _ => instOk u n
  | .scheduledCommitDue u n => instOk u n
  | .ustatRead _ u n => instOk u n
  | .resultSlotHostRead .. | .resultSlotMap .. | .chainStart .. => true
  | .doorbellRing _ r => letterOk r.w
  | .doorbellWake .. | .chainResume .. | .chainDisable .. | .bar0WriteDiscarded .. | .hostPostboxTake .. => true
  | .letterFetched _ w _ _ => letterOk w
  | .parkedReread _ r => letterOk r.w
  | .nopLetter .. | .msgLetter .. | .msgLetterRetry .. | .msgFullTimeout .. | .readLetter .. | .writeLetter .. | .dmaComplete ..
  | .completionTimeout .. | .irqHoldoffExpiry .. | .pcieLinkDown .. | .pcieLinkUp .. | .functionLevelReset .. | .msixUnmask ..
  | .linkRead .. => true
  | .balanceEpoch out back _ => out.length == 8 && back.length == 8
  | .plcQuery .. | .plcMove .. | .plcHint .. | .plcPick .. | .pickReservationExpiry .. | .moveDrainComplete .. | .moveTimeout ..
  | .contextResident .. | .contextMove .. | .losSet .. | .losClear .. | .laserCut .. | .laserCutClear .. | .watchdogCut ..
  | .rxReady .. | .txReady .. | .wlockSet .. | .wlockClear .. | .optMonitorResult .. => true
  | .downstreamFrame _ _ items => items.all PonItem.wf
  | .psbdMissed .. | .o6HoldExpiry .. | .actset .. | .serialNumberReply .. | .burstStart .. | .burstEnd .. | .ploamUpstreamGo ..
  | .sfcCaptureArm .. | .ponForcedWake .. | .dlerrClear .. | .containerTimeout .. => true
  | .tribFrameBoundary rx => decide (rx.map fun x => x.1).Nodup
  | .connWrite .. | .polarityToggle .. | .laneSignalDetect .. | .laneAdaptationDone .. | .laneBlockLock .. | .laneFecLock ..
  | .eqUpdate .. | .laneLockLoss .. | .lanePllLockLoss .. | .ponFramerPllLockLoss .. | .rxsnrResult .. | .macRxFrameStart .. => true
  | .macRxFrameEnd _ _ _ frags => decide (0 < frags)
  | .pauseRepeat .. | .pauseWatchdogTrip .. | .pauseWatchdogRecoveryEnd .. | .verifyTimer .. | .verifyResponse ..
  | .verifyMpacketReceived .. | .macTxFrameEnd .. | .gateEntryChange .. | .gateListSwitch .. | .geaWrite .. | .gebWrite ..
  | .sbusTxgo .. | .sbusFetchComplete .. | .sbusTxAttempt .. | .sbusCollision .. | .sbusBackoffEnd .. | .sbusTxComplete .. => true
  | .sbusRxFrame start _ => decide (start.2 < 1000000000)
  | .sbusPostRetry .. | .sbusRxdone .. | .jabberDetect .. | .jabberClear .. | .sbusCarrierWake .. | .msecIcvResult ..
  | .msecEgressFrame .. | .switchRequest .. | .switchCancel .. | .switchTimeDue .. | .retentionExpiry .. | .msecNoteRetry .. => true
  | .clsSearch _ lost => decide lost.Nodup
  | .clsEntryWrite .. | .clsEntryWriteDone .. | .clsEntryRead .. | .hidataWrite .. | .clsScrub .. | .flowRecordWrite ..
  | .flowRecordRead .. | .exactMatchInsert .. | .exactMatchDelete .. | .exactMatchLookup .. | .flowOpComplete .. | .qmAdmit ..
  | .qmFrameCommit .. | .spillReadback .. | .queueStateEccError .. | .hqdoneWrite .. | .serviceDecision .. | .schSample .. => true
  | .refreshReportRead reports => reports.length == 32
  | .retrainDue .. | .trainnow .. | .retrainPauseStart .. | .retrainPauseEnd .. | .memBandwidthResult .. => true
  | .sealCheck _ _ line _ => lineOk line
  | .partialWrite .. => true
  | .granuleFill g => decide (g < 0x1e0000)
  | .backgroundFillDone .. | .rekeyStart .. | .rekeyLine .. | .keyWrite .. | .keyGenerate .. | .keyDerive .. | .keyErase ..
  | .keyQuery .. | .mextend .. | .keyOpComplete .. | .keyScrub .. | .keyLifeExpiry .. | .rngReady .. | .drbgReseed ..
  | .randRefresh .. | .rngHealthFailure .. | .lcToProvisioned .. | .lcToField .. | .lcWriteHash .. | .lcRevokeHash ..
  | .lcRaiseFloor .. | .lcBlowTestLock .. | .fuseWriteComplete .. | .cmacGen .. | .cmacVer .. | .gmacGen .. | .gmacVer ..
  | .wrapKey .. | .unwrapKey .. | .wrapData .. | .unwrapData .. | .chkOpComplete .. | .snapshotLatch .. | .adjFreq ..
  | .adjOffset .. | .adjSet .. | .slewEnd .. | .ppsInEdge .. | .ppsLoss .. | .todCharReceived .. | .todtake .. | .refSelection ..
  | .wtrExpiry .. | .egtake .. | .synceFreqMeasure .. | .ppsOutPulse .. | .todOutMessage .. | .triggerArm .. | .triggerStop ..
  | .triggerFire .. | .candleOscReady .. | .ovenOkSet .. | .ovenOkClear .. | .candleCompare .. | .modelEval .. | .lseedWrite ..
  | .candleStop .. | .candleRestartAttempt .. | .cstatRead .. | .conversionResult .. | .calibrationSlot .. | .dioEdge ..
  | .dioedgeRead .. | .cygoWrite .. | .cycleApply .. | .levelRequest .. | .voltageAck .. | .voltageRequestTimeout ..
  | .sleepEntry .. | .wakeEvent .. | .padRelease .. | .ovldRead .. | .heartbeatSend .. | .heartbeatReceived ..
  | .partnerNotHeard .. => true
  | .mirrorRecordReceived _ _ x => x.wf
  | .mirrorRefresh .. | .resyncComplete .. | .syncLoss .. | .partnerMessageSend .. | .partnerMessageReceived ..
  | .partnerMessageRetry .. | .seekTimeout .. | .mateActInFall .. | .mateActInRise .. | .pairSwitch .. | .graceEnd ..
  | .partnerReset .. | .fitokWrite .. | .faultRaised .. | .recoveryEnd .. | .recoveryTimeout .. | .domainClear ..
  | .haltRecordCommit .. | .epochSwitch .. | .dumpComplete .. => true
  | .counterEccError unit kind obj _ => decide (unit < 0x1c) && decide (kind < 0x1000) && decide (obj < 0x100000)
  | .nodeRead .. | .nodeReset .. | .sampleAppend .. | .captureArm .. | .captureTrigger .. | .captureStop .. | .captureFrozen ..
  | .captureRecord .. | .eventRecord .. | .creditInstant .. | .suppressedRecord .. | .recorderClear .. | .hostRecordLatch ..
  | .hostRecordAdvance .. | .engineRecordLatch .. | .engineRecordAdvance .. | .journalCommit .. | .tagReadLatch .. | .tagWrite ..
  | .tagWriteCommit .. | .tagLockToReset .. | .tagLockPermanent .. | .fwcauseClear .. | .checkerLock .. | .checkerLockLoss ..
  | .inject .. => true
  | .terrResult _ bits errors _ => decide (errors ≤ bits)
  | .testFrameSend .. | .tapReset .. | .extest .. | .samplePreload .. | .idcode .. | .clamp .. | .highz .. | .engdebug ..
  | .ptest .. | .bypass .. | .pauseTimeExpiry .. | .watchfulSleepReceiverCycle .. | .pwmPeriodStart .. | .lifeCounterWrap ..
  | .crystalLoss .. => true

end Sys2Proof
end

