-- ==== Sys2Proof/Safety.lean ====
section
/-! DEFINITION. The terms in which the statements speak of a run: when an engine executes an instruction, what an instruction leaves as
it was, the canonical form of memory, fuses that only grow, and what holds of a module that is halted. -/
namespace Sys2Proof.Machine

/-! ## Engines -/

/-- Engine e executes the instruction of `size` words at its pc, which uses the listed registers: the engine runs, not by a STEP, and waits for
nothing, no sample is due or overdue (R129), every word of the instruction lies in instruction memory (R101, R133), and no register it uses is
still being loaded (R153). -/
def Runs (s : State) (e : Eng) (size : Nat) (uses : List Reg) : Prop :=
  able s e = true ∧ (eng s e).step = false ∧ (eng s e).past = false ∧ sampleDue s e = false ∧ ((eng s e).noted.any fun x => decide (12 ≤ x.2)) = false ∧
    (eng s e).pc.toNat + size ≤ 0x8000 ∧ (uses.any fun r => loading (eng s e) r) = false

/-- t is s but for engine e: every other engine, every memory, every unit word and everything else of the module is as it was. -/
def OnlyEngine (s t : State) (e : Eng) : Prop :=
  { t with engs := s.engs } = s ∧ ∀ k, k ≠ e.val → eng t k = eng s k

/-- What an engine holds besides its general registers, pc, Z, N, C and V and the record of its retirements. -/
def engRest (g : Engine) : Engine :=
  { g with regs := [], pc := 0, past := false, z := false, n := false, c := false, v := false, lastPc := 0, noted := none, count := 0 }

/-- An engine has gone on at pc: above 0x7FFF the pc keeps its low 15 bits and the next fetch traps (R99, R101). -/
def GoesOnAt (g : Engine) (pc : Word) : Prop := g.pc = wd (pc.toNat % 32768) ∧ g.past = decide (0x7fff < pc.toNat)

/-- What an engine holds besides its registers, pc, every flag and the record of its retirements. -/
def engRest' (g : Engine) : Engine := { engRest g with nr := false }

/-- Every general register of an engine but rd holds in h what it holds in g, and rd holds r; g0 stays zero (R99). -/
def WroteReg (g h : Engine) (rd : Reg) (r : Word) : Prop :=
  ∀ k, reg h k = if k = rd.val ∧ k ≠ 0 then r else reg g k

/-- The four arithmetic flags of an engine. -/
def flags (g : Engine) : Bool × Bool × Bool × Bool := (g.z, g.n, g.c, g.v)

/-- From s to t engine e has completed an instruction of `size` words that wrote r to rd and left Z, N, C and V at f, and nothing else has
changed: no other register, NR, tp, level or TIP of the engine, no other engine, no memory and no unit word. -/
def Computed (s t : State) (e : Eng) (size : Nat) (rd : Reg) (r : Word) (f : Bool × Bool × Bool × Bool) : Prop :=
  OnlyEngine s t e ∧ WroteReg (eng s e) (eng t e) rd r ∧ flags (eng t e) = f ∧ GoesOnAt (eng t e) ((eng s e).pc + wd size) ∧
    engRest (eng t e) = engRest (eng s e)

/-- From s to t engine e has gone on at pc and nothing else has changed but register rd, which holds r. -/
def Went (s t : State) (e : Eng) (rd : Reg) (r pc : Word) : Prop :=
  OnlyEngine s t e ∧ WroteReg (eng s e) (eng t e) rd r ∧ flags (eng t e) = flags (eng s e) ∧ GoesOnAt (eng t e) pc ∧
    engRest (eng t e) = engRest (eng s e)

/-- The engine keeps everything but its data memory's trap record, pc, level, TIP and CAUSE over a trap entry (R111, R113). -/
def trapRest (g : Engine) : Engine := { g with pc := 0, past := false, kp := false, tip := false, cause := 0, conds := 0, st := .running }

/-- From s to t engine e has taken the trap of cause c with two details, its saved pc that of the instruction at s (R111 to R113): the record
is written, the count of dropped samples with it, TIP is set and the engine goes on at tp + 4c at keeper level; nothing else has changed. -/
def Trapped (s t : State) (e : Eng) (c : Nat) (d1 d2 : Word) : Prop :=
  dataW t e 0x7ff8 = (eng s e).pc ∧ dataW t e 0x7ff9 = wd (flWord (eng s e)) ∧
  dataW t e 0x7ffa = wd (c + 32 * b2n (eng s e).kp) ∧ dataW t e 0x7ffb = d1 ∧ dataW t e 0x7ffc = d2 ∧
  dataW t e 0x7ffd = wd (eng s e).dropped ∧ (∀ k a, ¬(k = e.val ∧ 0x7ff8 ≤ a ∧ a ≤ 0x7ffd) → k < 192 → a < 32768 → dataW t k a = dataW s k a) ∧
  (eng t e).pc = wd (((eng s e).tp.toNat + 4 * c) % 32768) ∧ (eng t e).kp = true ∧ (eng t e).tip = true ∧ (eng t e).cause = c ∧ (eng t e).past = false ∧
  trapRest (eng t e) = trapRest (eng s e) ∧ (∀ k, k ≠ e.val → eng t k = eng s k) ∧ { t with engs := s.engs, data := s.data } = s

/-- The flags Z, N, C and V of a sum with carry in: V where the true signed sum differs from the signed result (R136). -/
def sumFlags (a b : Word) (c : Bool) : Bool × Bool × Bool × Bool :=
  let r := a + b + wd (b2n c)
  (r == 0, r.msb, decide (2 ^ 24 ≤ a.toNat + b.toNat + b2n c), decide (a.toInt + b.toInt + (b2n c : Int) ≠ r.toInt))

/-- The flags Z, N, C and V of a difference with borrow in: V where the true signed difference differs from the signed result (R136). -/
def diffFlags (a b : Word) (c : Bool) : Bool × Bool × Bool × Bool :=
  let r := a - b - wd (b2n c)
  (r == 0, r.msb, decide (a.toNat < b.toNat + b2n c), decide (a.toInt - b.toInt - (b2n c : Int) ≠ r.toInt))

/-- The flags after a result that sets Z and N and leaves C and V. -/
def znFlags (g : Engine) (r : Word) : Bool × Bool × Bool × Bool := (r == 0, r.msb, g.c, g.v)

/-- r is a shifted left by n with zero fill, c the last bit shifted out of the word, 0 where none was (R136, R137). -/
def ShiftedLeft (a : Word) (n : Nat) (r : Word) (c : Bool) : Prop :=
  (∀ i, i < 24 → r.getLsbD i = (decide (n ≤ i) && a.getLsbD (i - n))) ∧ c = (decide (0 < n ∧ n ≤ 24) && a.getLsbD (24 - n))

/-- r is a shifted right by n with zero fill, c the last bit shifted out of the word, 0 where none was (R136, R137). -/
def ShiftedRight (a : Word) (n : Nat) (r : Word) (c : Bool) : Prop :=
  (∀ i, i < 24 → r.getLsbD i = a.getLsbD (i + n)) ∧ c = (decide (0 < n ∧ n ≤ 24) && a.getLsbD (n - 1))

/-- r is a shifted right by n with sign fill, c the last bit shifted out, the sign beyond the word, 0 for a shift by 0 (R136, R137). -/
def ShiftedSigned (a : Word) (n : Nat) (r : Word) (c : Bool) : Prop :=
  (∀ i, i < 24 → r.getLsbD i = if i + n < 24 then a.getLsbD (i + n) else a.msb) ∧
    c = (decide (0 < n) && if n ≤ 24 then a.getLsbD (n - 1) else a.msb)

/-- r is a rotated left by n modulo 24 (R136). -/
def RotatedLeft (a : Word) (n : Nat) (r : Word) : Prop := ∀ i, i < 24 → r.getLsbD i = a.getLsbD ((i + (24 - n % 24)) % 24)

/-- The state after an instruction of engine e that makes s' of s and goes on at the next word. -/
def after (s s' : State) (e : Eng) : State := retire s' e ((eng s e).pc + 1)

/-- n bytes of the packet window from byte offset o (R102). -/
def winBytes (g : Engine) (o n : Nat) : List Byte := (List.range n).map fun k => tget (fun _ => 0) g.win.buf (o + k)

/-- From s to t engine e has stored to near word a and gone on at the next word with register rd at r and its flags at f: every other near
word of the engine, every other engine's memories, every other lantern's shared memory and everything else of the module read as before;
of the engines of the lantern those that watch the word have their latch set (R102, R160). -/
def Stored (s t : State) (e : Eng) (a : Nat) (rd : Reg) (r : Word) (f : Bool × Bool × Bool × Bool) : Prop :=
  WroteReg (eng s e) (eng t e) rd r ∧ flags (eng t e) = f ∧ (eng t e).nr = (eng s e).nr ∧ GoesOnAt (eng t e) ((eng s e).pc + 1) ∧
  (∀ b, b ≠ a → nearRead t e b = nearRead s e b) ∧
  (∀ k, k < 192 → (eng t k).watchL =
    ((eng s k).watchL || decide (k / 8 = e.val / 8 ∧ 0x80000 ≤ a ∧ (eng s k).watch = some (a - 0x80000)))) ∧
  (∀ k, k < 192 → k ≠ e.val → { eng t k with watchL := false } = { eng s k with watchL := false }) ∧
  { engRest (eng t e) with watchL := false, win := idleWin } = { engRest (eng s e) with watchL := false, win := idleWin } ∧
  (∀ k b, k < 192 → k ≠ e.val → b < 32768 → dataW t k b = dataW s k b) ∧
  (∀ l b, l < 24 → l ≠ lanternOf e → b < 524288 → sharedW t l b = sharedW s l b) ∧
  { t with engs := s.engs, data := s.data, shared := s.shared } = s

/-- Whether R102 lets engine e store to near address a at its level. -/
def storeOk (s : State) (e : Eng) (a : Nat) : Prop :=
  a < 0x7ff8 ∨ (a < 0x8000 ∧ (eng s e).kp = true) ∨ (0x20000 ≤ a ∧ a < 0x21040) ∨ (0x80000 ≤ a ∧ a < 0x100000)

/-! ## Memory -/

/-- Every memory of the module stands in its one canonical form: keys strictly rising and no byte or word listed that an unlisted one reads
as: the data space, the engines' data and instruction memories, the lanterns' shared memories, what WRITE letters and completions have
written to the host, the letter store, and the tag area. -/
def Memory.wf (s : State) : Bool :=
  twf (fun _ => (0 : Byte)) s.mpe.dram && twf (fun _ => (0 : Word)) s.data && twf (fun _ => (0 : Word)) s.imem &&
  twf (fun _ => (0 : Word)) s.shared && twf (fun _ => (0 : Byte)) s.hst.mem && twf (fun _ => (0 : Nat)) s.hst.bus && twf (fun _ => (0 : Nat)) s.hst.store &&
  twf (fun _ => (0 : Byte)) s.log.tag

/-! ## Fuses -/

/-- Nothing that is blown in a is unblown in b: lifecycle, the key hashes and root keys, revocations, the version floor and the test lock
(R509 to R511). -/
def FuseGrows (a b : FuseSt) : Prop :=
  a.blown ≤ b.blown ∧ a.floor ≤ b.floor ∧ (a.lock = true → b.lock = true) ∧
  (∀ k, tget (fun _ => false) a.revoked k = true → tget (fun _ => false) b.revoked k = true) ∧
  (∀ k v, tget (fun _ => none) a.hash k = some v → tget (fun _ => none) b.hash k = some v) ∧
  (∀ k v, tget (fun _ => none) a.bank k = some v → tget (fun _ => none) b.bank k = some v)

/-- The fuses are in order: the lifecycle is one of its three states and no root key is blown in BLANK; what a running write will blow was
admitted by its rule (R509, R511). -/
def FuseInOrder (f : FuseSt) : Prop :=
  f.blown ≤ 2 ∧ (f.blown = 0 → ∀ k, tget (fun _ => none) f.bank k = none) ∧
  ∀ x, f.op = some x →
    (x.op = 1 → f.blown = 0) ∧ (x.op = 2 → f.blown = 1) ∧ (x.op = 3 → tget (fun _ => none) f.hash x.h = none) ∧
    (x.op = 5 → f.floor ≤ x.floor)

end Sys2Proof.Machine
end

