-- ==== Sys2Proof/Certificates/Slice0/Obligations.lean ====
section
/-! DEFINITION. The statements for the provers. A statement of what a command does gives the state that exec answers in the model's named operations over
State, so that it says what the command leaves alone as well. -/
open Sys2Proof Sys2Proof.Machine

/-- For every command c, queue rest and state s, step of s with c in front of rest is exec of c on s with rest alone waiting; with nothing
waiting step answers the state after one tick (log 4, the model's choice). Cited for the block's commands; the queue is the model's
interface. [00_scope.md] -/
def Obligations.StepTakesTheFrontCommand : Prop :=
  (∀ (c : Instr) (rest : List Instr) (s : State), step { s with pending := c :: rest } = exec c { s with pending := rest }) ∧
  ∀ s : State, s.pending = [] → step s = .next (tick s)

/-- For every command i and every state s, exec i s answers a next state, none faults and none is refused, with the queue of waiting
commands as in s. What else that state holds is stated command by command in the other statements. [00_scope.md] -/
def Obligations.EveryCommandCompletes : Prop := ∀ (i : Instr) (s : State), ∃ t, exec i s = .next t ∧ t.pending = s.pending

/-- In the state after reset: start-up waits for the crystal after a power-on (kind 1), nothing is halted; engine 0 is RUNNING at keeper
level and every other engine STOPPED at keeper level with TIP 0; every unit word reads its reset value; time, generation and FADJ are zero;
data, instruction and shared memory and the data space list nothing, no memory keys are drawn and no granule is written; no frame, fault,
posted SET or waiting command exists; MODSTATE's RUN is 0. That memory not yet written reads zero, and that a fresh module's fuses are those
of BLANK, is the model's choice (log 1). [34_start_up.md; 04_engines_and_lanterns.md; 24_time.md; 18_flows_and_policing.md;
22_memory_protection.md] -/
def Obligations.ResetLeavesStartUpAtStepTwo : Prop :=
  State.reset.sys.phase = .crystal ∧ State.reset.sys.kind = 1 ∧ State.reset.sys.halted = false ∧ State.reset.sys.runState = false ∧
  (eng State.reset 0).st = .running ∧ (∀ e, e ≠ 0 → (eng State.reset e).st = .stopped) ∧
  (∀ e r, (eng State.reset e).kp = true ∧ (eng State.reset e).tip = false ∧ reg (eng State.reset e) r = 0 ∧
    (eng State.reset e).pc = 0 ∧ (eng State.reset e).tp = 0 ∧ (eng State.reset e).posted = [] ∧ (eng State.reset e).box = []) ∧
  (∀ a, rdW State.reset a = resetWord a) ∧
  (State.reset.time.sec = 0 ∧ State.reset.time.ns = 0 ∧ State.reset.time.gen = 0 ∧ State.reset.time.fadj = 0) ∧
  (∀ e a, dataW State.reset e a = 0 ∧ imemW State.reset e a = 0 ∧ sharedW State.reset e a = 0) ∧
  (∀ a, dramB State.reset a = 0) ∧ State.reset.mpe.keys = false ∧ (∀ g, granuleWritten State.reset g = false) ∧
  State.reset.flights = [] ∧ State.reset.flt.raised = [] ∧ State.reset.pending = [] ∧
  State.reset.fuse.blown = 0 ∧ State.reset.fuse.state = 0

/-- The state after reset has every memory in the canonical form and its fuses in order: the two invariants that later statements show every
step to keep. [23_keys_and_trust.md; 04_engines_and_lanterns.md] -/
def Obligations.ResetMeetsTheInvariants : Prop := Memory.wf State.reset = true ∧ FuseInOrder State.reset.fuse

/-- From every state whose memories (data space, the engines' data and instruction memories, the lanterns' shared memories, the host's
memory as WRITE letters leave it, the words written to letters, the letter store, the tag area) stand in canonical form, every step's next
state has them in canonical form. [04_engines_and_lanterns.md; 22_memory_protection.md; 32_life_records_and_identity.md] -/
def Obligations.EveryStepKeepsMemoryCanonical : Prop :=
  ∀ s t : State, Memory.wf s = true → step s = .next t → Memory.wf t = true

/-- From every state whose fuses are in order (what a running fuse write is about to blow was admitted by its rule: PROVISIONED only from
BLANK, FIELD only from PROVISIONED, a hash into an empty position, a higher floor), every step answers a state whose fuses are in order
again and in which nothing blown before is unblown: the lifecycle, the key hashes, the root keys, the revocations, the version floor and the
test lock. [23_keys_and_trust.md] -/
def Obligations.NoFuseIsEverUnblown : Prop :=
  ∀ s t : State, FuseInOrder s.fuse → step s = .next t → FuseInOrder t.fuse ∧ FuseGrows s.fuse t.fuse

/-- A step from a halted state answers a halted state, unless its command is RST_N (which the partner drives through DIO15), the collapse of
the feeds, or the power-on that follows one. Through a halt no engine executes an instruction: a command that is an instruction leaves the
state as it is. [29_faults_and_recovery.md] -/
def Obligations.AHaltIsLeftOnlyByAReset : Prop :=
  (∀ s t : State, s.sys.halted = true → step s = .next t →
    (∀ low takes, s.pending.head? ≠ some (.rstNReset low takes)) → s.pending.head? ≠ some .collapse →
    (∀ a b good, s.pending.head? ≠ some (.powerOn a b good)) → t.sys.halted = true) ∧
  ∀ (e : Eng) (w0 w1 : Word) (s : State), s.sys.halted = true →
    (∀ bad f, bjRun e w0 w1 bad = some f → f s = .next s) ∧ exec (.illegalEncoding e w0 w1) s = .next s

/-- Where an engine executes the instruction: ADD, ADDC, SUB, SUBC write ra + rb, ra + rb + C, ra - rb, ra - rb - C to rd, ADDI and SUBI the
sum and difference with IMM10 sign-extended; Z and N come from the result, C is the carry out or the borrow, and V is set exactly where the
true signed value differs from the signed result. A destination of g0 discards the result and sets the flags. The pc moves on by one and
nothing else changes. [05_bj24_instructions.md] -/
def Obligations.SumsAndDifferencesSetFourFlags : Prop :=
  ∀ (e : Eng) (rd ra rb : Reg) (imm : BitVec 10) (s : State) (a b k : Word) (c : Bool),
    a = reg (eng s e) ra → b = reg (eng s e) rb → c = (eng s e).c → k = imm.signExtend 24 →
    (Runs s e 1 [rd, ra, rb] →
      (∃ t, exec (.add e rd ra rb) s = .next t ∧ Computed s t e 1 rd (a + b) (sumFlags a b false)) ∧
      (∃ t, exec (.addc e rd ra rb) s = .next t ∧ Computed s t e 1 rd (a + b + wd (b2n c)) (sumFlags a b c)) ∧
      (∃ t, exec (.sub e rd ra rb) s = .next t ∧ Computed s t e 1 rd (a - b) (diffFlags a b false)) ∧
      (∃ t, exec (.subc e rd ra rb) s = .next t ∧ Computed s t e 1 rd (a - b - wd (b2n c)) (diffFlags a b c))) ∧
    (Runs s e 1 [rd, ra] →
      (∃ t, exec (.addi e rd ra imm) s = .next t ∧ Computed s t e 1 rd (a + k) (sumFlags a k false)) ∧
      (∃ t, exec (.subi e rd ra imm) s = .next t ∧ Computed s t e 1 rd (a - k) (diffFlags a k false)))

/-- Where an engine executes the instruction: AND, OR, XOR, ANDN and ANDI, ORI, XORI (IMM10 zero-extended) write the bitwise result; MUL,
MULH and MULHU bits [23:0] and [47:24] of the product, signed or unsigned; MIN, MAX, MINU and MAXU the signed or unsigned minimum or
maximum; CLZ the number of leading zeros, 0 to 24; EXTB byte rb[1:0] of ra, byte 0 being [23:16] and byte 3 zero. Z and N come from the
result, C and V stay, the pc moves on by one and nothing else changes. [05_bj24_instructions.md] -/
def Obligations.LogicProductsAndChoices : Prop :=
  ∀ (e : Eng) (rd ra rb : Reg) (imm : BitVec 10) (s : State) (a b k : Word),
    a = reg (eng s e) ra → b = reg (eng s e) rb → k = imm.zeroExtend 24 →
    (Runs s e 1 [rd, ra, rb] →
      (∃ t, exec (.and e rd ra rb) s = .next t ∧ Computed s t e 1 rd (a &&& b) (znFlags (eng s e) (a &&& b))) ∧
      (∃ t, exec (.or e rd ra rb) s = .next t ∧ Computed s t e 1 rd (a ||| b) (znFlags (eng s e) (a ||| b))) ∧
      (∃ t, exec (.xor e rd ra rb) s = .next t ∧ Computed s t e 1 rd (a ^^^ b) (znFlags (eng s e) (a ^^^ b))) ∧
      (∃ t, exec (.andn e rd ra rb) s = .next t ∧ Computed s t e 1 rd (a &&& ~~~b) (znFlags (eng s e) (a &&& ~~~b))) ∧
      (∃ t r, exec (.mul e rd ra rb) s = .next t ∧ Computed s t e 1 rd r (znFlags (eng s e) r) ∧
        r.toNat = a.toNat * b.toNat % 2 ^ 24) ∧
      (∃ t r, exec (.mulh e rd ra rb) s = .next t ∧ Computed s t e 1 rd r (znFlags (eng s e) r) ∧
        r = (a.signExtend 48 * b.signExtend 48).extractLsb' 24 24) ∧
      (∃ t r, exec (.mulhu e rd ra rb) s = .next t ∧ Computed s t e 1 rd r (znFlags (eng s e) r) ∧
        r = (a.zeroExtend 48 * b.zeroExtend 48).extractLsb' 24 24) ∧
      (∃ t r, exec (.min e rd ra rb) s = .next t ∧ Computed s t e 1 rd r (znFlags (eng s e) r) ∧ r.toInt = min a.toInt b.toInt) ∧
      (∃ t r, exec (.max e rd ra rb) s = .next t ∧ Computed s t e 1 rd r (znFlags (eng s e) r) ∧ r.toInt = max a.toInt b.toInt) ∧
      (∃ t r, exec (.minu e rd ra rb) s = .next t ∧ Computed s t e 1 rd r (znFlags (eng s e) r) ∧ r.toNat = min a.toNat b.toNat) ∧
      (∃ t r, exec (.maxu e rd ra rb) s = .next t ∧ Computed s t e 1 rd r (znFlags (eng s e) r) ∧ r.toNat = max a.toNat b.toNat) ∧
      (∃ t r, exec (.extb e rd ra rb) s = .next t ∧ Computed s t e 1 rd r (znFlags (eng s e) r) ∧
        r.toNat = if b.toNat % 4 = 3 then 0 else a.toNat / 2 ^ (16 - 8 * (b.toNat % 4)) % 256)) ∧
    (Runs s e 1 [rd, ra] →
      (∃ t r, exec (.clz e rd ra) s = .next t ∧ Computed s t e 1 rd r (znFlags (eng s e) r) ∧ r.toNat ≤ 24 ∧
        (∀ i, i < r.toNat → a.getMsbD i = false) ∧ (r.toNat < 24 → a.getMsbD r.toNat = true)) ∧
      (∃ t, exec (.andi e rd ra imm) s = .next t ∧ Computed s t e 1 rd (a &&& k) (znFlags (eng s e) (a &&& k))) ∧
      (∃ t, exec (.ori e rd ra imm) s = .next t ∧ Computed s t e 1 rd (a ||| k) (znFlags (eng s e) (a ||| k))) ∧
      (∃ t, exec (.xori e rd ra imm) s = .next t ∧ Computed s t e 1 rd (a ^^^ k) (znFlags (eng s e) (a ^^^ k))))

/-- Where an engine executes SHL, SHR, SAR or ROL by n = rb[4:0], or SHI by IMM10[4:0]: each bit of the result is the bit of ra that the
shift brings there, zero or the sign beyond the end; C is 0 for a shift by 0, else the last bit shifted out of the 24-bit word, so for 24 to
31 SHL and SHR give zero with C = ra[0] or ra[23] at 24 and 0 above, and SAR gives ra[23] in every bit and in C; ROL rotates by n mod 24 and
leaves C. V stays, Z and N come from the result, and nothing else changes. [R137] -/
def Obligations.ShiftsCarryTheLastBitOut : Prop :=
  ∀ (e : Eng) (rd ra rb : Reg) (amt : BitVec 5) (s : State) (a : Word), a = reg (eng s e) ra →
    (Runs s e 1 [rd, ra, rb] →
      (∃ t r c, exec (.shl e rd ra rb) s = .next t ∧ Computed s t e 1 rd r (r == 0, r.msb, c, (eng s e).v) ∧
        ShiftedLeft a ((reg (eng s e) rb).toNat % 32) r c) ∧
      (∃ t r c, exec (.shr e rd ra rb) s = .next t ∧ Computed s t e 1 rd r (r == 0, r.msb, c, (eng s e).v) ∧
        ShiftedRight a ((reg (eng s e) rb).toNat % 32) r c) ∧
      (∃ t r c, exec (.sar e rd ra rb) s = .next t ∧ Computed s t e 1 rd r (r == 0, r.msb, c, (eng s e).v) ∧
        ShiftedSigned a ((reg (eng s e) rb).toNat % 32) r c) ∧
      (∃ t r, exec (.rol e rd ra rb) s = .next t ∧ Computed s t e 1 rd r (znFlags (eng s e) r) ∧ RotatedLeft a ((reg (eng s e) rb).toNat % 32) r)) ∧
    (Runs s e 1 [rd, ra] →
      (∃ t r c, exec (.shi e rd ra 0 amt) s = .next t ∧ Computed s t e 1 rd r (r == 0, r.msb, c, (eng s e).v) ∧
        ShiftedLeft a (amt.toNat) r c) ∧
      (∃ t r c, exec (.shi e rd ra 1 amt) s = .next t ∧ Computed s t e 1 rd r (r == 0, r.msb, c, (eng s e).v) ∧
        ShiftedRight a (amt.toNat) r c) ∧
      (∃ t r c, exec (.shi e rd ra 2 amt) s = .next t ∧ Computed s t e 1 rd r (r == 0, r.msb, c, (eng s e).v) ∧
        ShiftedSigned a (amt.toNat) r c) ∧
      (∃ t r, exec (.shi e rd ra 3 amt) s = .next t ∧ Computed s t e 1 rd r (znFlags (eng s e) r) ∧ RotatedLeft a (amt.toNat) r))

/-- Where an engine executes DIV, DIVU, REM or REMU and rb is not zero, rd receives the signed quotient rounded toward zero, the unsigned
quotient, the signed remainder with the sign of ra, or the unsigned remainder; DIV of 0x800000 by 0xFFFFFF gives 0x800000 and REM of them 0,
both setting V, every other DIV and REM clears V, DIVU and REMU leave V, all leave C and set Z and N from the result. Where rb is zero, TIP
is clear and no far load is outstanding, each takes the division trap (cause 7) with its own word as detail 1 and no register changes.
[R138] -/
def Obligations.DivisionsRoundTowardZeroOrTrap : Prop :=
  ∀ (e : Eng) (rd ra rb : Reg) (s : State) (a b : Word), a = reg (eng s e) ra → b = reg (eng s e) rb → Runs s e 1 [rd, ra, rb] →
    (b ≠ 0 →
      (∃ t r, exec (.div e rd ra rb) s = .next t ∧
        Computed s t e 1 rd r (r == 0, r.msb, (eng s e).c, decide (a = 0x800000 ∧ b = 0xffffff)) ∧
        r.toInt = if a = 0x800000 ∧ b = 0xffffff then -8388608 else a.toInt.tdiv b.toInt) ∧
      (∃ t r, exec (.rem e rd ra rb) s = .next t ∧
        Computed s t e 1 rd r (r == 0, r.msb, (eng s e).c, decide (a = 0x800000 ∧ b = 0xffffff)) ∧ r.toInt = a.toInt.tmod b.toInt) ∧
      (∃ t, exec (.divu e rd ra rb) s = .next t ∧ Computed s t e 1 rd (a / b) (znFlags (eng s e) (a / b))) ∧
      (∃ t, exec (.remu e rd ra rb) s = .next t ∧ Computed s t e 1 rd (a % b) (znFlags (eng s e) (a % b)))) ∧
    (b = 0 → (eng s e).tip = false → loadsOut (eng s e) = false →
      (∃ t, exec (.div e rd ra rb) s = .next t ∧ Trapped s t e 7 (encR 1 rd ra rb 0x0f) 0) ∧
      (∃ t, exec (.divu e rd ra rb) s = .next t ∧ Trapped s t e 7 (encR 1 rd ra rb 0x10) 0) ∧
      (∃ t, exec (.rem e rd ra rb) s = .next t ∧ Trapped s t e 7 (encR 1 rd ra rb 0x11) 0) ∧
      (∃ t, exec (.remu e rd ra rb) s = .next t ∧ Trapped s t e 7 (encR 1 rd ra rb 0x12) 0))

/-- Where an engine executes the instruction: EXT writes the field of ra from position p of width w right-aligned, bits above 23 reading
zero; INS replaces that field of rd with the low bits of ra; both set Z and N. LDI writes its second word and moves the pc by two. NOP
changes nothing. MFL and MFTP write fl and tp to rd. MTFL takes Z, N, C, V and NR from ra[4:0]. MTTP at keeper level takes bits [14:7] of ra
into tp, every other bit zero; at user level, TIP clear and no far load outstanding, it takes the privilege trap (cause 2). Nothing else
changes. [05_bj24_instructions.md; 04_engines_and_lanterns.md] -/
def Obligations.FieldsConstantsAndSystemRegisters : Prop :=
  ∀ (e : Eng) (rd ra : Reg) (pos : Fin 24) (wm1 : BitVec 5) (imm : Word) (s : State) (a : Word), a = reg (eng s e) ra →
    (Runs s e 1 [rd, ra] →
      (∃ t r, exec (.ext e rd ra pos wm1) s = .next t ∧ Computed s t e 1 rd r (znFlags (eng s e) r) ∧
        ∀ i, i < 24 → r.getLsbD i = (decide (i ≤ wm1.toNat) && a.getLsbD (pos.val + i))) ∧
      (∃ t r, exec (.ins e rd ra pos wm1) s = .next t ∧ Computed s t e 1 rd r (znFlags (eng s e) r) ∧
        ∀ i, i < 24 → r.getLsbD i =
          if pos.val ≤ i ∧ i ≤ pos.val + wm1.toNat then a.getLsbD (i - pos.val) else (reg (eng s e) rd).getLsbD i)) ∧
    (Runs s e 2 [rd] → ∃ t, exec (.ldi e rd imm) s = .next t ∧ Went s t e rd imm ((eng s e).pc + 2)) ∧
    (Runs s e 1 [] → ∃ t, exec (.nop e) s = .next t ∧ Went s t e 0 0 ((eng s e).pc + 1)) ∧
    (Runs s e 1 [rd] →
      (∃ t, exec (.mfl e rd) s = .next t ∧ Went s t e rd (wd (flWord (eng s e))) ((eng s e).pc + 1)) ∧
      ∃ t, exec (.mftp e rd) s = .next t ∧ Went s t e rd (eng s e).tp ((eng s e).pc + 1)) ∧
    (Runs s e 1 [ra] →
      (∃ t, exec (.mtfl e ra) s = .next t ∧ OnlyEngine s t e ∧ flags (eng t e) = (a.getLsbD 0, a.getLsbD 1, a.getLsbD 2, a.getLsbD 3) ∧
        (eng t e).nr = a.getLsbD 4 ∧ GoesOnAt (eng t e) ((eng s e).pc + 1) ∧ (∀ k, reg (eng t e) k = reg (eng s e) k) ∧
        engRest' (eng t e) = engRest' (eng s e)) ∧
      ((eng s e).kp = true → ∃ t, exec (.mttp e ra) s = .next t ∧ OnlyEngine s t e ∧ (eng t e).tp = a &&& 0x7f80 ∧
        flags (eng t e) = flags (eng s e) ∧ GoesOnAt (eng t e) ((eng s e).pc + 1) ∧ (∀ k, reg (eng t e) k = reg (eng s e) k) ∧
        engRest { eng t e with tp := 0 } = engRest { eng s e with tp := 0 }) ∧
      ((eng s e).kp = false → (eng s e).tip = false → loadsOut (eng s e) = false →
        ∃ t, exec (.mttp e ra) s = .next t ∧ Trapped s t e 2 (encR 0x3e 0 ra 0 4) 0))

/-- Where an engine executes the instruction: B goes on at the branch's own address plus the signed OFF13 where its condition holds and at
the next word where not; a taken target above 0x7FFF, TIP clear and no far load outstanding, takes the address trap with the target as
detail 1. JMP goes to TARGET; CALL too, with g15 the next address; JR to ra[14:0], read before rd receives the next address. No flag
changes. After SUB the conditions EQ, LO, HS, HI and LS compare the operands unsigned, GE, LT, GT and LE compare them signed.
[05_bj24_instructions.md] -/
def Obligations.BranchesJumpsAndCalls : Prop :=
  (∀ (e : Eng) (cond : Fin 19) (off : BitVec 13) (s : State), Runs s e 1 [] →
    (condHolds (eng s e) cond = false → ∃ t, exec (.b e cond off) s = .next t ∧ Went s t e 0 0 ((eng s e).pc + 1)) ∧
    (condHolds (eng s e) cond = true → ((eng s e).pc + off.signExtend 24).toNat ≤ 0x7fff →
      ∃ t, exec (.b e cond off) s = .next t ∧ Went s t e 0 0 ((eng s e).pc + off.signExtend 24)) ∧
    (condHolds (eng s e) cond = true → 0x7fff < ((eng s e).pc + off.signExtend 24).toNat → (eng s e).tip = false →
      loadsOut (eng s e) = false →
      ∃ t, exec (.b e cond off) s = .next t ∧ Trapped s t e 3 ((eng s e).pc + off.signExtend 24) 0)) ∧
  (∀ (e : Eng) (target : BitVec 15) (rd ra : Reg) (s : State),
    (Runs s e 1 [] → ∃ t, exec (.jmp e target) s = .next t ∧ Went s t e 0 0 (target.zeroExtend 24)) ∧
    (Runs s e 1 [15] → ∃ t, exec (.call e target) s = .next t ∧ Went s t e 15 ((eng s e).pc + 1) (target.zeroExtend 24)) ∧
    (Runs s e 1 [rd, ra] →
      ∃ t, exec (.jr e rd ra) s = .next t ∧ Went s t e rd ((eng s e).pc + 1) (reg (eng s e) ra &&& 0x7fff))) ∧
  ∀ (e : Eng) (rd ra rb : Reg) (s : State) (a b : Word), a = reg (eng s e) ra → b = reg (eng s e) rb → Runs s e 1 [rd, ra, rb] →
    ∃ t, exec (.sub e rd ra rb) s = .next t ∧
      condHolds (eng t e) 1 = decide (a = b) ∧ condHolds (eng t e) 2 = decide (a ≠ b) ∧
      condHolds (eng t e) 3 = decide (a.toNat < b.toNat) ∧ condHolds (eng t e) 4 = decide (b.toNat ≤ a.toNat) ∧
      condHolds (eng t e) 9 = decide (b.toNat < a.toNat) ∧ condHolds (eng t e) 10 = decide (a.toNat ≤ b.toNat) ∧
      condHolds (eng t e) 11 = decide (b.toInt ≤ a.toInt) ∧ condHolds (eng t e) 12 = decide (a.toInt < b.toInt) ∧
      condHolds (eng t e) 13 = decide (b.toInt < a.toInt) ∧ condHolds (eng t e) 14 = decide (a.toInt ≤ b.toInt)

/-- Where an engine executes LD at address ra + IMM10: below 0x8000 rd receives the word of its own data memory, from 0x10000 to 0x17FFF at
keeper level of its instruction memory, from 0x20000 of the packet window, from 0x21000 to 0x2103F of the frame descriptor, from 0x80000 to
0xFFFFF of its lantern's shared memory; no flag changes. Window bytes that have not arrived and an outstanding block make it stall. Any
other address, and instruction memory at user level, takes the address trap with the address as detail 1, TIP clear and no far load
outstanding. An uncorrectable error in data or shared memory raises a class L fault in the lantern's domain and takes the memory trap (cause
9), rd unchanged. [04_engines_and_lanterns.md; 05_bj24_instructions.md] -/
def Obligations.NearLoadsFollowTheAddressMap : Prop :=
  ∀ (e : Eng) (rd ra : Reg) (imm : BitVec 10) (s : State) (a : Nat), a = (reg (eng s e) ra + imm.signExtend 24).toNat → Runs s e 1 [rd, ra] →
    (a < 0x8000 → ∃ t, exec (.ld e rd ra imm false) s = .next t ∧ Went s t e rd (dataW s e a) ((eng s e).pc + 1)) ∧
    (0x10000 ≤ a → a < 0x18000 → (eng s e).kp = true →
      ∃ t, exec (.ld e rd ra imm false) s = .next t ∧ Went s t e rd (imemW s e (a - 0x10000)) ((eng s e).pc + 1)) ∧
    (0x20000 ≤ a → a < 0x21000 → notArrived (eng s e) (3 * (a - 0x20000)) 3 = false →
      ∃ t, exec (.ld e rd ra imm false) s = .next t ∧
        Went s t e rd (wd (ofBytes (winBytes (eng s e) (3 * (a - 0x20000)) 3))) ((eng s e).pc + 1)) ∧
    (0x21000 ≤ a → a < 0x21040 →
      ∃ t, exec (.ld e rd ra imm false) s = .next t ∧ Went s t e rd (descWord (eng s e).win (a - 0x21000)) ((eng s e).pc + 1)) ∧
    (0x80000 ≤ a → a < 0x100000 → inBlock (eng s e) a = false →
      ∃ t, exec (.ld e rd ra imm false) s = .next t ∧ Went s t e rd (sharedW s (lanternOf e) (a - 0x80000)) ((eng s e).pc + 1)) ∧
    ((0x20000 ≤ a ∧ a < 0x21000 ∧ notArrived (eng s e) (3 * (a - 0x20000)) 3 = true) ∨
      (0x80000 ≤ a ∧ a < 0x100000 ∧ inBlock (eng s e) a = true) → exec (.ld e rd ra imm false) s = .next s) ∧
    ((0x8000 ≤ a ∧ a < 0x20000 ∧ ¬(0x10000 ≤ a ∧ a < 0x18000 ∧ (eng s e).kp = true)) ∨ (0x21040 ≤ a ∧ a < 0x80000) ∨ 0x100000 ≤ a →
      (eng s e).tip = false → loadsOut (eng s e) = false →
      ∃ t, exec (.ld e rd ra imm false) s = .next t ∧ Trapped s t e 3 (wd a) 0) ∧
    (a < 0x8000 ∨ (0x80000 ≤ a ∧ a < 0x100000 ∧ inBlock (eng s e) a = false) → (eng s e).tip = false → loadsOut (eng s e) = false →
      ∃ t, exec (.ld e rd ra imm true) s = .next t ∧
        Trapped (raiseFault (emit0 s 0x040012) 0x040012 (14 + lanternOf e)) t e 9 (wd a) 0)

/-- Where an engine executes ST at ra + IMM10, XADD or CAS at ra, and the address admits it: ST leaves rd's value in the word (data, window
and shared memory; in the descriptor the fields that may be written), XADD leaves the old word plus rb and puts the old word in rd, CAS puts
the old word in rd and, where that equals rd, leaves rb in the word and sets Z, else clears Z. Every other near word, every other engine's
memories and everything else reads as before, but that engines of the lantern watching the word have their latch set. Inside an outstanding
block, or on window bytes that have not arrived, the access stalls. ST to the trap record at user level takes the privilege trap; any other
forbidden address takes the address trap, and so do XADD and CAS outside data and shared memory or on the trap record. An uncorrectable
error that XADD or CAS reads raises a class L fault in the lantern's domain and takes the memory trap (cause 9). The traps are stated with
TIP clear and no far load outstanding. [04_engines_and_lanterns.md; 05_bj24_instructions.md] -/
def Obligations.StoresChangeOneWord : Prop :=
  (∀ (e : Eng) (rd ra : Reg) (imm : BitVec 10) (s : State) (a : Nat), a = (reg (eng s e) ra + imm.signExtend 24).toNat →
    Runs s e 1 [rd, ra] →
    (storeOk s e a → nearStall (eng s e) a = false →
      ∃ t, exec (.st e rd ra imm) s = .next t ∧ Stored s t e a 0 0 (flags (eng s e)) ∧
        (0x21000 ≤ a ∧ a < 0x21040 → (eng t e).win = putDesc (eng s e).win (a - 0x21000) (reg (eng s e) rd)) ∧
        (¬(0x21000 ≤ a ∧ a < 0x21040) → nearRead t e a = some (reg (eng s e) rd))) ∧
    (storeOk s e a → nearStall (eng s e) a = true → exec (.st e rd ra imm) s = .next s) ∧
    (0x7ff8 ≤ a → a < 0x8000 → (eng s e).kp = false → (eng s e).tip = false → loadsOut (eng s e) = false →
      ∃ t, exec (.st e rd ra imm) s = .next t ∧ Trapped s t e 2 (encI 0x11 rd ra imm.toNat) 0) ∧
    (¬storeOk s e a → ¬(0x7ff8 ≤ a ∧ a < 0x8000) → (eng s e).tip = false → loadsOut (eng s e) = false →
      ∃ t, exec (.st e rd ra imm) s = .next t ∧ Trapped s t e 3 (wd a) 0)) ∧
  ∀ (e : Eng) (rd ra rb : Reg) (s : State) (a : Nat) (w : Word), a = (reg (eng s e) ra).toNat → Runs s e 1 [rd, ra, rb] →
    ((a < 0x7ff8 ∧ w = dataW s e a) ∨ (0x80000 ≤ a ∧ a < 0x100000 ∧ inBlock (eng s e) a = false ∧ w = sharedW s (lanternOf e) (a - 0x80000)) →
      (∃ t, exec (.xadd e rd ⟨ra, false⟩ rb) s = .next t ∧ Stored s t e a rd w (flags (eng s e)) ∧
        nearRead t e a = some (w + reg (eng s e) rb)) ∧
      (w = reg (eng s e) rd → ∃ t, exec (.cas e rd ⟨ra, false⟩ rb) s = .next t ∧
        Stored s t e a rd w (true, (eng s e).n, (eng s e).c, (eng s e).v) ∧ nearRead t e a = some (reg (eng s e) rb)) ∧
      (w ≠ reg (eng s e) rd → ∃ t, exec (.cas e rd ⟨ra, false⟩ rb) s = .next t ∧
        Computed s t e 1 rd w (false, (eng s e).n, (eng s e).c, (eng s e).v)) ∧
      ((eng s e).tip = false → loadsOut (eng s e) = false → ∀ x, x = raiseFault (emit0 s 0x040012) 0x040012 (14 + lanternOf e) →
        (∃ t, exec (.xadd e rd ⟨ra, true⟩ rb) s = .next t ∧ Trapped x t e 9 (wd a) 0) ∧
        ∃ t, exec (.cas e rd ⟨ra, true⟩ rb) s = .next t ∧ Trapped x t e 9 (wd a) 0)) ∧
    (∀ bad, 0x80000 ≤ a → a < 0x100000 → inBlock (eng s e) a = true →
      exec (.xadd e rd ⟨ra, bad⟩ rb) s = .next s ∧ exec (.cas e rd ⟨ra, bad⟩ rb) s = .next s) ∧
    (∀ bad, 0x7ff8 ≤ a → ¬(0x80000 ≤ a ∧ a < 0x100000) → (eng s e).tip = false → loadsOut (eng s e) = false →
      (∃ t, exec (.xadd e rd ⟨ra, bad⟩ rb) s = .next t ∧ Trapped s t e 3 (wd a) 0) ∧
      ∃ t, exec (.cas e rd ⟨ra, bad⟩ rb) s = .next t ∧ Trapped s t e 3 (wd a) 0)

/-- Where an engine executes PLDn or PSTn at byte offset o = ra + IMM10 zero-extended: with o + n at most 12,288 and the bytes arrived, PLDn
writes the n bytes from o, the first most significant, zero-extended to rd; PSTn writes the low n bytes of rd there and changes no other
byte of the window, no descriptor field and no register. No flag changes. A span beyond byte 12,287 takes the address trap with the offset
as detail 1, TIP clear and no far load outstanding; bytes that have not arrived make the access stall. [05_bj24_instructions.md] -/
def Obligations.WindowBytesLoadAndStore : Prop :=
  ∀ (e : Eng) (rd ra : Reg) (imm : BitVec 10) (s : State) (o n : Nat) (load store : Instr),
    o = (reg (eng s e) ra).toNat + imm.toNat →
    (n = 1 ∧ load = .pld1 e rd ra imm ∧ store = .pst1 e rd ra imm) ∨ (n = 2 ∧ load = .pld2 e rd ra imm ∧ store = .pst2 e rd ra imm) ∨
      (n = 3 ∧ load = .pld3 e rd ra imm ∧ store = .pst3 e rd ra imm) → Runs s e 1 [rd, ra] →
    (o + n ≤ 12288 → notArrived (eng s e) o n = false →
      (∃ t, exec load s = .next t ∧ Went s t e rd (wd (ofBytes (winBytes (eng s e) o n))) ((eng s e).pc + 1)) ∧
      ∃ t, exec store s = .next t ∧ OnlyEngine s t e ∧ (∀ k, reg (eng t e) k = reg (eng s e) k) ∧ flags (eng t e) = flags (eng s e) ∧
        GoesOnAt (eng t e) ((eng s e).pc + 1) ∧
        (∀ k, tget (fun _ => 0) (eng t e).win.buf k =
          if o ≤ k ∧ k < o + n then by8 ((reg (eng s e) rd).toNat / 256 ^ (n - 1 - (k - o))) else tget (fun _ => 0) (eng s e).win.buf k) ∧
        { (eng t e).win with buf := [], orig := [] } = { (eng s e).win with buf := [], orig := [] } ∧
        engRest { eng t e with win := idleWin } = engRest { eng s e with win := idleWin }) ∧
    (o + n ≤ 12288 → notArrived (eng s e) o n = true → exec load s = .next s ∧ exec store s = .next s) ∧
    (12288 < o + n → (eng s e).tip = false → loadsOut (eng s e) = false →
      (∃ t, exec load s = .next t ∧ Trapped s t e 3 (wd o) 0) ∧ ∃ t, exec store s = .next t ∧ Trapped s t e 3 (wd o) 0)

/-- Where an engine executes the instruction: TAKE with an idle window moves the oldest frame of its queue, once its head has arrived, into
the window and clears NR, its EQCNT following; with a frame in the window or an empty queue it sets NR alone. SEND offers the window's LEN
bytes with its descriptor to the place QUEUE names, or where QUEUE names none counts it as unplaced, and leaves the window idle with NR
clear; DROP counts it under its flow's program drops and leaves the window idle with NR clear; both set NR alone on an idle window. ADJ by
signed rb inserts or removes bytes at the front where LEN + rb lies in 14 to 12,288, else sets NR alone. FRAME_ARRIVAL_IN_WINDOW marks the
head of the next frame as arrived, or all of the one in the window. [05_bj24_instructions.md; 18_flows_and_policing.md;
19_queues_and_shelf.md] -/
def Obligations.FramesPassThroughTheWindow : Prop :=
  (∀ (e : Eng) (s : State), Runs s e 1 [] →
    ((eng s e).win.idle = true → ∀ f l, (eng s e).frames = f :: l → (eng s e).arrived = true →
      exec (.take e) s = .next (after s (eqcnt (setEng s e { eng s e with frames := l, arrived := false, win := takenWin f, nr := false }) e) e)) ∧
    ((eng s e).win.idle = false ∨ (eng s e).frames = [] → exec (.take e) s = .next (after s (setEng s e { eng s e with nr := true }) e)) ∧
    ((eng s e).win.idle = false →
      (∀ d, sendDest s (eng s e).win.queue (eng s e).win.hash = some d →
        exec (.send e) s = .next (after s (offerFrame (setEng s e { eng s e with win := idleWin, nr := false }) (sentFrame e (eng s e)) d) e)) ∧
      (sendDest s (eng s e).win.queue (eng s e).win.hash = none → exec (.send e) s = .next (after s
        (count (setEng s e { eng s e with win := idleWin, nr := false }) 0x0d kQmUnplaced (eng s e).win.queue) e)) ∧
      exec (.drop e) s =
        .next (after s (count (setEng s e { eng s e with win := idleWin, nr := false }) 0x0c kFlowDropped (eng s e).win.flow) e)) ∧
    ((eng s e).win.idle = true → exec (.send e) s = .next (after s (setEng s e { eng s e with nr := true }) e) ∧
      exec (.drop e) s = .next (after s (setEng s e { eng s e with nr := true }) e))) ∧
  (∀ (e : Eng) (rb : Reg) (s : State) (d : Int), d = (reg (eng s e) rb).toInt → Runs s e 1 [rb] →
    ((eng s e).win.idle = false → 14 ≤ ((eng s e).win.len : Int) + d → ((eng s e).win.len : Int) + d ≤ 12288 →
      exec (.adj e rb) s = .next (after s (setEng s e { eng s e with win := adjWin (eng s e).win d, nr := false }) e)) ∧
    ((eng s e).win.idle = true ∨ ((eng s e).win.len : Int) + d < 14 ∨ 12288 < ((eng s e).win.len : Int) + d →
      exec (.adj e rb) s = .next (after s (setEng s e { eng s e with nr := true }) e))) ∧
  ∀ (e : Eng) (s : State), live s = true →
    ((eng s e).frames ≠ [] → exec (.frameArrivalInWindow e false) s = .next (setEng s e { eng s e with arrived := true })) ∧
    ((eng s e).win.idle = false →
      exec (.frameArrivalInWindow e true) s = .next (setEng s e { eng s e with win := { (eng s e).win with got := 12288 } }))

/-- Where an engine executes a far access on a pair: a broken alignment (a single access crossing a 64-byte line, a block not at a line)
takes the alignment trap, an end beyond the data space the far-unmapped trap, a granule that MPE refuses the far-rights trap after the
refusal is recorded, a block outside shared memory the address trap; the traps are stated with TIP clear and no far load outstanding. Else,
with fewer than 8 outstanding, the access joins the outstanding ones and the engine goes on. With MEM running and no pause of its channel,
an FLD's data writes rd zero-extended, its written lines wait for their seals, and its place is free; a store whose pair is done frees its
place; a block moves its bytes between the data space and shared memory; lines read or written are counted. FENCE waits for every far access
and for every SET and COMMIT. ADD with a register that is being loaded stalls. [04_engines_and_lanterns.md; 05_bj24_instructions.md;
22_memory_protection.md] -/
def Obligations.FarAccessesIssueCheckAndComplete : Prop :=
  (∀ (e : Eng) (rd ra : Reg) (size : Fin 4) (s : State) (a : Nat), a = pairVal (eng s e) ra → pairOk ra = true → size ≠ 0 →
    Runs s e 1 [rd, ra, ra + 1] → a % 64 + size.val ≤ 64 → a + size.val ≤ dataSpace → (eng s e).far.length < 8 →
    (refusedByte s (if (eng s e).kp then 0 else 1) a size false = none → exec (.fld e rd ra size) s =
      .next (after s (setEng s e { eng s e with
        far := (eng s e).far ++ [⟨(eng s e).serial, .load rd, a, size, [], false⟩], serial := (eng s e).serial + 1 }) e)) ∧
    (refusedByte s (if (eng s e).kp then 0 else 1) a size true = none → exec (.fst e rd ra size) s =
      .next (after s (setEng s e { eng s e with
        far := (eng s e).far ++ [⟨(eng s e).serial, .store, a, size, toBytes size (reg (eng s e) rd).toNat, false⟩],
        serial := (eng s e).serial + 1 }) e))) ∧
  (∀ (e : Eng) (rd ra : Reg) (size : Fin 4) (s : State) (a : Nat), a = pairVal (eng s e) ra → pairOk ra = true → size ≠ 0 →
    Runs s e 1 [rd, ra, ra + 1] → (eng s e).tip = false → loadsOut (eng s e) = false →
    (64 < a % 64 + size.val → (∃ t, exec (.fld e rd ra size) s = .next t ∧ Trapped s t e 4 (wd (a / 2 ^ 24)) (wd a)) ∧
      ∃ t, exec (.fst e rd ra size) s = .next t ∧ Trapped s t e 4 (wd (a / 2 ^ 24)) (wd a)) ∧
    (a % 64 + size.val ≤ 64 → dataSpace < a + size.val →
      (∃ t, exec (.fld e rd ra size) s = .next t ∧ Trapped s t e 6 (wd (a / 2 ^ 24)) (wd a)) ∧
      ∃ t, exec (.fst e rd ra size) s = .next t ∧ Trapped s t e 6 (wd (a / 2 ^ 24)) (wd a)) ∧
    (a % 64 + size.val ≤ 64 → a + size.val ≤ dataSpace → ∀ m b, m = (if (eng s e).kp then 0 else 1) →
      (refusedByte s m a size false = some b →
        ∃ t, exec (.fld e rd ra size) s = .next t ∧ Trapped (refuse s m b false) t e 5 (wd (a / 2 ^ 24)) (wd a)) ∧
      (refusedByte s m a size true = some b →
        ∃ t, exec (.fst e rd ra size) s = .next t ∧ Trapped (refuse s m b true) t e 5 (wd (a / 2 ^ 24)) (wd a)))) ∧
  (∀ (e : Eng) (ra rb : Reg) (fn : BitVec 6) (s : State) (a n p : Nat), a = pairVal (eng s e) ra → n = 64 * (fn.toNat + 1) →
    p = (reg (eng s e) rb).toNat → pairOk ra = true → Runs s e 1 [ra, ra + 1, rb] →
    (a % 64 = 0 → a + n ≤ dataSpace → 0x80000 ≤ p → p + blockWords n ≤ 0x100000 → (eng s e).far.length < 8 →
      (refusedByte s (if (eng s e).kp then 0 else 1) a n false = none → exec (.fbl e ra rb fn) s =
        .next (after s (setEng s e { eng s e with
          far := (eng s e).far ++ [⟨(eng s e).serial, .blockLoad p, a, n, [], false⟩], serial := (eng s e).serial + 1 }) e)) ∧
      (refusedByte s (if (eng s e).kp then 0 else 1) a n true = none → exec (.fbs e ra rb fn) s =
        .next (after s (setEng s e { eng s e with
          far := (eng s e).far ++ [⟨(eng s e).serial, .blockStore p, a, n, [], false⟩], serial := (eng s e).serial + 1 }) e))) ∧
    ((eng s e).tip = false → loadsOut (eng s e) = false → ∀ (wr : Bool) (i : Instr) (m : Nat), m = (if (eng s e).kp then 0 else 1) →
      i = (if wr then .fbs e ra rb fn else .fbl e ra rb fn) →
      (a % 64 ≠ 0 → ∃ t, exec i s = .next t ∧ Trapped s t e 4 (wd (a / 2 ^ 24)) (wd a)) ∧
      (a % 64 = 0 → dataSpace < a + n → ∃ t, exec i s = .next t ∧ Trapped s t e 6 (wd (a / 2 ^ 24)) (wd a)) ∧
      (a % 64 = 0 → a + n ≤ dataSpace → ∀ b, refusedByte s m a n wr = some b →
        ∃ t, exec i s = .next t ∧ Trapped (refuse s m b wr) t e 5 (wd (a / 2 ^ 24)) (wd a)) ∧
      (a % 64 = 0 → a + n ≤ dataSpace → refusedByte s m a n wr = none →
        (p < 0x80000 ∨ 0x100000 < p + blockWords n) → ∃ t, exec i s = .next t ∧ Trapped s t e 3 (wd p) 0))) ∧
  (∀ (e : Eng) (s : State), Runs s e 1 [] →
    ((eng s e).far = [] → (eng s e).posted = [] → exec (.fence e) s = .next (after s s e)) ∧
    ((eng s e).far ≠ [] ∨ (eng s e).posted ≠ [] → exec (.fence e) s = .next s)) ∧
  (∀ (e : Eng) (k m : Nat) (s : State) (f : Far), live s = true → memRuns s = true → farHeld s e k = false → m = engMaster s e →
    farTurn (eng s e) k = some f →
    (∀ rd x, f.kind = .load rd → x = setEng s e (setReg (dropFar (eng s e) k) rd (wd (ofBytes (dramRead s f.addr f.len)))) →
      exec (.farLoadDataReturn e k) s = .next (countLines (noteUnchecked x e k f.addr f.len) m f.addr f.len false)) ∧
    (f.kind = .store → f.written = true → exec (.farAccessComplete e k) s = .next (setEng s e (dropFar (eng s e) k))) ∧
    (∀ p x, f.kind = .blockLoad p →
      x = putShared (setEng s e (dropFar (eng s e) k)) (lanternOf e) (p - 0x80000) (dramRead s f.addr f.len) →
      exec (.farAccessComplete e k) s = .next (countLines (noteUnchecked x e k f.addr f.len) m f.addr f.len false)) ∧
    (∀ p x, f.kind = .blockStore p → rangeWritten s f.addr f.len = true →
      x = dramWrite (setEng s e (dropFar (eng s e) k)) f.addr (sharedBytes s (lanternOf e) (p - 0x80000) f.len) →
      exec (.farAccessComplete e k) s = .next (countLines x m f.addr f.len true))) ∧
  ∀ (e : Eng) (rd ra rb : Reg) (s : State), able s e = true → sampleDue s e = false → (eng s e).past = false →
    ((eng s e).noted.any fun x => decide (12 ≤ x.2)) = false →
    loading (eng s e) rd = true ∨ loading (eng s e) ra = true ∨ loading (eng s e) rb = true → exec (.add e rd ra rb) s = .next s

/-- Where an engine executes the instruction: an address that names no existing word takes the unit-refused trap (cause 8); a SET of a
keeper word or of any ENG word at user level takes the privilege trap with the address as detail 2; else, with fewer than 16 unaccepted, SET
and COMMIT (of the instance that ra's upper bits name) join the unaccepted ones and the engine goes on, with 16 they stall; GET makes the
engine wait for the unit's answer. The answer to a GET of a word without a read effect of its own is the word's value in rd, with NR
cleared, once every earlier SET and COMMIT to that instance has been accepted; a result word that is not ready sets NR and leaves rd.
[05_bj24_instructions.md; 06_units_and_results.md] -/
def Obligations.UnitAccessesLeaveTheEngine : Prop :=
  (∀ (e : Eng) (ra rb : Reg) (s : State) (a : Nat) (v : Word), a = (reg (eng s e) rb).toNat → v = reg (eng s e) ra → Runs s e 1 [ra, rb] →
    (wordExists a = true → (eng s e).kp = true ∨ keeperSet a v = false →
      ((eng s e).posted.length < 16 → exec (.set e ra rb) s = .next (after s (setEng s e { eng s e with
        posted := (eng s e).posted ++ [⟨false, a, v, (eng s e).serial⟩], serial := (eng s e).serial + 1 }) e)) ∧
      (16 ≤ (eng s e).posted.length → exec (.set e ra rb) s = .next s)) ∧
    ((eng s e).tip = false → loadsOut (eng s e) = false →
      (wordExists a = false → ∃ t, exec (.set e ra rb) s = .next t ∧ Trapped s t e 8 (wd a) 0) ∧
      (wordExists a = true → (eng s e).kp = false → keeperSet a v = true →
        ∃ t, exec (.set e ra rb) s = .next t ∧ Trapped s t e 2 (encR 0x28 0 ra rb 0) (wd a)))) ∧
  (∀ (e : Eng) (ra : Reg) (s : State) (a : Nat), a = (reg (eng s e) ra).toNat / 1024 * 1024 → Runs s e 1 [ra] →
    (wordExists a = true → (eng s e).posted.length < 16 → exec (.commit e ra) s = .next (after s (setEng s e { eng s e with
      posted := (eng s e).posted ++ [⟨true, a, 0, (eng s e).serial⟩], serial := (eng s e).serial + 1 }) e)) ∧
    (wordExists a = true → 16 ≤ (eng s e).posted.length → exec (.commit e ra) s = .next s) ∧
    (wordExists a = false → (eng s e).tip = false → loadsOut (eng s e) = false →
      ∃ t, exec (.commit e ra) s = .next t ∧ Trapped s t e 8 (reg (eng s e) ra) 0)) ∧
  (∀ (e : Eng) (rd ra : Reg) (s : State) (a : Nat), a = (reg (eng s e) ra).toNat → Runs s e 1 [rd, ra] →
    (wordExists a = true → exec (.get e rd ra) s = .next (after s (setEng s e { eng s e with get := some (rd.val, a) }) e)) ∧
    (wordExists a = false → (eng s e).tip = false → loadsOut (eng s e) = false →
      ∃ t, exec (.get e rd ra) s = .next t ∧ Trapped s t e 8 (wd a) 0)) ∧
  ∀ (e : Eng) (s : State) (rd a : Nat), (eng s e).get = some (rd, a) → getReady s e a = true → ownRead a = false →
    (wordResult a = false ∨ isReady s a = true → a ≠ fAddr fKEY_RAND_R 0 0 →
      exec (.getAnswer e) s = .next (answer s e (some (viewWord s a)))) ∧
    (wordResult a = true → isReady s a = false → exec (.getAnswer e) s = .next (answer s e none)) ∧
    (∀ v : Word, answer s e (some v) = setEng s e (setReg { eng s e with get := none, nr := false } rd v)) ∧
    answer s e none = setEng s e { eng s e with get := none, nr := true }

/-- Where an engine executes POST of quad q to an assigned postbox number, its message (sender, TAG, words 1 to 3) sets out and the engine
waits; to a number not assigned it sets NR and counts it misdirected. At the arbiter the POSTs of one turn are decided in round-robin order:
without room or to a gated engine the POST is refused, counted, and sets NR; else it takes a place, not yet collectable, and clears NR. The
message becomes collectable when every earlier far store and SET of its sender is visible. COLLECT takes the oldest collectable message into
its quad and clears NR; with none it writes zeros and sets NR. [04_engines_and_lanterns.md; 05_bj24_instructions.md] -/
def Obligations.MessagesAreGrantedThenCollected : Prop :=
  (∀ (e : Eng) (q : Fin 4) (rb : Reg) (s : State) (d : Nat) (g : Engine), g = eng s e → d = (reg g rb).toNat % 256 →
    (((List.range 4).map (quad q) ++ [rb.val]).any fun r => loading g r) = false → Runs s e 1 [] →
    (boxOk d = true → exec (.post e q rb) s = .next (after s (setEng s e { g with
      out := some (d, ⟨e, (reg g (quad q 0)).toNat % 65536, (reg g (quad q 1)).toNat, (reg g (quad q 2)).toNat, (reg g (quad q 3)).toNat⟩, g.serial),
      serial := g.serial + 1 }) e)) ∧
    (boxOk d = false → exec (.post e q rb) s = .next (after s (count (setEng s e { g with nr := true }) 1 kEngMisdirected e) e))) ∧
  (∀ (d : BitVec 8) (es : List Eng) (s : State), live s = true → boxOk d.toNat = true →
    exec (.postboxArbitration d es) s =
      .next ((inTurn (servedOf s d.toNat) (es.map fun e => e.val)).foldl (fun s e => decidePost s d.toNat e) s)) ∧
  (∀ (s : State) (d e k : Nat) (m : Msg), (eng s e).out = some (d, m, k) →
    (boxFull s d = true → decidePost s d e = count (setEng s e { eng s e with out := none, nr := true }) 1 kEngRefused d) ∧
    (boxFull s d = false → decidePost s d e =
      setServed (putPlace (setEng s e { eng s e with out := none, nr := false }) d ⟨m, false, k⟩) d e)) ∧
  (∀ (d : BitVec 8) (e : Eng) (k : Nat) (s : State) (p : Place), live s = true → d.toNat < 192 → released (eng s e) k = true →
    (boxOf s d.toNat).find? (fun p => p.msg.sender == e.val && !p.ready) = some p → p.serial = k →
    exec (.messageCollectable d e k) s = .next (setBox s d.toNat ((boxOf s d.toNat).map fun x =>
      if (x.msg.sender == e.val && !x.ready) && x.serial == k then { x with ready := true } else x))) ∧
  ∀ (e : Eng) (q : Fin 4) (s : State) (g : Engine), g = eng s e →
    (((List.range 4).map (quad q)).any fun r => loading g r) = false → Runs s e 1 [] →
    (∀ p l, takeFirst (fun x => x.ready) g.box = some (p, l) → exec (.collect e q) s = .next (after s (setEng s e
      (setQuad { g with box := l, nr := false } q (wd (p.msg.sender * 65536 + p.msg.tag)) (wd p.msg.w1) (wd p.msg.w2) (wd p.msg.w3))) e)) ∧
    (takeFirst (fun x => x.ready) g.box = none →
      exec (.collect e q) s = .next (after s (setEng s e (setQuad { g with nr := true } q 0 0 0 0)) e))

/-- Where an engine executes the instruction: WATCH of a shared-memory address arms the watch and clears its latch, and traps elsewhere;
TIMEAT of a pair with nanoseconds below 1,000,000,000 arms the wake time, the next instant within 131,072 s ahead, or sets the latch at once
where the pair lies in the past; a nanosecond value above is illegal; TIMEAT with FN 1 disarms and clears. WAIT, where no sleep state is
requested, completes where a selected condition holds or none is selected, else the engine waits, and completes once one holds. The time
latch sets once the counter has reached the wake time. On E0 with MODE set at keeper level WAIT begins the sleep entry.
[05_bj24_instructions.md; 27_power_states.md] -/
def Obligations.WatchesWakeTimesAndWaits : Prop :=
  (∀ (e : Eng) (ra : Reg) (s : State) (a : Nat), a = (reg (eng s e) ra).toNat → Runs s e 1 [ra] →
    (0x80000 ≤ a → a < 0x100000 →
      exec (.watch e ra) s = .next (after s (setEng s e { eng s e with watch := some (a - 0x80000), watchL := false }) e)) ∧
    (a < 0x80000 ∨ 0x100000 ≤ a → (eng s e).tip = false → loadsOut (eng s e) = false →
      ∃ t, exec (.watch e ra) s = .next t ∧ Trapped s t e 3 (wd a) 0)) ∧
  (∀ (e : Eng) (ra : Reg) (s : State) (p t0 : Nat), p = pairVal (eng s e) ra → t0 = s.time.sec * 1000000000 + s.time.ns →
    pairOk ra = true → Runs s e 1 [ra, ra + 1] →
    (p % 2 ^ 30 < 1000000000 → ∃ t, exec (.timeat e ra) s = .next t ∧ OnlyEngine s t e ∧
      (∀ k, reg (eng t e) k = reg (eng s e) k) ∧ flags (eng t e) = flags (eng s e) ∧ GoesOnAt (eng t e) ((eng s e).pc + 1) ∧
      engRest { eng t e with wake := none, timeL := false } = engRest { eng s e with wake := none, timeL := false } ∧
      ((eng t e).wake = none → (eng t e).timeL = true) ∧
      (∀ i, t0 < i → i ≤ t0 + 131072 * 1000000000 → i % (262144 * 1000000000) = p / 2 ^ 30 * 1000000000 + p % 2 ^ 30 →
        (eng t e).wake = some (i / 1000000000, i % 1000000000)) ∧
      ∀ w n, (eng t e).wake = some (w, n) → (eng t e).timeL = false ∧ w % 2 ^ 18 = p / 2 ^ 30 % 2 ^ 18 ∧ n = p % 2 ^ 30 ∧
        t0 < w * 1000000000 + n ∧ w * 1000000000 + n ≤ t0 + 131072 * 1000000000) ∧
    (1000000000 ≤ p % 2 ^ 30 → (eng s e).tip = false → loadsOut (eng s e) = false →
      ∃ t, exec (.timeat e ra) s = .next t ∧ Trapped s t e 1 (encR 0x3a 0 ra 0 0) 0)) ∧
  (∀ (e : Eng) (s : State), Runs s e 1 [] →
    exec (.timeatDisarm e) s = .next (after s (setEng s e { eng s e with wake := none, timeL := false }) e)) ∧
  (∀ (e : Eng) (s : State) (w n : Nat), live s = true → (eng s e).wake = some (w, n) → w < s.time.sec ∨ (w = s.time.sec ∧ n ≤ s.time.ns) →
    exec (.timeLatchSet e) s = .next (setEng s e { eng s e with wake := none, timeL := true })) ∧
  (∀ (e : Eng) (c : BitVec 4) (s : State) (some1 : Bool),
    some1 = ((c.getLsbD 0 && pk (eng s e)) || (c.getLsbD 1 && (eng s e).watchL) || (c.getLsbD 2 && (eng s e).timeL) ||
      (c.getLsbD 3 && !(eng s e).frames.isEmpty)) →
    (Runs s e 1 [] → e.val ≠ 0 ∨ rdF s fPWR_MODE_SLEEP = 0 →
      (c = 0 ∨ some1 = true → exec (.wait e c) s = .next (after s s e)) ∧
      (c ≠ 0 → some1 = false → exec (.wait e c) s = .next (setEng s e { eng s e with st := .waiting, conds := c.toNat }))) ∧
    (live s = true → (eng s e).st = .waiting → (eng s e).step = false → (eng s e).gated = false → (eng s e).sleeping = false → (eng s e).conds = c.toNat → some1 = true →
      exec (.waitWake e) s = .next (after s (setEng s e { eng s e with st := .running, conds := 0 }) e))) ∧
  ∀ (c : BitVec 4) (s : State), Runs s 0 1 [] → rdF s fPWR_MODE_SLEEP ≠ 0 → (eng s 0).kp = true →
    exec (.wait 0 c) s = .next (requestPair (setEng s 0 { eng s 0 with st := .waiting, conds := 0, sleeping := true })
      (rdF s fPWR_MODE_SLEEP) (rdF s fPWR_LEVEL_REQ))

/-- Where an engine executes it with no far load outstanding and TIP clear, TRAP n takes cause 0x10 + n with n as detail 1, and an illegal
encoding cause 1 with word 0, and word 1 where its OP has two words, as details: the record holds pc, fl, cause and level, and the engine
goes on at tp + 4c at keeper level with TIP set. With TIP set the trap is a double trap: the engine fails with event 0x040_010. RTT at
keeper level takes the pc, the flags and the level from the record and clears TIP, and at user level takes the privilege trap. A sample due
notes the pc of the instruction that reached the interval, or with TIP set is dropped and counted; the sample trap has that pc as detail 1,
the skid and the dropped count in its record; with TIP set the sample is dropped and counted. An uncorrectable error in its next instruction
word fails the engine with event 0x040_011; a single-bit error is counted as corrected. [04_engines_and_lanterns.md;
05_bj24_instructions.md] -/
def Obligations.TrapsSaveAndReturnRestores : Prop :=
  (∀ (e : Eng) (n : BitVec 4) (s : State), Runs s e 1 [] → loadsOut (eng s e) = false →
    ((eng s e).tip = false → ∃ t, exec (.trap e n) s = .next t ∧ Trapped s t e (0x10 + n.toNat) (wd n.toNat) 0) ∧
    ((eng s e).tip = true → exec (.trap e n) s =
      .next (failEngine (emit s 0x040010 (e.val + 256 * (0x10 + n.toNat)) (eng s e).pc.toNat (dataW s e 0x7ff8).toNat) e 0x040010))) ∧
  (∀ (e : Eng) (w0 w1 : Word) (s : State), bjRun e w0 w1 = none → (eng s e).tip = false → loadsOut (eng s e) = false →
    (opOf w0 ≠ 8 → Runs s e 1 [] → ∃ t, exec (.illegalEncoding e w0 w1) s = .next t ∧ Trapped s t e 1 w0 0) ∧
    (opOf w0 = 8 → Runs s e 2 [] → ∃ t, exec (.illegalEncoding e w0 w1) s = .next t ∧ Trapped s t e 1 w0 w1)) ∧
  (∀ (e : Eng) (s : State), Runs s e 1 [] →
    ((eng s e).kp = true → ∃ t, exec (.rtt e) s = .next t ∧ OnlyEngine s t e ∧ (eng t e).tip = false ∧
      (eng t e).pc = dataW s e 0x7ff8 &&& 0x7fff ∧ (eng t e).past = false ∧
      flags (eng t e) = ((dataW s e 0x7ff9).getLsbD 0, (dataW s e 0x7ff9).getLsbD 1, (dataW s e 0x7ff9).getLsbD 2, (dataW s e 0x7ff9).getLsbD 3) ∧
      (eng t e).nr = (dataW s e 0x7ff9).getLsbD 4 ∧ (eng t e).kp = (dataW s e 0x7ffa).getLsbD 5 ∧
      (∀ k, reg (eng t e) k = reg (eng s e) k) ∧
      engRest' { eng t e with kp := true, tip := false } = engRest' { eng s e with kp := true, tip := false }) ∧
    ((eng s e).kp = false → (eng s e).tip = false → loadsOut (eng s e) = false →
      ∃ t, exec (.rtt e) s = .next t ∧ Trapped s t e 2 (encR 0x3d 0 0 0 0) 0)) ∧
  (∀ (e : Eng) (s : State), live s = true → sampleDue s e = true →
    ((eng s e).tip = false →
      exec (.sampleIntervalExpiry e) s = .next (setEng s e { eng s e with noted := some ((eng s e).lastPc, 0), count := 0 })) ∧
    ((eng s e).tip = true →
      exec (.sampleIntervalExpiry e) s = .next (setEng s e { eng s e with count := 0, dropped := (eng s e).dropped + 1 }))) ∧
  (∀ (e : Eng) (s : State) (pc : Word) (k : Nat), able s e = true → loadsOut (eng s e) = false → (eng s e).noted = some (pc, k) →
    ((eng s e).tip = true →
      exec (.sampleTrap e) s = .next (setEng s e { eng s e with noted := none, dropped := (eng s e).dropped + 1 })) ∧
    ((eng s e).tip = false → ∃ t, exec (.sampleTrap e) s = .next t ∧ dataW t e 0x7ff8 = (eng s e).pc ∧
      dataW t e 0x7ff9 = wd (flWord (eng s e)) ∧ dataW t e 0x7ffa = wd (0xa + 32 * b2n (eng s e).kp + 256 * k) ∧ dataW t e 0x7ffb = pc ∧
      dataW t e 0x7ffc = 0 ∧ dataW t e 0x7ffd = wd (eng s e).dropped ∧ (eng t e).dropped = 0 ∧ (eng t e).noted = none ∧
      (eng t e).tip = true ∧ (eng t e).kp = true ∧ (eng t e).cause = 0xa ∧ (eng t e).pc = wd (((eng s e).tp.toNat + 0x28) % 32768) ∧
      (∀ r, reg (eng t e) r = reg (eng s e) r) ∧ (∀ j, j ≠ e.val → eng t j = eng s j) ∧ { t with engs := s.engs, data := s.data } = s)) ∧
  ∀ (e : Eng) (s : State),
    (able s e = true → exec (.imemEccError ⟨e, false⟩) s = .next (failEngine (emit2 s 0x040011 e (eng s e).pc.toNat) e 0x040011)) ∧
    (live s = true → exec (.imemEccError ⟨e, true⟩) s = .next (count s 1 kEngEcc e))

/-- Once a SET of ECTL has been accepted: RUN = 1 sets RUN and starts a STOPPED engine at its entry and level, unless it is gated or its
lantern's domain has failed; RUN = 0 makes a running or waiting one drain, which reads STOPPED once its far accesses and waits are over;
STEP makes a STOPPED engine run the instruction at its pc by that instruction's own meaning, and a NOP there leaves it STOPPED at the next
pc; where its word holds an uncorrectable error the engine fails; CLRFAIL makes a FAILED engine STOPPED with registers, flags, pc, tp and
TIP cleared at keeper level. LDGO with GO: while a transfer runs WHY reads 4; else the first failed check sets REFUSED and WHY, and without
one the transfer runs, BUSY. At its end, while MEM runs, its lines are counted as read, the bytes stand in the target, the accumulator is
extended by their SHA-384, and LDSTAT reads DONE; a failed seal raises the seal fault at a line of it. [04_engines_and_lanterns.md] -/
def Obligations.EnginesStartStopStepAndLoad : Prop :=
  (∀ (b : Eng) (l : Lan) (k : Fin 8) (v : Word) (s s' : State), accept s b false (ectlAddr l k) v = some s' →
    (v.getLsbD 0 = true → v.getLsbD 1 = false → v.getLsbD 3 = false → exec (.engineRun b l k v) s =
      .next (startEngine (setSample (wrF s' fENG_ECTL_RUN 1 l (0x20 * k.val)) l k v) l k)) ∧
    (v.getLsbD 0 = false → v.getLsbD 1 = false → v.getLsbD 3 = false → ∀ x, x = setSample (wrF s' fENG_ECTL_RUN 0 l (0x20 * k.val)) l k v →
      (eng x (engOf l k)).st = .running ∨ (eng x (engOf l k)).st = .waiting →
      exec (.engineStop b l k v) s =
        .next (setEng x (engOf l k) { eng x (engOf l k) with st := .draining, conds := 0, sleeping := false, step := false })) ∧
    (v.getLsbD 1 = true → v.getLsbD 3 = false → ∀ x e, x = setSample s' l k v → e = Fin.ofNat 192 (engOf l k) →
      (eng x e).st = .stopped → (eng x e).gated = false → (dom x (14 + l.val)).failed = false →
      ∀ y bad, y = settleSample (setEng x e { eng x e with st := .running, step := true }) e →
      (∃ t, runNext e bad y = .next t ∧ exec (.engineStep b l k ⟨v, false, bad⟩) s = .next t) ∧
      ((eng y e).past = false → exec (.engineStep b l k ⟨v, true, bad⟩) s = .next (fetchFails y e)) ∧
      (live x = true → (eng x e).get = none → (eng x e).out = none → (eng x e).far = [] → (eng x e).noted = none → sampleDue x e = false →
        (eng x e).past = false → imemW x e (eng x e).pc.toNat = encR 0x3e 0 0 0 0 → ∃ t, exec (.engineStep b l k ⟨v, false, bad⟩) s = .next t ∧
          (eng t e).st = .stopped ∧ (eng t e).step = false ∧ GoesOnAt (eng t e) ((eng x e).pc + 1) ∧ OnlyEngine x t e ∧
          (∀ j, reg (eng t e) j = reg (eng x e) j) ∧ flags (eng t e) = flags (eng x e))) ∧
    (v.getLsbD 3 = true → ∀ x e, x = setSample s' l k v → e = engOf l k → (eng x e).st = .failed →
      exec (.clrfail b l k v) s = .next (setEng x e
        { setFl (eng x e) 0 with regs := [], pc := 0, tp := 0, past := false, st := .stopped, tip := false, kp := true }))) ∧
  (∀ (s : State) (l : Lan) (k : Fin 8) (e : Nat), e = engOf l k → (eng s e).st = .stopped → (eng s e).gated = false →
    (dom s (14 + l.val)).failed = false → startEngine s l k = setEng s e { eng s e with
      pc := wd (rdF s fENG_EENTRY_ENTRY l (0x20 * k.val)), kp := !onF s fENG_EENTRY_USER l (0x20 * k.val), st := .running,
      past := false, conds := 0 }) ∧
  (∀ (e : Eng) (s : State), live s = true → (eng s e).st = .draining → (eng s e).gated = false → (eng s e).far = [] →
    (eng s e).get = none → (eng s e).out = none → exec (.engineStopped e) s = .next (setEng s e { eng s e with st := .stopped })) ∧
  (∀ (b : Eng) (l : Lan) (v : Word) (s s' : State), accept s b false (fAddr fENG_LDGO_ACC l 0) v = some s' → v.getLsbD 2 = true →
    (∀ x, tget (fun _ => none) s'.load l = some x → exec (.loaderGo b l v) s = .next (wrF s' fENG_LDSTAT_WHY 4 l)) ∧
    (tget (fun _ => none) s'.load l = none → ∀ x, x = loadOf s' l (v.toNat % 4) →
      (loadWhy s' l x ≠ 0 → exec (.loaderGo b l v) s =
        .next (wrF (wrF s' fENG_LDSTAT_STATE 3 l) fENG_LDSTAT_WHY (loadWhy s' l x) l)) ∧
      (loadWhy s' l x = 0 → exec (.loaderGo b l v) s = .next
        { wrF (wrF s' fENG_LDSTAT_STATE 1 l) fENG_LDSTAT_WHY 0 l with load := tset (fun _ => none) s'.load l (some x) }))) ∧
  ∀ (l : Lan) (s : State) (x : Load) (bs : List Byte), tget (fun _ => none) s.load l = some x → live s = true → memRuns s = true →
    bs = dramRead s x.src (64 * x.lines) →
    (∀ y, y = extend (loadBytes (countLines s 0 x.src (64 * x.lines) false) l x.target x.emask x.off bs) x.acc (sha384 (nums bs)) → exec (.loaderDone l true) s =
      .next (wrF (wrF { y with load := tset (fun _ => none) y.load l none } fENG_LDSTAT_STATE 2 l) fENG_LDSTAT_WHY 0 l)) ∧
    exec (.loaderDone l false) s =
      .next (sealFault (takeFree s).2 0x400010 (x.src + 64 * ((takeFree s).1 % x.lines)) 0)

/-- For every engine and every instruction of the catalogue: the words that the formats of the chapter build from its OP, FN and operands
run exactly that instruction's meaning, for every register, immediate, condition, offset, target, field, size and quad that the encoding
admits, whatever stands in the word after a one-word instruction and in the fields of POST, COLLECT, WATCH, TIMEAT and WAIT that the chapter
neither uses nor marks as zero (log 37, the model's reading), and whether or not the word it reads holds an uncorrectable error.
[05_bj24_instructions.md] -/
def Obligations.EveryEncodingRunsItsInstruction : Prop :=
  ∀ (e : Eng) (d a b : Reg) (imm : BitVec 10) (w1 : Word) (bad : Bool),
    (∀ p ∈ [(0x00, execAdd), (0x01, execAddc), (0x02, execSub), (0x03, execSubc), (0x04, execAnd), (0x05, execOr), (0x06, execXor),
        (0x07, execAndn), (0x08, execShl), (0x09, execShr), (0x0a, execSar), (0x0b, execRol), (0x0c, execMul), (0x0d, execMulh),
        (0x0e, execMulhu), (0x0f, execDiv), (0x10, execDivu), (0x11, execRem), (0x12, execRemu), (0x13, execMin), (0x14, execMax),
        (0x15, execMinu), (0x16, execMaxu), (0x18, execExtb)],
      bjRun e (encR 0x01 d a b p.1) w1 bad = some (p.2 e d a b)) ∧
    bjRun e (encR 0x01 d a 0 0x17) w1 bad = some (execClz e d a) ∧
    (∀ p ∈ [(0x02, execAddi), (0x03, execAndi), (0x04, execOri), (0x05, execXori), (0x07, execSubi), (0x11, execSt), (0x14, execPld1),
        (0x15, execPld2), (0x16, execPld3), (0x17, execPst1), (0x18, execPst2), (0x19, execPst3)],
      bjRun e (encI p.1 d a imm.toNat) w1 bad = some (p.2 e d a imm)) ∧
    bjRun e (encI 0x10 d a imm.toNat) w1 bad = some (execLd e d a imm bad) ∧
    (∀ (kind : Fin 4) (amt : BitVec 5), bjRun e (encI 0x06 d a (256 * kind + amt.toNat)) w1 bad = some (execShi e d a kind amt)) ∧
    bjRun e (encI 0x08 d 0 0) w1 bad = some (execLdi e d w1) ∧
    (∀ (pos : Fin 24) (wm1 : BitVec 5), bjRun e (encI 0x09 d a (32 * pos + wm1.toNat)) w1 bad = some (execExt e d a pos wm1) ∧
      bjRun e (encI 0x0a d a (32 * pos + wm1.toNat)) w1 bad = some (execIns e d a pos wm1)) ∧
    bjRun e (encR 0x12 d a b 0) w1 bad = some (execXadd e d ⟨a, bad⟩ b) ∧ bjRun e (encR 0x13 d a b 0) w1 bad = some (execCas e d ⟨a, bad⟩ b) ∧
    bjRun e (encR 0x1a 0 0 0 0) w1 bad = some (execTake e) ∧ bjRun e (encR 0x1a 0 0 0 1) w1 bad = some (execSend e) ∧
    bjRun e (encR 0x1a 0 0 0 2) w1 bad = some (execDrop e) ∧ bjRun e (encR 0x1a 0 0 b 3) w1 bad = some (execAdj e b) ∧
    (pairOk a = true → (∀ size : Fin 4, size ≠ 0 → bjRun e (encR 0x20 d a 0 size) w1 bad = some (execFld e d a size) ∧
        bjRun e (encR 0x21 d a 0 size) w1 bad = some (execFst e d a size)) ∧
      (∀ fn : BitVec 6, bjRun e (encR 0x22 0 a b fn.toNat) w1 bad = some (execFbl e a b fn) ∧
        bjRun e (encR 0x23 0 a b fn.toNat) w1 bad = some (execFbs e a b fn)) ∧
      bjRun e (encR 0x3a d a b 0) w1 bad = some (execTimeat e a)) ∧
    bjRun e (encR 0x24 0 0 0 0) w1 bad = some (execFence e) ∧ bjRun e (encR 0x28 0 a b 0) w1 bad = some (execSet e a b) ∧
    bjRun e (encR 0x29 d a 0 0) w1 bad = some (execGet e d a) ∧ bjRun e (encR 0x2a 0 a 0 0) w1 bad = some (execCommit e a) ∧
    (∀ q : Fin 4, bjRun e (encR 0x2c d 0 b q) w1 bad = some (execPost e q b) ∧ bjRun e (encR 0x2d d 0 0 q) w1 bad = some (execCollect e q)) ∧
    (∀ (cond : Fin 19) (off : BitVec 13), bjRun e (wd (0x30 * 262144 + 8192 * cond + off.toNat)) w1 bad = some (execB e cond off)) ∧
    (∀ target : BitVec 15, bjRun e (wd (0x31 * 262144 + target.toNat)) w1 bad = some (execJmp e target) ∧
      bjRun e (wd (0x32 * 262144 + target.toNat)) w1 bad = some (execCall e target)) ∧
    bjRun e (encR 0x33 d a 0 0) w1 bad = some (execJr e d a) ∧
    (∀ fn : BitVec 6, bjRun e (encR 0x38 d a b fn.toNat) w1 bad = some (execWatch e a)) ∧
    (∀ n : BitVec 4, bjRun e (encI 0x39 d 0 n.toNat) w1 bad = some (execWait e n) ∧ bjRun e (encI 0x3c 0 0 n.toNat) w1 bad = some (execTrap e n)) ∧
    bjRun e (encR 0x3a d 0 b 1) w1 bad = some (execTimeatDisarm e) ∧ bjRun e (encR 0x3d 0 0 0 0) w1 bad = some (execRtt e) ∧
    bjRun e (encR 0x3e 0 0 0 0) w1 bad = some (execNop e) ∧ bjRun e (encR 0x3e d 0 0 1) w1 bad = some (execMfl e d) ∧
    bjRun e (encR 0x3e 0 a 0 2) w1 bad = some (execMtfl e a) ∧ bjRun e (encR 0x3e d 0 0 3) w1 bad = some (execMftp e d) ∧
    bjRun e (encR 0x3e 0 a 0 4) w1 bad = some (execMttp e a)

/-- Whatever the word after it: a word 0 is illegal when its OP is not assigned, its FN is not assigned in the ALU, FRM or SYS group, its
COND is 19 to 31, a field that its encoding marks as zero is not, its register pair is odd or zero, or its quad selector lies outside 0 to
3. Word 0x000000 is illegal. [R132] -/
def Obligations.IllegalEncodingsRunNothing : Prop :=
  ∀ (e : Eng) (w w1 : Word) (bad : Bool) (op d a b fn imm : Nat), op = w.toNat / 262144 → d = w.toNat / 16384 % 16 → a = w.toNat / 1024 % 16 →
    b = w.toNat / 64 % 16 → fn = w.toNat % 64 → imm = w.toNat % 1024 →
    (op ∉ [0x01, 0x02, 0x03, 0x04, 0x05, 0x06, 0x07, 0x08, 0x09, 0x0a, 0x10, 0x11, 0x12, 0x13, 0x14, 0x15, 0x16, 0x17, 0x18, 0x19, 0x1a,
        0x20, 0x21, 0x22, 0x23, 0x24, 0x28, 0x29, 0x2a, 0x2c, 0x2d, 0x30, 0x31, 0x32, 0x33, 0x38, 0x39, 0x3a, 0x3c, 0x3d, 0x3e] ∨
      (op = 0x01 ∧ (0x18 < fn ∨ (fn = 0x17 ∧ b ≠ 0))) ∨
      (op = 0x1a ∧ (3 < fn ∨ d ≠ 0 ∨ a ≠ 0 ∨ (fn ≠ 3 ∧ b ≠ 0))) ∨
      (op = 0x3e ∧ (4 < fn ∨ b ≠ 0 ∨ (fn ∈ [0, 2, 4] ∧ d ≠ 0) ∨ (fn ∈ [0, 1, 3] ∧ a ≠ 0))) ∨
      (op = 0x30 ∧ 19 ≤ w.toNat / 8192 % 32) ∨
      (op = 0x06 ∧ imm / 32 % 8 ≠ 0) ∨ (op = 0x08 ∧ (a ≠ 0 ∨ imm ≠ 0)) ∨ ((op = 0x09 ∨ op = 0x0a) ∧ 24 ≤ imm / 32) ∨
      ((op = 0x12 ∨ op = 0x13) ∧ fn ≠ 0) ∨
      ((op = 0x20 ∨ op = 0x21) ∧ (a % 2 = 1 ∨ a = 0 ∨ b ≠ 0 ∨ 4 ≤ fn ∨ fn = 0)) ∨
      ((op = 0x22 ∨ op = 0x23) ∧ (a % 2 = 1 ∨ a = 0 ∨ d ≠ 0)) ∨
      ((op = 0x24 ∨ op = 0x3d) ∧ (d ≠ 0 ∨ a ≠ 0 ∨ b ≠ 0 ∨ fn ≠ 0)) ∨
      (op = 0x28 ∧ (d ≠ 0 ∨ fn ≠ 0)) ∨ ((op = 0x29 ∨ op = 0x33) ∧ (b ≠ 0 ∨ fn ≠ 0)) ∨
      (op = 0x2a ∧ (d ≠ 0 ∨ b ≠ 0 ∨ fn ≠ 0)) ∨
      (op = 0x2c ∧ (a ≠ 0 ∨ 4 ≤ fn)) ∨ (op = 0x2d ∧ (a ≠ 0 ∨ b ≠ 0 ∨ 4 ≤ fn)) ∨
      ((op = 0x31 ∨ op = 0x32) ∧ w.toNat / 32768 % 8 ≠ 0) ∨
      (op = 0x39 ∧ (a ≠ 0 ∨ imm / 16 ≠ 0)) ∨ (op = 0x3c ∧ (d ≠ 0 ∨ a ≠ 0 ∨ imm / 16 ≠ 0)) ∨
      (op = 0x3a ∧ (1 < fn ∨ (fn = 0 ∧ (a % 2 = 1 ∨ a = 0)) ∨ (fn = 1 ∧ a ≠ 0)))) →
    bjRun e w w1 bad = none

/-- The three words of the chapter's example (add g3, g4, g5; b.ne -5; ldi g7, 0x140810) and words for ST, FLD, SET, POST, TRAP and MTTP run
those instructions, and 0x000000 runs none. [05_bj24_instructions.md] -/
def Obligations.WrittenOutWordsDecode : Prop :=
  ∀ e : Eng, bjRun e 0x04d140 0 = some (execAdd e 3 4 5) ∧ bjRun e 0xc05ffb 0 = some (execB e 2 0x1ffb) ∧
    bjRun e 0x21c000 0x140810 = some (execLdi e 7 0x140810) ∧ bjRun e 0b010001_0001_0010_0000000011#24 0 = some (execSt e 1 2 3) ∧
    bjRun e 0b100000_0101_0110_0000_000011#24 0 = some (execFld e 5 6 3) ∧
    bjRun e 0b101000_0000_0111_1000_000000#24 0 = some (execSet e 7 8) ∧
    bjRun e 0b101100_0000_0000_1001_000010#24 0 = some (execPost e 2 9) ∧
    bjRun e 0b111100_0000_0000_0000001011#24 0 = some (execTrap e 11) ∧
    bjRun e 0b111110_0000_1100_0000_000100#24 0 = some (execMttp e 12) ∧ bjRun e 0 0 = none

/-- With the power on: RST_N low for at least 10,000 ns answers the module reset and at step 2 of start-up; low for less than 1,000 ns it
leaves the state as it is; in between the outside's choice decides between exactly these two. [R73] -/
def Obligations.TheResetPulseResetsWholeOrNotAtAll : Prop :=
  ∀ (low : Nat) (takes : Bool) (s : State), s.sys.phase ≠ .off →
    (10000 ≤ low → exec (.rstNReset low takes) s = .next (romStart (resetModule s 2))) ∧
    (low < 1000 → exec (.rstNReset low takes) s = .next s) ∧
    (1000 ≤ low → low < 10000 →
      exec (.rstNReset low true) s = .next (romStart (resetModule s 2)) ∧ exec (.rstNReset low false) s = .next s)

/-- After a power-on with power-good (cold) or an RST_N pulse of 10 us (warm): the stored event records stand as the first records (warm may
append what was buffered), the tag area, its permanent locks, the image slots and the fuses' blown fields as before, and the blown lifecycle
is in force; the committed journal is as before, but that cold adds 60 s to its life counter and 1 to counter 96, its power-ons; every
engine, queue, frame, key slot but slot 0, accumulator, installed association and domain is as after a reset, DRAM, the memory keys and the
letter store are lost, and the halt is left; the waiting commands stay. Warm keeps seconds, nanoseconds and generation of the counter,
HCOUNT, and the candle's state but for what an entry into holdover fixes; cold sets the counter and HCOUNT to reset. [34_start_up.md;
24_time.md; 32_life_records_and_identity.md; 23_keys_and_trust.md; 07_host_interface.md] -/
def Obligations.WhatAResetKeeps : Prop :=
  ∀ (s t : State) (cold : Bool),
    (cold = true → s.sys.phase = .off ∧ ∃ a b, (a || b) = true ∧ exec (.powerOn a b true) s = .next t) →
    (cold = false → s.sys.phase ≠ .off ∧ exec (.rstNReset 10000 false) s = .next t) →
    s.log.recs <+: t.log.recs ∧ (cold = true → t.log.recs = s.log.recs) ∧ t.log.tag = s.log.tag ∧ t.log.lockP = s.log.lockP ∧
    (∀ k, tget (fun _ => 0) t.log.kept k = tget (fun _ => 0) s.log.kept k + (if cold ∧ k = 0 then 60 else if cold ∧ k = 96 then 1 else 0)) ∧
    t.sys.slots = s.sys.slots ∧ FuseGrows s.fuse t.fuse ∧ FuseGrows t.fuse s.fuse ∧ t.fuse.state = s.fuse.blown ∧ t.fuse.op = none ∧
    (∀ e, eng t e = engReset e) ∧ t.qm = State.reset.qm ∧ t.flights = [] ∧ t.key.acc = [] ∧ t.msec = State.reset.msec ∧
    t.flt = State.reset.flt ∧ t.mpe = mpeReset ∧ t.hst.store = [] ∧
    (∀ k, k ≠ 0 → tget (fun _ => none) (t.slots.map fun x => (x.1, some x.2)) k = none) ∧
    t.sys.halted = false ∧ t.sys.phase = .crystal ∧ t.pending = s.pending ∧
    (cold = false → t.time.sec = s.time.sec ∧ t.time.ns = s.time.ns ∧ t.time.gen = s.time.gen ∧
      { t.cndl with y0 := s.cndl.y0, unbound := s.cndl.unbound } = s.cndl ∧ rdF t fFLT_HCOUNT_N = rdF s fFLT_HCOUNT_N) ∧
    (cold = true → t.time = timeReset ∧ rdF t fFLT_HCOUNT_N = 0)

/-- POWER_ON with the power off and a feed at its level resets the module, counts and commits the power-on; with power-good it stands at
step 2, waiting for the crystal with E0 running, else it waits to retry the rails, 62,500,000 ticks after the last try with a feed in range.
At step 3 the crystal's readiness leads to training; 31,250,000 ticks without it count an attempt, and the third leads to the core without
its islands, ALM1 low, event 0x580_013 a fault. DRAM_TRAINED in training with crystal and working random source draws the memory keys and
sets every TRAINOK; with no valid slot left it enters recovery with ALM0 low, and where the first slot tried meets the conditions it goes to
the handover. With E0 stopped the handover loads E0's sections, starts it at keeper level at its entry with the boot message, sets RUN and
raises event 0x040_020. In recovery the oldest host message has its image checked and answered in host postbox 0xF0; an accepted one leads
to the handover. There, and without a crystal, a broadcast of EtherType 0x88B6 leaves. [34_start_up.md; 27_power_states.md;
02_feed_thermal_electrical.md] -/
def Obligations.StartUpRunsItsSteps : Prop :=
  (∀ (a b : Bool) (s x : State), s.sys.phase = .off → (a || b) = true → x = commitJournal (journalAdd (resetModule s 1) 96) →
    exec (.powerOn a b false) s =
      .next { x with sys := { x.sys with feedA := a, feedB := b, phase := .rails, railAt := x.sys.ticks } } ∧
    ∃ t, exec (.powerOn a b true) s = .next t ∧
      t = romStart { x with sys := { x.sys with feedA := a, feedB := b }, cndl := { x.cndl with onAt := x.sys.ticks } } ∧
      t.sys.phase = .crystal ∧ t.sys.crystal = false ∧ t.sys.kind = 1 ∧ t.sys.feedA = a ∧ t.sys.feedB = b ∧
      t.sys.railAt = s.sys.ticks ∧ (eng t 0).st = .running) ∧
  (∀ s : State, s.sys.phase = .rails → (s.sys.feedA || s.sys.feedB) = true → s.sys.railAt + 62500000 ≤ s.sys.ticks →
    exec (.railStartRetry false) s = .next { s with sys := { s.sys with phase := .rails, railAt := s.sys.ticks } } ∧
    ∃ t, exec (.railStartRetry true) s = .next t ∧ t = romStart { s with cndl := { s.cndl with onAt := s.sys.ticks } } ∧
      t.sys.phase = .crystal ∧ t.sys.crystal = false ∧ t.sys.railAt = s.sys.ticks ∧ t.engs = s.engs) ∧
  (∀ s : State, s.sys.phase = .crystal → s.sys.crystal = false →
    (∃ t, exec .crystalReady s = .next t ∧ t = driveMate { s with sys := { s.sys with crystal := true, phase := .training } } ∧
      t.sys.crystal = true ∧ t.sys.phase = .training) ∧
    (s.sys.railAt + 31250000 ≤ s.sys.ticks → s.sys.crystalTries < 2 →
      exec .crystalStartTimeout s =
        .next { s with sys := { s.sys with crystalTries := s.sys.crystalTries + 1, railAt := s.sys.ticks } }) ∧
    (s.sys.railAt + 31250000 ≤ s.sys.ticks → s.sys.crystalTries = 2 → ∀ x,
      x = raiseFault (emit0 { s with sys := { s.sys with crystalTries := 3, railAt := s.sys.ticks } } 0x580013) 0x580013 63 →
      ∃ t, exec .crystalStartTimeout s = .next t ∧
        t = driveMate (recordOnce { x with sys := { x.sys with phase := .noCrystal, alm1 := true } }) ∧
        t.sys.phase = .noCrystal ∧ t.sys.alm1 = true ∧ (∃ v, v ∈ t.log.raised ∧ v.code = 0x580013) ∧
        ∃ f, f ∈ t.flt.raised ∧ f.code = 0x580013)) ∧
  (∀ s x y : State, s.sys.phase = .training → live s = true → s.sys.crystal = true → onF s fKEY_RNGSTAT_READY = true →
    onF s fKEY_RNGSTAT_FAILED = false → x = (List.range 17).foldl drawMemKeys { s with mpe := { s.mpe with keys := true } } →
    y = (List.range 32).foldl (fun s c => trained (wrF s fMEM_CHSTAT_TRAINOK 1 0 c) c) x →
    exec .dramTrained s = .next (trySlots (slotOrder y) (if (imageSlot y 0).valid && (imageSlot y 1).valid then 0 else 15) y) ∧
    (slotOrder y = [] → ∃ t, exec .dramTrained s = .next t ∧ t = enterRecovery y ∧ t.sys.phase = .recovery ∧ t.sys.alm0 = true) ∧
    (∀ k l, slotOrder y = k :: l → imageWhy (deviceWrite y 0 (slotImage y k)) (imageSlot y k).bytes (imageSlot y k).signer
        (imageSlot y k).bytes.length = 0 →
      ∃ t, exec .dramTrained s = .next t ∧ t.sys.phase = .handover ∧ t.sys.slotUsed = k ∧ t.sys.fromHost = false)) ∧
  (∀ s : State, s.sys.phase = .handover → live s = true → (eng s 0).st = .stopped →
    ∃ t, exec .bootHandover s = .next t ∧ t.sys.phase = .running ∧ t.sys.runState = true ∧ (eng t 0).kp = true ∧ (eng t 0).st = .running ∧
      t.imem = (loadImage s true).imem ∧ t.data = (loadImage s true).data ∧
      (∀ entry, e0Entry (loadImage s true) = some entry → (eng t 0).pc = wd entry) ∧
      (∃ v, v ∈ t.log.raised ∧ v.code = 0x040020) ∧
      ∃ m, (eng t 0).box = [⟨m, true, 0⟩] ∧ m.sender = 0xff ∧ m.tag % 4 = s.sys.kind % 4) ∧
  (∀ (signer : List Byte) (s x : State) (p : Place) (l : List Place) (b : List Byte) (why : Nat), s.sys.phase = .recovery → live s = true →
    takeFirst (fun (p : Place) => p.ready && decide (0xf0 ≤ p.msg.sender ∧ p.msg.sender < 0xf8)) (boxOf s 0) = some (p, l) →
    x = setBox s 0 l → b = dramRead x 0 (min (64 * p.msg.w1) 33554432) → why = imageWhy x b signer (min (64 * p.msg.w1) 33554432) →
    ∃ t, exec (.recoveryImageCheck signer) s = .next t ∧
      ((boxOf s 0xf0).length < 16 → ∃ q, q ∈ boxOf t 0xf0 ∧ q.ready = true ∧ q.msg.sender = 0xff ∧ q.msg.tag = why) ∧
      (why = 0 → t.sys.phase = .handover ∧ t.sys.fromHost = true ∧ t.sys.alm0 = false) ∧ (why ≠ 0 → t.sys.phase = .recovery)) ∧
  (∀ s : State, s.sys.phase = .recovery ∨ s.sys.phase = .noCrystal → live s = true → (s.sys.crystal || onF s fCNDL_CSTAT_OSC) = true →
    ∃ t, exec .recoveryBroadcast s = .next t ∧ t.sbus.sent.length = 64 ∧ (t.sbus.sent.drop 12).take 2 = [0x88, 0xb6] ∧
      { t with cnt := s.cnt, sbus := s.sbus } = s)

/-- With the always-on rail up, one feed's loss or return while the other stays in range changes the feed, raises an event and does nothing
else; the loss of the last feed notes its instant, and a return after it ends what the loss began. More than 625,000 ticks after both were
lost a sag of the island rails takes the lane and PON PLL locks, then a DRAM PHY's loss of lock makes the next read fail its seal, event and
fault 0x400_010, then a collapse takes the power off, its feeds absent and its phase off; the loss of the DRAM lock before the sag, and the
collapse before both, leave the state as it is. With a feed in range the loss of a DRAM PHY's lock fails the next read's seal by itself. The
crystal's loss takes the lane and PON PLL locks, drives the mate lines anew and takes the PCIe link down. [02_feed_thermal_electrical.md;
03_self_timed_operation.md; 21_dram_controller.md] -/
def Obligations.FeedsAndCrystalComeAndGo : Prop :=
  (∀ (b : Bool) (s : State), alwaysOn s = true → (if b then s.sys.feedB else s.sys.feedA) = true →
    ((if b then s.sys.feedA else s.sys.feedB) = true →
      exec (.feedLoss b) s = .next (feedEvent { s with sys := { s.sys with feedA := b, feedB := !b } })) ∧
    ((if b then s.sys.feedA else s.sys.feedB) = false →
      exec (.feedLoss b) s = .next { s with sys := { s.sys with feedA := false, feedB := false, lostAt := some s.sys.ticks } })) ∧
  (∀ (b : Bool) (s : State), alwaysOn s = true → (if b then s.sys.feedB else s.sys.feedA) = false →
    ((if b then s.sys.feedA else s.sys.feedB) = true →
      exec (.feedReturn b) s = .next (feedEvent { s with sys := { s.sys with feedA := true, feedB := true, lostAt := none, sag := 0 } })) ∧
    ((if b then s.sys.feedA else s.sys.feedB) = false →
      exec (.feedReturn b) s = .next { s with sys := { s.sys with feedA := !b, feedB := b, lostAt := none, sag := 0 } })) ∧
  (∀ s : State, { feedEvent s with log := s.log, sys := { s.sys with free := (feedEvent s).sys.free } } = s ∧
    (feedEvent s).log.raised.length = s.log.raised.length + 1) ∧
  (∀ (s x : State) (n : Nat), live s = true → s.sys.feedA = false → s.sys.feedB = false → s.sys.lostAt = some n →
    n + 625000 < s.sys.ticks → s.sys.sag = 0 → x = { s with sys := { s.sys with sag := 3 } } →
    exec .islandRailSag s = .next (islandsLost x) ∧ exec .collapse s = .next s ∧
    ∀ c line master, exec (.dramPhyLockLost c line master) s = .next s) ∧
  (∀ (c : Fin 32) (line : Nat) (master : Fin 64) (s x : State), live s = true → s.mpe.keys = true → line < dataSpace →
    ((s.sys.feedA || s.sys.feedB) = true → x = s) → ((s.sys.feedA || s.sys.feedB) = false → s.sys.sag = 3 ∧ x = { s with sys := { s.sys with sag := 4 } }) →
    ∃ t, exec (.dramPhyLockLost c line master) s = .next t ∧ t = sealFault x 0x400010 (line / 64 * 64) master ∧
      (∃ v, v ∈ t.log.raised ∧ v.code = 0x400010) ∧ ∃ f, f ∈ t.flt.raised ∧ f.code = 0x400010 ∧ isHalt f = true) ∧
  (∀ s : State, s.sys.phase ≠ .off → s.sys.sag = 4 → s.sys.feedA = false → s.sys.feedB = false →
    ∃ t, exec .collapse s = .next t ∧ t = powerOff s ∧ t.sys.phase = .off ∧ t.sys.feedA = false ∧ t.sys.feedB = false) ∧
  (∀ s x : State, live s = true → s.sys.crystal = true → x = { s with sys := { s.sys with crystal := false } } →
    ∃ t, exec .crystalLoss s = .next t ∧ execPcieLinkDown (driveMate (islandsLost x)) = .next t ∧ t.sys.crystal = false)

/-- While MEM runs: 1,250,000 ticks after the last, the refresh reports act channel by channel; at normal refresh a report above the upper
limit sets REFX 2 and raises event and fault 0x3C0_013, one above 85 C sets REFX 1 and raises event 0x3C0_011; the first report at or below
after 625,000,000 ticks of such reports sets REFX 0 with event 0x3C0_012. A retraining is due RTINT ms after the channel's last training, or
where the temperature has changed by RTTEMP, or by TRAINNOW; with no channel waiting, noticed or paused, its channel is given notice at
once. 3,125 ticks after the notice and 1,250 after the last pause the channel pauses, which is counted; at the pause's end the held accesses
are counted, the instant is noted as a training, TRAINOK says whether the result held, a failure counts in TFAIL up to 255 with event and
fault 0x3C0_010, and the next channel is given notice. 625,000 ticks after the last, MBW is a new result. [21_dram_controller.md] -/
def Obligations.MemoryIsRefreshedAndRetrained : Prop :=
  (∀ (l : List (BitVec 5 × Fin 3)) (s : State), memRuns s = true → paced s paceRefresh 1250000 = true → l.length = 32 →
    exec (.refreshReportRead l) s = .next (l.zipIdx.foldl (fun s x => refreshReport s x.2 x.1.1 x.1.2) (setPace s paceRefresh))) ∧
  (∀ (s : State) (c : Nat) (code : BitVec 5), c < 32 →
    (rdF s fMEM_CHSTAT_REFX 0 c = 0 →
      (∃ x, refreshReport s c code 2 = raiseFault (emit0 x 0x3c0013) 0x3c0013 13 ∧ rdF x fMEM_CHSTAT_REFX 0 c = 2 ∧
        rdF x fMEM_CHSTAT_REPORT 0 c = code.toNat) ∧
      ∃ x, refreshReport s c code 1 = emit0 x 0x3c0011 ∧ rdF x fMEM_CHSTAT_REFX 0 c = 1 ∧ rdF x fMEM_CHSTAT_REPORT 0 c = code.toNat) ∧
    (rdF s fMEM_CHSTAT_REFX 0 c ≠ 0 → ∀ n, tget (fun _ => none) s.mem.cool c = some n → n + 625000000 ≤ s.sys.ticks →
      ∃ x, refreshReport s c code 0 = emit0 x 0x3c0012 ∧ rdF x fMEM_CHSTAT_REFX 0 c = 0 ∧ rdF x fMEM_CHSTAT_REPORT 0 c = code.toNat)) ∧
  (∀ (c : Fin 32) (deg : Option Nat) (s : State), memRuns s = true →
    (deg = none → tget (fun _ => 0) s.mem.trainedAt c + 625000 * rdF s fMEM_MCFG_RTINT ≤ s.sys.ticks) →
    (∀ d, deg = some d → 0 < rdF s fMEM_MCFG_RTTEMP ∧ rdF s fMEM_MCFG_RTTEMP ≤ d) →
    exec (.retrainDue ⟨c, deg⟩) s = .next (retrainDue s c)) ∧
  (∀ (e : Eng) (c : Fin 32) (v : BitVec 24) (s s' : State), accept s e false (fAddr fMEM_TRAIN_TRAINNOW 0 c) v = some s' →
    memRuns s' = true → v.getLsbD 0 = true → exec (.trainnow e c v) s = .next (retrainDue s' c)) ∧
  (∀ (s : State) (c : Nat), s.mem.due = [] → onF s fMEM_MSTAT_NOTICE = false → onF s fMEM_MSTAT_PAUSE = false → retrainDue s c =
    wrF (wrF { s with mem := { s.mem with due := [], noticeAt := s.sys.ticks } } fMEM_MSTAT_CH c) fMEM_MSTAT_NOTICE 1) ∧
  (∀ s : State, memRuns s = true → onF s fMEM_MSTAT_NOTICE = true → s.mem.noticeAt + 3125 ≤ s.sys.ticks → s.mem.pauseEnd + 1250 ≤ s.sys.ticks →
    exec .retrainPauseStart s =
      .next (count (wrF (wrF s fMEM_MSTAT_NOTICE 0) fMEM_MSTAT_PAUSE 1) 0x0f kMemPause (rdF s fMEM_MSTAT_CH))) ∧
  (∀ (step held : Nat) (s x : State) (ok : Bool) (c : Nat), memRuns s = true → onF s fMEM_MSTAT_PAUSE = true → c = rdF s fMEM_MSTAT_CH →
    x = wrF (count (wrF (trained { s with mem := { s.mem with pauseEnd := s.sys.ticks } } c) fMEM_MSTAT_PAUSE 0) 0x0f kMemHeld c held)
      fMEM_CHSTAT_TRAINOK (b2n ok) 0 c →
    (ok = true → exec (.retrainPauseEnd ok step held) s = .next (nextNotice x)) ∧
    (ok = false → ∀ y, y = count x 0x0f kMemFail c → exec (.retrainPauseEnd ok step held) s =
      .next (nextNotice (raiseFault (emit2 (wrF y fMEM_CHSTAT_TFAIL (min 255 (rdF y fMEM_CHSTAT_TFAIL 0 c + 1)) 0 c) 0x3c0010 c step)
        0x3c0010 13)))) ∧
  ∀ (v : BitVec 24) (s : State), memRuns s = true → paced s paceBandwidth 625000 = true →
    exec (.memBandwidthResult v) s = .next (result (setPace s paceBandwidth) fMEM_MBW_BW v.toNat)

/-- ECC corrections are counted on the line's channel. A seal check of a line that an engine's load has read takes the line off those that
wait, and failing raises the seal fault 0x400_010. While MEM runs and the channel is not in pause, the pair of a single store writes its
bytes, counts line and pair, and the store is written; or its seal fails, fault 0x400_011, and nothing is written. A granule that a waiting
store needs is filled; the background fill makes every granule written and sets DONE. RKGO with GO and a working random source draws new
keys, keeps the old, advances the key generation and starts the re-key of region RKSEL at its first line with STATE 0 and event 0x400_013;
it is refused with STATE 1 where one runs and 2 where the region is not valid. A line re-keyed is counted, with its pair by master 0x12, and
the boundary moves on by a line; an unwritten granule is skipped; past the last line the re-key ends with event 0x400_014; a failed seal is
fault 0x400_012. [22_memory_protection.md] -/
def Obligations.SealsFillsAndRekeys : Prop :=
  (∀ (s : State) (line n : Nat), countFixed s line 0 = s ∧ (0 < n → countFixed s line n = count s 0x10 kMpeFixed (dramChannel line) n)) ∧
  (∀ (e : Eng) (k line fix : Nat) (s : State), live s = true → (eng s e).unchecked.contains (k, line) = true →
    exec (.sealCheck e k line ⟨true, fix⟩) s =
      .next (countFixed (setEng s e { eng s e with unchecked := (eng s e).unchecked.filter fun x => x != (k, line) }) line fix) ∧
    exec (.sealCheck e k line ⟨false, fix⟩) s = .next (sealFault (countFixed s line fix) 0x400010 line (engMaster s e))) ∧
  (∀ (e : Eng) (k fix : Nat) (s x : State) (f : Far), live s = true → memRuns s = true → farHeld s e k = false →
    farTurn (eng s e) k = some f → f.kind = .store → f.written = false → rangeWritten s f.addr f.len = true →
    x = setEng (dramWrite s f.addr f.data) e { eng s e with
      far := (eng s e).far.map fun f => if f.serial == k then { f with written := true } else f } →
    exec (.partialWrite e k ⟨true, fix⟩) s = .next (countFixed (countPair x (engMaster s e) f.addr) f.addr fix) ∧
    exec (.partialWrite e k ⟨false, fix⟩) s =
      .next (sealFault (countFixed s f.addr fix) 0x400011 (f.addr / 64 * 64) (engMaster s e))) ∧
  (∀ (g : Nat) (s : State), live s = true → memRuns s = true → granuleWritten s g = false → fillWanted s g = true →
    exec (.granuleFill g) s = .next (setWritten s g true) ∧ granuleWritten (setWritten s g true) g = true) ∧
  (∀ s : State, live s = true → memRuns s = true → s.mpe.allWritten = false →
    exec .backgroundFillDone s = .next (wrF { s with mpe := { s.mpe with allWritten := true, odd := [] } } fMPE_INIT_DONE 1)) ∧
  (∀ (e : Eng) (v : BitVec 24) (s s' : State) (r : Nat), accept s e false (fAddr fMPE_RKGO_GO 0 0) v = some s' → v.getLsbD 0 = true →
    memRuns s' = true → r = rdF s' fMPE_RKSEL_R →
    ((rekeyOf s' r).isSome = true → exec (.rekeyStart e v) s = .next (result s' fMPE_RKRES_STATE 1)) ∧
    ((rekeyOf s' r).isSome = false → (region s' r).valid = false → exec (.rekeyStart e v) s = .next (result s' fMPE_RKRES_STATE 2)) ∧
    ((rekeyOf s' r).isSome = false → (region s' r).valid = true → onF s' fKEY_RNGSTAT_FAILED = false → ∀ x, x = drawMemKeys { s' with mpe :=
        { s'.mpe with keyGen := tset (fun _ => 0) s'.mpe.keyGen r (tget (fun _ => 0) s'.mpe.keyGen r + 1) } } r →
      exec (.rekeyStart e v) s = .next (emit0 (result
        (setRekey x r (some ⟨(region s' r).base * 65536, tget (fun _ => []) s'.mpe.memKeys r⟩)) fMPE_RKRES_STATE 0) 0x400013))) ∧
  ∀ (r : Fin 16) (s : State) (x : Rekey) (w : Bool) (next fix : Nat), live s = true → memRuns s = true → rekeyOf s r = some x →
    paused s x.line 64 = false → w = granuleWritten s (x.line / 65536) →
    next = (if w then x.line + 64 else (x.line / 65536 + 1) * 65536) →
    (w = true → exec (.rekeyLine r ⟨false, fix⟩) s = .next (sealFault (countFixed s x.line fix) 0x400012 x.line 0x12)) ∧
    ∀ y, y = (if w then count (countPair (countFixed s x.line fix) 0x12 x.line) 0x10 kMpeRekeyed r else s) →
      (next < ((region s r).limit + 1) * 65536 → exec (.rekeyLine r ⟨true, fix⟩) s = .next (setRekey y r (some ⟨next, x.old⟩))) ∧
      (((region s r).limit + 1) * 65536 ≤ next → exec (.rekeyLine r ⟨true, fix⟩) s = .next (emit0 (setRekey y r none) 0x400014))

/-- A unit that accepts a SET of a word without a row of its own writes it: an RW field takes an assigned value at once, a value not
assigned is recorded by event 0x3F_F04 and the field stays, a CM word's shadow takes the value, other fields stay. A GET of USTAT answers
the word with the state that its instance is in, and clears LATE and CMREF. With the link up, a host read of a result slot mapped to a
result word answers VALID, REREAD, the sequence number and the value where the result is ready and sets the read mark (the first read of
RAND makes the next number due), and answers 0 where not ready or not mapped. RMADDR maps slot RMSLOT, 0 unmaps it, and its read mark is
cleared. [06_units_and_results.md; 07_host_interface.md] -/
def Obligations.UnitWordsTakeSetsAndAnswerReads : Prop :=
  (∀ (e : Eng) (a v : Word) (s x : State), accept s e false a.toNat v = some x → ownRow s a.toNat v.toNat = false →
    exec (.unitWordWrite e a v) s = .next (stageWord (writeWord x e a.toNat v.toNat) a.toNat v)) ∧
  (∀ (s : State) (a v : Nat), setNow s a v = ((rwRows a).filter fun r => !r.assigns (uUnit a) (uWord a) v).foldl
    (fun s r => unassigned s a (bitsOf v r.lo r.w)) (wrW s a (wd (setValue s a v)))) ∧
  (∀ (s : State) (a : Nat) (v : Word), wordCM a = true → tget (fun _ => none) (stageWord s a v).ctl.staged a = some v) ∧
  (∀ (e : Eng) (u : UnitI) (n : InstI) (s : State), getReady s e (uaddr u n 2) = true →
    ∃ t, exec (.ustatRead e u n) s = .next t ∧ (eng t e).get = none ∧ (eng t e).nr = false ∧
      rdC t fCOMMON_USTAT_LATE u n = 0 ∧ rdC t fCOMMON_USTAT_CMREF u n = 0 ∧
      (∀ rd a, (eng s e).get = some (rd, a) → rd ≠ 0 → reg (eng t e) rd = wd (putBits (rdW s (uaddr u n 2)).toNat 0 2 (ustat s u n)))) ∧
  (∀ (slot : Fin 4096) (s : State) (a : Nat), hostUp s = true → slotAddr s slot = some a →
    (isReady s a = true → ∃ t, exec (.resultSlotHostRead slot) s = .next t ∧
      t.hst.hostRead = 2 ^ 31 + 2 ^ 30 * b2n (tget (fun _ => false) s.ctl.marks slot) + 2 ^ 24 * tget (fun _ => 0) s.ctl.seq a + (rdW s a).toNat ∧
      tget (fun _ => false) t.ctl.marks slot = true ∧
      t.key.randDue = (s.key.randDue || (a == fAddr fKEY_RAND_R 0 0 && !tget (fun _ => false) s.ctl.marks slot))) ∧
    (isReady s a = false → exec (.resultSlotHostRead slot) s = .next { s with hst := { s.hst with hostRead := 0 } })) ∧
  (∀ (slot : Fin 4096) (s : State), hostUp s = true → slotAddr s slot = none →
    exec (.resultSlotHostRead slot) s = .next { s with hst := { s.hst with hostRead := 0 } }) ∧
  ∀ (e : Eng) (v : Word) (s x : State), accept s e false (fAddr fHST_RMADDR_ADDR 0 0) v = some x →
    ∃ t, exec (.resultSlotMap e v) s = .next t ∧ rdF t fHST_RMADDR_ADDR = v.toNat ∧
      tget (fun _ => none) t.ctl.slots (rdF x fHST_RMSLOT_SLOT) = (if v = 0 then none else some v.toNat) ∧
      tget (fun _ => false) t.ctl.marks (rdF x fHST_RMSLOT_SLOT) = false

/-- An accepted COMMIT disarms an armed commit and snapshots the shadows: CMPEND is set, a pending set that stood before counts in SUPER,
and it applies at once where the commit point is at acceptance or the instance is IDLE. At the commit point a pending set with a word that a
rule refuses sets CMREF, raises event 0x3F_F00 with CMSEQ and the lowest such word, and changes no word of the unit's configuration; else
every word takes its value and CMSEQ advances; a MAC whose commit waited then starts its next frame. ARM with nanoseconds of a second or
more is refused; else the set awaits its instant, and one already past is due at once with LATE and event 0x3F_F01. DISARM gives the armed
commit up and keeps the shadows. An instant reached makes the set due. [06_units_and_results.md] -/
def Obligations.CommitsApplyWholeOrNotAtAll : Prop :=
  (∀ (e : Eng) (u : UnitI) (n : InstI) (s x : State), accept s e true (uaddr u n 0) 0 = some x →
    exec (.commitSnapshot e u n) s = .next (commitAtOnce (disarm (snapshot x u n) u n) u n)) ∧
  (∀ (s : State) (u n : Nat), commitDue s u n = true → atAcceptance u = true ∨ ustat s u n = 0 →
    commitAtOnce s u n = commitNow s u n) ∧
  (∀ (u : UnitI) (n : InstI) (s : State), live s = true → commitDue s u n = true → atPoint s u n = true →
    exec (.commitPoint u n) s = .next (if u.val = 8 then startNext (commitNow s u n) n else commitNow s u n)) ∧
  (∀ (s : State) (u n w : Nat), (refusedWords s (withPending s u n) u n).min? = some w → commitNow s u n =
    emit2 (wrC (clearPend s u n) fCOMMON_USTAT_CMREF u n 1) (u * 2 ^ 18 + 0x3ff00) (rdC s fCOMMON_UCMSEQ_CMSEQ u n) (uaddr u n w)) ∧
  (∀ (s : State) (u n : Nat) (c : State), c = withPending s u n → (refusedWords s c u n).min? = none → commitNow s u n =
    clearPend (applyHook s (wrC c fCOMMON_UCMSEQ_CMSEQ u n (rdC c fCOMMON_UCMSEQ_CMSEQ u n + 1)) u n) u n) ∧
  (∀ (e : Eng) (u : UnitI) (n : InstI) (v : Word) (s x : State), accept s e false (uaddr u n 8) v = some x →
    (v.getLsbD 0 = true → v.getLsbD 1 = false → exec (.scheduledCommitArm e u n v) s = .next (armCommit x u n)) ∧
    (v.getLsbD 1 = true → rdC x fCOMMON_USTAT_ARMED u n = 0 → exec (.scheduledCommitDisarm e u n v) s = .next x) ∧
    (v.getLsbD 1 = true → rdC x fCOMMON_USTAT_ARMED u n ≠ 0 → ∃ y, exec (.scheduledCommitDisarm e u n v) s = .next (clearPend y u n) ∧
      { y with ctl := x.ctl } = x ∧ y.ctl.pend = x.ctl.pend ∧
      ∀ a w, tget (fun _ => none) x.ctl.staged a = some w → tget (fun _ => none) y.ctl.staged a = some w)) ∧
  (∀ (s y : State) (u n : Nat) (t : Nat × Nat), t = armWords s u n →
    (1000000000 ≤ (instantOf t.1 t.2).2 → armCommit s u n = emit2 (wrC s fCOMMON_USTAT_CMREF u n 1) (u * 2 ^ 18 + 0x3ff00)
      (rdC s fCOMMON_UCMSEQ_CMSEQ u n) (uaddr u n 7)) ∧
    ((instantOf t.1 t.2).2 < 1000000000 → y = snapshot s u n → ∀ z, z = wrC { y with ctl := { y.ctl with
        armed := tset (fun _ => none) y.ctl.armed (uaddr u n 0) (some (resolve s t.1 t.2))
        due := tset (fun _ => false) y.ctl.due (uaddr u n 0) false } } fCOMMON_USTAT_ARMED u n 1 →
      (reached z (resolve s t.1 t.2) = false → armCommit s u n = z) ∧
      (reached z (resolve s t.1 t.2) = true → armCommit s u n = commitAtOnce (emit (wrC (setDue z u n) fCOMMON_USTAT_LATE u n 1)
        (u * 2 ^ 18 + 0x3ff01) t.1 t.2 (rdC s fCOMMON_UCMSEQ_CMSEQ u n)) u n))) ∧
  ∀ (u : UnitI) (n : InstI) (s : State) (i : Instant), live s = true → tget (fun _ => none) s.ctl.armed (uaddr u n 0) = some i →
    reached s i = true → tget (fun _ => false) s.ctl.due (uaddr u n 0) = false →
    exec (.scheduledCommitDue u n) s = .next (commitAtOnce (setDue s u n) u n)

/-- A SET of UCTRL with EN 0 to a unit that has a disable clears EN: an ACTIVE instance reads DRAINING, its drain bound counted from this
tick, and a draining one loses REEN; a unit that has none ignores it. EN 1 on an instance whose EN is 0 sets EN and clears UDRAIN's count:
an IDLE instance becomes ACTIVE, a draining one reads REEN; a MAC whose port has no frame mode counts the write and ignores it. A draining
instance that holds no work goes IDLE; overdue, what it still holds is discarded, counted in UDRAIN and the tree and recorded by event
0x3F_F02, and a draining instance that holds no more goes IDLE; there a due commit applies, and with REEN it goes on to ACTIVE.
[06_units_and_results.md] -/
def Obligations.UnitsAreEnabledDrainedAndIdle : Prop :=
  (∀ (e : Eng) (u : UnitI) (n : InstI) (v : Word) (s x y : State), accept s e false (uaddr u n 1) v = some x →
    (v.getLsbD 0 = false → noDisable u = true → exec (.unitDisable e u n v) s = .next x) ∧
    (v.getLsbD 0 = false → noDisable u = false → y = wrC x fCOMMON_UCTRL_EN u n 0 →
      (ustat x u n = 1 → exec (.unitDisable e u n v) s = .next (onDisabled (beginDrain y u n) u n)) ∧
      (ustat x u n = 2 → exec (.unitDisable e u n v) s = .next (wrC y fCOMMON_USTAT_REEN u n 0)) ∧
      (ustat x u n = 0 → exec (.unitDisable e u n v) s = .next y)) ∧
    (v.getLsbD 0 = true → (u.val ≠ 8 ∨ frameMode x n = true) → noDisable u = true ∨ rdC x fCOMMON_UCTRL_EN u n = 1 → exec (.unitEnable e u n v) s = .next x) ∧
    (v.getLsbD 0 = true → u.val = 8 → frameMode x n = false → exec (.unitEnable e u n v) s = .next (count x 8 kMacNoEn n)) ∧
    (v.getLsbD 0 = true → noDisable u = false → rdC x fCOMMON_UCTRL_EN u n = 0 →
      (u.val ≠ 8 ∨ frameMode x n = true → y = wrC (wrC x fCOMMON_UCTRL_EN u n 1) fCOMMON_UDRAIN_DISC u n 0 →
        (ustat x u n = 0 →
          exec (.unitEnable e u n v) s = .next (onActive (wrC y fCOMMON_USTAT_STATE u n 1) u n)) ∧
        (ustat x u n = 2 → exec (.unitEnable e u n v) s = .next (wrC y fCOMMON_USTAT_REEN u n 1))))) ∧
  (∀ (u : UnitI) (n : InstI) (s : State), live s = true →
    (ustat s u n = 2 → holdsWork s u n = false → exec (.drainComplete u n) s = .next (goIdle s u n)) ∧
    (overdue s u n = true → ∀ r k y, discardHeld s u n = (r, k) →
      (k = 0 → y = r) →
      (k ≠ 0 → y = emit1 (count (wrC r fCOMMON_UDRAIN_DISC u n (min 0xffffff (rdC r fCOMMON_UDRAIN_DISC u n + k))) u kDrain n k)
        (u * 2 ^ 18 + 0x3ff02) k) →
      (ustat y u n = 2 → u.val ≠ 3 ∨ holdsWork y u n = false → exec (.drainBoundExpiry u n) s = .next (goIdle y u n)) ∧
      (ustat y u n ≠ 2 ∨ (u.val = 3 ∧ holdsWork y u n = true) → exec (.drainBoundExpiry u n) s = .next y))) ∧
  ∀ (s x y : State) (u n : Nat), y = onIdle (wrC s fCOMMON_USTAT_STATE u n 0) u n →
    x = (if commitDue y u n then commitNow y u n else y) →
    (rdC x fCOMMON_USTAT_REEN u n = 1 → goIdle s u n = goActive (wrC x fCOMMON_USTAT_REEN u n 0) u n) ∧
    (rdC x fCOMMON_USTAT_REEN u n ≠ 1 → goIdle s u n = x)

/-- With the link up and the host open, a start of an IDLE or FAILED chain that is enabled, at an aligned address, sets the chain going
there; any other start is event 0x0C0_010. A letter fetched without OWN stalls the chain; with OWN it is executed, or ends with code 6 for
an unassigned kind or postbox, 7 for a kind not allowed, 4 for a reserved field not zero; a read of host memory that errs ends it with code
1, a poisoned completion noted in AER, while a letter in BAR2's store is what host and module wrote there. A parked chain goes on to NEXT
once LAST reads clear, a stalled one takes its letter once OWN reads set, by re-read or doorbell; a re-read that errs fails the chain.
Resume sends a failed chain on as after any letter, and parks it (model's choice, log 75) where its letter was never read. Clearing EN stops
the chain, a letter in execution first. Writes to chain and postbox registers before the handover or in a halt, or to an offset the window
does not list, are discarded and counted; with the link down a write does nothing. [07_host_interface.md] -/
def Obligations.ChainsFetchStallParkAndResume : Prop :=
  (∀ (n : ChainI) (h l : BitVec 32) (s : State), hostUp s = true → hostOpen s = true →
    ((chain s n).st = 0 ∨ (chain s n).st = 4 → chainOn s n = true → l.toNat % 64 = 0 → exec (.chainStart n h l) s = .next (setChain s n
      { chain s n with st := 1, start := h.toNat, cur := h.toNat * 2 ^ 32 + l.toNat, letter := none, done := 0 })) ∧
    (¬((chain s n).st = 0 ∨ (chain s n).st = 4) ∨ chainOn s n = false ∨ l.toNat % 64 ≠ 0 →
      exec (.chainStart n h l) s = .next (emit2 (setChain s n { chain s n with start := h.toNat }) 0x0c0010 n (chain s n).st))) ∧
  (∀ (n : ChainI) (w : List (BitVec 32)) (cpl : Fin 3) (poison : Bool) (s : State), s.sys.halted = false → hostUp s = true →
    (chain s n).st = 1 → (chain s n).letter = none →
    (inBar2 s (chain s n).cur = false → (cpl ≠ 0 ∨ poison = true →
        exec (.letterFetched n w cpl poison) s = .next (endLetter (noteErr s (readErr cpl poison)) n 1)) ∧
      (cpl = 0 ∧ poison = false → exec (.letterFetched n w cpl poison) s = .next (takeLetter s n (w.map fun x => x.toNat) false))) ∧
    (inBar2 s (chain s n).cur = true → ∀ x l, readLetterAt s (chain s n).cur w = (x, l) →
      exec (.letterFetched n w cpl poison) s = .next (takeLetter x n l true))) ∧
  (∀ (s : State) (a b : Nat), b = s.hst.cfg.bar2.toNat → inBar2 s a = true → readLetterAt s a [] =
      (s, (List.range 16).map fun k => tget (fun _ => 0) s.hst.store ((a - b) / 4 + k)) ∧
    readErr 0 false = 0 ∧ readErr 0 true = 3 ∧ (∀ p, readErr 1 p = 1 ∧ readErr 2 p = 2) ∧ noteErr s 3 = noteAer s 12 ∧ noteErr s 0 = s ∧ noteErr s 1 = s) ∧
  (∀ (s x : State) (n : Nat) (l : List Nat) (i : Bool),
    (lOwn l = false → takeLetter s n l i = setChain s n { chain s n with st := 3, letter := none, inStore := i }) ∧
    (lOwn l = true → x = setChain s n { chain s n with st := 1, letter := some l, done := 0, inStore := i, retry := false } →
      (3 < lKind l ∨ (lKind l = 1 ∧ 0xbf < lw l 4 % 256) → takeLetter s n l i = endLetter x n 6) ∧
      (lKind l ≤ 3 → (lKind l = 1 → lw l 4 % 256 ≤ 0xbf) → ((rdF x fHST_CHCTL_KINDS 0 (2 * n)).testBit (lKind l) = false →
        takeLetter s n l i = endLetter x n 7) ∧ ((rdF x fHST_CHCTL_KINDS 0 (2 * n)).testBit (lKind l) = true →
        (lReserved l = false → takeLetter s n l i = endLetter x n 4) ∧ (lReserved l = true → takeLetter s n l i = x))))) ∧
  (∀ (n : ChainI) (w : List (BitVec 32)) (err : Fin 4) (s x : State) (l : List Nat) (i : Bool), s.sys.halted = false → hostUp s = true →
    i = inBar2 s (chain s n).cur → (i = false → x = s ∧ l = w.map fun x => x.toNat) → (i = true → readLetterAt s (chain s n).cur w = (x, l)) →
    (err ≠ 0 → i = false → (chain s n).st = 2 ∨ (chain s n).st = 3 → exec (.parkedReread n ⟨w, err⟩) s = .next (failRead (noteErr s err) n 1)) ∧
    (err = 0 ∨ i = true →
      ((chain s n).st = 2 → lLast l = false →
        exec (.parkedReread n ⟨w, err⟩) s = .next (setChain x n { chain s n with st := 1, cur := lNext l, letter := none, done := 0 })) ∧
      ((chain s n).st = 2 → lLast l = true → exec (.parkedReread n ⟨w, err⟩) s = .next x) ∧
      ((chain s n).st = 3 → lOwn l = true → exec (.parkedReread n ⟨w, err⟩) s = .next (takeLetter x n l i)) ∧
      ((chain s n).st = 3 → lOwn l = false → exec (.parkedReread n ⟨w, err⟩) s = .next x)) ∧
    ((chain s n).st ≠ 2 → (chain s n).st ≠ 3 → exec (.parkedReread n ⟨w, err⟩) s = .next s) ∧
    (hostOpen s = true → exec (.doorbellRing n ⟨w, err⟩) s = exec (.parkedReread n ⟨w, err⟩) s)) ∧
  (∀ (n : ChainI) (s : State), hostUp s = true → hostOpen s = true → (chain s n).st = 4 → chainOn s n = true →
    (∀ l, (chain s n).letter = some l → exec (.chainResume n) s = .next (if lLast l then setChain s n { chain s n with st := 2, done := 0 }
      else setChain s n { chain s n with st := 1, cur := lNext l, letter := none, done := 0 })) ∧
    ((chain s n).letter = none → exec (.chainResume n) s = .next (setChain s n { chain s n with st := 2, done := 0 }))) ∧
  (∀ (e : Eng) (n : ChainI) (v : Word) (s x y : State), v.getLsbD 0 = false → onF s fHST_CHCTL_EN 0 (2 * n) = true →
    accept s e false (fAddr fHST_CHCTL_EN 0 (2 * n)) v = some x → y = wrW x (fAddr fHST_CHCTL_EN 0 (2 * n)) (v &&& 0xfff) →
    exec (.chainDisable e n v) s = .next (stopChain y n)) ∧
  (∀ (s : State) (n : Nat), ((chain s n).st = 1 → (chain s n).letter.isSome = true →
      stopChain s n = setChain s n { chain s n with st := 5, drainAt := s.sys.ticks }) ∧
    ((chain s n).st = 2 ∨ (chain s n).st = 3 ∨ ((chain s n).st = 1 ∧ (chain s n).letter = none) →
      stopChain s n = setChain s n { chain s n with st := 0, letter := none })) ∧
  (∀ (off : BitVec 20) (s : State), hostUp s = true →
    (windowListed off.toNat = false ∨ (windowCommand off.toNat = true ∧ hostOpen s = false) →
      exec (.bar0WriteDiscarded off) s = .next (count s 3 kHstDiscarded 0)) ∧
    (windowListed off.toNat = true → windowCommand off.toNat = false ∨ hostOpen s = true → exec (.bar0WriteDiscarded off) s = .next s)) ∧
  ∀ (n : ChainI) (h l : BitVec 32) (w : List (BitVec 32)) (err : Fin 4) (off : BitVec 20) (s t : State),
    (hostUp s = false → t = s) → (hostUp s = true → hostOpen s = false ∧ t = count s 3 kHstDiscarded 0) →
    exec (.chainStart n h l) s = .next t ∧ exec (.doorbellRing n ⟨w, err⟩) s = .next t ∧
    exec (.chainResume n) s = .next t ∧ exec (.hostPostboxTake n) s = .next t ∧
    (hostUp s = false → exec (.bar0WriteDiscarded off) s = .next s)

/-- An executing NOP letter ends with code 0. A MSG letter posts its message: accepted it ends with 0, refused it waits to be tried again
once a watch interval, (WATCH + 1) x 0.5 us, has passed, and 1 ms of refusals ends it with 5. READ and WRITE letters that break the format
end with 4, and one that the chain's rights refuse with 3 after the refusal. Else WRITE puts LEN bytes from DRAM in host memory, swapped as
SWAP says, its lines counted, and READ, where the granules are written, puts LEN bytes of the host there, or meets a partial line whose seal
fails, event and fault 0x400_011; completion ends the letter with 0, a read error with 1 and no answer with 2 after the bytes that came. No
answer to a letter's read ends it with 2, and to a re-read fails the chain. The end of a letter writes DONE, the time and the status to the
letter in host memory or in BAR2's store, the last code to CHSTAT, and a code other than 0 fails the chain with event 0x0C0_020 and its
vector. [07_host_interface.md; 22_memory_protection.md] -/
def Obligations.LettersMoveDataAndEndWithACode : Prop :=
  (∀ (n : ChainI) (s : State), executing s n 0 = true → exec (.nopLetter n) s = .next (endLetter s n 0)) ∧
  (∀ (n : ChainI) (s t x y : State) (l : List Nat) (ok : Bool), executing s n 1 = true → (chain s n).letter = some l →
    post s (lw l 4 % 256) ⟨0xf0 + n, lw l 0 / 65536 % 65536, lw l 8 % 2 ^ 24, lw l 9 % 2 ^ 24, lw l 10 % 2 ^ 24⟩ = (t, ok) →
    x = (if (chain t n).retry then t else setPace t (paceFull n)) →
    y = (if ok then endLetter t n 0 else setChain (setPace x (paceRetry n)) n { chain t n with retry := true }) →
    ((chain s n).retry = false → exec (.msgLetter n) s = .next y) ∧
    ((chain s n).retry = true → paced s (paceRetry n) (625 * (rdF s fHST_CHCTL_WATCH 0 (2 * n) + 1) / 2) = true →
      exec (.msgLetterRetry n) s = .next y) ∧
    ((chain s n).retry = true → paced s (paceFull n) 625000 = true → exec (.msgFullTimeout n) s = .next (endLetter s n 5))) ∧
  (∀ (n : ChainI) (s x : State) (l : List Nat) (bytes : List Byte) (err : Fin 4) (bad : Fin 3) (wr : Bool) (c : Instr),
    c = (if wr then .readLetter n bytes ⟨err, bad⟩ else .writeLetter n) → x = (if wr then noteErr s err else s) →
    executing s n (if wr then 2 else 3) = true → (chain s n).letter = some l → (chain s n).done = 0 →
    (dmaFormat l = false → exec c s = .next (endLetter x n 4)) ∧
    (∀ b, dmaFormat l = true → refusedByte x (2 + n) (lFar l) (lLen l) wr = some b →
      exec c s = .next (endLetter (refuse x (2 + n) b wr) n 3))) ∧
  (∀ (n : ChainI) (s : State) (l : List Nat) (bs : List Byte), executing s n 3 = true → (chain s n).letter = some l → (chain s n).done = 0 →
    dmaFormat l = true → refusedByte s (2 + n) (lFar l) (lLen l) false = none → bs = swapBytes (lSwap l) (dramRead s (lFar l) (lLen l)) →
    ∃ t, exec (.writeLetter n) s = .next t ∧ (chain t n).done = lLen l ∧
      (∀ k, k < lLen l → tget (fun _ => 0) t.hst.mem (lHaddr l + k) = bs.getD k 0) ∧
      (∀ a, a < lHaddr l ∨ lHaddr l + lLen l ≤ a → tget (fun _ => 0) t.hst.mem a = tget (fun _ => 0) s.hst.mem a) ∧
      t.cnt = (countLines s (2 + n) (lFar l) (lLen l) false).cnt ∧ { t with hst := s.hst, cnt := s.cnt } = s) ∧
  (∀ (n : ChainI) (s : State) (l : List Nat) (bytes : List Byte) (err : Fin 4) (bad : Fin 3), executing s n 2 = true →
    (chain s n).letter = some l → (chain s n).done = 0 → dmaFormat l = true → refusedByte s (2 + n) (lFar l) (lLen l) true = none →
    (∀ a, lFar l ≤ a → a < lFar l + lLen l → granuleWritten s (a / 65536) = true) →
    (lLen l ≤ bytes.length → bad = 0 ∨ (partLines (lFar l) (lLen l))[bad.val - 1]? = none →
      ∃ t, exec (.readLetter n bytes ⟨0, bad⟩) s = .next t ∧ (chain t n).done = lLen l ∧ (chain t n).st = (chain s n).st ∧
        (∀ k, k < lLen l → dramB t (lFar l + k) = (swapBytes (lSwap l) (bytes.take (lLen l))).getD k 0) ∧
        ∀ a, a < lFar l ∨ lFar l + lLen l ≤ a → dramB t a = dramB s a) ∧
    (∀ line, bad ≠ 0 → (partLines (lFar l) (lLen l))[bad.val - 1]? = some line →
      ∃ t, exec (.readLetter n bytes ⟨0, bad⟩) s = .next t ∧ (∃ v, v ∈ t.log.raised ∧ v.code = 0x400011) ∧
        (∃ f, f ∈ t.flt.raised ∧ f.code = 0x400011) ∧ ∀ a, a < lFar l ∨ line * 64 ≤ a → dramB t a = dramB s a) ∧
    (∀ (c : Instr) (code : Nat), (c = .readLetter n bytes ⟨err, 0⟩ ∧ err ≠ 0 ∧ code = 1) ∨ (c = .completionTimeout ⟨n, bytes⟩ ∧ code = 2) →
      ∃ u, exec c s = .next (endLetter u n code) ∧ (chain u n).done ≤ lLen l - 1 ∧ (chain u n).letter = some l ∧
        ∀ a, a < lFar l ∨ lFar l + lLen l ≤ a → dramB u a = dramB s a)) ∧
  (∀ (n : ChainI) (s : State) (l : List Nat), (chain s n).letter = some l → executing s n 2 = true ∨ executing s n 3 = true →
    (chain s n).done = lLen l → lLen l ≠ 0 → exec (.dmaComplete n) s = .next (endLetter s n 0)) ∧
  (∀ (n : ChainI) (bytes : List Byte) (s : State), s.sys.halted = false → hostUp s = true → inBar2 s (chain s n).cur = false →
    ((chain s n).st = 1 → (chain s n).letter = none → exec (.completionTimeout ⟨n, bytes⟩) s = .next (endLetter (noteAer s 14) n 2)) ∧
    ((chain s n).st = 2 ∨ (chain s n).st = 3 → exec (.completionTimeout ⟨n, bytes⟩) s = .next (failRead (noteAer s 14) n 2))) ∧
  (∀ (s x : State) (n code : Nat) (c : Chain), c = chain s n → code ≠ 0 →
    x = wrF (if c.letter.isSome then writeStatus s c.inStore c.cur c.done code else s) fHST_CHSTAT_LASTCODE code 0 (2 * n) →
    endLetter s n code = signal (emit (setChain x n { c with
      letters := (if c.letter.isSome then (c.letters + 1) % 2 ^ 32 else c.letters), retry := false, st := 4 })
      0x0c0020 n code c.done) n ∧
    failRead s n code = signal (emit (setChain (wrF s fHST_CHSTAT_LASTCODE code 0 (2 * n)) n { c with st := 4 }) 0x0c0020 n code 0) n) ∧
  ∀ (s : State) (i : Bool) (a b done code : Nat) (f : State → Nat → Nat),
    (i = false → a % 4 = 0 ∧ b = a / 4 ∧ f = fun s k => tget (fun _ => 0) s.hst.bus k) →
    (i = true → s.hst.cfg.bar2.toNat ≤ a ∧ (a - s.hst.cfg.bar2.toNat) % 4 = 0 ∧ b = (a - s.hst.cfg.bar2.toNat) / 4 ∧
      f = fun s k => tget (fun _ => 0) s.hst.store k) →
    ∀ k, f (writeStatus s i a done code) k =
      if k = b + 15 then code + (if code = 0 then 0 else 2 ^ 30) else if k = b + 14 then s.time.gen
      else if k = b + 13 then s.time.ns else if k = b + 12 then s.time.sec % 2 ^ 24 else if k = b + 11 then done else f s k

/-- A host postbox take removes the oldest collectable message and signals again where messages are left. In D0, a vector without MSI-X
enabled is not sent, masked it is pending, within its holdoff held, else its entry's address and data are sent and its holdoff begins; the
holdoff's end, IRQHOLD us after, sends a held one. The host's write of a table entry, MSI-X Enable and Function Mask sends each pending
vector that nothing masks any more. The link's fall ends letters being read or executed with code 9, but in a halt, takes the rate to 0 and
raises event 0x0C0_030 as a class L fault of the host domain; its rise sets rate, width and the function's configuration. A read of LINK
answers rate, width and FLR and clears FLR. The function-level reset clears the MSI-X table and read marks and sets FLR; outside a halt it
stops every chain of an ACTIVE HST, which drains with REEN where a letter executes, and makes an IDLE one ACTIVE. [07_host_interface.md] -/
def Obligations.TheHostLinkSignalsAndResets : Prop :=
  (∀ (n : ChainI) (s x : State) (p : Place) (l : List Place), hostUp s = true → hostOpen s = true →
    takeFirst (fun p => p.ready) (boxOf s (0xf0 + n)) = some (p, l) →
    x = setBox s (0xf0 + n) l → exec (.hostPostboxTake n) s = .next (if 0 < ready x (0xf0 + n) then signal x (8 + n) else x)) ∧
  (∀ (s : State) (v : Nat), (s.hst.msixOn = false ∨ s.hst.cfg.d3hot = true → signal s v = s) ∧
    (s.hst.msixOn = true → s.hst.cfg.d3hot = false →
      (s.hst.fmask = true ∨ tget (fun _ => false) s.hst.unmasked v = false →
        signal s v = { s with hst := { s.hst with msixPend := tset (fun _ => false) s.hst.msixPend v true } }) ∧
      (s.hst.fmask = false → tget (fun _ => false) s.hst.unmasked v = true →
        (tget (fun _ => false) s.hst.holdoff v = true →
          signal s v = { s with hst := { s.hst with held := tset (fun _ => false) s.hst.held v true } }) ∧
        (tget (fun _ => false) s.hst.holdoff v = false → ∃ t, signal s v = t ∧
          tget (fun _ => 0) t.hst.sent v = tget (fun _ => 0) s.hst.sent v + 1 ∧
          t.hst.msg = some (tget (fun _ => 0) s.hst.table (4 * v + 1) * 2 ^ 32 + tget (fun _ => 0) s.hst.table (4 * v),
            tget (fun _ => 0) s.hst.table (4 * v + 2)) ∧
          tget (fun _ => false) t.hst.holdoff v = (rdF s fHST_IRQHOLD_US != 0))))) ∧
  (∀ (v : Fin 32) (s x : State), tget (fun _ => false) s.hst.holdoff v = true → paced s (paceIrq v) (625 * rdF s fHST_IRQHOLD_US) = true →
    x = { s with hst := { s.hst with
      holdoff := tset (fun _ => false) s.hst.holdoff v false, held := tset (fun _ => false) s.hst.held v false } } →
    exec (.irqHoldoffExpiry v) s = .next (if tget (fun _ => false) s.hst.held v then signal x v else x)) ∧
  (∀ (v : Fin 32) (addr : BitVec 64) (data : BitVec 32) (mask en fm : Bool) (s : State), hostUp s = true →
    ∃ t, exec (.msixUnmask ⟨v, addr, data, mask⟩ ⟨en, fm⟩) s = .next t ∧ t.hst.msixOn = en ∧ t.hst.fmask = fm ∧
      t.hst.unmasked = tset (fun _ => false) s.hst.unmasked v (!mask) ∧
      tget (fun _ => 0) t.hst.table (4 * v) = addr.toNat % 2 ^ 32 ∧ tget (fun _ => 0) t.hst.table (4 * v + 1) = addr.toNat / 2 ^ 32 ∧
      tget (fun _ => 0) t.hst.table (4 * v + 2) = data.toNat ∧
      (∀ k, k < 32 → ∀ go : Bool, go = (en && !fm && tget (fun _ => false) t.hst.unmasked k && tget (fun _ => false) s.hst.msixPend k) →
        tget (fun _ => false) t.hst.msixPend k = (tget (fun _ => false) s.hst.msixPend k && !go) ∧
        tget (fun _ => 0) t.hst.sent k = tget (fun _ => 0) s.hst.sent k + (if go && !tget (fun _ => false) s.hst.holdoff k then 1 else 0)) ∧
      { t with hst := s.hst, sys := { t.sys with pace := s.sys.pace } } = s) ∧
  (∀ s : State, s.hst.rate ≠ 0 → ∃ x, exec .pcieLinkDown s = .next (raiseFault (emit0 x 0x0c0030) 0x0c0030 40) ∧
    x.hst.rate = 0 ∧ x.hst.width = 0 ∧ ∀ n, n < 8 → (chain x n).st =
      if s.sys.halted = false ∧ ((chain s n).st = 1 ∨ (chain s n).st = 5) then 4 else (chain s n).st) ∧
  (∀ (rate : Fin 6) (width : Fin 5) (cfg : PcieCfg) (s : State), s.sys.phase ≠ .off → s.sys.phase ≠ .rails → s.sys.phase ≠ .asleep →
    s.sys.crystal = true → rate ≠ 0 → width ≠ 0 → width ≠ 3 →
    exec (.pcieLinkUp ⟨rate, width⟩ cfg) s = .next { s with hst := { s.hst with
      rate := rate, width := width, cfg := cfg, aer := s.hst.aer - (s.hst.aer &&& cfg.aerClear.toNat) } }) ∧
  (∀ (e : Eng) (s : State) (rd : Nat), (eng s e).get = some (rd, fAddr fHST_LINK_RATE 0 0) → getReady s e (fAddr fHST_LINK_RATE 0 0) = true →
    rd ≠ 0 → s.hst.rate < 8 → s.hst.width < 8 →
    ∃ t, exec (.linkRead e) s = .next t ∧ rdF t fHST_LINK_FLR = 0 ∧
      (reg (eng t e) rd).toNat % 8 = s.hst.rate ∧ (reg (eng t e) rd).toNat / 8 % 8 = s.hst.width ∧
      (reg (eng t e) rd).getLsbD 6 = onF s fHST_LINK_FLR) ∧
  ∀ s x : State, s.hst.rate ≠ 0 → x = (List.range 8).foldl stopChain s → ∃ t, exec .functionLevelReset s = .next t ∧
    t.hst.unmasked = [] ∧ t.hst.table = [] ∧ t.hst.msixPend = [] ∧ t.hst.msixOn = false ∧ t.ctl.marks = [] ∧ onF t fHST_LINK_FLR = true ∧
    (∀ n, n < 8 → chain t n = if s.sys.halted = false ∧ ustat s 3 0 = 1 then chain x n else chain s n) ∧
    (s.sys.halted = false → ustat s 3 0 = 1 → (∃ n, n < 8 ∧ (chain x n).st = 5) →
      rdC t fCOMMON_USTAT_STATE 3 0 = 2 ∧ rdC t fCOMMON_USTAT_REEN 3 0 = 1) ∧
    (s.sys.halted = false → ustat s 3 0 = 0 → rdC t fCOMMON_USTAT_STATE 3 0 = 1 ∧ rdC t fCOMMON_UCTRL_EN 3 0 = 1)

/-- An accepted SET of OBJGO acts by its lowest request bit. QUERY reports the object's placement, whether it moves and its hints, STATE 3
for one that does not exist. HINT sets the object's hints. MOVE is reported done where the placement is in force, refused with STATE 3 where
PLC is disabled, the object does not exist, moves already or has no placement, its target does not fit, or 16 moves of flows and buckets
run; a queue changes its group at once, counted, and a flow, bucket or context sets out. PICK returns and reserves the least busy stopped
engine of the pool that is not reserved, one of lantern 0 with hint NEAR where there is one, and STATE 3 with none; the reservation ends
6,250,000 ticks later. A move whose source holds nothing of the object leaves the running moves, its fenced frames go to the target, the map
names the target, and it is noted and a requested one reported; TIMEOUT times 10 us after its start it reverts with cause 1. A context newly
installed or of the first rank enters the store while it has room, else in place of the resident context of lowest precedence where R215
ranks it above. A context whose move waits enters the store where it is admitted, leaves it where it may, and else the move ends refused. A
balance epoch, (E + 1) x 10 us after the last, moves stray flows and makes the automatic moves that the rules let it, none in the first
epoch after a change of role; crowded, it raises event 0x080_012 with the receive contexts held out. [08_placement.md] -/
def Obligations.PlacementMovesObjects : Prop :=
  (∀ (e : Eng) (v : Word) (s x : State) (kind index : Nat), accept s e false (fAddr fPLC_OBJGO_QUERY 0 0) v = some x →
    kind = rdF x fPLC_OBJKIND_KIND → index = rdF x fPLC_OBJIDX_INDEX →
    (v.getLsbD 0 = true → objExists kind index = true →
      exec (.plcQuery e v) s = .next (reportObj x kind index (b2n (moveOf x kind index).isSome))) ∧
    (v.getLsbD 0 = true → objExists kind index = false → exec (.plcQuery e v) s = .next (reportObj x kind index 3)) ∧
    (v.getLsbD 0 = false → v.getLsbD 1 = true → exec (.plcMove e v) s = .next (askMove x)) ∧
    (v.getLsbD 0 = false → v.getLsbD 1 = false → v.getLsbD 2 = true → exec (.plcHint e v) s = .next { x with plc := { x.plc with
      hints := tset (fun _ => 0) x.plc.hints (objKey kind index)
        (rdF x fPLC_OBJHINT_PIN + 2 * rdF x fPLC_OBJHINT_CRIT + 4 * rdF x fPLC_OBJHINT_NEAR) } })) ∧
  (∀ (s : State) (kind index target : Nat), kind = rdF s fPLC_OBJKIND_KIND → index = rdF s fPLC_OBJIDX_INDEX →
    target = rdF s fPLC_OBJTGT_TARGET →
    (active s 2 0 = false ∨ objExists kind index = false ∨ (moveOf s kind index).isSome = true → askMove s = reportObj s kind index 3) ∧
    (active s 2 0 = true → objExists kind index = true → moveOf s kind index = none →
      (placeOf s kind index = some target → askMove s = reportObj s kind index 0) ∧
      (placeOf s kind index ≠ some target → targetOk s kind index target = false ∨ (kind < 2 ∧ 16 ≤ runningMoves s) →
        askMove s = reportObj s kind index 3) ∧
      (placeOf s kind index ≠ some target → targetOk s kind index target = true → kind = 2 →
        askMove s = reportObj (noteMoved (setPlace s 2 index target) 2 index true) 2 index 0) ∧
      (placeOf s kind index = none → askMove s = reportObj s kind index 3) ∧
      (∀ p, placeOf s kind index = some p → p ≠ target → targetOk s kind index target = true → kind ≠ 2 →
        ¬(kind < 2 ∧ 16 ≤ runningMoves s) → askMove s = startMove s kind index p target true))) ∧
  (∀ (e least : Eng) (v : Word) (s x : State) (l : List Nat), accept s e false (fAddr fPLC_OBJGO_QUERY 0 0) v = some x →
    v.getLsbD 0 = false → v.getLsbD 1 = false → v.getLsbD 2 = false → v.getLsbD 3 = true → rdF s fPLC_OBJKIND_KIND = 4 →
    rdF s fPLC_OBJIDX_INDEX < 64 → active s 2 0 = true → l = (List.range 192).filter (fun k => mayPick s (rdF s fPLC_OBJIDX_INDEX) k) →
    (l = [] → exec (.plcPick e v least) s = .next (reportObj x 4 (rdF s fPLC_OBJIDX_INDEX) 3)) ∧
    (least.val ∈ l → ((hintsOf s 4 (rdF s fPLC_OBJIDX_INDEX)).testBit 2 = true → (∃ k ∈ l, k < 8) → least.val < 8) →
      exec (.plcPick e v least) s = .next (objRes { x with plc := { x.plc with picked := tset (fun _ => none) x.plc.picked least (some x.sys.ticks) } } least 0
        (hintsOf x 4 (rdF s fPLC_OBJIDX_INDEX))))) ∧
  (∀ (k : Eng) (s : State) (n : Nat), live s = true → tget (fun _ => none) s.plc.picked k = some n → n + 6250000 ≤ s.sys.ticks →
    exec (.pickReservationExpiry k) s = .next { s with plc := { s.plc with picked := tset (fun _ => none) s.plc.picked k none } }) ∧
  (∀ (kind : Fin 2) (index : Fin 131072) (s x y : State) (m : Move), moveOf s kind index = some m → live s = true →
    (drained s m = true → x = { s with plc := { s.plc with moves := s.plc.moves.filter fun k => !(k.kind == m.kind && k.index == m.index) } } →
      y = noteMoved (setPlace (releaseFence x m m.target) m.kind m.index m.target) m.kind m.index m.asked →
      exec (.moveDrainComplete kind index) s = .next (if m.asked then reportObj y m.kind m.index 0 else y)) ∧
    (m.at_ + rdF s fPLC_MOVECTL_TIMEOUT * 6250 ≤ s.sys.ticks → exec (.moveTimeout kind index) s = .next (revertMove s m 1))) ∧
  (∀ (s x : State) (kind index : Nat) (b : Bool), x = count s 2 kPlcMoved kind → noteMoved s kind index b =
    if b then x else { x with plc := { x.plc with moved := tset (fun _ => 0) x.plc.moved (objKey kind index) (x.sys.ticks + 1) } }) ∧
  (∀ (c : Fin 4096) (s y : State) (x x' : Sa), saCtx s c = some x → live s = true → active s 2 0 = true → x.resident = false →
    (x.fresh || firstRank s x) = true → x' = { x with fresh := false } → y = setSa s c (some x') →
    (residents y < storeSize → exec (.contextResident c) s = .next (setResident y c true)) ∧
    (storeSize ≤ residents y → ∀ k z, lowestResident y = some k → saCtx y k = some z →
      (firstRank y x' = true ∨ rankOf y k z < rankOf y c x' →
        exec (.contextResident c) s = .next (setResident (setResident y k false) c true)) ∧
      (firstRank y x' = false → rankOf y c x' ≤ rankOf y k z → exec (.contextResident c) s = .next y))) ∧
  (∀ (c : Fin 4096) (s : State) (m : Move) (b : Bool), live s = true → saMove s c = some m → m.target = b2n b →
    (saCtx s c = none → exec (.contextMove c b) s = .next (endSaMove s c 3)) ∧
    (∀ x, saCtx s c = some x → (b = true → exec (.contextMove c b) s = .next (endSaMove (bringIn s c x) c 3)) ∧
      (b = false → mayLeave s c x m.asked = true → exec (.contextMove c b) s = .next (setResident s c false)) ∧
      (b = false → mayLeave s c x m.asked = false → exec (.contextMove c b) s = .next (endSaMove s c 3)))) ∧
  (∀ (s y z : State) (k : Nat) (b : Bool) (x : Sa), saCtx s k = some x → y = setSa s k (some { x with resident := b }) →
    z = (if (saMove y k).any fun m => m.target == b2n b then endSaMove y k 0 else y) →
    setResident s k b = if b && x.tx then trySwitch z x.ch else z) ∧
  ∀ (out back bw : List Nat) (wants : List (Fin 4 × Fin 131072 × Fin 256)) (s x y z : State), live s = true → active s 2 0 = true → bw = List.zipWith (· + ·) out back →
    s.plc.epochAt + (rdF s fPLC_EPOCH_E + 1) * 6250 ≤ s.sys.ticks →
    x = { s with plc := { s.plc with epochAt := s.sys.ticks, still := s.plc.still || s.pwr.run.isSome } } →
    (s.pair.quiet = true → y = { x with pair := { x.pair with quiet := false } }) →
    (s.pair.quiet = false → y = wants.foldl (autoMove bw) (if x.plc.still then x else (strayFlows x).foldl moveOut x)) →
    z = { y with plc := { y.plc with still := false } } →
    exec (.balanceEpoch out back wants) s = .next (if crowded z then emit1 z 0x080012 (heldOut z) else z)

/-- Light lost sets LOS, clears RXREADY, is event 0x100_013 and takes the channel's synchronisation; light back clears LOS in an ACTIVE
slot, where the receiver and laser become ready, the laser's readiness beginning the count of bursts; after a burst the loop locks between
bursts unless CALHOLD holds it; WLOCK clears with event 0x100_012 after 625,000,000 ticks without light, or with CALHOLD after bursts. A CUT
cuts the slot with CUTWHY 1, a watchdog cut with 2 to 4, counted, event 0x100_010, a class F fault; the watchdog sees a burst beyond its
grant and 64 ns, one beyond 125 us, or light of more than 64 ns with no burst open. CUTWHY shows the highest cause and the open burst ends.
CLR clears a cut whose condition no longer holds, never CUTWHY 5. Watchful sleep switches the receiver. Monitoring results become ready
unless the slot is IDLE, RXPWR 0x800_000 under LOS. [09_pon_optics.md; 10_pon_convergence.md] -/
def Obligations.OpticsLightLatchAndMonitor : Prop :=
  (∀ (c : Chan) (s : State), live s = true →
    (onF s fOPT_OSTAT_LOS c = false → exec (.losSet c) s =
      .next (lods (emit1 (wrF (wrF s fOPT_OSTAT_LOS 1 c) fOPT_OSTAT_RXREADY 0 c) 0x100013 c) c)) ∧
    (active s 4 c = true →
      exec (.losClear c) s = .next (wrF s fOPT_OSTAT_LOS 0 c) ∧
      exec (.txReady c) s = .next (setPon (wrF s fOPT_OSTAT_TXREADY 1 c) c { ponCh s c with bursts := 0, light := 0, lightAt := s.sys.ticks }) ∧
      (onF s fOPT_OSTAT_LOS c = false → exec (.rxReady c) s = .next (wrF s fOPT_OSTAT_RXREADY 1 c)) ∧
      (onF s fOPT_OSTAT_TXREADY c = true → (ponCh s c).bursts ≠ 0 → (ponCh s c).burst = none → onF s fOPT_OCAL_CALHOLD c = false →
        exec (.wlockSet c) s = .next (wrF s fOPT_OSTAT_WLOCK 1 c)) ∧
      (onF s fOPT_OCAL_CALHOLD c = true → exec (.wlockSet c) s = .next s) ∧
      (∀ on, rdF s fPON_CHSTAT_PSM c = 2 → exec (.watchfulSleepReceiverCycle c on) s =
        .next (wrF s fOPT_OSTAT_RXREADY (b2n (on && !onF s fOPT_OSTAT_LOS c)) c))) ∧
    (onF s fOPT_OSTAT_WLOCK c = true → ((ponCh s c).burst = none ∧ (ponCh s c).lightAt + 625000000 ≤ s.sys.ticks) ∨
        (onF s fOPT_OCAL_CALHOLD c = true ∧ (ponCh s c).bursts ≠ 0) →
      exec (.wlockClear c) s = .next (setPon (emit0 (wrF s fOPT_OSTAT_WLOCK 0 c) 0x100012) c { ponCh s c with bursts := 0, light := 0 }))) ∧
  (∀ (e : Eng) (c : Chan) (v : Word) (holds : Bool) (s x : State), accept s e false (fAddr fOPT_OLATCH_CUT c 0) v = some x →
    (v.getLsbD 0 = true → exec (.laserCut e c v) s = .next (cutLaser x c 1)) ∧
    (v.getLsbD 0 = false → v.getLsbD 1 = true →
      (holds = false → rdF x fOPT_OSTAT_CUTWHY c ≠ 5 →
        exec (.laserCutClear e c v holds) s = .next (wrF (wrF x fOPT_OSTAT_CUT 0 c) fOPT_OSTAT_CUTWHY 0 c)) ∧
      (holds = true ∨ rdF x fOPT_OSTAT_CUTWHY c = 5 → exec (.laserCutClear e c v holds) s = .next x))) ∧
  (∀ (c : Chan) (why : Nat) (s : State), why < 8 → onF (cutLaser s c why) fOPT_OSTAT_CUT c = true ∧
    rdF (cutLaser s c why) fOPT_OSTAT_CUTWHY c = max why (rdF s fOPT_OSTAT_CUTWHY c) ∧ (ponCh (cutLaser s c why) c).burst = none) ∧
  (∀ (c : Chan) (why : Fin 3) (ns rate : Nat) (s x : State), live s = true → rate = (if onF s fOPT_OCFG_RATE c then 62208 else 31104) →
    (why = 0 → ∃ b, ((ponCh s c).burst = some b ∨ ((ponCh s c).burst = none ∧ (ponCh s c).last = some b)) ∧
      640000 + b.grant.len * 100000000 / rate ≤ ns * 10000) →
    (why = 1 → 125000 < ns ∧ ((ponCh s c).burst.isSome || (ponCh s c).last.isSome) = true) →
    (why = 2 → (ponCh s c).burst = none ∧ 64 < ns) → x = cutLaser s c (why + 2) →
    exec (.watchdogCut c why ns) s = .next (raiseFault (emit (wrF x fOPT_OCUTS_CUTS (min (rdF x fOPT_OCUTS_CUTS c + 1) 0xffffff) c)
      0x100010 c (why + 2) ns) 0x100010 c)) ∧
  ∀ (c : Chan) (power temp apd p i d : Word) (s x : State), live s = true → ustat s 4 c ≠ 0 →
    x = result (result (result s fOPT_RXPWR_P (if onF s fOPT_OSTAT_LOS c then 0x800000 else power.toNat) c) fOPT_LTEMP_T temp.toNat c)
      fOPT_APDV_V apd.toNat c →
    exec (.optMonitorResult c power temp apd none) s = .next x ∧ exec (.optMonitorResult c power temp apd (some (p, i, d))) s =
      .next (result (result (result x fOPT_TXPWR_P p.toNat c) fOPT_BIAS_I i.toNat c) fOPT_WLOFF_D d.toNat c)

/-- With light, a ready receiver and its PLL, a channel that is not IDLE takes a downstream frame: the second PSBd in a row locks it; an
ACTSET value waits for the frame boundary and values not assigned are refused; on a locked channel the frame's items are taken in order.
Missed PSBds clear LOCK and set LODS, breaking open fragment chains and disarming a capture, a channel in O5 going to O6, a fault; O6 begins
its hold of O6HOLD ms with event 0x140_010; the hold's expiry goes to O1 with event and fault 0x140_015. The framer PLL's loss takes the
lock and is event and fault 0x140_016. While PON is ACTIVE, an XGEM frame of an unknown port-ID, or whole under an unusable key, is counted;
a PLOAM to this ONU or to all goes to the agent, one whose MIC fails is counted with event 0x140_012; a grant of an own allocation in O5
waits for its burst. [10_pon_convergence.md] -/
def Obligations.PonChannelsLockActivateAndReceive : Prop :=
  (∀ (c : Chan) (n : Nat) (items : List PonItem) (s x y : State), live s = true → ustat s 5 c ≠ 0 → ustat s 5 c ≠ 3 →
    onF s fOPT_OSTAT_LOS c = false → onF s fOPT_OSTAT_RXREADY c = true → (ponCh s c).pllLost = false →
    x = swapChannel (psbdSeen (setPon s c { ponCh s c with super := n }) c) c → y = (match (ponCh x c).act with | some a => setAct x c a | none => x) →
    (onF y fPON_CHSTAT_LOCK c = false → exec (.downstreamFrame c n items) s = .next y) ∧
    (onF y fPON_CHSTAT_LOCK c = true → ∀ z, z = items.foldl (itemIn c) (captureSfc y c n) →
      exec (.downstreamFrame c n items) s = .next (tribFrameEnd z c (onF z fPON_CHSTAT_LOCK c && onF z fPON_CHSTAT_OPER c)))) ∧
  (∀ (c : Nat) (s : State), onF s fPON_CHSTAT_LOCK c = false → actst s c ≠ 6 →
    ((ponCh s c).seen = 0 → onF (psbdSeen s c) fPON_CHSTAT_LOCK c = false) ∧
    ((ponCh s c).seen = 1 → onF (psbdSeen s c) fPON_CHSTAT_LOCK c = true ∧ onF (psbdSeen s c) fPON_CHSTAT_LODS c = false)) ∧
  (∀ (e : Eng) (c : Chan) (v : Word) (s x : State), accept s e false (fAddr fPON_ACTSET_STATE c 0) v = some x →
    (1 ≤ v.toNat % 16 → v.toNat % 16 ≤ 9 → v.toNat % 16 ≠ 3 →
      exec (.actset e c v) s = .next (setPon x c { ponCh x c with act := some (v.toNat % 16) })) ∧
    (v.toNat % 16 = 0 ∨ 9 < v.toNat % 16 ∨ v.toNat % 16 = 3 →
      exec (.actset e c v) s = .next (unassigned x (fAddr fPON_ACTSET_STATE c 0) (v.toNat % 16)))) ∧
  (∀ (c : Chan) (s x y z : State), live s = true →
    exec (.psbdMissed c) s = .next (lods s c) ∧
    (onF s fPON_CHSTAT_LOCK c = false → lods s c = setPon s c { ponCh s c with seen := 0 }) ∧
    (onF s fPON_CHSTAT_LOCK c = true → x = setPon s c { ponCh s c with seen := 0 } →
      y = breakChains (wrF (wrF x fPON_CHSTAT_LOCK 0 c) fPON_CHSTAT_LODS 1 c) c →
      z = tribChannelLost (setPon y c { ponCh y c with sfc := none }) c →
      (actst z c ≠ 5 → lods s c = z) ∧ (actst z c = 5 → lods s c = raiseFault (setAct z c 6) 0x140010 c)) ∧
    (actst s c ≠ 6 → setAct s c 6 = setOper (wrF (enterO6 (leaveAct s c 6) c) fPON_CHSTAT_ACTST 6 c) c true) ∧
    enterO6 s c = emit0 (setPon (keepRate s c) c
      { ponCh s c with hold := some (s.sys.ticks + rdF s fPON_O6HOLD_MS c * 625000) }) 0x140010 ∧
    (∀ t, actst s c = 6 → (ponCh s c).hold = some t → t ≤ s.sys.ticks →
      exec (.o6HoldExpiry c) s = .next (raiseFault (emit0 (setAct s c 1) 0x140015) 0x140015 c)) ∧
    ((ponCh s c).pllLost = false → exec (.ponFramerPllLockLoss c) s =
      .next (raiseFault (emit0 (lods (setPon s c { ponCh s c with pllLost := true }) c) 0x140016) 0x140016 c))) ∧
  ∀ (c : Nat) (s : State), active s 5 c = true →
    (∀ port key pos first last full b, portEntry s c port = none →
      itemIn c s (.xgem port key pos first last false full b) = count s 5 kPonPort c) ∧
    (∀ port key pos full b i, portEntry s c port = some i → openPayload s c (rdF s fPON_PORTB_KIND c (2 * i)) key pos b = none →
      itemIn c s (.xgem port key pos true true false full b) = count s 5 kPonKey c) ∧
    (∀ b, ownOnu s c (ploamOnu b) = true ∨ ploamOnu b = 0x3ff →
      (micHolds s c b = true → itemIn c s (.ploam b) = toAgent s c (rdF s fPON_AGENTS_PLOAM c) b (now s)) ∧
      (micHolds s c b = false → itemIn c s (.ploam b) = emit0 (count s 5 kPonMic c) 0x140012)) ∧
    ∀ id prof len start dbru ploam a, actst s c = 5 → allocOf s c id = some a → itemIn c s (.grant id prof len start dbru ploam) =
      noteGrant (setPon s c { ponCh s c with grants := (ponCh s c).grants ++ [⟨some a, prof, len, dbru, ploam, start, s.sys.ticks⟩] }) c len

/-- The oldest grant's burst falls due, StartTime, EQD and RSPT after its frame, with no burst open: on a gated channel, without a valid
profile of the rate in use (event 0x140_013) or without leave to emit it is missed and counted; else the grant's burst opens at that time
with its profile's head and the key index UKSEL names, and with the oldest queued PLOAM and a MIC where the grant asks for one. A burst's
end closes it and applies a power level that came within it. A serial number reply says the serial number read at O1, or is missed. PUGO
queues PUDATA, discarded and counted while four are queued. SFCARM arms one capture. A SET of DLCTL sets DLARM, counts sections from 0 once
armed, and clears DLERR. [10_pon_convergence.md; 28_pair_operation.md] -/
def Obligations.PonBurstsRepliesAndRequests : Prop :=
  (∀ (c : Chan) (s x : State) (g : Grant) (l : List Grant), live s = true → (ponCh s c).grants = g :: l → (ponCh s c).burst = none → burstDue s c g = true →
    x = setPon s c { ponCh s c with grants := l } →
    (gatedChan x c = true → exec (.burstStart c) s = .next (count (count x 5 kPonMissed c) 0x17 kPairMissed c)) ∧
    (gatedChan x c = false → 4 ≤ g.prof ∨ onF x fPON_BPROF_VALID c (8 * g.prof) = false ∨
        rdF x fPON_BPROF_RATE c (8 * g.prof) ≠ rdF x fOPT_OCFG_RATE c →
      exec (.burstStart c) s = .next (emit0 (count x 5 kPonMissed c) 0x140013)) ∧
    (gatedChan x c = false → g.prof < 4 → onF x fPON_BPROF_VALID c (8 * g.prof) = true →
      rdF x fPON_BPROF_RATE c (8 * g.prof) = rdF x fOPT_OCFG_RATE c →
      (mayEmit x c = false → exec (.burstStart c) s = .next (count x 5 kPonMissed c)) ∧
      (mayEmit x c = true → ∃ t b, exec (.burstStart c) s = .next t ∧ (ponCh t c).burst = some b ∧ b.grant = g ∧
        b.start = g.start + rdF s fPON_EQD_D c + rdF s fPON_RSPT_T c ∧ b.openAt = s.sys.ticks ∧ b.head = burstHead s c g.prof ∧ b.key = rdF s fPON_UKSEL_IDX c ∧
        (ponCh t c).grants = l ∧ (g.ploam = false → b.ploam = none ∧ (ponCh t c).ploams = (ponCh s c).ploams) ∧
        (g.ploam = true → ∀ p r, (ponCh s c).ploams = p :: r → (ponCh t c).ploams = r ∧ ∃ mic, b.ploam = some (p ++ mic)) ∧
        (g.dbru = false → b.report = none)))) ∧
  (∀ (c : Chan) (s : State) (b : Burst), live s = true → (ponCh s c).burst = some b →
    ∃ t, exec (.burstEnd c) s = .next t ∧ (ponCh t c).burst = none ∧ (ponCh t c).last = some b ∧
      ∀ l, (ponCh s c).level = some l → rdF t fOPT_OSTAT_PLEVEL c = l % 4) ∧
  (∀ (c : Chan) (s x : State), live s = true → (ponCh s c).snGrant.isSome = true → x = setPon s c { ponCh s c with snGrant := none } →
    (gatedChan x c = true → exec (.serialNumberReply c) s = .next (count (count x 5 kPonMissed c) 0x17 kPairMissed c)) ∧
    (gatedChan x c = false → mayEmit x c = true →
      exec (.serialNumberReply c) s = .next (setPon x c { ponCh x c with replies := (ponCh s c).replies + 1, said := (ponCh s c).serial })) ∧
    (gatedChan x c = false → mayEmit x c = false → exec (.serialNumberReply c) s = .next (count x 5 kPonMissed c))) ∧
  (∀ (e : Eng) (c : Chan) (v : Word) (s x : State), accept s e false (fAddr fPON_PUGO_GO c 0) v = some x → v.getLsbD 0 = true →
    ((ponCh x c).ploams.length < 4 → exec (.ploamUpstreamGo e c v) s =
      .next (wrF (setPon x c { ponCh x c with ploams := (ponCh x c).ploams ++ [pudata x c] }) fPON_PUCOUNT_N ((ponCh x c).ploams.length + 1) c)) ∧
    (4 ≤ (ponCh x c).ploams.length → exec (.ploamUpstreamGo e c v) s = .next (count x 5 kPonPloam c))) ∧
  (∀ (e : Eng) (c : Chan) (v : Word) (s x : State), accept s e false (fAddr fPON_SFCARM_ARM c 0) v = some x → v.getLsbD 0 = true →
    exec (.sfcCaptureArm e c v) s =
      .next (setPon x c { ponCh x c with sfc := some (rdF x fPON_SFCM1_SFC c * 2 ^ 24 + rdF x fPON_SFCM0_SFC c) })) ∧
  ∀ (e : Eng) (c : Chan) (v : Word) (s x : State), accept s e false (fAddr fPON_DLCTL_DLARM c 0) v = some x → v.getLsbD 1 = true →
    exec (.dlerrClear e c v) s = .next (setDlctl x c v) ∧ onF (setDlctl x c v) fPON_DLCTL_DLERR c = false ∧
    onF (setDlctl x c v) fPON_DLCTL_DLARM c = v.getLsbD 0

/-- A container whose header names this tributary and that follows the last in sequence is counted and its 32 blocks go through the elastic
store, where no cause is in force; one of another length or tributary is counted as discarded. No container for 156,250 ticks starts cause
2: the store is emptied, TSTAT reads AIS and the lowest cause, and where the all-ones action is not on already event 0x180_010 records the
tributary and that cause. At a TRIB frame boundary, once, client blocks go into the upstream stores while TRIB is ACTIVE, stores feed their
ports while it is ACTIVE or drains, and a due page swap takes effect on each channel without LOCK. A write to a connection entry of the
active page is discarded, counted and event 0x180_013; to the other it is taken. [11_slotted_tributaries.md] -/
def Obligations.TributariesCarryContainers : Prop :=
  (∀ (q : Nat) (s : State) (b : List Byte), dsOn s q = true →
    (b.length ≠ 268 ∨ (byteAt b 3).toNat ≠ q % 16 → containerIn s q b = count s 6 kTribBad q) ∧
    (b.length = 268 → (byteAt b 3).toNat = q % 16 → (byteAt b 2).toNat = 0 → (tribu s q).seqD = some (ofBytes (b.take 2)) →
      causeOf (tribu s q) = 0 →
      (tribu (containerIn s q b) q).store = (pushDown s q (containerBlocks b)).2 ∧ (tribu (containerIn s q b) q).lastAt = s.sys.ticks ∧
      (tribu (containerIn s q b) q).seqD = some ((ofBytes (b.take 2) + 1) % 65536) ∧ causeOf (tribu (containerIn s q b) q) = 0)) ∧
  (∀ (q : Fin 64) (s : State), live s = true → dsOn s q = true → (tribu s q).frame = false →
    (tribu s q).lastAt + 156250 ≤ s.sys.ticks →
    ∃ t, exec (.containerTimeout q) s = .next t ∧ t = breakFrame s q ∧ (tribu t q).store = [] ∧ (tribu t q).frame = true ∧
      tribStatus t q % 2 = 1 ∧ tribStatus t q / 2 % 4 = (if (tribu s q).chan then 1 else 2) ∧
      ((tribu s q).ais = false → ∃ p3, t.log.raised = s.log.raised ++ [⟨0x180010, q, if (tribu s q).chan then 1 else 2, p3, now s, false⟩])) ∧
  (∀ (rx : List (Port × List (BitVec 66))) (s x y z : State), live s = true → s.time.ns % 125000 < 2 →
    s.trib.last ≠ some (s.time.sec, s.time.ns / 125000) →
    x = { s with trib := { s.trib with last := some (s.time.sec, s.time.ns / 125000) } } →
    y = (if active s 6 0 then takeUpstream x rx else x) → z = (if ustat y 6 0 = 1 ∨ ustat y 6 0 = 2 then feedPorts y else y) →
    exec (.tribFrameBoundary rx) s = .next ((List.range 4).foldl (fun s c => if onF s fPON_CHSTAT_LOCK c then s else swapChannel s c) z)) ∧
  ∀ (e : Eng) (n : Fin 128) (v : Word) (s x : State), accept s e false (fAddr fTRIB_CONN_CPORT 0 n) v = some x →
    (n.val / 64 = rdF x fTRIB_ACTPG_PAGE → exec (.connWrite e n v) s =
      .next (emit1 (count x 6 kTribConn (n.val % 64)) 0x180013 (fAddr fTRIB_CONN_CPORT 0 n))) ∧
    (n.val / 64 ≠ rdF x fTRIB_ACTPG_PAGE → exec (.connWrite e n v) s = .next (setNow x (fAddr fTRIB_CONN_CPORT 0 n) v.toNat))

/-- On a lane that runs: signal detect sets SIGDET and CDRLOCK; adaptation then ends and starts a polarity search; after 1,250,000 ticks
without lock the polarity toggles; block lock sets BLOCK and LPOS, and PL1's sets PSWAP of both pair lanes, whose rise is event 0x1C0_013.
Once every lane of a port has lock, distinct places, no more than 180 ns of skew and PLLLOCK, and no test is set on it, FECLOCK and LINKUP
are set, with event 0x1C0_010, and its MAC starts what waits. A lock loss takes the port down, counted, event 0x1C0_011; a PLL loss clears
PLLLOCK and takes the group's ports down, event 0x1C0_012; both are faults. An equaliser update moves one tap by one step, no sooner than
6,250 ticks after the last and not under ADAPTHOLD. While CDRLOCK RXSNR is a new result, symbol errors are counted, and under FECLOCK the
FEC codewords. [12_local_lanes.md] -/
def Obligations.LanesComeUpStepByStep : Prop :=
  (∀ (l : LaneI) (s : State), laneUp s l = true →
    (onF s fLANE_LSTAT_CDRLOCK l = false → exec (.laneSignalDetect l) s =
      .next (wrF (wrF s fLANE_LSTAT_SIGDET 1 l) fLANE_LSTAT_CDRLOCK 1 l)) ∧
    (onF s fLANE_LSTAT_CDRLOCK l = true → (laneSt s l).adapted = false →
      exec (.laneAdaptationDone l) s =
        .next (count (setLane s l { laneSt s l with adapted := true, polAt := s.sys.ticks }) 7 kLaneSearch l)) ∧
    ((laneSt s l).adapted = true → onF s fLANE_LSTAT_BLOCK l = false →
      ((laneSt s l).polAt + 1250000 ≤ s.sys.ticks → exec (.polarityToggle l) s =
        .next (wrF (setLane s l { laneSt s l with polAt := s.sys.ticks }) fLANE_LSTAT_RXINV (1 - rdF s fLANE_LSTAT_RXINV l) l)) ∧
      ∀ (place : Fin 4) (skew : Nat) (swap : Bool) (n : Nat) (x y : State), n = ((portOf s l).map fun p => (portLanes s p).length).getD 1 →
        x = wrF (wrF s fLANE_LSTAT_BLOCK 1 l) fLANE_LSTAT_LPOS (if place.val < n then place else 0) l →
        y = setLane x l { laneSt s l with skew := skew } →
        (l.val ≠ 33 → exec (.laneBlockLock l ⟨place, skew⟩ swap) s = .next y) ∧
        (l.val = 33 → ∀ z, z = wrF (wrF y fLANE_LSTAT_PSWAP (b2n swap) 32) fLANE_LSTAT_PSWAP (b2n swap) 33 →
          exec (.laneBlockLock l ⟨place, skew⟩ swap) s = .next (if swap && !onF s fLANE_LSTAT_PSWAP 33 then emit0 z 0x1c0013 else z))) ∧
    (∀ p, onF s fLANE_LSTAT_BLOCK l = true → portOf s l = some p → exec (.laneLockLoss l) s =
      .next (raiseFault (emit0 (count (portDown s p) 7 kLaneLoss l) 0x1c0011) 0x1c0011 (laneDom l))) ∧
    (∀ (tap : Fin 14) (up : Bool), (onF s fLANE_LSTAT_LINKUP l || testing s l) = true → onF s fLANE_LCAL_ADAPTHOLD l = false →
      (laneSt s l).eqAt + 6250 ≤ s.sys.ticks → ∃ t, exec (.eqUpdate l tap up) s = .next t ∧ (laneSt t l).eqAt = s.sys.ticks ∧
        (∀ k, tget (fun _ => 0) (laneSt t l).taps k = tget (fun _ => 0) (laneSt s l).taps k +
          (if k = tap.val then (if up then 1 else -1) else 0)) ∧ { t with lane := s.lane } = s) ∧
    (∀ (tap : Fin 14) (up : Bool), onF s fLANE_LCAL_ADAPTHOLD l = true ∨ s.sys.ticks < (laneSt s l).eqAt + 6250 →
      exec (.eqUpdate l tap up) s = .next s) ∧
    (∀ (v : BitVec 24) (sy co un : Nat) (x : State), onF s fLANE_LSTAT_CDRLOCK l = true → x = count s 7 kLaneSym l sy →
      exec (.rxsnrResult l ⟨v, sy, co, un⟩) s = .next (result (if onF s fLANE_LSTAT_FECLOCK l then
        count (count x 7 (kLaneFec 0) l co) 7 (kLaneFec 1) l un else x) fLANE_RXSNR_S v.toNat l))) ∧
  (∀ (l : LaneI) (s : State), (portLanes s l).isEmpty = false → linkUp s l = false → (∀ k ∈ portLanes s l, testing s k = false ∧
      laneUp s k = true ∧ onF s fLANE_LSTAT_BLOCK k = true ∧ onF s fLANE_LSTAT_PLLLOCK k = true) →
    ((portLanes s l).map fun k => rdF s fLANE_LSTAT_LPOS k).Nodup →
    (∀ j ∈ portLanes s l, ∀ k ∈ portLanes s l, (laneSt s j).skew ≤ (laneSt s k).skew + 180) → ∀ (fec : Nat) (t : State), fec = b2n (portFec s l) →
    t = emit0 ((portLanes s l).foldl (fun s k => wrF (wrF s fLANE_LSTAT_FECLOCK fec k) fLANE_LSTAT_LINKUP 1 k) s) 0x1c0010 →
    exec (.laneFecLock l) s = .next (if l.val < 32 then startNext t l else t)) ∧
  ∀ (g : Fin 9) (s x : State), live s = true → (∃ l ∈ groupLanes g, onF s fLANE_LSTAT_PLLLOCK l = true) →
    x = (groupLanes g).foldl (fun s l => wrF s fLANE_LSTAT_PLLLOCK 0 l) s →
    exec (.lanePllLockLoss g) s =
      .next (raiseFault (emit0 ((groupPorts x g).foldl portDown x) 0x1c0012) 0x1c0012 (laneDom (4 * g)))

/-- At an ACTIVE port with its link up, with no express frame open, a start of under 64 bytes is a counted runt, a pause frame stays in the
MAC, a frame that the full receive buffer or its reserve does not admit is an overload, any other goes through MSEC and on to CLS, from a
gated port, but for EAPOL, no further; a preemptable start first ends the preemptable frame that is open. The end settles the frame being
received: of one that stayed in the MAC a wrong FCS is counted, and a good pause frame is acted on; a continuation with no frame open is a
counted reassembly error. QM's pause repeats each half quanta period. A pause time's end releases its classes; a class held beyond WDMS ms
enters recovery, event 0x200_010, and RECOV times 10 ms later leaves it, event 0x200_011. Verification sends a verify mPacket each VERIFYT
ms, up to three, then fails with event 0x200_013; a response makes preemption active; a verify mPacket is answered while PREN.
[13_mac_and_tsn.md; 26_measurement_and_control.md; 28_pair_operation.md] -/
def Obligations.MacsReceivePauseAndVerify : Prop :=
  (∀ (p : Port) (pre : Bool) (buf ecc : Fin 3) (sfd : Nat) (b : List Byte) (s0 s : State), live s0 = true → active s0 8 p = true →
    frameMode s0 p = true → linkUp s0 p = true → (pre = false → (macP s0 p).rxEx = none) → s = (if pre then rxEnd s0 p true 1 0 else s0) →
    (b.length < 64 → exec (.macRxFrameStart p pre buf ecc ⟨sfd, b⟩) s0 = .next (count s 8 kMacRunt p)) ∧
    (64 ≤ b.length → isPause b = true → exec (.macRxFrameStart p pre buf ecc ⟨sfd, b⟩) s0 = .next (setRxSlot s p pre (some ⟨0, b, false, false⟩))) ∧
    (64 ≤ b.length → isPause b = false → buf = 2 ∨ (buf = 1 ∧ reserveAdmits s p b = false) →
      exec (.macRxFrameStart p pre buf ecc ⟨sfd, b⟩) s0 = .next (setRxSlot (overload s p) p pre (some ⟨0, [], false, false⟩))) ∧
    (64 ≤ b.length → isPause b = false → buf = 0 ∨ (buf = 1 ∧ reserveAdmits s p b = true) → ∀ x r (big : Bool),
      big = decide (rdF s fMAC_MCFG_MAXLEN p < b.length) →
      msecIngress s p ecc (markIn s (-(sfd : Int))) (if big then b.take (rdF s fMAC_MCFG_MAXLEN p) else b.take (b.length - 4)) = (x, r) →
      (r = none → exec (.macRxFrameStart p pre buf ecc ⟨sfd, b⟩) s0 =
        .next (setRxSlot x p pre (some ⟨if x.nextId = s.nextId then 0 else s.nextId, b, true, big⟩))) ∧
      (∀ c icv prot held z, r = some (c, icv, prot) → held = (gatedPort s p && !isEapol b) →
        z = setRxSlot x p pre (some ⟨x.nextId, b, true, big⟩) →
        ∃ y, exec (.macRxFrameStart p pre buf ecc ⟨sfd, b⟩) s0 = .next (addFlight (if held then count z 0x17 kPairDiscard p else z) y) ∧
          y.stage = (if held then 2 else 0) ∧ y.frame.bytes = c ∧ y.frame.source = p ∧ y.frame.mark = markIn z (-(sfd : Int)) ∧
          y.icv = icv ∧ y.prot = prot ∧ y.bad = 0 ∧ y.ended = false))) ∧
  (∀ (p : Port) (pre : Bool) (how : Fin 3) (frags : Nat) (s : State), live s = true → pre = true ∨ how ≠ 1 →
    (how ≠ 1 ∨ (macP s p).rxPr ≠ none → exec (.macRxFrameEnd p pre how frags) s = .next (rxEnd s p pre how frags)) ∧
    (how = 1 → (macP s p).rxPr = none → active s 8 p = true → linkUp s p = true →
      exec (.macRxFrameEnd p pre how frags) s = .next (count s 8 kMacReasm p))) ∧
  (∀ (p : Nat) (s : State) (b : List Byte) (big : Bool), (macP s p).rxEx = some ⟨0, b, false, big⟩ → b ≠ [] →
    (fcsGood b = false → rxEnd s p false 0 0 = count (setRxSlot s p false none) 8 kMacFcs p) ∧
    (fcsGood b = true → rxEnd s p false 0 0 = pauseReceived (setRxSlot s p false none) p b)) ∧
  (∀ (p : Port) (s : State), live s = true →
    (quantaTicks s p (rdF s fMAC_PQUANTA_Q p) ≤ 2 * (s.sys.ticks - (macP s p).pauseAt) → exec (.pauseRepeat p) s = .next (sendPause s p)) ∧
    (∀ cs : BitVec 8, ∃ x, exec (.pauseTimeExpiry p cs) s = .next (startNext x p) ∧ ∀ c, c < 8 → pausedClass x p c =
      (pausedClass s p c && !(cs.getLsbD c && decide (tget (fun _ => 0) (macP s p).till c ≤ s.sys.ticks)))) ∧
    (∀ c : Fin 8, rdF s fMAC_MPWD_WDMS p ≠ 0 → pausedClass s p c = true →
      tget (fun _ => 0) (macP s p).since c + 625000 * rdF s fMAC_MPWD_WDMS p < s.sys.ticks → ∃ x, exec (.pauseWatchdogTrip p c) s =
      .next (startNext (emit2 x 0x200010 p c) p) ∧ pausedClass x p c = false ∧ (rdF x fMAC_MSTAT_WDACT p).testBit c = true) ∧
    (∀ c : Fin 8, (rdF s fMAC_MSTAT_WDACT p).testBit c = true →
      tget (fun _ => 0) (macP s p).since c + 6250000 * rdF s fMAC_MPWD_RECOV p ≤ s.sys.ticks →
      ∃ x, exec (.pauseWatchdogRecoveryEnd p c) s = .next (emit0 x 0x200011) ∧
      (rdF x fMAC_MSTAT_WDACT p).testBit c = false ∧ ∀ k, k < 8 → k ≠ c.val →
        (rdF x fMAC_MSTAT_WDACT p).testBit k = (rdF s fMAC_MSTAT_WDACT p).testBit k) ∧
    (active s 8 p = true →
      (rdF s fMAC_MPSTAT_VSTATE p = 1 ∨ rdF s fMAC_MPSTAT_VSTATE p = 2 →
        (macP s p).tries = 0 ∨ (macP s p).verAt + 625000 * rdF s fMAC_MPRE_VERIFYT p ≤ s.sys.ticks →
        ((macP s p).tries < 3 → exec (.verifyTimer p) s = .next (wrF (setMac s p { macP s p with
          tries := (macP s p).tries + 1, verifySent := (macP s p).verifySent + 1, verAt := s.sys.ticks }) fMAC_MPSTAT_VSTATE 2 p)) ∧
        (3 ≤ (macP s p).tries → exec (.verifyTimer p) s = .next (emit0 (wrF s fMAC_MPSTAT_VSTATE 4 p) 0x200013))) ∧
      (rdF s fMAC_MPSTAT_VSTATE p = 2 → exec (.verifyResponse p) s =
        .next (wrF (wrF s fMAC_MPSTAT_VSTATE 3 p) fMAC_MPSTAT_ACTIVE 1 p)) ∧
      (onF s fMAC_MPRE_PREN p = true → exec (.verifyMpacketReceived p) s =
        .next (setMac s p { macP s p with respondSent := (macP s p).respondSent + 1 }))))

/-- MSEC settles a selected frame: discarded, or made ready in the form it will leave in, counted where its gate holds it, and the line
takes the next that may start. A whole frame leaves with its FCS, or stomped; one that cuts through leaves once its last byte has come and
its ICV is known, or stomped in an underrun. A preemptable frame is cut only while preemption is active and an express frame, a hold or its
gate asks for it, no fragment shorter than the minimum on either side; the fragment leaves with its mCRC, is counted, and the frame goes on
later. A gate entry's end applies the gates of the instant, a hold ahead of it by its bound; at its instant the waiting list becomes the
operating one with GN written and event 0x200_012 of its cycle number. GEA and GEB write the entry that GESEL names, GEA with OP 3 as an
event and OP kept, GEB moving it on, but a page in force or waiting is left as it is, counted, event 0x200_014. [13_mac_and_tsn.md;
15_encryptor_datapath.md] -/
def Obligations.MacsTransmitUnderTheirGates : Prop :=
  (∀ (p : Port) (pre : Bool) (ecc : Fin 3) (s x : State) (f : Sel) (r : Option (List Byte)), selOf (macP s p) pre = some f → live s = true →
    f.ready = false → (f.cut.bind (flight s)).any (fun y => y.bad == 1) = false → msecEgress s p f.frame.txsc ecc f.bytes = (x, r) →
    (r = none → exec (.msecEgressFrame p pre ecc) s = .next (startNext (dropSel x p pre f) p)) ∧
    (∀ b y z, r = some b → y = { f with bytes := b, ready := true, icv := decide (b.length ≠ f.bytes.length) } → z = setSel x p pre (some y) →
      exec (.msecEgressFrame p pre ecc) s = .next (startNext
        (if gateFits z p y.cls (gateBytes z p y pre) then z else count z 8 kMacHeld (8 * p + y.cls)) p))) ∧
  (∀ (p : Port) (under pre : Bool) (s : State) (f : Sel), live s = true → (macP s p).cur = some pre → selOf (macP s p) pre = some f →
    (f.cut.bind (flight s) = none → exec (.macTxFrameEnd p 0 under) s = .next (startNext (txWhole s p pre f f.stomp) p)) ∧
    (∀ y, f.cut.bind (flight s) = some y → under = true ∨ (y.ended = true ∧ y.icv = .none) →
      exec (.macTxFrameEnd p 0 under) s = .next (startNext (txWhole s p pre f (if y.bad ≠ 0 then y.bad else if under then 6 else 0)) p))) ∧
  (∀ (p : Port) (n : Nat) (under : Bool) (s : State) (f : Sel), live s = true → (macP s p).cur = some true → (macP s p).pr = some f → n ≠ 0 →
    (preActive s p = true → cutReason s p f = true → minFrag s p ≤ n + 4 → f.off + n + 60 ≤ f.bytes.length → ∃ x,
      exec (.macTxFrameEnd p n under) s = .next (startNext x p) ∧ (macP x p).cur = none ∧
      (macP x p).pr = some { f with off := f.off + n, overrun := false } ∧
      (macP x p).sent = (f.bytes.drop f.off).take n ++ mCrc f.bytes (f.off + n) ∧ x.cnt = (count s 8 kMacFragTx p).cnt) ∧
    (preActive s p = false ∨ cutReason s p f = false ∨ n + 4 < minFrag s p ∨ f.bytes.length < f.off + n + 60 →
      exec (.macTxFrameEnd p n under) s = .next s)) ∧
  (∀ (p : Nat) (pre : Bool) (s : State) (f : Sel) (why : Nat), f.cut = none →
    (macP (txWhole s p pre f why) p).sent = (lineEnd f.bytes f.icv why).drop f.off ∧ selOf (macP (txWhole s p pre f why) p) pre = none ∧
    (macP (txWhole s p pre f why) p).cur = none ∧ (macP (txWhole s p pre f why) p).stomped = decide (why ≠ 0)) ∧
  (∀ (b : List Byte), lineEnd b false 0 = b ++ fcsOf b ∧ ∀ why, why ≠ 0 → lineEnd b false why = b ++ invert (fcsOf b)) ∧
  (∀ (p : Port) (s : State), live s = true →
    exec (.gateEntryChange p false) s = .next (startNext (gateApply s p) p) ∧
    ((gatesAt s p (nowNs s + lineNs (minFrag s p + 75) (portRate s p))).op = 1 →
      exec (.gateEntryChange p true) s = .next (setMac s p { macP s p with hold := true })) ∧
    (∀ g x, (macP s p).wait = some g → g.at_ ≤ nowNs s → x = setMac s p { macP s p with oper := some g, wait := none } →
      ∃ instant outcome, exec (.gateListSwitch p) s = .next (startNext (gateApply (emit (result (wrF (wrF x fMAC_GSTAT_OPAGE g.page p)
        fMAC_GSTAT_WAIT 0 p) fMAC_GN_N (min g.n 0xffffff) p) 0x200012 (min g.n 0xffffff) instant outcome) p) p))) ∧
  ∀ (e : Eng) (p : Port) (v : Word) (s x : State) (g i : Nat), g = rdF x fMAC_GESEL_PG p → i = rdF x fMAC_GESEL_ENTRY p →
    (accept s e false (fAddr fMAC_GEA_GATES p 0) v = some x → ∀ (op : Nat) (y : State),
      op = (if v.toNat / 256 % 4 = 3 then (gateEntry x p g i).2.1 else v.toNat / 256 % 4) →
      y = (if assigned (fAddr fMAC_GEA_GATES p 0) v.toNat then x else unassigned x (fAddr fMAC_GEA_GATES p 0) (v.toNat / 256 % 4)) →
      (pageHeld x p g = true → exec (.geaWrite e p v) s = .next (emit2 (count y 8 kMacEntry p) 0x200014 g i)) ∧
      (pageHeld x p g = false → ∀ l, l = tset (fun _ => gateReset) (macP x p).gates (g * 256 + i) (v.toNat % 256, op, (gateEntry x p g i).2.2) →
        exec (.geaWrite e p v) s = .next (setMac y p { macP x p with gates := l }))) ∧
    (accept s e false (fAddr fMAC_GEB_INTERVAL p 0) v = some x →
      ∃ y, exec (.gebWrite e p v) s = .next (wrF y fMAC_GESEL_ENTRY (i + 1) p) ∧
        (pageHeld x p g = true → y = emit2 (count x 8 kMacEntry p) 0x200014 g i) ∧
        (pageHeld x p g = false → ∀ l, l = tset (fun _ => gateReset) (macP x p).gates (g * 256 + i) ((gateEntry x p g i).1, (gateEntry x p g i).2.1, v.toNat) →
          y = setMac x p { macP x p with gates := l }))

/-- TXGO of an ACTIVE, free SBUS with a length from 1 to 1,518 holds a frame, any other is refused with code 5. While SBUS has its clock and
is ACTIVE or drains: the fetch reads the bytes, its lines counted, pads them to 60 and adds the FCS, or ends in code 4, or fails its seal,
fault 0x400_010. An attempt on the idle bus sends, a deferred one counted; a collision within the first 64 bytes backs off by at most 2^10 -
1 slot times, one later ends in code 2 with event 0x240_011, the sixteenth in code 1 with event 0x240_010; completion is code 0. A received
frame is discarded and counted as runt, oversize, FCS error or filtered, without agent or for a full ring, else it goes to the next ring
entry; an accepted one in S1 or S2 with WAKEEN is a wake event first. A ring entry holds length, postmark and bytes, HEAD and USED advance,
and the agent gets a message, or the frame is counted as full where the granule is refused. A message refused is posted again 6,250 ticks
later, oldest first. RXDONE returns entries, a count above USED clamped and counted. Jabber stops attempts, counted, event and fault
0x240_012, until it clears. In S3 with WAKEEN carrier is a counted wake event. [14_site_bus.md] -/
def Obligations.TheSiteBusSendsAndReceives : Prop :=
  (∀ (e : Eng) (v : BitVec 24) (s x : State) (n : Nat), accept s e false (fAddr fSBUS_TXGO_GO 0 0) v = some x → v.getLsbD 0 = true →
    active x 9 0 = true → n = rdF x fSBUS_TXLEN_LEN →
    (x.sbus.tx.isSome = true ∨ n = 0 ∨ 1518 < n → exec (.sbusTxgo e v) s = .next (txRes x 5 0)) ∧
    (x.sbus.tx = none → 1 ≤ n → n ≤ 1518 → exec (.sbusTxgo e v) s = .next (setTxFrame x (some
      ⟨rdF x fSBUS_TXADDRH_ADDR * 2 ^ 24 + rdF x fSBUS_TXADDRL_ADDR, n, none, false, 0, none⟩)))) ∧
  (∀ (s : State) (x : SbusTx) (b : List Byte), s.sbus.tx = some x → sbusRuns s = true →
    (x.bytes = none → dataSpace < x.addr + x.len → exec (.sbusFetchComplete true) s = .next (endTx (refuse s sbusMaster x.addr false) x 4 0)) ∧
    (x.bytes = none → x.addr + x.len ≤ dataSpace → refusedByte s sbusMaster x.addr x.len false = none →
      b = dramRead s x.addr x.len ++ List.replicate (60 - x.len) 0 →
      exec (.sbusFetchComplete true) s = .next (setTxFrame (countLines s sbusMaster x.addr x.len false) (some { x with bytes := some (b ++ fcsOf b) })) ∧
      exec (.sbusFetchComplete false) s = .next (sealFault s 0x400010 (x.addr / 64 * 64) sbusMaster)) ∧
    (testing s 38 = false → x.bytes.isSome = true → x.sending = false → x.until_ = none → busIdle s = true →
      ∀ d : Bool, exec (.sbusTxAttempt d) s = .next (wrF (setTxFrame (if d then count s 9 kSbusDefer 0 else s)
        (some { x with sending := true, tries := x.tries + 1 })) fSBUS_SSTAT_CARRIER 1)) ∧
    (x.sending = true → ∀ sent : BitVec 11,
      (64 ≤ sent.toNat → exec (.sbusCollision sent) s =
        .next (endTx (emit0 (count (count s 9 kSbusCollision 0) 9 kSbusLate 0) 0x240011) x 2 2000)) ∧
      (sent.toNat < 64 → 16 ≤ x.tries → exec (.sbusCollision sent) s =
        .next (endTx (emit0 (count (count s 9 kSbusCollision 0) 9 kSbusExcess 0) 0x240010) x 1 2000)) ∧
      (sent.toNat < 64 → x.tries < 16 → ∃ t r, exec (.sbusCollision sent) s = .next t ∧ r < 2 ^ min x.tries 10 ∧
        t.sbus.tx = some { x with sending := false, until_ := some (s.sys.ticks + 2000 + 32000 * r) } ∧ onF t fSBUS_SSTAT_CARRIER = false) ∧
      exec .sbusTxComplete s = .next (endTx { count (count s 9 (kSbusFrames false) 0) 9 (kSbusBytes false) 0 (x.bytes.getD []).length with
        sbus := { s.sbus with sent := x.bytes.getD [] } } x 0 0)) ∧
    (∀ t, x.until_ = some t → t ≤ s.sys.ticks → exec .sbusBackoffEnd s = .next (setTxFrame s (some { x with until_ := none })))) ∧
  (∀ (start : Nat × Nat) (b : List Byte) (bad : Fin 3) (s x : State), sbusRuns s = true → active s 9 0 = true →
    onF s fSBUS_SSTAT_JABBER = false → (∀ y, s.sbus.tx = some y → y.sending = false) →
    x = { s with sbus := { s.sbus with idleAt := s.sys.ticks } } →
    (testing s 38 = true → exec (.sbusRxFrame start ⟨b, bad⟩) s = .next (testFrameIn x b)) ∧
    (testing s 38 = false →
      (b.length < 64 → exec (.sbusRxFrame start ⟨b, bad⟩) s = .next (count x 9 kSbusRunt 0)) ∧
      (1522 < b.length → exec (.sbusRxFrame start ⟨b, bad⟩) s = .next (count x 9 kSbusOver 0)) ∧
      (64 ≤ b.length → b.length ≤ 1522 →
        (fcsGood b = false → exec (.sbusRxFrame start ⟨b, bad⟩) s = .next (count x 9 kSbusFcs 0)) ∧
        (fcsGood b = true → sbusForUs x b = false → exec (.sbusRxFrame start ⟨b, bad⟩) s = .next (count x 9 kSbusFilter 0)) ∧
        (fcsGood b = true → sbusForUs x b = true → ∀ y,
          y = (if onF s fSBUS_SCFG_WAKEEN ∧ rdF s fPWR_STATE_CURS ≠ 0 then wakeSource (count x 9 kSbusWake 0) 1 else x) →
          (0xc0 ≤ rdF y fSBUS_AGENT_ENG → exec (.sbusRxFrame start ⟨b, bad⟩) s = .next (count y 9 kSbusNoAgent 0)) ∧
          (rdF y fSBUS_AGENT_ENG < 0xc0 → 64 ≤ rdF y fSBUS_RXSTAT_USED →
            exec (.sbusRxFrame start ⟨b, bad⟩) s = .next (count y 9 kSbusFull 0)) ∧
          (rdF y fSBUS_AGENT_ENG < 0xc0 → rdF y fSBUS_RXSTAT_USED < 64 →
            exec (.sbusRxFrame start ⟨b, bad⟩) s = .next (sbusRing y start (b.take (b.length - 4)) bad)))))) ∧
  (∀ (s z : State) (start : Nat × Nat) (b head : List Byte) (k a : Nat), k = rdF s fSBUS_RXSTAT_HEAD →
    a = rdF s fSBUS_RXBASEH_BASE * 2 ^ 24 + rdF s fSBUS_RXBASEL_BASE + 2048 * k → a + 2048 ≤ dataSpace → s.sys.halted = false →
    (∀ n, refusedByte s sbusMaster a (64 + b.length) true = some n →
      sbusRing s start b 0 = count (refuse s sbusMaster n true) 9 kSbusFull 0) ∧
    (refusedByte s sbusMaster a (64 + b.length) true = none →
      head = toBytes 2 b.length ++ dramRead s (a + 2) 2 ++ toBytes 3 start.1 ++ toBytes 4 start.2 ++ toBytes 3 s.time.gen →
      z = writeRange (fillRange s a (64 + b.length)) sbusMaster a (head ++ dramRead s (a + 14) 50 ++ b) 0 →
      sbusRing s start b 0 = sbusNote (count (count (wrF (wrF z fSBUS_RXSTAT_USED (rdF z fSBUS_RXSTAT_USED + 1)) fSBUS_RXSTAT_HEAD (k + 1))
        9 (kSbusFrames true) 0) 9 (kSbusBytes true) 0 b.length) k b.length)) ∧
  (∀ s : State, live s = true → s.sbus.notes ≠ [] → s.sbus.noteAt + 6250 ≤ s.sys.ticks → exec .sbusPostRetry s =
    .next (s.sbus.notes.foldl (fun s x => sbusNote s x.1 x.2) { s with sbus := { s.sbus with notes := [] } })) ∧
  (∀ (e : Eng) (v : BitVec 24) (s x : State) (n used : Nat), accept s e false (fAddr fSBUS_RXDONE_N 0 0) v = some x → n = v.toNat % 128 →
    used = rdF x fSBUS_RXSTAT_USED → exec (.sbusRxdone e v) s =
      .next (wrF (if used < n then count x 9 kSbusClamp 0 else x) fSBUS_RXSTAT_USED (used - min n used))) ∧
  (∀ s x : State, live s = true →
    (active s 9 0 = true → onF s fSBUS_SSTAT_JABBER = false →
      x = wrF (wrF (count s 9 kSbusJabber 0) fSBUS_SSTAT_JABBER 1) fSBUS_SSTAT_CARRIER 1 → exec .jabberDetect s =
        .next (raiseFault (emit0 (setTxFrame x (x.sbus.tx.map fun x => { x with sending := false })) 0x240012) 0x240012 39)) ∧
    (onF s fSBUS_SSTAT_JABBER = true → x = wrF (wrF s fSBUS_SSTAT_JABBER 0) fSBUS_SSTAT_CARRIER 0 →
      exec .jabberClear s = .next { x with sbus := { x.sbus with idleAt := x.sys.ticks - 625000 } })) ∧
  ∀ s : State, inS3 s = true → onF s fSBUS_SCFG_WAKEEN = true → exec .sbusCarrierWake s = .next (wakeSource (count s 9 kSbusWake 0) 1)

/-- An accepted SWGO with SWHOW 1 to 3 on an enabled channel holds the request, due at once for 1, at its instant for 2, at the threshold
for 3; a disabled channel refuses with cause 4, and nanoseconds of a second or more are not assigned. SWHOW 0 cancels. A due request to an
installed, usable, resident target makes it current, counted and notified, event 0x280_016; to an absent target it is refused with cause 1,
to an unusable one with 2. At its instant a timed request falls due. The ICV of a frame that is not bad is counted, and a right one advances
the next PN of the SA that still stands as it did and, the first time, is notified; a wrong one is event 0x280_010 and stops the frame or
only counts it. RETAIN times 10 ms after an SA entered retention it is withdrawn, counted and notified. Held notifications are posted again
in order 6,250 ticks after the last try. [16_secure_associations.md; 15_encryptor_datapath.md] -/
def Obligations.AssociationsSwitchRetireAndVerify : Prop :=
  (∀ (e : Eng) (v : Word) (s x : State) (ch an how : Nat), accept s e false (fAddr fMSEC_SWGO_GO 0 0) v = some x → v.getLsbD 0 = true →
    ch = rdF s fMSEC_SWCH_CH → an = rdF s fMSEC_SWREQ_AN → how = rdF s fMSEC_SWREQ_HOW → ∀ i, i = resolve x (rdF s fMSEC_SWT1_T) (rdF s fMSEC_SWT0_T) →
    (how = 0 → exec (.switchCancel e v) s = .next (setTx x ch { txCh x ch with req := none })) ∧
    (how ≠ 0 → how ≠ 2 ∨ i.2 < 1000000000 →
      ((txCh x ch).enable = false → exec (.switchRequest e v) s = .next (refuseSwitch x ch an 4)) ∧
      ((txCh x ch).enable = true → exec (.switchRequest e v) s = .next (trySwitch
        (setTx x ch { txCh x ch with req := some (an, how, i, how == 1 || (how == 2 && reached x i)) }) ch))) ∧
    (how = 2 → 1000000000 ≤ i.2 → exec (.switchRequest e v) s = .next (unassigned x (fAddr fMSEC_SWT0_T 0 0) (rdF s fMSEC_SWT0_T)))) ∧
  (∀ (s : State) (ch an how : Nat) (i : Instant), (txCh s ch).req = some (an, how, i, true) → rdF s fPAIR_PSTAT_ROLE ≠ 2 →
    (txCh s ch).cur ≠ some an →
    (saOf s true ch an = none → how ≠ 3 → trySwitch s ch = refuseSwitch s ch an 1) ∧
    (∀ k a, saOf s true ch an = some (k, a) → (a.unusable = true → how ≠ 3 → trySwitch s ch = refuseSwitch s ch an 2) ∧
      (a.unusable = false → a.resident = false → trySwitch s ch = s) ∧
      (a.unusable = false → a.resident = true → trySwitch s ch = doSwitch s ch an a))) ∧
  (∀ (s : State) (ch an : Nat) (a : Sa), (txCh (doSwitch s ch an a) ch).cur = some an ∧ (txCh (doSwitch s ch an a) ch).req = none) ∧
  (∀ (ch : Fin 1024) (s : State) (an : Nat) (i : Instant), (txCh s ch).req = some (an, 2, i, false) → live s = true → reached s i = true →
    exec (.switchTimeDue ch) s = .next (trySwitch (setTx s ch { txCh s ch with req := some (an, 2, i, true) }) ch)) ∧
  (∀ (f : Nat) (s x y : State) (l : Flight) (k ch ord pn : Nat) (enc stops : Bool), live s = true → flight s f = some l → l.of_ = none →
    l.bad = 0 →
    (l.icv = .waits k ch ord pn true enc stops → x = countSa (settleIcv s f) kMsOk ch k →
      y = countSa x (if enc then kMsRxOctets + 2 else kMsRxOctets) ch k l.frame.bytes.length →
      (∀ a b, saCtx s k = some a → a.order = ord → b = { a with pn := max a.pn (pn + 1), seen := s.sys.ticks + 1 } →
        exec (.msecIcvResult f) s = .next (if a.first then setSa y k (some b) else firstVerify (setSa y k (some b)) k b pn)) ∧
      ((∀ a, saCtx s k = some a → a.order ≠ ord) → exec (.msecIcvResult f) s = .next y)) ∧
    (l.icv = .waits k ch ord pn false enc stops → x = markInvalid (settleIcv s f) f →
      y = emit x 0x280010 (l.port.getD 0) ch (pn % 2 ^ 24) →
      exec (.msecIcvResult f) s = .next (if stops then spoilAll (countSa y kMsInvalid ch k) { l with icv := .none } 1
        else countSa y kMsNotValid ch k))) ∧
  (∀ (c : Fin 4096) (s : State) (a : Sa), saCtx s c = some a → live s = true → a.retain = true → rdF s fMSEC_RETAIN_MS10 ≠ 0 →
    a.retAt + 6250000 * rdF s fMSEC_RETAIN_MS10 ≤ s.sys.ticks →
    exec (.retentionExpiry c) s = .next (notify (count (withdraw s c) 0x0a kMsRetire a.ch) 4 c a.ch a.an)) ∧
  ∀ s : State, live s = true → s.msec.notes ≠ [] → s.msec.noteAt + 6250 ≤ s.sys.ticks →
    exec .msecNoteRetry s = .next (retryNotes s.msec.notes.length { s with msec := { s.msec with noteAt := s.sys.ticks } })

/-- A frame that waits for its search ends at once where CLS is disabled. Else it is parsed and takes the action of the lowest matching row
of its source's copy, counted in frames and bytes, or of the fixed action for a miss or its malformation, counted; ACT 0 discards it,
counted, ACT 1 and 2 without CAPT and mirror hand it to FLOW's decision under the flow that the action names; a row that fails in both
copies is lost first. EGO WRITE puts the staged entry in copy 0 and then in copy 1 with ERES ready, or is refused by cause: 1 while one
runs, 2 an odd wide index, 3 or 4 a row of a pair. READ brings copy 0's entry to the staging words. HIDATA writes the indirection entry at
HISEL and moves on. The scrub rewrites a row that fails in one copy from the other and loses one that fails in both, event 0x2C0_010.
[17_classification.md] -/
def Obligations.ClassificationSearchesAndWrites : Prop :=
  (∀ (f : Nat) (s : State) (x : Flight) (i : Nat), flight s f = some x → live s = true → x.stage = 0 → i = sourceIndex x.frame.source →
    (∀ l, active s 0x0b 0 = false → exec (.clsSearch f l) s = .next (endHere (count s 0x0b (kClsDisabled) i) x)) ∧
    (∀ p d, active s 0x0b 0 = true → p = parse x.frame.bytes → d = decideAction s p x.frame.source x.prot → p.frag = false →
      ∃ t, exec (.clsSearch f []) s = .next t ∧
        (∀ n, d.2.1 = some n → n < 65536 → d.2.2.2 / 2 ^ 94 % 4 = 0 → d.2.2.2 / 2 ^ 82 % 2 = 0 → d.2.2.2 / 2 ^ 81 % 2 = 0 → s.sys.halted = false →
          (∃ y, flight t f = some y ∧ y.dest = .none ∧ y.stage = 2) ∧ leaf t 0x0b kClsFrames n = leaf s 0x0b kClsFrames n + 1 ∧
          leaf t 0x0b kClsDropped n = leaf s 0x0b kClsDropped n + 1 ∧
          leaf t 0x0b kClsBytes n = leaf s 0x0b kClsBytes n + (x.frame.bytes.length + 4))) ∧
    (∀ lost r p d a key hash fl, active s 0x0b 0 = true → r = lost.foldl (fun s (k : Fin 65536) => loseRow s k.val) s → p = parse x.frame.bytes → 
      d = decideAction r p x.frame.source x.prot → a = d.2.2.2 →
      key = narrowKey p x.frame.source (rdF r fCLS_SRCCFG_PMETA 0 i) x.prot → hash = spreadHash p (a / 2 ^ 83 % 4) (rdF r fCLS_HSEED_SEED) →
      fl = flowOf r a key → a / 2 ^ 94 % 4 = 1 ∨ a / 2 ^ 94 % 4 = 2 → a / 2 ^ 82 % 2 = 0 → a / 2 ^ 81 % 2 = 0 →
      ∃ u y, exec (.clsSearch f lost) s = .next (flowDecide (setFlight u y) y (flowRec r fl) hash) ∧ { u with cnt := r.cnt } = r ∧
        y.id = x.id ∧ y.ended = x.ended ∧ y.rxLen = x.rxLen ∧ y.frame.bytes = x.frame.bytes ∧ y.frame.flow = fl ∧ y.frame.action = a ∧
        (a / 2 ^ 89 % 2 = 0 → y.frame.queue = (flowRec r fl).queue ∧ y.frame.txsc = (flowRec r fl).txsc))) ∧
  (∀ (s : State) (p : Parse) (source : Nat) (prot : Bool) (i : Nat) (m : Option Nat), i = sourceIndex source →
    m = firstMatch s (inCopy1 source) (wideLow p) (narrowKey p source (rdF s fCLS_SRCCFG_PMETA 0 i) prot) →
    (∀ k, p.bad = some k → decideAction s p source prot = (count s 0x0b (kClsMalformed k) i, none, 8 + k, fixedAction s (8 + k))) ∧
    (∀ n, p.bad = none → m = some n → decideAction s p source prot = (s, some n, 0, (clsRow s (inCopy1 source) n).act)) ∧
    (p.bad = none → m = none → decideAction s p source prot =
      (count s 0x0b kClsMiss i, none, rdF s fCLS_SRCCFG_DEFIDX 0 i, fixedAction s (rdF s fCLS_SRCCFG_DEFIDX 0 i)))) ∧
  (∀ (e : Eng) (v : Word) (s x y : State) (i : Nat), accept s e false (fAddr fCLS_EGO_WRITE 0 0) v = some x → i = rdF x fCLS_ESEL_INDEX →
    (v.getLsbD 0 = true →
      (entryRefusal x ≠ 0 → exec (.clsEntryWrite e v) s = .next (eres x 1 (entryRefusal x))) ∧
      (entryRefusal x = 0 → y = putRows x false i (stagedRows x) →
        exec (.clsEntryWrite e v) s = .next { y with cls := { y.cls with op := some (i, stagedRows x) } })) ∧
    (v.getLsbD 0 = false → v.getLsbD 1 = true →
      (x.cls.op.isSome = true → exec (.clsEntryRead e v) s = .next (eres x 1 1)) ∧
      (x.cls.op = none → ∃ t, exec (.clsEntryRead e v) s = .next (eres t 0 0) ∧ onF t fCLS_ECTL_VALID = (clsRow x false i).valid ∧
        onF t fCLS_ECTL_WIDE = (clsRow x false i).wide ∧
        ((clsRow x false i).key < 2 ^ 320 → staged320 t fCLS_EKEYH_K = (clsRow x false i).key) ∧
        ((clsRow x false i).mask < 2 ^ 320 → staged320 t fCLS_EMSKH_M = (clsRow x false i).mask) ∧
        ((clsRow x false i).act < 2 ^ 96 → stagedAct t = (clsRow x false i).act)))) ∧
  (∀ (s : State) (l : List ClsRow) (i : Nat), s.cls.op = some (i, l) → live s = true → ∀ y, y = putRows s true i l →
    exec .clsEntryWriteDone s = .next (eres { y with cls := { y.cls with op := none } } 0 0)) ∧
  (∀ (e : Eng) (v : Word) (s x : State) (k : Nat), accept s e false (fAddr fCLS_HIDATA_ENTRY 0 0) v = some x →
    k = rdF x fCLS_HISEL_GROUP * 4096 + rdF x fCLS_HISEL_INDEX → exec (.hidataWrite e v) s =
      .next (wrF { x with cls := { x.cls with ind := tset (fun _ => 0) x.cls.ind k v.toNat } } fCLS_HISEL_INDEX (rdF x fCLS_HISEL_INDEX + 1))) ∧
  ∀ (row : Fin 65536) (s : State), live s = true →
    exec (.clsScrub row true false) s = .next (setRow s false row (clsRow s true row)) ∧
    exec (.clsScrub row false true) s = .next (setRow s true row (clsRow s false row)) ∧
    exec (.clsScrub row false false) s = .next s ∧ exec (.clsScrub row true true) s = .next (loseRow s row)

/-- A request of FGO while another runs answers state 1 cause 1. WRITE replaces the record of FSEL's flow; with RSTCR its credits fill to
their bursts, else each keeps its value below its new burst. READ brings the record to the staging words. INSERT makes the masked staged key
name FSEL's flow below 114,688 keys, refuses a key that is there with cause 3 and a full table with cause 2; DELETE takes the key out or
answers cause 4, LOOKUP answers its flow or cause 4. Completion makes FRES ready. A frame that meets FLOW disabled or a flow that is not
valid ends there, counted; else it is counted and, once whole, charged by its colour, and it ends by YACT or RACT, counted, or is placed. A
policed flow's frame is red below zero peak credit, else yellow below zero committed credit, else green; green charges both credits, yellow
the peak one, red none. [18_flows_and_policing.md] -/
def Obligations.FlowRequestsRunOneAtATime : Prop :=
  (∀ (e : Eng) (v : Word) (s x : State) (c : Instr), accept s e false (fAddr fFLOW_FGO_OP 0 0) v = some x → x.flow.op.isSome = true →
    (c = .flowRecordWrite e v ∧ v.toNat % 16 = 1) ∨ (c = .flowRecordRead e v ∧ v.toNat % 16 = 2) ∨
      (c = .exactMatchInsert e v ∧ v.toNat % 16 = 3) ∨ (c = .exactMatchDelete e v ∧ v.toNat % 16 = 4) ∨
      (c = .exactMatchLookup e v ∧ v.toNat % 16 = 5) → exec c s = .next (result x fFLOW_FRES_STATE 3)) ∧
  (∀ (e : Eng) (v : Word) (s x : State) (k key f : Nat), accept s e false (fAddr fFLOW_FGO_OP 0 0) v = some x → x.flow.op = none →
    (k, key) = stagedKey x → f = rdF x fFLOW_FSEL_FLOW →
    (v.toNat % 16 = 1 → ∃ t, exec (.flowRecordWrite e v) s = .next t ∧ flowRec t f = stagedRec x ∧ t.flow.op = some 0 ∧
      (onF x fFLOW_FREC0_RSTCR = true → flowC t f = (stagedRec x).cbs * perByte ∧ flowP t f = (stagedRec x).pbs * perByte) ∧
      (∀ g, g ≠ f → flowRec t g = flowRec x g)) ∧
    (v.toNat % 16 = 2 → ∃ t, exec (.flowRecordRead e v) s = .next t ∧ t.flow = { x.flow with op := some 0 } ∧
      ((flowRec x f).prog < 64 → (flowRec x f).queue < 2 ^ 14 → (flowRec x f).txsc < 2 ^ 10 → (flowRec x f).cir < 2 ^ 24 →
        (flowRec x f).cbs < 2 ^ 24 → (flowRec x f).pir < 2 ^ 24 → (flowRec x f).pbs < 2 ^ 24 → stagedRec t = flowRec x f ∧ onF t fFLOW_FREC0_RSTCR = false)) ∧
    (v.toNat % 16 = 3 →
      ((emFind x k key).isSome = true → exec (.exactMatchInsert e v) s = .next { x with flow := { x.flow with op := some 7 } }) ∧
      (emFind x k key = none → 131072 ≤ x.flow.keys.length →
        exec (.exactMatchInsert e v) s = .next { x with flow := { x.flow with op := some 5 } }) ∧
      (emFind x k key = none → x.flow.keys.length < 114688 → ∃ t, exec (.exactMatchInsert e v) s = .next t ∧
        emFind t k key = some f ∧ t.flow.op = some 0)) ∧
    (v.toNat % 16 = 4 →
      ((emFind x k key).isSome = true → ∃ t, exec (.exactMatchDelete e v) s = .next t ∧ emFind t k key = none ∧ t.flow.op = some 0) ∧
      (emFind x k key = none → exec (.exactMatchDelete e v) s = .next { x with flow := { x.flow with op := some 9 } })) ∧
    (v.toNat % 16 = 5 → exec (.exactMatchLookup e v) s = .next { x with flow := { x.flow with
      op := some (match emFind x k key with | some g => 16 * g | none => 9) } })) ∧
  (∀ (s : State) (r : Nat), s.flow.op = some r → live s = true →
    exec .flowOpComplete s = .next (result { s with flow := { s.flow with op := none } } fFLOW_FRES_STATE r)) ∧
  (∀ (s u w : State) (x y : Flight) (r : FlowRec) (hash f c i : Nat), f = x.frame.flow → i = sourceIndex x.frame.source →
    (active s 0x0c 0 = false → flowDecide s x r hash = endHere (count s 0x0c kFlowDisabled i) x) ∧
    (active s 0x0c 0 = true → r.valid = false → flowDecide s x r hash = endHere (count s 0x0c kFlowInvalid i) x) ∧
    (active s 0x0c 0 = true → r.valid = true → c = colourOf s f → y = { x with frame := { x.frame with colour := c }, decided := true } →
      u = count s 0x0c (kFlowFrames c) f → w = (if x.ended then chargeFlow u f c x.rxLen else u) →
      flowDecide s x r hash = (if c = 1 ∧ r.yact then endHere (count w 0x0c kFlowYact f) y
        else if c = 2 ∧ r.ract then endHere (count w 0x0c kFlowRact f) y else place w y r hash))) ∧
  ∀ (s : State) (f len : Nat), (flowRec s f).polen = true →
    colourOf s f = (if flowP s f < 0 then 2 else if flowC s f < 0 then 1 else 0) ∧
    flowC (chargeFlow s f 0 len) f = flowC s f - len * perByte ∧ flowP (chargeFlow s f 0 len) f = flowP s f - len * perByte ∧
    flowC (chargeFlow s f 1 len) f = flowC s f ∧ flowP (chargeFlow s f 1 len) f = flowP s f - len * perByte ∧
    flowC (chargeFlow s f 2 len) f = flowC s f ∧ flowP (chargeFlow s f 2 len) f = flowP s f

/-- A frame bound for a scheduler queue is refused at its first cell by the first cause that holds (disabled, too deep for its colour,
shelf, spill area full), counted, else admitted and counted; one bound for a live engine or a ring likewise, a ring without entries counted;
a fence takes up to 2,048 cells. A frame that has ended well, its ICV and seals known, becomes visible in its place, poisoned by a parity
error of a queue that SCH does not serve. A block read back into room joins the head segment, counted; its failed seal raises event and
fault 0x400_010. A queue-state error discards the queue's frames, counted, event and fault 0x340_011. HQDONE returns ring entries. A service
decision serves the head frame that the tree chooses in the first class, in order, with an eligible candidate that overload does not take,
classes held by a gate and lost ones counted; without one a port's line goes on. Every SMPINT us depth and delay of each attached queue are
sampled. [19_queues_and_shelf.md; 20_scheduling.md] -/
def Obligations.QueuesAdmitCommitAndServe : Prop :=
  (∀ (f : Nat) (s : State) (x : Flight), flight s f = some x → live s = true → x.stage = 1 →
    (∀ q, x.dest = .sched q → q < 16376 →
      (∀ k, queueRefusal s q x.frame.colour = some k → exec (.qmAdmit f) s = .next (count (dropFlight s x.id) 0x0d k q)) ∧
      (queueRefusal s q x.frame.colour = none → exec (.qmAdmit f) s = .next (admitFlight s x))) ∧
    (∀ e, x.dest = .eng e → x.decided = false ∨ engLives s e = true → ∀ r,
      r = otherRefusal s qrecReset (framesCells (eng s e).frames + openFor s (.eng e)) x.frame.colour →
      (r = none → exec (.qmAdmit f) s = .next (admitFlight s x)) ∧
      (∀ k, r = some k → exec (.qmAdmit f) s = .next (count (dropFlight s x.id) 0x0d k (0x8000 + e)))) ∧
    (∀ n, x.dest = .host n → ringSize s n = 0 → exec (.qmAdmit f) s = .next (count (dropFlight s f) 0x0d kQmNoRing n)) ∧
    (∀ n, x.dest = .host n → ringSize s n ≠ 0 → (queue s (16376 + n)).rebuild = false →
      otherRefusal s (qrec s (16376 + n)) (framesCells (hostq s n).wait + openFor s (.host n)) x.frame.colour = none →
      exec (.qmAdmit f) s = .next (admitFlight s x)) ∧
    (∀ k m, x.dest = .fence k → s.plc.moves.find? (fun m => fenceKey m == k) = some m → fenceCells s m + flightCells x ≤ 2048 →
      exec (.qmAdmit f) s = .next (admitFlight s x)) ∧
    (x.dest = .none → exec (.qmAdmit f) s = .next (dropFlight s f))) ∧
  (∀ (f : Nat) (par : Bool) (s : State) (x y : Flight), flight s f = some x → live s = true → x.stage = 2 → x.ended = true → x.bad = 0 →
    x.icv = .none → sealsDone s x.frame = true → y = (if par && readWhole x.dest then { x with frame := { x.frame with poison := true } } else x) →
    exec (.qmFrameCommit ⟨f, par⟩) s = .next (commitFrame (dropFlight s f) y)) ∧
  (∀ (s : State) (x : Flight) (e : Nat), x.dest = .eng e → x.frame.poison = false →
    (eng (commitFrame s x) e).frames = (eng s e).frames ++ [x.frame]) ∧
  (∀ (q : Fin 16384) (s : State) (c : Nat) (l : List Nat), (queue s q).blocks = c :: l → live s = true → channelPaused s c = false →
    (queue s q).headc + 8 ≤ headMax s q ∨ ((channelHeld s c || critical s q) = true ∧ 8 ≤ sharedFree s) →
    exec (.spillReadback q true) s = .next (settle (setQueue (count (count s 0x0d kQmCellsIn q 8) 0x0d kQmBlocksIn q) q
      { queue s q with headc := (queue s q).headc + 8, blocks := l }) q) ∧
    ∃ x a, exec (.spillReadback q false) s = .next (sealFault x 0x400010 a 0x10) ∧ { x with sys := s.sys } = s) ∧
  (∀ (q : Fin 16384) (s : State) (n : Nat) (d : Dest) (w : Nat), live s = true → (q.val < 16376 → d = .sched q ∧ w = 0) →
    (16376 ≤ q.val → d = .host (q - 16376) ∧ w = (hostq s (q - 16376)).wait.length) →
    n = (queue s q).frames.length + w + (s.flights.filter fun x => x.stage == 2 && x.dest == d).length →
    ∃ x, exec (.queueStateEccError q) s = .next (raiseFault (emit1 (count x 0x0d kQmEcc q n) 0x340011 q) 0x340011 13) ∧
      queue x q = { queueReset with rebuild := true }) ∧
  (∀ (e : Eng) (n : ChainI) (v : Word) (s x : State) (k r : Nat), accept s e false (fAddr fQM_HQDONE_N 0 (4 * n)) v = some x →
    (hostq x n).wait = [] → k = v.toNat % 2048 → r = min k (hostq x n).filled →
    ∃ t, exec (.hqdoneWrite e n v) s = .next t ∧ (hostq t n).filled = (hostq x n).filled - r ∧
      (hostq t n).head = ((hostq x n).head + r) % max 1 (ringSize x n)) ∧
  (∀ (n : Fin 128) (pre parity ahead : Bool) (lost : BitVec 8) (s x : State) (cls out : List Nat) (takes : Nat → Bool), live s = true →
    mayDecide s n pre = true → cls = (classOrder s n).filter (fun c => !(n.val < 32 && preActive s n) || isPreemptable s n c == pre) →
    out = cls.filter (fun c => lost.getLsbD c && !protectedClass s n c && !(candidates s n c ahead).isEmpty) →
    takes = (fun c => !out.contains c && !(candidates s n c ahead).isEmpty) →
    x = countWaits s n (cls.takeWhile fun c => !takes c) out ahead →
    (cls.find? takes = none → exec (.serviceDecision n ⟨pre, ahead⟩ parity lost) s = .next (if n.val < 32 then startNext x n else x)) ∧
    ∀ c p, cls.find? takes = some c → pickService x n c (candidates x n c ahead) = some p →
      (∀ r, n.val < 32 → serve p.2.2 n c p.1 p.2.1 parity = some r →
        exec (.serviceDecision n ⟨pre, ahead⟩ parity lost) s = .next (selectFrame r.2.2 n pre r.1 c p.1 none r.2.1 p.2.1)) ∧
      (32 ≤ n.val → exec (.serviceDecision n ⟨pre, ahead⟩ parity lost) s = .next (serveBurst p.2.2 n c p.1 p.2.1 parity))) ∧
  (∀ (n : Fin 128) (s : State), live s = true → active s 0x0e n = true → rdF s fSCH_SMPINT_I n ≠ 0 →
    tget (fun _ => 0) s.sch.sampleAt n + 625 * rdF s fSCH_SMPINT_I n ≤ s.sys.ticks →
    ∃ t, exec (.schSample n) s = .next t ∧ { t with cnt := s.cnt, sch := { t.sch with sampleAt := s.sch.sampleAt } } = s ∧
      tget (fun _ => 0) t.sch.sampleAt n = s.sys.ticks ∧ (s.sys.halted = false → s.sch.sq.Pairwise (fun a b => a.1 ≠ b.1) →
      (∀ a ∈ s.sch.sq, a.1 < 16384) → ∀ q k, (q, k) ∈ s.sch.sq → ((pathOf s q).any fun p => p.2.2 == n.val) = true →
        leaf t 0x19 (kCntSample 0) q = leaf s 0x19 (kCntSample 0) q + 1 ∧
        leaf t 0x19 (kCntSample 1) q = leaf s 0x19 (kCntSample 1) q + depth s q))

/-- KGO is refused with WHY 8 where KEY is disabled, 1 while an operation runs, else for the first rule it breaks: 2 slot 0, 4 attributes, 6
a failed random source, 3 a source slot not usable, 5 a derivation, 9 accumulator 0. WRITE fills the target slot from SLKEY, GENERATE from
the random source once ready, DERIVE by the KDF, ERASE empties it, QUERY reports its attributes, MEXTEND makes A the SHA-384 of A and DMEAS;
SLKEY is cleared and completion gives KRES. A slot that fails its CHECK or reaches its lifetime turns BAD with event 0x440_010. RNG_READY
sets READY and gives RAND a result, the DRBG is reseeded once 1 s has passed or 65,536 requests were drawn, RAND_REFRESH gives the next
result, a health failure sets FAILED with event 0x440_011 and takes RAND back. [23_keys_and_trust.md] -/
def Obligations.KeysAreWrittenDerivedAndAged : Prop :=
  (∀ (e : Eng) (v : BitVec 24) (s x y : State) (n op : Nat) (c : Instr), accept s e false (fAddr fKEY_KGO_OP 0 0) v = some x → v.toNat % 16 = op →
    y = count x 0x11 (kKeyOp op) 0 → n = rdF y fKEY_SLSEL_SLOT →
    (op = 1 ∧ c = .keyWrite e v) ∨ (op = 2 ∧ c = .keyGenerate e v) ∨ (op = 3 ∧ c = .keyDerive e v) ∨ (op = 4 ∧ c = .keyErase e v) ∨
      (op = 5 ∧ c = .keyQuery e v) ∨ (op = 6 ∧ c = .mextend e v) →
    (active y 0x11 0 = false → exec c s = .next (keyRefuse y 8)) ∧
    (active y 0x11 0 = true → (y.key.op.isSome || y.key.waits) = true →
      exec c s = .next (count (result y fKEY_KRES_WHY 1) 0x11 (kKeyWhy 1) 0)) ∧
    (active y 0x11 0 = true → y.key.op = none → y.key.waits = false →
      (1 ≤ op → op ≤ 4 → n = 0 → exec c s = .next (keyRefuse y 2)) ∧
      (1 ≤ op → op ≤ 3 → n ≠ 0 → attrOk (slAttr y) = false → exec c s = .next (keyRefuse y 4)) ∧
      (n ≠ 0 → attrOk (slAttr y) = true →
        (op = 1 → exec (.keyWrite e v) s = .next (keyRuns (writeSlot y n (slKey y) (slAttr y) (rdF y fKEY_SLLIFE_LIFE) false) none)) ∧
        (op = 2 → onF y fKEY_RNGSTAT_FAILED = true → exec (.keyGenerate e v) s = .next (keyRefuse y 6)) ∧
        (op = 2 → onF y fKEY_RNGSTAT_FAILED = false → onF y fKEY_RNGSTAT_READY = true →
          exec (.keyGenerate e v) s = .next (generate y)) ∧
        (op = 2 → onF y fKEY_RNGSTAT_FAILED = false → onF y fKEY_RNGSTAT_READY = false →
          exec (.keyGenerate e v) s = .next { y with key := { y.key with waits := true } }) ∧
        (op = 3 → slotUsable y (rdF y fKEY_DSRC_SLOT) 3 = false → exec (.keyDerive e v) s = .next (keyRefuse y 3)) ∧
        (op = 3 → slotUsable y (rdF y fKEY_DSRC_SLOT) 3 = true → deriveBad y (keySlot y (rdF y fKEY_DSRC_SLOT)) = true →
          exec (.keyDerive e v) s = .next (keyRefuse y 5)) ∧
        (op = 3 → slotUsable y (rdF y fKEY_DSRC_SLOT) 3 = true → deriveBad y (keySlot y (rdF y fKEY_DSRC_SLOT)) = false →
          ∀ (a len : Nat) (src : KeySlot) (k : List Nat), a = slAttr y → src = keySlot y (rdF y fKEY_DSRC_SLOT) →
            len = (if a.testBit 2 then 32 else 16) →
            k = kdf (slotKey src) (((List.range 4).map fun j => numBytes 3 (rdF y fKEY_DLABEL_L 0 j)).flatten ++ [0] ++ digest y src ++
              [(if a % 4 < 2 then 0 else a % 4 - 1) * 2 + a / 4 % 2] ++ numBytes 4 (8 * len)) len →
            exec (.keyDerive e v) s = .next (keyRuns (writeSlot y n (numOf k * 2 ^ (256 - 8 * len)) a (rdF y fKEY_SLLIFE_LIFE)
              (src.measured && !onF y fKEY_DSRC_SUPPLIED)) none))) ∧
      (op = 4 → n ≠ 0 → exec (.keyErase e v) s = .next (keyRuns (slotChanged (setSlot y n slotReset) n) none)) ∧
      (op = 5 → ∀ k, k = keySlot y n → exec (.keyQuery e v) s = .next (keyRuns y (some (k.cls + 4 * k.len + 8 * k.dir + 32 * b2n k.exp +
        64 * b2n k.measured + 128 * b2n k.valid + 256 * b2n k.bad + 512 * k.badWhy)))) ∧
      (op = 6 → v.toNat / 16 % 4 = 0 → exec (.mextend e v) s = .next (keyRefuse y 9)) ∧
      (op = 6 → v.toNat / 16 % 4 ≠ 0 → exec (.mextend e v) s = .next (keyRuns (extend y (v.toNat / 16 % 4) (dmeas y)) none)))) ∧
  (∀ (s : State) (n key attr life : Nat) (m : Bool) (x : KeySlot), x = keySlot (writeSlot s n key attr life m) n →
    x.valid = true ∧ x.bad = false ∧ x.measured = m ∧ x.life = life ∧ x.cls = attr % 4 ∧ x.dir = attr / 8 % 4 ∧ x.exp = attr.testBit 5 ∧
    x.key = (if attr.testBit 2 then key else key / 2 ^ 128 * 2 ^ 128) ∧ x.at_ = tget (fun _ => 0) s.log.journal 0) ∧
  (∀ (s x : State) (why : Nat) (q : Option Nat), s.key.op = some (why, q) → live s = true →
    x = count (result { s with key := { s.key with op := none } } fKEY_KRES_WHY why) 0x11 (kKeyWhy why) 0 →
    exec .keyOpComplete s = .next (match q with | some a => result x fKEY_SLQ_ATTR a | none => x)) ∧
  (∀ (n : Fin 8192) (s : State), live s = true → (keySlot s n).valid = true → (keySlot s n).bad = false →
    exec (.keyScrub n true) s = .next (slotBad s n 1) ∧ exec (.keyScrub n false) s = .next s ∧
    ((keySlot s n).life ≠ 0 → (keySlot s n).at_ + (keySlot s n).life ≤ tget (fun _ => 0) s.log.journal 0 →
      exec (.keyLifeExpiry n) s = .next (slotBad s n 2))) ∧
  (∀ (s : State) (n why : Nat), (keySlot (slotBad s n why) n).bad = true ∧ (keySlot (slotBad s n why) n).badWhy = why) ∧
  ∀ s x : State, live s = true →
    (s.sys.crystal = true → onF s fKEY_RNGSTAT_READY = false → onF s fKEY_RNGSTAT_FAILED = false → x = newRand (setPace (wrF s fKEY_RNGSTAT_READY 1) paceReseed) →
      exec .rngReady s = .next (if x.key.waits then generate { x with key := { x.key with waits := false } } else x)) ∧
    (onF s fKEY_RNGSTAT_READY = true → onF s fKEY_RNGSTAT_FAILED = false →
      (paced s paceReseed 625000000 = true ∨ 65536 ≤ s.key.drawn →
        exec .drbgReseed s = .next (count { setPace s paceReseed with key := { s.key with drawn := 0 } } 0x11 kKeyReseed 0)) ∧
      (s.key.randDue = true → exec .randRefresh s = .next (newRand s) ∧ isReady (newRand s) (fAddr fKEY_RAND_R 0 0) = true)) ∧
    (onF s fKEY_RNGSTAT_FAILED = false → ∃ t, exec .rngHealthFailure s = .next t ∧ onF t fKEY_RNGSTAT_FAILED = true ∧
      isReady t (fAddr fKEY_RAND_R 0 0) = false ∧ t.key.waits = false ∧
      t.flt.raised = s.flt.raised ++ [⟨0x440011, if s.mpe.keys then 13 else 63, 0, 0, now s⟩])

/-- LCGO without CONFIRM 0xA5 does nothing. With it, it is refused with WHY 8 where KEY is disabled, 1 while a fuse write runs, else for the
rule it breaks, and otherwise its fuse write starts: op 1 to PROVISIONED from BLANK with a live hash and a root-key bank that has not failed
(6 with the random source failed, else 7), op 2 to FIELD from PROVISIONED, op 3 a hash from DMEAS into an empty position before FIELD, op 4
a revocation that leaves a live hash, op 5 a higher floor up to 64 (2 above 64), op 6 the test lock. A write that verifies is blown, LCRES
0, a transition with event 0x440_012; one that fails reads as unwritten, LCRES 7, event 0x440_013, and a failed root-key bank is never used
again. [23_keys_and_trust.md] -/
def Obligations.FusesBlowOnlyByTheirRules : Prop :=
  (∀ (e : Eng) (v : BitVec 24) (s x : State) (op h f : Nat) (c : Instr), accept s e false (fAddr fKEY_LCGO_OP 0 0) v = some x →
    op = v.toNat % 8 → h = v.toNat / 8 % 2 → f = v.toNat / 16 % 128 →
    (op = 1 ∧ c = .lcToProvisioned e v) ∨ (op = 2 ∧ c = .lcToField e v) ∨ (op = 3 ∧ c = .lcWriteHash e v) ∨ (op = 4 ∧ c = .lcRevokeHash e v) ∨
      (op = 5 ∧ c = .lcRaiseFloor e v) ∨ (op = 6 ∧ c = .lcBlowTestLock e v) →
    (v.toNat / 65536 ≠ 0xa5 → exec c s = .next x) ∧
    (v.toNat / 65536 = 0xa5 →
      (active x 0x11 0 = false → exec c s = .next (lcRes x 8)) ∧
      (active x 0x11 0 = true → x.fuse.op.isSome = true → exec c s = .next (lcRes x 1)) ∧
      (active x 0x11 0 = true → x.fuse.op = none →
        (op = 1 → onF x fKEY_RNGSTAT_FAILED = true → exec (.lcToProvisioned e v) s = .next (lcRes x 6)) ∧
        (op = 1 → onF x fKEY_RNGSTAT_FAILED = false → x.fuse.state = 0 → x.fuse.blown = 0 →
            hashLive x.fuse 0 = true ∨ hashLive x.fuse 1 = true →
            tget (fun _ => false) x.fuse.failed 0 = false ∨ tget (fun _ => false) x.fuse.failed 1 = false →
          exec (.lcToProvisioned e v) s =
            .next (wrF (startFuse (takeRandom 32 x).2 1 0 0 (ofBytes (takeRandom 32 x).1)) fKEY_LCSTATE_PENDING 1)) ∧
        (op = 1 → onF x fKEY_RNGSTAT_FAILED = false → x.fuse.state ≠ 0 ∨ x.fuse.blown ≠ 0 ∨
            (hashLive x.fuse 0 = false ∧ hashLive x.fuse 1 = false) ∨
            (tget (fun _ => false) x.fuse.failed 0 = true ∧ tget (fun _ => false) x.fuse.failed 1 = true) →
          exec (.lcToProvisioned e v) s = .next (lcRes x 7)) ∧
        (op = 2 → x.fuse.state = 1 → x.fuse.blown = 1 → exec (.lcToField e v) s = .next (wrF (startFuse x 2 0 0 0) fKEY_LCSTATE_PENDING 1)) ∧
        (op = 2 → x.fuse.state ≠ 1 ∨ x.fuse.blown ≠ 1 → exec (.lcToField e v) s = .next (lcRes x 7)) ∧
        (op = 3 → x.fuse.state ≠ 2 → tget (fun _ => none) x.fuse.hash h = none → tget (fun _ => false) x.fuse.revoked h = false →
          exec (.lcWriteHash e v) s = .next (startFuse x 3 h 0 (numOf (dmeas x)))) ∧
        (op = 3 → x.fuse.state = 2 ∨ (tget (fun _ => none) x.fuse.hash h).isSome = true ∨ tget (fun _ => false) x.fuse.revoked h = true →
          exec (.lcWriteHash e v) s = .next (lcRes x 7)) ∧
        (op = 4 → exec (.lcRevokeHash e v) s = .next (if hashLive x.fuse (1 - h) = true then startFuse x 4 h 0 0 else lcRes x 7)) ∧
        (op = 5 → exec (.lcRaiseFloor e v) s = .next (if 64 < f then lcRes x 2 else if f ≤ x.fuse.floor then lcRes x 7 else startFuse x 5 0 f 0)) ∧
        (op = 6 → exec (.lcBlowTestLock e v) s = .next (startFuse x 6 0 0 0))))) ∧
  (∀ (s y : State) (x : FuseOp), s.fuse.op = some x → live s = true →
    (y = lcRes (lcState { s with fuse := blow s.fuse x }) 0 → exec (.fuseWriteComplete true) s =
      .next (if x.op = 1 ∨ x.op = 2 then emit0 y 0x440012 else y)) ∧
    ∃ t, exec (.fuseWriteComplete false) s = .next t ∧ t.fuse.op = none ∧ rdF t fKEY_LCRES_WHY = 7 ∧
      { t.fuse with op := s.fuse.op, failed := s.fuse.failed } = s.fuse ∧
      (x.op = 1 → tget (fun _ => false) t.fuse.failed (if tget (fun _ => false) s.fuse.failed 0 then 1 else 0) = true)) ∧
  ∀ (f : FuseSt) (x : FuseOp), (x.op = 1 → (blow f x).blown = 1) ∧ (x.op = 2 → (blow f x).blown = 2 ∧ (blow f x).lock = true) ∧
    (x.op = 3 → tget (fun _ => none) (blow f x).hash x.h = some x.key) ∧ (x.op = 4 → tget (fun _ => false) (blow f x).revoked x.h = true) ∧
    (x.op = 5 → (blow f x).floor = x.floor) ∧ (x.op = 6 → (blow f x).lock = true)

/-- CGO with GO at the CHK instance of the engine's own lantern, ACTIVE and free, runs COP's operation under slot CSLOT where the slot is
VALID, not BAD, of the operation's class and DIR, and the lengths fit: CMAC and GMAC make a tag of CTLEN bytes or verify one (code 0 or 1),
WRAP-KEY and UNWRAP-KEY use RFC 3394 and WRAP-DATA and UNWRAP-DATA RFC 5649, a failed integrity check being code 2; else CRES has code 8
disabled, 6 busy, 7 another lantern, 5 a length, 3 a slot not usable, 4 its class. The order of these codes is the model's choice (log 22).
Completion writes the output bytes, tag or slot, and CRES; code 2 is event 0x480_010 and writes nothing. [23_keys_and_trust.md] -/
def Obligations.CheckValuesAreMadeAndVerified : Prop :=
  (∀ (e : Eng) (l : Lan) (v : BitVec 24) (s x y : State) (k : KeySlot) (op cls : Nat) (lenOk dirOk : Bool) (r : ChkOp) (c : Instr),
    accept s e false (fAddr fCHK_CGO_GO l 0) v = some x → v.getLsbD 0 = true → rdF s fCHK_COP_OP l = op → y = count x 0x12 (kChkOp op) l →
    k = keySlot y (rdF y fCHK_CSLOT_SLOT l) →
    (op = 1 ∧ c = .cmacGen e l v ∧ cls = 0 ∧ lenOk = macLen l y ∧ dirOk = true ∧ r = tagOf y l (chkCmac y l k)) ∨
    (op = 2 ∧ c = .cmacVer e l v ∧ cls = 1 ∧ lenOk = macLen l y ∧ dirOk = true ∧ r = verOf y l (chkCmac y l k)) ∨
    (op = 3 ∧ c = .gmacGen e l v ∧ cls = 0 ∧ lenOk = macLen l y ∧ dirOk = true ∧ r = tagOf y l (chkGmac y l k)) ∨
    (op = 4 ∧ c = .gmacVer e l v ∧ cls = 1 ∧ lenOk = macLen l y ∧ dirOk = true ∧ r = verOf y l (chkGmac y l k)) ∨
    (op = 7 ∧ c = .wrapData e l v ∧ cls = 2 ∧ dirOk = mayWrap k ∧ r = outOf y l (wrapData (slotKey k) (chkInput y l)) ∧
      lenOk = (decide (1 ≤ rdF y fCHK_CLEN_N l) && decide (rdF y fCHK_CLEN_N l ≤ 4088) && chkFits (rdF y fCHK_CIN_ADDR l) (rdF y fCHK_CLEN_N l) &&
        chkFits (rdF y fCHK_COUT_ADDR l) (max 16 (8 + (rdF y fCHK_CLEN_N l + 7) / 8 * 8)))) ∨
    (op = 8 ∧ c = .unwrapData e l v ∧ cls = 2 ∧ dirOk = mayUnwrap k ∧
      r = (match unwrapData (slotKey k) (chkInput y l) with | some d => outOf y l d | none => chkPlain 2) ∧
      lenOk = (decide (16 ≤ rdF y fCHK_CLEN_N l) && decide (rdF y fCHK_CLEN_N l ≤ 4096) && rdF y fCHK_CLEN_N l % 8 == 0 &&
        chkFits (rdF y fCHK_CIN_ADDR l) (rdF y fCHK_CLEN_N l) && chkFits (rdF y fCHK_COUT_ADDR l) (rdF y fCHK_CLEN_N l - 8))) →
    (active y 0x12 l = false → exec c s = .next (chkRes y l 8 0)) ∧
    (active y 0x12 l = true → (tget (fun _ => none) y.chk l).isSome = true → exec c s = .next (chkRes y l 6 0)) ∧
    (active y 0x12 l = true → tget (fun _ => none) y.chk l = none →
      (lanternOf e ≠ l.val → exec c s = .next (chkRes y l 7 0)) ∧
      (lanternOf e = l.val → lenOk = false → exec c s = .next (chkRes y l 5 0)) ∧
      (lanternOf e = l.val → lenOk = true → k.valid = false ∨ k.bad = true → exec c s = .next (chkRes y l 3 0)) ∧
      (lanternOf e = l.val → lenOk = true → k.valid = true → k.bad = false → k.cls ≠ cls ∨ dirOk = false → exec c s = .next (chkRes y l 4 0)) ∧
      (lanternOf e = l.val → lenOk = true → k.valid = true → k.bad = false → k.cls = cls → dirOk = true →
        ∀ t, t = { y with chk := tset (fun _ => none) y.chk l (some r) } →
          (op = 1 → exec (.cmacGen e l v) s = .next t) ∧ (op = 2 → exec (.cmacVer e l v) s = .next t) ∧
          (op = 3 → exec (.gmacGen e l v) s = .next t) ∧ (op = 4 → exec (.gmacVer e l v) s = .next t) ∧
          (op = 7 → exec (.wrapData e l v) s = .next t) ∧ (op = 8 → exec (.unwrapData e l v) s = .next t)))) ∧
  (∀ (e : Eng) (l : Lan) (v : BitVec 24) (s x y : State) (k k' : KeySlot) (op : Nat), accept s e false (fAddr fCHK_CGO_GO l 0) v = some x →
    v.getLsbD 0 = true → rdF s fCHK_COP_OP l = op → y = count x 0x12 (kChkOp op) l → k = keySlot y (rdF y fCHK_CSLOT_SLOT l) →
    active y 0x12 l = true → tget (fun _ => none) y.chk l = none → lanternOf e = l.val → k.valid = true → k.bad = false → k.cls = 2 →
    (op = 5 → mayWrap k = true → k' = keySlot y (rdF y fCHK_CKSRC_SLOT l) → chkFits (rdF y fCHK_COUT_ADDR l) ((slotKey k').length + 8) = true →
      k'.valid = true → k'.bad = false → k'.exp = true → exec (.wrapKey e l v) s =
        .next { y with chk := tset (fun _ => none) y.chk l (some (outOf y l (wrapKey (slotKey k) (slotKey k')))) }) ∧
    (op = 6 → mayUnwrap k = true → (eng y e).kp = true → rdF y fCHK_CLEN_N l = (if (ctAttr y l).testBit 2 then 40 else 24) →
      chkFits (rdF y fCHK_CIN_ADDR l) (rdF y fCHK_CLEN_N l) = true → rdF y fCHK_CTSLOT_SLOT l ≠ 0 → attrOk (ctAttr y l) = true →
      (∀ d r, unwrapKey (slotKey k) (chkInput y l) = some d →
        r = { chkPlain 0 with slot := some (rdF y fCHK_CTSLOT_SLOT l, numOf (d ++ List.replicate (32 - d.length) 0)) } →
        exec (.unwrapKey e l v) s = .next { y with chk := tset (fun _ => none) y.chk l (some r) }) ∧
      (unwrapKey (slotKey k) (chkInput y l) = none →
        exec (.unwrapKey e l v) s = .next { y with chk := tset (fun _ => none) y.chk l (some (chkPlain 2)) }))) ∧
  ∀ (l : Lan) (s x : State) (r : ChkOp), tget (fun _ => none) s.chk l = some r → live s = true →
    x = putShared { s with chk := tset (fun _ => none) s.chk l none } l r.out r.bytes →
    (r.tag = [] → r.slot = none → exec (.chkOpComplete l) s =
      .next (chkRes (if r.code = 2 then emit0 x 0x480010 else x) l r.code r.bytes.length)) ∧
    (∀ n k, r.tag = [] → r.slot = some (n, k) → r.code = 0 → exec (.chkOpComplete l) s =
      .next (chkRes (writeSlot x n k (ctAttr x l) (rdF x fCHK_CTLIFE_LIFE l) false) l 0 r.bytes.length)) ∧
    (r.tag ≠ [] → ∃ t, exec (.chkOpComplete l) s = .next t ∧ rdF t fCHK_CRES_CODE l = r.code % 16 ∧
      (∀ k, k < 6 → isReady t (fAddr fCHK_CTAGOUT_T l k) = true) ∧
      ∀ b, r.tag.length ≤ 18 → b < r.tag.length →
        (rdW t (fAddr fCHK_CTAGOUT_T l (b / 3))).toNat / 2 ^ (16 - 8 * (b % 3)) % 256 = (r.tag.getD b 0).toNat)

/-- A tick advances the counter by exactly its increment. LATCH copies counter and generation. ADJGO is refused whole with its STATE (3
conflicting or empty, else 1 a reference not in use or not allowed, else 2 out of range; the order is the model's, log 24), counted, event
0x4C0_016, or carried out: FADJ, then the offset or the new time by a slew, or by a step beyond 1,000 ns where asked, which is a new
generation. A selection takes the best eligible reference, at once where the one in use is lost, after WTR where a better one comes. PPS
edges are postmarked less their delay, 1.5 s without one is event 0x4C0_014; ToD characters, at their bit rate, queue up to 64, TODTAKE and
EGTAKE take the oldest; the recovered frequency comes every 100 ms. Outputs follow the counter. A trigger armed at a valid START fires at
its instants, once for several passed, the others missed, and stops at COUNT. [24_time.md] -/
def Obligations.TimeIsKeptAdjustedAndTriggered : Prop :=
  (∀ s : State, 0 ≤ increment s → timeUnits s + increment s < ((2 ^ 72 * 1000000000 * 2 ^ 40 : Nat) : Int) →
    timeUnits (countTick s) = timeUnits s + increment s) ∧
  (∀ (e : Eng) (k : Fin 8) (v : BitVec 24) (s x y z : State), accept s e false (fAddr fTIME_LATCH_GO 0 (8 * k)) v = some x →
    (v.getLsbD 0 = false → exec (.snapshotLatch e k v) s = .next x) ∧
    (v.getLsbD 0 = true →
      y = wrF (wrF (wrF x fTIME_S2_S (x.time.sec / 2 ^ 48) 0 (8 * k)) fTIME_S1_S (x.time.sec / 2 ^ 24) 0 (8 * k)) fTIME_S0_S x.time.sec 0 (8 * k) →
      z = wrF (wrF y fTIME_NH_N (x.time.ns / 2 ^ 24) 0 (8 * k)) fTIME_NL_N x.time.ns 0 (8 * k) →
      ∃ t, exec (.snapshotLatch e k v) s = .next t ∧
        t = wrF (wrF z fTIME_FRAC_F (x.time.frac / 2 ^ 22) 0 (8 * k)) fTIME_GEN_G x.time.gen 0 (8 * k) ∧
        rdF t fTIME_S0_S 0 (8 * k) = x.time.sec % 2 ^ 24 ∧
        rdF t fTIME_S1_S 0 (8 * k) = x.time.sec / 2 ^ 24 % 2 ^ 24 ∧ rdF t fTIME_S2_S 0 (8 * k) = x.time.sec / 2 ^ 48 % 2 ^ 24 ∧
        rdF t fTIME_NH_N 0 (8 * k) = x.time.ns / 2 ^ 24 % 64 ∧ rdF t fTIME_NL_N 0 (8 * k) = x.time.ns % 2 ^ 24 ∧
        rdF t fTIME_FRAC_F 0 (8 * k) = x.time.frac / 2 ^ 22 % 2 ^ 18 ∧ rdF t fTIME_GEN_G 0 (8 * k) = x.time.gen % 2 ^ 24)) ∧
  (∀ (e : Eng) (v : BitVec 24) (s x : State), accept s e false (fAddr fTIME_ADJGO_REF 0 0) v = some x →
    (v.toNat / 2 % 4 = 0 → exec (.adjFreq e v) s = .next (adjust x v.toNat)) ∧
    (v.toNat / 2 % 4 = 1 → exec (.adjOffset e v) s = .next (adjust x v.toNat)) ∧
    (2 ≤ v.toNat / 2 % 4 → exec (.adjSet e v) s = .next (adjust x v.toNat))) ∧
  (∀ (s s₀ s₁ : State) (v ref : Nat) (d : Int), ref = v / 16 % 8 →
    s₀ = (if 6 ≤ ref then unassigned s (fAddr fTIME_ADJGO_REF 0 0) ref else s) →
    s₁ = (if v.testBit 0 then setFadj s₀ (stagedFadj s₀) else s₀) → d = adjTarget s₀ (v.testBit 2) - timeUnits s₀ →
    (v % 8 = 0 ∨ (v.testBit 1 = true ∧ v.testBit 2 = true) → adjCheck s v = 3) ∧
    (v % 8 ≠ 0 → ¬(v.testBit 1 = true ∧ v.testBit 2 = true) →
      (ref ≠ rdF s fTIME_TSTAT_SELREF ∨ (rdF s fTIME_TSTAT_SELREF = 4 ∧ v / 2 % 4 ≠ 0) ∨
        (rdF s fTIME_TSTAT_STATE = 3 ∧ rdF s fTIME_TSTAT_SELREF = 0 ∧ v.testBit 0 = true) → adjCheck s v = 1) ∧
      (ref = rdF s fTIME_TSTAT_SELREF → (rdF s fTIME_TSTAT_SELREF = 4 → v / 2 % 4 = 0) →
        (rdF s fTIME_TSTAT_STATE = 3 → rdF s fTIME_TSTAT_SELREF = 0 → v.testBit 0 = false) →
        adjCheck s v = (if v.testBit 0 = true ∧ 1759218604 < (stagedFadj s).natAbs then 2 else 0))) ∧
    (adjCheck s v ≠ 0 → adjust s v = emit (result (count s₀ 0x13 kTimeRefused 0) fTIME_ADJRES_STATE (adjCheck s v + 4 * b2n (s₀.time.slew != 0)))
      0x4c0016 ref (rdF s₀ fTIME_TSTAT_SELREF) (v % 16 + 16 * adjCheck s v)) ∧
    (adjCheck s v = 0 → v / 2 % 4 = 0 → adjust s v = result s₁ fTIME_ADJRES_STATE (4 * b2n (s₁.time.slew != 0))) ∧
    (adjCheck s v = 0 → v / 2 % 4 ≠ 0 → (v.testBit 2 || v.testBit 3) = false ∨ d.natAbs ≤ 1000 * 2 ^ 40 →
      adjust s v = result { s₁ with time := { s₁.time with slew := d } } fTIME_ADJRES_STATE (4 * b2n (d != 0))) ∧
    (adjCheck s v = 0 → v / 2 % 4 ≠ 0 → (v.testBit 2 || v.testBit 3) = true → 1000 * 2 ^ 40 < d.natAbs →
      (∀ y, y = stepTime s₁ (timeUnits s₁ + d) (b2n (v.testBit 2)) ref →
        adjust s v = result y fTIME_ADJRES_STATE (4 * b2n (y.time.slew != 0))) ∧
      timeUnits (adjust s v) = adjTarget s₀ (v.testBit 2) % ((2 ^ 72 * 1000000000 * 2 ^ 40 : Nat) : Int) ∧
      (adjust s v).time.gen = (s₀.time.gen + 1) % 2 ^ 24 ∧ (adjust s v).time.slew = 0)) ∧
  (∀ s : State, s.time.slew = 0 → exec .slewEnd s = .next (endSlew s)) ∧
  (∀ (s x : State), alwaysOn s = true → active s 0x13 0 = true → x = noteRefs s →
    (rdF x fTIME_TSTAT_SELREF ≠ 0 → eligible x (rdF x fTIME_TSTAT_SELREF) = false → exec .refSelection s = .next (selectRef x (bestRef x))) ∧
    (rdF x fTIME_TSTAT_SELREF = 0 → rdF x fTIME_TSTAT_STATE ≠ 3 → exec .refSelection s = .next (selectRef x (bestRef x))) ∧
    (∀ (r : Fin 6) (t : Nat), tget (fun _ => none) x.time.eligAt r = some t → r ≠ 0 →
      t + rdF x fTIME_REFCTL_WTR * 625000000 ≤ x.sys.ticks → bestRef x = r.val →
      (rdF x fTIME_TSTAT_SELREF = 0 ∧ rdF x fTIME_TSTAT_STATE = 3) ∨ r.val < rdF x fTIME_TSTAT_SELREF →
      exec (.wtrExpiry r) s = .next (selectRef x r))) ∧
  (∀ (s : State) (r : Nat), (r = rdF s fTIME_TSTAT_SELREF → selectRef s r = s) ∧
    (r ≠ rdF s fTIME_TSTAT_SELREF → selectRef s r =
      timeState (emit2 (endSlew (wrF (wrF s fTIME_SERVO_LOCKED 0) fTIME_TSTAT_SELREF r)) 0x4c0012 (rdF s fTIME_TSTAT_SELREF) r))) ∧
  (∀ (j : Fin 2) (s x y : State) (o n : Nat), inputsOn s = true → o = 8 * j.val →
    (onF s fTIME_PPSCFG_EN 0 o = true → n = nowNs s - rdF s fTIME_PPSCFG_DLY 0 o →
      x = result (result s fTIME_PS_S (n / 1000000000 % 2 ^ 24) 0 o) fTIME_PNH_NH (n % 1000000000 / 2 ^ 24) 0 o →
      y = result (result x fTIME_PNL_NL (n % 1000000000 % 2 ^ 24) 0 o) fTIME_PG_G s.time.gen 0 o →
      exec (.ppsInEdge j) s = .next (noteRefs (wrF { y with time := { y.time with
        ppsAt := tset (fun _ => 0) y.time.ppsAt j y.sys.ticks } } fTIME_PPSST_PPSLOS 0 0 o))) ∧
    (onF s fTIME_PPSST_PPSLOS 0 o = false → tget (fun _ => 0) s.time.ppsAt j + 937500000 ≤ s.sys.ticks →
      exec (.ppsLoss j) s = .next (noteRefs (emit0 (wrF s fTIME_PPSST_PPSLOS 1 0 o) 0x4c0014))) ∧
    (∀ (c : BitVec 8) (ferr : Bool), onF s fTIME_TODCFG_EN 0 o = true →
      paced s (paceTod j) (6062500000 / baud (rdF s fTIME_TODCFG_RATE 0 o)) = true →
      ((todFifo s j).length < 64 → exec (.todCharReceived j c ferr) s =
        .next (setTod (setPace s (paceTod j)) j (todFifo s j ++ [(c.toNat, ferr)]))) ∧
      (64 ≤ (todFifo s j).length → exec (.todCharReceived j c ferr) s = .next (count (setPace s (paceTod j)) 0x13 kTimeTod j)))) ∧
  (∀ (e : Eng) (j : Fin 2) (v : BitVec 24) (s x : State), v.getLsbD 0 = true →
    (accept s e false (fAddr fTIME_TODTAKE_TAKE 0 j) v = some x → exec (.todtake e j v) s = .next (setTod x j (todFifo x j).tail)) ∧
    (accept s e false (fAddr fTIME_EGTAKE_TAKE 0 0) v = some x → ∀ l, l = tget (fun _ => []) x.time.eg (rdF x fTIME_EGSEL_PORT) →
      exec (.egtake e v) s = .next { x with time := { x.time with eg := tset (fun _ => []) x.time.eg (rdF x fTIME_EGSEL_PORT) l.tail } })) ∧
  (∀ (v : BitVec 24) (s : State), inputsOn s = true → (rdF s fTIME_REFCTL_EN).testBit 3 = true → paced s paceSyncE 62500000 = true →
    exec (.synceFreqMeasure v) s = .next (result (setPace s paceSyncE) fTIME_SEFREQ_F v.toNat)) ∧
  (∀ (j : Fin 2) (s : State) (o x : Nat), o = 8 * j.val → x = (nowNs s + rdF s fTIME_PPOADV_ADV 0 o) % 1000000000 →
    (∀ b, b = (live s && onF s fTIME_PPOCFG_EN 0 o && decide (x < rdF s fTIME_PPOCFG_WIDTH 0 o * 1000)) →
      exec (.ppsOutPulse j) s = .next { s with time := { s.time with ppsOut := tset (fun _ => false) s.time.ppsOut j b } }) ∧
    (live s = true → onF s fTIME_TODOCFG_EN 0 o = true → onF s fTIME_TODOCFG_MSGEN 0 o = true → 10000000 ≤ x → x ≤ 20000000 →
      exec (.todOutMessage j) s = .next { s with time := { s.time with
        todOut := tset (fun _ => []) s.time.todOut j (todMessage s ((nowNs s + rdF s fTIME_PPOADV_ADV 0 o) / 1000000000)) } })) ∧
  (∀ (e : Eng) (t : Fin 16) (v : BitVec 24) (s x : State), accept s e false (fAddr fTIME_TARM_ARM 0 (16 * t)) v = some x →
    (v.getLsbD 0 = true → trigBad x t = false → onF x fTIME_TRGCTL_EN 0 (16 * t) = true →
      exec (.triggerArm e t v) s = .next (setTrig x t ⟨true, nearSec x.time.sec (trigStart x t).1 18, (trigStart x t).2, 0⟩)) ∧
    (v.getLsbD 0 = true → trigBad x t = true ∨ onF x fTIME_TRGCTL_EN 0 (16 * t) = false → exec (.triggerArm e t v) s = .next x) ∧
    (v.getLsbD 0 = false → v.getLsbD 1 = true → exec (.triggerStop e t v) s = .next (setTrig x t { trigOf x t with run := false }))) ∧
  ∀ (t : Fin 16) (s : State) (g : Trig) (last cnt : Nat), alwaysOn s = true → s.sys.halted = false → g = trigOf s t → g.run = true →
    onF s fTIME_TRGCTL_EN 0 (16 * t) = true → fireNs s t g.k ≤ nowNs s → 0 < trigPeriod s t → cnt = rdF s fTIME_TCNT_C 0 (16 * t) →
    last = (if cnt = 0 then g.k + (nowNs s - fireNs s t g.k) / trigPeriod s t
      else max g.k (min (g.k + (nowNs s - fireNs s t g.k) / trigPeriod s t) (cnt - 1))) →
    exec (.triggerFire t) s = .next (setTrig (fireEffects (wrF s fTIME_TMISS_M
      (min 0xffffff (rdF s fTIME_TMISS_M 0 (16 * t) + (last - g.k))) 0 (16 * t)) t last) t
      { g with k := last + 1, run := decide (cnt = 0) || decide (last + 1 < cnt) }) ∧
    (∀ k, cnt = 0 → fireNs s t k ≤ nowNs s → k ≤ last)

/-- The candle in range sets OSC and TIME moves to it, a restart taking learning to 24 h at most, event 0x500_015; its stop clears OSC and
OVENOK, moves TIME to the crystal and is event 0x500_014, tried again after 60 s; OVENOK set and cleared are events 0x500_012 and 0x500_013.
A comparison that moves by more than 10 ppb sets JUMP, counts, takes learning to 24 h at most and is event 0x500_017. Each second evaluates
the model, learning in LOCKED and correcting in HOLDOVER. A conversion, at its channel's rate, gives AVAL the input's code by RANGE and its
watcher sees it; a calibration slot of MODE 1 skips four results, a forced one of the other modes is event 0x540_014. An edge at a pin moves
its level, and a selected one on an input sets DIOEDGE. An apply instant takes the staged values of a cycle that is ready and is late, event
0x540_015, for one that is not. A PWM period starts when the one before has ended. [25_candle_holdover.md; 26_measurement_and_control.md] -/
def Obligations.TheCandleAndTheConvertersWork : Prop :=
  (∀ s x : State, alwaysOn s = true →
    (onF s fCNDL_CSTAT_OSC = false → s.cndl.failed = false ∨ s.cndl.trying = true →
      x = (if s.cndl.failed then emit0 (setLearn (count s 0x14 kCndlRestart 0) (min s.cndl.learn (24 * 3600))) 0x500015 else s) →
      exec .candleOscReady s = .next (clockTo (wrF { x with cndl := { x.cndl with failed := false, trying := false } } fCNDL_CSTAT_OSC 1) true)) ∧
    (onF s fCNDL_CSTAT_OSC = true → x = wrF (wrF (setPace s paceOven) fCNDL_CSTAT_OSC 0) fCNDL_CSTAT_OVENOK 0 → ∀ y,
      y = { x with cndl := { x.cndl with failed := true, trying := false, tryAt := x.sys.ticks, cmp := none } } →
      exec .candleStop s = .next (raiseFault (emit0 (timeState (clockTo y false)) 0x500014) 0x500014 38)) ∧
    (s.cndl.failed = true → s.cndl.tryAt + 37500000000 ≤ s.sys.ticks →
      exec .candleRestartAttempt s = .next { s with cndl := { s.cndl with trying := true, tryAt := s.sys.ticks } }) ∧
    (onF s fCNDL_CSTAT_OVENOK = false → paced s paceOven 37500000000 = true → s.cndl.onAt + 37500000000 ≤ s.sys.ticks →
      exec .ovenOkSet s = .next (emit0 (wrF s fCNDL_CSTAT_OVENOK 1) 0x500012)) ∧
    (onF s fCNDL_CSTAT_OVENOK = true → x = emit0 (wrF (setPace s paceOven) fCNDL_CSTAT_OVENOK 0) 0x500013 → ∀ y,
      y = { x with cndl := { x.cndl with unbound := x.cndl.unbound || onF x fCNDL_CSTAT_HOLD } } →
      exec .ovenOkClear s = .next (if onF y fCNDL_CSTAT_OSC then raiseFault y 0x500013 38 else y)) ∧
    (∀ d : BitVec 32, s.sys.crystal = true → onF s fCNDL_CSTAT_OSC = true → paced s paceCompare 625000000 = true →
      x = { setPace s paceCompare with cndl := { s.cndl with cmp := some d.toInt } } →
      ((∀ y, s.cndl.cmp = some y → (d.toInt - y).natAbs ≤ 10000) → exec (.candleCompare d) s = .next x) ∧
      (∀ y, s.cndl.cmp = some y → 10000 < (d.toInt - y).natAbs → exec (.candleCompare d) s =
        .next (emit0 (setLearn (wrF (count x 0x14 kCndlJump 0) fCNDL_CSTAT_JUMP 1) (min s.cndl.learn (24 * 3600))) 0x500017))) ∧
    (∀ (h err : BitVec 24) (fast : Bool), paced s paceModel 625000000 = true →
      x = result (result (setPace s paceModel) fCNDL_HPWR_P h.toNat) fCNDL_OERR_E err.toNat → ∀ y z,
      y = { x with cndl := { x.cndl with y := modelY x h.toNat err.toInt, unbound := x.cndl.unbound || (fast && onF x fCNDL_CSTAT_HOLD) } } →
      z = (if onF y fCNDL_CSTAT_HOLD then holdSecond y else if rdF y fTIME_TSTAT_STATE = 2 then learnSecond y else y) →
      exec (.modelEval h err fast) s = .next (boundSecond (showClass { z with cndl := { z.cndl with fsum := 0, fn := 0 } })))) ∧
  (∀ (e : Eng) (v : BitVec 24) (s x : State), accept s e false (fAddr fCNDL_LSEED_H 0 0) v = some x →
    exec (.lseedWrite e v) s = .next (showClass (setLearn x (min (v.toNat % 32) 24 * 3600)))) ∧
  (∀ (e : Eng) (s x : State), (getReady s e (fAddr fCNDL_CSTAT_OSC 0 0) = true → x = showClass s → ∃ t, exec (.cstatRead e) s = .next t ∧
      t = wrF (wrF (answer x e (some (rdW x (fAddr fCNDL_CSTAT_OSC 0 0)))) fCNDL_CSTAT_CLAMP 0) fCNDL_CSTAT_JUMP 0 ∧
      onF t fCNDL_CSTAT_CLAMP = false ∧ onF t fCNDL_CSTAT_JUMP = false ∧ (eng t e).get = none) ∧
    (getReady s e (fAddr fMEAS_DIOEDGE_E 0 0) = true → exec (.dioedgeRead e) s =
      .next (wrF (answer s e (some (rdW s (fAddr fMEAS_DIOEDGE_E 0 0)))) fMEAS_DIOEDGE_E 0))) ∧
  (∀ (c : Fin 18) (n : Int) (surge : Bool) (s y : State) (v : Nat) (u : Int), converts s c = true → periodPassed s c = true →
    y = setPace { s with meas := { s.meas with conv := tset (fun _ => none) s.meas.conv c none, stamp :=
      (match tget (fun _ => none) s.meas.conv c with | some t => tset (fun _ => 0) s.meas.stamp c t | none => s.meas.stamp) } } (paceConv c) →
    (c.val < 16 → u = n * 8388608 / (fullScale (rdF s fMEAS_ACFG_RANGE 0 (4 * c)) : Int)) → (16 ≤ c.val → u = n / 1000000) →
    (c.val < 16 → onF s fMEAS_ACFG_OPEN 0 (4 * c) = true → tget (fun _ => false) s.meas.open_ c = true → v = 0x800000) →
    (c.val < 16 → (onF s fMEAS_ACFG_OPEN 0 (4 * c) && tget (fun _ => false) s.meas.open_ c) = false →
      v = (if surge = true ∨ 8388608 ≤ u then 0x7fffff else if u < -8388608 then 0x800001 else unsext (max (-8388606) (min 8388606 u)) 24)) →
    (16 ≤ c.val → v = unsext u 24) →
    exec (.conversionResult c n surge) s = .next (watcher (count (result y fMEAS_AVAL_V v 0 (4 * c)) 0x15 kMeasResult c) c v)) ∧
  (∀ (c : Fin 18) (isOpen forced : Bool) (n : Nat) (s x : State), c.val < 16 → measOn s = true → rdF s fMEAS_ACFG_MODE 0 (4 * c) ≠ 0 →
    calDue s c (forced && rdF s fMEAS_ACFG_MODE 0 (4 * c) == 2) = true →
    x = setPace { s with meas := { { s.meas with open_ := tset (fun _ => false) s.meas.open_ c isOpen } with
      calTj := tset (fun _ => 0) s.meas.calTj c (sext (rdF s fPWR_TJ_T) 16) } } (paceCal c) →
    exec (.calibrationSlot c isOpen forced n) s = .next (if rdF s fMEAS_ACFG_MODE 0 (4 * c) = 1 then count x 0x15 kMeasSkip c 4
      else if forced then emit1 (count x 0x15 kMeasForced c n) 0x540014 c else x)) ∧
  (∀ (j : Fin 16) (rising : Bool) (s x y z : State) (at_ : Nat), s.meas.pins.testBit j ≠ rising →
    x = { s with meas := { s.meas with pins := if rising then s.meas.pins ||| 2 ^ j.val else s.meas.pins - 2 ^ j.val } } →
    y = wrF x fMEAS_DIOEDGE_E (rdF x fMEAS_DIOEDGE_E ||| 2 ^ j.val) → at_ = nowNs s - (rdF s fMEAS_DCFG_DEB 0 j + 1) * 10000 →
    z = (if onF s fMEAS_DCFG_DMSG 0 j then measPost y j (0x40 + j) (at_ / 1000000000 % 2 ^ 24) (at_ % 1000000000) else y) →
    exec (.dioEdge j rising) s = .next (if pairPin s j = false ∧ rdF s fMEAS_DCFG_DIR 0 j = 0 ∧ active s 0x15 0 = true ∧
        (live s = true ∨ (inS3 s = true ∧ onF s fMEAS_DCFG_DWAKE 0 j = true)) ∧
        (rdF s fMEAS_DCFG_EDGE 0 j).testBit (if rising then 0 else 1) = true
      then (if onF s fMEAS_DCFG_DWAKE 0 j then wakeSource z 3 else z) else x)) ∧
  (∀ (e : Eng) (v : BitVec 24) (s x : State), accept s e false (fAddr fMEAS_CYGO_GO 0 0) v = some x →
    exec (.cygoWrite e v) s = .next { x with meas := { x.meas with go := x.meas.go ||| v.toNat % 256 } }) ∧
  (∀ (c : Fin 8) (s : State) (i k : Nat) (l : List (Nat × Nat)), tget (fun _ => []) s.meas.apply c = (i, k) :: l → live s = true → i ≤ nowNs s →
    active s 0x15 0 = true → onF s fMEAS_CYCFG_EN 0 (2 * c) = true →
    ∃ y : State, { y with meas := s.meas } = s ∧
      { y.meas with joined := s.meas.joined, go := s.meas.go } = { s.meas with apply := tset (fun _ => []) s.meas.apply c l } ∧
      (∀ m : Fin 8, tget (fun _ => false) y.meas.joined m = (tget (fun _ => false) s.meas.joined m ||
        (rdF s fMEAS_PCFG_CYC 0 (4 * m) == c.val && onF s fMEAS_PCFG_EN 0 (4 * m)))) ∧
      (s.meas.go.testBit c = true → y.meas.go = s.meas.go - 2 ^ c.val ∧
        exec (.cycleApply c) s = .next (applyCycle (count y 0x15 kMeasApply c) c)) ∧
      (s.meas.go.testBit c = false → y.meas.go = s.meas.go ∧
        exec (.cycleApply c) s = .next (emit2 (count y 0x15 kMeasLate c) 0x540015 c k))) ∧
  ∀ (k : Fin 8) (s : State) (p : Nat), live s = true → s.meas.safe = false → onF s fMEAS_PCFG_EN 0 (4 * k) = true →
    8 ≤ rdF s fMEAS_PCFG_CYC 0 (4 * k) ∨ tget (fun _ => false) s.meas.joined k = true → p = rdF s fMEAS_PPER_T 0 (4 * k) →
    paced s (pacePwm k) (8 * ((tget (fun _ => none) s.meas.pwm k).getD (0, 0)).1 * 624 / 1000) = true →
    exec (.pwmPeriodStart k) s = .next (setPace { s with meas := { s.meas with
      pwm := tset (fun _ => none) s.meas.pwm k (some (p, min p (rdF s fMEAS_PDUTY_T 0 (4 * k)))) } } (pacePwm k))

/-- A LEVEL request waits while forced or asleep; else it starts, or is pending. A transition sets BUSY and the targets, lowers the level at
once and asks for the voltage where the level is not in force whole. The acknowledgement moves the rail: a level transition reaches its
level, a wake ends in S0 (from S3 by starting up), an entry goes on. Without it for 2 ms the request is sent again with event 0x580_011; the
third failure ends the transition, event 0x580_016 and its fault, or fails the wake. Entry steps reach S1; S2 once no move runs and every
flow that can has been moved off the lanterns to be gated, up to 16 at once; S3 once every chain has ended. A wake event waits while its
source is enabled and the module sleeps or enters; acted on, it begins a transition to S0. A first reading of 125 degrees forces P3, at once
or after the running transition, below 115 restores the requested level, a first reading of 135 is the H fault 0x580_022. PADS REL releases
the pads; OVLD clears on a read; TJ and VCORE become ready. [27_power_states.md; 02_feed_thermal_electrical.md; 03_self_timed_operation.md;
08_placement.md] -/
def Obligations.LevelsAreReachedAndSleepIsEnteredAndLeft : Prop :=
  (∀ (e : Eng) (v : BitVec 24) (s x y : State), accept s e false (fAddr fPWR_LEVEL_REQ 0 0) v = some x →
    y = setNow x (fAddr fPWR_LEVEL_REQ 0 0) v.toNat →
    (onF y fPWR_STATE_FORCED = true ∨ y.pwr.force.isSome = true ∨ rdF y fPWR_STATE_CURS ≠ 0 → exec (.levelRequest e v) s = .next y) ∧
    (onF y fPWR_STATE_FORCED = false → y.pwr.force = none → rdF y fPWR_STATE_CURS = 0 →
      exec (.levelRequest e v) s = .next (requestPair y 0 (rdF y fPWR_LEVEL_REQ)))) ∧
  (∀ (s x : State) (st l kind : Nat), st < 4 → l < 4 →
    (s.pwr.run = none → requestPair s st l =
      if st ≠ 0 then beginTransition (if st = 3 then dropActive s else s) 1 st 3 else if atLevel s l then s else beginLevel s l) ∧
    (s.pwr.run.isSome = true →
      x = (if onF s fPWR_STATE_PENDV then wrF s fPWR_STATE_REPL ((rdF s fPWR_STATE_REPL + 1) % 256) else s) →
      requestPair s st l = wrF (wrF (wrF x fPWR_STATE_PENDV 1) fPWR_STATE_PENDS st) fPWR_STATE_PENDL l) ∧
    onF (beginTransition s kind st l) fPWR_STATE_BUSY = true ∧ rdF (beginTransition s kind st l) fPWR_STATE_TGTS = st ∧
    rdF (beginTransition s kind st l) fPWR_STATE_TGTL = l ∧ curLevel (beginTransition s kind st l) = max (curLevel s) l ∧
    (beginTransition s kind st l).pwr.run = some kind ∧ (beginTransition s kind st l).plc.still = true ∧
    ((beginTransition s kind st l).pwr.volt = true ↔ s.pwr.rail ≠ l ∨ curLevel s ≠ l)) ∧
  (∀ s x : State, s.pwr.volt = true → alwaysOn s = true → s.sys.halted = false →
    (x = { s with pwr := { s.pwr with volt := false, rail := rdF s fPWR_STATE_TGTL } } →
      (s.pwr.run = some 0 → exec .voltageAck s = .next (followOn (clearRun (wrF x fPWR_STATE_CURL (rdF x fPWR_STATE_TGTL))))) ∧
      (s.pwr.run = some 1 → exec .voltageAck s = .next (forceWaited (wrF x fPWR_PMSTAT_TRIES 0))) ∧
      (s.pwr.run = some 2 → inS3 s = false → exec .voltageAck s = .next (completeWake x)) ∧
      (s.pwr.run = some 2 → inS3 s = true → exec .voltageAck s = .next (startFromS3 x))) ∧
    (s.pwr.voltAt + 1250000 ≤ s.sys.ticks → x = emit0 (wrF s fPWR_PMSTAT_TRIES (rdF s fPWR_PMSTAT_TRIES + 1)) 0x580011 →
      (rdF s fPWR_PMSTAT_TRIES < 3 →
        exec .voltageRequestTimeout s = .next { x with pwr := { s.pwr with voltAt := s.sys.ticks } }) ∧
      (3 ≤ rdF s fPWR_PMSTAT_TRIES → s.pwr.run = some 2 → exec .voltageRequestTimeout s = .next (failWake s)) ∧
      (3 ≤ rdF s fPWR_PMSTAT_TRIES → s.pwr.run = some 0 →
        exec .voltageRequestTimeout s = .next (followOn (raiseFault (emit0 (clearRun s) 0x580016) 0x580016 63))) ∧
      (∀ y, 3 ≤ rdF s fPWR_PMSTAT_TRIES → s.pwr.run = some 1 → y = raiseFault (emit0 (clearRun s) 0x580016) 0x580016 63 →
        exec .voltageRequestTimeout s = .next (followOn (endSleepWait { y with pwr := { y.pwr with wake := none } }))))) ∧
  (∀ (chans : BitVec 4) (s x : State), s.pwr.run = some 1 → s.pwr.volt = false → live s = true → s.fuse.op = none →
    (rdF s fPWR_STATE_TGTS = 1 → exec (.sleepEntry chans) s = .next (enterLight s 1 chans.toNat)) ∧
    (rdF s fPWR_STATE_TGTS = 2 → runningMoves s = 0 → flowsToClear s = [] →
      exec (.sleepEntry chans) s = .next (enterLight s 2 chans.toNat)) ∧
    (rdF s fPWR_STATE_TGTS = 2 → runningMoves s = 0 → flowsToClear s ≠ [] → exec (.sleepEntry chans) s =
      .next (((flowsToClear s).take 16).foldl (fun s m => startMove s 0 m.1 m.2.1 m.2.2 false) s)) ∧
    (rdF s fPWR_STATE_TGTS = 2 → runningMoves s ≠ 0 → exec (.sleepEntry chans) s = .next s) ∧
    (rdF s fPWR_STATE_TGTS = 3 → x = (List.range 8).foldl stopChain s →
      ((∀ n < 8, (chain x n).st ≠ 5) → exec (.sleepEntry chans) s = .next (enterDeep x)) ∧
      ((∃ n < 8, (chain x n).st = 5) → exec (.sleepEntry chans) s = .next x))) ∧
  (∀ (s : State) (st : Nat), st < 4 → rdF (asleep s st) fPWR_STATE_CURS = st ∧ rdF (asleep s st) fPWR_STATE_CURL = 3 ∧
    onF (asleep s st) fPWR_STATE_PENDV = false ∧ (asleep s st).pwr.run = none ∧ inS3 (enterDeep s) = true) ∧
  (∀ (s : State) (k : Nat), (rdF s fPWR_STATE_CURS ≠ 0 ∨ s.pwr.run = some 1) → s.pwr.failed = false → s.pwr.wake = none →
    (rdF s fPWR_WAKEMASK_EN).testBit k = true →
    wakeSource s k = { s with pwr := { s.pwr with wake := some (k, decide (s.pwr.run = some 1)) } }) ∧
  (∀ (n : ChainI) (c : Chan) (s : State), (hostUp s = true → hostOpen s = true → exec (.doorbellWake n) s = .next (wakeSource s 4)) ∧
    (live s = true → active s 5 c = true → onF s fPON_CHSTAT_LOCK c = true → exec (.ponForcedWake c) s = .next (wakeSource s 0))) ∧
  (∀ s x : State, s.pwr.wake.isSome = true → s.pwr.run = none → s.pwr.failed = false → s.sys.halted = false → alwaysOn s = true →
    rdF s fPWR_STATE_CURS ≠ 0 → x = beginTransition s 2 0 (if inS3 s then 0 else wantedLevel s) →
    (x.pwr.volt = true → exec .wakeEvent s = .next x) ∧ (x.pwr.volt = false → exec .wakeEvent s = .next (completeWake x))) ∧
  (∀ (e : Eng) (v : BitVec 24) (s x y : State), accept s e false (fAddr fPWR_PADS_REL 0 0) v = some x →
    y = wrF x fPWR_PADS_HELD 0 → exec (.padRelease e v) s = .next (if v.getLsbD 0 then { y with pwr := { x.pwr with hold := none } } else x)) ∧
  (∀ (e : Eng) (s : State), getReady s e (fAddr fPWR_OVLD_CAUSE 0 0) = true → exec (.ovldRead e) s =
    .next (wrF (answer s e (some (wd (rdF s fPWR_OVLD_CAUSE + 16 * b2n (overRecent s))))) fPWR_OVLD_CAUSE 0)) ∧
  (∀ (mv : BitVec 12) (s : State), sensorsOn s = true → exec (.vcoreResult mv) s = .next (result s fPWR_VCORE_MV mv.toNat)) ∧
  ∀ (t : BitVec 16) (k : Fin 16) (s x : State) (p : Nat), sensorsOn s = true → x = result s fPWR_TJ_T (t.toNat + 65536 * k.val) → p = unsext t.toInt 24 →
    (1350 ≤ t.toInt → isReady s (fAddr fPWR_TJ_T 0 0) = false ∨ sext (rdF s fPWR_TJ_T) 16 < 1350 → exec (.tjSample t k) s =
      .next (raiseFault (emitM x 0x580022 p k (curLevel x) (now x) true) 0x580022 63)) ∧
    (1350 ≤ t.toInt → isReady s (fAddr fPWR_TJ_T 0 0) = true → 1350 ≤ sext (rdF s fPWR_TJ_T) 16 → exec (.tjSample t k) s = .next x) ∧
    (s.sys.halted = true → t.toInt < 1350 → exec (.tjSample t k) s = .next x) ∧
    (s.sys.halted = false →
      (1250 ≤ t.toInt → t.toInt < 1350 →
        (onF x fPWR_STATE_FORCED = true ∨ x.pwr.force.isSome = true → exec (.tjSample t k) s = .next x) ∧
        (onF x fPWR_STATE_FORCED = false → x.pwr.force = none →
          (x.pwr.run.isSome = true → x.pwr.volt = true ∨ x.pwr.run ≠ some 1 →
            exec (.tjSample t k) s = .next { x with pwr := { x.pwr with force := some (p, k.val) } }) ∧
          (x.pwr.run = none ∨ (x.pwr.run = some 1 ∧ x.pwr.volt = false) → exec (.tjSample t k) s = .next (beginForce x p k)))) ∧
      (1150 ≤ t.toInt → t.toInt < 1250 → exec (.tjSample t k) s = .next x) ∧
      (t.toInt < 1150 → onF x fPWR_STATE_FORCED = false → exec (.tjSample t k) s = .next x) ∧
      (t.toInt < 1150 → onF x fPWR_STATE_FORCED = true → ∀ l y z, l = rdF x fPWR_LEVEL_REQ → y = emit1 (wrF x fPWR_STATE_FORCED 0) 0x580021 l →
        z = { y with plc := { y.plc with still := true } } →
        (rdF z fPWR_STATE_CURS ≠ 0 ∨ z.pwr.run = some 1 ∨ z.pwr.run = some 2 → exec (.tjSample t k) s = .next z) ∧
        (rdF z fPWR_STATE_CURS = 0 → z.pwr.run = none → exec (.tjSample t k) s = .next (if atLevel z l then z else beginLevel z l)) ∧
        (rdF z fPWR_STATE_CURS = 0 → z.pwr.run = some 0 → exec (.tjSample t k) s =
          .next (if onF z fPWR_STATE_PENDV = true ∧ rdF z fPWR_STATE_PENDS ≠ 0 then z
            else wrF (wrF (wrF z fPWR_STATE_PENDV 1) fPWR_STATE_PENDS 0) fPWR_STATE_PENDL l)))) ∧
    onF (beginForce x p k) fPWR_STATE_FORCED = true ∧ (rdF x fPWR_STATE_CURS = 0 → curLevel (beginForce x p k) = 3)

/-- Seeking, a fit module whose partner is not active becomes ACTIVE after SEEKT, cause 2. MATE_ACT_IN falling takes over, cause 3; rising
makes a seeking module STANDBY, cause 1, and wakes. ACTIVE raises MATE_ACT and GRACE and posts to MAGENT; STANDBY clears SYNCED and
resynchronises. A heartbeat sent takes the waiting messages; one received sets HEARD and the serial number, counts what was lost, and yields
to an ACTIVE partner, causes 1 and 8. Unheard, cause 4 or 7. GRACE ends in a reset of a hung partner, event 0x5C0_012. The standby applies
records in order, discards copies, and a gap loses SYNCED; a resynchronisation ends with event 0x5C0_014, 1 ms without records loses it.
SWITCH mirrors PNs and goes STANDBY, cause 5, or is counted as ignored. Messages queue up to 64 and are delivered in order. FITOK drives
MATE_FIT. [28_pair_operation.md] -/
def Obligations.ThePairTakesOverMirrorsAndTalks : Prop :=
  (∀ s : State, pairOn s = true → role s = 1 → s.pair.seekAt + seekTicks s ≤ s.sys.ticks → onF s fPAIR_PSTAT_FIT = true →
    onF s fPAIR_PSTAT_PACT = false → exec .seekTimeout s = .next (enterActive s 2)) ∧
  (∀ (fit : Bool) (s x : State), alwaysOn s = true →
    (onF s fPAIR_PSTAT_PACT = true → x = wrF (wrF s fPAIR_PSTAT_PFIT (b2n fit)) fPAIR_PSTAT_PACT 0 →
      (pairOn x = true → mayTakeOver x = true → exec (.mateActInFall fit) s = .next (enterActive x 3)) ∧
      (pairOn x = false ∨ mayTakeOver x = false → exec (.mateActInFall fit) s = .next x)) ∧
    (onF s fPAIR_PSTAT_PACT = false → x = wrF (wrF s fPAIR_PSTAT_PFIT (b2n fit)) fPAIR_PSTAT_PACT 1 →
      (pairOn s = true → role s = 1 → exec (.mateActInRise fit) s = .next (wakeSource (enterStandby x 1) 5)) ∧
      (role s ≠ 1 → exec (.mateActInRise fit) s = .next (wakeSource x 5)))) ∧
  (∀ (s : State) (cause : Nat), pairOn s = true → (enterStandby s cause).pair.resync = true ∧ role (enterStandby s cause) = 2 ∧
    onF (enterStandby s cause) fPAIR_PSTAT_SYNCED = false ∧ onF (enterStandby s cause) fPAIR_PSTAT_ACT = false ∧
    onF (enterStandby s cause) fPAIR_PSTAT_GRACE = (if role s = 3 then false else onF s fPAIR_PSTAT_GRACE) ∧
    rdF (enterStandby s cause) fPAIR_PWHY_CAUSE = cause % 16) ∧
  (∀ (s : State) (p : PairSt), pairOn s = true → (paced s paceBeat 6250 = true → p = { s.pair with beats := (s.pair.beats + 1) % 2 ^ 16 } →
      (linkUp s 32 = true ∨ linkUp s 33 = true → ∀ q, q = { p with out := [], left := if s.pair.out.isEmpty then s.pair.left else s.pair.out } →
        exec .heartbeatSend s = .next (wrF { setPace s paceBeat with pair := q } fPAIR_MTXRES_FULL 0)) ∧
      (linkUp s 32 = false → linkUp s 33 = false →
        exec .heartbeatSend s = .next (wrF { setPace s paceBeat with pair := p } fPAIR_MTXRES_FULL (b2n (64 ≤ s.pair.out.length))))) ∧
    exec .partnerNotHeard s = .next (notHeard (showHeard s)) ∧
    (onF s fPAIR_PSTAT_HEARD = true ∨ onF s fPAIR_PSTAT_PACT = false → notHeard s = s) ∧
    (onF s fPAIR_PSTAT_HEARD = false → onF s fPAIR_PSTAT_PACT = true → mayTakeOver s = true → notHeard s = enterActive s 4) ∧
    (onF s fPAIR_PSTAT_HEARD = false → onF s fPAIR_PSTAT_PACT = true → role s = 3 → onF s fPAIR_PSTAT_GRACE = false →
      (∀ t, s.pair.pulseAt = some t → t + 62500 ≤ s.sys.ticks) → notHeard s = enterStandby s 7)) ∧
  (∀ (k : Fin 2) (mate : Fin 4) (fit primary : Bool) (seq : BitVec 16) (sn : BitVec 48) (s : State), pairOn s = true →
    linkUp s (32 + k) = true → ∃ t lost, { t with words := s.words, pair := s.pair, cnt := s.cnt } = s ∧
    t.cnt = (count s 0x17 kPairLost k lost).cnt ∧ (∀ p, tget (fun _ => (none : Option Nat)) s.pair.heard k = some p →
      lost = (seq.toNat + 65536 - p - 1) % 65536) ∧ (tget (fun _ => (none : Option Nat)) s.pair.heard k = none → lost = 0) ∧
    onF t fPAIR_PSTAT_HEARD = true ∧ rdF t fPAIR_PSER1_SN = sn.toNat / 2 ^ 24 ∧ rdF t fPAIR_PSER0_SN = sn.toNat % 2 ^ 24 ∧
    t.pair.mate = some (mate.val, b2n fit, b2n primary) ∧ tget (fun _ => 0) t.pair.beatAt k = s.sys.ticks ∧
    (mate.val ≠ 3 ∨ (role s ≠ 1 ∧ role s ≠ 3) ∨ (role s = 3 ∧ (b2n primary < rdF s fPAIR_PCFG_PRIMARY ∨
        (rdF s fPAIR_PCFG_PRIMARY = b2n primary ∧ serialNumber ≤ sn.toNat))) → exec (.heartbeatReceived k mate fit primary seq sn) s = .next t) ∧
    (mate.val = 3 → role s = 1 → exec (.heartbeatReceived k mate fit primary seq sn) s = .next (enterStandby t 1)) ∧
    (mate.val = 3 → role s = 3 → rdF s fPAIR_PCFG_PRIMARY < b2n primary ∨ (rdF s fPAIR_PCFG_PRIMARY = b2n primary ∧ sn.toNat < serialNumber) →
      exec (.heartbeatReceived k mate fit primary seq sn) s = .next (enterStandby t 8))) ∧
  (∀ s x y : State, pairOn s = true → onF s fPAIR_PSTAT_GRACE = true → s.pair.activeAt + 31250 ≤ s.sys.ticks →
    x = showHeard (wrF s fPAIR_PSTAT_GRACE 0) → y = { x with pair := { x.pair with pulseAt := some x.sys.ticks } } →
    (role x = 3 → onF x fPAIR_PCFG_RSTEN = true → onF x fPAIR_PSTAT_PACT = true → onF x fPAIR_PSTAT_HEARD = false →
      exec .graceEnd s = .next (emit0 (count y 0x17 kPairReset 0) 0x5c0012)) ∧
    (role x ≠ 3 ∨ onF x fPAIR_PCFG_RSTEN = false ∨ onF x fPAIR_PSTAT_PACT = false ∨ onF x fPAIR_PSTAT_HEARD = true →
      exec .graceEnd s = .next (notHeard x))) ∧
  (∀ (e : Eng) (v : BitVec 24) (fit : Bool) (s x y : State), accept s e false (fAddr fPAIR_PCMD_SWITCH 0 0) v = some x →
    (v.getLsbD 0 = false → v.getLsbD 1 = true → pairOn x = true → y = { x with pair := { x.pair with pulseAt := some x.sys.ticks } } →
      exec (.partnerReset e v) s = .next (emit0 (count y 0x17 kPairReset 0) 0x5c0012)) ∧
    (v.getLsbD 0 = true → y = wrF x fPAIR_PSTAT_PFIT (b2n fit) →
      (role x = 3 → fit = true → exec (.pairSwitch e v fit) s = .next (enterStandby (sendRecords y (y.pair.unsent ++ pnRecords y true)) 5)) ∧
      (role x ≠ 3 ∨ fit = false → exec (.pairSwitch e v fit) s = .next (count y 0x17 kPairIgnored 0)))) ∧
  (∀ s : State, pairOn s = true → role s = 3 → exec .mirrorRefresh s = .next (sendRecords s (s.pair.unsent ++ pnRecords s false))) ∧
  (∀ (k : Fin 2) (seq : BitVec 32) (r : MirrorItem) (s x : State), pairOn s = true → linkUp s (32 + k) = true →
    (role s ≠ 2 → exec (.mirrorRecordReceived k seq r) s = .next (count s 0x17 kPairDropped 0)) ∧
    (role s = 2 → s.pair.recIn = none → x = { s with pair := { s.pair with recAt := s.sys.ticks, recIn := some ((seq.toNat + 1) % 2 ^ 32) } } →
      exec (.mirrorRecordReceived k seq r) s = .next (applyRecord (count x 0x17 kPairApplied 0) r)) ∧
    (role s = 2 → ∀ n, s.pair.recIn = some n →
      (n = seq.toNat → x = { s with pair := { s.pair with recAt := s.sys.ticks, recIn := some ((seq.toNat + 1) % 2 ^ 32) } } →
        exec (.mirrorRecordReceived k seq r) s = .next (applyRecord (count x 0x17 kPairApplied 0) r)) ∧
      (2 ^ 31 ≤ (seq.toNat + 2 ^ 32 - n) % 2 ^ 32 → x = { s with pair := { s.pair with recAt := s.sys.ticks } } →
        exec (.mirrorRecordReceived k seq r) s = .next (count x 0x17 kPairDropped 0)) ∧
      (n ≠ seq.toNat → n < 2 ^ 32 → (seq.toNat + 2 ^ 32 - n) % 2 ^ 32 < 2 ^ 31 →
        x = wrF { s with pair := { s.pair with recAt := s.sys.ticks, resync := true } } fPAIR_PSTAT_SYNCED 0 → ∀ y,
        y = { x with pair := { x.pair with recIn := some ((seq.toNat + 1) % 2 ^ 32) } } →
        exec (.mirrorRecordReceived k seq r) s = .next (applyRecord (count y 0x17 kPairApplied 0) r)))) ∧
  (∀ s x : State, pairOn s = true → role s = 2 →
    (s.pair.resync = true → x = wrF { s with pair := { s.pair with resync := false } } fPAIR_PSTAT_SYNCED 1 →
      exec .resyncComplete s = .next (emit0 (count x 0x17 kPairResync 0) 0x5c0014)) ∧
    (onF s fPAIR_PSTAT_HEARD = true → (∃ a b, s.pair.mate = some (3, a, b)) → s.pair.recAt + 625000 ≤ s.sys.ticks →
      exec .syncLoss s = .next (wrF { s with pair := { s.pair with resync := true } } fPAIR_PSTAT_SYNCED 0))) ∧
  (∀ (e : Eng) (v : BitVec 24) (s x : State) (l : List Msg), accept s e false (fAddr fPAIR_MTXGO_GO 0 0) v = some x → v.getLsbD 0 = true →
    pairOn x = true → l = x.pair.out ++ [⟨0xd7, (rdW x (fAddr fPAIR_MTX_W 0 0)).toNat % 65536, (rdW x (fAddr fPAIR_MTX_W 0 1)).toNat,
      (rdW x (fAddr fPAIR_MTX_W 0 2)).toNat, (rdW x (fAddr fPAIR_MTX_W 0 3)).toNat⟩] → ∀ y, y = { x with pair := { x.pair with out := l } } →
    (x.pair.out.length < 64 →
      exec (.partnerMessageSend e v) s = .next (wrF (count y 0x17 kPairMsg 0) fPAIR_MTXRES_FULL (b2n (decide (64 ≤ l.length))))) ∧
    (64 ≤ x.pair.out.length → exec (.partnerMessageSend e v) s = .next (count x 0x17 kPairMsgDrop 0))) ∧
  (∀ (tag : BitVec 16) (a b c : BitVec 24) (s x : State), pairOn s = true →
    x = { s with pair := { s.pair with inbox := s.pair.inbox ++ [(⟨0xd7, tag.toNat, a.toNat, b.toNat, c.toNat⟩, s.sys.ticks)] } } →
    exec (.partnerMessageReceived tag a b c) s = .next (if s.pair.inbox.isEmpty then deliver 1 (setPace x paceMessage) else x) ∧
    (paced s paceMessage 6250 = true → exec .partnerMessageRetry s = .next (deliver s.pair.inbox.length (setPace s paceMessage)))) ∧
  (∀ (s y : State) (m : Msg) (t n : Nat) (ok : Bool) (l : List (Msg × Nat)), s.pair.inbox = (m, t) :: l →
    postTo s (rdF s fPAIR_MAGENT_ENG) m = (y, ok) →
    (ok = true → deliver (n + 1) s = deliver n { y with pair := { y.pair with inbox := l } }) ∧
    (ok = false → 0xc0 ≤ rdF s fPAIR_MAGENT_ENG ∨ t + 625000 ≤ s.sys.ticks →
      deliver (n + 1) s = deliver n (count { y with pair := { y.pair with inbox := l } } 0x17 kPairMsgDrop 0)) ∧
    (ok = false → rdF s fPAIR_MAGENT_ENG < 0xc0 → s.sys.ticks < t + 625000 → deliver (n + 1) s = y)) ∧
  ∀ (e : Eng) (v : BitVec 24) (s x : State), accept s e false (fAddr fPAIR_FITOK_OK 0 0) v = some x →
    exec (.fitokWrite e v) s = .next (driveMate (setNow x (fAddr fPAIR_FITOK_OK 0 0) v.toNat))

/-- A fault taken is counted under its class; one of no domain only notes, in a free domain an L or F fault starts its recovery, in a busy
one a class no higher is latched, event 0x600_013. The ninth L recovery in 10 s escalates. A recovery ends at its event, 0x600_014, or
misses its bound and, still holding, runs again; the latched faults follow. DCLR clears the count and a failed domain, event 0x600_012. An H
fault halts the module: HCOUNT, the halt page, BUSY and what waits cleared; its record is committed once. LOG stores an event while its code
has credit, else suppresses it; past the ordinary positions it drops it; instants give credit back; suppressed counts become SUPPRESSED
records; the buffer is committed whole. Clearing erases, cursors latch and advance. Journal entries keep 60 s ahead. Tag writes and locks
act or are refused with WHY 1 to 4. [29_faults_and_recovery.md; 31_observability.md; 32_life_records_and_identity.md;
03_self_timed_operation.md] -/
def Obligations.FaultsAreClassedRecoveredAndRecorded : Prop :=
  (∀ (s x : State) (f : FaultIn) (l : List FaultIn), alwaysOn s = true → x = { s with flt := { s.flt with raised := l } } →
    (takeFirst isHalt s.flt.raised = some (f, l) → s.sys.halted = false → exec .faultRaised s = .next (halt x f)) ∧
    (takeFirst isHalt s.flt.raised = some (f, l) → s.sys.halted = true →
      exec .faultRaised s = .next (countHalt (emitM x 0x600015 f.code 0 0 (now x) true))) ∧
    (takeFirst isHalt s.flt.raised = none → s.flt.raised = f :: l → s.sys.halted = false →
      exec .faultRaised s = .next (takeFault x f.code f.dom)) ∧
    (takeFirst isHalt s.flt.raised = none → s.flt.raised = f :: l → s.sys.halted = true → exec .faultRaised s = .next x)) ∧
  (∀ (s : State) (f : FaultIn), (halt s f).sys.halted = true ∧ onF (halt s f) fPWR_STATE_BUSY = false ∧ (halt s f).flt.halt = some f ∧
    rdF (halt s f) fFLT_HCOUNT_N = min 255 (rdF s fFLT_HCOUNT_N + 1) ∧ tget (fun _ => 0) (halt s f).hst.page 4 = f.code) ∧
  (∀ (s x : State) (code : Nat), x = count s 0x18 (kFltFault (classOf code)) 63 →
    (classOf code < 2 → takeFault s code 63 = fltNote x 63 (classOf code) code 3) ∧
    (classOf code = 2 → takeFault s code 63 = fltNote (handOver x) 63 2 code 3)) ∧
  (∀ (s y : State) (code d : Nat), d ≠ 63 → y = (if classOf code = 2 then handOver (count s 0x18 (kFltFault 2) d) else count s 0x18 (kFltFault (classOf code)) d) →
    ((dom y d).failed = true → takeFault s code d = fltNote y d (classOf code) code (if classOf code = 2 then 0 else 3)) ∧
    ((dom y d).failed = false →
      takeFault s code d = fltNote (meetFault y d code (classOf code)).1 d (classOf code) code (meetFault y d code (classOf code)).2)) ∧
  (∀ (s : State) (d code cls : Nat), ((dom s d).run = none →
      (meetFault s d code 0 = (s, 3) ∧ meetFault s d code 1 = startLocal s d code ∧ meetFault s d code 2 = (beginRecovery s d code 2 0, 0))) ∧
    (∀ rc rcls, (dom s d).run = some (rc, rcls) → cls ≤ rcls → (meetFault s d code cls).1 = latchFault s d code cls rc) ∧
    ((recentStarts s d).length < 8 → startLocal s d code =
      (beginRecovery (setDom s d { dom s d with starts := recentStarts s d ++ [s.sys.ticks] }) d code 1 0, 0)) ∧
    (8 ≤ (recentStarts s d).length → ∀ x, x = count (setDom s d { dom s d with starts := [] }) 0x18 kFltEscalated d →
      (role s = 2 ∨ role s = 3 →
        startLocal s d code = (beginRecovery (handOver (emit0 (count x 0x18 (kFltFault 2) d) 0x600010)) d 0x600010 2 code, 2)) ∧
      (role s = 0 ∨ role s = 1 → startLocal s d code = (failDomain (emit0 x 0x600011) d code, 2))) ∧
    (endsAtOnce code = false → code ≠ 0x600010 → (dom (beginRecovery s d code cls 0) d).run = some (code, cls) ∧
      (dom (beginRecovery s d code cls 0) d).since = s.sys.ticks)) ∧
  (∀ (d : Fin 41) (s : State) (code cls c : Nat), (dom s d).run = some (code, cls) → live s = true →
    c = (if code = 0x600010 then (dom s d).under else code) →
    (ended s c d = false → exec (.recoveryEnd d) s = .next s) ∧
    (ended s c d = true → (c = 0x1c0012 ∨ c = 0x140016 → s.sys.crystal = true) → ∀ x y,
      x = (if c = 0x1c0012 then (domLanes d).foldl (fun s l => wrF s fLANE_LSTAT_PLLLOCK 1 l) s
        else if c = 0x140016 then setPon s d { ponCh s d with pllLost := false } else s) →
      y = setDom x d { dom x d with run := none } →
      exec (.recoveryEnd d) s = .next (reevaluate (emit2 (count y 0x18 kFltEnded d) 0x600014 d code) d)) ∧
    ((dom s d).since + boundTicks c ≤ s.sys.ticks → ∀ x, x = count (setDom s d { dom s d with run := none }) 0x18 kFltUnsuccessful d →
      (holds x c d = false → exec (.recoveryTimeout d) s = .next (reevaluate x d)) ∧
      (holds x c d = true → cls = 2 → exec (.recoveryTimeout d) s = .next (beginRecovery x d code 2 (dom s d).under)) ∧
      (holds x c d = true → cls ≠ 2 → exec (.recoveryTimeout d) s = .next (startLocal x d c).1))) ∧
  (∀ (e : Eng) (v : BitVec 24) (s x y z : State) (d : Nat), accept s e false (fAddr fFLT_DCLR_CLR 0 0) v = some x →
    d = rdF x fFLT_DSEL_DOM → y = emit2 (count (setDom x d { dom x d with starts := [] }) 0x18 kFltCleared d) 0x600012 d (b2n (dom x d).failed) →
    z = (domUnits d).foldl (fun s y =>
      let s := wrC s fCOMMON_USTAT_STATE y.1 y.2 0
      if noDisable y.1 then s else wrC s fCOMMON_UCTRL_EN y.1 y.2 0) (setDom y d domReset) →
    (v.getLsbD 0 = false → exec (.domainClear e v) s = .next x) ∧
    (v.getLsbD 0 = true → (dom x d).failed = false → exec (.domainClear e v) s = .next y) ∧
    (v.getLsbD 0 = true → (dom x d).failed = true →
      exec (.domainClear e v) s = .next (if holds z (dom x d).last d then raiseFault z (dom x d).last d else z))) ∧
  (∀ (s x : State), s.sys.halted = true → s.flt.committed = false → x = commitJournal (journalAdd (flush s) 97) →
    exec .haltRecordCommit s = .next { x with flt := { x.flt with committed := true } }) ∧
  (∀ (s x : State) (ev : Ev) (l : List Ev), s.log.raised = ev :: l → alwaysOn s = true →
    x = takeEvent { s with log := { s.log with raised := l } } ev →
    (onF x fCNT_CEVEN_EN = false ∨ rdF x fCNT_CEVT_CODE ≠ ev.code ∨ cntRuns x = false → exec .eventRecord s = .next x) ∧
    (onF x fCNT_CEVEN_EN = true → rdF x fCNT_CEVT_CODE = ev.code → cntRuns x = true → exec .eventRecord s = .next (captureTrigger x))) ∧
  (∀ (s : State) (ev : Ev), ownCode ev.code = false → hRecord ev = false → ev.code ≠ 0x4c0010 → ev.code ≠ 0x4c0011 →
    (s.sys.halted = true → takeEvent s ev = dropRecord s) ∧
    (s.sys.halted = false →
      (creditOf s ev.code = 0 → takeEvent s ev = suppress s ev.code) ∧
      (creditOf s ev.code ≠ 0 → ordinaryRoom ≤ nextPos s ∨ s.log.full = true → takeEvent s ev = dropRecord s) ∧
      (creditOf s ev.code ≠ 0 → nextPos s + 1 < ordinaryRoom → s.log.full = false →
        takeEvent s ev = storeRecord (spend s ev.code false) ev (suppOf s ev.code)))) ∧
  (∀ s x : State, alwaysOn s = true →
    (s.log.buf ≠ [] → paced s paceBuffer 6250000 = true → exec .commitBufferFlush s = .next (flush s) ∧ (flush s).log.buf = [] ∧ (flush s).log.recs = s.log.recs ++ s.log.buf) ∧
    (s.log.wrapped = true → exec .lifeCounterWrap s = .next (lifemark { s with log := { s.log with wrapped := false } })) ∧
    (∀ worn, exec (.journalCommit worn) s = .next (commitJournal (if worn then wearOf s 2 else s))) ∧
    (commitJournal s).log.kept = tset (fun _ => 0) s.log.journal 0 (life s + 60) ∧
    (∀ c : BitVec 24, suppOf s c.toNat ≠ 0 → tget (fun _ => 0) s.log.suppAt c.toNat + 625000000 ≤ s.sys.ticks →
      x = { s with log := { s.log with supp := tset (fun _ => 0) s.log.supp c.toNat 0 } } →
      exec (.suppressedRecord c) s = .next (ownRecord x 0x680015 c.toNat (suppOf s c.toNat) 0)) ∧
    (s.time.credited + 15625000 ≤ s.time.adv → ∃ t, exec .creditInstant s = .next t ∧ { t with time := s.time, log := s.log } = s ∧
      t.time = { s.time with credited := s.time.credited + 15625000 } ∧ { t.log with credit := s.log.credit } = s.log ∧
      ∀ c, creditOf t c = min 16 (creditOf s c + 1))) ∧
  (∀ (e : Eng) (v : BitVec 24) (s x : State), accept s e false (fAddr fLOG_RCTL_CLEAR 0 0) v = some x → v.getLsbD 0 = true →
    (v.toNat / 2 ^ 16 = 0xa5 → ∀ y z w, y = flush x → z = { y with log := { y.log with recs := [], drop := 0, full := false } } →
      w = lifemark (ownRecord z 0x680011 ((x.log.nextSeq - 1) / 2 ^ 24) (x.log.nextSeq - 1) (min x.log.drop 0xffffff)) →
      ∃ t, exec (.recorderClear e v) s = .next t ∧
      t = logStat (wearOf (wrF (wrF (wrF w fLOG_HCUR_POS 0) fLOG_ECUR_POS 0) fLOG_ECUR_POS 0 0 16) 1) ∧ t.log.recs = [] ∧ t.log.full = false ∧
      t.log.buf.map (fun r => r.code) = [0x680011, 0x680010] ∧ rdF t fLOG_HCUR_POS = 0) ∧
    (v.toNat / 2 ^ 16 ≠ 0xa5 → exec (.recorderClear e v) s = .next x)) ∧
  (∀ (s x y : State) (k : Fin 2) (e : Eng) (r : Option Rec),
    (hostUp s = true → s.sys.phase = .running → r = s.log.recs[rdF s fLOG_HCUR_POS]? →
      x = { s with hst := { s.hst with hostRead := ofBytes (bytesAt (latchBytes r) 0 4) } } →
      exec .hostRecordLatch s = .next { x with log := { s.log with hostLatch := r } }) ∧
    (hostUp s = true → s.sys.phase = .running → x = { s with hst := { s.hst with hostRead := ofBytes (bytesAt (latchBytes s.log.hostLatch) 28 4) } } →
      exec .hostRecordAdvance s = .next (if s.log.hostLatch.isSome then wrF x fLOG_HCUR_POS (rdF s fLOG_HCUR_POS + 1) else x)) ∧
    (getReady s e (fAddr fLOG_EW0_SEQ 0 (16 * k)) = true → r = s.log.recs[rdF s fLOG_ECUR_POS 0 (16 * k)]? →
      x = { s with log := { s.log with engLatch := tset (fun _ => none) s.log.engLatch k r } } →
      y = (engWords r).zipIdx.foldl (fun s x => wrW s (fAddr fLOG_EW0_SEQ 0 (16 * k) + x.2) (wd x.1)) x →
      exec (.engineRecordLatch e k) s = .next (answer y e (some (rdW y (fAddr fLOG_EW0_SEQ 0 (16 * k)))))) ∧
    (getReady s e (fAddr fLOG_EW10_P3 0 (16 * k)) = true →
      x = (if (tget (fun _ => none) s.log.engLatch k).isSome then wrF s fLOG_ECUR_POS (rdF s fLOG_ECUR_POS 0 (16 * k) + 1) 0 (16 * k) else s) →
      exec (.engineRecordAdvance e k) s = .next (answer x e (some (rdW s (fAddr fLOG_EW10_P3 0 (16 * k))))))) ∧
  (∀ (e : Eng) (v : BitVec 24) (s x : State), accept s e false (fAddr fLOG_TRADDR_A 0 0) v = some x →
    ∃ t, exec (.tagReadLatch e v) s = .next t ∧ { t with words := x.words, sys := x.sys } = x ∧ { t.sys with free := x.sys.free } = x.sys ∧
      rdF t fLOG_TRADDR_A = v.toNat % 4096 ∧ ∀ (k : Fin 16) (b : Fin 3), v.toNat % 4096 + 3 * k + b < 4096 →
        (wordBytes (rdW t (fAddr fLOG_TRD0_D 0 k)))[b.val]? = some (tagByte x (v.toNat % 4096 + 3 * k + b))) ∧
  (∀ (e : Eng) (v : BitVec 24) (s x : State) (a n : Nat), accept s e false (fAddr fLOG_TGO_OP 0 0) v = some x →
    a = rdF x fLOG_TWADDR_A → n = rdF x fLOG_TWLEN_N →
    (v.toNat % 4 = 1 → (x.log.tagOp.isSome = true → exec (.tagWrite e v) s = .next (tagRes x 1)) ∧
      (x.log.tagOp = none → n = 0 ∨ 256 < n ∨ 256 < a % 256 + n → exec (.tagWrite e v) s = .next (tagRes x 2)) ∧
      (x.log.tagOp = none → 0 < n → a % 256 + n ≤ 256 → (tagLocked x (a / 256) = true → exec (.tagWrite e v) s = .next (tagRes x 3)) ∧
        (tagLocked x (a / 256) = false →
          exec (.tagWrite e v) s = .next { x with log := { x.log with tagOp := some ⟨1, a / 256, a, tagBuf x n⟩ } }))) ∧
    (v.toNat % 4 = 2 → exec (.tagLockToReset e v) s = .next (askLock x 2 (v.toNat / 16 % 16))) ∧
    (v.toNat % 4 = 3 → exec (.tagLockPermanent e v) s = .next (if v.toNat / 2 ^ 16 = 0xa5 then askLock x 3 (v.toNat / 16 % 16) else tagRes x 4))) ∧
  (∀ (s : State) (op b : Nat), b < 16 → op = 2 ∨ op = 3 → tagLocked (lockBlock s op b) b = true ∧
    (s.log.tagOp = none → askLock s op b = lockBlock s op b) ∧
    (∀ o, s.log.tagOp = some o → askLock s op b =
      (if o.block = b then { s with log := { s.log with tagNext := s.log.tagNext ++ [⟨op, b, 0, []⟩] } } else tagRes s 1))) ∧
  (∀ (s x y : State) (o : TagOp), s.log.tagOp = some o → alwaysOn s = true → ∃ tag : Tab Byte,
    (∀ k y, o.data[k]? = some y → tget (fun _ => 0) tag (o.addr + k) = y) ∧
    (∀ a, a < o.addr ∨ o.addr + o.data.length ≤ a → tget (fun _ => 0) tag a = tget (fun _ => 0) s.log.tag a) ∧
    (x = { s with log := { s.log with tag := tag, tagOp := none, tagNext := [] } } →
      y = tagRes (emit1 (journalAdd x (80 + o.block)) 0x680013 o.block) 0 →
      exec .tagWriteCommit s = .next (s.log.tagNext.foldl (fun s x => lockBlock s x.op x.block) y))) ∧
  ∀ (e : Eng) (v : BitVec 24) (s x : State), accept s e false (fAddr fLOG_FWCAUSE_CAUSE 0 0) v = some x →
    exec (.fwcauseClear e v) s = .next (if v.getLsbD 8 then wrF x fLOG_FWCAUSE_PRESENT 0 else x)

/-- A switch, due after DCOUNT x DUNIT, resets the asked nodes, starts a dump and an epoch; with the dump before it not written it waits,
late, event 0x640_013. A dump written tells DAGENT, or is refused by MPE. A bad leaf is zeroed, flagged LOST and its aggregate FLOOR, with
events 0x640_010 and 0x640_011; a bad aggregate is the sum of its leaves, event 0x640_012. NREAD reads a node with its flags, NRESET zeroes
it at the next switch. SMPGO appends a record to the ring, the oldest overwritten and counted. The capture ring arms, triggers, fills on,
freezes and stops by R640, and writes the oldest offered copy or counts it lost. A checker locks and loses lock, event 0x6C0_010; TINJGO
injects or is ignored; every 1 ms TERR reads the errors since lock; a test frame leaves every 2 ms and one not back is lost. Each TAP
instruction selects its register and drives, or not, the pins; a change of who holds them is event 0x6C0_012; a blown test lock shuts the
port. [31_observability.md; 33_pattern_tests.md] -/
def Obligations.CountersDumpSampleCaptureAndLinksAreTested : Prop :=
  (∀ s x y : State, cntRuns s = true → paced s paceEpoch (rdF s fCNT_DCFG_DCOUNT *
      (if rdF s fCNT_DCFG_DUNIT = 0 then 6250 else if rdF s fCNT_DCFG_DUNIT = 1 then 625000 else 625000000)) = true →
    (s.cnt.dump = none → x = s.cnt.resets.foldl resetNode { setPace s paceEpoch with cnt := { s.cnt with resets := [] } } →
      y = dropMaxima (startDump x) → exec .epochSwitch s = .next { y with cnt := { y.cnt with start := now y } }) ∧
    (s.cnt.dump.isSome = true → s.cnt.late = false → exec .epochSwitch s =
      .next (emit1 { s with cnt := { s.cnt with late := true } } 0x640013 s.cnt.dumpSeq))) ∧
  (∀ (s : State) (k : Nat), k % 2 ^ 20 ≠ aggObj → nodeVal (resetNode s k) k = 0 ∧ nodeFlag (resetNode s k) k % 8 = 0) ∧
  (∀ (s x y : State) (pos a : Nat) (head body h : List Byte) (r : State × Bool), s.cnt.dump = some (pos, head, body) → live s = true →
    a = rdF s fCNT_DBASEH_BASE * 2 ^ 24 + rdF s fCNT_DBASEL_BASE + pos → h = putBytes head 46 [byteAt head 46 ||| by8 (b2n s.cnt.late)] →
    x = { s with cnt := { s.cnt with dump := none, late := false, dumpSeq := s.cnt.dumpSeq + 1 } } →
    y = memWrite (memWrite x cntMaster (a + 64) body) cntMaster a h →
    r = postTo y (rdF y fCNT_DAGENT_ENG) ⟨0xd9, s.cnt.dumpSeq % 65536, pos / 256, 0, 0⟩ →
    (a + 64 + body.length ≤ dataSpace → refusedByte s cntMaster a (64 + body.length) true = none →
      exec .dumpComplete s = .next (if r.2 = true ∨ 0xc0 ≤ rdF y fCNT_DAGENT_ENG then r.1 else count r.1 0x19 kCntRefused 0)) ∧
    (a + 64 + body.length ≤ dataSpace → ∀ b, refusedByte s cntMaster a (64 + body.length) true = some b →
      exec .dumpComplete s = .next (refuse x cntMaster b true)) ∧
    (dataSpace < a + 64 + body.length → exec .dumpComplete s = .next (refuse x cntMaster a true))) ∧
  (∀ (unit kind obj k a last : Nat) (s x y : State), live s = true → unit < 64 → kind < 4096 → obj ≤ aggObj → k = leafKey unit kind obj →
    a = leafKey unit kind aggObj →
    exec (.counterEccError unit kind obj true) s = .next (count s 0x19 kCntCorrected 0) ∧
    (obj = aggObj → exec (.counterEccError unit kind obj false) s = .next (emit0 (setNode s k
      ((s.cnt.leaf.filter fun x => x.1 / 2 ^ 20 == k / 2 ^ 20 && x.1 != k).map fun x => x.2).sum
      (if (nodeFlag s k).testBit 2 then nodeFlag s k else nodeFlag s k + 4)) 0x640012)) ∧
    (obj < aggObj → last = tget (fun _ => 0) s.cnt.last k → x = setNode s k 0 (if (nodeFlag s k).testBit 0 then nodeFlag s k else nodeFlag s k + 1) →
      y = setNode x a (nodeVal s a) (if (nodeFlag s a).testBit 1 then nodeFlag s a else nodeFlag s a + 2) →
      exec (.counterEccError unit kind obj false) s =
        .next (emit (emit2 y 0x640010 (unit + 64 * kind) obj) 0x640011 (last / 2 ^ 48) (last / 2 ^ 24) last))) ∧
  (∀ (e : Eng) (v : BitVec 24) (s x : State) (n : Nat), accept s e false (fAddr fCNT_NGO_READ 0 0) v = some x → n = nodeVal x (selNode x) →
    (v.getLsbD 0 = true → ∃ t, exec (.nodeRead e v) s = .next t ∧
      t = wrF (wrF (wrF (wrF x fCNT_NVAL2_V (n / 2 ^ 48)) fCNT_NVAL1_V (n / 2 ^ 24)) fCNT_NVAL0_V n) fCNT_NFLAG_F (nodeFlag x (selNode x)) ∧
      rdF t fCNT_NVAL2_V = n / 2 ^ 48 % 2 ^ 24 ∧ rdF t fCNT_NVAL1_V = n / 2 ^ 24 % 2 ^ 24 ∧ rdF t fCNT_NVAL0_V = n % 2 ^ 24 ∧
      rdF t fCNT_NFLAG_F = nodeFlag x (selNode x) % 8) ∧
    (v.getLsbD 0 = false → v.getLsbD 1 = true →
      exec (.nodeReset e v) s = .next { x with cnt := { x.cnt with resets := x.cnt.resets ++ [selNode x] } })) ∧
  (∀ (e : Eng) (v : BitVec 24) (s x y z : State) (a : Nat), accept s e false (fAddr fCNT_SMPGO_GO 0 0) v = some x →
    (v.getLsbD 0 = false ∨ smpRing x = 0 ∨ cntRuns x = false → exec (.sampleAppend e v) s = .next x) ∧
    (v.getLsbD 0 = true → 0 < smpRing x → cntRuns x = true →
      a = rdF x fCNT_SBASEH_BASE * 2 ^ 24 + rdF x fCNT_SBASEL_BASE + 32 * x.cnt.smpNext → a + 32 ≤ dataSpace →
      (refusedByte x cntMaster a 32 true = none → y = (if x.cnt.smpHeld = smpRing x then count x 0x19 kCntOverwrite 0 else x) →
        ∀ b, b = markBytes (now x) ++ toBytes 1 e.val ++ toBytes 2 (rdF x fCNT_SMPPC_PC) ++ toBytes 1 (rdF x fCNT_SMPPC_SKID) ++
          toBytes 3 (rdF x fCNT_SMPDROP_N) ++ List.replicate 12 0 →
        z = { y with cnt := { { y.cnt with smpNext := (x.cnt.smpNext + 1) % smpRing x } with smpHeld := min (smpRing x) (x.cnt.smpHeld + 1) } } →
        exec (.sampleAppend e v) s = .next (memWrite z cntMaster a b)) ∧
      (∀ b, refusedByte x cntMaster a 32 true = some b → exec (.sampleAppend e v) s = .next (refuse x cntMaster b true)))) ∧
  (∀ (e : Eng) (v : BitVec 24) (s x : State), accept s e false (fAddr fCNT_CGO_ARM 0 0) v = some x →
    (v.getLsbD 0 = true → cntRuns x = true → rdF x fCNT_CSIZE_U ≠ 0 →
      (rdF x fCNT_CSTAT_STATE = 0 ∨ rdF x fCNT_CSTAT_STATE = 3 → exec (.captureArm e v) s = .next
        (wrF { x with cnt := { x.cnt with caps := [], capPos := 0, capLeft := 0, offers := [] } } fCNT_CSTAT_STATE 1)) ∧
      (rdF x fCNT_CSTAT_STATE = 1 → exec (.captureArm e v) s = .next x) ∧
      (rdF x fCNT_CSTAT_STATE = 2 → exec (.captureArm e v) s = .next (count x 0x19 kCntIgnored 0))) ∧
    (v.getLsbD 0 = false → v.getLsbD 1 = true → cntRuns x = true → exec (.captureTrigger e v) s = .next (captureTrigger x)) ∧
    (v.getLsbD 0 = false → v.getLsbD 1 = false → v.getLsbD 2 = true →
      exec (.captureStop e v) s = .next (if rdF x fCNT_CSTAT_STATE = 3 then x else freeze x))) ∧
  (∀ s : State, (rdF s fCNT_CSTAT_STATE = 1 → rdF s fCNT_CPOST_MB = 0 → captureTrigger s = freeze s) ∧
    (rdF s fCNT_CSTAT_STATE = 1 → rdF s fCNT_CPOST_MB ≠ 0 → captureTrigger s =
      wrF { s with cnt := { s.cnt with capLeft := rdF s fCNT_CPOST_MB * 2 ^ 20 } } fCNT_CSTAT_STATE 2) ∧
    (rdF s fCNT_CSTAT_STATE = 2 → captureTrigger s = count s 0x19 kCntIgnored 0) ∧
    (rdF s fCNT_CSTAT_STATE = 0 ∨ rdF s fCNT_CSTAT_STATE = 3 → captureTrigger s = s) ∧
    rdF (freeze s) fCNT_CSTAT_STATE = 3 ∧ (∀ n l, s.cnt.caps = [n] ++ l → rdF (freeze s) fCNT_CFIRST0_OFF = n.1 % 2 ^ 24) ∧
    (live s = true → rdF s fCNT_CSTAT_STATE = 2 → s.cnt.capLeft = 0 → exec .captureFrozen s = .next (freeze s))) ∧
  (∀ (s x y : State) (o : Offer) (l : List Offer) (b : List Byte) (n pos a : Nat), s.cnt.offers = o :: l → cntRuns s = true → offerDone s o = true →
    rdF s fCNT_CSTAT_STATE ≠ 2 ∨ s.cnt.capLeft ≠ 0 → x = { s with cnt := { s.cnt with offers := l } } → b = captureBytes s o → n = b.length / 64 →
    pos = (if rdF s fCNT_CSIZE_U * 2 ^ 20 < s.cnt.capPos + n then 0 else s.cnt.capPos) →
    a = rdF s fCNT_CBASEH_BASE * 2 ^ 24 + rdF s fCNT_CBASEL_BASE + 64 * pos →
    exec (.captureRecord true) s = .next (count x 0x19 kCntLost 0) ∧
    (dataSpace < a + b.length → exec (.captureRecord false) s = .next (count (refuse x cntMaster a true) 0x19 kCntLost 0)) ∧
    (a + b.length ≤ dataSpace → ∀ z, refusedByte s cntMaster a b.length true = some z →
      exec (.captureRecord false) s = .next (count (refuse x cntMaster z true) 0x19 kCntLost 0)) ∧
    (a + b.length ≤ dataSpace → refusedByte s cntMaster a b.length true = none → ∀ c,
      c = (s.cnt.caps.filter fun x => !(decide (x.1 < pos + n) && decide (pos < x.1 + x.2))) ++ [(pos, n)] →
      y = { x with cnt := { { x.cnt with caps := c } with capPos := pos + n, capLeft := s.cnt.capLeft - b.length } } →
      exec (.captureRecord false) s = .next (memWrite y cntMaster a b))) ∧
  (∀ (j : Fin 39) (s : State), live s = true →
    (testing s j = true → rdF s fTST_TCFG_CHK j ≠ 0 → onF s fTST_TSTAT_LOCK j = false → 34 ≤ j.val ∨ rdF s fTST_TCFG_LOOP j ≠ 1 →
      exec (.checkerLock j) s = .next (wrF { s with tst := { s.tst with errs := tset (fun _ => 0) s.tst.errs j 0 } } fTST_TSTAT_LOCK 1 j)) ∧
    (onF s fTST_TSTAT_LOCK j = true →
      exec (.checkerLockLoss j) s = .next (emit0 (count (wrF s fTST_TSTAT_LOCK 0 j) 0x1b kTstLoss j) 0x6c0010)) ∧
    (∀ (bits errors generated n acc : Nat) (x y z : State), testing s j = true → paced s (paceTerr j) 625000 = true →
      n = tget (fun _ => 0) s.tst.errs j + (if onF s fTST_TSTAT_LOCK j then errors else 0) →
      x = { setPace s (paceTerr j) with tst := { s.tst with errs := tset (fun _ => 0) s.tst.errs j n } } →
      y = (if onF s fTST_TSTAT_LOCK j then count (count x 0x1b kTstChecked j bits) 0x1b kTstErrors j errors else x) →
      acc = tget (fun _ => 0) s.tst.acc j + generated →
      z = (if tget (fun _ => 0) s.tst.inj j = 3 then
        count { y with tst := { y.tst with acc := tset (fun _ => 0) y.tst.acc j (acc % 2 ^ rdF s fTST_TINJ_RATE j) } } 0x1b kTstInjected j
          (acc / 2 ^ rdF s fTST_TINJ_RATE j) else y) →
      exec (.terrResult j bits errors generated) s = .next (result z fTST_TERR_N (min 0xffffff n) j))) ∧
  (∀ (e : Eng) (j : Fin 39) (v : BitVec 24) (busy : Bool) (s x y : State) (kind : Nat), accept s e false (fAddr fTST_TINJGO_GO j 0) v = some x →
    (v.getLsbD 0 = false ∨ testing x j = false ∨ rdF x fTST_TCFG_GEN j = 0 → exec (.inject e j v busy) s = .next x) ∧
    (v.getLsbD 0 = true → testing x j = true → rdF x fTST_TCFG_GEN j ≠ 0 →
      (busy = true → tget (fun _ => 0) x.tst.inj j = 1 ∨ tget (fun _ => 0) x.tst.inj j = 2 →
        exec (.inject e j v busy) s = .next (count x 0x1b kTstIgnored j)) ∧
      (busy = false ∨ (tget (fun _ => 0) x.tst.inj j ≠ 1 ∧ tget (fun _ => 0) x.tst.inj j ≠ 2) → kind = rdF x fTST_TINJ_KIND j →
        y = { x with tst := { { x.tst with inj := tset (fun _ => 0) x.tst.inj j kind } with acc := tset (fun _ => 0) x.tst.acc j 0 } } →
        exec (.inject e j v busy) s =
          .next (count y 0x1b kTstInjected j (if kind = 1 then 1 else if kind = 2 then rdF x fTST_TINJ_LEN j + 1 else 0))))) ∧
  (∀ s x y : State, live s = true → testing s 38 = true → rdF s fTST_TCFG_GEN 38 ≠ 0 → rdF s fTST_TCFG_LOOP 38 ≠ 0 ∨ busIdle s = true →
    paced s paceTestFrame 1250000 = true →
    x = (if s.tst.waits = true ∧ rdF s fTST_TCFG_CHK 38 ≠ 0 then count (setPace s paceTestFrame) 0x1b kTstLost 38 else setPace s paceTestFrame) →
    y = count { x with tst := { x.tst with waits := true }, sbus := { x.sbus with sent := testFrame x } } 0x1b kTstTx 38 →
    exec .testFrameSend s = .next (if rdF s fTST_TCFG_LOOP 38 = 1 then testFrameIn y (testFrame x) else y)) ∧
  (∀ (cells pins : Nat) (code : BitVec 8) (s : State),
    (tapOpen s = true → exec .tapReset s = .next (tapTo s 2 none tapCode) ∧ exec (.extest cells pins) s = .next (tapTo s 0 (some cells) pins) ∧
      exec (.samplePreload pins) s = .next (tapTo s 1 none pins) ∧ exec .idcode s = .next (tapTo s 2 none tapCode) ∧
      exec (.clamp cells) s = .next (tapTo s 3 (some cells) 0) ∧ exec .highz s = .next (tapTo s 4 (some 0) 0) ∧
      exec .engdebug s = .next (tapTo s 0x10 none 0) ∧ exec .ptest s = .next (tapTo s 0x11 none 0) ∧
      (¬[0, 1, 2, 3, 4, 0x10, 0x11].contains code.toNat → exec (.bypass code) s = .next (tapTo s 0xff none 0))) ∧
    (s.fuse.lock = true → ∀ c, c ∈ ([.tapReset, .extest cells pins, .samplePreload pins, .idcode, .clamp cells, .highz, .engdebug, .ptest,
      .bypass code] : List Instr) → exec c s = .next s)) ∧
  ∀ (s x : State) (code dr : Nat) (drive : Option Nat),
    x = wrF { s with tst := { s.tst with tap := code, drive := drive, dr := dr } } fTST_TAPOWN_OWN (b2n drive.isSome) →
    tapTo s code drive dr = (if s.tst.drive.isSome = drive.isSome then x else emit0 x 0x6c0012)
end

