-- ==== Sys2Proof/Laws/State.lean ====
section
/-! SUPPORT. What each shared update of the state leaves as it was, field by field, and what the update itself reads back. -/
namespace Sys2Proof.Machine

/-! ### wrW -/

@[simp] theorem wrW_pending (s : State) (a : Nat) (v : Word) : (wrW s a v).pending = s.pending := rfl
@[simp] theorem wrW_sys (s : State) (a : Nat) (v : Word) : (wrW s a v).sys = s.sys := rfl
@[simp] theorem wrW_ctl (s : State) (a : Nat) (v : Word) : (wrW s a v).ctl = s.ctl := rfl
@[simp] theorem wrW_engs (s : State) (a : Nat) (v : Word) : (wrW s a v).engs = s.engs := rfl
@[simp] theorem wrW_data (s : State) (a : Nat) (v : Word) : (wrW s a v).data = s.data := rfl
@[simp] theorem wrW_imem (s : State) (a : Nat) (v : Word) : (wrW s a v).imem = s.imem := rfl
@[simp] theorem wrW_shared (s : State) (a : Nat) (v : Word) : (wrW s a v).shared = s.shared := rfl
@[simp] theorem wrW_load (s : State) (a : Nat) (v : Word) : (wrW s a v).load = s.load := rfl
@[simp] theorem wrW_log (s : State) (a : Nat) (v : Word) : (wrW s a v).log = s.log := rfl
@[simp] theorem wrW_flt (s : State) (a : Nat) (v : Word) : (wrW s a v).flt = s.flt := rfl
@[simp] theorem wrW_mpe (s : State) (a : Nat) (v : Word) : (wrW s a v).mpe = s.mpe := rfl
@[simp] theorem wrW_time (s : State) (a : Nat) (v : Word) : (wrW s a v).time = s.time := rfl
@[simp] theorem wrW_cndl (s : State) (a : Nat) (v : Word) : (wrW s a v).cndl = s.cndl := rfl
@[simp] theorem wrW_cnt (s : State) (a : Nat) (v : Word) : (wrW s a v).cnt = s.cnt := rfl
@[simp] theorem wrW_hst (s : State) (a : Nat) (v : Word) : (wrW s a v).hst = s.hst := rfl
@[simp] theorem wrW_slots (s : State) (a : Nat) (v : Word) : (wrW s a v).slots = s.slots := rfl
@[simp] theorem wrW_flow (s : State) (a : Nat) (v : Word) : (wrW s a v).flow = s.flow := rfl
@[simp] theorem wrW_flights (s : State) (a : Nat) (v : Word) : (wrW s a v).flights = s.flights := rfl
@[simp] theorem wrW_ovAt (s : State) (a : Nat) (v : Word) : (wrW s a v).ovAt = s.ovAt := rfl
@[simp] theorem wrW_nextId (s : State) (a : Nat) (v : Word) : (wrW s a v).nextId = s.nextId := rfl
@[simp] theorem wrW_qm (s : State) (a : Nat) (v : Word) : (wrW s a v).qm = s.qm := rfl
@[simp] theorem wrW_sch (s : State) (a : Nat) (v : Word) : (wrW s a v).sch = s.sch := rfl
@[simp] theorem wrW_lane (s : State) (a : Nat) (v : Word) : (wrW s a v).lane = s.lane := rfl
@[simp] theorem wrW_mac (s : State) (a : Nat) (v : Word) : (wrW s a v).mac = s.mac := rfl
@[simp] theorem wrW_msec (s : State) (a : Nat) (v : Word) : (wrW s a v).msec = s.msec := rfl
@[simp] theorem wrW_cls (s : State) (a : Nat) (v : Word) : (wrW s a v).cls = s.cls := rfl
@[simp] theorem wrW_plc (s : State) (a : Nat) (v : Word) : (wrW s a v).plc = s.plc := rfl
@[simp] theorem wrW_pon (s : State) (a : Nat) (v : Word) : (wrW s a v).pon = s.pon := rfl
@[simp] theorem wrW_trib (s : State) (a : Nat) (v : Word) : (wrW s a v).trib = s.trib := rfl
@[simp] theorem wrW_mem (s : State) (a : Nat) (v : Word) : (wrW s a v).mem = s.mem := rfl
@[simp] theorem wrW_key (s : State) (a : Nat) (v : Word) : (wrW s a v).key = s.key := rfl
@[simp] theorem wrW_fuse (s : State) (a : Nat) (v : Word) : (wrW s a v).fuse = s.fuse := rfl
@[simp] theorem wrW_chk (s : State) (a : Nat) (v : Word) : (wrW s a v).chk = s.chk := rfl
@[simp] theorem wrW_pwr (s : State) (a : Nat) (v : Word) : (wrW s a v).pwr = s.pwr := rfl
@[simp] theorem wrW_pair (s : State) (a : Nat) (v : Word) : (wrW s a v).pair = s.pair := rfl
@[simp] theorem wrW_meas (s : State) (a : Nat) (v : Word) : (wrW s a v).meas = s.meas := rfl
@[simp] theorem wrW_sbus (s : State) (a : Nat) (v : Word) : (wrW s a v).sbus = s.sbus := rfl
@[simp] theorem wrW_tst (s : State) (a : Nat) (v : Word) : (wrW s a v).tst = s.tst := rfl

/-! ### wrF -/

@[simp] theorem wrF_pending (s : State) (f : Fld) (v i off : Nat) : (wrF s f v i off).pending = s.pending := wrW_pending _ _ _
@[simp] theorem wrF_sys (s : State) (f : Fld) (v i off : Nat) : (wrF s f v i off).sys = s.sys := wrW_sys _ _ _
@[simp] theorem wrF_ctl (s : State) (f : Fld) (v i off : Nat) : (wrF s f v i off).ctl = s.ctl := wrW_ctl _ _ _
@[simp] theorem wrF_engs (s : State) (f : Fld) (v i off : Nat) : (wrF s f v i off).engs = s.engs := wrW_engs _ _ _
@[simp] theorem wrF_data (s : State) (f : Fld) (v i off : Nat) : (wrF s f v i off).data = s.data := wrW_data _ _ _
@[simp] theorem wrF_imem (s : State) (f : Fld) (v i off : Nat) : (wrF s f v i off).imem = s.imem := wrW_imem _ _ _
@[simp] theorem wrF_shared (s : State) (f : Fld) (v i off : Nat) : (wrF s f v i off).shared = s.shared := wrW_shared _ _ _
@[simp] theorem wrF_load (s : State) (f : Fld) (v i off : Nat) : (wrF s f v i off).load = s.load := wrW_load _ _ _
@[simp] theorem wrF_log (s : State) (f : Fld) (v i off : Nat) : (wrF s f v i off).log = s.log := wrW_log _ _ _
@[simp] theorem wrF_flt (s : State) (f : Fld) (v i off : Nat) : (wrF s f v i off).flt = s.flt := wrW_flt _ _ _
@[simp] theorem wrF_mpe (s : State) (f : Fld) (v i off : Nat) : (wrF s f v i off).mpe = s.mpe := wrW_mpe _ _ _
@[simp] theorem wrF_time (s : State) (f : Fld) (v i off : Nat) : (wrF s f v i off).time = s.time := wrW_time _ _ _
@[simp] theorem wrF_cndl (s : State) (f : Fld) (v i off : Nat) : (wrF s f v i off).cndl = s.cndl := wrW_cndl _ _ _
@[simp] theorem wrF_cnt (s : State) (f : Fld) (v i off : Nat) : (wrF s f v i off).cnt = s.cnt := wrW_cnt _ _ _
@[simp] theorem wrF_hst (s : State) (f : Fld) (v i off : Nat) : (wrF s f v i off).hst = s.hst := wrW_hst _ _ _
@[simp] theorem wrF_slots (s : State) (f : Fld) (v i off : Nat) : (wrF s f v i off).slots = s.slots := wrW_slots _ _ _
@[simp] theorem wrF_flow (s : State) (f : Fld) (v i off : Nat) : (wrF s f v i off).flow = s.flow := wrW_flow _ _ _
@[simp] theorem wrF_flights (s : State) (f : Fld) (v i off : Nat) : (wrF s f v i off).flights = s.flights := wrW_flights _ _ _
@[simp] theorem wrF_ovAt (s : State) (f : Fld) (v i off : Nat) : (wrF s f v i off).ovAt = s.ovAt := wrW_ovAt _ _ _
@[simp] theorem wrF_nextId (s : State) (f : Fld) (v i off : Nat) : (wrF s f v i off).nextId = s.nextId := wrW_nextId _ _ _
@[simp] theorem wrF_qm (s : State) (f : Fld) (v i off : Nat) : (wrF s f v i off).qm = s.qm := wrW_qm _ _ _
@[simp] theorem wrF_sch (s : State) (f : Fld) (v i off : Nat) : (wrF s f v i off).sch = s.sch := wrW_sch _ _ _
@[simp] theorem wrF_lane (s : State) (f : Fld) (v i off : Nat) : (wrF s f v i off).lane = s.lane := wrW_lane _ _ _
@[simp] theorem wrF_mac (s : State) (f : Fld) (v i off : Nat) : (wrF s f v i off).mac = s.mac := wrW_mac _ _ _
@[simp] theorem wrF_msec (s : State) (f : Fld) (v i off : Nat) : (wrF s f v i off).msec = s.msec := wrW_msec _ _ _
@[simp] theorem wrF_cls (s : State) (f : Fld) (v i off : Nat) : (wrF s f v i off).cls = s.cls := wrW_cls _ _ _
@[simp] theorem wrF_plc (s : State) (f : Fld) (v i off : Nat) : (wrF s f v i off).plc = s.plc := wrW_plc _ _ _
@[simp] theorem wrF_pon (s : State) (f : Fld) (v i off : Nat) : (wrF s f v i off).pon = s.pon := wrW_pon _ _ _
@[simp] theorem wrF_trib (s : State) (f : Fld) (v i off : Nat) : (wrF s f v i off).trib = s.trib := wrW_trib _ _ _
@[simp] theorem wrF_mem (s : State) (f : Fld) (v i off : Nat) : (wrF s f v i off).mem = s.mem := wrW_mem _ _ _
@[simp] theorem wrF_key (s : State) (f : Fld) (v i off : Nat) : (wrF s f v i off).key = s.key := wrW_key _ _ _
@[simp] theorem wrF_fuse (s : State) (f : Fld) (v i off : Nat) : (wrF s f v i off).fuse = s.fuse := wrW_fuse _ _ _
@[simp] theorem wrF_chk (s : State) (f : Fld) (v i off : Nat) : (wrF s f v i off).chk = s.chk := wrW_chk _ _ _
@[simp] theorem wrF_pwr (s : State) (f : Fld) (v i off : Nat) : (wrF s f v i off).pwr = s.pwr := wrW_pwr _ _ _
@[simp] theorem wrF_pair (s : State) (f : Fld) (v i off : Nat) : (wrF s f v i off).pair = s.pair := wrW_pair _ _ _
@[simp] theorem wrF_meas (s : State) (f : Fld) (v i off : Nat) : (wrF s f v i off).meas = s.meas := wrW_meas _ _ _
@[simp] theorem wrF_sbus (s : State) (f : Fld) (v i off : Nat) : (wrF s f v i off).sbus = s.sbus := wrW_sbus _ _ _
@[simp] theorem wrF_tst (s : State) (f : Fld) (v i off : Nat) : (wrF s f v i off).tst = s.tst := wrW_tst _ _ _

/-! ### wrC -/

@[simp] theorem wrC_pending (s : State) (f : Fld) (u i v : Nat) : (wrC s f u i v).pending = s.pending := wrW_pending _ _ _
@[simp] theorem wrC_sys (s : State) (f : Fld) (u i v : Nat) : (wrC s f u i v).sys = s.sys := wrW_sys _ _ _
@[simp] theorem wrC_ctl (s : State) (f : Fld) (u i v : Nat) : (wrC s f u i v).ctl = s.ctl := wrW_ctl _ _ _
@[simp] theorem wrC_engs (s : State) (f : Fld) (u i v : Nat) : (wrC s f u i v).engs = s.engs := wrW_engs _ _ _
@[simp] theorem wrC_data (s : State) (f : Fld) (u i v : Nat) : (wrC s f u i v).data = s.data := wrW_data _ _ _
@[simp] theorem wrC_imem (s : State) (f : Fld) (u i v : Nat) : (wrC s f u i v).imem = s.imem := wrW_imem _ _ _
@[simp] theorem wrC_shared (s : State) (f : Fld) (u i v : Nat) : (wrC s f u i v).shared = s.shared := wrW_shared _ _ _
@[simp] theorem wrC_load (s : State) (f : Fld) (u i v : Nat) : (wrC s f u i v).load = s.load := wrW_load _ _ _
@[simp] theorem wrC_log (s : State) (f : Fld) (u i v : Nat) : (wrC s f u i v).log = s.log := wrW_log _ _ _
@[simp] theorem wrC_flt (s : State) (f : Fld) (u i v : Nat) : (wrC s f u i v).flt = s.flt := wrW_flt _ _ _
@[simp] theorem wrC_mpe (s : State) (f : Fld) (u i v : Nat) : (wrC s f u i v).mpe = s.mpe := wrW_mpe _ _ _
@[simp] theorem wrC_time (s : State) (f : Fld) (u i v : Nat) : (wrC s f u i v).time = s.time := wrW_time _ _ _
@[simp] theorem wrC_cndl (s : State) (f : Fld) (u i v : Nat) : (wrC s f u i v).cndl = s.cndl := wrW_cndl _ _ _
@[simp] theorem wrC_cnt (s : State) (f : Fld) (u i v : Nat) : (wrC s f u i v).cnt = s.cnt := wrW_cnt _ _ _
@[simp] theorem wrC_hst (s : State) (f : Fld) (u i v : Nat) : (wrC s f u i v).hst = s.hst := wrW_hst _ _ _
@[simp] theorem wrC_slots (s : State) (f : Fld) (u i v : Nat) : (wrC s f u i v).slots = s.slots := wrW_slots _ _ _
@[simp] theorem wrC_flow (s : State) (f : Fld) (u i v : Nat) : (wrC s f u i v).flow = s.flow := wrW_flow _ _ _
@[simp] theorem wrC_flights (s : State) (f : Fld) (u i v : Nat) : (wrC s f u i v).flights = s.flights := wrW_flights _ _ _
@[simp] theorem wrC_ovAt (s : State) (f : Fld) (u i v : Nat) : (wrC s f u i v).ovAt = s.ovAt := wrW_ovAt _ _ _
@[simp] theorem wrC_nextId (s : State) (f : Fld) (u i v : Nat) : (wrC s f u i v).nextId = s.nextId := wrW_nextId _ _ _
@[simp] theorem wrC_qm (s : State) (f : Fld) (u i v : Nat) : (wrC s f u i v).qm = s.qm := wrW_qm _ _ _
@[simp] theorem wrC_sch (s : State) (f : Fld) (u i v : Nat) : (wrC s f u i v).sch = s.sch := wrW_sch _ _ _
@[simp] theorem wrC_lane (s : State) (f : Fld) (u i v : Nat) : (wrC s f u i v).lane = s.lane := wrW_lane _ _ _
@[simp] theorem wrC_mac (s : State) (f : Fld) (u i v : Nat) : (wrC s f u i v).mac = s.mac := wrW_mac _ _ _
@[simp] theorem wrC_msec (s : State) (f : Fld) (u i v : Nat) : (wrC s f u i v).msec = s.msec := wrW_msec _ _ _
@[simp] theorem wrC_cls (s : State) (f : Fld) (u i v : Nat) : (wrC s f u i v).cls = s.cls := wrW_cls _ _ _
@[simp] theorem wrC_plc (s : State) (f : Fld) (u i v : Nat) : (wrC s f u i v).plc = s.plc := wrW_plc _ _ _
@[simp] theorem wrC_pon (s : State) (f : Fld) (u i v : Nat) : (wrC s f u i v).pon = s.pon := wrW_pon _ _ _
@[simp] theorem wrC_trib (s : State) (f : Fld) (u i v : Nat) : (wrC s f u i v).trib = s.trib := wrW_trib _ _ _
@[simp] theorem wrC_mem (s : State) (f : Fld) (u i v : Nat) : (wrC s f u i v).mem = s.mem := wrW_mem _ _ _
@[simp] theorem wrC_key (s : State) (f : Fld) (u i v : Nat) : (wrC s f u i v).key = s.key := wrW_key _ _ _
@[simp] theorem wrC_fuse (s : State) (f : Fld) (u i v : Nat) : (wrC s f u i v).fuse = s.fuse := wrW_fuse _ _ _
@[simp] theorem wrC_chk (s : State) (f : Fld) (u i v : Nat) : (wrC s f u i v).chk = s.chk := wrW_chk _ _ _
@[simp] theorem wrC_pwr (s : State) (f : Fld) (u i v : Nat) : (wrC s f u i v).pwr = s.pwr := wrW_pwr _ _ _
@[simp] theorem wrC_pair (s : State) (f : Fld) (u i v : Nat) : (wrC s f u i v).pair = s.pair := wrW_pair _ _ _
@[simp] theorem wrC_meas (s : State) (f : Fld) (u i v : Nat) : (wrC s f u i v).meas = s.meas := wrW_meas _ _ _
@[simp] theorem wrC_sbus (s : State) (f : Fld) (u i v : Nat) : (wrC s f u i v).sbus = s.sbus := wrW_sbus _ _ _
@[simp] theorem wrC_tst (s : State) (f : Fld) (u i v : Nat) : (wrC s f u i v).tst = s.tst := wrW_tst _ _ _

/-! ### setResult -/

@[simp] theorem setResult_pending (s : State) (a v : Nat) : (setResult s a v).pending = s.pending := rfl
@[simp] theorem setResult_sys (s : State) (a v : Nat) : (setResult s a v).sys = s.sys := rfl
@[simp] theorem setResult_engs (s : State) (a v : Nat) : (setResult s a v).engs = s.engs := rfl
@[simp] theorem setResult_data (s : State) (a v : Nat) : (setResult s a v).data = s.data := rfl
@[simp] theorem setResult_imem (s : State) (a v : Nat) : (setResult s a v).imem = s.imem := rfl
@[simp] theorem setResult_shared (s : State) (a v : Nat) : (setResult s a v).shared = s.shared := rfl
@[simp] theorem setResult_load (s : State) (a v : Nat) : (setResult s a v).load = s.load := rfl
@[simp] theorem setResult_log (s : State) (a v : Nat) : (setResult s a v).log = s.log := rfl
@[simp] theorem setResult_flt (s : State) (a v : Nat) : (setResult s a v).flt = s.flt := rfl
@[simp] theorem setResult_mpe (s : State) (a v : Nat) : (setResult s a v).mpe = s.mpe := rfl
@[simp] theorem setResult_time (s : State) (a v : Nat) : (setResult s a v).time = s.time := rfl
@[simp] theorem setResult_cndl (s : State) (a v : Nat) : (setResult s a v).cndl = s.cndl := rfl
@[simp] theorem setResult_cnt (s : State) (a v : Nat) : (setResult s a v).cnt = s.cnt := rfl
@[simp] theorem setResult_hst (s : State) (a v : Nat) : (setResult s a v).hst = s.hst := rfl
@[simp] theorem setResult_slots (s : State) (a v : Nat) : (setResult s a v).slots = s.slots := rfl
@[simp] theorem setResult_flow (s : State) (a v : Nat) : (setResult s a v).flow = s.flow := rfl
@[simp] theorem setResult_flights (s : State) (a v : Nat) : (setResult s a v).flights = s.flights := rfl
@[simp] theorem setResult_ovAt (s : State) (a v : Nat) : (setResult s a v).ovAt = s.ovAt := rfl
@[simp] theorem setResult_nextId (s : State) (a v : Nat) : (setResult s a v).nextId = s.nextId := rfl
@[simp] theorem setResult_qm (s : State) (a v : Nat) : (setResult s a v).qm = s.qm := rfl
@[simp] theorem setResult_sch (s : State) (a v : Nat) : (setResult s a v).sch = s.sch := rfl
@[simp] theorem setResult_lane (s : State) (a v : Nat) : (setResult s a v).lane = s.lane := rfl
@[simp] theorem setResult_mac (s : State) (a v : Nat) : (setResult s a v).mac = s.mac := rfl
@[simp] theorem setResult_msec (s : State) (a v : Nat) : (setResult s a v).msec = s.msec := rfl
@[simp] theorem setResult_cls (s : State) (a v : Nat) : (setResult s a v).cls = s.cls := rfl
@[simp] theorem setResult_plc (s : State) (a v : Nat) : (setResult s a v).plc = s.plc := rfl
@[simp] theorem setResult_pon (s : State) (a v : Nat) : (setResult s a v).pon = s.pon := rfl
@[simp] theorem setResult_trib (s : State) (a v : Nat) : (setResult s a v).trib = s.trib := rfl
@[simp] theorem setResult_mem (s : State) (a v : Nat) : (setResult s a v).mem = s.mem := rfl
@[simp] theorem setResult_key (s : State) (a v : Nat) : (setResult s a v).key = s.key := rfl
@[simp] theorem setResult_fuse (s : State) (a v : Nat) : (setResult s a v).fuse = s.fuse := rfl
@[simp] theorem setResult_chk (s : State) (a v : Nat) : (setResult s a v).chk = s.chk := rfl
@[simp] theorem setResult_pwr (s : State) (a v : Nat) : (setResult s a v).pwr = s.pwr := rfl
@[simp] theorem setResult_pair (s : State) (a v : Nat) : (setResult s a v).pair = s.pair := rfl
@[simp] theorem setResult_meas (s : State) (a v : Nat) : (setResult s a v).meas = s.meas := rfl
@[simp] theorem setResult_sbus (s : State) (a v : Nat) : (setResult s a v).sbus = s.sbus := rfl
@[simp] theorem setResult_tst (s : State) (a v : Nat) : (setResult s a v).tst = s.tst := rfl

/-! ### result -/

@[simp] theorem result_pending (s : State) (f : Fld) (v i off : Nat) : (result s f v i off).pending = s.pending := setResult_pending _ _ _
@[simp] theorem result_sys (s : State) (f : Fld) (v i off : Nat) : (result s f v i off).sys = s.sys := setResult_sys _ _ _
@[simp] theorem result_engs (s : State) (f : Fld) (v i off : Nat) : (result s f v i off).engs = s.engs := setResult_engs _ _ _
@[simp] theorem result_data (s : State) (f : Fld) (v i off : Nat) : (result s f v i off).data = s.data := setResult_data _ _ _
@[simp] theorem result_imem (s : State) (f : Fld) (v i off : Nat) : (result s f v i off).imem = s.imem := setResult_imem _ _ _
@[simp] theorem result_shared (s : State) (f : Fld) (v i off : Nat) : (result s f v i off).shared = s.shared := setResult_shared _ _ _
@[simp] theorem result_load (s : State) (f : Fld) (v i off : Nat) : (result s f v i off).load = s.load := setResult_load _ _ _
@[simp] theorem result_log (s : State) (f : Fld) (v i off : Nat) : (result s f v i off).log = s.log := setResult_log _ _ _
@[simp] theorem result_flt (s : State) (f : Fld) (v i off : Nat) : (result s f v i off).flt = s.flt := setResult_flt _ _ _
@[simp] theorem result_mpe (s : State) (f : Fld) (v i off : Nat) : (result s f v i off).mpe = s.mpe := setResult_mpe _ _ _
@[simp] theorem result_time (s : State) (f : Fld) (v i off : Nat) : (result s f v i off).time = s.time := setResult_time _ _ _
@[simp] theorem result_cndl (s : State) (f : Fld) (v i off : Nat) : (result s f v i off).cndl = s.cndl := setResult_cndl _ _ _
@[simp] theorem result_cnt (s : State) (f : Fld) (v i off : Nat) : (result s f v i off).cnt = s.cnt := setResult_cnt _ _ _
@[simp] theorem result_hst (s : State) (f : Fld) (v i off : Nat) : (result s f v i off).hst = s.hst := setResult_hst _ _ _
@[simp] theorem result_slots (s : State) (f : Fld) (v i off : Nat) : (result s f v i off).slots = s.slots := setResult_slots _ _ _
@[simp] theorem result_flow (s : State) (f : Fld) (v i off : Nat) : (result s f v i off).flow = s.flow := setResult_flow _ _ _
@[simp] theorem result_flights (s : State) (f : Fld) (v i off : Nat) : (result s f v i off).flights = s.flights := setResult_flights _ _ _
@[simp] theorem result_ovAt (s : State) (f : Fld) (v i off : Nat) : (result s f v i off).ovAt = s.ovAt := setResult_ovAt _ _ _
@[simp] theorem result_nextId (s : State) (f : Fld) (v i off : Nat) : (result s f v i off).nextId = s.nextId := setResult_nextId _ _ _
@[simp] theorem result_qm (s : State) (f : Fld) (v i off : Nat) : (result s f v i off).qm = s.qm := setResult_qm _ _ _
@[simp] theorem result_sch (s : State) (f : Fld) (v i off : Nat) : (result s f v i off).sch = s.sch := setResult_sch _ _ _
@[simp] theorem result_lane (s : State) (f : Fld) (v i off : Nat) : (result s f v i off).lane = s.lane := setResult_lane _ _ _
@[simp] theorem result_mac (s : State) (f : Fld) (v i off : Nat) : (result s f v i off).mac = s.mac := setResult_mac _ _ _
@[simp] theorem result_msec (s : State) (f : Fld) (v i off : Nat) : (result s f v i off).msec = s.msec := setResult_msec _ _ _
@[simp] theorem result_cls (s : State) (f : Fld) (v i off : Nat) : (result s f v i off).cls = s.cls := setResult_cls _ _ _
@[simp] theorem result_plc (s : State) (f : Fld) (v i off : Nat) : (result s f v i off).plc = s.plc := setResult_plc _ _ _
@[simp] theorem result_pon (s : State) (f : Fld) (v i off : Nat) : (result s f v i off).pon = s.pon := setResult_pon _ _ _
@[simp] theorem result_trib (s : State) (f : Fld) (v i off : Nat) : (result s f v i off).trib = s.trib := setResult_trib _ _ _
@[simp] theorem result_mem (s : State) (f : Fld) (v i off : Nat) : (result s f v i off).mem = s.mem := setResult_mem _ _ _
@[simp] theorem result_key (s : State) (f : Fld) (v i off : Nat) : (result s f v i off).key = s.key := setResult_key _ _ _
@[simp] theorem result_fuse (s : State) (f : Fld) (v i off : Nat) : (result s f v i off).fuse = s.fuse := setResult_fuse _ _ _
@[simp] theorem result_chk (s : State) (f : Fld) (v i off : Nat) : (result s f v i off).chk = s.chk := setResult_chk _ _ _
@[simp] theorem result_pwr (s : State) (f : Fld) (v i off : Nat) : (result s f v i off).pwr = s.pwr := setResult_pwr _ _ _
@[simp] theorem result_pair (s : State) (f : Fld) (v i off : Nat) : (result s f v i off).pair = s.pair := setResult_pair _ _ _
@[simp] theorem result_meas (s : State) (f : Fld) (v i off : Nat) : (result s f v i off).meas = s.meas := setResult_meas _ _ _
@[simp] theorem result_sbus (s : State) (f : Fld) (v i off : Nat) : (result s f v i off).sbus = s.sbus := setResult_sbus _ _ _
@[simp] theorem result_tst (s : State) (f : Fld) (v i off : Nat) : (result s f v i off).tst = s.tst := setResult_tst _ _ _

/-! ### takeFree -/

@[simp] theorem takeFree_pending (s : State) : ((takeFree s).2).pending = s.pending := rfl
@[simp] theorem takeFree_words (s : State) : ((takeFree s).2).words = s.words := rfl
@[simp] theorem takeFree_ctl (s : State) : ((takeFree s).2).ctl = s.ctl := rfl
@[simp] theorem takeFree_engs (s : State) : ((takeFree s).2).engs = s.engs := rfl
@[simp] theorem takeFree_data (s : State) : ((takeFree s).2).data = s.data := rfl
@[simp] theorem takeFree_imem (s : State) : ((takeFree s).2).imem = s.imem := rfl
@[simp] theorem takeFree_shared (s : State) : ((takeFree s).2).shared = s.shared := rfl
@[simp] theorem takeFree_load (s : State) : ((takeFree s).2).load = s.load := rfl
@[simp] theorem takeFree_log (s : State) : ((takeFree s).2).log = s.log := rfl
@[simp] theorem takeFree_flt (s : State) : ((takeFree s).2).flt = s.flt := rfl
@[simp] theorem takeFree_mpe (s : State) : ((takeFree s).2).mpe = s.mpe := rfl
@[simp] theorem takeFree_time (s : State) : ((takeFree s).2).time = s.time := rfl
@[simp] theorem takeFree_cndl (s : State) : ((takeFree s).2).cndl = s.cndl := rfl
@[simp] theorem takeFree_cnt (s : State) : ((takeFree s).2).cnt = s.cnt := rfl
@[simp] theorem takeFree_hst (s : State) : ((takeFree s).2).hst = s.hst := rfl
@[simp] theorem takeFree_slots (s : State) : ((takeFree s).2).slots = s.slots := rfl
@[simp] theorem takeFree_flow (s : State) : ((takeFree s).2).flow = s.flow := rfl
@[simp] theorem takeFree_flights (s : State) : ((takeFree s).2).flights = s.flights := rfl
@[simp] theorem takeFree_ovAt (s : State) : ((takeFree s).2).ovAt = s.ovAt := rfl
@[simp] theorem takeFree_nextId (s : State) : ((takeFree s).2).nextId = s.nextId := rfl
@[simp] theorem takeFree_qm (s : State) : ((takeFree s).2).qm = s.qm := rfl
@[simp] theorem takeFree_sch (s : State) : ((takeFree s).2).sch = s.sch := rfl
@[simp] theorem takeFree_lane (s : State) : ((takeFree s).2).lane = s.lane := rfl
@[simp] theorem takeFree_mac (s : State) : ((takeFree s).2).mac = s.mac := rfl
@[simp] theorem takeFree_msec (s : State) : ((takeFree s).2).msec = s.msec := rfl
@[simp] theorem takeFree_cls (s : State) : ((takeFree s).2).cls = s.cls := rfl
@[simp] theorem takeFree_plc (s : State) : ((takeFree s).2).plc = s.plc := rfl
@[simp] theorem takeFree_pon (s : State) : ((takeFree s).2).pon = s.pon := rfl
@[simp] theorem takeFree_trib (s : State) : ((takeFree s).2).trib = s.trib := rfl
@[simp] theorem takeFree_mem (s : State) : ((takeFree s).2).mem = s.mem := rfl
@[simp] theorem takeFree_key (s : State) : ((takeFree s).2).key = s.key := rfl
@[simp] theorem takeFree_fuse (s : State) : ((takeFree s).2).fuse = s.fuse := rfl
@[simp] theorem takeFree_chk (s : State) : ((takeFree s).2).chk = s.chk := rfl
@[simp] theorem takeFree_pwr (s : State) : ((takeFree s).2).pwr = s.pwr := rfl
@[simp] theorem takeFree_pair (s : State) : ((takeFree s).2).pair = s.pair := rfl
@[simp] theorem takeFree_meas (s : State) : ((takeFree s).2).meas = s.meas := rfl
@[simp] theorem takeFree_sbus (s : State) : ((takeFree s).2).sbus = s.sbus := rfl
@[simp] theorem takeFree_tst (s : State) : ((takeFree s).2).tst = s.tst := rfl
@[simp] theorem takeFree_sys_phase (s : State) : ((takeFree s).2).sys.phase = s.sys.phase := rfl
@[simp] theorem takeFree_sys_kind (s : State) : ((takeFree s).2).sys.kind = s.sys.kind := rfl
@[simp] theorem takeFree_sys_halted (s : State) : ((takeFree s).2).sys.halted = s.sys.halted := rfl
@[simp] theorem takeFree_sys_ticks (s : State) : ((takeFree s).2).sys.ticks = s.sys.ticks := rfl
@[simp] theorem takeFree_sys_feedA (s : State) : ((takeFree s).2).sys.feedA = s.sys.feedA := rfl
@[simp] theorem takeFree_sys_feedB (s : State) : ((takeFree s).2).sys.feedB = s.sys.feedB := rfl
@[simp] theorem takeFree_sys_crystal (s : State) : ((takeFree s).2).sys.crystal = s.sys.crystal := rfl
@[simp] theorem takeFree_sys_runState (s : State) : ((takeFree s).2).sys.runState = s.sys.runState := rfl
@[simp] theorem takeFree_sys_alm0 (s : State) : ((takeFree s).2).sys.alm0 = s.sys.alm0 := rfl
@[simp] theorem takeFree_sys_alm1 (s : State) : ((takeFree s).2).sys.alm1 = s.sys.alm1 := rfl
@[simp] theorem takeFree_sys_slots (s : State) : ((takeFree s).2).sys.slots = s.sys.slots := rfl

/-! ### emitM -/

@[simp] theorem emitM_pending (s : State) (code p1 p2 p3 : Nat) (m : Mark) (h : Bool) : (emitM s code p1 p2 p3 m h).pending = s.pending := rfl
@[simp] theorem emitM_sys (s : State) (code p1 p2 p3 : Nat) (m : Mark) (h : Bool) : (emitM s code p1 p2 p3 m h).sys = s.sys := rfl
@[simp] theorem emitM_words (s : State) (code p1 p2 p3 : Nat) (m : Mark) (h : Bool) : (emitM s code p1 p2 p3 m h).words = s.words := rfl
@[simp] theorem emitM_ctl (s : State) (code p1 p2 p3 : Nat) (m : Mark) (h : Bool) : (emitM s code p1 p2 p3 m h).ctl = s.ctl := rfl
@[simp] theorem emitM_engs (s : State) (code p1 p2 p3 : Nat) (m : Mark) (h : Bool) : (emitM s code p1 p2 p3 m h).engs = s.engs := rfl
@[simp] theorem emitM_data (s : State) (code p1 p2 p3 : Nat) (m : Mark) (h : Bool) : (emitM s code p1 p2 p3 m h).data = s.data := rfl
@[simp] theorem emitM_imem (s : State) (code p1 p2 p3 : Nat) (m : Mark) (h : Bool) : (emitM s code p1 p2 p3 m h).imem = s.imem := rfl
@[simp] theorem emitM_shared (s : State) (code p1 p2 p3 : Nat) (m : Mark) (h : Bool) : (emitM s code p1 p2 p3 m h).shared = s.shared := rfl
@[simp] theorem emitM_load (s : State) (code p1 p2 p3 : Nat) (m : Mark) (h : Bool) : (emitM s code p1 p2 p3 m h).load = s.load := rfl
@[simp] theorem emitM_flt (s : State) (code p1 p2 p3 : Nat) (m : Mark) (h : Bool) : (emitM s code p1 p2 p3 m h).flt = s.flt := rfl
@[simp] theorem emitM_mpe (s : State) (code p1 p2 p3 : Nat) (m : Mark) (h : Bool) : (emitM s code p1 p2 p3 m h).mpe = s.mpe := rfl
@[simp] theorem emitM_time (s : State) (code p1 p2 p3 : Nat) (m : Mark) (h : Bool) : (emitM s code p1 p2 p3 m h).time = s.time := rfl
@[simp] theorem emitM_cndl (s : State) (code p1 p2 p3 : Nat) (m : Mark) (h : Bool) : (emitM s code p1 p2 p3 m h).cndl = s.cndl := rfl
@[simp] theorem emitM_cnt (s : State) (code p1 p2 p3 : Nat) (m : Mark) (h : Bool) : (emitM s code p1 p2 p3 m h).cnt = s.cnt := rfl
@[simp] theorem emitM_hst (s : State) (code p1 p2 p3 : Nat) (m : Mark) (h : Bool) : (emitM s code p1 p2 p3 m h).hst = s.hst := rfl
@[simp] theorem emitM_slots (s : State) (code p1 p2 p3 : Nat) (m : Mark) (h : Bool) : (emitM s code p1 p2 p3 m h).slots = s.slots := rfl
@[simp] theorem emitM_flow (s : State) (code p1 p2 p3 : Nat) (m : Mark) (h : Bool) : (emitM s code p1 p2 p3 m h).flow = s.flow := rfl
@[simp] theorem emitM_flights (s : State) (code p1 p2 p3 : Nat) (m : Mark) (h : Bool) : (emitM s code p1 p2 p3 m h).flights = s.flights := rfl
@[simp] theorem emitM_ovAt (s : State) (code p1 p2 p3 : Nat) (m : Mark) (h : Bool) : (emitM s code p1 p2 p3 m h).ovAt = s.ovAt := rfl
@[simp] theorem emitM_nextId (s : State) (code p1 p2 p3 : Nat) (m : Mark) (h : Bool) : (emitM s code p1 p2 p3 m h).nextId = s.nextId := rfl
@[simp] theorem emitM_qm (s : State) (code p1 p2 p3 : Nat) (m : Mark) (h : Bool) : (emitM s code p1 p2 p3 m h).qm = s.qm := rfl
@[simp] theorem emitM_sch (s : State) (code p1 p2 p3 : Nat) (m : Mark) (h : Bool) : (emitM s code p1 p2 p3 m h).sch = s.sch := rfl
@[simp] theorem emitM_lane (s : State) (code p1 p2 p3 : Nat) (m : Mark) (h : Bool) : (emitM s code p1 p2 p3 m h).lane = s.lane := rfl
@[simp] theorem emitM_mac (s : State) (code p1 p2 p3 : Nat) (m : Mark) (h : Bool) : (emitM s code p1 p2 p3 m h).mac = s.mac := rfl
@[simp] theorem emitM_msec (s : State) (code p1 p2 p3 : Nat) (m : Mark) (h : Bool) : (emitM s code p1 p2 p3 m h).msec = s.msec := rfl
@[simp] theorem emitM_cls (s : State) (code p1 p2 p3 : Nat) (m : Mark) (h : Bool) : (emitM s code p1 p2 p3 m h).cls = s.cls := rfl
@[simp] theorem emitM_plc (s : State) (code p1 p2 p3 : Nat) (m : Mark) (h : Bool) : (emitM s code p1 p2 p3 m h).plc = s.plc := rfl
@[simp] theorem emitM_pon (s : State) (code p1 p2 p3 : Nat) (m : Mark) (h : Bool) : (emitM s code p1 p2 p3 m h).pon = s.pon := rfl
@[simp] theorem emitM_trib (s : State) (code p1 p2 p3 : Nat) (m : Mark) (h : Bool) : (emitM s code p1 p2 p3 m h).trib = s.trib := rfl
@[simp] theorem emitM_mem (s : State) (code p1 p2 p3 : Nat) (m : Mark) (h : Bool) : (emitM s code p1 p2 p3 m h).mem = s.mem := rfl
@[simp] theorem emitM_key (s : State) (code p1 p2 p3 : Nat) (m : Mark) (h : Bool) : (emitM s code p1 p2 p3 m h).key = s.key := rfl
@[simp] theorem emitM_fuse (s : State) (code p1 p2 p3 : Nat) (m : Mark) (h : Bool) : (emitM s code p1 p2 p3 m h).fuse = s.fuse := rfl
@[simp] theorem emitM_chk (s : State) (code p1 p2 p3 : Nat) (m : Mark) (h : Bool) : (emitM s code p1 p2 p3 m h).chk = s.chk := rfl
@[simp] theorem emitM_pwr (s : State) (code p1 p2 p3 : Nat) (m : Mark) (h : Bool) : (emitM s code p1 p2 p3 m h).pwr = s.pwr := rfl
@[simp] theorem emitM_pair (s : State) (code p1 p2 p3 : Nat) (m : Mark) (h : Bool) : (emitM s code p1 p2 p3 m h).pair = s.pair := rfl
@[simp] theorem emitM_meas (s : State) (code p1 p2 p3 : Nat) (m : Mark) (h : Bool) : (emitM s code p1 p2 p3 m h).meas = s.meas := rfl
@[simp] theorem emitM_sbus (s : State) (code p1 p2 p3 : Nat) (m : Mark) (h : Bool) : (emitM s code p1 p2 p3 m h).sbus = s.sbus := rfl
@[simp] theorem emitM_tst (s : State) (code p1 p2 p3 : Nat) (m : Mark) (h : Bool) : (emitM s code p1 p2 p3 m h).tst = s.tst := rfl

/-! ### emit -/

@[simp] theorem emit_pending (s : State) (code p1 p2 p3 : Nat) : (emit s code p1 p2 p3).pending = s.pending := rfl
@[simp] theorem emit_sys (s : State) (code p1 p2 p3 : Nat) : (emit s code p1 p2 p3).sys = s.sys := rfl
@[simp] theorem emit_words (s : State) (code p1 p2 p3 : Nat) : (emit s code p1 p2 p3).words = s.words := rfl
@[simp] theorem emit_ctl (s : State) (code p1 p2 p3 : Nat) : (emit s code p1 p2 p3).ctl = s.ctl := rfl
@[simp] theorem emit_engs (s : State) (code p1 p2 p3 : Nat) : (emit s code p1 p2 p3).engs = s.engs := rfl
@[simp] theorem emit_data (s : State) (code p1 p2 p3 : Nat) : (emit s code p1 p2 p3).data = s.data := rfl
@[simp] theorem emit_imem (s : State) (code p1 p2 p3 : Nat) : (emit s code p1 p2 p3).imem = s.imem := rfl
@[simp] theorem emit_shared (s : State) (code p1 p2 p3 : Nat) : (emit s code p1 p2 p3).shared = s.shared := rfl
@[simp] theorem emit_load (s : State) (code p1 p2 p3 : Nat) : (emit s code p1 p2 p3).load = s.load := rfl
@[simp] theorem emit_flt (s : State) (code p1 p2 p3 : Nat) : (emit s code p1 p2 p3).flt = s.flt := rfl
@[simp] theorem emit_mpe (s : State) (code p1 p2 p3 : Nat) : (emit s code p1 p2 p3).mpe = s.mpe := rfl
@[simp] theorem emit_time (s : State) (code p1 p2 p3 : Nat) : (emit s code p1 p2 p3).time = s.time := rfl
@[simp] theorem emit_cndl (s : State) (code p1 p2 p3 : Nat) : (emit s code p1 p2 p3).cndl = s.cndl := rfl
@[simp] theorem emit_cnt (s : State) (code p1 p2 p3 : Nat) : (emit s code p1 p2 p3).cnt = s.cnt := rfl
@[simp] theorem emit_hst (s : State) (code p1 p2 p3 : Nat) : (emit s code p1 p2 p3).hst = s.hst := rfl
@[simp] theorem emit_slots (s : State) (code p1 p2 p3 : Nat) : (emit s code p1 p2 p3).slots = s.slots := rfl
@[simp] theorem emit_flow (s : State) (code p1 p2 p3 : Nat) : (emit s code p1 p2 p3).flow = s.flow := rfl
@[simp] theorem emit_flights (s : State) (code p1 p2 p3 : Nat) : (emit s code p1 p2 p3).flights = s.flights := rfl
@[simp] theorem emit_ovAt (s : State) (code p1 p2 p3 : Nat) : (emit s code p1 p2 p3).ovAt = s.ovAt := rfl
@[simp] theorem emit_nextId (s : State) (code p1 p2 p3 : Nat) : (emit s code p1 p2 p3).nextId = s.nextId := rfl
@[simp] theorem emit_qm (s : State) (code p1 p2 p3 : Nat) : (emit s code p1 p2 p3).qm = s.qm := rfl
@[simp] theorem emit_sch (s : State) (code p1 p2 p3 : Nat) : (emit s code p1 p2 p3).sch = s.sch := rfl
@[simp] theorem emit_lane (s : State) (code p1 p2 p3 : Nat) : (emit s code p1 p2 p3).lane = s.lane := rfl
@[simp] theorem emit_mac (s : State) (code p1 p2 p3 : Nat) : (emit s code p1 p2 p3).mac = s.mac := rfl
@[simp] theorem emit_msec (s : State) (code p1 p2 p3 : Nat) : (emit s code p1 p2 p3).msec = s.msec := rfl
@[simp] theorem emit_cls (s : State) (code p1 p2 p3 : Nat) : (emit s code p1 p2 p3).cls = s.cls := rfl
@[simp] theorem emit_plc (s : State) (code p1 p2 p3 : Nat) : (emit s code p1 p2 p3).plc = s.plc := rfl
@[simp] theorem emit_pon (s : State) (code p1 p2 p3 : Nat) : (emit s code p1 p2 p3).pon = s.pon := rfl
@[simp] theorem emit_trib (s : State) (code p1 p2 p3 : Nat) : (emit s code p1 p2 p3).trib = s.trib := rfl
@[simp] theorem emit_mem (s : State) (code p1 p2 p3 : Nat) : (emit s code p1 p2 p3).mem = s.mem := rfl
@[simp] theorem emit_key (s : State) (code p1 p2 p3 : Nat) : (emit s code p1 p2 p3).key = s.key := rfl
@[simp] theorem emit_fuse (s : State) (code p1 p2 p3 : Nat) : (emit s code p1 p2 p3).fuse = s.fuse := rfl
@[simp] theorem emit_chk (s : State) (code p1 p2 p3 : Nat) : (emit s code p1 p2 p3).chk = s.chk := rfl
@[simp] theorem emit_pwr (s : State) (code p1 p2 p3 : Nat) : (emit s code p1 p2 p3).pwr = s.pwr := rfl
@[simp] theorem emit_pair (s : State) (code p1 p2 p3 : Nat) : (emit s code p1 p2 p3).pair = s.pair := rfl
@[simp] theorem emit_meas (s : State) (code p1 p2 p3 : Nat) : (emit s code p1 p2 p3).meas = s.meas := rfl
@[simp] theorem emit_sbus (s : State) (code p1 p2 p3 : Nat) : (emit s code p1 p2 p3).sbus = s.sbus := rfl
@[simp] theorem emit_tst (s : State) (code p1 p2 p3 : Nat) : (emit s code p1 p2 p3).tst = s.tst := rfl

/-! ### emit2 -/

@[simp] theorem emit2_pending (s : State) (code p1 p2 : Nat) : (emit2 s code p1 p2).pending = s.pending := by simp only [emit2, emit_pending, takeFree_pending]
@[simp] theorem emit2_words (s : State) (code p1 p2 : Nat) : (emit2 s code p1 p2).words = s.words := by simp only [emit2, emit_words, takeFree_words]
@[simp] theorem emit2_ctl (s : State) (code p1 p2 : Nat) : (emit2 s code p1 p2).ctl = s.ctl := by simp only [emit2, emit_ctl, takeFree_ctl]
@[simp] theorem emit2_engs (s : State) (code p1 p2 : Nat) : (emit2 s code p1 p2).engs = s.engs := by simp only [emit2, emit_engs, takeFree_engs]
@[simp] theorem emit2_data (s : State) (code p1 p2 : Nat) : (emit2 s code p1 p2).data = s.data := by simp only [emit2, emit_data, takeFree_data]
@[simp] theorem emit2_imem (s : State) (code p1 p2 : Nat) : (emit2 s code p1 p2).imem = s.imem := by simp only [emit2, emit_imem, takeFree_imem]
@[simp] theorem emit2_shared (s : State) (code p1 p2 : Nat) : (emit2 s code p1 p2).shared = s.shared := by simp only [emit2, emit_shared, takeFree_shared]
@[simp] theorem emit2_load (s : State) (code p1 p2 : Nat) : (emit2 s code p1 p2).load = s.load := by simp only [emit2, emit_load, takeFree_load]
@[simp] theorem emit2_flt (s : State) (code p1 p2 : Nat) : (emit2 s code p1 p2).flt = s.flt := by simp only [emit2, emit_flt, takeFree_flt]
@[simp] theorem emit2_mpe (s : State) (code p1 p2 : Nat) : (emit2 s code p1 p2).mpe = s.mpe := by simp only [emit2, emit_mpe, takeFree_mpe]
@[simp] theorem emit2_time (s : State) (code p1 p2 : Nat) : (emit2 s code p1 p2).time = s.time := by simp only [emit2, emit_time, takeFree_time]
@[simp] theorem emit2_cndl (s : State) (code p1 p2 : Nat) : (emit2 s code p1 p2).cndl = s.cndl := by simp only [emit2, emit_cndl, takeFree_cndl]
@[simp] theorem emit2_cnt (s : State) (code p1 p2 : Nat) : (emit2 s code p1 p2).cnt = s.cnt := by simp only [emit2, emit_cnt, takeFree_cnt]
@[simp] theorem emit2_hst (s : State) (code p1 p2 : Nat) : (emit2 s code p1 p2).hst = s.hst := by simp only [emit2, emit_hst, takeFree_hst]
@[simp] theorem emit2_slots (s : State) (code p1 p2 : Nat) : (emit2 s code p1 p2).slots = s.slots := by simp only [emit2, emit_slots, takeFree_slots]
@[simp] theorem emit2_flow (s : State) (code p1 p2 : Nat) : (emit2 s code p1 p2).flow = s.flow := by simp only [emit2, emit_flow, takeFree_flow]
@[simp] theorem emit2_flights (s : State) (code p1 p2 : Nat) : (emit2 s code p1 p2).flights = s.flights := by simp only [emit2, emit_flights, takeFree_flights]
@[simp] theorem emit2_ovAt (s : State) (code p1 p2 : Nat) : (emit2 s code p1 p2).ovAt = s.ovAt := by simp only [emit2, emit_ovAt, takeFree_ovAt]
@[simp] theorem emit2_nextId (s : State) (code p1 p2 : Nat) : (emit2 s code p1 p2).nextId = s.nextId := by simp only [emit2, emit_nextId, takeFree_nextId]
@[simp] theorem emit2_qm (s : State) (code p1 p2 : Nat) : (emit2 s code p1 p2).qm = s.qm := by simp only [emit2, emit_qm, takeFree_qm]
@[simp] theorem emit2_sch (s : State) (code p1 p2 : Nat) : (emit2 s code p1 p2).sch = s.sch := by simp only [emit2, emit_sch, takeFree_sch]
@[simp] theorem emit2_lane (s : State) (code p1 p2 : Nat) : (emit2 s code p1 p2).lane = s.lane := by simp only [emit2, emit_lane, takeFree_lane]
@[simp] theorem emit2_mac (s : State) (code p1 p2 : Nat) : (emit2 s code p1 p2).mac = s.mac := by simp only [emit2, emit_mac, takeFree_mac]
@[simp] theorem emit2_msec (s : State) (code p1 p2 : Nat) : (emit2 s code p1 p2).msec = s.msec := by simp only [emit2, emit_msec, takeFree_msec]
@[simp] theorem emit2_cls (s : State) (code p1 p2 : Nat) : (emit2 s code p1 p2).cls = s.cls := by simp only [emit2, emit_cls, takeFree_cls]
@[simp] theorem emit2_plc (s : State) (code p1 p2 : Nat) : (emit2 s code p1 p2).plc = s.plc := by simp only [emit2, emit_plc, takeFree_plc]
@[simp] theorem emit2_pon (s : State) (code p1 p2 : Nat) : (emit2 s code p1 p2).pon = s.pon := by simp only [emit2, emit_pon, takeFree_pon]
@[simp] theorem emit2_trib (s : State) (code p1 p2 : Nat) : (emit2 s code p1 p2).trib = s.trib := by simp only [emit2, emit_trib, takeFree_trib]
@[simp] theorem emit2_mem (s : State) (code p1 p2 : Nat) : (emit2 s code p1 p2).mem = s.mem := by simp only [emit2, emit_mem, takeFree_mem]
@[simp] theorem emit2_key (s : State) (code p1 p2 : Nat) : (emit2 s code p1 p2).key = s.key := by simp only [emit2, emit_key, takeFree_key]
@[simp] theorem emit2_fuse (s : State) (code p1 p2 : Nat) : (emit2 s code p1 p2).fuse = s.fuse := by simp only [emit2, emit_fuse, takeFree_fuse]
@[simp] theorem emit2_chk (s : State) (code p1 p2 : Nat) : (emit2 s code p1 p2).chk = s.chk := by simp only [emit2, emit_chk, takeFree_chk]
@[simp] theorem emit2_pwr (s : State) (code p1 p2 : Nat) : (emit2 s code p1 p2).pwr = s.pwr := by simp only [emit2, emit_pwr, takeFree_pwr]
@[simp] theorem emit2_pair (s : State) (code p1 p2 : Nat) : (emit2 s code p1 p2).pair = s.pair := by simp only [emit2, emit_pair, takeFree_pair]
@[simp] theorem emit2_meas (s : State) (code p1 p2 : Nat) : (emit2 s code p1 p2).meas = s.meas := by simp only [emit2, emit_meas, takeFree_meas]
@[simp] theorem emit2_sbus (s : State) (code p1 p2 : Nat) : (emit2 s code p1 p2).sbus = s.sbus := by simp only [emit2, emit_sbus, takeFree_sbus]
@[simp] theorem emit2_tst (s : State) (code p1 p2 : Nat) : (emit2 s code p1 p2).tst = s.tst := by simp only [emit2, emit_tst, takeFree_tst]
@[simp] theorem emit2_sys_phase (s : State) (code p1 p2 : Nat) : (emit2 s code p1 p2).sys.phase = s.sys.phase := by simp only [emit2, emit_sys, takeFree_sys_phase]
@[simp] theorem emit2_sys_kind (s : State) (code p1 p2 : Nat) : (emit2 s code p1 p2).sys.kind = s.sys.kind := by simp only [emit2, emit_sys, takeFree_sys_kind]
@[simp] theorem emit2_sys_halted (s : State) (code p1 p2 : Nat) : (emit2 s code p1 p2).sys.halted = s.sys.halted := by simp only [emit2, emit_sys, takeFree_sys_halted]
@[simp] theorem emit2_sys_ticks (s : State) (code p1 p2 : Nat) : (emit2 s code p1 p2).sys.ticks = s.sys.ticks := by simp only [emit2, emit_sys, takeFree_sys_ticks]
@[simp] theorem emit2_sys_feedA (s : State) (code p1 p2 : Nat) : (emit2 s code p1 p2).sys.feedA = s.sys.feedA := by simp only [emit2, emit_sys, takeFree_sys_feedA]
@[simp] theorem emit2_sys_feedB (s : State) (code p1 p2 : Nat) : (emit2 s code p1 p2).sys.feedB = s.sys.feedB := by simp only [emit2, emit_sys, takeFree_sys_feedB]
@[simp] theorem emit2_sys_crystal (s : State) (code p1 p2 : Nat) : (emit2 s code p1 p2).sys.crystal = s.sys.crystal := by simp only [emit2, emit_sys, takeFree_sys_crystal]
@[simp] theorem emit2_sys_runState (s : State) (code p1 p2 : Nat) : (emit2 s code p1 p2).sys.runState = s.sys.runState := by simp only [emit2, emit_sys, takeFree_sys_runState]
@[simp] theorem emit2_sys_alm0 (s : State) (code p1 p2 : Nat) : (emit2 s code p1 p2).sys.alm0 = s.sys.alm0 := by simp only [emit2, emit_sys, takeFree_sys_alm0]
@[simp] theorem emit2_sys_alm1 (s : State) (code p1 p2 : Nat) : (emit2 s code p1 p2).sys.alm1 = s.sys.alm1 := by simp only [emit2, emit_sys, takeFree_sys_alm1]
@[simp] theorem emit2_sys_slots (s : State) (code p1 p2 : Nat) : (emit2 s code p1 p2).sys.slots = s.sys.slots := by simp only [emit2, emit_sys, takeFree_sys_slots]

/-! ### emit1 -/

@[simp] theorem emit1_pending (s : State) (code p1 : Nat) : (emit1 s code p1).pending = s.pending := by simp only [emit1, emit2_pending, takeFree_pending]
@[simp] theorem emit1_words (s : State) (code p1 : Nat) : (emit1 s code p1).words = s.words := by simp only [emit1, emit2_words, takeFree_words]
@[simp] theorem emit1_ctl (s : State) (code p1 : Nat) : (emit1 s code p1).ctl = s.ctl := by simp only [emit1, emit2_ctl, takeFree_ctl]
@[simp] theorem emit1_engs (s : State) (code p1 : Nat) : (emit1 s code p1).engs = s.engs := by simp only [emit1, emit2_engs, takeFree_engs]
@[simp] theorem emit1_data (s : State) (code p1 : Nat) : (emit1 s code p1).data = s.data := by simp only [emit1, emit2_data, takeFree_data]
@[simp] theorem emit1_imem (s : State) (code p1 : Nat) : (emit1 s code p1).imem = s.imem := by simp only [emit1, emit2_imem, takeFree_imem]
@[simp] theorem emit1_shared (s : State) (code p1 : Nat) : (emit1 s code p1).shared = s.shared := by simp only [emit1, emit2_shared, takeFree_shared]
@[simp] theorem emit1_load (s : State) (code p1 : Nat) : (emit1 s code p1).load = s.load := by simp only [emit1, emit2_load, takeFree_load]
@[simp] theorem emit1_flt (s : State) (code p1 : Nat) : (emit1 s code p1).flt = s.flt := by simp only [emit1, emit2_flt, takeFree_flt]
@[simp] theorem emit1_mpe (s : State) (code p1 : Nat) : (emit1 s code p1).mpe = s.mpe := by simp only [emit1, emit2_mpe, takeFree_mpe]
@[simp] theorem emit1_time (s : State) (code p1 : Nat) : (emit1 s code p1).time = s.time := by simp only [emit1, emit2_time, takeFree_time]
@[simp] theorem emit1_cndl (s : State) (code p1 : Nat) : (emit1 s code p1).cndl = s.cndl := by simp only [emit1, emit2_cndl, takeFree_cndl]
@[simp] theorem emit1_cnt (s : State) (code p1 : Nat) : (emit1 s code p1).cnt = s.cnt := by simp only [emit1, emit2_cnt, takeFree_cnt]
@[simp] theorem emit1_hst (s : State) (code p1 : Nat) : (emit1 s code p1).hst = s.hst := by simp only [emit1, emit2_hst, takeFree_hst]
@[simp] theorem emit1_slots (s : State) (code p1 : Nat) : (emit1 s code p1).slots = s.slots := by simp only [emit1, emit2_slots, takeFree_slots]
@[simp] theorem emit1_flow (s : State) (code p1 : Nat) : (emit1 s code p1).flow = s.flow := by simp only [emit1, emit2_flow, takeFree_flow]
@[simp] theorem emit1_flights (s : State) (code p1 : Nat) : (emit1 s code p1).flights = s.flights := by simp only [emit1, emit2_flights, takeFree_flights]
@[simp] theorem emit1_ovAt (s : State) (code p1 : Nat) : (emit1 s code p1).ovAt = s.ovAt := by simp only [emit1, emit2_ovAt, takeFree_ovAt]
@[simp] theorem emit1_nextId (s : State) (code p1 : Nat) : (emit1 s code p1).nextId = s.nextId := by simp only [emit1, emit2_nextId, takeFree_nextId]
@[simp] theorem emit1_qm (s : State) (code p1 : Nat) : (emit1 s code p1).qm = s.qm := by simp only [emit1, emit2_qm, takeFree_qm]
@[simp] theorem emit1_sch (s : State) (code p1 : Nat) : (emit1 s code p1).sch = s.sch := by simp only [emit1, emit2_sch, takeFree_sch]
@[simp] theorem emit1_lane (s : State) (code p1 : Nat) : (emit1 s code p1).lane = s.lane := by simp only [emit1, emit2_lane, takeFree_lane]
@[simp] theorem emit1_mac (s : State) (code p1 : Nat) : (emit1 s code p1).mac = s.mac := by simp only [emit1, emit2_mac, takeFree_mac]
@[simp] theorem emit1_msec (s : State) (code p1 : Nat) : (emit1 s code p1).msec = s.msec := by simp only [emit1, emit2_msec, takeFree_msec]
@[simp] theorem emit1_cls (s : State) (code p1 : Nat) : (emit1 s code p1).cls = s.cls := by simp only [emit1, emit2_cls, takeFree_cls]
@[simp] theorem emit1_plc (s : State) (code p1 : Nat) : (emit1 s code p1).plc = s.plc := by simp only [emit1, emit2_plc, takeFree_plc]
@[simp] theorem emit1_pon (s : State) (code p1 : Nat) : (emit1 s code p1).pon = s.pon := by simp only [emit1, emit2_pon, takeFree_pon]
@[simp] theorem emit1_trib (s : State) (code p1 : Nat) : (emit1 s code p1).trib = s.trib := by simp only [emit1, emit2_trib, takeFree_trib]
@[simp] theorem emit1_mem (s : State) (code p1 : Nat) : (emit1 s code p1).mem = s.mem := by simp only [emit1, emit2_mem, takeFree_mem]
@[simp] theorem emit1_key (s : State) (code p1 : Nat) : (emit1 s code p1).key = s.key := by simp only [emit1, emit2_key, takeFree_key]
@[simp] theorem emit1_fuse (s : State) (code p1 : Nat) : (emit1 s code p1).fuse = s.fuse := by simp only [emit1, emit2_fuse, takeFree_fuse]
@[simp] theorem emit1_chk (s : State) (code p1 : Nat) : (emit1 s code p1).chk = s.chk := by simp only [emit1, emit2_chk, takeFree_chk]
@[simp] theorem emit1_pwr (s : State) (code p1 : Nat) : (emit1 s code p1).pwr = s.pwr := by simp only [emit1, emit2_pwr, takeFree_pwr]
@[simp] theorem emit1_pair (s : State) (code p1 : Nat) : (emit1 s code p1).pair = s.pair := by simp only [emit1, emit2_pair, takeFree_pair]
@[simp] theorem emit1_meas (s : State) (code p1 : Nat) : (emit1 s code p1).meas = s.meas := by simp only [emit1, emit2_meas, takeFree_meas]
@[simp] theorem emit1_sbus (s : State) (code p1 : Nat) : (emit1 s code p1).sbus = s.sbus := by simp only [emit1, emit2_sbus, takeFree_sbus]
@[simp] theorem emit1_tst (s : State) (code p1 : Nat) : (emit1 s code p1).tst = s.tst := by simp only [emit1, emit2_tst, takeFree_tst]
@[simp] theorem emit1_sys_phase (s : State) (code p1 : Nat) : (emit1 s code p1).sys.phase = s.sys.phase := by simp only [emit1, emit2_sys_phase, takeFree_sys_phase]
@[simp] theorem emit1_sys_kind (s : State) (code p1 : Nat) : (emit1 s code p1).sys.kind = s.sys.kind := by simp only [emit1, emit2_sys_kind, takeFree_sys_kind]
@[simp] theorem emit1_sys_halted (s : State) (code p1 : Nat) : (emit1 s code p1).sys.halted = s.sys.halted := by simp only [emit1, emit2_sys_halted, takeFree_sys_halted]
@[simp] theorem emit1_sys_ticks (s : State) (code p1 : Nat) : (emit1 s code p1).sys.ticks = s.sys.ticks := by simp only [emit1, emit2_sys_ticks, takeFree_sys_ticks]
@[simp] theorem emit1_sys_feedA (s : State) (code p1 : Nat) : (emit1 s code p1).sys.feedA = s.sys.feedA := by simp only [emit1, emit2_sys_feedA, takeFree_sys_feedA]
@[simp] theorem emit1_sys_feedB (s : State) (code p1 : Nat) : (emit1 s code p1).sys.feedB = s.sys.feedB := by simp only [emit1, emit2_sys_feedB, takeFree_sys_feedB]
@[simp] theorem emit1_sys_crystal (s : State) (code p1 : Nat) : (emit1 s code p1).sys.crystal = s.sys.crystal := by simp only [emit1, emit2_sys_crystal, takeFree_sys_crystal]
@[simp] theorem emit1_sys_runState (s : State) (code p1 : Nat) : (emit1 s code p1).sys.runState = s.sys.runState := by simp only [emit1, emit2_sys_runState, takeFree_sys_runState]
@[simp] theorem emit1_sys_alm0 (s : State) (code p1 : Nat) : (emit1 s code p1).sys.alm0 = s.sys.alm0 := by simp only [emit1, emit2_sys_alm0, takeFree_sys_alm0]
@[simp] theorem emit1_sys_alm1 (s : State) (code p1 : Nat) : (emit1 s code p1).sys.alm1 = s.sys.alm1 := by simp only [emit1, emit2_sys_alm1, takeFree_sys_alm1]
@[simp] theorem emit1_sys_slots (s : State) (code p1 : Nat) : (emit1 s code p1).sys.slots = s.sys.slots := by simp only [emit1, emit2_sys_slots, takeFree_sys_slots]

/-! ### emit0 -/

@[simp] theorem emit0_pending (s : State) (code : Nat) : (emit0 s code).pending = s.pending := by simp only [emit0, emit1_pending, takeFree_pending]
@[simp] theorem emit0_words (s : State) (code : Nat) : (emit0 s code).words = s.words := by simp only [emit0, emit1_words, takeFree_words]
@[simp] theorem emit0_ctl (s : State) (code : Nat) : (emit0 s code).ctl = s.ctl := by simp only [emit0, emit1_ctl, takeFree_ctl]
@[simp] theorem emit0_engs (s : State) (code : Nat) : (emit0 s code).engs = s.engs := by simp only [emit0, emit1_engs, takeFree_engs]
@[simp] theorem emit0_data (s : State) (code : Nat) : (emit0 s code).data = s.data := by simp only [emit0, emit1_data, takeFree_data]
@[simp] theorem emit0_imem (s : State) (code : Nat) : (emit0 s code).imem = s.imem := by simp only [emit0, emit1_imem, takeFree_imem]
@[simp] theorem emit0_shared (s : State) (code : Nat) : (emit0 s code).shared = s.shared := by simp only [emit0, emit1_shared, takeFree_shared]
@[simp] theorem emit0_load (s : State) (code : Nat) : (emit0 s code).load = s.load := by simp only [emit0, emit1_load, takeFree_load]
@[simp] theorem emit0_flt (s : State) (code : Nat) : (emit0 s code).flt = s.flt := by simp only [emit0, emit1_flt, takeFree_flt]
@[simp] theorem emit0_mpe (s : State) (code : Nat) : (emit0 s code).mpe = s.mpe := by simp only [emit0, emit1_mpe, takeFree_mpe]
@[simp] theorem emit0_time (s : State) (code : Nat) : (emit0 s code).time = s.time := by simp only [emit0, emit1_time, takeFree_time]
@[simp] theorem emit0_cndl (s : State) (code : Nat) : (emit0 s code).cndl = s.cndl := by simp only [emit0, emit1_cndl, takeFree_cndl]
@[simp] theorem emit0_cnt (s : State) (code : Nat) : (emit0 s code).cnt = s.cnt := by simp only [emit0, emit1_cnt, takeFree_cnt]
@[simp] theorem emit0_hst (s : State) (code : Nat) : (emit0 s code).hst = s.hst := by simp only [emit0, emit1_hst, takeFree_hst]
@[simp] theorem emit0_slots (s : State) (code : Nat) : (emit0 s code).slots = s.slots := by simp only [emit0, emit1_slots, takeFree_slots]
@[simp] theorem emit0_flow (s : State) (code : Nat) : (emit0 s code).flow = s.flow := by simp only [emit0, emit1_flow, takeFree_flow]
@[simp] theorem emit0_flights (s : State) (code : Nat) : (emit0 s code).flights = s.flights := by simp only [emit0, emit1_flights, takeFree_flights]
@[simp] theorem emit0_ovAt (s : State) (code : Nat) : (emit0 s code).ovAt = s.ovAt := by simp only [emit0, emit1_ovAt, takeFree_ovAt]
@[simp] theorem emit0_nextId (s : State) (code : Nat) : (emit0 s code).nextId = s.nextId := by simp only [emit0, emit1_nextId, takeFree_nextId]
@[simp] theorem emit0_qm (s : State) (code : Nat) : (emit0 s code).qm = s.qm := by simp only [emit0, emit1_qm, takeFree_qm]
@[simp] theorem emit0_sch (s : State) (code : Nat) : (emit0 s code).sch = s.sch := by simp only [emit0, emit1_sch, takeFree_sch]
@[simp] theorem emit0_lane (s : State) (code : Nat) : (emit0 s code).lane = s.lane := by simp only [emit0, emit1_lane, takeFree_lane]
@[simp] theorem emit0_mac (s : State) (code : Nat) : (emit0 s code).mac = s.mac := by simp only [emit0, emit1_mac, takeFree_mac]
@[simp] theorem emit0_msec (s : State) (code : Nat) : (emit0 s code).msec = s.msec := by simp only [emit0, emit1_msec, takeFree_msec]
@[simp] theorem emit0_cls (s : State) (code : Nat) : (emit0 s code).cls = s.cls := by simp only [emit0, emit1_cls, takeFree_cls]
@[simp] theorem emit0_plc (s : State) (code : Nat) : (emit0 s code).plc = s.plc := by simp only [emit0, emit1_plc, takeFree_plc]
@[simp] theorem emit0_pon (s : State) (code : Nat) : (emit0 s code).pon = s.pon := by simp only [emit0, emit1_pon, takeFree_pon]
@[simp] theorem emit0_trib (s : State) (code : Nat) : (emit0 s code).trib = s.trib := by simp only [emit0, emit1_trib, takeFree_trib]
@[simp] theorem emit0_mem (s : State) (code : Nat) : (emit0 s code).mem = s.mem := by simp only [emit0, emit1_mem, takeFree_mem]
@[simp] theorem emit0_key (s : State) (code : Nat) : (emit0 s code).key = s.key := by simp only [emit0, emit1_key, takeFree_key]
@[simp] theorem emit0_fuse (s : State) (code : Nat) : (emit0 s code).fuse = s.fuse := by simp only [emit0, emit1_fuse, takeFree_fuse]
@[simp] theorem emit0_chk (s : State) (code : Nat) : (emit0 s code).chk = s.chk := by simp only [emit0, emit1_chk, takeFree_chk]
@[simp] theorem emit0_pwr (s : State) (code : Nat) : (emit0 s code).pwr = s.pwr := by simp only [emit0, emit1_pwr, takeFree_pwr]
@[simp] theorem emit0_pair (s : State) (code : Nat) : (emit0 s code).pair = s.pair := by simp only [emit0, emit1_pair, takeFree_pair]
@[simp] theorem emit0_meas (s : State) (code : Nat) : (emit0 s code).meas = s.meas := by simp only [emit0, emit1_meas, takeFree_meas]
@[simp] theorem emit0_sbus (s : State) (code : Nat) : (emit0 s code).sbus = s.sbus := by simp only [emit0, emit1_sbus, takeFree_sbus]
@[simp] theorem emit0_tst (s : State) (code : Nat) : (emit0 s code).tst = s.tst := by simp only [emit0, emit1_tst, takeFree_tst]
@[simp] theorem emit0_sys_phase (s : State) (code : Nat) : (emit0 s code).sys.phase = s.sys.phase := by simp only [emit0, emit1_sys_phase, takeFree_sys_phase]
@[simp] theorem emit0_sys_kind (s : State) (code : Nat) : (emit0 s code).sys.kind = s.sys.kind := by simp only [emit0, emit1_sys_kind, takeFree_sys_kind]
@[simp] theorem emit0_sys_halted (s : State) (code : Nat) : (emit0 s code).sys.halted = s.sys.halted := by simp only [emit0, emit1_sys_halted, takeFree_sys_halted]
@[simp] theorem emit0_sys_ticks (s : State) (code : Nat) : (emit0 s code).sys.ticks = s.sys.ticks := by simp only [emit0, emit1_sys_ticks, takeFree_sys_ticks]
@[simp] theorem emit0_sys_feedA (s : State) (code : Nat) : (emit0 s code).sys.feedA = s.sys.feedA := by simp only [emit0, emit1_sys_feedA, takeFree_sys_feedA]
@[simp] theorem emit0_sys_feedB (s : State) (code : Nat) : (emit0 s code).sys.feedB = s.sys.feedB := by simp only [emit0, emit1_sys_feedB, takeFree_sys_feedB]
@[simp] theorem emit0_sys_crystal (s : State) (code : Nat) : (emit0 s code).sys.crystal = s.sys.crystal := by simp only [emit0, emit1_sys_crystal, takeFree_sys_crystal]
@[simp] theorem emit0_sys_runState (s : State) (code : Nat) : (emit0 s code).sys.runState = s.sys.runState := by simp only [emit0, emit1_sys_runState, takeFree_sys_runState]
@[simp] theorem emit0_sys_alm0 (s : State) (code : Nat) : (emit0 s code).sys.alm0 = s.sys.alm0 := by simp only [emit0, emit1_sys_alm0, takeFree_sys_alm0]
@[simp] theorem emit0_sys_alm1 (s : State) (code : Nat) : (emit0 s code).sys.alm1 = s.sys.alm1 := by simp only [emit0, emit1_sys_alm1, takeFree_sys_alm1]
@[simp] theorem emit0_sys_slots (s : State) (code : Nat) : (emit0 s code).sys.slots = s.sys.slots := by simp only [emit0, emit1_sys_slots, takeFree_sys_slots]

/-! ### count -/

@[simp] theorem count_pending (s : State) (unit kind obj n : Nat) : (count s unit kind obj n).pending = s.pending := by unfold count; split <;> rfl
@[simp] theorem count_sys (s : State) (unit kind obj n : Nat) : (count s unit kind obj n).sys = s.sys := by unfold count; split <;> rfl
@[simp] theorem count_words (s : State) (unit kind obj n : Nat) : (count s unit kind obj n).words = s.words := by unfold count; split <;> rfl
@[simp] theorem count_ctl (s : State) (unit kind obj n : Nat) : (count s unit kind obj n).ctl = s.ctl := by unfold count; split <;> rfl
@[simp] theorem count_engs (s : State) (unit kind obj n : Nat) : (count s unit kind obj n).engs = s.engs := by unfold count; split <;> rfl
@[simp] theorem count_data (s : State) (unit kind obj n : Nat) : (count s unit kind obj n).data = s.data := by unfold count; split <;> rfl
@[simp] theorem count_imem (s : State) (unit kind obj n : Nat) : (count s unit kind obj n).imem = s.imem := by unfold count; split <;> rfl
@[simp] theorem count_shared (s : State) (unit kind obj n : Nat) : (count s unit kind obj n).shared = s.shared := by unfold count; split <;> rfl
@[simp] theorem count_load (s : State) (unit kind obj n : Nat) : (count s unit kind obj n).load = s.load := by unfold count; split <;> rfl
@[simp] theorem count_log (s : State) (unit kind obj n : Nat) : (count s unit kind obj n).log = s.log := by unfold count; split <;> rfl
@[simp] theorem count_flt (s : State) (unit kind obj n : Nat) : (count s unit kind obj n).flt = s.flt := by unfold count; split <;> rfl
@[simp] theorem count_mpe (s : State) (unit kind obj n : Nat) : (count s unit kind obj n).mpe = s.mpe := by unfold count; split <;> rfl
@[simp] theorem count_time (s : State) (unit kind obj n : Nat) : (count s unit kind obj n).time = s.time := by unfold count; split <;> rfl
@[simp] theorem count_cndl (s : State) (unit kind obj n : Nat) : (count s unit kind obj n).cndl = s.cndl := by unfold count; split <;> rfl
@[simp] theorem count_hst (s : State) (unit kind obj n : Nat) : (count s unit kind obj n).hst = s.hst := by unfold count; split <;> rfl
@[simp] theorem count_slots (s : State) (unit kind obj n : Nat) : (count s unit kind obj n).slots = s.slots := by unfold count; split <;> rfl
@[simp] theorem count_flow (s : State) (unit kind obj n : Nat) : (count s unit kind obj n).flow = s.flow := by unfold count; split <;> rfl
@[simp] theorem count_flights (s : State) (unit kind obj n : Nat) : (count s unit kind obj n).flights = s.flights := by unfold count; split <;> rfl
@[simp] theorem count_ovAt (s : State) (unit kind obj n : Nat) : (count s unit kind obj n).ovAt = s.ovAt := by unfold count; split <;> rfl
@[simp] theorem count_nextId (s : State) (unit kind obj n : Nat) : (count s unit kind obj n).nextId = s.nextId := by unfold count; split <;> rfl
@[simp] theorem count_qm (s : State) (unit kind obj n : Nat) : (count s unit kind obj n).qm = s.qm := by unfold count; split <;> rfl
@[simp] theorem count_sch (s : State) (unit kind obj n : Nat) : (count s unit kind obj n).sch = s.sch := by unfold count; split <;> rfl
@[simp] theorem count_lane (s : State) (unit kind obj n : Nat) : (count s unit kind obj n).lane = s.lane := by unfold count; split <;> rfl
@[simp] theorem count_mac (s : State) (unit kind obj n : Nat) : (count s unit kind obj n).mac = s.mac := by unfold count; split <;> rfl
@[simp] theorem count_msec (s : State) (unit kind obj n : Nat) : (count s unit kind obj n).msec = s.msec := by unfold count; split <;> rfl
@[simp] theorem count_cls (s : State) (unit kind obj n : Nat) : (count s unit kind obj n).cls = s.cls := by unfold count; split <;> rfl
@[simp] theorem count_plc (s : State) (unit kind obj n : Nat) : (count s unit kind obj n).plc = s.plc := by unfold count; split <;> rfl
@[simp] theorem count_pon (s : State) (unit kind obj n : Nat) : (count s unit kind obj n).pon = s.pon := by unfold count; split <;> rfl
@[simp] theorem count_trib (s : State) (unit kind obj n : Nat) : (count s unit kind obj n).trib = s.trib := by unfold count; split <;> rfl
@[simp] theorem count_mem (s : State) (unit kind obj n : Nat) : (count s unit kind obj n).mem = s.mem := by unfold count; split <;> rfl
@[simp] theorem count_key (s : State) (unit kind obj n : Nat) : (count s unit kind obj n).key = s.key := by unfold count; split <;> rfl
@[simp] theorem count_fuse (s : State) (unit kind obj n : Nat) : (count s unit kind obj n).fuse = s.fuse := by unfold count; split <;> rfl
@[simp] theorem count_chk (s : State) (unit kind obj n : Nat) : (count s unit kind obj n).chk = s.chk := by unfold count; split <;> rfl
@[simp] theorem count_pwr (s : State) (unit kind obj n : Nat) : (count s unit kind obj n).pwr = s.pwr := by unfold count; split <;> rfl
@[simp] theorem count_pair (s : State) (unit kind obj n : Nat) : (count s unit kind obj n).pair = s.pair := by unfold count; split <;> rfl
@[simp] theorem count_meas (s : State) (unit kind obj n : Nat) : (count s unit kind obj n).meas = s.meas := by unfold count; split <;> rfl
@[simp] theorem count_sbus (s : State) (unit kind obj n : Nat) : (count s unit kind obj n).sbus = s.sbus := by unfold count; split <;> rfl
@[simp] theorem count_tst (s : State) (unit kind obj n : Nat) : (count s unit kind obj n).tst = s.tst := by unfold count; split <;> rfl

/-! ### raiseFaultAt -/

@[simp] theorem raiseFaultAt_pending (s : State) (code d p1 p2 : Nat) : (raiseFaultAt s code d p1 p2).pending = s.pending := rfl
@[simp] theorem raiseFaultAt_sys (s : State) (code d p1 p2 : Nat) : (raiseFaultAt s code d p1 p2).sys = s.sys := rfl
@[simp] theorem raiseFaultAt_words (s : State) (code d p1 p2 : Nat) : (raiseFaultAt s code d p1 p2).words = s.words := rfl
@[simp] theorem raiseFaultAt_ctl (s : State) (code d p1 p2 : Nat) : (raiseFaultAt s code d p1 p2).ctl = s.ctl := rfl
@[simp] theorem raiseFaultAt_engs (s : State) (code d p1 p2 : Nat) : (raiseFaultAt s code d p1 p2).engs = s.engs := rfl
@[simp] theorem raiseFaultAt_data (s : State) (code d p1 p2 : Nat) : (raiseFaultAt s code d p1 p2).data = s.data := rfl
@[simp] theorem raiseFaultAt_imem (s : State) (code d p1 p2 : Nat) : (raiseFaultAt s code d p1 p2).imem = s.imem := rfl
@[simp] theorem raiseFaultAt_shared (s : State) (code d p1 p2 : Nat) : (raiseFaultAt s code d p1 p2).shared = s.shared := rfl
@[simp] theorem raiseFaultAt_load (s : State) (code d p1 p2 : Nat) : (raiseFaultAt s code d p1 p2).load = s.load := rfl
@[simp] theorem raiseFaultAt_log (s : State) (code d p1 p2 : Nat) : (raiseFaultAt s code d p1 p2).log = s.log := rfl
@[simp] theorem raiseFaultAt_mpe (s : State) (code d p1 p2 : Nat) : (raiseFaultAt s code d p1 p2).mpe = s.mpe := rfl
@[simp] theorem raiseFaultAt_time (s : State) (code d p1 p2 : Nat) : (raiseFaultAt s code d p1 p2).time = s.time := rfl
@[simp] theorem raiseFaultAt_cndl (s : State) (code d p1 p2 : Nat) : (raiseFaultAt s code d p1 p2).cndl = s.cndl := rfl
@[simp] theorem raiseFaultAt_cnt (s : State) (code d p1 p2 : Nat) : (raiseFaultAt s code d p1 p2).cnt = s.cnt := rfl
@[simp] theorem raiseFaultAt_hst (s : State) (code d p1 p2 : Nat) : (raiseFaultAt s code d p1 p2).hst = s.hst := rfl
@[simp] theorem raiseFaultAt_slots (s : State) (code d p1 p2 : Nat) : (raiseFaultAt s code d p1 p2).slots = s.slots := rfl
@[simp] theorem raiseFaultAt_flow (s : State) (code d p1 p2 : Nat) : (raiseFaultAt s code d p1 p2).flow = s.flow := rfl
@[simp] theorem raiseFaultAt_flights (s : State) (code d p1 p2 : Nat) : (raiseFaultAt s code d p1 p2).flights = s.flights := rfl
@[simp] theorem raiseFaultAt_ovAt (s : State) (code d p1 p2 : Nat) : (raiseFaultAt s code d p1 p2).ovAt = s.ovAt := rfl
@[simp] theorem raiseFaultAt_nextId (s : State) (code d p1 p2 : Nat) : (raiseFaultAt s code d p1 p2).nextId = s.nextId := rfl
@[simp] theorem raiseFaultAt_qm (s : State) (code d p1 p2 : Nat) : (raiseFaultAt s code d p1 p2).qm = s.qm := rfl
@[simp] theorem raiseFaultAt_sch (s : State) (code d p1 p2 : Nat) : (raiseFaultAt s code d p1 p2).sch = s.sch := rfl
@[simp] theorem raiseFaultAt_lane (s : State) (code d p1 p2 : Nat) : (raiseFaultAt s code d p1 p2).lane = s.lane := rfl
@[simp] theorem raiseFaultAt_mac (s : State) (code d p1 p2 : Nat) : (raiseFaultAt s code d p1 p2).mac = s.mac := rfl
@[simp] theorem raiseFaultAt_msec (s : State) (code d p1 p2 : Nat) : (raiseFaultAt s code d p1 p2).msec = s.msec := rfl
@[simp] theorem raiseFaultAt_cls (s : State) (code d p1 p2 : Nat) : (raiseFaultAt s code d p1 p2).cls = s.cls := rfl
@[simp] theorem raiseFaultAt_plc (s : State) (code d p1 p2 : Nat) : (raiseFaultAt s code d p1 p2).plc = s.plc := rfl
@[simp] theorem raiseFaultAt_pon (s : State) (code d p1 p2 : Nat) : (raiseFaultAt s code d p1 p2).pon = s.pon := rfl
@[simp] theorem raiseFaultAt_trib (s : State) (code d p1 p2 : Nat) : (raiseFaultAt s code d p1 p2).trib = s.trib := rfl
@[simp] theorem raiseFaultAt_mem (s : State) (code d p1 p2 : Nat) : (raiseFaultAt s code d p1 p2).mem = s.mem := rfl
@[simp] theorem raiseFaultAt_key (s : State) (code d p1 p2 : Nat) : (raiseFaultAt s code d p1 p2).key = s.key := rfl
@[simp] theorem raiseFaultAt_fuse (s : State) (code d p1 p2 : Nat) : (raiseFaultAt s code d p1 p2).fuse = s.fuse := rfl
@[simp] theorem raiseFaultAt_chk (s : State) (code d p1 p2 : Nat) : (raiseFaultAt s code d p1 p2).chk = s.chk := rfl
@[simp] theorem raiseFaultAt_pwr (s : State) (code d p1 p2 : Nat) : (raiseFaultAt s code d p1 p2).pwr = s.pwr := rfl
@[simp] theorem raiseFaultAt_pair (s : State) (code d p1 p2 : Nat) : (raiseFaultAt s code d p1 p2).pair = s.pair := rfl
@[simp] theorem raiseFaultAt_meas (s : State) (code d p1 p2 : Nat) : (raiseFaultAt s code d p1 p2).meas = s.meas := rfl
@[simp] theorem raiseFaultAt_sbus (s : State) (code d p1 p2 : Nat) : (raiseFaultAt s code d p1 p2).sbus = s.sbus := rfl
@[simp] theorem raiseFaultAt_tst (s : State) (code d p1 p2 : Nat) : (raiseFaultAt s code d p1 p2).tst = s.tst := rfl

/-! ### raiseFault -/

@[simp] theorem raiseFault_pending (s : State) (code d : Nat) : (raiseFault s code d).pending = s.pending := rfl
@[simp] theorem raiseFault_sys (s : State) (code d : Nat) : (raiseFault s code d).sys = s.sys := rfl
@[simp] theorem raiseFault_words (s : State) (code d : Nat) : (raiseFault s code d).words = s.words := rfl
@[simp] theorem raiseFault_ctl (s : State) (code d : Nat) : (raiseFault s code d).ctl = s.ctl := rfl
@[simp] theorem raiseFault_engs (s : State) (code d : Nat) : (raiseFault s code d).engs = s.engs := rfl
@[simp] theorem raiseFault_data (s : State) (code d : Nat) : (raiseFault s code d).data = s.data := rfl
@[simp] theorem raiseFault_imem (s : State) (code d : Nat) : (raiseFault s code d).imem = s.imem := rfl
@[simp] theorem raiseFault_shared (s : State) (code d : Nat) : (raiseFault s code d).shared = s.shared := rfl
@[simp] theorem raiseFault_load (s : State) (code d : Nat) : (raiseFault s code d).load = s.load := rfl
@[simp] theorem raiseFault_log (s : State) (code d : Nat) : (raiseFault s code d).log = s.log := rfl
@[simp] theorem raiseFault_mpe (s : State) (code d : Nat) : (raiseFault s code d).mpe = s.mpe := rfl
@[simp] theorem raiseFault_time (s : State) (code d : Nat) : (raiseFault s code d).time = s.time := rfl
@[simp] theorem raiseFault_cndl (s : State) (code d : Nat) : (raiseFault s code d).cndl = s.cndl := rfl
@[simp] theorem raiseFault_cnt (s : State) (code d : Nat) : (raiseFault s code d).cnt = s.cnt := rfl
@[simp] theorem raiseFault_hst (s : State) (code d : Nat) : (raiseFault s code d).hst = s.hst := rfl
@[simp] theorem raiseFault_slots (s : State) (code d : Nat) : (raiseFault s code d).slots = s.slots := rfl
@[simp] theorem raiseFault_flow (s : State) (code d : Nat) : (raiseFault s code d).flow = s.flow := rfl
@[simp] theorem raiseFault_flights (s : State) (code d : Nat) : (raiseFault s code d).flights = s.flights := rfl
@[simp] theorem raiseFault_ovAt (s : State) (code d : Nat) : (raiseFault s code d).ovAt = s.ovAt := rfl
@[simp] theorem raiseFault_nextId (s : State) (code d : Nat) : (raiseFault s code d).nextId = s.nextId := rfl
@[simp] theorem raiseFault_qm (s : State) (code d : Nat) : (raiseFault s code d).qm = s.qm := rfl
@[simp] theorem raiseFault_sch (s : State) (code d : Nat) : (raiseFault s code d).sch = s.sch := rfl
@[simp] theorem raiseFault_lane (s : State) (code d : Nat) : (raiseFault s code d).lane = s.lane := rfl
@[simp] theorem raiseFault_mac (s : State) (code d : Nat) : (raiseFault s code d).mac = s.mac := rfl
@[simp] theorem raiseFault_msec (s : State) (code d : Nat) : (raiseFault s code d).msec = s.msec := rfl
@[simp] theorem raiseFault_cls (s : State) (code d : Nat) : (raiseFault s code d).cls = s.cls := rfl
@[simp] theorem raiseFault_plc (s : State) (code d : Nat) : (raiseFault s code d).plc = s.plc := rfl
@[simp] theorem raiseFault_pon (s : State) (code d : Nat) : (raiseFault s code d).pon = s.pon := rfl
@[simp] theorem raiseFault_trib (s : State) (code d : Nat) : (raiseFault s code d).trib = s.trib := rfl
@[simp] theorem raiseFault_mem (s : State) (code d : Nat) : (raiseFault s code d).mem = s.mem := rfl
@[simp] theorem raiseFault_key (s : State) (code d : Nat) : (raiseFault s code d).key = s.key := rfl
@[simp] theorem raiseFault_fuse (s : State) (code d : Nat) : (raiseFault s code d).fuse = s.fuse := rfl
@[simp] theorem raiseFault_chk (s : State) (code d : Nat) : (raiseFault s code d).chk = s.chk := rfl
@[simp] theorem raiseFault_pwr (s : State) (code d : Nat) : (raiseFault s code d).pwr = s.pwr := rfl
@[simp] theorem raiseFault_pair (s : State) (code d : Nat) : (raiseFault s code d).pair = s.pair := rfl
@[simp] theorem raiseFault_meas (s : State) (code d : Nat) : (raiseFault s code d).meas = s.meas := rfl
@[simp] theorem raiseFault_sbus (s : State) (code d : Nat) : (raiseFault s code d).sbus = s.sbus := rfl
@[simp] theorem raiseFault_tst (s : State) (code d : Nat) : (raiseFault s code d).tst = s.tst := rfl

/-! ### setDom -/

@[simp] theorem setDom_pending (s : State) (d : Nat) (x : Dom) : (setDom s d x).pending = s.pending := rfl
@[simp] theorem setDom_sys (s : State) (d : Nat) (x : Dom) : (setDom s d x).sys = s.sys := rfl
@[simp] theorem setDom_words (s : State) (d : Nat) (x : Dom) : (setDom s d x).words = s.words := rfl
@[simp] theorem setDom_ctl (s : State) (d : Nat) (x : Dom) : (setDom s d x).ctl = s.ctl := rfl
@[simp] theorem setDom_engs (s : State) (d : Nat) (x : Dom) : (setDom s d x).engs = s.engs := rfl
@[simp] theorem setDom_data (s : State) (d : Nat) (x : Dom) : (setDom s d x).data = s.data := rfl
@[simp] theorem setDom_imem (s : State) (d : Nat) (x : Dom) : (setDom s d x).imem = s.imem := rfl
@[simp] theorem setDom_shared (s : State) (d : Nat) (x : Dom) : (setDom s d x).shared = s.shared := rfl
@[simp] theorem setDom_load (s : State) (d : Nat) (x : Dom) : (setDom s d x).load = s.load := rfl
@[simp] theorem setDom_log (s : State) (d : Nat) (x : Dom) : (setDom s d x).log = s.log := rfl
@[simp] theorem setDom_mpe (s : State) (d : Nat) (x : Dom) : (setDom s d x).mpe = s.mpe := rfl
@[simp] theorem setDom_time (s : State) (d : Nat) (x : Dom) : (setDom s d x).time = s.time := rfl
@[simp] theorem setDom_cndl (s : State) (d : Nat) (x : Dom) : (setDom s d x).cndl = s.cndl := rfl
@[simp] theorem setDom_cnt (s : State) (d : Nat) (x : Dom) : (setDom s d x).cnt = s.cnt := rfl
@[simp] theorem setDom_hst (s : State) (d : Nat) (x : Dom) : (setDom s d x).hst = s.hst := rfl
@[simp] theorem setDom_slots (s : State) (d : Nat) (x : Dom) : (setDom s d x).slots = s.slots := rfl
@[simp] theorem setDom_flow (s : State) (d : Nat) (x : Dom) : (setDom s d x).flow = s.flow := rfl
@[simp] theorem setDom_flights (s : State) (d : Nat) (x : Dom) : (setDom s d x).flights = s.flights := rfl
@[simp] theorem setDom_ovAt (s : State) (d : Nat) (x : Dom) : (setDom s d x).ovAt = s.ovAt := rfl
@[simp] theorem setDom_nextId (s : State) (d : Nat) (x : Dom) : (setDom s d x).nextId = s.nextId := rfl
@[simp] theorem setDom_qm (s : State) (d : Nat) (x : Dom) : (setDom s d x).qm = s.qm := rfl
@[simp] theorem setDom_sch (s : State) (d : Nat) (x : Dom) : (setDom s d x).sch = s.sch := rfl
@[simp] theorem setDom_lane (s : State) (d : Nat) (x : Dom) : (setDom s d x).lane = s.lane := rfl
@[simp] theorem setDom_mac (s : State) (d : Nat) (x : Dom) : (setDom s d x).mac = s.mac := rfl
@[simp] theorem setDom_msec (s : State) (d : Nat) (x : Dom) : (setDom s d x).msec = s.msec := rfl
@[simp] theorem setDom_cls (s : State) (d : Nat) (x : Dom) : (setDom s d x).cls = s.cls := rfl
@[simp] theorem setDom_plc (s : State) (d : Nat) (x : Dom) : (setDom s d x).plc = s.plc := rfl
@[simp] theorem setDom_pon (s : State) (d : Nat) (x : Dom) : (setDom s d x).pon = s.pon := rfl
@[simp] theorem setDom_trib (s : State) (d : Nat) (x : Dom) : (setDom s d x).trib = s.trib := rfl
@[simp] theorem setDom_mem (s : State) (d : Nat) (x : Dom) : (setDom s d x).mem = s.mem := rfl
@[simp] theorem setDom_key (s : State) (d : Nat) (x : Dom) : (setDom s d x).key = s.key := rfl
@[simp] theorem setDom_fuse (s : State) (d : Nat) (x : Dom) : (setDom s d x).fuse = s.fuse := rfl
@[simp] theorem setDom_chk (s : State) (d : Nat) (x : Dom) : (setDom s d x).chk = s.chk := rfl
@[simp] theorem setDom_pwr (s : State) (d : Nat) (x : Dom) : (setDom s d x).pwr = s.pwr := rfl
@[simp] theorem setDom_pair (s : State) (d : Nat) (x : Dom) : (setDom s d x).pair = s.pair := rfl
@[simp] theorem setDom_meas (s : State) (d : Nat) (x : Dom) : (setDom s d x).meas = s.meas := rfl
@[simp] theorem setDom_sbus (s : State) (d : Nat) (x : Dom) : (setDom s d x).sbus = s.sbus := rfl
@[simp] theorem setDom_tst (s : State) (d : Nat) (x : Dom) : (setDom s d x).tst = s.tst := rfl

/-! ### setEng -/

@[simp] theorem setEng_pending (s : State) (e : Nat) (g : Engine) : (setEng s e g).pending = s.pending := rfl
@[simp] theorem setEng_sys (s : State) (e : Nat) (g : Engine) : (setEng s e g).sys = s.sys := rfl
@[simp] theorem setEng_words (s : State) (e : Nat) (g : Engine) : (setEng s e g).words = s.words := rfl
@[simp] theorem setEng_ctl (s : State) (e : Nat) (g : Engine) : (setEng s e g).ctl = s.ctl := rfl
@[simp] theorem setEng_data (s : State) (e : Nat) (g : Engine) : (setEng s e g).data = s.data := rfl
@[simp] theorem setEng_imem (s : State) (e : Nat) (g : Engine) : (setEng s e g).imem = s.imem := rfl
@[simp] theorem setEng_shared (s : State) (e : Nat) (g : Engine) : (setEng s e g).shared = s.shared := rfl
@[simp] theorem setEng_load (s : State) (e : Nat) (g : Engine) : (setEng s e g).load = s.load := rfl
@[simp] theorem setEng_log (s : State) (e : Nat) (g : Engine) : (setEng s e g).log = s.log := rfl
@[simp] theorem setEng_flt (s : State) (e : Nat) (g : Engine) : (setEng s e g).flt = s.flt := rfl
@[simp] theorem setEng_mpe (s : State) (e : Nat) (g : Engine) : (setEng s e g).mpe = s.mpe := rfl
@[simp] theorem setEng_time (s : State) (e : Nat) (g : Engine) : (setEng s e g).time = s.time := rfl
@[simp] theorem setEng_cndl (s : State) (e : Nat) (g : Engine) : (setEng s e g).cndl = s.cndl := rfl
@[simp] theorem setEng_cnt (s : State) (e : Nat) (g : Engine) : (setEng s e g).cnt = s.cnt := rfl
@[simp] theorem setEng_hst (s : State) (e : Nat) (g : Engine) : (setEng s e g).hst = s.hst := rfl
@[simp] theorem setEng_slots (s : State) (e : Nat) (g : Engine) : (setEng s e g).slots = s.slots := rfl
@[simp] theorem setEng_flow (s : State) (e : Nat) (g : Engine) : (setEng s e g).flow = s.flow := rfl
@[simp] theorem setEng_flights (s : State) (e : Nat) (g : Engine) : (setEng s e g).flights = s.flights := rfl
@[simp] theorem setEng_ovAt (s : State) (e : Nat) (g : Engine) : (setEng s e g).ovAt = s.ovAt := rfl
@[simp] theorem setEng_nextId (s : State) (e : Nat) (g : Engine) : (setEng s e g).nextId = s.nextId := rfl
@[simp] theorem setEng_qm (s : State) (e : Nat) (g : Engine) : (setEng s e g).qm = s.qm := rfl
@[simp] theorem setEng_sch (s : State) (e : Nat) (g : Engine) : (setEng s e g).sch = s.sch := rfl
@[simp] theorem setEng_lane (s : State) (e : Nat) (g : Engine) : (setEng s e g).lane = s.lane := rfl
@[simp] theorem setEng_mac (s : State) (e : Nat) (g : Engine) : (setEng s e g).mac = s.mac := rfl
@[simp] theorem setEng_msec (s : State) (e : Nat) (g : Engine) : (setEng s e g).msec = s.msec := rfl
@[simp] theorem setEng_cls (s : State) (e : Nat) (g : Engine) : (setEng s e g).cls = s.cls := rfl
@[simp] theorem setEng_plc (s : State) (e : Nat) (g : Engine) : (setEng s e g).plc = s.plc := rfl
@[simp] theorem setEng_pon (s : State) (e : Nat) (g : Engine) : (setEng s e g).pon = s.pon := rfl
@[simp] theorem setEng_trib (s : State) (e : Nat) (g : Engine) : (setEng s e g).trib = s.trib := rfl
@[simp] theorem setEng_mem (s : State) (e : Nat) (g : Engine) : (setEng s e g).mem = s.mem := rfl
@[simp] theorem setEng_key (s : State) (e : Nat) (g : Engine) : (setEng s e g).key = s.key := rfl
@[simp] theorem setEng_fuse (s : State) (e : Nat) (g : Engine) : (setEng s e g).fuse = s.fuse := rfl
@[simp] theorem setEng_chk (s : State) (e : Nat) (g : Engine) : (setEng s e g).chk = s.chk := rfl
@[simp] theorem setEng_pwr (s : State) (e : Nat) (g : Engine) : (setEng s e g).pwr = s.pwr := rfl
@[simp] theorem setEng_pair (s : State) (e : Nat) (g : Engine) : (setEng s e g).pair = s.pair := rfl
@[simp] theorem setEng_meas (s : State) (e : Nat) (g : Engine) : (setEng s e g).meas = s.meas := rfl
@[simp] theorem setEng_sbus (s : State) (e : Nat) (g : Engine) : (setEng s e g).sbus = s.sbus := rfl
@[simp] theorem setEng_tst (s : State) (e : Nat) (g : Engine) : (setEng s e g).tst = s.tst := rfl

/-! ### retire -/

@[simp] theorem retire_pending (s : State) (e : Nat) (pc : Word) : (retire s e pc).pending = s.pending := rfl
@[simp] theorem retire_sys (s : State) (e : Nat) (pc : Word) : (retire s e pc).sys = s.sys := rfl
@[simp] theorem retire_words (s : State) (e : Nat) (pc : Word) : (retire s e pc).words = s.words := rfl
@[simp] theorem retire_ctl (s : State) (e : Nat) (pc : Word) : (retire s e pc).ctl = s.ctl := rfl
@[simp] theorem retire_data (s : State) (e : Nat) (pc : Word) : (retire s e pc).data = s.data := rfl
@[simp] theorem retire_imem (s : State) (e : Nat) (pc : Word) : (retire s e pc).imem = s.imem := rfl
@[simp] theorem retire_shared (s : State) (e : Nat) (pc : Word) : (retire s e pc).shared = s.shared := rfl
@[simp] theorem retire_load (s : State) (e : Nat) (pc : Word) : (retire s e pc).load = s.load := rfl
@[simp] theorem retire_log (s : State) (e : Nat) (pc : Word) : (retire s e pc).log = s.log := rfl
@[simp] theorem retire_flt (s : State) (e : Nat) (pc : Word) : (retire s e pc).flt = s.flt := rfl
@[simp] theorem retire_mpe (s : State) (e : Nat) (pc : Word) : (retire s e pc).mpe = s.mpe := rfl
@[simp] theorem retire_time (s : State) (e : Nat) (pc : Word) : (retire s e pc).time = s.time := rfl
@[simp] theorem retire_cndl (s : State) (e : Nat) (pc : Word) : (retire s e pc).cndl = s.cndl := rfl
@[simp] theorem retire_cnt (s : State) (e : Nat) (pc : Word) : (retire s e pc).cnt = s.cnt := rfl
@[simp] theorem retire_hst (s : State) (e : Nat) (pc : Word) : (retire s e pc).hst = s.hst := rfl
@[simp] theorem retire_slots (s : State) (e : Nat) (pc : Word) : (retire s e pc).slots = s.slots := rfl
@[simp] theorem retire_flow (s : State) (e : Nat) (pc : Word) : (retire s e pc).flow = s.flow := rfl
@[simp] theorem retire_flights (s : State) (e : Nat) (pc : Word) : (retire s e pc).flights = s.flights := rfl
@[simp] theorem retire_ovAt (s : State) (e : Nat) (pc : Word) : (retire s e pc).ovAt = s.ovAt := rfl
@[simp] theorem retire_nextId (s : State) (e : Nat) (pc : Word) : (retire s e pc).nextId = s.nextId := rfl
@[simp] theorem retire_qm (s : State) (e : Nat) (pc : Word) : (retire s e pc).qm = s.qm := rfl
@[simp] theorem retire_sch (s : State) (e : Nat) (pc : Word) : (retire s e pc).sch = s.sch := rfl
@[simp] theorem retire_lane (s : State) (e : Nat) (pc : Word) : (retire s e pc).lane = s.lane := rfl
@[simp] theorem retire_mac (s : State) (e : Nat) (pc : Word) : (retire s e pc).mac = s.mac := rfl
@[simp] theorem retire_msec (s : State) (e : Nat) (pc : Word) : (retire s e pc).msec = s.msec := rfl
@[simp] theorem retire_cls (s : State) (e : Nat) (pc : Word) : (retire s e pc).cls = s.cls := rfl
@[simp] theorem retire_plc (s : State) (e : Nat) (pc : Word) : (retire s e pc).plc = s.plc := rfl
@[simp] theorem retire_pon (s : State) (e : Nat) (pc : Word) : (retire s e pc).pon = s.pon := rfl
@[simp] theorem retire_trib (s : State) (e : Nat) (pc : Word) : (retire s e pc).trib = s.trib := rfl
@[simp] theorem retire_mem (s : State) (e : Nat) (pc : Word) : (retire s e pc).mem = s.mem := rfl
@[simp] theorem retire_key (s : State) (e : Nat) (pc : Word) : (retire s e pc).key = s.key := rfl
@[simp] theorem retire_fuse (s : State) (e : Nat) (pc : Word) : (retire s e pc).fuse = s.fuse := rfl
@[simp] theorem retire_chk (s : State) (e : Nat) (pc : Word) : (retire s e pc).chk = s.chk := rfl
@[simp] theorem retire_pwr (s : State) (e : Nat) (pc : Word) : (retire s e pc).pwr = s.pwr := rfl
@[simp] theorem retire_pair (s : State) (e : Nat) (pc : Word) : (retire s e pc).pair = s.pair := rfl
@[simp] theorem retire_meas (s : State) (e : Nat) (pc : Word) : (retire s e pc).meas = s.meas := rfl
@[simp] theorem retire_sbus (s : State) (e : Nat) (pc : Word) : (retire s e pc).sbus = s.sbus := rfl
@[simp] theorem retire_tst (s : State) (e : Nat) (pc : Word) : (retire s e pc).tst = s.tst := rfl

/-! ### setData -/

@[simp] theorem setData_pending (s : State) (e a : Nat) (v : Word) : (setData s e a v).pending = s.pending := rfl
@[simp] theorem setData_sys (s : State) (e a : Nat) (v : Word) : (setData s e a v).sys = s.sys := rfl
@[simp] theorem setData_words (s : State) (e a : Nat) (v : Word) : (setData s e a v).words = s.words := rfl
@[simp] theorem setData_ctl (s : State) (e a : Nat) (v : Word) : (setData s e a v).ctl = s.ctl := rfl
@[simp] theorem setData_engs (s : State) (e a : Nat) (v : Word) : (setData s e a v).engs = s.engs := rfl
@[simp] theorem setData_imem (s : State) (e a : Nat) (v : Word) : (setData s e a v).imem = s.imem := rfl
@[simp] theorem setData_shared (s : State) (e a : Nat) (v : Word) : (setData s e a v).shared = s.shared := rfl
@[simp] theorem setData_load (s : State) (e a : Nat) (v : Word) : (setData s e a v).load = s.load := rfl
@[simp] theorem setData_log (s : State) (e a : Nat) (v : Word) : (setData s e a v).log = s.log := rfl
@[simp] theorem setData_flt (s : State) (e a : Nat) (v : Word) : (setData s e a v).flt = s.flt := rfl
@[simp] theorem setData_mpe (s : State) (e a : Nat) (v : Word) : (setData s e a v).mpe = s.mpe := rfl
@[simp] theorem setData_time (s : State) (e a : Nat) (v : Word) : (setData s e a v).time = s.time := rfl
@[simp] theorem setData_cndl (s : State) (e a : Nat) (v : Word) : (setData s e a v).cndl = s.cndl := rfl
@[simp] theorem setData_cnt (s : State) (e a : Nat) (v : Word) : (setData s e a v).cnt = s.cnt := rfl
@[simp] theorem setData_hst (s : State) (e a : Nat) (v : Word) : (setData s e a v).hst = s.hst := rfl
@[simp] theorem setData_slots (s : State) (e a : Nat) (v : Word) : (setData s e a v).slots = s.slots := rfl
@[simp] theorem setData_flow (s : State) (e a : Nat) (v : Word) : (setData s e a v).flow = s.flow := rfl
@[simp] theorem setData_flights (s : State) (e a : Nat) (v : Word) : (setData s e a v).flights = s.flights := rfl
@[simp] theorem setData_ovAt (s : State) (e a : Nat) (v : Word) : (setData s e a v).ovAt = s.ovAt := rfl
@[simp] theorem setData_nextId (s : State) (e a : Nat) (v : Word) : (setData s e a v).nextId = s.nextId := rfl
@[simp] theorem setData_qm (s : State) (e a : Nat) (v : Word) : (setData s e a v).qm = s.qm := rfl
@[simp] theorem setData_sch (s : State) (e a : Nat) (v : Word) : (setData s e a v).sch = s.sch := rfl
@[simp] theorem setData_lane (s : State) (e a : Nat) (v : Word) : (setData s e a v).lane = s.lane := rfl
@[simp] theorem setData_mac (s : State) (e a : Nat) (v : Word) : (setData s e a v).mac = s.mac := rfl
@[simp] theorem setData_msec (s : State) (e a : Nat) (v : Word) : (setData s e a v).msec = s.msec := rfl
@[simp] theorem setData_cls (s : State) (e a : Nat) (v : Word) : (setData s e a v).cls = s.cls := rfl
@[simp] theorem setData_plc (s : State) (e a : Nat) (v : Word) : (setData s e a v).plc = s.plc := rfl
@[simp] theorem setData_pon (s : State) (e a : Nat) (v : Word) : (setData s e a v).pon = s.pon := rfl
@[simp] theorem setData_trib (s : State) (e a : Nat) (v : Word) : (setData s e a v).trib = s.trib := rfl
@[simp] theorem setData_mem (s : State) (e a : Nat) (v : Word) : (setData s e a v).mem = s.mem := rfl
@[simp] theorem setData_key (s : State) (e a : Nat) (v : Word) : (setData s e a v).key = s.key := rfl
@[simp] theorem setData_fuse (s : State) (e a : Nat) (v : Word) : (setData s e a v).fuse = s.fuse := rfl
@[simp] theorem setData_chk (s : State) (e a : Nat) (v : Word) : (setData s e a v).chk = s.chk := rfl
@[simp] theorem setData_pwr (s : State) (e a : Nat) (v : Word) : (setData s e a v).pwr = s.pwr := rfl
@[simp] theorem setData_pair (s : State) (e a : Nat) (v : Word) : (setData s e a v).pair = s.pair := rfl
@[simp] theorem setData_meas (s : State) (e a : Nat) (v : Word) : (setData s e a v).meas = s.meas := rfl
@[simp] theorem setData_sbus (s : State) (e a : Nat) (v : Word) : (setData s e a v).sbus = s.sbus := rfl
@[simp] theorem setData_tst (s : State) (e a : Nat) (v : Word) : (setData s e a v).tst = s.tst := rfl

/-! ### setImem -/

@[simp] theorem setImem_pending (s : State) (e a : Nat) (v : Word) : (setImem s e a v).pending = s.pending := rfl
@[simp] theorem setImem_sys (s : State) (e a : Nat) (v : Word) : (setImem s e a v).sys = s.sys := rfl
@[simp] theorem setImem_words (s : State) (e a : Nat) (v : Word) : (setImem s e a v).words = s.words := rfl
@[simp] theorem setImem_ctl (s : State) (e a : Nat) (v : Word) : (setImem s e a v).ctl = s.ctl := rfl
@[simp] theorem setImem_engs (s : State) (e a : Nat) (v : Word) : (setImem s e a v).engs = s.engs := rfl
@[simp] theorem setImem_data (s : State) (e a : Nat) (v : Word) : (setImem s e a v).data = s.data := rfl
@[simp] theorem setImem_shared (s : State) (e a : Nat) (v : Word) : (setImem s e a v).shared = s.shared := rfl
@[simp] theorem setImem_load (s : State) (e a : Nat) (v : Word) : (setImem s e a v).load = s.load := rfl
@[simp] theorem setImem_log (s : State) (e a : Nat) (v : Word) : (setImem s e a v).log = s.log := rfl
@[simp] theorem setImem_flt (s : State) (e a : Nat) (v : Word) : (setImem s e a v).flt = s.flt := rfl
@[simp] theorem setImem_mpe (s : State) (e a : Nat) (v : Word) : (setImem s e a v).mpe = s.mpe := rfl
@[simp] theorem setImem_time (s : State) (e a : Nat) (v : Word) : (setImem s e a v).time = s.time := rfl
@[simp] theorem setImem_cndl (s : State) (e a : Nat) (v : Word) : (setImem s e a v).cndl = s.cndl := rfl
@[simp] theorem setImem_cnt (s : State) (e a : Nat) (v : Word) : (setImem s e a v).cnt = s.cnt := rfl
@[simp] theorem setImem_hst (s : State) (e a : Nat) (v : Word) : (setImem s e a v).hst = s.hst := rfl
@[simp] theorem setImem_slots (s : State) (e a : Nat) (v : Word) : (setImem s e a v).slots = s.slots := rfl
@[simp] theorem setImem_flow (s : State) (e a : Nat) (v : Word) : (setImem s e a v).flow = s.flow := rfl
@[simp] theorem setImem_flights (s : State) (e a : Nat) (v : Word) : (setImem s e a v).flights = s.flights := rfl
@[simp] theorem setImem_ovAt (s : State) (e a : Nat) (v : Word) : (setImem s e a v).ovAt = s.ovAt := rfl
@[simp] theorem setImem_nextId (s : State) (e a : Nat) (v : Word) : (setImem s e a v).nextId = s.nextId := rfl
@[simp] theorem setImem_qm (s : State) (e a : Nat) (v : Word) : (setImem s e a v).qm = s.qm := rfl
@[simp] theorem setImem_sch (s : State) (e a : Nat) (v : Word) : (setImem s e a v).sch = s.sch := rfl
@[simp] theorem setImem_lane (s : State) (e a : Nat) (v : Word) : (setImem s e a v).lane = s.lane := rfl
@[simp] theorem setImem_mac (s : State) (e a : Nat) (v : Word) : (setImem s e a v).mac = s.mac := rfl
@[simp] theorem setImem_msec (s : State) (e a : Nat) (v : Word) : (setImem s e a v).msec = s.msec := rfl
@[simp] theorem setImem_cls (s : State) (e a : Nat) (v : Word) : (setImem s e a v).cls = s.cls := rfl
@[simp] theorem setImem_plc (s : State) (e a : Nat) (v : Word) : (setImem s e a v).plc = s.plc := rfl
@[simp] theorem setImem_pon (s : State) (e a : Nat) (v : Word) : (setImem s e a v).pon = s.pon := rfl
@[simp] theorem setImem_trib (s : State) (e a : Nat) (v : Word) : (setImem s e a v).trib = s.trib := rfl
@[simp] theorem setImem_mem (s : State) (e a : Nat) (v : Word) : (setImem s e a v).mem = s.mem := rfl
@[simp] theorem setImem_key (s : State) (e a : Nat) (v : Word) : (setImem s e a v).key = s.key := rfl
@[simp] theorem setImem_fuse (s : State) (e a : Nat) (v : Word) : (setImem s e a v).fuse = s.fuse := rfl
@[simp] theorem setImem_chk (s : State) (e a : Nat) (v : Word) : (setImem s e a v).chk = s.chk := rfl
@[simp] theorem setImem_pwr (s : State) (e a : Nat) (v : Word) : (setImem s e a v).pwr = s.pwr := rfl
@[simp] theorem setImem_pair (s : State) (e a : Nat) (v : Word) : (setImem s e a v).pair = s.pair := rfl
@[simp] theorem setImem_meas (s : State) (e a : Nat) (v : Word) : (setImem s e a v).meas = s.meas := rfl
@[simp] theorem setImem_sbus (s : State) (e a : Nat) (v : Word) : (setImem s e a v).sbus = s.sbus := rfl
@[simp] theorem setImem_tst (s : State) (e a : Nat) (v : Word) : (setImem s e a v).tst = s.tst := rfl

/-! ### dramWrite -/

@[simp] theorem dramWrite_pending (s : State) (a : Nat) (bs : List Byte) : (dramWrite s a bs).pending = s.pending := rfl
@[simp] theorem dramWrite_sys (s : State) (a : Nat) (bs : List Byte) : (dramWrite s a bs).sys = s.sys := rfl
@[simp] theorem dramWrite_words (s : State) (a : Nat) (bs : List Byte) : (dramWrite s a bs).words = s.words := rfl
@[simp] theorem dramWrite_ctl (s : State) (a : Nat) (bs : List Byte) : (dramWrite s a bs).ctl = s.ctl := rfl
@[simp] theorem dramWrite_engs (s : State) (a : Nat) (bs : List Byte) : (dramWrite s a bs).engs = s.engs := rfl
@[simp] theorem dramWrite_data (s : State) (a : Nat) (bs : List Byte) : (dramWrite s a bs).data = s.data := rfl
@[simp] theorem dramWrite_imem (s : State) (a : Nat) (bs : List Byte) : (dramWrite s a bs).imem = s.imem := rfl
@[simp] theorem dramWrite_shared (s : State) (a : Nat) (bs : List Byte) : (dramWrite s a bs).shared = s.shared := rfl
@[simp] theorem dramWrite_load (s : State) (a : Nat) (bs : List Byte) : (dramWrite s a bs).load = s.load := rfl
@[simp] theorem dramWrite_log (s : State) (a : Nat) (bs : List Byte) : (dramWrite s a bs).log = s.log := rfl
@[simp] theorem dramWrite_flt (s : State) (a : Nat) (bs : List Byte) : (dramWrite s a bs).flt = s.flt := rfl
@[simp] theorem dramWrite_time (s : State) (a : Nat) (bs : List Byte) : (dramWrite s a bs).time = s.time := rfl
@[simp] theorem dramWrite_cndl (s : State) (a : Nat) (bs : List Byte) : (dramWrite s a bs).cndl = s.cndl := rfl
@[simp] theorem dramWrite_cnt (s : State) (a : Nat) (bs : List Byte) : (dramWrite s a bs).cnt = s.cnt := rfl
@[simp] theorem dramWrite_hst (s : State) (a : Nat) (bs : List Byte) : (dramWrite s a bs).hst = s.hst := rfl
@[simp] theorem dramWrite_slots (s : State) (a : Nat) (bs : List Byte) : (dramWrite s a bs).slots = s.slots := rfl
@[simp] theorem dramWrite_flow (s : State) (a : Nat) (bs : List Byte) : (dramWrite s a bs).flow = s.flow := rfl
@[simp] theorem dramWrite_flights (s : State) (a : Nat) (bs : List Byte) : (dramWrite s a bs).flights = s.flights := rfl
@[simp] theorem dramWrite_ovAt (s : State) (a : Nat) (bs : List Byte) : (dramWrite s a bs).ovAt = s.ovAt := rfl
@[simp] theorem dramWrite_nextId (s : State) (a : Nat) (bs : List Byte) : (dramWrite s a bs).nextId = s.nextId := rfl
@[simp] theorem dramWrite_qm (s : State) (a : Nat) (bs : List Byte) : (dramWrite s a bs).qm = s.qm := rfl
@[simp] theorem dramWrite_sch (s : State) (a : Nat) (bs : List Byte) : (dramWrite s a bs).sch = s.sch := rfl
@[simp] theorem dramWrite_lane (s : State) (a : Nat) (bs : List Byte) : (dramWrite s a bs).lane = s.lane := rfl
@[simp] theorem dramWrite_mac (s : State) (a : Nat) (bs : List Byte) : (dramWrite s a bs).mac = s.mac := rfl
@[simp] theorem dramWrite_msec (s : State) (a : Nat) (bs : List Byte) : (dramWrite s a bs).msec = s.msec := rfl
@[simp] theorem dramWrite_cls (s : State) (a : Nat) (bs : List Byte) : (dramWrite s a bs).cls = s.cls := rfl
@[simp] theorem dramWrite_plc (s : State) (a : Nat) (bs : List Byte) : (dramWrite s a bs).plc = s.plc := rfl
@[simp] theorem dramWrite_pon (s : State) (a : Nat) (bs : List Byte) : (dramWrite s a bs).pon = s.pon := rfl
@[simp] theorem dramWrite_trib (s : State) (a : Nat) (bs : List Byte) : (dramWrite s a bs).trib = s.trib := rfl
@[simp] theorem dramWrite_mem (s : State) (a : Nat) (bs : List Byte) : (dramWrite s a bs).mem = s.mem := rfl
@[simp] theorem dramWrite_key (s : State) (a : Nat) (bs : List Byte) : (dramWrite s a bs).key = s.key := rfl
@[simp] theorem dramWrite_fuse (s : State) (a : Nat) (bs : List Byte) : (dramWrite s a bs).fuse = s.fuse := rfl
@[simp] theorem dramWrite_chk (s : State) (a : Nat) (bs : List Byte) : (dramWrite s a bs).chk = s.chk := rfl
@[simp] theorem dramWrite_pwr (s : State) (a : Nat) (bs : List Byte) : (dramWrite s a bs).pwr = s.pwr := rfl
@[simp] theorem dramWrite_pair (s : State) (a : Nat) (bs : List Byte) : (dramWrite s a bs).pair = s.pair := rfl
@[simp] theorem dramWrite_meas (s : State) (a : Nat) (bs : List Byte) : (dramWrite s a bs).meas = s.meas := rfl
@[simp] theorem dramWrite_sbus (s : State) (a : Nat) (bs : List Byte) : (dramWrite s a bs).sbus = s.sbus := rfl
@[simp] theorem dramWrite_tst (s : State) (a : Nat) (bs : List Byte) : (dramWrite s a bs).tst = s.tst := rfl

/-! ### setWritten -/

@[simp] theorem setWritten_pending (s : State) (g : Nat) (b : Bool) : (setWritten s g b).pending = s.pending := rfl
@[simp] theorem setWritten_sys (s : State) (g : Nat) (b : Bool) : (setWritten s g b).sys = s.sys := rfl
@[simp] theorem setWritten_words (s : State) (g : Nat) (b : Bool) : (setWritten s g b).words = s.words := rfl
@[simp] theorem setWritten_ctl (s : State) (g : Nat) (b : Bool) : (setWritten s g b).ctl = s.ctl := rfl
@[simp] theorem setWritten_engs (s : State) (g : Nat) (b : Bool) : (setWritten s g b).engs = s.engs := rfl
@[simp] theorem setWritten_data (s : State) (g : Nat) (b : Bool) : (setWritten s g b).data = s.data := rfl
@[simp] theorem setWritten_imem (s : State) (g : Nat) (b : Bool) : (setWritten s g b).imem = s.imem := rfl
@[simp] theorem setWritten_shared (s : State) (g : Nat) (b : Bool) : (setWritten s g b).shared = s.shared := rfl
@[simp] theorem setWritten_load (s : State) (g : Nat) (b : Bool) : (setWritten s g b).load = s.load := rfl
@[simp] theorem setWritten_log (s : State) (g : Nat) (b : Bool) : (setWritten s g b).log = s.log := rfl
@[simp] theorem setWritten_flt (s : State) (g : Nat) (b : Bool) : (setWritten s g b).flt = s.flt := rfl
@[simp] theorem setWritten_time (s : State) (g : Nat) (b : Bool) : (setWritten s g b).time = s.time := rfl
@[simp] theorem setWritten_cndl (s : State) (g : Nat) (b : Bool) : (setWritten s g b).cndl = s.cndl := rfl
@[simp] theorem setWritten_cnt (s : State) (g : Nat) (b : Bool) : (setWritten s g b).cnt = s.cnt := rfl
@[simp] theorem setWritten_hst (s : State) (g : Nat) (b : Bool) : (setWritten s g b).hst = s.hst := rfl
@[simp] theorem setWritten_slots (s : State) (g : Nat) (b : Bool) : (setWritten s g b).slots = s.slots := rfl
@[simp] theorem setWritten_flow (s : State) (g : Nat) (b : Bool) : (setWritten s g b).flow = s.flow := rfl
@[simp] theorem setWritten_flights (s : State) (g : Nat) (b : Bool) : (setWritten s g b).flights = s.flights := rfl
@[simp] theorem setWritten_ovAt (s : State) (g : Nat) (b : Bool) : (setWritten s g b).ovAt = s.ovAt := rfl
@[simp] theorem setWritten_nextId (s : State) (g : Nat) (b : Bool) : (setWritten s g b).nextId = s.nextId := rfl
@[simp] theorem setWritten_qm (s : State) (g : Nat) (b : Bool) : (setWritten s g b).qm = s.qm := rfl
@[simp] theorem setWritten_sch (s : State) (g : Nat) (b : Bool) : (setWritten s g b).sch = s.sch := rfl
@[simp] theorem setWritten_lane (s : State) (g : Nat) (b : Bool) : (setWritten s g b).lane = s.lane := rfl
@[simp] theorem setWritten_mac (s : State) (g : Nat) (b : Bool) : (setWritten s g b).mac = s.mac := rfl
@[simp] theorem setWritten_msec (s : State) (g : Nat) (b : Bool) : (setWritten s g b).msec = s.msec := rfl
@[simp] theorem setWritten_cls (s : State) (g : Nat) (b : Bool) : (setWritten s g b).cls = s.cls := rfl
@[simp] theorem setWritten_plc (s : State) (g : Nat) (b : Bool) : (setWritten s g b).plc = s.plc := rfl
@[simp] theorem setWritten_pon (s : State) (g : Nat) (b : Bool) : (setWritten s g b).pon = s.pon := rfl
@[simp] theorem setWritten_trib (s : State) (g : Nat) (b : Bool) : (setWritten s g b).trib = s.trib := rfl
@[simp] theorem setWritten_mem (s : State) (g : Nat) (b : Bool) : (setWritten s g b).mem = s.mem := rfl
@[simp] theorem setWritten_key (s : State) (g : Nat) (b : Bool) : (setWritten s g b).key = s.key := rfl
@[simp] theorem setWritten_fuse (s : State) (g : Nat) (b : Bool) : (setWritten s g b).fuse = s.fuse := rfl
@[simp] theorem setWritten_chk (s : State) (g : Nat) (b : Bool) : (setWritten s g b).chk = s.chk := rfl
@[simp] theorem setWritten_pwr (s : State) (g : Nat) (b : Bool) : (setWritten s g b).pwr = s.pwr := rfl
@[simp] theorem setWritten_pair (s : State) (g : Nat) (b : Bool) : (setWritten s g b).pair = s.pair := rfl
@[simp] theorem setWritten_meas (s : State) (g : Nat) (b : Bool) : (setWritten s g b).meas = s.meas := rfl
@[simp] theorem setWritten_sbus (s : State) (g : Nat) (b : Bool) : (setWritten s g b).sbus = s.sbus := rfl
@[simp] theorem setWritten_tst (s : State) (g : Nat) (b : Bool) : (setWritten s g b).tst = s.tst := rfl

/-! ### enterTrap -/

@[simp] theorem enterTrap_pending (s : State) (e c d1 d2 skid drops : Nat) : (enterTrap s e c d1 d2 skid drops).pending = s.pending := by simp only [enterTrap, setEng_pending, setData_pending]
@[simp] theorem enterTrap_sys (s : State) (e c d1 d2 skid drops : Nat) : (enterTrap s e c d1 d2 skid drops).sys = s.sys := by simp only [enterTrap, setEng_sys, setData_sys]
@[simp] theorem enterTrap_words (s : State) (e c d1 d2 skid drops : Nat) : (enterTrap s e c d1 d2 skid drops).words = s.words := by simp only [enterTrap, setEng_words, setData_words]
@[simp] theorem enterTrap_ctl (s : State) (e c d1 d2 skid drops : Nat) : (enterTrap s e c d1 d2 skid drops).ctl = s.ctl := by simp only [enterTrap, setEng_ctl, setData_ctl]
@[simp] theorem enterTrap_imem (s : State) (e c d1 d2 skid drops : Nat) : (enterTrap s e c d1 d2 skid drops).imem = s.imem := by simp only [enterTrap, setEng_imem, setData_imem]
@[simp] theorem enterTrap_shared (s : State) (e c d1 d2 skid drops : Nat) : (enterTrap s e c d1 d2 skid drops).shared = s.shared := by simp only [enterTrap, setEng_shared, setData_shared]
@[simp] theorem enterTrap_load (s : State) (e c d1 d2 skid drops : Nat) : (enterTrap s e c d1 d2 skid drops).load = s.load := by simp only [enterTrap, setEng_load, setData_load]
@[simp] theorem enterTrap_log (s : State) (e c d1 d2 skid drops : Nat) : (enterTrap s e c d1 d2 skid drops).log = s.log := by simp only [enterTrap, setEng_log, setData_log]
@[simp] theorem enterTrap_flt (s : State) (e c d1 d2 skid drops : Nat) : (enterTrap s e c d1 d2 skid drops).flt = s.flt := by simp only [enterTrap, setEng_flt, setData_flt]
@[simp] theorem enterTrap_mpe (s : State) (e c d1 d2 skid drops : Nat) : (enterTrap s e c d1 d2 skid drops).mpe = s.mpe := by simp only [enterTrap, setEng_mpe, setData_mpe]
@[simp] theorem enterTrap_time (s : State) (e c d1 d2 skid drops : Nat) : (enterTrap s e c d1 d2 skid drops).time = s.time := by simp only [enterTrap, setEng_time, setData_time]
@[simp] theorem enterTrap_cndl (s : State) (e c d1 d2 skid drops : Nat) : (enterTrap s e c d1 d2 skid drops).cndl = s.cndl := by simp only [enterTrap, setEng_cndl, setData_cndl]
@[simp] theorem enterTrap_cnt (s : State) (e c d1 d2 skid drops : Nat) : (enterTrap s e c d1 d2 skid drops).cnt = s.cnt := by simp only [enterTrap, setEng_cnt, setData_cnt]
@[simp] theorem enterTrap_hst (s : State) (e c d1 d2 skid drops : Nat) : (enterTrap s e c d1 d2 skid drops).hst = s.hst := by simp only [enterTrap, setEng_hst, setData_hst]
@[simp] theorem enterTrap_slots (s : State) (e c d1 d2 skid drops : Nat) : (enterTrap s e c d1 d2 skid drops).slots = s.slots := by simp only [enterTrap, setEng_slots, setData_slots]
@[simp] theorem enterTrap_flow (s : State) (e c d1 d2 skid drops : Nat) : (enterTrap s e c d1 d2 skid drops).flow = s.flow := by simp only [enterTrap, setEng_flow, setData_flow]
@[simp] theorem enterTrap_flights (s : State) (e c d1 d2 skid drops : Nat) : (enterTrap s e c d1 d2 skid drops).flights = s.flights := by simp only [enterTrap, setEng_flights, setData_flights]
@[simp] theorem enterTrap_ovAt (s : State) (e c d1 d2 skid drops : Nat) : (enterTrap s e c d1 d2 skid drops).ovAt = s.ovAt := by simp only [enterTrap, setEng_ovAt, setData_ovAt]
@[simp] theorem enterTrap_nextId (s : State) (e c d1 d2 skid drops : Nat) : (enterTrap s e c d1 d2 skid drops).nextId = s.nextId := by simp only [enterTrap, setEng_nextId, setData_nextId]
@[simp] theorem enterTrap_qm (s : State) (e c d1 d2 skid drops : Nat) : (enterTrap s e c d1 d2 skid drops).qm = s.qm := by simp only [enterTrap, setEng_qm, setData_qm]
@[simp] theorem enterTrap_sch (s : State) (e c d1 d2 skid drops : Nat) : (enterTrap s e c d1 d2 skid drops).sch = s.sch := by simp only [enterTrap, setEng_sch, setData_sch]
@[simp] theorem enterTrap_lane (s : State) (e c d1 d2 skid drops : Nat) : (enterTrap s e c d1 d2 skid drops).lane = s.lane := by simp only [enterTrap, setEng_lane, setData_lane]
@[simp] theorem enterTrap_mac (s : State) (e c d1 d2 skid drops : Nat) : (enterTrap s e c d1 d2 skid drops).mac = s.mac := by simp only [enterTrap, setEng_mac, setData_mac]
@[simp] theorem enterTrap_msec (s : State) (e c d1 d2 skid drops : Nat) : (enterTrap s e c d1 d2 skid drops).msec = s.msec := by simp only [enterTrap, setEng_msec, setData_msec]
@[simp] theorem enterTrap_cls (s : State) (e c d1 d2 skid drops : Nat) : (enterTrap s e c d1 d2 skid drops).cls = s.cls := by simp only [enterTrap, setEng_cls, setData_cls]
@[simp] theorem enterTrap_plc (s : State) (e c d1 d2 skid drops : Nat) : (enterTrap s e c d1 d2 skid drops).plc = s.plc := by simp only [enterTrap, setEng_plc, setData_plc]
@[simp] theorem enterTrap_pon (s : State) (e c d1 d2 skid drops : Nat) : (enterTrap s e c d1 d2 skid drops).pon = s.pon := by simp only [enterTrap, setEng_pon, setData_pon]
@[simp] theorem enterTrap_trib (s : State) (e c d1 d2 skid drops : Nat) : (enterTrap s e c d1 d2 skid drops).trib = s.trib := by simp only [enterTrap, setEng_trib, setData_trib]
@[simp] theorem enterTrap_mem (s : State) (e c d1 d2 skid drops : Nat) : (enterTrap s e c d1 d2 skid drops).mem = s.mem := by simp only [enterTrap, setEng_mem, setData_mem]
@[simp] theorem enterTrap_key (s : State) (e c d1 d2 skid drops : Nat) : (enterTrap s e c d1 d2 skid drops).key = s.key := by simp only [enterTrap, setEng_key, setData_key]
@[simp] theorem enterTrap_fuse (s : State) (e c d1 d2 skid drops : Nat) : (enterTrap s e c d1 d2 skid drops).fuse = s.fuse := by simp only [enterTrap, setEng_fuse, setData_fuse]
@[simp] theorem enterTrap_chk (s : State) (e c d1 d2 skid drops : Nat) : (enterTrap s e c d1 d2 skid drops).chk = s.chk := by simp only [enterTrap, setEng_chk, setData_chk]
@[simp] theorem enterTrap_pwr (s : State) (e c d1 d2 skid drops : Nat) : (enterTrap s e c d1 d2 skid drops).pwr = s.pwr := by simp only [enterTrap, setEng_pwr, setData_pwr]
@[simp] theorem enterTrap_pair (s : State) (e c d1 d2 skid drops : Nat) : (enterTrap s e c d1 d2 skid drops).pair = s.pair := by simp only [enterTrap, setEng_pair, setData_pair]
@[simp] theorem enterTrap_meas (s : State) (e c d1 d2 skid drops : Nat) : (enterTrap s e c d1 d2 skid drops).meas = s.meas := by simp only [enterTrap, setEng_meas, setData_meas]
@[simp] theorem enterTrap_sbus (s : State) (e c d1 d2 skid drops : Nat) : (enterTrap s e c d1 d2 skid drops).sbus = s.sbus := by simp only [enterTrap, setEng_sbus, setData_sbus]
@[simp] theorem enterTrap_tst (s : State) (e c d1 d2 skid drops : Nat) : (enterTrap s e c d1 d2 skid drops).tst = s.tst := by simp only [enterTrap, setEng_tst, setData_tst]

end Sys2Proof.Machine
end

