-- ==== Sys2Proof/Laws/Tab.lean ====
section
/-! SUPPORT. Finite maps: what a key holds after another is set, and that setting keeps the canonical form. -/
namespace Sys2Proof.Machine

variable {α : Type}

theorem tget_tput_same (d : Nat → α) (t : Tab α) (k : Nat) (v : α) : tget d (tput t k v) k = v := by
  induction t with
  | nil => simp [tput, tget]
  | cons p t ih =>
    simp only [tput]
    split
    · simp [tget]
    · split
      · simp [tget]
      · rename_i h; simp [tget, Ne.symm h, ih]

theorem tget_tput_other (d : Nat → α) (t : Tab α) {k j : Nat} (v : α) (h : j ≠ k) : tget d (tput t k v) j = tget d t j := by
  induction t with
  | nil => simp [tput, tget, Ne.symm h]
  | cons p t ih =>
    simp only [tput]
    split
    · simp [tget, Ne.symm h]
    · split
      · rename_i h2; subst h2; simp [tget, Ne.symm h]
      · simp [tget, ih]

theorem tget_tdel_same (d : Nat → α) (t : Tab α) (k : Nat) : tget d (tdel t k) k = d k := by
  induction t with
  | nil => simp [tdel, tget]
  | cons p t ih =>
    simp only [tdel, List.filter_cons] at ih ⊢
    by_cases h : p.1 = k <;> simp_all [tget]

theorem tget_tdel_other (d : Nat → α) (t : Tab α) {k j : Nat} (h : j ≠ k) : tget d (tdel t k) j = tget d t j := by
  induction t with
  | nil => simp [tdel]
  | cons p t ih =>
    simp only [tdel, List.filter_cons] at ih ⊢
    by_cases h1 : p.1 = k
    · simp [h1, tget, ih, Ne.symm h]
    · simp [h1, tget, ih]

theorem tput_mem (t : Tab α) (k : Nat) (v : α) (p : Nat × α) (h : p ∈ tput t k v) : p = (k, v) ∨ p ∈ t := by
  induction t with
  | nil => simpa [tput] using h
  | cons q t ih =>
    simp only [tput] at h
    split at h
    · simpa using h
    · split at h
      · rcases List.mem_cons.1 h with h | h
        · exact .inl h
        · exact .inr (List.mem_cons_of_mem _ h)
      · rcases List.mem_cons.1 h with h | h
        · exact .inr (h ▸ List.mem_cons_self ..)
        · rcases ih h with h | h
          · exact .inl h
          · exact .inr (List.mem_cons_of_mem _ h)

variable [DecidableEq α]

/-- A key holds what it was set to. -/
@[simp] theorem tget_tset_same (d : Nat → α) (t : Tab α) (k : Nat) (v : α) : tget d (tset d t k v) k = v := by
  unfold tset
  split
  · rename_i h; rw [tget_tdel_same, h]
  · exact tget_tput_same d t k v

/-- Every other key holds what it held. -/
theorem tget_tset_other (d : Nat → α) (t : Tab α) {k j : Nat} (v : α) (h : j ≠ k) : tget d (tset d t k v) j = tget d t j := by
  unfold tset
  split
  · exact tget_tdel_other d t h
  · exact tget_tput_other d t v h

/-- What key j holds after key k was set. -/
theorem tget_tset (d : Nat → α) (t : Tab α) (k j : Nat) (v : α) :
    tget d (tset d t k v) j = if j = k then v else tget d t j := by
  by_cases h : j = k
  · simp [h]
  · simp [h, tget_tset_other]

theorem twf_tput (d : Nat → α) (t : Tab α) (k : Nat) (v : α) (hv : v ≠ d k) (h : twf d t = true) : twf d (tput t k v) = true := by
  induction t with
  | nil => simp [tput, twf, hv]
  | cons q t ih =>
    simp only [twf, Bool.and_eq_true, decide_eq_true_eq, List.all_eq_true] at h
    obtain ⟨⟨h1, h2⟩, h3⟩ := h
    simp only [tput]
    split
    · rename_i hk
      simp only [twf, Bool.and_eq_true, decide_eq_true_eq, List.all_eq_true]
      refine ⟨⟨hv, ?_⟩, ⟨h1, h2⟩, h3⟩
      intro p hp
      rcases List.mem_cons.1 hp with rfl | hp
      · exact hk
      · exact Nat.lt_trans hk (h2 p hp)
    · split
      · rename_i hk; subst hk
        simp only [twf, Bool.and_eq_true, decide_eq_true_eq, List.all_eq_true]
        exact ⟨⟨hv, h2⟩, h3⟩
      · rename_i hk1 hk2
        simp only [twf, Bool.and_eq_true, decide_eq_true_eq, List.all_eq_true]
        refine ⟨⟨h1, ?_⟩, ih h3⟩
        intro p hp
        rcases tput_mem t k v p hp with rfl | hp
        · simp only; omega
        · exact h2 p hp

theorem twf_tdel (d : Nat → α) (t : Tab α) (k : Nat) (h : twf d t = true) : twf d (tdel t k) = true := by
  induction t with
  | nil => rfl
  | cons q t ih =>
    simp only [twf, Bool.and_eq_true, decide_eq_true_eq, List.all_eq_true] at h
    obtain ⟨⟨h1, h2⟩, h3⟩ := h
    have ih := ih h3
    simp only [tdel, List.filter_cons] at ih ⊢
    split
    · simp only [twf, Bool.and_eq_true, decide_eq_true_eq, List.all_eq_true]
      exact ⟨⟨h1, fun p hp => h2 p (List.mem_filter.1 hp).1⟩, ih⟩
    · exact ih

/-- Setting a key keeps the canonical form. -/
theorem twf_tset (d : Nat → α) (t : Tab α) (k : Nat) (v : α) (h : twf d t = true) : twf d (tset d t k v) = true := by
  unfold tset
  split
  · exact twf_tdel d t k h
  · rename_i hv; exact twf_tput d t k v hv h

/-- Setting keys one after another keeps the canonical form. -/
theorem twf_foldl_tset (d : Nat → α) (l : List (Nat × α)) (t : Tab α) (h : twf d t = true) :
    twf d (l.foldl (fun t p => tset d t p.1 p.2) t) = true := by
  induction l generalizing t with
  | nil => exact h
  | cons p l ih => exact ih _ (twf_tset d t p.1 p.2 h)

end Sys2Proof.Machine
end

