-- ==== Sys2Proof/Laws/Ops.lean ====
section
/-! SUPPORT. What each shared operation does, once: registers, engines, near memory, unit words, fields, and how an instruction runs. -/
namespace Sys2Proof.Machine

/-! ## Engines and registers -/

@[simp] theorem eng_setEng_same (s : State) (e : Nat) (g : Engine) : eng (setEng s e g) e = g := tget_tset_same _ _ _ _

theorem eng_setEng_other (s : State) {e k : Nat} (g : Engine) (h : k ≠ e) : eng (setEng s e g) k = eng s k :=
  tget_tset_other _ _ _ h

theorem eng_setEng (s : State) (e k : Nat) (g : Engine) : eng (setEng s e g) k = if k = e then g else eng s k :=
  tget_tset _ _ _ _ _

/-- Engines are what the component engs says. -/
theorem eng_congr {s t : State} (h : t.engs = s.engs) (k : Nat) : eng t k = eng s k := by unfold eng; rw [h]

/-- A register after one was written: g0 stays zero. -/
theorem reg_setReg (g : Engine) (r k : Nat) (v : Word) : reg (setReg g r v) k = if k = r ∧ k ≠ 0 then v else reg g k := by
  unfold setReg
  by_cases hr : r = 0
  · subst hr; by_cases hk : k = 0 <;> simp [hk]
  · by_cases hk : k = 0
    · subst hk; simp [reg, Ne.symm hr]
    · simp only [hr, if_false]
      by_cases h : k = r
      · subst h; simp [reg, hk]
      · simp [reg, hk, h, tget_tset_other]

@[simp] theorem setReg_win (g : Engine) (r : Nat) (v : Word) : (setReg g r v).win = g.win := by unfold setReg; split <;> rfl
@[simp] theorem setReg_far (g : Engine) (r : Nat) (v : Word) : (setReg g r v).far = g.far := by unfold setReg; split <;> rfl
@[simp] theorem setReg_box (g : Engine) (r : Nat) (v : Word) : (setReg g r v).box = g.box := by unfold setReg; split <;> rfl
@[simp] theorem setReg_pc (g : Engine) (r : Nat) (v : Word) : (setReg g r v).pc = g.pc := by unfold setReg; split <;> rfl
@[simp] theorem setReg_z (g : Engine) (r : Nat) (v : Word) : (setReg g r v).z = g.z := by unfold setReg; split <;> rfl
@[simp] theorem setReg_n (g : Engine) (r : Nat) (v : Word) : (setReg g r v).n = g.n := by unfold setReg; split <;> rfl
@[simp] theorem setReg_c (g : Engine) (r : Nat) (v : Word) : (setReg g r v).c = g.c := by unfold setReg; split <;> rfl
@[simp] theorem setReg_v (g : Engine) (r : Nat) (v : Word) : (setReg g r v).v = g.v := by unfold setReg; split <;> rfl
@[simp] theorem setReg_nr (g : Engine) (r : Nat) (v : Word) : (setReg g r v).nr = g.nr := by unfold setReg; split <;> rfl
@[simp] theorem setReg_kp (g : Engine) (r : Nat) (v : Word) : (setReg g r v).kp = g.kp := by unfold setReg; split <;> rfl
@[simp] theorem setReg_st (g : Engine) (r : Nat) (v : Word) : (setReg g r v).st = g.st := by unfold setReg; split <;> rfl
@[simp] theorem engRest_setReg (g : Engine) (r : Nat) (v : Word) : engRest (setReg g r v) = engRest g := by
  unfold setReg; split <;> rfl

/-- An instruction that retires: every engine but its own is left, and of its own the pc and the record of retirements alone change. -/
theorem eng_retire_other (s : State) {e k : Nat} (pc : Word) (h : k ≠ e) : eng (retire s e pc) k = eng s k := eng_setEng_other _ _ h

theorem eng_retire (s : State) (e : Nat) (pc : Word) : eng (retire s e pc) e =
    { eng s e with lastPc := (eng s e).pc, pc := wd (pc.toNat % 32768), past := decide (0x7fff < pc.toNat),
                   noted := (eng s e).noted.map fun x => (x.1, x.2 + 1),
                   count := if sampling s e then (eng s e).count + 1 else (eng s e).count } := by
  unfold retire; simp only [eng_setEng_same]

@[simp] theorem engRest_retire (s : State) (e : Nat) (pc : Word) : engRest (eng (retire s e pc) e) = engRest (eng s e) := by
  rw [eng_retire]; rfl

@[simp] theorem reg_retire (s : State) (e : Nat) (pc : Word) (k : Nat) : reg (eng (retire s e pc) e) k = reg (eng s e) k := by
  rw [eng_retire]; rfl

@[simp] theorem flags_retire (s : State) (e : Nat) (pc : Word) : flags (eng (retire s e pc) e) = flags (eng s e) := by
  rw [eng_retire]; rfl

/-- A retired instruction goes on at the pc it names. -/
theorem goesOnAt_retire (s : State) (e : Nat) (pc : Word) : GoesOnAt (eng (retire s e pc) e) pc := by rw [eng_retire]; exact ⟨rfl, rfl⟩

/-- A retired instruction that changed its own engine alone. -/
theorem onlyEngine_retire (s : State) (e : Eng) (g : Engine) (pc : Word) : OnlyEngine s (retire (setEng s e g) e pc) e := by
  refine ⟨rfl, fun k h => ?_⟩
  rw [eng_retire_other _ _ h, eng_setEng_other _ _ h]

/-- An instruction that may execute now has its body's effect. -/
theorem instr_runs {s : State} {e : Eng} {size : Nat} {uses : List Nat} (body : Engine → Eff)
    (h1 : able s e = true) (h8 : (eng s e).step = false) (h9 : (eng s e).past = false)
    (h2 : sampleDue s e = false) (h3 : ((eng s e).noted.any fun x => decide (12 ≤ x.2)) = false)
    (h4 : (eng s e).pc.toNat + size ≤ 0x8000) (h5 : uses.any (loading (eng s e)) = false) :
    instr s e size uses body = match body (eng s e) with
      | .done s' => .next (retire s' e ((eng s e).pc + wd size))
      | .jump s' pc => .next (retire s' e pc)
      | .trap c d1 d2 => .next (if loadsOut (eng s e) then s else takeTrap s e c d1 d2)
      | .trapWith s' c d1 d2 => .next (if loadsOut (eng s e) then s else takeTrap s' e c d1 d2)
      | .hold s' => .next s'
      | .stall => .next s := by
  have h3' : ((eng s e).noted.any fun (x : Word × Nat) => decide (12 ≤ x.2)) = false := h3
  have h7 : ¬ (size = 2 ∧ 0x7fff < (eng s e).pc.toNat + 1) := by omega
  unfold instr
  simp only [h1, h2, h3', h5, h7, h8, h9, trapOr, endInstr, Bool.not_true, Bool.false_eq_true, if_false, Bool.or_self]
  all_goals (cases body (eng s e) <;> rfl)

/-- The same of an instruction whose whole effect is on its own engine. -/
theorem instrG_runs {s : State} {e : Eng} {size : Nat} {uses : List Reg} (f : Engine → Engine)
    (h : Runs s e size uses) :
    instrG s e size (uses.map fun r => r.val) f = .next (retire (setEng s e (f (eng s e))) e ((eng s e).pc + wd size)) := by
  obtain ⟨h1, h8, h9, h2, h3, h4, h5⟩ := h
  unfold instrG
  rw [instr_runs _ h1 h8 h9 h2 h3 h4 (by simpa [List.any_map] using h5)]

/-! ## Near memory -/

theorem dataW_setData (s : State) (e a k b : Nat) (v : Word) :
    dataW (setData s e a v) k b = if k * 32768 + b = e * 32768 + a then v else dataW s k b := tget_tset _ _ _ _ _

@[simp] theorem dataW_setEng (s : State) (e : Nat) (g : Engine) (k b : Nat) : dataW (setEng s e g) k b = dataW s k b := rfl

@[simp] theorem eng_setData (s : State) (e a : Nat) (v : Word) (k : Nat) : eng (setData s e a v) k = eng s k := rfl

/-! ## Unit words and fields -/

@[simp] theorem rdW_wrW_same (s : State) (a : Nat) (v : Word) : rdW (wrW s a v) a = v := tget_tset_same _ _ _ _

theorem rdW_wrW_other (s : State) {a b : Nat} (v : Word) (h : b ≠ a) : rdW (wrW s a v) b = rdW s b := tget_tset_other _ _ _ h

/-- Words are what the component words says. -/
theorem rdW_congr {s t : State} (h : t.words = s.words) (a : Nat) : rdW t a = rdW s a := by unfold rdW; rw [h]

theorem rdF_congr {s t : State} (h : t.words = s.words) (f : Fld) (i off : Nat) : rdF t f i off = rdF s f i off := by
  unfold rdF rdW; rw [h]

theorem onF_congr {s t : State} (h : t.words = s.words) (f : Fld) (i off : Nat) : onF t f i off = onF s f i off := by
  unfold onF rdF rdW; rw [h]

theorem active_congr {s t : State} (h : t.words = s.words) (u i : Nat) : active t u i = active s u i := by
  unfold active ustat rdW; rw [h]

/-- A field that was put into a number reads back. -/
theorem bitsOf_putBits_same (n lo w v : Nat) : bitsOf (putBits n lo w v) lo w = v % 2 ^ w := by
  unfold bitsOf putBits
  have h1 : n % 2 ^ lo < 2 ^ lo := Nat.mod_lt _ (Nat.two_pow_pos lo)
  have h2 : v % 2 ^ w < 2 ^ w := Nat.mod_lt _ (Nat.two_pow_pos w)
  have h3 : n % 2 ^ lo + v % 2 ^ w * 2 ^ lo + n / 2 ^ (lo + w) * 2 ^ (lo + w) =
      n % 2 ^ lo + 2 ^ lo * (v % 2 ^ w + 2 ^ w * (n / 2 ^ (lo + w))) := by rw [Nat.pow_add]; ring
  rw [h3, Nat.add_mul_div_left _ _ (Nat.two_pow_pos lo), Nat.div_eq_of_lt h1, Nat.zero_add, Nat.add_mul_mod_self_left,
    Nat.mod_eq_of_lt h2]

/-- A field that lies apart from the one that was put in reads as before. -/
theorem bitsOf_putBits_other (n lo w v lo' w' : Nat) (h : lo' + w' ≤ lo ∨ lo + w ≤ lo') :
    bitsOf (putBits n lo w v) lo' w' = bitsOf n lo' w' := by
  unfold bitsOf
  apply Nat.eq_of_testBit_eq
  intro i
  simp only [Nat.testBit_mod_two_pow, Nat.testBit_div_two_pow]
  by_cases hi : i < w'
  · simp only [hi, decide_true, Bool.true_and]
    unfold putBits
    have h1 : n % 2 ^ lo < 2 ^ lo := Nat.mod_lt _ (Nat.two_pow_pos lo)
    have h2 : v % 2 ^ w < 2 ^ w := Nat.mod_lt _ (Nat.two_pow_pos w)
    have h3 : n % 2 ^ lo + v % 2 ^ w * 2 ^ lo + n / 2 ^ (lo + w) * 2 ^ (lo + w) =
        2 ^ lo * (2 ^ w * (n / 2 ^ (lo + w)) + v % 2 ^ w) + n % 2 ^ lo := by rw [Nat.pow_add]; ring
    rw [h3, Nat.testBit_two_pow_mul_add _ h1]
    rcases h with h | h
    · rw [if_pos (by omega), Nat.testBit_mod_two_pow]
      simp only [show i + lo' < lo by omega, decide_true, Bool.true_and]
    · rw [if_neg (by omega), Nat.testBit_two_pow_mul_add _ h2, if_neg (by omega), Nat.testBit_div_two_pow]
      congr 1; omega
  · simp [hi]

theorem putBits_lt (n lo w v m : Nat) (hn : n < 2 ^ m) (h : lo + w ≤ m) : putBits n lo w v < 2 ^ m := by
  apply Nat.lt_pow_two_of_testBit
  intro i hi
  have hb := bitsOf_putBits_other n lo w v i 1 (.inr (by omega))
  have h0 : bitsOf n i 1 = 0 := by
    unfold bitsOf
    rw [Nat.div_eq_of_lt (Nat.lt_of_lt_of_le hn (Nat.pow_le_pow_right (by decide) hi))]; rfl
  rw [h0] at hb
  unfold bitsOf at hb
  rw [Nat.testBit_eq_decide_div_mod_eq]
  simp_all

/-- A field of 24 bits or less of a unit word reads back what was written to it, modulo its width. -/
theorem rdF_wrF_same (s : State) (f : Fld) (v i off : Nat) (h : f.lo + f.w ≤ 24) : rdF (wrF s f v i off) f i off = v % 2 ^ f.w := by
  unfold rdF wrF
  rw [rdW_wrW_same, BitVec.toNat_ofNat, Nat.mod_eq_of_lt (putBits_lt _ _ _ _ _ (BitVec.isLt _) h), bitsOf_putBits_same]

/-- A field of another word reads as before. -/
theorem rdF_wrF_word (s : State) (f g : Fld) (v i off j o : Nat) (h : fAddr g j o ≠ fAddr f i off) :
    rdF (wrF s f v i off) g j o = rdF s g j o := by
  unfold rdF wrF; rw [rdW_wrW_other _ _ h]

/-- A field of the same word that lies apart reads as before. -/
theorem rdF_wrF_apart (s : State) (f g : Fld) (v i off j o : Nat) (ha : fAddr g j o = fAddr f i off) (h : f.lo + f.w ≤ 24)
    (hb : g.lo + g.w ≤ f.lo ∨ f.lo + f.w ≤ g.lo) : rdF (wrF s f v i off) g j o = rdF s g j o := by
  unfold rdF wrF
  rw [ha, rdW_wrW_same, BitVec.toNat_ofNat, Nat.mod_eq_of_lt (putBits_lt _ _ _ _ _ (BitVec.isLt _) h), bitsOf_putBits_other _ _ _ _ _ _ hb]

/-! ## Memory -/

/-- Memory's form depends on the memories alone. -/
theorem Memory.wf_congr {s t : State} (h1 : t.mpe.dram = s.mpe.dram) (h2 : t.data = s.data) (h3 : t.imem = s.imem)
    (h4 : t.shared = s.shared) (h5 : t.hst.mem = s.hst.mem) (h6 : t.hst.bus = s.hst.bus) (h8 : t.hst.store = s.hst.store)
    (h7 : t.log.tag = s.log.tag) :
    Memory.wf t = Memory.wf s := by
  unfold Memory.wf; rw [h1, h2, h3, h4, h5, h6, h8, h7]

theorem memory_setData (s : State) (e a : Nat) (v : Word) (h : Memory.wf s = true) : Memory.wf (setData s e a v) = true := by
  simp only [Memory.wf, Bool.and_eq_true] at h ⊢
  exact ⟨⟨⟨⟨⟨⟨⟨h.1.1.1.1.1.1.1, twf_tset _ _ _ _ h.1.1.1.1.1.1.2⟩, h.1.1.1.1.1.2⟩, h.1.1.1.1.2⟩, h.1.1.1.2⟩, h.1.1.2⟩, h.1.2⟩, h.2⟩

theorem memory_setImem (s : State) (e a : Nat) (v : Word) (h : Memory.wf s = true) : Memory.wf (setImem s e a v) = true := by
  simp only [Memory.wf, Bool.and_eq_true] at h ⊢
  exact ⟨⟨⟨⟨⟨⟨⟨h.1.1.1.1.1.1.1, h.1.1.1.1.1.1.2⟩, twf_tset _ _ _ _ h.1.1.1.1.1.2⟩, h.1.1.1.1.2⟩, h.1.1.1.2⟩, h.1.1.2⟩, h.1.2⟩, h.2⟩

theorem memory_setEng (s : State) (e : Nat) (g : Engine) : Memory.wf (setEng s e g) = Memory.wf s := rfl

theorem memory_watchHit (s : State) (l a : Nat) : Memory.wf (watchHit s l a) = Memory.wf s := by
  unfold watchHit
  generalize List.range 8 = ks
  induction ks generalizing s with
  | nil => rfl
  | cons k ks ih =>
    simp only [List.foldl_cons]
    rw [ih]; split <;> rfl

theorem memory_setShared (s : State) (l a : Nat) (v : Word) (h : Memory.wf s = true) : Memory.wf (setShared s l a v) = true := by
  unfold setShared
  rw [memory_watchHit]
  simp only [Memory.wf, Bool.and_eq_true] at h ⊢
  exact ⟨⟨⟨⟨⟨⟨⟨h.1.1.1.1.1.1.1, h.1.1.1.1.1.1.2⟩, h.1.1.1.1.1.2⟩, twf_tset _ _ _ _ h.1.1.1.1.2⟩, h.1.1.1.2⟩, h.1.1.2⟩, h.1.2⟩, h.2⟩

theorem memory_dramWrite (s : State) (a : Nat) (bs : List Byte) (h : Memory.wf s = true) : Memory.wf (dramWrite s a bs) = true := by
  simp only [Memory.wf, Bool.and_eq_true] at h ⊢
  exact ⟨⟨⟨⟨⟨⟨⟨twf_foldl_tset _ _ _ h.1.1.1.1.1.1.1, h.1.1.1.1.1.1.2⟩, h.1.1.1.1.1.2⟩, h.1.1.1.1.2⟩, h.1.1.1.2⟩, h.1.1.2⟩, h.1.2⟩, h.2⟩

theorem memory_putShared (s : State) (l a : Nat) (bs : List Byte) (h : Memory.wf s = true) : Memory.wf (putShared s l a bs) = true := by
  unfold putShared
  generalize ((packWords bs).mapIdx fun k w => (a + k, w)) = ps
  induction ps generalizing s with
  | nil => exact h
  | cons p ps ih => exact ih _ (memory_setShared _ _ _ _ h)

theorem memory_enterTrap (s : State) (e c d1 d2 skid drops : Nat) (h : Memory.wf s = true) :
    Memory.wf (enterTrap s e c d1 d2 skid drops) = true := by
  unfold enterTrap
  simp only [memory_setEng]
  exact memory_setData _ _ _ _ (memory_setData _ _ _ _ (memory_setData _ _ _ _ (memory_setData _ _ _ _
    (memory_setData _ _ _ _ (memory_setData _ _ _ _ h)))))

/-- The memory after reset has the form. -/
theorem memory_reset : Memory.wf State.reset = true := rfl

/-! ## The tables of AES -/

/-- The S-box's table holds what its definition gives, and the inverse table undoes it. -/
theorem sbox_eq : ∀ a < 256, sbox a = sboxOf a ∧ sboxInv (sbox a) = a := by decide +kernel

end Sys2Proof.Machine
end

