-- ==== Sys2Proof/Machine/HostWin.lean ====
section
/-! DEFINITION. BAR0 as the host reads it: the window's layout (R186, R192, R202, R205, R648). -/
namespace Sys2Proof.Machine

/-- MODSTATE: the power state, HALTED and RUN (R186). -/
def modState (s : State) : Nat := rdF s fPWR_STATE_CURS + 8 * b2n s.sys.halted + 16 * b2n s.sys.runState

/-- Register o of chain n as the host reads it; those it can only write read as zero (R192). -/
def chainRegister (s : State) (n o : Nat) : Nat :=
  let c := chain s n
  if o = 0x10 then c.st
  else if o = 0x14 then c.cur / 2 ^ 32
  else if o = 0x18 then c.cur % 2 ^ 32
  else if o = 0x1c then c.letters
  else 0

/-- Register o of host postbox n as the host reads it (R202). -/
def boxRegister (s : State) (n o : Nat) : Nat :=
  let head := ((boxOf s (0xf0 + n)).find? fun p => p.ready).map fun p => [p.msg.sender * 2 ^ 16 + p.msg.tag, p.msg.w1, p.msg.w2, p.msg.w3]
  if o = 0 then ready s (0xf0 + n)
  else if 4 ≤ o ∧ o ≤ 0x10 then (head.map fun l => 2 ^ 31 + l.getD ((o - 4) / 4) 0).getD 0
  else 0

/-- The MSI-X pending bits of entries 32 j to 32 j + 31 (R186). -/
def pendingWord (s : State) (j : Nat) : Nat :=
  if j = 0 then (List.range 32).foldl (fun n v => n + b2n (tget (fun _ => false) s.hst.msixPend v) * 2 ^ v) 0 else 0

/-- What an aligned 32-bit read of BAR0 at byte offset o returns, without what the read itself changes: zero at an offset that is not listed (R186). A
slot of the result area has its own command (R180). -/
def windowRead (s : State) (o : Nat) : Nat :=
  if o = 0 then modState s
  else if 0x1000 ≤ o ∧ o < 0x1800 then chainRegister s ((o - 0x1000) / 256) (o % 256)
  else if 0x2000 ≤ o ∧ o < 0x2800 then boxRegister s ((o - 0x2000) / 256) (o % 256)
  else if 0x8000 ≤ o ∧ o < 0x8040 then tget (fun _ => 0) s.hst.page (o - 0x8000)
  else if 0x9000 ≤ o ∧ o < 0x9020 then ofBytes (bytesAt (latchBytes s.log.hostLatch) (o - 0x9000) 4)
  else if 0x10000 ≤ o ∧ o < 0x10200 then
    (if o % 16 = 12 then b2n (!tget (fun _ => false) s.hst.unmasked ((o - 0x10000) / 16))
     else tget (fun _ => 0) s.hst.table ((o - 0x10000) / 4))
  else if 0x10800 ≤ o ∧ o < 0x10808 then pendingWord s ((o - 0x10800) / 4)
  else 0

/-- What the host reads of BAR2, the letter store, at byte offset o (R187). -/
def storeRead (s : State) (o : Nat) : Nat := if o < 2 ^ 20 then tget (fun _ => 0) s.hst.store (o / 4) else 0

end Sys2Proof.Machine
end

