-- ==== Sys2Proof/Tests/Slice0.lean ====
section
/-! SUPPORT. Tests: what WellFormed refuses, words of BJ-24 written out from the chapter's encodings, one step of commands against values
worked out by hand from the spec, and for every statement with hypotheses states and operands that meet them, clause by clause. -/
set_option Elab.async false

namespace Sys2Proof.Machine

/-! ## Small states -/

/-- A module that has started up, every unit word at its reset value. -/
def wUp : State := { State.reset with sys := { State.reset.sys with phase := .running, runState := true, crystal := true } }

/-- Instance i of unit u reads ACTIVE. -/
def wOn (s : State) (u i : Nat) : State := wrC s fCOMMON_USTAT_STATE u i 1

/-- Engine 0 changed. -/
def wEng (s : State) (f : Engine → Engine) : State := setEng s 0 (f (eng s 0))

/-- Engine 0 with g1 to g6 holding the given words. -/
def wRegs (s : State) (l : List Word) : State := wEng s fun g => { g with regs := l.zipIdx.map fun x => (x.2 + 1, x.1) }

/-- Engine 0 has a SET on its way. -/
def wSet (s : State) (a : Nat) (v : Word) : State := wEng s fun g => { g with posted := [⟨false, a, v, 0⟩] }

/-- Engine 0's SET is accepted, and p holds then. -/
def wTakes (s : State) (a : Nat) (v : Word) (p : State → Bool) : Bool := (accept (wSet s a v) 0 false a v).any p

/-- Engine 0 waits for the answer to a GET into g1. -/
def wGet (s : State) (a : Nat) : State := wEng s fun g => { g with get := some (1, a) }

/-- A command answers a next state of which p holds. -/
def wNext (o : Out) (p : State → Bool := fun _ => true) : Bool :=
  match o with
  | .next t => p t
  | _ => false

/-- A frame of 64 zero bytes. -/
def wFrame : Frame := { sentFrame 0 (eng wUp 0) with bytes := List.replicate 64 0 }

/-- An installed transmit context of channel 0, AN 1. -/
def wSa : Sa :=
  { tx := true, ch := 0, an := 1, slot := 1, key := 0, len := 16, pn := 1, low := 1, ssci := 0, salt := 0, unusable := false, retain := false, retAt := 0, fresh := false,
    first := false, thresh := false, exh := false, resident := false, order := 0, seen := 0, mir := false }

/-- The module with contexts as given. -/
def wSas (l : List (Nat × Option Sa)) : State := { wUp with msec := { wUp.msec with sa := l } }

/-- A selection of wFrame at a MAC. -/
def wSel : Sel :=
  { frame := wFrame, bytes := List.replicate 200 0, off := 0, ready := false, cls := 7, stomp := 0, icv := false, cut := none, queue := 0, charged := 0,
    comm := 0, mark := now wUp, overrun := false }

/-- The pair runs in the given role. -/
def wRole (r : Nat) : State := wrF (wOn wUp 0x17 0) fPAIR_PSTAT_ROLE r

/-- A frame inside the module at a stage, bound for dest. -/
def wFlight (stage : Nat) (d : Dest) : Flight :=
  { id := 1, stage := stage, frame := wFrame, ended := true, bad := 0, icv := .none, dest := d, port := none, rxLen := 64, decided := true, cls := 0,
    prot := false, of_ := none }

/-- The module with one frame inside it. -/
def wFly (stage : Nat) (d : Dest) : State := { wUp with flights := [wFlight stage d] }

/-- Port 0 up, with one frame that stands in queue 0 below it. -/
def wServe : State :=
  let s := wrF (wOn (wOn (wOn (wrF wUp fLANE_GMODE_MODE 1 0) 7 0) 8 0) 0x0e 0) fLANE_LSTAT_LINKUP 1 0
  { wrF s fMAC_GSTAT_GATES 255 0 with
    qm := { s.qm with queues := [(0, { queueReset with frames := [⟨wFrame, 1, 0, none, 0⟩] })] }
    sch := { s.sch with sq := [(0, { nodeReset with att := true })], sb := [(0, { nodeReset with att := true })],
                        sv := [(0, { nodeReset with att := true })] } }

/-- p holds of s: what a witness says of its one state. -/
def wHas (s : State) (p : State → Prop) [DecidablePred p] : Bool := decide (p s)

/-- Engine e executes an instruction of `size` words with the listed registers. -/
def wRuns (s : State) (e : Eng) (size : Nat) (uses : List Reg) : Bool :=
  able s e && !(eng s e).step && !(eng s e).past && !sampleDue s e && !((eng s e).noted.any fun x => decide (12 ≤ x.2)) &&
    decide ((eng s e).pc.toNat + size ≤ 0x8000) && !(uses.any fun r => loading (eng s e) r)

/-- That is the premise of the statements about instructions. -/
theorem wRuns_iff (s : State) (e : Eng) (size : Nat) (uses : List Reg) : wRuns s e size uses = true ↔ Runs s e size uses := by
  simp [wRuns, Runs, and_assoc]

/-- Engine 0 at user level. -/
def wUser (s : State) : State := wEng s fun g => { g with kp := false }

/-- The memories run. -/
def wMem : State := { wUp with mpe := { wUp.mpe with keys := true } }

/-- Queue 1 stands below allocation 0 of channel 0, and the other three queues of its four stand nowhere. -/
def wPon1 : State := { wUp with sch := { wUp.sch with
  sq := [(1, { nodeReset with att := true })], sb := [(0, { nodeReset with att := true })], sv := [(0, { nodeReset with att := true, parent := 32 })] } }

/-- A signed image with one empty section (R123). Its signature is (z, z) for the SHA-384 z of what stands before it, and the signer's key is
the point with that x less the base point, so that both multipliers of the check are 1. -/
def wImage : List Byte :=
  let z := 0x2005b743540f4b76c794bfc954a58fc07c3f4365a5a75ecd311d144e026aff6a612edb0eab0320c7569adeac36e396a8
  toBytes 16 0x5447494d00010001000000b000000002 ++ List.replicate 64 0 ++ toBytes 48 z ++ toBytes 48 z

/-- The record of that image's signer. -/
def wSigner : List Byte :=
  toBytes 48 0x60f62fa0fceb9548f4a0baddceed576314938ffa68729fd7edd70f809b3417b3a017f547346784c1d027ae82a69df6a7 ++
  toBytes 48 0xb9be47465b7553dd415f2c38660c2ca51af49be47e97bfb34630d276c14dc0fe644dc5528b75e5c3ac19a3502fd4fd5 ++ List.replicate 32 0

/-- Start-up in a phase, n ticks after power-on. -/
def wPhase (p : Phase) (n : Nat) : State := { wUp with sys := { wUp.sys with phase := p, ticks := n } }

/-- Step 5 of start-up with the image in slot 0, and what training and the drawn keys make of it. -/
def wTraining : State :=
  wrF { wPhase .training 0 with sys := { wUp.sys with phase := .training, slots := [(0, ⟨true, wImage, wSigner⟩)] } } fKEY_RNGSTAT_READY 1

/-- The module with every DRAM channel trained and the memory keys drawn. -/
def wTrained (s : State) : State :=
  (List.range 32).foldl (fun s c => trained (wrF s fMEM_CHSTAT_TRAINOK 1 0 c) c)
    ((List.range 17).foldl drawMemKeys { s with mpe := { s.mpe with keys := true } })

/-- The PCIe link is up, HST reads ACTIVE, and every chain is enabled for every kind of letter. -/
def wHost : State :=
  let s := wOn wUp 3 0
  (List.range 8).foldl (fun s n => wrF (wrF s fHST_CHCTL_EN 1 0 (2 * n)) fHST_CHCTL_KINDS 15 0 (2 * n)) { s with hst := { s.hst with rate := 5, width := 4 } }

/-- Chain n changed. -/
def wChain (s : State) (n : Nat) (f : Chain → Chain) : State := setChain s n (f (chain s n))

/-- A letter of 16 words: its first word, then zeros. -/
def wLetter (w : Nat) : List Nat := w :: List.replicate 15 0

/-- A full store: a resident receive context 0, 2,559 resident contexts of the first rank, and context 4095 as given. -/
def wFull (x : Sa) : State :=
  let s := wSas ((0, some { wSa with tx := false, resident := true, seen := 4 }) ::
    (List.range 2559).map (fun k => (k + 1, some { wSa with resident := true })) ++ [(4095, some x)])
  { s with msec := { s.msec with tx := [(0, { txReset with enable := true, cur := some 1 })] } }

/-- PON channel c as given, its slot and its instance ACTIVE. -/
def wPon (c : Nat) (x : PonCh) : State := { wOn (wOn wUp 4 c) 5 c with pon := [(c, x)] }

/-- A burst of a grant of 1,000 bytes. -/
def wBurst : Burst :=
  { grant := ⟨none, 3, 1000, false, true, 0, 0⟩, start := 0, openAt := 0, head := [], fec := false, key := 0, super := 0, sent := [], free := 1000,
    ploam := none, report := none }

/-- n ticks after power-on. -/
def wAt (n : Nat) (s : State) : State := { s with sys := { s.sys with ticks := n } }

/-- A broadcast PLOAM message without its MIC. -/
def wPloam : List Byte := toBytes 2 0x3ff ++ List.replicate 38 0

/-- That message with its MIC, the AES-CMAC under the default key as OpenSSL gives it. -/
def wMessage : List Byte := wPloam ++ toBytes 8 0x4921d19371d7b4fb

/-- A grant at channel 3 with the given PLOAMs queued, at a response time of 0. -/
def wDue (l : List (List Byte)) : State :=
  { wOn (wOn { wUp with words := [(fAddr fPON_RSPT_T 3 0, 0)] } 4 3) 5 3 with pon := [(3, { ponReset with grants := [wBurst.grant], ploams := l })] }

/-- Profile 3 of channel 3 is valid, at the rate in use. -/
def wProfile (s : State) : State := wrF (wrF s fPON_BPROF_VALID 1 3 24) fOPT_OCFG_RATE (rdF s fPON_BPROF_RATE 3 24) 3

/-- Port 0 at 25G with its link up, its lane and its MAC ACTIVE. -/
def wPort : State := wrF (wOn (wOn (wrF wUp fLANE_GMODE_MODE 1 0) 7 0) 8 0) fLANE_LSTAT_LINKUP 1 0

/-- Port 0's MAC as given. -/
def wMac (m : MacP) : State := { wPort with mac := [(0, m)] }

/-- SBUS with a frame as given, its clock running. -/
def wSbus (x : SbusTx) : State := { wOn wMem 9 0 with sbus := { wUp.sbus with tx := some x } }

/-- A frame of 60 bytes of zeros and its FCS. -/
def wSealed : List Byte := List.replicate 60 0 ++ fcsOf (List.replicate 60 0)

/-- A broadcast of 60 bytes and its FCS. -/
def wCast : List Byte := let b := List.replicate 6 255 ++ List.replicate 54 0; b ++ fcsOf b

/-- CLS runs, with one frame to search and one row that matches every frame and has the given action. -/
def wCls (act : Nat) : State :=
  { wOn wUp 0x0b 0 with flights := [wFlight 0 .none], cls := { wUp.cls with rows0 := [(65535, { rowReset with valid := true, act := act })] } }

/-- CHK of lantern 0 is asked for operation op under slot 1, which holds x. -/
def wChk (op : Nat) (x : KeySlot) : State := { wrF (wrF wUp fCHK_COP_OP op 0) fCHK_CSLOT_SLOT 1 0 with slots := [(1, { x with valid := true })] }

/-- The key-wrapping key 000102…0F of RFC 3394 in a slot that wraps and unwraps. -/
def wKek : KeySlot := { slotReset with cls := 2, key := 0x000102030405060708090a0b0c0d0e0f * 2 ^ 128 }

/-- What RFC 3394, 4.1, gives for the key 00112233…FF under it. -/
def wWrapped : List Byte := toBytes 24 0x1fa68b0a8112b447aef34bd8fb5a7b829d3e862371d2cfe5

/-- The module with fuses as given. -/
def wFuse (f : FuseSt → FuseSt) : State := { wUp with fuse := f wUp.fuse }

/-- A sleep entry to S2 with one flow whose pool holds an engine to be gated and one that stays on. -/
def wClear (s : State) : State :=
  wrF (wrF (wrF { s with
      pwr := { s.pwr with run := some 1 }
      plc := { s.plc with flow := [(131071, some 8)] }
      flow := { s.flow with recs := [(131071, { flowReset with valid := true, progen := true })] } }
    fPWR_STATE_TGTS 2) fPWR_GATE_LANTERNS 1) fPLC_POOL_ENGINES 0x101

/-- TJ has shown t. -/
def wHot (t : Nat) : State := result wUp fPWR_TJ_T t

/-- What a reading of 114.9 degrees makes of a forced module. -/
def wReleased (s : State) : State := emit1 (wrF (result s fPWR_TJ_T 1149) fPWR_STATE_FORCED 0) 0x580021 (rdF (result s fPWR_TJ_T 1149) fPWR_LEVEL_REQ)

/-- MATE_ACT_IN stands high. -/
def wPact (s : State) : State := wrF s fPAIR_PSTAT_PACT 1

/-- The link of pair port 33 is up. -/
def wPair33 (s : State) : State := wrF s fLANE_LSTAT_LINKUP 1 33

/-- A message of the partner waits for its postbox. -/
def wInbox (s : State) : State := { s with pair := { s.pair with inbox := [(⟨0xd7, 1, 2, 3, 4⟩, 0)] } }

/-- Faults told to FLT. -/
def wTold (l : List FaultIn) : State := { wUp with flt := { wUp.flt with raised := l } }

/-- An event of LANE. -/
def wEv : Ev := ⟨0x1c0011, 0, 0, 0, now wUp, false⟩

/-- CNT may write all of the data space's first granules. -/
def wCnt (s : State) : State :=
  { s with mpe := { s.mpe with keys := true, rights := [(4 * cntMaster, ⟨0, 2 ^ 20, true, true⟩)] } }

/-- A frame of 64 bytes offered to the capture ring, whose size is one unit. -/
def wOffer (s : State) : State :=
  { wrF s fCNT_CSIZE_U 1 with cnt := { s.cnt with offers := [⟨false, false, false, 0, 64, now wUp, 0, List.replicate 64 0, none⟩] } }

/-- Link l under test, its generator and its checker on. -/
def wTest (l : Nat) : State := wrF (wrF (wrF wUp fTST_TSTAT_ACTIVE 1 l) fTST_TCFG_GEN 1 l) fTST_TCFG_CHK 1 l

/-! ## Premises of the statements, each with states and operands that meet them together -/

/-- The fuses of a module that runs are in order, and a step answers. -/
theorem witness_NoFuseIsEverUnblown : FuseInOrder wUp.fuse ∧ wNext (step { wUp with pending := [.nop 0] }) = true :=
  ⟨⟨by decide, fun _ _ => rfl, fun _ h => by cases h⟩, by decide +kernel⟩

/-- A halted module with a command that is none of the three. -/
theorem witness_AHaltIsLeftOnlyByAReset : { wUp with sys := { wUp.sys with halted := true }, pending := [.nop 0] }.sys.halted = true ∧
    (∀ low takes, ([Instr.nop 0] : List Instr).head? ≠ some (.rstNReset low takes)) ∧ ([Instr.nop 0] : List Instr).head? ≠ some .collapse ∧
    (∀ a b good, ([Instr.nop 0] : List Instr).head? ≠ some (.powerOn a b good)) ∧
    wNext (step { wUp with sys := { wUp.sys with halted := true }, pending := [.nop 0] }) = true ∧ (bjRun 0 (encR 0x3e 0 0 0 0) 0).isSome = true :=
  ⟨rfl, by simp, by simp, by simp, by decide +kernel, by decide⟩

/-- For EveryEncodingRunsItsInstruction: the register pairs and sizes at their bounds. -/
theorem witness_EveryEncodingRunsItsInstruction : pairOk 2 = true ∧ pairOk 14 = true ∧ pairOk 3 = false ∧ pairOk 0 = false ∧ (3 : Fin 4) ≠ 0 := by
  decide

/-- For IllegalEncodingsRunNothing: a word of each kind it lists, at the first values past the assigned ones. -/
theorem witness_IllegalEncodingsRunNothing : bjRun 0 0 0 = none ∧ bjRun 0 (encR 0x01 1 2 3 0x19) 0 = none ∧
    bjRun 0 (encR 0x01 1 2 1 0x17) 0 = none ∧ bjRun 0 (encR 0x1a 0 0 0 4) 0 = none ∧ bjRun 0 (encR 0x1a 0 0 1 2) 0 = none ∧
    bjRun 0 (encR 0x3e 0 0 0 5) 0 = none ∧ bjRun 0 (encR 0x3e 1 0 0 0) 0 = none ∧ bjRun 0 (encR 0x3e 0 1 0 1) 0 = none ∧
    bjRun 0 (wd (0x30 * 262144 + 19 * 8192)) 0 = none ∧ bjRun 0 (encI 0x06 1 2 0x20) 0 = none ∧ bjRun 0 (encI 0x08 1 0 1) 0 = none ∧
    bjRun 0 (encI 0x09 1 2 (24 * 32)) 0 = none ∧ bjRun 0 (encR 0x12 1 2 3 1) 0 = none ∧ bjRun 0 (encR 0x20 1 2 0 0) 0 = none ∧
    bjRun 0 (encR 0x20 1 3 0 1) 0 = none ∧ bjRun 0 (encR 0x22 1 2 3 0) 0 = none ∧ bjRun 0 (encR 0x24 0 0 0 1) 0 = none ∧
    bjRun 0 (encR 0x28 1 2 3 0) 0 = none ∧ bjRun 0 (encR 0x29 1 2 3 0) 0 = none ∧ bjRun 0 (encR 0x2a 0 1 1 0) 0 = none ∧
    bjRun 0 (encR 0x2c 0 0 0 4) 0 = none ∧ bjRun 0 (encR 0x2d 0 0 1 0) 0 = none ∧ bjRun 0 (wd (0x31 * 262144 + 32768)) 0 = none ∧
    bjRun 0 (encI 0x39 0 0 16) 0 = none ∧ bjRun 0 (encI 0x3c 1 0 0) 0 = none ∧ bjRun 0 (encR 0x3a 0 0 0 2) 0 = none ∧
    bjRun 0 (encR 0x3a 0 3 0 0) 0 = none ∧ bjRun 0 (encR 0x3a 0 1 0 1) 0 = none := by decide

/-! ### Engines -/

/-- Memory in canonical form with a word stored, and a step that answers. -/
theorem witness_EveryStepKeepsMemoryCanonical :
    wHas { wRegs wUp [1] with data := [(5, 7)], pending := [.st 0 1 2 0] } fun s => Memory.wf s ∧ wNext (step s) := by
  decide +kernel

/-- For SumsAndDifferencesSetFourFlags, LogicProductsAndChoices and ShiftsCarryTheLastBitOut: an engine that executes, the last word of
its memory, and shift amounts 24 and 31. -/
theorem witness_SumsAndDifferencesSetFourFlags :
    (wHas (wRegs wUp [0x7fffff, 24, 31]) fun s => wRuns s 0 1 [1, 2, 3] ∧ wRuns s 0 1 [1, 2]) ∧
    (wHas (wEng wUp fun g => { g with pc := 0x7fff }) fun s => wRuns s 0 1 [1, 2, 3] ∧ wRuns s 0 2 [] = false) := by
  decide +kernel

/-- The overflow, and a zero divisor with TIP clear and no load outstanding. -/
theorem witness_DivisionsRoundTowardZeroOrTrap :
    (wHas (wRegs wUp [0x800000, 0xffffff]) fun s => wRuns s 0 1 [4, 1, 2] ∧ reg (eng s 0) 2 ≠ 0) ∧
    (wHas (wRegs wUp [0x800000, 0]) fun s => wRuns s 0 1 [4, 1, 2] ∧ reg (eng s 0) 2 = 0 ∧ (eng s 0).tip = false ∧ loadsOut (eng s 0) = false) := by
  decide +kernel

/-- Each level, and an instruction of two words at the last place it has. -/
theorem witness_FieldsConstantsAndSystemRegisters :
    (wHas (wUser wUp) fun s => wRuns s 0 1 [1] ∧ (eng s 0).kp = false ∧ (eng s 0).tip = false ∧ loadsOut (eng s 0) = false) ∧
    (wHas wUp fun s => wRuns s 0 1 [1, 2] ∧ (eng s 0).kp = true) ∧
    (wHas (wEng wUp fun g => { g with pc := 0x7ffe }) fun s => wRuns s 0 2 [15]) := by
  decide +kernel

/-- A condition that does not hold, the last target, and the first past it. -/
theorem witness_BranchesJumpsAndCalls :
    (wHas wUp fun s => wRuns s 0 1 [] ∧ condHolds (eng s 0) 1 = false) ∧
    (wHas (wEng wUp fun g => { g with pc := 0x7ffe }) fun s => wRuns s 0 1 [] ∧ condHolds (eng s 0) 0 ∧
      ((eng s 0).pc + (1 : BitVec 13).signExtend 24).toNat = 0x7fff) ∧
    (wHas (wEng wUp fun g => { g with pc := 0x7fff }) fun s => wRuns s 0 1 [] ∧ condHolds (eng s 0) 0 ∧
      0x7fff < ((eng s 0).pc + (1 : BitVec 13).signExtend 24).toNat ∧
      (eng s 0).tip = false ∧ loadsOut (eng s 0) = false) ∧
    (wHas wUp fun s => wRuns s 0 1 [15, 1, 2]) := by
  decide +kernel

/-- Each range at its ends, with IMM10 zero or one. -/
theorem witness_NearLoadsFollowTheAddressMap :
    (wHas (wRegs wUp [0x7ffe]) fun s => wRuns s 0 1 [2, 1] ∧ (reg (eng s 0) 1 + (1 : BitVec 10).signExtend 24).toNat = 0x7fff ∧
      (eng s 0).tip = false ∧ loadsOut (eng s 0) = false) ∧
    (wHas (wRegs wUp [0x17fff]) fun s => wRuns s 0 1 [2, 1] ∧ (reg (eng s 0) 1).toNat = 0x17fff ∧ (eng s 0).kp) ∧
    (wHas (wRegs wUp [0x20fff]) fun s => wRuns s 0 1 [2, 1] ∧ notArrived (eng s 0) (3 * ((reg (eng s 0) 1).toNat - 0x20000)) 3 = false) ∧
    (wHas (wRegs wUp [0x2103f, 0xfffff]) fun s => wRuns s 0 1 [3, 1] ∧ wRuns s 0 1 [3, 2] ∧ inBlock (eng s 0) (reg (eng s 0) 2).toNat = false) ∧
    (wHas (wEng (wRegs wUp [0x20001]) fun g => { g with win := { idleWin with idle := false, len := 14, got := 5, full := 14 } }) fun s =>
      wRuns s 0 1 [2, 1] ∧
      notArrived (eng s 0) (3 * ((reg (eng s 0) 1).toNat - 0x20000)) 3) ∧
    (wHas (wEng (wRegs wUp [0x80015]) fun g => { g with far := [⟨0, .blockLoad 0x80000, 0, 64, [], false⟩] }) fun s => wRuns s 0 1 [2, 1] ∧
      inBlock (eng s 0) (reg (eng s 0) 1).toNat) ∧
    (wHas (wUser (wRegs wUp [0x10000])) fun s => wRuns s 0 1 [2, 1] ∧ (eng s 0).kp = false ∧ (eng s 0).tip = false ∧ loadsOut (eng s 0) = false) ∧
    (wHas (wRegs wUp [0x21040, 0x100000]) fun s => wRuns s 0 1 [3, 1] ∧ wRuns s 0 1 [3, 2] ∧ (eng s 0).tip = false ∧ loadsOut (eng s 0) = false) := by
  decide +kernel

/-- The last words each level may store to, the first it may not, and the accesses that stall. -/
theorem witness_StoresChangeOneWord :
    (wHas (wRegs wUp [0x7fff, 0x2103f]) fun s => wRuns s 0 1 [3, 1] ∧ (eng s 0).kp ∧ nearStall (eng s 0) 0x7fff = false ∧
      nearStall (eng s 0) 0x2103f = false) ∧
    (wHas (wUser (wRegs wUp [0x7ff8, 0x7ff7])) fun s => wRuns s 0 1 [3, 1] ∧ (eng s 0).kp = false ∧ (eng s 0).tip = false ∧
      loadsOut (eng s 0) = false ∧
      nearStall (eng s 0) 0x7ff7 = false) ∧
    (wHas (wRegs wUp [0x8000, 0x10000]) fun s => wRuns s 0 1 [3, 1] ∧ wRuns s 0 1 [3, 2] ∧ (eng s 0).tip = false ∧ loadsOut (eng s 0) = false) ∧
    (wHas (wEng (wRegs wUp [0x80015, 0x80016]) fun g => { g with far := [⟨0, .blockLoad 0x80000, 0, 64, [], false⟩] }) fun s => wRuns s 0 1 [3, 1] ∧
      wRuns s 0 1 [3, 1, 2] ∧ nearStall (eng s 0) 0x80015 ∧ inBlock (eng s 0) 0x80015 ∧ inBlock (eng s 0) 0x80016 = false) ∧
    (wHas (wRegs wUp [0x7ff7, 0x7ff8]) fun s => wRuns s 0 1 [3, 1, 2] ∧ dataW s 0 0x7ff7 = reg (eng s 0) 3 ∧ dataW s 0 0x7ff7 ≠ reg (eng s 0) 1 ∧
      (eng s 0).tip = false ∧ loadsOut (eng s 0) = false) := by
  decide +kernel

/-- The last span of the window, the first beyond it, and bytes that have not arrived. -/
theorem witness_WindowBytesLoadAndStore :
    (wHas (wRegs wUp [12285]) fun s => wRuns s 0 1 [2, 1] ∧ (reg (eng s 0) 1).toNat + 3 ≤ 12288 ∧ notArrived (eng s 0) 12285 3 = false) ∧
    (wHas (wRegs wUp [12286]) fun s => wRuns s 0 1 [2, 1] ∧ 12288 < (reg (eng s 0) 1).toNat + 3 ∧ (eng s 0).tip = false ∧
      loadsOut (eng s 0) = false) ∧
    (wHas (wEng (wRegs wUp [1]) fun g => { g with win := { idleWin with idle := false, len := 14, got := 3, full := 14 } }) fun s =>
      wRuns s 0 1 [2, 1] ∧
      notArrived (eng s 0) 1 3 ∧ notArrived (eng s 0) 1 2 = false) := by
  decide +kernel

/-- A frame to take, an empty queue, a window that is sent, dropped and adjusted at its bounds, and an idle one. -/
theorem witness_FramesPassThroughTheWindow :
    (wHas (wEng wUp fun g => { g with frames := [wFrame], arrived := true }) fun s => wRuns s 0 1 [] ∧ (eng s 0).win.idle ∧ (eng s 0).arrived ∧
      (eng s 0).frames ≠ []) ∧
    (wHas (wRegs wUp [14]) fun s => wRuns s 0 1 [] ∧ wRuns s 0 1 [1] ∧ (eng s 0).frames = [] ∧ (eng s 0).win.idle ∧ live s) ∧
    (wHas (wEng (wRegs wUp [0x002fc0, 0xffffce, 0x002fc1, 0xffffcd]) fun g =>
      { g with win := { g.win with idle := false, len := 64, queue := 5 } }) fun s =>
      wRuns s 0 1 [] ∧ (eng s 0).win.idle = false ∧ (sendDest s (eng s 0).win.queue (eng s 0).win.hash).isSome ∧ wRuns s 0 1 [1] ∧ wRuns s 0 1 [2] ∧
      wRuns s 0 1 [3] ∧ wRuns s 0 1 [4] ∧ (64 : Int) + (reg (eng s 0) 1).toInt ≤ 12288 ∧ 12288 < (64 : Int) + (reg (eng s 0) 3).toInt ∧
      14 ≤ (64 : Int) + (reg (eng s 0) 2).toInt ∧ (64 : Int) + (reg (eng s 0) 4).toInt < 14) ∧
    (wHas (wEng wPon1 fun g => { g with win := { g.win with idle := false, len := 64, queue := 0 } }) fun s => wRuns s 0 1 [] ∧
      (eng s 0).win.idle = false ∧
      sendDest s (eng s 0).win.queue (eng s 0).win.hash = none) := by
  decide +kernel

/-- The last byte of a line and of the data space, one past each, a refused granule, FENCE with and without accesses outstanding, turns,
and a register that is being loaded. -/
theorem witness_FarAccessesIssueCheckAndComplete :
    (wHas (wRegs wUp [0, 0, 0x3d]) fun s => wRuns s 0 1 [1, 2, 3] ∧ pairOk 2 ∧ pairVal (eng s 0) 2 % 64 + 3 ≤ 64 ∧
      pairVal (eng s 0) 2 + 3 ≤ dataSpace ∧
      (eng s 0).far.length < 8 ∧ refusedByte s 0 (pairVal (eng s 0) 2) 3 false = none) ∧
    (wHas (wEng (wRegs wUp [0, 0, 0x40]) fun g => g) fun s => wRuns s 0 1 [1, 2, 3] ∧ refusedByte s 0 (pairVal (eng s 0) 2) 3 true = none ∧
      (eng s 0).far.length < 8 ∧
      pairVal (eng s 0) 2 % 64 + 3 ≤ 64) ∧
    (wHas (wRegs wUp [0, 0, 0x3e]) fun s => wRuns s 0 1 [1, 2, 3] ∧ pairOk 2 ∧ 64 < pairVal (eng s 0) 2 % 64 + 3 ∧ (eng s 0).tip = false ∧
      loadsOut (eng s 0) = false) ∧
    (wHas (wRegs wUp [0, wd (dataSpace / 2 ^ 24), wd dataSpace]) fun s => wRuns s 0 1 [1, 2, 3] ∧ pairVal (eng s 0) 2 % 64 + 3 ≤ 64 ∧
      dataSpace < pairVal (eng s 0) 2 + 3 ∧ (eng s 0).tip = false ∧ loadsOut (eng s 0) = false) ∧
    (wHas (wUser (wRegs wUp [0, 0, 0])) fun s => wRuns s 0 1 [1, 2, 3] ∧ (refusedByte s 1 (pairVal (eng s 0) 2) 3 false).isSome ∧
      (refusedByte s 1 (pairVal (eng s 0) 2) 3 true).isSome ∧ (eng s 0).tip = false ∧ loadsOut (eng s 0) = false) ∧
    (wHas (wRegs wUp [wd (0x100000 - blockWords 64), 0, 0]) fun s => wRuns s 0 1 [2, 3, 1] ∧ pairVal (eng s 0) 2 % 64 = 0 ∧
      0x80000 ≤ (reg (eng s 0) 1).toNat ∧
      (reg (eng s 0) 1).toNat + blockWords 64 ≤ 0x100000 ∧ (eng s 0).far.length < 8 ∧ refusedByte s 0 0 64 false = none ∧
      refusedByte s 0 0 64 true = none) ∧
    (wHas (wRegs wUp [wd (0x100001 - blockWords 64), 0, 0]) fun s => wRuns s 0 1 [2, 3, 1] ∧ refusedByte s 0 0 64 false = none ∧
      0x100000 < (reg (eng s 0) 1).toNat + blockWords 64 ∧ (eng s 0).tip = false ∧ loadsOut (eng s 0) = false) ∧
    (wHas (wRegs wUp [0x80000, 0, 1]) fun s => wRuns s 0 1 [2, 3, 1] ∧ pairVal (eng s 0) 2 % 64 ≠ 0 ∧ (eng s 0).tip = false ∧
      loadsOut (eng s 0) = false) ∧
    (wHas (wRegs wUp [0x80000, wd (dataSpace / 2 ^ 24), wd dataSpace]) fun s => wRuns s 0 1 [2, 3, 1] ∧ pairVal (eng s 0) 2 % 64 = 0 ∧
      dataSpace < pairVal (eng s 0) 2 + 64 ∧ (eng s 0).tip = false) ∧
    (wHas (wUser (wRegs wUp [0x80000, 0, 0])) fun s => wRuns s 0 1 [2, 3, 1] ∧ (refusedByte s 1 0 64 false).isSome ∧
      (refusedByte s 1 0 64 true).isSome ∧
      (eng s 0).tip = false ∧ loadsOut (eng s 0) = false) ∧
    (wHas wUp fun s => wRuns s 0 1 [] ∧ (eng s 0).far = [] ∧ (eng s 0).posted = []) ∧
    (wHas (wSet wUp 0 0) fun s => wRuns s 0 1 [] ∧ (eng s 0).posted ≠ []) ∧
    (wHas (wEng wMem fun g => { g with far := [⟨7, .load 1, 0, 3, [], false⟩] }) fun s => live s ∧ memRuns s ∧ farHeld s 0 7 = false ∧
      farTurn (eng s 0) 7 = some ⟨7, .load 1, 0, 3, [], false⟩) ∧
    (wHas (wEng wMem fun g => { g with far := [⟨7, .store, 0, 3, [], true⟩] }) fun s => live s ∧ memRuns s ∧ farHeld s 0 7 = false ∧
      farTurn (eng s 0) 7 = some ⟨7, .store, 0, 3, [], true⟩) ∧
    (wHas (wEng wMem fun g => { g with far := [⟨7, .blockLoad 0x80000, 0, 64, [], false⟩] }) fun s => live s ∧ memRuns s ∧ farHeld s 0 7 = false ∧
      (farTurn (eng s 0) 7).isSome) ∧
    (wHas (wEng { wMem with mpe := { wMem.mpe with allWritten := true } } fun g =>
      { g with far := [⟨7, .blockStore 0x80000, 0, 64, [], false⟩] }) fun s =>
      live s ∧ memRuns s ∧ farHeld s 0 7 = false ∧ (farTurn (eng s 0) 7).isSome ∧ rangeWritten s 0 64) ∧
    (wHas (wEng wUp fun g => { g with far := [⟨0, .load 1, 0, 3, [], false⟩] }) fun s => able s 0 ∧ sampleDue s 0 = false ∧ (eng s 0).past = false ∧
      ((eng s 0).noted.any fun x => decide (12 ≤ x.2)) = false ∧ loading (eng s 0) 1) := by
  decide +kernel

/-- A word that exists and one that does not, 15 and 16 unaccepted SETs, a keeper word at user level, and answers that come ready and not
ready. -/
theorem witness_UnitAccessesLeaveTheEngine :
    (wHas (wEng (wRegs wUp [4, wd (fAddr fPWR_LEVEL_REQ 0 0)]) fun g => { g with posted := List.replicate 15 ⟨false, 0, 0, 0⟩ }) fun s =>
      wRuns s 0 1 [1, 2] ∧
      wordExists (reg (eng s 0) 2).toNat ∧ (eng s 0).kp ∧ (eng s 0).posted.length < 16 ∧ wordExists ((reg (eng s 0) 2).toNat / 1024 * 1024)) ∧
    (wHas (wEng (wRegs wUp [4, wd (fAddr fPWR_LEVEL_REQ 0 0)]) fun g => { g with posted := List.replicate 16 ⟨false, 0, 0, 0⟩ }) fun s =>
      wRuns s 0 1 [1, 2] ∧
      wordExists (reg (eng s 0) 2).toNat ∧ (eng s 0).kp ∧ 16 ≤ (eng s 0).posted.length) ∧
    (wHas (wRegs wUp [4, 0xffffff]) fun s => wRuns s 0 1 [1, 2] ∧ wordExists (reg (eng s 0) 2).toNat = false ∧
      wordExists ((reg (eng s 0) 2).toNat / 1024 * 1024) = false ∧ (eng s 0).tip = false ∧ loadsOut (eng s 0) = false) ∧
    (wHas (wUser (wRegs wUp [4, wd (fAddr fPWR_LEVEL_REQ 0 0)])) fun s => wRuns s 0 1 [1, 2] ∧ wordExists (reg (eng s 0) 2).toNat ∧
      (eng s 0).kp = false ∧
      keeperSet (reg (eng s 0) 2).toNat (reg (eng s 0) 1) ∧ (eng s 0).tip = false ∧ loadsOut (eng s 0) = false) ∧
    (wHas (wGet wUp (fAddr fPWR_LEVEL_REQ 0 0)) fun s => getReady s 0 (fAddr fPWR_LEVEL_REQ 0 0) ∧ ownRead (fAddr fPWR_LEVEL_REQ 0 0) = false ∧
      wordResult (fAddr fPWR_LEVEL_REQ 0 0) = false) ∧
    (wHas (wGet wUp (fAddr fPWR_VCORE_MV 0 0)) fun s => getReady s 0 (fAddr fPWR_VCORE_MV 0 0) ∧ ownRead (fAddr fPWR_VCORE_MV 0 0) = false ∧
      wordResult (fAddr fPWR_VCORE_MV 0 0) ∧ isReady s (fAddr fPWR_VCORE_MV 0 0) = false) ∧
    (wHas (wGet (result wUp fPWR_VCORE_MV 850) (fAddr fPWR_VCORE_MV 0 0)) fun s => getReady s 0 (fAddr fPWR_VCORE_MV 0 0) ∧
      isReady s (fAddr fPWR_VCORE_MV 0 0)) := by
  decide +kernel

/-- Postbox numbers assigned and not, a full box, and a message to grant, to release and to collect. -/
theorem witness_MessagesAreGrantedThenCollected :
    (wHas (wRegs wUp [0xbf, 0xfe]) fun s => (((List.range 4).map (quad 1) ++ [1]).any fun r => loading (eng s 0) r) = false ∧ wRuns s 0 1 [] ∧
      boxOk ((reg (eng s 0) 1).toNat % 256) ∧ boxOk ((reg (eng s 0) 2).toNat % 256) = false) ∧
    (wHas (wEng wUp fun g => { g with out := some (0xbf, ⟨0, 0, 0, 0, 0⟩, 3) }) fun s => live s ∧ boxOk 0xbf ∧
      (eng s 0).out = some (0xbf, ⟨0, 0, 0, 0, 0⟩, 3) ∧
      boxFull s 0xbf = false) ∧
    (wHas (setBox (wEng wUp fun g => { g with out := some (1, ⟨0, 0, 0, 0, 0⟩, 3) }) 1 (List.replicate 16 ⟨⟨2, 0, 0, 0, 0⟩, true, 0⟩)) fun s =>
      (eng s 0).out = some (1, ⟨0, 0, 0, 0, 0⟩, 3) ∧ boxFull s 1) ∧
    (wHas (setBox wUp 0 [⟨⟨1, 0, 0, 0, 0⟩, false, 4⟩]) fun s => live s ∧ released (eng s 1) 4 ∧
      (boxOf s 0).find? (fun p => p.msg.sender == 1 && !p.ready) = some ⟨⟨1, 0, 0, 0, 0⟩, false, 4⟩) ∧
    (wHas (setBox wUp 0 [⟨⟨1, 0, 0, 0, 0⟩, true, 0⟩]) fun s => wRuns s 0 1 [] ∧ (((List.range 4).map (quad 1)).any fun r =>
      loading (eng s 0) r) = false ∧
      (takeFirst (fun x => x.ready) (eng s 0).box).isSome) ∧
    (wHas wUp fun s => wRuns s 0 1 [] ∧ takeFirst (fun x => x.ready) (eng s 0).box = none) := by
  decide +kernel

/-- Addresses and nanoseconds at their ends, a wake time reached, each way of WAIT, and a sleep request. -/
theorem witness_WatchesWakeTimesAndWaits :
    (wHas (wRegs wUp [0x80000, 0x7ffff]) fun s => wRuns s 0 1 [1] ∧ wRuns s 0 1 [2] ∧ (eng s 0).tip = false ∧ loadsOut (eng s 0) = false) ∧
    (wHas (wRegs wUp [0, 0x3b, 0x9ac9ff]) fun s => wRuns s 0 1 [2, 3] ∧ pairVal (eng s 0) 2 % 2 ^ 30 = 999999999) ∧
    (wHas (wRegs wUp [0, 0x3b, 0x9aca00]) fun s => wRuns s 0 1 [2, 3] ∧ 1000000000 ≤ pairVal (eng s 0) 2 % 2 ^ 30 ∧ (eng s 0).tip = false ∧
      loadsOut (eng s 0) = false) ∧
    (wHas (wEng wUp fun g => { g with wake := some (0, 0) }) fun s => live s ∧ (eng s 0).wake = some (s.time.sec, s.time.ns)) ∧
    (wHas (wEng wUp fun g => { g with watchL := true }) fun s => wRuns s 0 1 [] ∧ rdF s fPWR_MODE_SLEEP = 0 ∧ (eng s 0).watchL ∧
      (eng s 0).timeL = false) ∧
    (wHas (wEng wUp fun g => { g with watchL := true, st := .waiting, conds := 2 }) fun s => live s ∧ (eng s 0).st = .waiting ∧
      (eng s 0).step = false ∧
      (eng s 0).gated = false ∧ (eng s 0).sleeping = false ∧ (eng s 0).conds = (2 : BitVec 4).toNat ∧ (2 : BitVec 4).getLsbD 1 ∧ (eng s 0).watchL) ∧
    (wHas (wrF wUp fPWR_MODE_SLEEP 3) fun s => wRuns s 0 1 [] ∧ rdF s fPWR_MODE_SLEEP ≠ 0 ∧ (eng s 0).kp) := by
  decide +kernel

/-- Traps with TIP clear and set, an illegal encoding of one and of two words, RTT at each level, samples, and words that hold errors. -/
theorem witness_TrapsSaveAndReturnRestores :
    (wHas wUp fun s => wRuns s 0 1 [] ∧ loadsOut (eng s 0) = false ∧ (eng s 0).tip = false ∧ (eng s 0).kp ∧ bjRun 0 0 0 = none) ∧
    (wHas (wEng wUp fun g => { g with tip := true }) fun s => wRuns s 0 1 [] ∧ loadsOut (eng s 0) = false ∧ (eng s 0).tip) ∧
    (wHas (wEng wUp fun g => { g with pc := 0x7ffe }) fun s => wRuns s 0 2 [] ∧ bjRun 0 0x200001 0 = none ∧ opOf 0x200001 = 8 ∧
      (eng s 0).tip = false ∧
      loadsOut (eng s 0) = false) ∧
    (wHas (wUser wUp) fun s => wRuns s 0 1 [] ∧ (eng s 0).kp = false ∧ (eng s 0).tip = false ∧ loadsOut (eng s 0) = false) ∧
    (wHas (wEng (wrF wUp fENG_ECTL_SAMPLE 1 0 0) fun g => { g with kp := false, count := 16777216 }) fun s => live s ∧ sampleDue s 0 ∧
      (eng s 0).tip = false) ∧
    (wHas (wEng (wrF wUp fENG_ECTL_SAMPLE 1 0 0) fun g => { g with kp := false, count := 16777216, tip := true }) fun s => live s ∧ sampleDue s 0 ∧
      (eng s 0).tip) ∧
    (wHas (wEng wUp fun g => { g with noted := some (5, 1) }) fun s => able s 0 ∧ loadsOut (eng s 0) = false ∧ (eng s 0).noted = some (5, 1) ∧
      (eng s 0).tip = false) ∧
    (wHas (wEng wUp fun g => { g with noted := some (5, 1), tip := true }) fun s => able s 0 ∧ loadsOut (eng s 0) = false ∧
      (eng s 0).noted = some (5, 1) ∧ (eng s 0).tip) := by
  decide +kernel

/-- An accepted SET with each request bit, engines stopped, running, failed and draining, a transfer that runs, is refused, starts and
ends. -/
theorem witness_EnginesStartStopStepAndLoad :
    (wTakes wUp (ectlAddr 0 1) 1 fun x => decide ((eng x 1).st = .stopped ∧ (eng x 1).gated = false ∧ (dom x 14).failed = false)) ∧
    (wTakes wUp (ectlAddr 0 0) 0 fun x => decide ((eng (setSample (wrF x fENG_ECTL_RUN 0 0 0) 0 0 0) 0).st = .running)) ∧
    (wTakes (setImem wUp 1 0 (encR 0x3e 0 0 0 0)) (ectlAddr 0 1) 2 fun x => let y := setSample x 0 1 2
      decide (live y ∧ (eng y 1).st = .stopped ∧ (eng y 1).gated = false ∧ (dom y 14).failed = false ∧ (eng y 1).get = none ∧ (eng y 1).out = none ∧
      (eng y 1).far = [] ∧ (eng y 1).noted = none ∧ sampleDue y 1 = false ∧ (eng y 1).past = false ∧
      imemW y 1 (eng y 1).pc.toNat = encR 0x3e 0 0 0 0)) ∧
    (wTakes (setEng wUp 1 { eng wUp 1 with st := .failed }) (ectlAddr 0 1) 8 fun x => (eng (setSample x 0 1 8) 1).st == .failed) ∧
    (wTakes wUp (fAddr fENG_LDGO_ACC 0 0) 4 fun x => (tget (fun _ => none) x.load 0).isNone && decide (loadWhy x 0 (loadOf x 0 (4 % 4)) ≠ 0)) ∧
    (wTakes { wUp with load := [(0, some (loadOf wUp 0 0))] } (fAddr fENG_LDGO_ACC 0 0) 4 fun x => (tget (fun _ => none) x.load 0).isSome) ∧
    (wHas (wEng wUp fun g => { g with st := .draining }) fun s => live s ∧ (eng s 0).st = .draining ∧ (eng s 0).gated = false ∧ (eng s 0).far = [] ∧
      (eng s 0).get = none ∧ (eng s 0).out = none) ∧
    (wHas { wMem with load := [(0, some (loadOf wUp 0 0))] } fun s => tget (fun _ => none) s.load 0 = some (loadOf wUp 0 0) ∧ live s ∧ memRuns s) := by
  decide +kernel

/-! ### Start-up, feeds, memory -/

/-- Power on, and pulses at both ends of each range. -/
theorem witness_TheResetPulseResetsWholeOrNotAtAll :
    wUp.sys.phase ≠ .off ∧ 999 < 1000 ∧ 1000 ≤ 1000 ∧ 9999 < 10000 ∧ 10000 ≤ 10000 ∧
    wNext (exec (.rstNReset 10000 false) wUp) fun t => t.sys.phase == .crystal := by
  decide +kernel

/-- A power-on with power-good, and a pulse that resets. -/
theorem witness_WhatAResetKeeps :
    (wHas (powerOff wUp) fun s => s.sys.phase = .off ∧ wNext (exec (.powerOn true false true) s) fun t => t.sys.phase == .crystal) ∧
    (wHas wUp fun s => s.sys.phase ≠ .off ∧ wNext (exec (.rstNReset 10000 false) s) fun t => t.sys.phase == .crystal) := by
  decide +kernel

/-- Every phase that a step of start-up waits in, with its time bounds just reached, a signed image, and a host message that names one. -/
theorem witness_StartUpRunsItsSteps :
    (wHas (powerOff wUp) fun s => s.sys.phase = .off) ∧
    (wHas (wPhase .rails 62500000) fun s => s.sys.phase = .rails ∧ (s.sys.feedA || s.sys.feedB) ∧ s.sys.railAt + 62500000 ≤ s.sys.ticks) ∧
    (wHas { State.reset with sys := { State.reset.sys with ticks := 31250000, crystalTries := 1 } } fun s => s.sys.phase = .crystal ∧
      s.sys.crystal = false ∧
      s.sys.railAt + 31250000 ≤ s.sys.ticks ∧ s.sys.crystalTries < 2) ∧
    (wHas { State.reset with sys := { State.reset.sys with ticks := 31250000, crystalTries := 2 } } fun s => s.sys.phase = .crystal ∧
      s.sys.crystal = false ∧
      s.sys.railAt + 31250000 ≤ s.sys.ticks ∧ s.sys.crystalTries = 2) ∧
    (wHas wTraining fun s => s.sys.phase = .training ∧ live s ∧ s.sys.crystal ∧ onF s fKEY_RNGSTAT_READY ∧ onF s fKEY_RNGSTAT_FAILED = false ∧
      slotOrder (wTrained s) = [0]) ∧
    (wHas { wTraining with sys := { wTraining.sys with slots := [] } } fun s => s.sys.phase = .training ∧ live s ∧ s.sys.crystal ∧
      onF s fKEY_RNGSTAT_READY ∧
      onF s fKEY_RNGSTAT_FAILED = false ∧ slotOrder (wTrained s) = []) ∧
    (wHas (wTrained wTraining) fun y => imageWhy (deviceWrite y 0 (slotImage y 0))
      (imageSlot y 0).bytes (imageSlot y 0).signer (imageSlot y 0).bytes.length = 0) ∧
    (wHas (wEng (wPhase .handover 0) fun g => { g with st := .stopped }) fun s => s.sys.phase = .handover ∧ live s ∧ (eng s 0).st = .stopped) ∧
    (wHas (setBox (wPhase .recovery 0) 0 [⟨⟨0xf7, 0, 1, 0, 0⟩, true, 0⟩]) fun s => s.sys.phase = .recovery ∧ live s ∧
      takeFirst (fun (p : Place) => p.ready && decide (0xf0 ≤ p.msg.sender ∧
      p.msg.sender < 0xf8)) (boxOf s 0) = some (⟨⟨0xf7, 0, 1, 0, 0⟩, true, 0⟩, []) ∧
      (boxOf s 0xf0).length < 16 ∧ imageWhy (setBox s 0 []) (dramRead (setBox s 0 []) 0 64) [] 64 ≠ 0) ∧
    (wHas (wPhase .noCrystal 0) fun s => s.sys.phase = .noCrystal ∧ live s ∧ s.sys.crystal) := by
  decide +kernel

/-- One feed of two lost, the last one lost, each return, and each stage of a brownout with its instant just past. -/
theorem witness_FeedsAndCrystalComeAndGo :
    (wHas wUp fun s => alwaysOn s ∧ s.sys.feedA ∧ s.sys.feedB) ∧
    (wHas { wUp with sys := { wUp.sys with feedB := false } } fun s => alwaysOn s ∧ s.sys.feedA ∧ s.sys.feedB = false) ∧
    (wHas { wUp with sys := { wUp.sys with feedA := false, feedB := false } } fun s => alwaysOn s ∧ s.sys.feedA = false ∧ s.sys.feedB = false) ∧
    (wHas { wUp with sys := { wUp.sys with feedA := false, feedB := false, lostAt := some 0, ticks := 625001 } } fun s => live s ∧
      s.sys.feedA = false ∧
      s.sys.feedB = false ∧ s.sys.lostAt = some 0 ∧ 0 + 625000 < s.sys.ticks ∧ s.sys.sag = 0) ∧
    (wHas { wMem with sys := { wMem.sys with feedA := false, feedB := false, lostAt := some 0, ticks := 625001, sag := 3 } } fun s => live s ∧
      s.mpe.keys ∧
      (s.sys.feedA || s.sys.feedB) = false ∧ s.sys.sag = 3 ∧ dataSpace - 1 < dataSpace) ∧
    (wHas wMem fun s => live s ∧ s.mpe.keys ∧ (s.sys.feedA || s.sys.feedB) ∧ s.sys.crystal) ∧
    (wHas { wUp with sys := { wUp.sys with feedA := false, feedB := false, sag := 4 } } fun s => s.sys.phase ≠ .off ∧ s.sys.sag = 4 ∧
      s.sys.feedA = false ∧
      s.sys.feedB = false) := by
  decide +kernel

/-- Memory running, a channel at each refresh, a notice and a pause just due, an accepted TRAINNOW, and a result just due. -/
theorem witness_MemoryIsRefreshedAndRetrained :
    (wHas { wMem with sys := { wMem.sys with ticks := 1250000 } } fun s => memRuns s ∧ paced s paceRefresh 1250000 ∧ paced s paceBandwidth 625000 ∧
      (List.replicate 32 ((0, 2) : BitVec 5 × Fin 3)).length = 32) ∧
    (wHas wMem fun s => rdF s fMEM_CHSTAT_REFX 0 31 = 0) ∧
    (wHas { wrF wMem fMEM_CHSTAT_REFX 1 0 31 with sys := { wMem.sys with ticks := 625000000 }, mem := { wMem.mem with cool := [(31, some 0)] } }
      fun s =>
      rdF s fMEM_CHSTAT_REFX 0 31 ≠ 0 ∧ tget (fun _ => none) s.mem.cool 31 = some 0 ∧ 0 + 625000000 ≤ s.sys.ticks) ∧
    (wHas { wrF (wrF wMem fMEM_MCFG_RTINT 1) fMEM_MCFG_RTTEMP 3 with sys := { wMem.sys with ticks := 625000 } } fun s => memRuns s ∧
      tget (fun _ => 0) s.mem.trainedAt 31 + 625000 * rdF s fMEM_MCFG_RTINT ≤ s.sys.ticks ∧ 0 < rdF s fMEM_MCFG_RTTEMP ∧ rdF s fMEM_MCFG_RTTEMP ≤ 3) ∧
    (wTakes wMem (fAddr fMEM_TRAIN_TRAINNOW 0 31) 1 fun x => memRuns x && decide (x.mem.due = []) && !onF x fMEM_MSTAT_NOTICE &&
      !onF x fMEM_MSTAT_PAUSE) ∧
    (wHas { wrF wMem fMEM_MSTAT_NOTICE 1 with sys := { wMem.sys with ticks := 3125 } } fun s => memRuns s ∧ onF s fMEM_MSTAT_NOTICE ∧
      s.mem.noticeAt + 3125 ≤ s.sys.ticks ∧ s.mem.pauseEnd + 1250 ≤ s.sys.ticks) ∧
    (wHas (wrF wMem fMEM_MSTAT_PAUSE 1) fun s => memRuns s ∧ onF s fMEM_MSTAT_PAUSE) := by
  decide +kernel

/-- A line to check, a pair to write, a granule wanted, RKGO in its three cases, and a re-key at its last line and at an unwritten
granule. -/
theorem witness_SealsFillsAndRekeys :
    (wHas (wEng wUp fun g => { g with unchecked := [(3, 64)] }) fun s => live s ∧ (eng s 0).unchecked.contains (3, 64)) ∧
    (wHas (wEng (setWritten wMem 0 true) fun g => { g with far := [⟨7, .store, 0, 3, [1, 2, 3], false⟩] }) fun s => live s ∧ memRuns s ∧
      farHeld s 0 7 = false ∧
      farTurn (eng s 0) 7 = some ⟨7, .store, 0, 3, [1, 2, 3], false⟩ ∧ rangeWritten s 0 3) ∧
    (wHas (wEng wMem fun g => { g with far := [⟨7, .store, 0, 3, [1, 2, 3], false⟩] }) fun s => live s ∧ memRuns s ∧ granuleWritten s 0 = false ∧
      fillWanted s 0 ∧ s.mpe.allWritten = false) ∧
    (wTakes (wrF wMem fMPE_RKSEL_R 15) (fAddr fMPE_RKGO_GO 0 0) 1 fun x => memRuns x && (rekeyOf x (rdF x fMPE_RKSEL_R)).isNone &&
      !(region x (rdF x fMPE_RKSEL_R)).valid) ∧
    (wTakes { wMem with mpe := { wMem.mpe with regions := [(0, ⟨0, 1, true, false⟩)] } } (fAddr fMPE_RKGO_GO 0 0) 1 fun x =>
      memRuns x && (rekeyOf x (rdF x fMPE_RKSEL_R)).isNone && (region x (rdF x fMPE_RKSEL_R)).valid && !onF x fKEY_RNGSTAT_FAILED) ∧
    (wTakes { wMem with mpe := { wMem.mpe with rekey := [(0, some ⟨0, []⟩)] } } (fAddr fMPE_RKGO_GO 0 0) 1 fun x => memRuns x &&
      (rekeyOf x (rdF x fMPE_RKSEL_R)).isSome) ∧
    (wHas { setWritten wMem 0 true with mpe := { (setWritten wMem 0 true).mpe with regions := [(0, ⟨0, 0, true, false⟩)], rekey := [(0, some ⟨65472, []⟩)] } } fun s =>
      live s ∧ memRuns s ∧ rekeyOf s 0 = some ⟨65472, []⟩ ∧ paused s 65472 64 = false ∧ granuleWritten s (65472 / 65536) ∧
      ((region s 0).limit + 1) * 65536 ≤ 65472 + 64) ∧
    (wHas { wMem with mpe := { wMem.mpe with regions := [(0, ⟨0, 1, true, false⟩)], rekey := [(0, some ⟨65472, []⟩)] } } fun s => live s ∧
      memRuns s ∧
      rekeyOf s 0 = some ⟨65472, []⟩ ∧ paused s 65472 64 = false ∧ granuleWritten s (65472 / 65536) = false ∧
      (65472 / 65536 + 1) * 65536 < ((region s 0).limit + 1) * 65536) := by
  decide +kernel

/-! ### The common blocks of the units -/

/-- A plain word and a CM word accepted, USTAT to read, a slot mapped to a ready result, to one not ready and to none, and RMADDR. -/
theorem witness_UnitWordsTakeSetsAndAnswerReads :
    (wTakes wUp (fAddr fMEAS_PDUTY_T 0 0) 5 fun _ => !ownRow wUp (fAddr fMEAS_PDUTY_T 0 0) 5) ∧
    wordCM (fAddr fCNT_DSIZE_MB 0 0) ∧
    getReady (wGet wUp (uaddr 8 31 2)) 0 (uaddr 8 31 2) ∧
    (wHas (let x := result wHost fPWR_VCORE_MV 850; { x with ctl := { x.ctl with slots := [(4095, some (fAddr fPWR_VCORE_MV 0 0))] } }) fun s =>
      hostUp s ∧
      slotAddr s 4095 = some (fAddr fPWR_VCORE_MV 0 0) ∧ isReady s (fAddr fPWR_VCORE_MV 0 0)) ∧
    (wHas { wHost with ctl := { wHost.ctl with slots := [(4095, some (fAddr fPWR_VCORE_MV 0 0))] } } fun s => hostUp s ∧
      slotAddr s 4095 = some (fAddr fPWR_VCORE_MV 0 0) ∧ isReady s (fAddr fPWR_VCORE_MV 0 0) = false ∧ slotAddr s 0 = none) ∧
    (wTakes wUp (fAddr fHST_RMADDR_ADDR 0 0) (wd (fAddr fPWR_VCORE_MV 0 0)) fun _ => true) := by
  decide +kernel

/-- A commit accepted, one due at its point and one refused, ARM at both ends of its range, DISARM, and an instant reached. -/
theorem witness_CommitsApplyWholeOrNotAtAll :
    (accept (wEng wUp fun g => { g with posted := [⟨true, uaddr 0x19 0 0, 0, 0⟩] }) 0 true (uaddr 0x19 0 0) 0).isSome ∧
    (wHas (wrC (wOn wUp 0x19 0) fCOMMON_USTAT_CMPEND 0x19 0 1) fun s => live s ∧ commitDue s 0x19 0 ∧ atPoint s 0x19 0) ∧
    (wHas (wrC (wOn wUp 0x17 0) fCOMMON_USTAT_CMPEND 0x17 0 1) fun s => commitDue s 0x17 0 ∧ atAcceptance 0x17) ∧
    (wHas (wrC (wOn wServe 8 0) fCOMMON_USTAT_CMPEND 8 0 1) fun s => live s ∧ commitDue s 8 0 ∧ atPoint s 8 0) ∧
    (wHas { wUp with ctl := { wUp.ctl with pend := [(fAddr fPAIR_MAGENT_ENG 0 0, some 0xc0)] } } fun s =>
      (refusedWords s (withPending s 0x17 0) 0x17 0).min? = some fPAIR_MAGENT_ENG.word) ∧
    (wHas wUp fun s => (refusedWords s (withPending s 0x17 0) 0x17 0).min? = none) ∧
    (wTakes wUp (uaddr 0x19 0 8) 1 fun x => decide ((instantOf (armWords x 0x19 0).1 (armWords x 0x19 0).2).2 < 1000000000)) ∧
    (wTakes wUp (uaddr 0x19 0 8) 2 fun x => rdC x fCOMMON_USTAT_ARMED 0x19 0 == 0) ∧
    (wTakes (wrC wUp fCOMMON_USTAT_ARMED 0x19 0 1) (uaddr 0x19 0 8) 2 fun x => rdC x fCOMMON_USTAT_ARMED 0x19 0 != 0) ∧
    1000000000 ≤ (instantOf 0x3b 0x9aca00).2 ∧ (instantOf 0x3b 0x9ac9ff).2 < 1000000000 ∧
    (wHas (wrW (wrW wUp (uaddr 0x19 0 6) 0x3b) (uaddr 0x19 0 7) 0x9aca00) fun s =>
      1000000000 ≤ (instantOf (armWords s 0x19 0).1 (armWords s 0x19 0).2).2) ∧
    (wHas (wrW wUp (uaddr 0x19 0 7) 1) fun s => (instantOf (armWords s 0x19 0).1 (armWords s 0x19 0).2).2 < 1000000000 ∧
      reached (snapshot s 0x19 0) (resolve s (armWords s 0x19 0).1 (armWords s 0x19 0).2) = false) ∧
    (wHas wUp fun s => reached (snapshot s 0x19 0) (resolve s (armWords s 0x19 0).1 (armWords s 0x19 0).2)) ∧
    (wHas { wUp with ctl := { wUp.ctl with armed := [(uaddr 0x19 0 0, some (0, 0))] } } fun s => live s ∧
      tget (fun _ => none) s.ctl.armed (uaddr 0x19 0 0) = some (0, 0) ∧ reached s (0, 0) ∧ tget (fun _ => false) s.ctl.due (uaddr 0x19 0 0) = false) := by
  decide +kernel

/-- UCTRL writes to an ACTIVE, a DRAINING and an IDLE instance, to a unit without disable, to a MAC without a frame mode, and drains with
and without work. -/
theorem witness_UnitsAreEnabledDrainedAndIdle :
    (wTakes (wOn wUp 0x19 0) (uaddr 0x19 0 1) 0 fun x => ustat x 0x19 0 == 1 && !noDisable 0x19) ∧
    (wTakes wUp (uaddr 0x18 0 1) 0 fun _ => noDisable 0x18) ∧
    (wTakes (wrC wUp fCOMMON_USTAT_STATE 0x19 0 2) (uaddr 0x19 0 1) 0 fun x => ustat x 0x19 0 == 2) ∧
    (wTakes wUp (uaddr 0x17 0 1) 0 fun x => ustat x 0x17 0 == 0 && !noDisable 0x17) ∧
    (wTakes (wOn (wrC wUp fCOMMON_UCTRL_EN 0x17 0 1) 0x17 0) (uaddr 0x17 0 1) 1 fun x => rdC x fCOMMON_UCTRL_EN 0x17 0 == 1) ∧
    (wTakes wUp (uaddr 8 31 1) 1 fun x => rdC x fCOMMON_UCTRL_EN 8 31 == 0 && !frameMode x 31) ∧
    (wTakes (wrF wUp fLANE_GMODE_MODE 1 0) (uaddr 8 0 1) 1 fun x => frameMode x 0 && rdC x fCOMMON_UCTRL_EN 8 0 == 0 && ustat x 8 0 == 0) ∧
    (wTakes (wrC wUp fCOMMON_USTAT_STATE 0x17 0 2) (uaddr 0x17 0 1) 1 fun x => rdC x fCOMMON_UCTRL_EN 0x17 0 == 0 && ustat x 0x17 0 == 2) ∧
    (wHas (wrC wUp fCOMMON_USTAT_STATE 0x19 0 2) fun s => live s ∧ ustat s 0x19 0 = 2 ∧ holdsWork s 0x19 0 = false) ∧
    (wHas { wrC wUp fCOMMON_USTAT_STATE 0x17 0 2 with pair := { wUp.pair with unsent := [.pn 0 0] }, sys := { wUp.sys with ticks := drainBound 0x17 } } fun s =>
      live s ∧ overdue s 0x17 0 ∧ (discardHeld s 0x17 0).2 = 1 ∧ ustat (discardHeld s 0x17 0).1 0x17 0 = 2) ∧
    (wHas { wChain (wrF wHost fHST_CHCTL_EN 0 0 0) 0 (fun c => { c with st := 5, letter := some (wLetter 0) }) with sys := { wUp.sys with ticks := drainBound 3 } } fun s =>
      live s ∧ overdue s 3 0 ∧ ustat (discardHeld s 3 0).1 3 0 ≠ 2) ∧
    (wHas (wrC wUp fCOMMON_USTAT_REEN 0x19 0 1) fun s => rdC (onIdle (wrC s fCOMMON_USTAT_STATE 0x19 0 0) 0x19 0) fCOMMON_USTAT_REEN 0x19 0 = 1) := by
  decide +kernel

/-! ### The host -/

/-- An open host, a chain in each state, letters that stall, break a rule or run, in host memory and in BAR2's store, a closed host and a
link that is down. -/
theorem witness_ChainsFetchStallParkAndResume :
    (wHas wHost fun s => hostUp s ∧ hostOpen s ∧ (chain s 7).st = 0 ∧ chainOn s 7 ∧ (64 : BitVec 32).toNat % 64 = 0 ∧
      (63 : BitVec 32).toNat % 64 ≠ 0) ∧
    (wHas (wChain wHost 7 fun c => { c with st := 1 }) fun s => s.sys.halted = false ∧ hostUp s ∧ hostOpen s ∧ (chain s 7).st = 1 ∧
      (chain s 7).letter = none ∧
      inBar2 s (chain s 7).cur = false) ∧
    (wHas (let x := wChain wHost 7 fun c =>
      { c with st := 1, cur := 0x100000 }; { x with hst := { x.hst with cfg := { x.hst.cfg with bar2 := 0x100000 } } }) fun s =>
      s.sys.halted = false ∧ hostUp s ∧ (chain s 7).st = 1 ∧ (chain s 7).letter = none ∧ inBar2 s (chain s 7).cur) ∧
    lOwn (List.replicate 15 0 ++ [2147483647]) = false ∧ lOwn (List.replicate 15 0 ++ [2147483648]) = true ∧
    3 < lKind [64] ∧ lKind [16] = 1 ∧ 0xbf < lw [16, 0, 0, 0, 0xc0] 4 % 256 ∧ lKind [48] ≤ 3 ∧ (lKind [48] = 1 → lw [48] 4 % 256 ≤ 0xbf) ∧
    (wHas (wrF wHost fHST_CHCTL_KINDS 7 0 0) fun s => (rdF s fHST_CHCTL_KINDS 0 0).testBit 3 = false ∧ (rdF s fHST_CHCTL_KINDS 0 0).testBit 2) ∧
    lReserved [4] = false ∧ lReserved [0] = true ∧ lLast [1] = true ∧ lLast [0] = false ∧
    (wHas (wChain wHost 7 fun c => { c with st := 2 }) fun s => s.sys.halted = false ∧ hostUp s ∧ hostOpen s ∧ inBar2 s (chain s 7).cur = false ∧
      (chain s 7).st = 2) ∧
    (wHas (let x := wChain wHost 7 fun c =>
      { c with st := 3, cur := 0x100000 }; { x with hst := { x.hst with cfg := { x.hst.cfg with bar2 := 0x100000 } } }) fun s =>
      s.sys.halted = false ∧ hostUp s ∧ inBar2 s (chain s 7).cur ∧ (chain s 7).st = 3) ∧
    (wHas (wChain wHost 7 fun c => { c with st := 4, letter := some [0] }) fun s => hostUp s ∧ hostOpen s ∧ (chain s 7).st = 4 ∧ chainOn s 7 ∧
      (chain s 7).letter = some [0]) ∧
    (wHas (wChain wHost 7 fun c => { c with st := 4 }) fun s => hostUp s ∧ hostOpen s ∧ (chain s 7).st = 4 ∧ chainOn s 7 ∧
      (chain s 7).letter = none) ∧
    onF wHost fHST_CHCTL_EN 0 14 ∧ wTakes wHost (fAddr fHST_CHCTL_EN 0 14) 0 fun _ => true ∧
    (wHas (wChain wHost 7 fun c => { c with st := 1, letter := some [0] }) fun s => (chain s 7).st = 1 ∧ (chain s 7).letter.isSome) ∧
    hostUp wHost ∧ hostOpen wHost ∧ windowListed 3 ∧ windowListed 4 = false ∧ windowListed 0x1000 ∧ windowCommand 0x1000 ∧
      windowCommand 0x1010 = false ∧
    (wHas { wHost with sys := { wHost.sys with runState := false } } fun s => hostUp s ∧ hostOpen s = false) ∧
    hostUp wUp = false := by
  decide +kernel

/-- Letters of each kind in execution, with a format broken and kept, a refused and an allowed granule, a partial line and data in place.
-/
theorem witness_LettersMoveDataAndEndWithACode :
    (wHas (wChain wHost 7 fun c => { c with st := 1, letter := some [0] }) fun s => executing s 7 0) ∧
    (wHas (wChain wHost 7 fun c => { c with st := 5, letter := some [16] }) fun s => executing s 7 1 ∧ (chain s 7).letter = some [16] ∧
      (chain s 7).retry = false) ∧
    (wHas (wChain wHost 7 fun c => { c with st := 5, letter := some [16], retry := true }) fun s => executing s 7 1 ∧ (chain s 7).retry ∧
      paced s (paceRetry 7) (625 * (rdF s fHST_CHCTL_WATCH 0 14 + 1) / 2) ∧ paced s (paceFull 7) 625000) ∧
    (wHas (wChain wHost 7 fun c => { c with st := 1, letter := some [48, 3] }) fun s => executing s 7 3 ∧ (chain s 7).done = 0 ∧
      dmaFormat [48, 3] = false) ∧
    (wHas (wChain wHost 7 fun c => { c with st := 1, letter := some [48, 4] }) fun s => executing s 7 3 ∧ (chain s 7).done = 0 ∧ dmaFormat [48, 4] ∧
      (refusedByte s 9 (lFar [48, 4]) (lLen [48, 4]) false).isSome) ∧
    (wHas (wChain wHost 7 fun c => { c with st := 1, letter := some [32, 4] }) fun s => executing s 7 2 ∧ (chain s 7).done = 0 ∧ dmaFormat [32, 4] ∧
      (refusedByte s 9 (lFar [32, 4]) (lLen [32, 4]) true).isSome) ∧
    (wHas { wChain wHost 7 (fun c => { c with st := 1, letter := some [48, 16777216] }) with mpe := { wUp.mpe with rights := [(36, ⟨0, 0x1000, true, true⟩)] } } fun s =>
      executing s 7 3 ∧ (chain s 7).done = 0 ∧ dmaFormat [48, 16777216] ∧ refusedByte s 9 (lFar [48, 16777216]) (lLen [48, 4]) false = none) ∧
    (wHas { wChain (setWritten wHost 0 true) 7 (fun c => { c with st := 1, letter := some [32, 4] }) with
      mpe := { (setWritten wUp 0 true).mpe with rights := [(36, ⟨0, 0, true, true⟩)] } } fun s =>
      executing s 7 2 ∧ (chain s 7).done = 0 ∧ dmaFormat [32, 4] ∧ refusedByte s 9 (lFar [32, 4]) (lLen [32, 4]) true = none ∧ granuleWritten s 0 ∧
      lLen [32, 4] ≤ [1, 2, 3, (4 : Byte)].length ∧ (partLines (lFar [32, 4]) (lLen [32, 4]))[(1 : Fin 3).val - 1]? = some 0 ∧
      (partLines (lFar [32, 4]) (lLen [32, 4]))[(2 : Fin 3).val - 1]? = none) ∧
    (wHas (wChain wHost 7 fun c => { c with st := 1, letter := some [48, 4], done := 4 }) fun s => executing s 7 3 ∧
      (chain s 7).done = lLen [48, 4] ∧ lLen [48, 4] ≠ 0) ∧
    (wHas (wChain wHost 7 fun c => { c with st := 1 }) fun s => s.sys.halted = false ∧ hostUp s ∧ inBar2 s (chain s 7).cur = false ∧
      (chain s 7).st = 1 ∧
      (chain s 7).letter = none) ∧
    (wHas (wChain wHost 7 fun c => { c with st := 3 }) fun s => s.sys.halted = false ∧ hostUp s ∧ inBar2 s (chain s 7).cur = false ∧
      (chain s 7).st = 3) ∧
    (wHas { wHost with hst := { wHost.hst with cfg := { wHost.hst.cfg with bar2 := 0x100000 } } } fun s => s.hst.cfg.bar2.toNat ≤ 0x100040 ∧
      (0x100040 - s.hst.cfg.bar2.toNat) % 4 = 0) := by
  decide +kernel

/-- A message in a host postbox, vectors in each condition, the link down and up, LINK to read, and a reset of the function in each state
of HST. -/
theorem witness_TheHostLinkSignalsAndResets :
    (wHas (setBox wHost 0xf7 [⟨⟨1, 0, 0, 0, 0⟩, true, 0⟩]) fun s => hostUp s ∧ hostOpen s ∧
      takeFirst (fun p => p.ready) (boxOf s (0xf0 + 7)) = some (⟨⟨1, 0, 0, 0, 0⟩, true, 0⟩, [])) ∧
    (wHas wUp fun s => s.hst.msixOn = false) ∧
    (wHas { wUp with hst := { wUp.hst with msixOn := true } } fun s => s.hst.msixOn ∧ s.hst.cfg.d3hot = false ∧ tget (fun _ =>
      false) s.hst.unmasked 31 = false) ∧
    (wHas { wUp with hst := { wUp.hst with msixOn := true, unmasked := [(31, true)], holdoff := [(31, true)] } } fun s => s.hst.msixOn ∧
      s.hst.cfg.d3hot = false ∧
      s.hst.fmask = false ∧ tget (fun _ => false) s.hst.unmasked 31 ∧ tget (fun _ => false) s.hst.holdoff 31 ∧
      paced s (paceIrq 31) (625 * rdF s fHST_IRQHOLD_US)) ∧
    (wHas { wUp with hst := { wUp.hst with msixOn := true, unmasked := [(31, true)] } } fun s => s.hst.msixOn ∧ s.hst.cfg.d3hot = false ∧
      s.hst.fmask = false ∧
      tget (fun _ => false) s.hst.unmasked 31 ∧ tget (fun _ => false) s.hst.holdoff 31 = false) ∧
    hostUp wHost ∧ wHost.hst.rate ≠ 0 ∧
    (wHas wUp fun s => s.sys.phase ≠ .off ∧ s.sys.phase ≠ .rails ∧ s.sys.phase ≠ .asleep ∧ s.sys.crystal ∧ (5 : Fin 6) ≠ 0 ∧ (4 : Fin 5) ≠ 0 ∧
      (4 : Fin 5) ≠ 3) ∧
    (wHas (wGet wHost (fAddr fHST_LINK_RATE 0 0)) fun s => (eng s 0).get = some (1, fAddr fHST_LINK_RATE 0 0) ∧
      getReady s 0 (fAddr fHST_LINK_RATE 0 0) ∧
      s.hst.rate < 8 ∧ s.hst.width < 8) ∧
    (wHas (wChain wHost 7 fun c => { c with st := 1, letter := some [0] }) fun s => s.hst.rate ≠ 0 ∧ s.sys.halted = false ∧ ustat s 3 0 = 1 ∧
      (chain ((List.range 8).foldl stopChain s) 7).st = 5) ∧
    (wHas (wrC (wrC wHost fCOMMON_USTAT_STATE 3 0 0) fCOMMON_UCTRL_EN 3 0 0) fun s => s.hst.rate ≠ 0 ∧ s.sys.halted = false ∧ ustat s 3 0 = 0) := by
  decide +kernel

/-! ### Placement -/

/-- OBJGO with each request bit, objects at the ends of their ranges, a pool with an engine to pick, moves that have drained and timed
out, contexts at a full store and below it, and epochs. -/
theorem witness_PlacementMovesObjects :
    (wTakes (wrF wUp fPLC_OBJIDX_INDEX 131071) (fAddr fPLC_OBJGO_QUERY 0 0) 1 fun x =>
      objExists (rdF x fPLC_OBJKIND_KIND) (rdF x fPLC_OBJIDX_INDEX)) ∧
    (wTakes (wrF wUp fPLC_OBJKIND_KIND 7) (fAddr fPLC_OBJGO_QUERY 0 0) 1 fun x => !objExists (rdF x fPLC_OBJKIND_KIND) (rdF x fPLC_OBJIDX_INDEX)) ∧
    (wTakes wUp (fAddr fPLC_OBJGO_QUERY 0 0) 2 fun _ => true) ∧
    (wTakes wUp (fAddr fPLC_OBJGO_QUERY 0 0) 4 fun _ => true) ∧
    (wHas (wrC wUp fCOMMON_UCTRL_EN 2 0 0) fun s => active s 2 0 = false) ∧
    (wHas (wrF wUp fPLC_OBJKIND_KIND 2) fun s => active s 2 0 ∧ objExists 2 0 ∧ moveOf s 2 0 = none ∧
      placeOf s 2 0 = some (rdF s fPLC_OBJTGT_TARGET)) ∧
    (wHas (wrF (wrF wUp fPLC_OBJKIND_KIND 2) fPLC_OBJTGT_TARGET 7) fun s => active s 2 0 ∧ objExists 2 0 ∧ moveOf s 2 0 = none ∧
      placeOf s 2 0 ≠ some 7 ∧
      targetOk s 2 0 7) ∧
    (wHas (wrF (wrF wUp fPLC_OBJKIND_KIND 2) fPLC_OBJTGT_TARGET 8) fun s => active s 2 0 ∧ objExists 2 0 ∧ moveOf s 2 0 = none ∧
      placeOf s 2 0 ≠ some 8 ∧
      targetOk s 2 0 8 = false) ∧
    (wHas wUp fun s => active s 2 0 ∧ objExists 0 0 ∧ moveOf s 0 0 = none ∧ placeOf s 0 0 = none) ∧
    (wHas (wrF (wrF wUp fPLC_POOL_ENGINES (2 ^ 8 + 1)) fPLC_OBJTGT_TARGET 8) fun s => active s 2 0 ∧ objExists 0 0 ∧ moveOf s 0 0 = none ∧
      placeOf s 0 0 = some 0 ∧
      targetOk s 0 0 8 ∧ runningMoves s < 16) ∧
    (wHas { wrF (wrF wUp fPLC_POOL_ENGINES (2 ^ 8 + 1)) fPLC_OBJTGT_TARGET 8 with plc := { wUp.plc with moves := List.replicate 16 ⟨0, 5, 1, 2, [], true, 0, none⟩ } } fun s =>
      active s 2 0 ∧ moveOf s 0 0 = none ∧ placeOf s 0 0 ≠ some 8 ∧ 16 ≤ runningMoves s) ∧
    (wTakes (wrF (wrF wUp fPLC_OBJKIND_KIND 4) fPLC_OBJIDX_INDEX 63) (fAddr fPLC_OBJGO_QUERY 0 0) 8 fun x => active x 2 0) ∧
    (wHas (wrF (wrF wUp fPLC_OBJKIND_KIND 4) fPLC_OBJIDX_INDEX 63) fun s => rdF s fPLC_OBJKIND_KIND = 4 ∧ rdF s fPLC_OBJIDX_INDEX < 64 ∧
      (List.range 192).filter (fun k => mayPick s 63 k) = []) ∧
    (wHas (wrF (wrF (wrF wUp fPLC_OBJKIND_KIND 4) fPLC_OBJIDX_INDEX 63) fPLC_POOL_ENGINES 2 0 504) fun s => rdF s fPLC_OBJKIND_KIND = 4 ∧
      rdF s fPLC_OBJIDX_INDEX = 63 ∧ active s 2 0 ∧ (List.range 192).filter (fun k => mayPick s 63 k) = [1] ∧ (hintsOf s 4 63).testBit 2 = false) ∧
    (wHas { wUp with plc := { wUp.plc with picked := [(191, some 0)] }, sys := { wUp.sys with ticks := 6250000 } } fun s => live s ∧
      tget (fun _ => none) s.plc.picked 191 = some 0 ∧ 0 + 6250000 ≤ s.sys.ticks) ∧
    (wHas { wUp with plc := { wUp.plc with moves := [⟨0, 5, 1, 2, [], true, 0, none⟩] }, sys := { wUp.sys with ticks := 6250 * rdF wUp fPLC_MOVECTL_TIMEOUT } } fun s =>
      moveOf s 0 5 = some ⟨0, 5, 1, 2, [], true, 0, none⟩ ∧ live s ∧ drained s ⟨0, 5, 1, 2, [], true, 0, none⟩ ∧
      0 + rdF s fPLC_MOVECTL_TIMEOUT * 6250 ≤ s.sys.ticks) ∧
    (wHas (wSas [(4095, some { wSa with tx := false, fresh := true })]) fun s => saCtx s 4095 = some { wSa with tx := false, fresh := true } ∧
      live s ∧
      active s 2 0 ∧ residents (setSa s 4095 (some { wSa with tx := false })) < storeSize) ∧
    (wHas (wFull { wSa with tx := false, fresh := true, seen := 5 }) fun s => live s ∧ active s 2 0 ∧
      saCtx s 4095 = some { wSa with tx := false, fresh := true, seen := 5 } ∧
      storeSize ≤ residents s ∧ lowestResident s = some 0 ∧ rankOf s 0 { wSa with tx := false, resident := true, seen := 4 }
      < rankOf s 4095 { wSa with tx := false, seen := 5 }) ∧
    (wHas (wFull { wSa with tx := false, fresh := true, seen := 4 }) fun s => live s ∧ active s 2 0 ∧ storeSize ≤ residents s ∧
      lowestResident s = some 0 ∧
      firstRank s { wSa with tx := false, seen := 4 } = false ∧ rankOf s 4095 { wSa with tx := false, seen := 4 }
      ≤ rankOf s 0 { wSa with tx := false, resident := true, seen := 4 }) ∧
    (wHas (wFull wSa) fun s => saCtx s 4095 = some wSa ∧ firstRank s wSa ∧ storeSize ≤ residents s ∧ live s ∧ active s 2 0) ∧
    (wHas { wUp with plc := { wUp.plc with moves := [⟨3, 5, 0, 1, [], true, 0, none⟩] } } fun s => live s ∧
      saMove s 5 = some ⟨3, 5, 0, 1, [], true, 0, none⟩ ∧ saCtx s 5 = none) ∧
    (wHas { wSas [(5, some { wSa with tx := false })] with plc := { wUp.plc with moves := [⟨3, 5, 0, 1, [], true, 0, none⟩] } } fun s => live s ∧
      saMove s 5 = some ⟨3, 5, 0, 1, [], true, 0, none⟩ ∧ saCtx s 5 = some { wSa with tx := false } ∧ 1 = b2n true) ∧
    (wHas { wSas [(5, some { wSa with resident := true })] with plc := { wUp.plc with moves := [⟨3, 5, 1, 0, [], true, 0, none⟩] } } fun s =>
      live s ∧
      saMove s 5 = some ⟨3, 5, 1, 0, [], true, 0, none⟩ ∧ saCtx s 5 = some { wSa with resident := true } ∧
      mayLeave s 5 { wSa with resident := true } true) ∧
    (wHas { wSas [(5, some { wSa with resident := true })] with
      msec := { (wSas [(5, some { wSa with resident := true })]).msec with tx := [(0, { txReset with enable := true, cur := some 1 })] },
      plc := { wUp.plc with moves := [⟨3, 5, 1, 0, [], true, 0, none⟩] }
      } fun s => live s ∧ (saMove s 5).isSome ∧ mayLeave s 5 { wSa with resident := true } true = false) ∧
    (wHas { wUp with sys := { wUp.sys with ticks := 6250 * (rdF wUp fPLC_EPOCH_E + 1) } } fun s => live s ∧ active s 2 0 ∧ s.pair.quiet = false ∧
      s.plc.epochAt + (rdF s fPLC_EPOCH_E + 1) * 6250 ≤ s.sys.ticks) ∧
    (wHas { wUp with sys := { wUp.sys with ticks := 6250 * (rdF wUp fPLC_EPOCH_E + 1) }, pair := { wUp.pair with quiet := true } } fun s =>
      live s ∧ active s 2 0 ∧
      s.pair.quiet ∧ s.plc.epochAt + (rdF s fPLC_EPOCH_E + 1) * 6250 ≤ s.sys.ticks) ∧
    crowded (wFull wSa) ∧ crowded wUp = false := by
  decide +kernel

/-! ### Passive optical networks -/

/-- Slot 3 in each condition, OLATCH with each bit, and a watchdog with a burst open, past and never opened. -/
theorem witness_OpticsLightLatchAndMonitor :
    (wHas (wPon 3 ponReset) fun s => live s ∧ onF (wrF s fOPT_OSTAT_LOS 0 3) fOPT_OSTAT_LOS 3 = false ∧ active s 4 3) ∧
    (wHas (wrF (wrF (wPon 3 { ponReset with bursts := 1 }) fOPT_OSTAT_TXREADY 1 3) fOPT_OSTAT_LOS 0 3) fun s => live s ∧ active s 4 3 ∧
      onF s fOPT_OSTAT_LOS 3 = false ∧
      onF s fOPT_OSTAT_TXREADY 3 ∧ (ponCh s 3).bursts ≠ 0 ∧ (ponCh s 3).burst = none ∧ onF s fOPT_OCAL_CALHOLD 3 = false) ∧
    (wHas (wrF (wrF (wPon 3 { ponReset with bursts := 1 }) fOPT_OCAL_CALHOLD 1 3) fOPT_OSTAT_WLOCK 1 3) fun s => live s ∧ active s 4 3 ∧
      onF s fOPT_OCAL_CALHOLD 3 ∧
      onF s fOPT_OSTAT_WLOCK 3 ∧ (ponCh s 3).bursts ≠ 0) ∧
    (wHas (wAt 625000000 (wrF (wPon 3 ponReset) fOPT_OSTAT_WLOCK 1 3)) fun s => live s ∧ onF s fOPT_OSTAT_WLOCK 3 ∧ (ponCh s 3).burst = none ∧
      (ponCh s 3).lightAt + 625000000 ≤ s.sys.ticks) ∧
    (wHas (wrF (wPon 3 ponReset) fPON_CHSTAT_PSM 2 3) fun s => live s ∧ active s 4 3 ∧ rdF s fPON_CHSTAT_PSM 3 = 2) ∧
    (wTakes wUp (fAddr fOPT_OLATCH_CUT 3 0) 1 fun _ => true) ∧
    (wTakes wUp (fAddr fOPT_OLATCH_CUT 3 0) 2 fun x => rdF x fOPT_OSTAT_CUTWHY 3 != 5) ∧
    (wTakes (wrF wUp fOPT_OSTAT_CUTWHY 5 3) (fAddr fOPT_OLATCH_CUT 3 0) 2 fun x => rdF x fOPT_OSTAT_CUTWHY 3 == 5) ∧
    (wHas (wPon 3 { ponReset with burst := some wBurst }) fun s => live s ∧ (ponCh s 3).burst = some wBurst ∧
      640000 + wBurst.grant.len * 100000000 / (if onF s fOPT_OCFG_RATE 3 then 62208 else 31104) ≤ 3280 * 10000 ∧ 125000 < 125001) ∧
    (wHas (wPon 3 { ponReset with last := some wBurst }) fun s => live s ∧ (ponCh s 3).burst = none ∧ (ponCh s 3).last.isSome ∧ 64 < 65) ∧
    (wHas (wPon 3 ponReset) fun s => live s ∧ ustat s 4 3 ≠ 0 ∧ 7 < 8) := by
  decide +kernel

/-- A channel that receives, at its first and second PSBd and locked, ACTSET at each end, a lost lock in O5 and elsewhere, O6 at its end,
and items it knows and does not. -/
theorem witness_PonChannelsLockActivateAndReceive :
    (wHas (wrF (wrF (wPon 3 { ponReset with seen := 0 }) fOPT_OSTAT_RXREADY 1 3) fOPT_OSTAT_LOS 0 3) fun s => live s ∧ ustat s 5 3 ≠ 0 ∧
      ustat s 5 3 ≠ 3 ∧
      onF s fOPT_OSTAT_LOS 3 = false ∧ onF s fOPT_OSTAT_RXREADY 3 ∧ (ponCh s 3).pllLost = false ∧ onF s fPON_CHSTAT_LOCK 3 = false ∧ actst s 3 ≠ 6 ∧
      (ponCh s 3).seen = 0 ∧ onF (swapChannel (psbdSeen s 3) 3) fPON_CHSTAT_LOCK 3 = false) ∧
    (wHas (wrF (wrF (wPon 3 { ponReset with seen := 1 }) fOPT_OSTAT_RXREADY 1 3) fOPT_OSTAT_LOS 0 3) fun s => live s ∧ ustat s 5 3 ≠ 0 ∧
      ustat s 5 3 ≠ 3 ∧
      onF s fOPT_OSTAT_LOS 3 = false ∧ onF s fOPT_OSTAT_RXREADY 3 ∧ onF s fPON_CHSTAT_LOCK 3 = false ∧ actst s 3 ≠ 6 ∧ (ponCh s 3).seen = 1 ∧
      onF (swapChannel (psbdSeen s 3) 3) fPON_CHSTAT_LOCK 3) ∧
    (wTakes wUp (fAddr fPON_ACTSET_STATE 3 0) 9 fun _ => decide (1 ≤ (9 : Word).toNat % 16 ∧ (9 : Word).toNat % 16 ≤ 9 ∧ (9 : Word).toNat % 16 ≠ 3)) ∧
    (wTakes wUp (fAddr fPON_ACTSET_STATE 3 0) 10 fun _ => decide (9 < (10 : Word).toNat % 16)) ∧
    (wHas (wPon 3 ponReset) fun s => live s ∧ onF s fPON_CHSTAT_LOCK 3 = false ∧ actst s 3 ≠ 6 ∧ (ponCh s 3).pllLost = false) ∧
    (wHas (wrF (wrF (wPon 3 ponReset) fPON_CHSTAT_LOCK 1 3) fPON_CHSTAT_ACTST 5 3) fun s => live s ∧ onF s fPON_CHSTAT_LOCK 3 ∧ actst s 3 = 5) ∧
    (wHas (wrF (wrF (wPon 3 ponReset) fPON_CHSTAT_LOCK 1 3) fPON_CHSTAT_ACTST 4 3) fun s => live s ∧ onF s fPON_CHSTAT_LOCK 3 ∧ actst s 3 ≠ 5) ∧
    (wHas (wAt 7 (wrF (wPon 3 { ponReset with hold := some 7 }) fPON_CHSTAT_ACTST 6 3)) fun s => live s ∧ actst s 3 = 6 ∧
      (ponCh s 3).hold = some 7 ∧ 7 ≤ s.sys.ticks) ∧
    (wHas (wPon 3 ponReset) fun s => active s 5 3 ∧ portEntry s 3 65535 = none) ∧
    (wHas (wrF (wrF (wPon 3 ponReset) fPON_PORTB_VALID 1 3 510) fPON_PORTA_PORTID 65535 3 510) fun s => active s 5 3 ∧
      portEntry s 3 65535 = some 255 ∧
      openPayload s 3 (rdF s fPON_PORTB_KIND 3 510) 1 0 [0] = none) ∧
    (wHas (wPon 3 ponReset) fun s => active s 5 3 ∧ ploamOnu wMessage = 0x3ff ∧ micHolds s 3 wMessage) ∧
    (wHas (wrF (wrF (wrF (wPon 3 ponReset) fPON_ONUID_IDVALID 1 3) fPON_ONUID_ID 1022 3) fPON_PLKEYV_VALID 1 3) fun s => active s 5 3 ∧
      ownOnu s 3 (ploamOnu (toBytes 2 1022 ++ List.replicate 46 0)) ∧
      micHolds s 3 (toBytes 2 1022 ++ List.replicate 46 0) = false) ∧
    (wHas (wrF (wrF (wrF (wPon 3 ponReset) fPON_ALLOCA_VALID 1 3 46) fPON_ALLOCA_ALLOCID 16383 3 46) fPON_CHSTAT_ACTST 5 3) fun s => active s 5 3 ∧
      actst s 3 = 5 ∧
      allocOf s 3 16383 = some 23) := by
  decide +kernel

/-- A due grant on a gated channel, with and without a valid profile, with and without leave to emit, a burst to end, a serial number
grant in each case, PUGO with room and without, SFCARM and DLCTL. -/
theorem witness_PonBurstsRepliesAndRequests :
    (wHas (wAt 100000 (wrF (wDue []) fPAIR_PGATE1_CHANS 8)) fun s => live s ∧ (ponCh s 3).grants = [wBurst.grant] ∧
      (ponCh s 3).burst = none ∧ burstDue s 3 wBurst.grant ∧ gatedChan (setPon s 3 { ponCh s 3 with grants := [] }) 3) ∧
    (wHas (wAt 100000 (wDue [])) fun s => live s ∧ (ponCh s 3).burst = none ∧ burstDue s 3 wBurst.grant ∧
      gatedChan s 3 = false ∧ onF s fPON_BPROF_VALID 3 24 = false) ∧
    (wHas (wAt 100000 (wProfile (wDue []))) fun s =>
      live s ∧ burstDue s 3 wBurst.grant ∧ gatedChan s 3 = false ∧ onF s fPON_BPROF_VALID 3 24 ∧
      rdF s fPON_BPROF_RATE 3 24 = rdF s fOPT_OCFG_RATE 3 ∧ mayEmit s 3 = false) ∧
    (wHas (wAt 100000 (wrF (wrF (wProfile (wDue [wPloam])) fOPT_OSTAT_TXREADY 1 3) fOPT_OSTAT_LOS 0 3)) fun s =>
      live s ∧ burstDue s 3 wBurst.grant ∧ gatedChan s 3 = false ∧ onF s fPON_BPROF_VALID 3 24 ∧
      rdF s fPON_BPROF_RATE 3 24 = rdF s fOPT_OCFG_RATE 3 ∧ mayEmit s 3 ∧
      (ponCh s 3).ploams = [wPloam]) ∧
    (wHas (wPon 3 { ponReset with burst := some wBurst, level := some 2 }) fun s => live s ∧ (ponCh s 3).burst = some wBurst ∧
      (ponCh s 3).level = some 2) ∧
    (wHas (wrF (wPon 3 { ponReset with snGrant := some 0 }) fPAIR_PGATE1_CHANS 8) fun s => live s ∧ (ponCh s 3).snGrant.isSome ∧ gatedChan s 3) ∧
    (wHas (wrF (wrF (wPon 3 { ponReset with snGrant := some 0 }) fOPT_OSTAT_TXREADY 1 3) fOPT_OSTAT_LOS 0 3) fun s => live s ∧
      (ponCh s 3).snGrant.isSome ∧
      gatedChan s 3 = false ∧ mayEmit s 3) ∧
    (wHas (wPon 3 { ponReset with snGrant := some 0 }) fun s => live s ∧ (ponCh s 3).snGrant.isSome ∧ gatedChan s 3 = false ∧ mayEmit s 3 = false) ∧
    (wTakes (wPon 3 { ponReset with ploams := [[], [], []] }) (fAddr fPON_PUGO_GO 3 0) 1 fun x => (ponCh x 3).ploams.length < 4) ∧
    (wTakes (wPon 3 { ponReset with ploams := [[], [], [], []] }) (fAddr fPON_PUGO_GO 3 0) 1 fun x => 4 ≤ (ponCh x 3).ploams.length) ∧
    (wTakes wUp (fAddr fPON_SFCARM_ARM 3 0) 1 fun _ => true) ∧
    (wTakes wUp (fAddr fPON_DLCTL_DLARM 3 0) 3 fun _ => true) := by
  decide +kernel

/-! ### Tributaries and lanes -/

/-- A tributary that receives, containers of good and bad length, one in sequence, a timeout just due, a boundary in each state of TRIB,
and writes to each page. -/
theorem witness_TributariesCarryContainers :
    (wHas { wrF (wrF (wOn wUp 6 0) fTRIB_CONN_VALID 1 0 48) fTRIB_CONN_DS 1 0 48 with trib := { wUp.trib with tr := [(48, { tribuReset with seqD := some 0 })] } } fun s =>
      dsOn s 48 ∧ (List.replicate 268 (0 : Byte)).length = 268 ∧ (byteAt (List.replicate 268 0) 3).toNat = 48 % 16 ∧
      (byteAt (List.replicate 268 0) 2).toNat = 0 ∧
      (tribu s 48).seqD = some (ofBytes ((List.replicate 268 0).take 2)) ∧ causeOf (tribu s 48) = 0) ∧
    (wHas (wrF (wrF (wOn wUp 6 0) fTRIB_CONN_VALID 1 0 63) fTRIB_CONN_DS 1 0 63) fun s => dsOn s 63 ∧ (List.replicate 267 (0 : Byte)).length ≠ 268 ∧
      (byteAt (List.replicate 268 0) 3).toNat ≠ 63 % 16) ∧
    (wHas (wAt 156250 (wrF (wrF (wOn wUp 6 0) fTRIB_CONN_VALID 1 0 63) fTRIB_CONN_DS 1 0 63)) fun s => live s ∧ dsOn s 63 ∧
      (tribu s 63).frame = false ∧
      (tribu s 63).lastAt + 156250 ≤ s.sys.ticks ∧ (tribu s 63).ais = false) ∧
    (wHas (wOn wUp 6 0) fun s => live s ∧ s.time.ns % 125000 < 2 ∧ s.trib.last ≠ some (s.time.sec, s.time.ns / 125000) ∧ active s 6 0) ∧
    (wHas { wUp with time := { wUp.time with ns := 125001 } } fun s => live s ∧ s.time.ns % 125000 < 2 ∧
      s.trib.last ≠ some (s.time.sec, s.time.ns / 125000) ∧
      active s 6 0 = false) ∧
    (wTakes wUp (fAddr fTRIB_CONN_CPORT 0 63) 0 fun x => 63 / 64 == rdF x fTRIB_ACTPG_PAGE) ∧
    (wTakes wUp (fAddr fTRIB_CONN_CPORT 0 64) 0 fun x => 64 / 64 != rdF x fTRIB_ACTPG_PAGE) := by
  decide +kernel

/-- A lane that runs, at each step of its bring-up, both pair lanes, a port of one lane that comes up, one whose lane is locked, and a
group with a locked PLL. -/
theorem witness_LanesComeUpStepByStep :
    (wHas (wOn (wrF wUp fLANE_GMODE_MODE 1 0) 7 0) fun s => laneUp s 0 ∧ onF s fLANE_LSTAT_CDRLOCK 0 = false) ∧
    (wHas (wrF (wOn wUp 7 33) fLANE_LSTAT_CDRLOCK 1 33) fun s => laneUp s 33 ∧ onF s fLANE_LSTAT_CDRLOCK 33 ∧ (laneSt s 33).adapted = false) ∧
    (wHas (wAt 1250000 { wOn (wrF wUp fLANE_GMODE_MODE 1 0) 7 0 with lane := [(0, { laneReset with adapted := true })] }) fun s => laneUp s 0 ∧
      (laneSt s 0).adapted ∧
      onF s fLANE_LSTAT_BLOCK 0 = false ∧ (laneSt s 0).polAt + 1250000 ≤ s.sys.ticks) ∧
    (wHas { wOn wUp 7 33 with lane := [(33, { laneReset with adapted := true })] } fun s => laneUp s 33 ∧ (laneSt s 33).adapted ∧
      onF s fLANE_LSTAT_BLOCK 33 = false ∧
      onF s fLANE_LSTAT_PSWAP 33 = false) ∧
    (wHas (wrF (wOn (wrF wUp fLANE_GMODE_MODE 1 0) 7 0) fLANE_LSTAT_BLOCK 1 0) fun s => laneUp s 0 ∧ onF s fLANE_LSTAT_BLOCK 0 ∧
      portOf s 0 = some 0) ∧
    (wHas (wAt 6250 (wrF (wOn (wrF wUp fLANE_GMODE_MODE 1 0) 7 0) fLANE_LSTAT_LINKUP 1 0)) fun s => laneUp s 0 ∧ onF s fLANE_LSTAT_LINKUP 0 ∧
      onF s fLANE_LCAL_ADAPTHOLD 0 = false ∧ (laneSt s 0).eqAt + 6250 ≤ s.sys.ticks) ∧
    (wHas (wAt 6249 (wOn (wrF wUp fLANE_GMODE_MODE 1 0) 7 0)) fun s => laneUp s 0 ∧ s.sys.ticks < (laneSt s 0).eqAt + 6250) ∧
    (wHas (wrF (wOn (wrF wUp fLANE_GMODE_MODE 1 0) 7 0) fLANE_LSTAT_CDRLOCK 1 0) fun s => laneUp s 0 ∧ onF s fLANE_LSTAT_CDRLOCK 0) ∧
    (wHas (wrF (wrF (wOn (wrF wUp fLANE_GMODE_MODE 1 0) 7 0) fLANE_LSTAT_BLOCK 1 0) fLANE_LSTAT_PLLLOCK 1 0) fun s =>
      (portLanes s 0).isEmpty = false ∧ linkUp s 0 = false ∧
      (∀ k ∈ portLanes s 0, testing s k = false ∧ laneUp s k = true ∧ onF s fLANE_LSTAT_BLOCK k = true ∧ onF s fLANE_LSTAT_PLLLOCK k = true) ∧
      ((portLanes s 0).map fun k => rdF s fLANE_LSTAT_LPOS k).Nodup ∧
      ∀ j ∈ portLanes s 0, ∀ k ∈ portLanes s 0, (laneSt s j).skew ≤ (laneSt s k).skew + 180) ∧
    (wHas { wrF (wrF (wrF (wrF (wrF (wOn (wOn (wrF wUp fLANE_GMODE_MODE 3 0) 7 0) 7 1) fLANE_LSTAT_BLOCK 1 0) fLANE_LSTAT_PLLLOCK 1 0) fLANE_LSTAT_BLOCK 1 1) fLANE_LSTAT_PLLLOCK 1 1)
      fLANE_LSTAT_LPOS 1 1 with lane := [(1, { laneReset with skew := 180 })] } fun s => (portLanes s 0).length = 2 ∧ linkUp s 0 = false ∧
      (∀ k ∈ portLanes s 0, testing s k = false ∧ laneUp s k = true ∧ onF s fLANE_LSTAT_BLOCK k = true ∧ onF s fLANE_LSTAT_PLLLOCK k = true) ∧
      ((portLanes s 0).map fun k => rdF s fLANE_LSTAT_LPOS k).Nodup ∧
      ∀ j ∈ portLanes s 0, ∀ k ∈ portLanes s 0, (laneSt s j).skew ≤ (laneSt s k).skew + 180) ∧
    (wHas (wrF wUp fLANE_LSTAT_PLLLOCK 1 33) fun s => live s ∧ ∃ l ∈ groupLanes 8, onF s fLANE_LSTAT_PLLLOCK l = true) := by
  decide +kernel

/-! ### MAC and site bus -/

/-- A port with its link up, frames at both ends of the lengths, pause frames, full buffers, a gated port, a class held and in recovery,
and each verification state. -/
theorem witness_MacsReceivePauseAndVerify :
    (wHas wPort fun s => live s ∧ active s 8 0 ∧ frameMode s 0 ∧ linkUp s 0 ∧ (macP s 0).rxEx = none ∧ (List.replicate 63 (0 : Byte)).length < 64 ∧
      isPause (List.replicate 64 0) = false ∧ reserveAdmits s 0 (List.replicate 64 0) = false ∧ gatedPort s 0 = false) ∧
    isPause ([1, 0x80, 0xc2, 0, 0, 1, 0, 0, 0, 0, 0, 0, 0x88, 8, 1, 1] ++ List.replicate 48 0) ∧
    (wHas (wrF wPort fPWR_OVPCP_UNTAG 1 0 0) fun s => live s ∧ active s 8 0 ∧ frameMode s 0 ∧ linkUp s 0 ∧ (macP s 0).rxEx = none ∧
      reserveAdmits s 0 (List.replicate 64 0) ∧ (msecIngress s 0 0 (markIn s (-7)) (List.replicate 60 0)).2.isSome) ∧
    (wHas (wrF wPort fPAIR_PGATE0_PORTS 1) fun s => live s ∧ active s 8 0 ∧ frameMode s 0 ∧ linkUp s 0 ∧ (macP s 0).rxEx = none ∧ gatedPort s 0 ∧
      isEapol (List.replicate 64 0) = false ∧ (msecIngress s 0 0 (markIn s (-7)) (List.replicate 60 0)).2.isSome) ∧
    (wHas { wPort with msec := { wPort.msec with rx := [(0, { rxReset with valid := true })] } } fun s => live s ∧ active s 8 0 ∧ frameMode s 0 ∧
      linkUp s 0) ∧
    (wHas (wMac { macReset with rxPr := some ⟨0, [1], true, false⟩ }) fun s => live s ∧ (macP s 0).rxPr ≠ none) ∧
    (wHas wPort fun s => live s ∧ (macP s 0).rxPr = none ∧ active s 8 0 ∧ linkUp s 0) ∧
    (wHas (wMac { macReset with rxEx := some ⟨0, wSealed, false, false⟩ }) fun s => (macP s 0).rxEx = some ⟨0, wSealed, false, false⟩ ∧
      wSealed ≠ [] ∧ fcsGood wSealed) ∧
    fcsGood (List.replicate 64 1) = false ∧
    (wHas (wAt 10485600 wPort) fun s => live s ∧ quantaTicks s 0 (rdF s fMAC_PQUANTA_Q 0) ≤ 2 * (s.sys.ticks - (macP s 0).pauseAt)) ∧
    (wHas (wAt 625001 (wrF (wrF wPort fMAC_MPWD_WDMS 1 0) fMAC_MSTAT_PAUSED 128 0)) fun s => live s ∧ rdF s fMAC_MPWD_WDMS 0 ≠ 0 ∧
      pausedClass s 0 7 ∧
      tget (fun _ => 0) (macP s 0).since 7 + 625000 * rdF s fMAC_MPWD_WDMS 0 < s.sys.ticks) ∧
    (wHas (wAt 6250000 (wrF (wrF wPort fMAC_MSTAT_WDACT 128 0) fMAC_MPWD_RECOV 1 0)) fun s => live s ∧ (rdF s fMAC_MSTAT_WDACT 0).testBit 7 ∧
      tget (fun _ => 0) (macP s 0).since 7 + 6250000 * rdF s fMAC_MPWD_RECOV 0 ≤ s.sys.ticks) ∧
    (wHas (wrF wPort fMAC_MPSTAT_VSTATE 1 0) fun s => live s ∧ active s 8 0 ∧ rdF s fMAC_MPSTAT_VSTATE 0 = 1 ∧ (macP s 0).tries = 0) ∧
    (wHas (wAt 6250000 (wrF (wrF (wMac { macReset with tries := 3 }) fMAC_MPSTAT_VSTATE 2 0) fMAC_MPRE_VERIFYT 10 0)) fun s => live s ∧
      active s 8 0 ∧
      rdF s fMAC_MPSTAT_VSTATE 0 = 2 ∧ (macP s 0).verAt + 625000 * rdF s fMAC_MPRE_VERIFYT 0 ≤ s.sys.ticks ∧ 3 ≤ (macP s 0).tries) ∧
    (wHas (wrF wPort fMAC_MPRE_PREN 1 0) fun s => live s ∧ active s 8 0 ∧ onF s fMAC_MPRE_PREN 0) := by
  decide +kernel

/-- Selections to settle, on the line, cutting through and to cut, a list that waits, and entries free and held. -/
theorem witness_MacsTransmitUnderTheirGates :
    (wHas (wMac { macReset with ex := some wSel }) fun s => selOf (macP s 0) false = some wSel ∧ live s ∧ wSel.ready = false ∧
      (wSel.cut.bind (flight s)).any (fun y => y.bad == 1) = false ∧ (msecEgress s 0 wSel.frame.txsc 0 wSel.bytes).2.isSome) ∧
    (wHas (wrF (wMac { macReset with ex := some wSel }) fMSEC_PCFG_MODE 1 0 0) fun s => live s ∧
      (msecEgress s 0 wSel.frame.txsc 0 wSel.bytes).2 = none) ∧
    (wHas (wMac { macReset with ex := some wSel, cur := some false }) fun s => live s ∧ (macP s 0).cur = some false ∧
      selOf (macP s 0) false = some wSel ∧
      wSel.cut.bind (flight s) = none) ∧
    (wHas { wMac { macReset with ex := some { wSel with cut := some 1 }, cur := some false } with flights := [wFlight 2 (.cut 0 0)] } fun s =>
      live s ∧
      (macP s 0).cur = some false ∧ ({ wSel with cut := some 1 } : Sel).cut.bind (flight s) = some (wFlight 2 (.cut 0 0)) ∧
      (wFlight 2 (.cut 0 0)).ended ∧
      (wFlight 2 (.cut 0 0)).icv = .none) ∧
    (wHas (wrF (wMac { macReset with pr := some wSel, cur := some true, hold := true }) fMAC_MPSTAT_ACTIVE 1 0) fun s => live s ∧
      (macP s 0).cur = some true ∧
      (macP s 0).pr = some wSel ∧ preActive s 0 ∧ cutReason s 0 wSel ∧ minFrag s 0 ≤ 140 + 4 ∧ wSel.off + 140 + 60 ≤ wSel.bytes.length) ∧
    (wHas (wMac { macReset with pr := some wSel, cur := some true }) fun s => live s ∧ (macP s 0).cur = some true ∧ (macP s 0).pr = some wSel ∧
      preActive s 0 = false) ∧
    (wHas (wMac { macReset with wait := some ⟨1, 0, 1000, 1, 0, 0, 5⟩ }) fun s => live s ∧ (macP s 0).wait = some ⟨1, 0, 1000, 1, 0, 0, 5⟩ ∧
      0 ≤ nowNs s) ∧
    (wHas (wMac { macReset with oper := some ⟨0, 0, 1000, 1, 0, 0, 5⟩, gates := [(0, (0xff, 1, 1000))] }) fun s => live s ∧
      (gatesAt s 0 (nowNs s + lineNs (minFrag s 0 + 75) (portRate s 0))).op = 1) ∧
    (wTakes wUp (fAddr fMAC_GEA_GATES 31 0) 0x2ff fun x => !pageHeld x 31 (rdF x fMAC_GESEL_PG 31) && assigned (fAddr fMAC_GEA_GATES 31 0) 0x2ff) ∧
    (wTakes { wUp with mac := [(31, { macReset with oper := some ⟨0, 0, 1000, 1, 0, 0, 5⟩ })] } (fAddr fMAC_GEA_GATES 31 0) 0x3ff fun x =>
      pageHeld x 31 (rdF x fMAC_GESEL_PG 31) && !assigned (fAddr fMAC_GEA_GATES 31 0) 0x3ff) ∧
    (wTakes wUp (fAddr fMAC_GEB_INTERVAL 31 0) 5 fun x => !pageHeld x 31 (rdF x fMAC_GESEL_PG 31)) ∧
    (wTakes { wUp with mac := [(31, { macReset with oper := some ⟨0, 0, 1000, 1, 0, 0, 5⟩ })] } (fAddr fMAC_GEB_INTERVAL 31 0) 5 fun x =>
      pageHeld x 31 (rdF x fMAC_GESEL_PG 31)) := by
  decide +kernel

/-- TXGO at both ends of the lengths, a frame at each step, collisions early and late, received frames at both ends of the lengths, a ring
entry, RXDONE, jabber, and S3. -/
theorem witness_TheSiteBusSendsAndReceives :
    (wTakes (wrF (wOn wUp 9 0) fSBUS_TXLEN_LEN 1518) (fAddr fSBUS_TXGO_GO 0 0) 1 fun x => active x 9 0 && x.sbus.tx.isNone &&
      rdF x fSBUS_TXLEN_LEN == 1518) ∧
    (wTakes (wrF (wOn wUp 9 0) fSBUS_TXLEN_LEN 1519) (fAddr fSBUS_TXGO_GO 0 0) 1 fun x => active x 9 0 && decide (1518 < rdF x fSBUS_TXLEN_LEN)) ∧
    (wHas (wSbus ⟨dataSpace, 1, none, false, 0, none⟩) fun s => sbusRuns s ∧ dataSpace < dataSpace + 1) ∧
    (wHas { wSbus ⟨0, 60, none, false, 0, none⟩ with mpe := { wMem.mpe with rights := [(4 * sbusMaster, ⟨0, 0, true, false⟩)] } } fun s =>
      sbusRuns s ∧
      0 + 60 ≤ dataSpace ∧ refusedByte s sbusMaster 0 60 false = none) ∧
    (wHas (wAt 6000 (wSbus ⟨0, 60, some [1], false, 0, none⟩)) fun s => sbusRuns s ∧ testing s 38 = false ∧ busIdle s) ∧
    (wHas (wSbus ⟨0, 60, some [1], true, 15, none⟩) fun s => sbusRuns s ∧ 15 < 16 ∧ (63 : BitVec 11).toNat < 64 ∧ 64 ≤ (64 : BitVec 11).toNat) ∧
    (wHas (wSbus ⟨0, 60, some [1], true, 16, none⟩) fun s => sbusRuns s ∧ 16 ≤ 16) ∧
    (wHas (wAt 2000 (wSbus ⟨0, 60, some [1], false, 1, some 2000⟩)) fun s => sbusRuns s ∧ 2000 ≤ s.sys.ticks) ∧
    (wHas (wOn wUp 9 0) fun s => sbusRuns s ∧ active s 9 0 ∧ onF s fSBUS_SSTAT_JABBER = false ∧ s.sbus.tx = none ∧ testing s 38 = false ∧
      wSealed.length = 64 ∧
      fcsGood wSealed ∧ fcsGood wCast ∧ sbusForUs s wCast ∧ rdF s fPWR_STATE_CURS = 0 ∧ 0xc0 ≤ rdF s fSBUS_AGENT_ENG) ∧
    (wHas (wrF (wOn wUp 9 0) fSBUS_MACADR0_ADDR 1) fun s => sbusRuns s ∧ active s 9 0 ∧ sbusForUs s wSealed = false) ∧
    (wHas (wrF (wrF (wOn wUp 9 0) fSBUS_AGENT_ENG 0xbf) fSBUS_RXSTAT_USED 64) fun s => sbusRuns s ∧ active s 9 0 ∧ rdF s fSBUS_AGENT_ENG < 0xc0 ∧
      64 ≤ rdF s fSBUS_RXSTAT_USED) ∧
    (wHas (wrF (wrF (wOn wUp 9 0) fSBUS_AGENT_ENG 0xbf) fSBUS_RXSTAT_USED 63) fun s => sbusRuns s ∧ active s 9 0 ∧ rdF s fSBUS_AGENT_ENG < 0xc0 ∧
      rdF s fSBUS_RXSTAT_USED < 64) ∧
    (wHas (wrF (wOn wUp 9 0) fTST_TSTAT_ACTIVE 1 38) fun s => sbusRuns s ∧ active s 9 0 ∧ testing s 38) ∧
    (wHas wMem fun s => s.sys.halted = false ∧ rdF s fSBUS_RXBASEH_BASE * 2 ^ 24 + rdF s fSBUS_RXBASEL_BASE + 2048 * rdF s fSBUS_RXSTAT_HEAD +
      2048 ≤ dataSpace ∧
      (refusedByte s sbusMaster 0 124 true).isSome) ∧
    (wHas { wMem with mpe := { wMem.mpe with rights := [(4 * sbusMaster, ⟨0, 0, true, true⟩)] } } fun s => s.sys.halted = false ∧
      refusedByte s sbusMaster 0 124 true = none) ∧
    (wHas (wAt 6250 { wUp with sbus := { wUp.sbus with notes := [(63, 64)] } }) fun s => live s ∧ s.sbus.notes ≠ [] ∧
      s.sbus.noteAt + 6250 ≤ s.sys.ticks) ∧
    (wTakes wUp (fAddr fSBUS_RXDONE_N 0 0) 127 fun x => rdF x fSBUS_RXSTAT_USED < 127) ∧
    (wHas (wOn wUp 9 0) fun s => live s ∧ active s 9 0 ∧ onF s fSBUS_SSTAT_JABBER = false) ∧
    (wHas (wrF wUp fSBUS_SSTAT_JABBER 1) fun s => live s ∧ onF s fSBUS_SSTAT_JABBER) ∧
    (wHas (wrF (wPhase .asleep 0) fSBUS_SCFG_WAKEEN 1) fun s => inS3 s ∧ onF s fSBUS_SCFG_WAKEEN) := by
  decide +kernel

/-! ### Associations and classification -/

/-- SWGO with each SWHOW, targets absent, unusable, out of the store and ready, ICVs that wait, a context in retention and notes to retry.
-/
theorem witness_AssociationsSwitchRetireAndVerify :
    (wTakes wUp (fAddr fMSEC_SWGO_GO 0 0) 1 fun _ => rdF wUp fMSEC_SWREQ_HOW == 0) ∧
    (wTakes (wrF { wUp with msec := { wUp.msec with tx := [(1023, { txReset with enable := true })] } } fMSEC_SWCH_CH 1023 |> fun s =>
      wrF s fMSEC_SWREQ_HOW 3)
      (fAddr fMSEC_SWGO_GO 0 0) 1 fun x => (txCh x (rdF x fMSEC_SWCH_CH)).enable && rdF x fMSEC_SWREQ_HOW == 3) ∧
    (wTakes (wrF wUp fMSEC_SWREQ_HOW 1) (fAddr fMSEC_SWGO_GO 0 0) 1 fun x => !(txCh x (rdF x fMSEC_SWCH_CH)).enable && rdF x fMSEC_SWREQ_HOW == 1) ∧
    (wTakes (wrF (wrF (wrF wUp fMSEC_SWREQ_HOW 2) fMSEC_SWT1_T 0x3b) fMSEC_SWT0_T 0x9aca00) (fAddr fMSEC_SWGO_GO 0 0) 1 fun x =>
      decide (1000000000 ≤ (resolve x (rdF x fMSEC_SWT1_T) (rdF x fMSEC_SWT0_T)).2)) ∧
    (wTakes (wrF (wrF (wrF wUp fMSEC_SWREQ_HOW 2) fMSEC_SWT1_T 0x3b) fMSEC_SWT0_T 0x9ac9ff) (fAddr fMSEC_SWGO_GO 0 0) 1 fun x =>
      decide ((resolve x (rdF x fMSEC_SWT1_T) (rdF x fMSEC_SWT0_T)).2 < 1000000000)) ∧
    (wHas { wUp with msec := { wUp.msec with tx := [(0, { txReset with req := some (1, 2, (0, 0), true) })] } } fun s =>
      (txCh s 0).req = some (1, 2, (0, 0), true) ∧ rdF s fPAIR_PSTAT_ROLE ≠ 2 ∧ (txCh s 0).cur ≠ some 1 ∧ saOf s true 0 1 = none) ∧
    (wHas { wUp with msec := { wUp.msec with tx := [(0, { txReset with req := some (1, 2, (0, 0), true) })], sa := [(7, some { wSa with unusable := true })] } } fun s =>
      (txCh s 0).req = some (1, 2, (0, 0), true) ∧ rdF s fPAIR_PSTAT_ROLE ≠ 2 ∧ (txCh s 0).cur ≠ some 1 ∧
      saOf s true 0 1 = some (7, { wSa with unusable := true })) ∧
    (wHas { wUp with msec := { wUp.msec with tx := [(0, { txReset with req := some (1, 2, (0, 0), true) })], sa := [(7, some wSa)] } } fun s =>
      (txCh s 0).req = some (1, 2, (0, 0), true) ∧ (txCh s 0).cur ≠ some 1 ∧ saOf s true 0 1 = some (7, wSa) ∧ wSa.unusable = false ∧
      wSa.resident = false) ∧
    (wHas { wUp with msec := { wUp.msec with tx := [(0, { txReset with req := some (1, 2, (0, 0), true) })], sa := [(7, some { wSa with resident := true })] } } fun s =>
      (txCh s 0).req = some (1, 2, (0, 0), true) ∧ (txCh s 0).cur ≠ some 1 ∧ saOf s true 0 1 = some (7, { wSa with resident := true })) ∧
    (wHas { wUp with msec := { wUp.msec with tx := [(1023, { txReset with req := some (1, 2, (0, 0), false) })] } } fun s =>
      (txCh s 1023).req = some (1, 2, (0, 0), false) ∧ live s ∧ reached s (0, 0)) ∧
    (wHas { wSas [(7, some { wSa with order := 9 })] with flights := [{ wFlight 0 .none with icv := .waits 7 1 9 4 true true true }] } fun s =>
      live s ∧
      flight s 1 = some { wFlight 0 .none with icv := .waits 7 1 9 4 true true true } ∧ saCtx s 7 = some { wSa with order := 9 }) ∧
    (wHas { wUp with flights := [{ wFlight 0 .none with icv := .waits 7 1 9 4 true true true }] } fun s => live s ∧ (flight s 1).isSome ∧
      saCtx s 7 = none) ∧
    (wHas { wUp with flights := [{ wFlight 0 .none with icv := .waits 7 1 9 4 false true true }] } fun s => live s ∧
      flight s 1 = some { wFlight 0 .none with icv := .waits 7 1 9 4 false true true }) ∧
    (wHas (wAt 6250000 (wrF (wSas [(4095, some { wSa with retain := true })]) fMSEC_RETAIN_MS10 1)) fun s => live s ∧
      saCtx s 4095 = some { wSa with retain := true } ∧ rdF s fMSEC_RETAIN_MS10 ≠ 0 ∧ wSa.retAt + 6250000 * rdF s fMSEC_RETAIN_MS10 ≤ s.sys.ticks) ∧
    (wHas (wAt 6250 { wUp with msec := { wUp.msec with notes := [⟨0, 0, 0, 0, 0⟩] } }) fun s => live s ∧ s.msec.notes ≠ [] ∧
      s.msec.noteAt + 6250 ≤ s.sys.ticks) := by
  decide +kernel

/-- A frame to search with CLS off and on, rows that discard and forward, a miss and a malformed frame, EGO with each bit, entries refused
and not, a write half done, and the last row. -/
theorem witness_ClassificationSearchesAndWrites :
    (wHas (wFly 0 .none) fun s => flight s 1 = some (wFlight 0 .none) ∧ live s ∧ active s 0x0b 0 = false) ∧
    (wHas (wCls 0) fun s => flight s 1 = some (wFlight 0 .none) ∧ live s ∧ active s 0x0b 0 ∧ (parse wFrame.bytes).frag = false ∧
      (decideAction s (parse wFrame.bytes) wFrame.source false).2.1 = some 65535 ∧
      (decideAction s (parse wFrame.bytes) wFrame.source false).2.2.2 / 2 ^ 94 % 4 = 0 ∧
      s.sys.halted = false) ∧
    (wHas (wCls (2 ^ 94)) fun s => flight s 1 = some (wFlight 0 .none) ∧ live s ∧ active s 0x0b 0 ∧
      (decideAction (loseRow s 3) (parse wFrame.bytes) wFrame.source false).2.2.2 / 2 ^ 94 % 4 = 1) ∧
    (wHas (wOn wUp 0x0b 0) fun s => (parse wFrame.bytes).bad = none ∧
      firstMatch s (inCopy1 0) (wideLow (parse wFrame.bytes)) (narrowKey (parse wFrame.bytes) 0 (rdF s fCLS_SRCCFG_PMETA 0 (sourceIndex 0)) false)
      = none) ∧
    (parse []).bad.isSome ∧
    (wTakes wUp (fAddr fCLS_EGO_WRITE 0 0) 1 fun x => entryRefusal x == 0) ∧
    (wTakes (wrF (wrF wUp fCLS_ECTL_WIDE 1) fCLS_ESEL_INDEX 65535) (fAddr fCLS_EGO_WRITE 0 0) 1 fun x => entryRefusal x == 2) ∧
    (wTakes wUp (fAddr fCLS_EGO_WRITE 0 0) 2 fun x => x.cls.op.isNone) ∧
    (wTakes { wUp with cls := { wUp.cls with op := some (0, []) } } (fAddr fCLS_EGO_WRITE 0 0) 2 fun x => x.cls.op.isSome) ∧
    (wHas { wUp with cls := { wUp.cls with op := some (65535, []) } } fun s => s.cls.op = some (65535, []) ∧ live s) ∧
    (wTakes wUp (fAddr fCLS_HIDATA_ENTRY 0 0) 5 fun _ => true) := by
  decide +kernel

/-! ### Flows and queues -/

/-- FGO with each operation, one running, keys present and absent, a full table, decisions in each case, and a policed flow. -/
theorem witness_FlowRequestsRunOneAtATime :
    (wTakes { wUp with flow := { wUp.flow with op := some 0 } } (fAddr fFLOW_FGO_OP 0 0) 5 fun x => x.flow.op.isSome) ∧
    (wTakes (wrF wUp fFLOW_FREC0_RSTCR 1) (fAddr fFLOW_FGO_OP 0 0) 1 fun x => x.flow.op.isNone && onF x fFLOW_FREC0_RSTCR) ∧
    (wTakes wUp (fAddr fFLOW_FGO_OP 0 0) 2 fun x => x.flow.op.isNone && decide ((flowRec x 0).prog < 64 ∧ (flowRec x 0).queue < 2 ^ 14 ∧
      (flowRec x 0).pbs < 2 ^ 24)) ∧
    (wTakes wUp (fAddr fFLOW_FGO_OP 0 0) 3 fun x => x.flow.op.isNone && (emFind x (stagedKey x).1 (stagedKey x).2).isNone &&
      decide (x.flow.keys.length < 114688)) ∧
    (wTakes { wUp with flow := { wUp.flow with keys := [(emKey 0 0, some 131071)] } } (fAddr fFLOW_FGO_OP 0 0) 3 fun x =>
      x.flow.op.isNone && (emFind x (stagedKey x).1 (stagedKey x).2).isSome) ∧
    (wTakes { wUp with flow := { wUp.flow with keys := List.replicate 131072 (emKey 1 1, none) } } (fAddr fFLOW_FGO_OP 0 0) 3 fun x =>
      x.flow.op.isNone && decide (131072 ≤ x.flow.keys.length)) ∧
    (wTakes { wUp with flow := { wUp.flow with keys := [(emKey 0 0, some 131071)] } } (fAddr fFLOW_FGO_OP 0 0) 4 fun x =>
      x.flow.op.isNone && (emFind x (stagedKey x).1 (stagedKey x).2).isSome) ∧
    (wTakes wUp (fAddr fFLOW_FGO_OP 0 0) 4 fun x => x.flow.op.isNone && (emFind x (stagedKey x).1 (stagedKey x).2).isNone) ∧
    (wHas { wUp with flow := { wUp.flow with op := some 9 } } fun s => s.flow.op = some 9 ∧ live s) ∧
    active wUp 0x0c 0 = false ∧
    (wHas (wOn wUp 0x0c 0) fun s => active s 0x0c 0 ∧ flowReset.valid = false ∧ { flowReset with valid := true, yact := true }.valid ∧
      colourOf s 0 = 0) ∧
    (wHas { wOn wUp 0x0c 0 with flow := { wUp.flow with recs := [(131071, { flowReset with valid := true, polen := true })] } } fun s =>
      (flowRec s 131071).polen ∧
      active s 0x0c 0 ∧ (flowRec s 131071).valid) := by
  decide +kernel

/-- Frames bound for each kind of queue, refused and admitted, one to commit, a block to read back, HQDONE, ports that serve and do not, a
burst that serves, and a node that samples. -/
theorem witness_QueuesAdmitCommitAndServe :
    (wHas (wFly 1 (.sched 16375)) fun s => flight s 1 = some (wFlight 1 (.sched 16375)) ∧ live s ∧ queueRefusal s 16375 0 = some kQmDisabled) ∧
    (wHas (wOn (wFly 1 (.sched 16375)) 0x0d 0) fun s => flight s 1 = some (wFlight 1 (.sched 16375)) ∧ live s ∧ queueRefusal s 16375 0 = none) ∧
    (wHas (wOn (wFly 1 (.eng 191)) 0x0d 0) fun s => flight s 1 = some (wFlight 1 (.eng 191)) ∧ live s ∧ engLives s 191 ∧
      otherRefusal s qrecReset (framesCells (eng s 191).frames + openFor s (.eng 191)) 0 = none) ∧
    (wHas (wFly 1 (.eng 191)) fun s => live s ∧ engLives s 191 ∧
      (otherRefusal s qrecReset (framesCells (eng s 191).frames + openFor s (.eng 191)) 0).isSome) ∧
    (wHas (wOn (wFly 1 (.host 7)) 0x0d 0) fun s => flight s 1 = some (wFlight 1 (.host 7)) ∧ live s ∧ ringSize s 7 = 0) ∧
    (wHas (wrF (wOn (wFly 1 (.host 7)) 0x0d 0) fQM_HQCFG_ENTRIES 1 0 28) fun s => live s ∧ ringSize s 7 ≠ 0 ∧ (queue s 16383).rebuild = false ∧
      otherRefusal s (qrec s 16383) (framesCells (hostq s 7).wait + openFor s (.host 7)) 0 = none) ∧
    (wHas { wFly 1 (.fence 5) with plc := { wUp.plc with moves := [⟨0, 5, 1, 2, [], true, 0, none⟩] } } fun s => live s ∧
      s.plc.moves.find? (fun m => fenceKey m == 5) = some ⟨0, 5, 1, 2, [], true, 0, none⟩ ∧
      fenceCells s ⟨0, 5, 1, 2, [], true, 0, none⟩ + flightCells (wFlight 1 (.fence 5)) ≤ 2048) ∧
    (wHas (wFly 1 .none) fun s => flight s 1 = some (wFlight 1 .none) ∧ live s) ∧
    (wHas (wFly 2 (.eng 191)) fun s => flight s 1 = some (wFlight 2 (.eng 191)) ∧ live s ∧ (wFlight 2 (.eng 191)).ended ∧
      (wFlight 2 (.eng 191)).icv = .none ∧
      sealsDone s wFrame ∧ wFrame.poison = false) ∧
    (wHas { wUp with qm := { wUp.qm with queues := [(16383, { queueReset with blocks := [5] })] } } fun s => (queue s 16383).blocks = [5] ∧ live s ∧
      channelPaused s 5 = false ∧ (queue s 16383).headc + 8 ≤ headMax s 16383) ∧
    (wHas wUp fun s => live s ∧ (0 : Fin 16384).val < 16376 ∧ 16376 ≤ (16383 : Fin 16384).val) ∧
    (wTakes wUp (fAddr fQM_HQDONE_N 0 28) 2047 fun x => (hostq x 7).wait == []) ∧
    (wHas wServe fun s => live s ∧ mayDecide s 0 false ∧ (classOrder s 0).filter (fun c => !((0 : Nat) < 32 &&
      preActive s 0) || isPreemptable s 0 c == false) = classOrder s 0 ∧
      (classOrder s 0).find? (fun c => !(candidates s 0 c false).isEmpty) = some 0 ∧
      (pickService (countWaits s 0 ((classOrder s 0).takeWhile fun c => !!(candidates s 0 c false).isEmpty) [] false) 0 0
      (candidates (countWaits s 0 ((classOrder s 0).takeWhile fun c => !!(candidates s 0 c false).isEmpty) [] false) 0 0 false)).any
      (fun p => (serve p.2.2 0 0 p.1 p.2.1 false).isSome)) ∧
    (wHas (wOn wPort 0x0e 0) fun s => live s ∧ mayDecide s 0 false ∧ (classOrder s 0).find? (fun c => !(candidates s 0 c false).isEmpty) = none) ∧
    (wHas (let s := wPon 0 { ponReset with burst := some { wBurst with grant := ⟨some 0, 3, 1000, false, true, 0, 0⟩ } }
      { wOn s 0x0e 32 with qm := { s.qm with queues := [(1, { queueReset with frames := [⟨wFrame, 1, 0, none, 0⟩] })] }, sch := wPon1.sch }) fun s =>
      live s ∧
      mayDecide s 32 false ∧ (candidates s 32 0 false) = [1]) ∧
    (wHas (wAt 625 (wrF { wOn wUp 0x0e 0 with sch := { wUp.sch with sq := [(16375, { nodeReset with att := true })], sb := [(0, { nodeReset with att := true })], sv := [(0, { nodeReset with att := true })] } } fSCH_SMPINT_I 1 0)) fun s => live s ∧
      active s 0x0e 0 ∧ rdF s fSCH_SMPINT_I 0 ≠ 0 ∧ tget (fun _ => 0) s.sch.sampleAt 0 + 625 * rdF s fSCH_SMPINT_I 0 ≤ s.sys.ticks ∧
      s.sys.halted = false ∧
      s.sch.sq.Pairwise (fun a b => a.1 ≠ b.1) ∧ (∀ a ∈ s.sch.sq, a.1 < 16384) ∧ ((pathOf s 16375).any fun p => p.2.2 == 0) = true) := by
  decide +kernel

/-! ### Keys, fuses, check values -/

/-- KGO with each operation, KEY disabled, busy and free, the slots it refuses and takes, a slot that ages, and the random source. -/
theorem witness_KeysAreWrittenDerivedAndAged :
    (wTakes (wrC wUp fCOMMON_UCTRL_EN 0x11 0 0) (fAddr fKEY_KGO_OP 0 0) 1 fun x => !active (count x 0x11 (kKeyOp 1) 0) 0x11 0) ∧
    (wTakes { wUp with key := { wUp.key with waits := true } } (fAddr fKEY_KGO_OP 0 0) 6 fun x => active x 0x11 0 &&
      (x.key.op.isSome || x.key.waits)) ∧
    (wTakes wUp (fAddr fKEY_KGO_OP 0 0) 4 fun x => active x 0x11 0 && x.key.op.isNone && !x.key.waits && rdF x fKEY_SLSEL_SLOT == 0) ∧
    (wTakes (wrF wUp fKEY_SLSEL_SLOT 8191) (fAddr fKEY_KGO_OP 0 0) 1 fun x => active x 0x11 0 && x.key.op.isNone &&
      rdF x fKEY_SLSEL_SLOT == 8191 && attrOk (slAttr x)) ∧
    (wTakes (wrW (wrF wUp fKEY_SLSEL_SLOT 1) (fAddr fKEY_SLATTR_CLASS 0 0) 8) (fAddr fKEY_KGO_OP 0 0) 1 fun x =>
      active x 0x11 0 && x.key.op.isNone && rdF x fKEY_SLSEL_SLOT == 1 && !attrOk (slAttr x)) ∧
    (wTakes (wrF (wrF wUp fKEY_SLSEL_SLOT 1) fKEY_RNGSTAT_FAILED 1) (fAddr fKEY_KGO_OP 0 0) 2 fun x => active x 0x11 0 && attrOk (slAttr x) &&
      onF x fKEY_RNGSTAT_FAILED) ∧
    (wTakes (wrF (wrF wUp fKEY_SLSEL_SLOT 1) fKEY_RNGSTAT_READY 1) (fAddr fKEY_KGO_OP 0 0) 2 fun x =>
      active x 0x11 0 && attrOk (slAttr x) && !onF x fKEY_RNGSTAT_FAILED && onF x fKEY_RNGSTAT_READY) ∧
    (wTakes (wrF wUp fKEY_SLSEL_SLOT 1) (fAddr fKEY_KGO_OP 0 0) 2 fun x => active x 0x11 0 && attrOk (slAttr x) && !onF x fKEY_RNGSTAT_FAILED &&
      !onF x fKEY_RNGSTAT_READY) ∧
    (wTakes (wrF (wrF wUp fKEY_SLSEL_SLOT 1) fKEY_DSRC_SLOT 1) (fAddr fKEY_KGO_OP 0 0) 3 fun x =>
      active x 0x11 0 && attrOk (slAttr x) && !slotUsable x (rdF x fKEY_DSRC_SLOT) 3) ∧
    (wTakes { wrF (wrF wUp fKEY_SLSEL_SLOT 1) fKEY_DSRC_SLOT 2 with slots := [(2, { slotReset with valid := true, cls := 3 })] }
      (fAddr fKEY_KGO_OP 0 0) 3 fun x =>
      active x 0x11 0 && attrOk (slAttr x) && slotUsable x (rdF x fKEY_DSRC_SLOT) 3 && !deriveBad x (keySlot x (rdF x fKEY_DSRC_SLOT))) ∧
    (wTakes { wrF (wrF (wrF wUp fKEY_SLSEL_SLOT 1) fKEY_DSRC_SLOT 2) fKEY_DSRC_SUPPLIED 1 with slots := [(2, { slotReset with valid := true, cls := 3 })] }
      (fAddr fKEY_KGO_OP 0 0) 3 fun x => active x 0x11 0 && slotUsable x (rdF x fKEY_DSRC_SLOT) 3 && deriveBad x (keySlot x (rdF x fKEY_DSRC_SLOT))) ∧
    (wTakes wUp (fAddr fKEY_KGO_OP 0 0) 5 fun x => active x 0x11 0 && x.key.op.isNone) ∧
    (wTakes wUp (fAddr fKEY_KGO_OP 0 0) 0x36 fun x => active x 0x11 0 && x.key.op.isNone && decide ((0x36 : BitVec 24).toNat / 16 % 4 ≠ 0 ∧
      (6 : BitVec 24).toNat / 16 % 4 = 0)) ∧
    (wHas { wUp with key := { wUp.key with op := some (0, none), randDue := true } } fun s => live s ∧ s.key.op = some (0, none)) ∧
    (wHas { wUp with slots := [(8191, { slotReset with valid := true, life := 1 })], log := { wUp.log with journal := [(0, 1)] } } fun s => live s ∧
      (keySlot s 8191).valid ∧ (keySlot s 8191).bad = false ∧ (keySlot s 8191).life ≠ 0 ∧
      (keySlot s 8191).at_ + (keySlot s 8191).life ≤ tget (fun _ => 0) s.log.journal 0) ∧
    (wHas wUp fun s => live s ∧ s.sys.crystal ∧ onF s fKEY_RNGSTAT_READY = false ∧ onF s fKEY_RNGSTAT_FAILED = false) ∧
    (wHas { wAt 625000000 (setPace (wrF wUp fKEY_RNGSTAT_READY 1) paceReseed) with key := { wUp.key with randDue := true } } fun s => live s ∧
      onF s fKEY_RNGSTAT_READY ∧ onF s fKEY_RNGSTAT_FAILED = false ∧ paced s paceReseed 625000000 ∧ s.key.randDue) ∧
    (wHas { setPace (wrF wUp fKEY_RNGSTAT_READY 1) paceReseed with key := { wUp.key with drawn := 65536 } } fun s => live s ∧
      onF s fKEY_RNGSTAT_READY ∧
      onF s fKEY_RNGSTAT_FAILED = false ∧ paced s paceReseed 625000000 = false ∧ 65536 ≤ s.key.drawn) := by
  decide +kernel

/-- LCGO with and without CONFIRM, KEY disabled, a fuse write running, and fuses in each lifecycle. -/
theorem witness_FusesBlowOnlyByTheirRules :
    (wTakes wUp (fAddr fKEY_LCGO_OP 0 0) 0x000005 fun _ => (0x000005 : BitVec 24).toNat / 65536 != 0xa5) ∧
    (wTakes (wrC wUp fCOMMON_UCTRL_EN 0x11 0 0) (fAddr fKEY_LCGO_OP 0 0) 0xa50005 fun x => !active x 0x11 0) ∧
    (wTakes wUp (fAddr fKEY_LCGO_OP 0 0) 0xa50405 fun x => active x 0x11 0 && x.fuse.op.isNone &&
      decide ((0xa50405 : BitVec 24).toNat / 65536 = 0xa5 ∧ (0xa50405 : BitVec 24).toNat / 16 % 128 = 64 ∧ x.fuse.floor < 64)) ∧
    (wTakes (wFuse fun f => { f with op := some ⟨6, 0, 0, 0⟩ }) (fAddr fKEY_LCGO_OP 0 0) 0xa50006 fun x => active x 0x11 0 && x.fuse.op.isSome) ∧
    (wTakes (wrF wUp fKEY_RNGSTAT_FAILED 1) (fAddr fKEY_LCGO_OP 0 0) 0xa50001 fun x => active x 0x11 0 && x.fuse.op.isNone &&
      onF x fKEY_RNGSTAT_FAILED) ∧
    (wTakes (wFuse fun f => { f with hash := [(1, some 5)] }) (fAddr fKEY_LCGO_OP 0 0) 0xa50001 fun x => active x 0x11 0 && x.fuse.op.isNone &&
      !onF x fKEY_RNGSTAT_FAILED && x.fuse.state == 0 && x.fuse.blown == 0 && hashLive x.fuse 1 && !tget (fun _ => false) x.fuse.failed 0) ∧
    (wTakes wUp (fAddr fKEY_LCGO_OP 0 0) 0xa50001 fun x => active x 0x11 0 && !onF x fKEY_RNGSTAT_FAILED && !hashLive x.fuse 0 &&
      !hashLive x.fuse 1) ∧
    (wTakes (wFuse fun f => { f with hash := [(1, some 5)], failed := [(0, true), (1, true)] }) (fAddr fKEY_LCGO_OP 0 0) 0xa50001 fun x =>
      active x 0x11 0 && tget (fun _ => false) x.fuse.failed 0 && tget (fun _ => false) x.fuse.failed 1) ∧
    (wTakes (wFuse fun f => { f with state := 1, blown := 1 }) (fAddr fKEY_LCGO_OP 0 0) 0xa50002 fun x => active x 0x11 0 && x.fuse.op.isNone &&
      x.fuse.state == 1 && x.fuse.blown == 1) ∧
    (wTakes wUp (fAddr fKEY_LCGO_OP 0 0) 0xa50002 fun x => active x 0x11 0 && x.fuse.op.isNone && x.fuse.state != 1) ∧
    (wTakes wUp (fAddr fKEY_LCGO_OP 0 0) 0xa5000b fun x => active x 0x11 0 && x.fuse.state != 2 && (tget (fun _ => none) x.fuse.hash 1).isNone &&
      !tget (fun _ => false) x.fuse.revoked 1) ∧
    (wTakes (wFuse fun f => { f with state := 2, blown := 2 }) (fAddr fKEY_LCGO_OP 0 0) 0xa50003 fun x => active x 0x11 0 && x.fuse.op.isNone &&
      x.fuse.state == 2) ∧
    (wTakes (wFuse fun f => { f with hash := [(0, some 5), (1, some 6)] }) (fAddr fKEY_LCGO_OP 0 0) 0xa50004 fun x => active x 0x11 0 &&
      hashLive x.fuse 1) ∧
    (wHas (wFuse fun f => { f with op := some ⟨1, 0, 0, 7⟩ }) fun s => s.fuse.op = some ⟨1, 0, 0, 7⟩ ∧ live s) := by
  decide +kernel

/-- CGO with each operation, CHK disabled, busy and free, another lantern, lengths at their ends, slots of each class, and an envelope
that opens (RFC 3394, 4.1) and one that does not. -/
theorem witness_CheckValuesAreMadeAndVerified :
    (wTakes (wrC (wChk 8 wKek) fCOMMON_UCTRL_EN 0x12 0 0) (fAddr fCHK_CGO_GO 0 0) 1 fun x => !active x 0x12 0) ∧
    (wTakes { wChk 8 wKek with chk := [(0, some (chkPlain 0))] } (fAddr fCHK_CGO_GO 0 0) 1 fun x => active x 0x12 0 && (tget (fun _ =>
      none) x.chk 0).isSome) ∧
    (wTakes (wrF wUp fCHK_COP_OP 4 23) (fAddr fCHK_CGO_GO 23 0) 1 fun x => active x 0x12 23 && (tget (fun _ => none) x.chk 23).isNone &&
      lanternOf 0 != 23) ∧
    (wTakes (wrF (wChk 1 slotReset) fCHK_CLEN_N 4097 0) (fAddr fCHK_CGO_GO 0 0) 1 fun x => active x 0x12 0 && (tget (fun _ =>
      none) x.chk 0).isNone && !macLen 0 x) ∧
    (wTakes (wrF (wrF (wChk 1 slotReset) fCHK_CSLOT_SLOT 2 0) fCHK_CLEN_N 4096 0) (fAddr fCHK_CGO_GO 0 0) 1 fun x => active x 0x12 0 &&
      macLen 0 x &&
      !(keySlot x (rdF x fCHK_CSLOT_SLOT 0)).valid) := by
  decide +kernel

/-- The same, part 2. -/
theorem witness_CheckValuesAreMadeAndVerified_2 :
    (wTakes (wChk 2 slotReset) (fAddr fCHK_CGO_GO 0 0) 1 fun x => active x 0x12 0 && macLen 0 x && (keySlot x 1).valid && !(keySlot x 1).bad &&
      (keySlot x 1).cls != 1) ∧
    (wTakes (wChk 1 slotReset) (fAddr fCHK_CGO_GO 0 0) 1 fun x => active x 0x12 0 && (tget (fun _ => none) x.chk 0).isNone && macLen 0 x &&
      lanternOf 0 == 0 &&
      rdF x fCHK_CSLOT_SLOT 0 == 1 && (keySlot x 1).valid && !(keySlot x 1).bad && (keySlot x 1).cls == 0) ∧
    (wTakes (wrF (wChk 7 { wKek with dir := 1 }) fCHK_CLEN_N 4088 0) (fAddr fCHK_CGO_GO 0 0) 1 fun x => active x 0x12 0 &&
      (keySlot x 1).cls == 2 && mayWrap (keySlot x 1) &&
      decide (1 ≤ rdF x fCHK_CLEN_N 0 ∧ rdF x fCHK_CLEN_N 0 ≤ 4088) && chkFits (rdF x fCHK_CIN_ADDR 0) 4088 && chkFits (rdF x fCHK_COUT_ADDR 0) 4096) ∧
    (wTakes (wrF (wChk 8 { wKek with dir := 2 }) fCHK_CLEN_N 16 0) (fAddr fCHK_CGO_GO 0 0) 1 fun x => active x 0x12 0 && mayUnwrap (keySlot x 1) &&
      decide (16 ≤ rdF x fCHK_CLEN_N 0 ∧ rdF x fCHK_CLEN_N 0 % 8 = 0) && !mayWrap (keySlot x 1)) ∧
    (wTakes { wrF (wChk 5 wKek) fCHK_CKSRC_SLOT 2 0 with slots := [(1, { wKek with valid := true }), (2, { slotReset with valid := true, exp := true })] }
      (fAddr fCHK_CGO_GO 0 0) 1 fun x => active x 0x12 0 && (keySlot x 1).cls == 2 && mayWrap (keySlot x 1) &&
      (keySlot x (rdF x fCHK_CKSRC_SLOT 0)).valid &&
      (keySlot x (rdF x fCHK_CKSRC_SLOT 0)).exp && chkFits (rdF x fCHK_COUT_ADDR 0) ((slotKey (keySlot x (rdF x fCHK_CKSRC_SLOT 0))).length + 8)) := by
  decide +kernel

/-- The same, part 3. -/
theorem witness_CheckValuesAreMadeAndVerified_3 :
    (wTakes (putShared (wrF (wrF (wChk 6 wKek) fCHK_CTSLOT_SLOT 3 0) fCHK_CLEN_N 24 0) 0 0 wWrapped) (fAddr fCHK_CGO_GO 0 0) 1 fun x =>
      active x 0x12 0 &&
      (tget (fun _ => none) x.chk 0).isNone && (keySlot x 1).cls == 2 && mayUnwrap (keySlot x 1) && (eng x 0).kp && rdF x fCHK_CLEN_N 0 == 24 &&
      !(ctAttr x 0).testBit 2 && chkFits (rdF x fCHK_CIN_ADDR 0) 24 && rdF x fCHK_CTSLOT_SLOT 0 == 3 && attrOk (ctAttr x 0) &&
      unwrapKey (slotKey (keySlot x 1)) (chkInput x 0) == some (numBytes 16 0x00112233445566778899aabbccddeeff)) ∧
    unwrapKey (slotKey wKek) (List.replicate 24 0) = none ∧
    (wHas { wUp with chk := [(0, some (chkPlain 2))] } fun s => tget (fun _ => none) s.chk 0 = some (chkPlain 2) ∧ live s ∧ (chkPlain 2).tag = [] ∧
      (chkPlain 2).slot = none) ∧
    (wHas { wUp with chk := [(0, some { chkPlain 0 with slot := some (3, 5) })] } fun s => tget (fun _ =>
      none) s.chk 0 = some { chkPlain 0 with slot := some (3, 5) } ∧ live s) ∧
    (wHas { wUp with chk := [(0, some { chkPlain 0 with tag := List.replicate 16 7 })] } fun s => tget (fun _ =>
      none) s.chk 0 = some { chkPlain 0 with tag := List.replicate 16 7 } ∧
      live s ∧ (List.replicate 16 (7 : Byte)).length ≤ 18) := by
  decide +kernel

/-! ### Time, measurement, power -/

/-- A tick, LATCH with GO set and clear, ADJGO in each form, refused in each way and carried out in each, references lost, better and free
to lock, inputs with and without a pulse, FIFOs with room and full, outputs at their instants, and triggers started, refused, stopped and
due with and without a COUNT. -/
theorem witness_TimeIsKeptAdjustedAndTriggered :
    (wHas wUp fun s => 0 ≤ increment s ∧ timeUnits s + increment s < ((2 ^ 72 * 1000000000 * 2 ^ 40 : Nat) : Int)) ∧
    (wTakes wUp (fAddr fTIME_LATCH_GO 0 56) 1 fun _ => (1 : BitVec 24).getLsbD 0) ∧
    (wTakes wUp (fAddr fTIME_LATCH_GO 0 0) 2 fun _ => !(2 : BitVec 24).getLsbD 0) ∧
    (wTakes wUp (fAddr fTIME_ADJGO_REF 0 0) 1 fun x => adjCheck x 1 == 0) ∧
    (wTakes wUp (fAddr fTIME_ADJGO_REF 0 0) 3 fun x => adjCheck x 3 == 0) ∧
    (wTakes wUp (fAddr fTIME_ADJGO_REF 0 0) 6 fun x => adjCheck x 6 == 3) ∧
    (wHas wUp fun s => (0 : Nat) % 8 = 0 ∧ adjCheck s 0 = 3 ∧ ((7 : Nat).testBit 1 = true ∧ (7 : Nat).testBit 2 = true) ∧ adjCheck s 7 = 3) ∧
    (wHas (wrF wUp fTIME_TSTAT_SELREF 4) fun s => (0x42 : Nat) % 8 ≠ 0 ∧ (0x42 / 16 % 8 = rdF s fTIME_TSTAT_SELREF) ∧
      rdF s fTIME_TSTAT_SELREF = 4 ∧ (0x42 : Nat) / 2 % 4 ≠ 0 ∧ adjCheck s 0x42 = 1) ∧
    (wHas (wrF wUp fTIME_TSTAT_STATE 3) fun s => rdF s fTIME_TSTAT_STATE = 3 ∧ rdF s fTIME_TSTAT_SELREF = 0 ∧ (1 : Nat).testBit 0 = true ∧
      adjCheck s 1 = 1) ∧
    (wHas (wrF (wrF wUp fTIME_TSTAT_SELREF 1) fTIME_FADJ1_F 127) fun s => (0x11 : Nat) / 16 % 8 = rdF s fTIME_TSTAT_SELREF ∧
      1759218604 < (stagedFadj s).natAbs ∧ adjCheck s 0x11 = 2) ∧
    (wHas (wrF wUp fTIME_OFFS0_O 1000) fun s => adjCheck s 10 = 0 ∧ (10 : Nat) / 2 % 4 ≠ 0 ∧ ((10 : Nat).testBit 3) = true ∧
      (adjTarget s ((10 : Nat).testBit 2) - timeUnits s).natAbs ≤ 1000 * 2 ^ 40) ∧
    (wHas (wrF wUp fTIME_OFFS1_O 1) fun s => adjCheck s 2 = 0 ∧ (2 : Nat) / 2 % 4 ≠ 0 ∧ ((2 : Nat).testBit 2 || (2 : Nat).testBit 3) = false) ∧
    (wHas (wrF wUp fTIME_SETN0_NL 1001) fun s => adjCheck s 4 = 0 ∧ (4 : Nat) / 2 % 4 ≠ 0 ∧ ((4 : Nat).testBit 2 || (4 : Nat).testBit 3) = true ∧
      1000 * 2 ^ 40 < (adjTarget s ((4 : Nat).testBit 2) - timeUnits s).natAbs) ∧
    (wHas wUp fun s => s.time.slew = 0 ∧ alwaysOn s ∧ active s 0x13 0 ∧ rdF (noteRefs s) fTIME_TSTAT_SELREF = 0 ∧
      rdF (noteRefs s) fTIME_TSTAT_STATE ≠ 3) ∧
    (wHas (wrF wUp fTIME_TSTAT_SELREF 5) fun s => alwaysOn s ∧ active s 0x13 0 ∧ rdF (noteRefs s) fTIME_TSTAT_SELREF ≠ 0 ∧
      eligible (noteRefs s) (rdF (noteRefs s) fTIME_TSTAT_SELREF) = false) ∧
    (wHas (let s := wAt 7000000000 (wrF (wrF (wrF (wrF wUp fTIME_TSTAT_STATE 3) fTIME_REFCTL_EN 4) fTIME_REFCTL_QUAL 4) fTIME_REFCTL_WTR 10)
      { s with time := { s.time with eligAt := [(3, some 0)] } }) fun s => alwaysOn s ∧ active s 0x13 0 ∧
      tget (fun _ => none) (noteRefs s).time.eligAt (3 : Fin 6) = some 0 ∧
      0 + rdF (noteRefs s) fTIME_REFCTL_WTR * 625000000 ≤ (noteRefs s).sys.ticks ∧
      bestRef (noteRefs s) = 3 ∧ rdF (noteRefs s) fTIME_TSTAT_SELREF = 0 ∧ rdF (noteRefs s) fTIME_TSTAT_STATE = 3) ∧
    (wHas (let s := wAt 7000000000 (wrF (wrF (wrF (wrF wUp fTIME_TSTAT_SELREF 5) fTIME_REFCTL_EN 4) fTIME_REFCTL_QUAL 4) fTIME_REFCTL_WTR 10)
      { s with time := { s.time with eligAt := [(3, some 0)] } }) fun s =>
      tget (fun _ => none) (noteRefs s).time.eligAt (3 : Fin 6) = some 0 ∧
      0 + rdF (noteRefs s) fTIME_REFCTL_WTR * 625000000 ≤ (noteRefs s).sys.ticks ∧
      bestRef (noteRefs s) = (3 : Fin 6).val ∧ (3 : Fin 6).val < rdF (noteRefs s) fTIME_TSTAT_SELREF ∧ (3 : Nat) ≠ rdF s fTIME_TSTAT_SELREF) ∧
    (wHas (wrF wUp fTIME_PPSCFG_EN 1 0 8) fun s => inputsOn s ∧ onF s fTIME_PPSCFG_EN 0 (8 * (1 : Fin 2).val)) ∧
    (wHas (wAt 937500000 (wrF wUp fTIME_PPSST_PPSLOS 0 0 8)) fun s => inputsOn s ∧ onF s fTIME_PPSST_PPSLOS 0 8 = false ∧ tget (fun _ =>
      0) s.time.ppsAt 1 + 937500000 ≤ s.sys.ticks) ∧
    (wHas (wrF wUp fTIME_TODCFG_EN 1 0 8) fun s => inputsOn s ∧ onF s fTIME_TODCFG_EN 0 8 ∧
      paced s (paceTod 1) (6062500000 / baud (rdF s fTIME_TODCFG_RATE 0 8)) ∧ (todFifo s 1).length < 64) ∧
    (wHas (setTod (wrF wUp fTIME_TODCFG_EN 1 0 8) 1 (List.replicate 64 (0, false))) fun s => inputsOn s ∧ onF s fTIME_TODCFG_EN 0 8 ∧
      paced s (paceTod 1) (6062500000 / baud (rdF s fTIME_TODCFG_RATE 0 8)) ∧ 64 ≤ (todFifo s 1).length) ∧
    (wTakes wUp (fAddr fTIME_TODTAKE_TAKE 0 1) 1 fun _ => true) ∧
    (wTakes wUp (fAddr fTIME_EGTAKE_TAKE 0 0) 1 fun _ => true) ∧
    (wHas (wrF wUp fTIME_REFCTL_EN 8) fun s => inputsOn s ∧ (rdF s fTIME_REFCTL_EN).testBit 3 ∧ paced s paceSyncE 62500000) ∧
    (wHas (let s := wrF (wrF wUp fTIME_TODOCFG_EN 1 0 8) fTIME_TODOCFG_MSGEN 1 0 8
      { s with time := { s.time with ns := 20000000 } }) fun s => live s ∧ onF s fTIME_TODOCFG_EN 0 8 ∧ onF s fTIME_TODOCFG_MSGEN 0 8 ∧
      (nowNs s + rdF s fTIME_PPOADV_ADV 0 8) % 1000000000 = 20000000) ∧
    (wTakes (wrF (wrF wUp fTIME_TRGCTL_EN 1 0 240) fTIME_TPN0_N 1000 0 240) (fAddr fTIME_TARM_ARM 0 240) 1 fun x => !trigBad x 15 &&
      onF x fTIME_TRGCTL_EN 0 240) ∧
    (wTakes (wrF wUp fTIME_TPN0_N 999 0 240) (fAddr fTIME_TARM_ARM 0 240) 1 fun x => trigBad x 15) ∧
    (wTakes wUp (fAddr fTIME_TARM_ARM 0 240) 2 fun _ => true) ∧
    (wHas (let s := wrF (wrF wUp fTIME_TRGCTL_EN 1 0 240) fTIME_TPN0_N 1000 0 240
      { s with time := { s.time with trig := [(15, ⟨true, 0, 0, 0⟩)] } }) fun s => alwaysOn s ∧ s.sys.halted = false ∧ (trigOf s 15).run ∧
      onF s fTIME_TRGCTL_EN 0 240 ∧
      fireNs s 15 (trigOf s 15).k ≤ nowNs s ∧ 0 < trigPeriod s 15 ∧ rdF s fTIME_TCNT_C 0 240 = 0) ∧
    (wHas (let s := wrF (wrF (wrF wUp fTIME_TRGCTL_EN 1 0 240) fTIME_TPN0_N 1000 0 240) fTIME_TCNT_C 2 0 240
      { s with time := { s.time with trig := [(15, ⟨true, 0, 0, 1⟩)], ns := 1000 } }) fun s => (trigOf s 15).run ∧ onF s fTIME_TRGCTL_EN 0 240 ∧
      fireNs s 15 (trigOf s 15).k ≤ nowNs s ∧ 0 < trigPeriod s 15 ∧ rdF s fTIME_TCNT_C 0 240 = 2) := by
  decide +kernel

/-- The candle in range, out of it, failed and tried, the oven, comparisons 10 and 10.001 ppb apart, seconds in each state, LSEED and
reads, channels that convert, calibrate and force, a pin's edges, CYGO, an instant ready and late, and PWM. -/
theorem witness_TheCandleAndTheConvertersWork :
    (wHas (wrF wUp fCNDL_CSTAT_OSC 0) fun s => alwaysOn s ∧ onF s fCNDL_CSTAT_OSC = false ∧ s.cndl.failed = false) ∧
    (wHas (wrF { wUp with cndl := { wUp.cndl with failed := true, trying := true } } fCNDL_CSTAT_OSC 0) fun s => alwaysOn s ∧
      onF s fCNDL_CSTAT_OSC = false ∧ s.cndl.failed ∧ s.cndl.trying) ∧
    (wHas (wrF wUp fCNDL_CSTAT_OSC 1) fun s => alwaysOn s ∧ onF s fCNDL_CSTAT_OSC) ∧
    (wHas (wAt 37500000000 { wUp with cndl := { wUp.cndl with failed := true, tryAt := 0 } }) fun s => alwaysOn s ∧ s.cndl.failed ∧
      s.cndl.tryAt + 37500000000 ≤ s.sys.ticks) ∧
    (wHas (wAt 37500000000 (wrF wUp fCNDL_CSTAT_OVENOK 0)) fun s => alwaysOn s ∧ onF s fCNDL_CSTAT_OVENOK = false ∧ paced s paceOven 37500000000 ∧
      s.cndl.onAt + 37500000000 ≤ s.sys.ticks) ∧
    (wHas (wrF wUp fCNDL_CSTAT_OVENOK 1) fun s => alwaysOn s ∧ onF s fCNDL_CSTAT_OVENOK) ∧
    (wHas (let s := wrF wUp fCNDL_CSTAT_OSC 1
      { s with cndl := { s.cndl with cmp := some 0 } }) fun s => s.sys.crystal ∧ onF s fCNDL_CSTAT_OSC ∧ paced s paceCompare 625000000 ∧
      s.cndl.cmp = some 0 ∧
      ((10000 : BitVec 32).toInt - 0).natAbs ≤ 10000 ∧ 10000 < ((10001 : BitVec 32).toInt - 0).natAbs) ∧
    (wHas wUp fun s => alwaysOn s ∧ paced s paceModel 625000000) ∧
    (wTakes wUp (fAddr fCNDL_LSEED_H 0 0) 24 fun _ => true) ∧
    (wHas (wGet wUp (fAddr fCNDL_CSTAT_OSC 0 0)) fun s => getReady s 0 (fAddr fCNDL_CSTAT_OSC 0 0)) ∧
    (wHas (wGet wUp (fAddr fMEAS_DIOEDGE_E 0 0)) fun s => getReady s 0 (fAddr fMEAS_DIOEDGE_E 0 0)) ∧
    (wHas wUp fun s => converts s (17 : Fin 18) ∧ periodPassed s (17 : Fin 18) ∧ 16 ≤ (17 : Fin 18).val) ∧
    (wHas (wrF (wOn wUp 0x15 0) fMEAS_ACFG_MODE 1 0 60) fun s => converts s 15 ∧ periodPassed s 15 ∧ (onF s fMEAS_ACFG_OPEN 0 60 && tget (fun _ =>
      false) s.meas.open_ 15) = false) ∧
    (wHas (let s := wrF (wrF (wOn wUp 0x15 0) fMEAS_ACFG_MODE 1 0 60) fMEAS_ACFG_OPEN 1 0 60
      { s with meas := { s.meas with open_ := [(15, true)] } }) fun s => converts s 15 ∧ periodPassed s 15 ∧ onF s fMEAS_ACFG_OPEN 0 60 ∧
      tget (fun _ => false) s.meas.open_ 15) ∧
    (wHas (wrF (wOn wUp 0x15 0) fMEAS_ACFG_MODE 1 0 60) fun s => measOn s ∧ rdF s fMEAS_ACFG_MODE 0 60 = 1 ∧ calDue s 15 (false &&
      rdF s fMEAS_ACFG_MODE 0 60 == 2)) ∧
    (wHas (wrF (wOn wUp 0x15 0) fMEAS_ACFG_MODE 2 0 60) fun s => measOn s ∧ rdF s fMEAS_ACFG_MODE 0 60 = 2 ∧ calDue s 15 (true &&
      rdF s fMEAS_ACFG_MODE 0 60 == 2)) ∧
    (wHas (wrF (wOn wUp 0x15 0) fMEAS_DCFG_EDGE 1 0 14) fun s => s.meas.pins.testBit 14 ≠ true ∧ pairPin s 14 = false ∧
      rdF s fMEAS_DCFG_DIR 0 14 = 0 ∧ active s 0x15 0 ∧ live s ∧
      (rdF s fMEAS_DCFG_EDGE 0 14).testBit 0) ∧
    (wHas (wOn wUp 0x17 0) fun s => s.meas.pins.testBit 15 ≠ true ∧ pairPin s 15) ∧
    (wTakes wUp (fAddr fMEAS_CYGO_GO 0 0) 255 fun _ => true) ∧
    (wHas (let s := wrF (wOn wUp 0x15 0) fMEAS_CYCFG_EN 1 0 14
      { s with meas := { s.meas with apply := [(7, [(0, 3)])], go := 128 } }) fun s => tget (fun _ => []) s.meas.apply 7 = [(0, 3)] ∧ live s ∧
      0 ≤ nowNs s ∧ active s 0x15 0 ∧
      onF s fMEAS_CYCFG_EN 0 14 ∧ s.meas.go.testBit 7) ∧
    (wHas (let s := wrF (wOn wUp 0x15 0) fMEAS_CYCFG_EN 1 0 14
      { s with meas := { s.meas with apply := [(7, [(0, 3)])] } }) fun s => tget (fun _ => []) s.meas.apply 7 = [(0, 3)] ∧ live s ∧ active s 0x15 0 ∧
      onF s fMEAS_CYCFG_EN 0 14 ∧
      s.meas.go.testBit 7 = false) ∧
    (wHas (wrF (wrF (wOn wUp 0x15 0) fMEAS_PCFG_EN 1 0 28) fMEAS_PCFG_CYC 8 0 28) fun s => live s ∧ s.meas.safe = false ∧
      onF s fMEAS_PCFG_EN 0 28 ∧ 8 ≤ rdF s fMEAS_PCFG_CYC 0 28 ∧
      paced s (pacePwm 7) (8 * ((tget (fun _ => none) s.meas.pwm 7).getD (0, 0)).1 * 624 / 1000)) := by
  decide +kernel

/-- LEVEL free, forced and in a sleep state, transitions of each kind with and without their voltage, entries to each state, wake events,
PADS and OVLD, and temperatures at every bound. -/
theorem witness_LevelsAreReachedAndSleepIsEnteredAndLeft :
    (wTakes wUp (fAddr fPWR_LEVEL_REQ 0 0) 3 fun x => let y := setNow x (fAddr fPWR_LEVEL_REQ 0 0) 3; !onF y fPWR_STATE_FORCED &&
      y.pwr.force.isNone && rdF y fPWR_STATE_CURS == 0) ∧
    (wTakes (wrF wUp fPWR_STATE_FORCED 1) (fAddr fPWR_LEVEL_REQ 0 0) 3 fun x => onF (setNow x (fAddr fPWR_LEVEL_REQ 0 0) 3) fPWR_STATE_FORCED) ∧
    (wHas wUp fun s => s.pwr.run = none ∧ (3 : Nat) < 4 ∧ ¬(atLevel s 3)) ∧
    (wHas (beginLevel wUp 3) fun s => s.pwr.run.isSome) ∧
    (wHas (beginLevel wUp 3) fun s => s.pwr.volt ∧ alwaysOn s ∧ s.sys.halted = false ∧ s.pwr.run = some 0) ∧
    (wHas { wUp with pwr := { wUp.pwr with run := some 1, volt := true } } fun s => s.pwr.volt ∧ alwaysOn s ∧ s.sys.halted = false ∧
      s.pwr.run = some 1) ∧
    (wHas { wUp with pwr := { wUp.pwr with run := some 2, volt := true } } fun s => s.pwr.volt ∧ alwaysOn s ∧ s.sys.halted = false ∧
      s.pwr.run = some 2 ∧ inS3 s = false) ∧
    (wHas { wUp with pwr := { wUp.pwr with run := some 2, volt := true }, sys := { wUp.sys with phase := .asleep } } fun s => s.pwr.volt ∧
      alwaysOn s ∧ s.sys.halted = false ∧
      s.pwr.run = some 2 ∧ inS3 s) ∧
    (wHas (wAt 1250000 (beginLevel wUp 3)) fun s => s.pwr.volt ∧ alwaysOn s ∧ s.sys.halted = false ∧ s.pwr.voltAt + 1250000 ≤ s.sys.ticks ∧
      rdF s fPWR_PMSTAT_TRIES < 3) ∧
    (wHas (wAt 1250000 (wrF (beginLevel wUp 3) fPWR_PMSTAT_TRIES 3)) fun s => s.pwr.volt ∧ s.pwr.voltAt + 1250000 ≤ s.sys.ticks ∧
      3 ≤ rdF s fPWR_PMSTAT_TRIES ∧ s.pwr.run = some 0) ∧
    (wHas (wAt 1250000 (wrF { wUp with pwr := { wUp.pwr with run := some 2, volt := true } } fPWR_PMSTAT_TRIES 3)) fun s => s.pwr.volt ∧
      s.pwr.voltAt + 1250000 ≤ s.sys.ticks ∧
      3 ≤ rdF s fPWR_PMSTAT_TRIES ∧ s.pwr.run = some 2) ∧
    (wHas (wAt 1250000 (wrF { wUp with pwr := { wUp.pwr with run := some 1, volt := true } } fPWR_PMSTAT_TRIES 3)) fun s => s.pwr.volt ∧
      s.pwr.voltAt + 1250000 ≤ s.sys.ticks ∧
      3 ≤ rdF s fPWR_PMSTAT_TRIES ∧ s.pwr.run = some 1) ∧
    (wHas (wrF { wUp with pwr := { wUp.pwr with run := some 1 } } fPWR_STATE_TGTS 1) fun s => s.pwr.run = some 1 ∧ s.pwr.volt = false ∧ live s ∧
      s.fuse.op = none ∧ rdF s fPWR_STATE_TGTS = 1) ∧
    (wHas (wrF { wUp with pwr := { wUp.pwr with run := some 1 } } fPWR_STATE_TGTS 2) fun s => s.pwr.run = some 1 ∧ s.pwr.volt = false ∧ live s ∧
      s.fuse.op = none ∧ rdF s fPWR_STATE_TGTS = 2 ∧
      runningMoves s = 0 ∧ flowsToClear s = []) ∧
    (wHas (wClear wUp) fun s => s.pwr.run = some 1 ∧ s.pwr.volt = false ∧ live s ∧ s.fuse.op = none ∧ rdF s fPWR_STATE_TGTS = 2 ∧
      runningMoves s = 0 ∧ flowsToClear s ≠ []) ∧
    (wHas (wrF { wUp with pwr := { wUp.pwr with run := some 1 }, plc := { wUp.plc with moves := [⟨0, 5, 1, 2, [], true, 0, none⟩] } }
      fPWR_STATE_TGTS 2) fun s => s.pwr.run = some 1 ∧
      s.pwr.volt = false ∧ live s ∧ s.fuse.op = none ∧ rdF s fPWR_STATE_TGTS = 2 ∧ runningMoves s ≠ 0) ∧
    (wHas (wrF { wUp with pwr := { wUp.pwr with run := some 1 } } fPWR_STATE_TGTS 3) fun s => s.pwr.run = some 1 ∧ s.pwr.volt = false ∧ live s ∧
      s.fuse.op = none ∧ rdF s fPWR_STATE_TGTS = 3 ∧
      ((List.range 8).all fun n => (chain ((List.range 8).foldl stopChain s) n).st != 5)) ∧
    (wHas (wrF { wUp with pwr := { wUp.pwr with run := some 1 }, hst := { wUp.hst with chains := [(7, { chainReset with st := 5 })] } }
      fPWR_STATE_TGTS 3) fun s => s.pwr.run = some 1 ∧
      s.pwr.volt = false ∧ live s ∧ s.fuse.op = none ∧ rdF s fPWR_STATE_TGTS = 3 ∧ (chain ((List.range 8).foldl stopChain s) 7).st = 5) ∧
    (wHas (wrF wUp fPWR_STATE_CURS 1) fun s => rdF s fPWR_STATE_CURS ≠ 0 ∧ s.pwr.failed = false ∧ s.pwr.wake = none ∧
      (rdF s fPWR_WAKEMASK_EN).testBit 6) ∧
    (wHas { wUp with pwr := { wUp.pwr with run := some 1 } } fun s => s.pwr.run = some 1 ∧ s.pwr.failed = false ∧ s.pwr.wake = none ∧
      (rdF s fPWR_WAKEMASK_EN).testBit 6) ∧
    (wHas { wUp with hst := { wUp.hst with rate := 1 } } fun s => hostUp s ∧ hostOpen s) ∧
    (wHas (wrF (wOn wUp 5 3) fPON_CHSTAT_LOCK 1 3) fun s => live s ∧ active s 5 3 ∧ onF s fPON_CHSTAT_LOCK 3) ∧
    (wHas (wrF { wUp with pwr := { wUp.pwr with wake := some (0, false) } } fPWR_STATE_CURS 1) fun s => s.pwr.wake.isSome ∧ s.pwr.run = none ∧
      s.pwr.failed = false ∧ s.sys.halted = false ∧
      alwaysOn s ∧ rdF s fPWR_STATE_CURS ≠ 0 ∧ (beginTransition s 2 0 (if inS3 s then 0 else wantedLevel s)).pwr.volt = false) ∧
    (wHas (wrF { wUp with pwr := { wUp.pwr with wake := some (0, false), rail := 3 } } fPWR_STATE_CURS 1) fun s => s.pwr.wake.isSome ∧
      s.pwr.run = none ∧ s.pwr.failed = false ∧
      s.sys.halted = false ∧ alwaysOn s ∧ rdF s fPWR_STATE_CURS ≠ 0 ∧ (beginTransition s 2 0 (if inS3 s then 0 else wantedLevel s)).pwr.volt) ∧
    (wTakes wUp (fAddr fPWR_PADS_REL 0 0) 1 fun _ => true) ∧
    (wHas (wGet wUp (fAddr fPWR_OVLD_CAUSE 0 0)) fun s => getReady s 0 (fAddr fPWR_OVLD_CAUSE 0 0)) ∧
    (wHas wUp fun s => sensorsOn s ∧ 1350 ≤ (1350 : BitVec 16).toInt ∧ isReady s (fAddr fPWR_TJ_T 0 0) = false) ∧
    (wHas (wHot 1350) fun s => sensorsOn s ∧ 1350 ≤ (1350 : BitVec 16).toInt ∧ isReady s (fAddr fPWR_TJ_T 0 0) ∧ 1350 ≤ sext (rdF s fPWR_TJ_T) 16) ∧
    (wHas { wUp with sys := { wUp.sys with halted := true } } fun s => sensorsOn s ∧ s.sys.halted ∧ (1349 : BitVec 16).toInt < 1350) ∧
    (wHas wUp fun s => sensorsOn s ∧ s.sys.halted = false ∧ 1250 ≤ (1250 : BitVec 16).toInt ∧
      onF (result s fPWR_TJ_T 1250) fPWR_STATE_FORCED = false ∧ s.pwr.force = none ∧ s.pwr.run = none) ∧
    (wHas (wrF wUp fPWR_STATE_FORCED 1) fun s => sensorsOn s ∧ s.sys.halted = false ∧ 1250 ≤ (1349 : BitVec 16).toInt ∧
      onF (result s fPWR_TJ_T 1349) fPWR_STATE_FORCED) ∧
    (wHas (beginLevel wUp 3) fun s => sensorsOn s ∧ s.sys.halted = false ∧ onF (result s fPWR_TJ_T 1349) fPWR_STATE_FORCED = false ∧
      s.pwr.force = none ∧ s.pwr.run.isSome ∧ s.pwr.volt) ∧
    (wHas { wUp with pwr := { wUp.pwr with run := some 1 } } fun s => sensorsOn s ∧ s.sys.halted = false ∧
      onF (result s fPWR_TJ_T 1349) fPWR_STATE_FORCED = false ∧ s.pwr.force = none ∧
      s.pwr.run = some 1 ∧ s.pwr.volt = false) ∧
    (wHas wUp fun s => sensorsOn s ∧ s.sys.halted = false ∧ 1150 ≤ (1249 : BitVec 16).toInt ∧ (1249 : BitVec 16).toInt < 1250) ∧
    (wHas wUp fun s => sensorsOn s ∧ s.sys.halted = false ∧ (1149 : BitVec 16).toInt < 1150 ∧
      onF (result s fPWR_TJ_T 1149) fPWR_STATE_FORCED = false) ∧
    (wHas (wrF wUp fPWR_STATE_FORCED 1) fun s => (1149 : BitVec 16).toInt < 1150 ∧ onF (result s fPWR_TJ_T 1149) fPWR_STATE_FORCED ∧
      rdF (wReleased s) fPWR_STATE_CURS = 0 ∧ (wReleased s).pwr.run = none) ∧
    (wHas (wrF (wrF wUp fPWR_STATE_FORCED 1) fPWR_STATE_CURS 1) fun s => onF (result s fPWR_TJ_T 1149) fPWR_STATE_FORCED ∧
      rdF (wReleased s) fPWR_STATE_CURS ≠ 0) ∧
    (wHas (wrF (beginLevel wUp 3) fPWR_STATE_FORCED 1) fun s => onF (result s fPWR_TJ_T 1149) fPWR_STATE_FORCED ∧
      rdF (wReleased s) fPWR_STATE_CURS = 0 ∧ (wReleased s).pwr.run = some 0) := by
  decide +kernel

/-! ### The pair, faults, records, counters, tests -/

/-- The pair in each role, its lines high and low, heartbeats with and without a link, the partner heard or not, records in and out of
order, SWITCH, PRESET, messages at both ends of their room and to a postbox with room and without, and FITOK. -/
theorem witness_ThePairTakesOverMirrorsAndTalks :
    (wHas (wAt 3125000 (wrF (wRole 1) fPAIR_PSTAT_FIT 1)) fun s => pairOn s ∧ role s = 1 ∧ s.pair.seekAt + seekTicks s ≤ s.sys.ticks ∧
      onF s fPAIR_PSTAT_FIT ∧ onF s fPAIR_PSTAT_PACT = false) ∧
    (wHas (wPact (wrF (wrF (wRole 2) fPAIR_PSTAT_FIT 1) fPAIR_PSTAT_SYNCED 1)) fun s => alwaysOn s ∧ onF s fPAIR_PSTAT_PACT ∧
      pairOn (wrF (wrF s fPAIR_PSTAT_PFIT 0) fPAIR_PSTAT_PACT 0) ∧ mayTakeOver (wrF (wrF s fPAIR_PSTAT_PFIT 0) fPAIR_PSTAT_PACT 0)) ∧
    (wHas (wPact (wRole 2)) fun s => alwaysOn s ∧ onF s fPAIR_PSTAT_PACT ∧ mayTakeOver (wrF (wrF s fPAIR_PSTAT_PFIT 0) fPAIR_PSTAT_PACT 0) = false) ∧
    (wHas (wRole 1) fun s => alwaysOn s ∧ onF s fPAIR_PSTAT_PACT = false ∧ pairOn s ∧ role s = 1) ∧
    (wHas (wRole 3) fun s => alwaysOn s ∧ onF s fPAIR_PSTAT_PACT = false ∧ role s ≠ 1) ∧
    (wHas (wPair33 (wRole 1)) fun s => pairOn s ∧ paced s paceBeat 6250 ∧ linkUp s 33) ∧
    (wHas (wRole 1) fun s => pairOn s ∧ paced s paceBeat 6250 ∧ linkUp s 32 = false ∧ linkUp s 33 = false) ∧
    (wHas (wrF (wRole 3) fPAIR_PSTAT_HEARD 1) fun s => pairOn s ∧ onF s fPAIR_PSTAT_HEARD) ∧
    (wHas (wPact (wrF (wrF (wRole 2) fPAIR_PSTAT_FIT 1) fPAIR_PSTAT_SYNCED 1)) fun s => pairOn s ∧ onF s fPAIR_PSTAT_HEARD = false ∧
      onF s fPAIR_PSTAT_PACT ∧ mayTakeOver s) ∧
    (wHas (wPact (wRole 3)) fun s => pairOn s ∧ onF s fPAIR_PSTAT_HEARD = false ∧ onF s fPAIR_PSTAT_PACT ∧ role s = 3 ∧
      onF s fPAIR_PSTAT_GRACE = false ∧ s.pair.pulseAt = none) ∧
    (wHas (let s := wPair33 (wRole 1)
      { s with pair := { s.pair with heard := [(1, some 7)] } }) fun s => pairOn s ∧ linkUp s (32 + (1 : Fin 2)) ∧ tget (fun _ =>
      (none : Option Nat)) s.pair.heard (1 : Fin 2) = some 7 ∧
      role s = 1 ∧ (3 : Fin 4).val = 3) ∧
    (wHas (wPair33 (wRole 2)) fun s => pairOn s ∧ linkUp s (32 + (1 : Fin 2)) ∧ tget (fun _ =>
      (none : Option Nat)) s.pair.heard (1 : Fin 2) = none ∧ (2 : Fin 4).val ≠ 3 ∧ role s ≠ 1 ∧ role s ≠ 3) ∧
    (wHas (wPair33 (wRole 3)) fun s => pairOn s ∧ linkUp s (32 + (1 : Fin 2)) ∧ role s = 3 ∧ rdF s fPAIR_PCFG_PRIMARY < b2n true) ∧
    (wHas (wrF (wPair33 (wRole 3)) fPAIR_PCFG_PRIMARY 1) fun s => pairOn s ∧ linkUp s (32 + (1 : Fin 2)) ∧ role s = 3 ∧
      b2n false < rdF s fPAIR_PCFG_PRIMARY) ∧
    (wHas (wAt 31250 (wPact (wrF (wrF (wRole 3) fPAIR_PCFG_RSTEN 1) fPAIR_PSTAT_GRACE 1))) fun s => pairOn s ∧ onF s fPAIR_PSTAT_GRACE ∧
      s.pair.activeAt + 31250 ≤ s.sys.ticks ∧
      role (showHeard (wrF s fPAIR_PSTAT_GRACE 0)) = 3 ∧ onF (showHeard (wrF s fPAIR_PSTAT_GRACE 0)) fPAIR_PCFG_RSTEN ∧
      onF (showHeard (wrF s fPAIR_PSTAT_GRACE 0)) fPAIR_PSTAT_PACT ∧
      onF (showHeard (wrF s fPAIR_PSTAT_GRACE 0)) fPAIR_PSTAT_HEARD = false) ∧
    (wHas (wAt 31250 (wrF (wRole 3) fPAIR_PSTAT_GRACE 1)) fun s => pairOn s ∧ onF s fPAIR_PSTAT_GRACE ∧ s.pair.activeAt + 31250 ≤ s.sys.ticks ∧
      onF (showHeard (wrF s fPAIR_PSTAT_GRACE 0)) fPAIR_PCFG_RSTEN = false) ∧
    (wTakes (wRole 3) (fAddr fPAIR_PCMD_SWITCH 0 0) 1 fun x => role x == 3) ∧
    (wTakes (wRole 2) (fAddr fPAIR_PCMD_SWITCH 0 0) 1 fun x => role x != 3) ∧
    (wTakes (wRole 2) (fAddr fPAIR_PCMD_SWITCH 0 0) 2 fun x => pairOn x) ∧
    (wHas (wRole 3) fun s => pairOn s ∧ role s = 3) ∧
    (wHas (wPair33 (wRole 1)) fun s => pairOn s ∧ linkUp s 33 ∧ role s ≠ 2) ∧
    (wHas (wPair33 (wRole 2)) fun s => pairOn s ∧ linkUp s 33 ∧ role s = 2 ∧ s.pair.recIn = none) ∧
    (wHas (let s := wPair33 (wRole 2)
      { s with pair := { s.pair with recIn := some 4294967295 } }) fun s => pairOn s ∧ linkUp s 33 ∧ role s = 2 ∧
      s.pair.recIn = some (4294967295 : BitVec 32).toNat ∧
      2 ^ 31 ≤ ((4294967294 : BitVec 32).toNat + 2 ^ 32 - 4294967295) % 2 ^ 32 ∧ 4294967295 ≠ (0 : BitVec 32).toNat ∧
      ((0 : BitVec 32).toNat + 2 ^ 32 - 4294967295) % 2 ^ 32 < 2 ^ 31) ∧
    (wHas { wRole 2 with pair := { (wRole 2).pair with resync := true } } fun s => pairOn s ∧ role s = 2 ∧ s.pair.resync) ∧
    (wHas (let s := wAt 625000 (wrF (wRole 2) fPAIR_PSTAT_HEARD 1)
      { s with pair := { s.pair with mate := some (3, 0, 0) } }) fun s => pairOn s ∧ role s = 2 ∧ onF s fPAIR_PSTAT_HEARD ∧
      s.pair.mate = some (3, 0, 0) ∧ s.pair.recAt + 625000 ≤ s.sys.ticks) ∧
    (wTakes (wRole 2) (fAddr fPAIR_MTXGO_GO 0 0) 1 fun x => pairOn x && x.pair.out.length < 64) ∧
    (wTakes { wRole 2 with pair := { (wRole 2).pair with out := List.replicate 64 ⟨0xd7, 0, 0, 0, 0⟩ } } (fAddr fPAIR_MTXGO_GO 0 0) 1 fun x =>
      pairOn x && 64 ≤ x.pair.out.length) ∧
    (wHas (wRole 2) fun s => pairOn s ∧ s.pair.inbox.isEmpty ∧ paced s paceMessage 6250) ∧
    (wHas (wInbox (wrF (wRole 2) fPAIR_MAGENT_ENG 0xbf)) fun s => s.pair.inbox = [(⟨0xd7, 1, 2, 3, 4⟩, 0)] ∧
      (postTo s (rdF s fPAIR_MAGENT_ENG) ⟨0xd7, 1, 2, 3, 4⟩).2) ∧
    (wHas (wInbox (wrF (wRole 2) fPAIR_MAGENT_ENG 0xff)) fun s => s.pair.inbox = [(⟨0xd7, 1, 2, 3, 4⟩, 0)] ∧
      (postTo s (rdF s fPAIR_MAGENT_ENG) ⟨0xd7, 1, 2, 3, 4⟩).2 = false ∧
      0xc0 ≤ rdF s fPAIR_MAGENT_ENG) ∧
    (wHas (setEng (wInbox (wrF (wRole 2) fPAIR_MAGENT_ENG 0xbf)) 0xbf { eng wUp 0xbf with gated := true }) fun s =>
      s.pair.inbox = [(⟨0xd7, 1, 2, 3, 4⟩, 0)] ∧
      (postTo s (rdF s fPAIR_MAGENT_ENG) ⟨0xd7, 1, 2, 3, 4⟩).2 = false ∧ rdF s fPAIR_MAGENT_ENG < 0xc0 ∧ s.sys.ticks < 0 + 625000) ∧
    (wTakes wUp (fAddr fPAIR_FITOK_OK 0 0) 1 fun _ => true) := by
  decide +kernel

/-- Faults of each class told to a module that runs and one that is halted, domains free, busy and failed, nine starts in each role,
recoveries that end, go on, hold and end their bound, a halt to record, LOG with and without credit and room, CONFIRM, cursors, tag
operations and their refusals. -/
theorem witness_FaultsAreClassedRecoveredAndRecorded :
    (wHas (wTold [⟨0x580022, 63, 0, 0, now wUp⟩]) fun s => alwaysOn s ∧ takeFirst isHalt s.flt.raised = some (⟨0x580022, 63, 0, 0, now wUp⟩, []) ∧
      s.sys.halted = false) ∧
    (wHas (let s := wTold [⟨0x580022, 63, 0, 0, now wUp⟩]
      { s with sys := { s.sys with halted := true } }) fun s => alwaysOn s ∧ (takeFirst isHalt s.flt.raised).isSome ∧ s.sys.halted) ∧
    (wHas (wTold [⟨0x1c0011, 4, 0, 0, now wUp⟩]) fun s => alwaysOn s ∧ takeFirst isHalt s.flt.raised = none ∧ s.sys.halted = false) ∧
    (wHas (let s := wTold [⟨0x1c0011, 4, 0, 0, now wUp⟩]
      { s with sys := { s.sys with halted := true } }) fun s => alwaysOn s ∧ takeFirst isHalt s.flt.raised = none ∧ s.sys.halted) ∧
    classOf 0x1c0011 < 2 ∧
    classOf 0x3c0013 = 2 ∧
    (wHas wUp fun s => (37 : Nat) ≠ 63 ∧ (dom (count s 0x18 (kFltFault (classOf 0x040011)) 37) 37).failed = false ∧ classOf 0x040011 ≠ 2 ∧
      (dom s 37).run = none ∧ endsAtOnce 0x040011 = false ∧
      (0x040011 : Nat) ≠ 0x600010) ∧
    (wHas (setDom wUp 37 { domReset with failed := true }) fun s => (dom (count s 0x18 (kFltFault (classOf 0x040011)) 37) 37).failed) ∧
    (wHas (setDom wUp 37 { domReset with run := some (0x040011, 1) }) fun s => (dom s 37).run = some (0x040011, 1) ∧ (0 : Nat) ≤ 1) ∧
    (wHas wUp fun s => (recentStarts s 37).length < 8) ∧
    (wHas (setDom (wRole 2) 37 { domReset with starts := List.replicate 8 0 }) fun s => 8 ≤ (recentStarts s 37).length ∧
      role (count (setDom s 37 { dom s 37 with starts := [] }) 0x18 kFltEscalated 37) = 2) ∧
    (wHas (setDom wUp 37 { domReset with starts := List.replicate 8 0 }) fun s => 8 ≤ (recentStarts s 37).length ∧ role s = 0) ∧
    (wHas (setDom wUp 37 { domReset with run := some (0x040011, 1) }) fun s => (dom s (37 : Fin 41)).run = some (0x040011, 1) ∧ live s ∧
      ended s 0x040011 37 ∧
      ¬((0x040011 : Nat) = 0x1c0012 ∨ (0x040011 : Nat) = 0x140016)) ∧
    (wHas (setDom wUp 4 { domReset with run := some (0x140016, 1) }) fun s => (dom s (4 : Fin 41)).run = some (0x140016, 1) ∧ live s ∧
      ended s 0x140016 4 ∧ s.sys.crystal) ∧
    (wHas (setDom (setEng wUp 191 { eng wUp 191 with st := .failed }) 37 { domReset with run := some (0x040011, 1) }) fun s => live s ∧
      ended s 0x040011 37 = false) ∧
    (wHas (wAt 625000000 (setDom wUp 37 { domReset with run := some (0x040011, 1) })) fun s => live s ∧
      (dom s 37).since + boundTicks 0x040011 ≤ s.sys.ticks ∧
      holds (count (setDom s 37 { dom s 37 with run := none }) 0x18 kFltUnsuccessful 37) 0x040011 37 = false) ∧
    (wHas (wAt 625000000 (setDom (setEng wUp 191 { eng wUp 191 with st := .failed }) 37 { domReset with run := some (0x040011, 1) })) fun s =>
      live s ∧
      (dom s 37).since + boundTicks 0x040011 ≤ s.sys.ticks ∧ holds (count (setDom s 37 { dom s 37 with run := none }) 0x18 kFltUnsuccessful 37)
      0x040011 37) ∧
    (wHas (wAt 625000000 (setDom (setEng wUp 191 { eng wUp 191 with st := .failed })
      37 { domReset with run := some (0x600010, 2), under := 0x040011 })) fun s => live s ∧
      (dom s 37).run = some (0x600010, 2) ∧ (dom s 37).since + boundTicks (dom s 37).under ≤ s.sys.ticks ∧
      holds (count (setDom s 37 { dom s 37 with run := none }) 0x18 kFltUnsuccessful 37) (dom s 37).under 37) ∧
    (wTakes (wrF wUp fFLT_DSEL_DOM 40) (fAddr fFLT_DCLR_CLR 0 0) 0 fun _ => !(0 : BitVec 24).getLsbD 0) ∧
    (wTakes (wrF wUp fFLT_DSEL_DOM 40) (fAddr fFLT_DCLR_CLR 0 0) 1 fun x => !(dom x (rdF x fFLT_DSEL_DOM)).failed) ∧
    (wTakes (wrF (setDom wUp 40 { domReset with failed := true }) fFLT_DSEL_DOM 40) (fAddr fFLT_DCLR_CLR 0 0) 1 fun x =>
      (dom x (rdF x fFLT_DSEL_DOM)).failed) ∧
    (wHas { wUp with sys := { wUp.sys with halted := true } } fun s => s.sys.halted ∧ s.flt.committed = false) ∧
    (wHas { wUp with log := { wUp.log with raised := [wEv] } } fun s => s.log.raised = [wEv] ∧ alwaysOn s ∧
      onF (takeEvent { s with log := { s.log with raised := [] } } wEv) fCNT_CEVEN_EN = false) ∧
    (wHas (let s := wrF (wrF wUp fCNT_CEVEN_EN 1) fCNT_CEVT_CODE 0x1c0011
      { s with log := { s.log with raised := [wEv] } }) fun s => s.log.raised = [wEv] ∧ alwaysOn s ∧
      onF (takeEvent { s with log := { s.log with raised := [] } } wEv) fCNT_CEVEN_EN ∧
      rdF (takeEvent { s with log := { s.log with raised := [] } } wEv) fCNT_CEVT_CODE = wEv.code ∧
      cntRuns (takeEvent { s with log := { s.log with raised := [] } } wEv)) ∧
    (wHas wUp fun s => ownCode wEv.code = false ∧ hRecord wEv = false ∧ wEv.code ≠ 0x4c0010 ∧ wEv.code ≠ 0x4c0011 ∧ s.sys.halted = false ∧
      creditOf s wEv.code ≠ 0 ∧ nextPos s + 1 < ordinaryRoom ∧
      s.log.full = false) ∧
    (wHas { wUp with log := { wUp.log with credit := [(0x1c0011, 0)] } } fun s => s.sys.halted = false ∧ creditOf s wEv.code = 0) ∧
    (wHas { wUp with log := { wUp.log with full := true } } fun s => s.sys.halted = false ∧ creditOf s wEv.code ≠ 0 ∧ s.log.full) ∧
    (wHas { wUp with log := { wUp.log with buf := [⟨1, 0, 0, 0, 0, 0, 0x1c0011, 0, 0, 0⟩] } } fun s => alwaysOn s ∧ s.log.buf ≠ [] ∧
      paced s paceBuffer 6250000) ∧
    (wHas { wUp with log := { wUp.log with wrapped := true } } fun s => alwaysOn s ∧ s.log.wrapped) ∧
    (wHas (wAt 625000000 { wUp with log := { wUp.log with supp := [(0x1c0011, 1)] } }) fun s => alwaysOn s ∧
      suppOf s (0x1c0011 : BitVec 24).toNat ≠ 0 ∧
      tget (fun _ => 0) s.log.suppAt (0x1c0011 : BitVec 24).toNat + 625000000 ≤ s.sys.ticks) ∧
    (wHas { wUp with time := { wUp.time with adv := 15625000 } } fun s => alwaysOn s ∧ s.time.credited + 15625000 ≤ s.time.adv) ∧
    (wTakes wUp (fAddr fLOG_RCTL_CLEAR 0 0) 0xa50001 fun _ => (0xa50001 : BitVec 24).getLsbD 0 && (0xa50001 : BitVec 24).toNat / 2 ^ 16 == 0xa5) ∧
    (wTakes wUp (fAddr fLOG_RCTL_CLEAR 0 0) 1 fun _ => (1 : BitVec 24).toNat / 2 ^ 16 != 0xa5) ∧
    (wHas wHost fun s => hostUp s ∧ s.sys.phase = .running) ∧
    (wHas (wGet wUp (fAddr fLOG_EW0_SEQ 0 16)) fun s => getReady s 0 (fAddr fLOG_EW0_SEQ 0 (16 * (1 : Fin 2).val))) ∧
    (wHas (wGet wUp (fAddr fLOG_EW10_P3 0 16)) fun s => getReady s 0 (fAddr fLOG_EW10_P3 0 (16 * (1 : Fin 2).val))) ∧
    (wTakes wUp (fAddr fLOG_TRADDR_A 0 0) 4048 fun _ => (4048 : BitVec 24).toNat % 4096 + 3 * 15 + 2 < 4096) ∧
    (wTakes { wUp with log := { wUp.log with tagOp := some ⟨1, 0, 0, []⟩ } } (fAddr fLOG_TGO_OP 0 0) 1 fun x => x.log.tagOp.isSome) ∧
    (wTakes (wrF (wrF wUp fLOG_TWADDR_A 0xfff) fLOG_TWLEN_N 2) (fAddr fLOG_TGO_OP 0 0) 1 fun x => x.log.tagOp.isNone &&
      256 < rdF x fLOG_TWADDR_A % 256 + rdF x fLOG_TWLEN_N) ∧
    (wTakes (wrF (wrF wUp fLOG_TWADDR_A 0xfff) fLOG_TWLEN_N 1) (fAddr fLOG_TGO_OP 0 0) 1 fun x => x.log.tagOp.isNone &&
      rdF x fLOG_TWADDR_A % 256 + rdF x fLOG_TWLEN_N ≤ 256 &&
      !tagLocked x (rdF x fLOG_TWADDR_A / 256)) ∧
    (wTakes (let s := wrF (wrF wUp fLOG_TWADDR_A 0xfff) fLOG_TWLEN_N 1
      { s with log := { s.log with lockP := 2 ^ 15 } }) (fAddr fLOG_TGO_OP 0 0) 1 fun x => x.log.tagOp.isNone &&
      tagLocked x (rdF x fLOG_TWADDR_A / 256)) ∧
    (wTakes wUp (fAddr fLOG_TGO_OP 0 0) 2 fun _ => (2 : BitVec 24).toNat % 4 == 2) ∧
    (wTakes wUp (fAddr fLOG_TGO_OP 0 0) 0xa50003 fun _ => (0xa50003 : BitVec 24).toNat % 4 == 3) ∧
    (wHas { wUp with log := { wUp.log with tagOp := some ⟨1, 15, 4095, [7]⟩ } } fun s => s.log.tagOp = some ⟨1, 15, 4095, [7]⟩ ∧ alwaysOn s ∧
      (15 : Nat) < 16) ∧
    (wHas wUp fun s => s.log.tagOp = none) ∧
    (wTakes wUp (fAddr fLOG_FWCAUSE_CAUSE 0 0) 256 fun _ => true) := by
  decide +kernel

/-- An epoch with and without a dump running, a dump that fits, is refused and does not fit, nodes at their ends, the sample ring off,
taken and refused, the capture ring in each state, a copy lost, refused, out of the space and written, a link under test, and the test
access port open and shut. -/
theorem witness_CountersDumpSampleCaptureAndLinksAreTested :
    (wHas wUp fun s => cntRuns s ∧ s.cnt.dump = none ∧
      paced s paceEpoch (rdF s fCNT_DCFG_DCOUNT * (if rdF s fCNT_DCFG_DUNIT = 0 then 6250 else if rdF s fCNT_DCFG_DUNIT = 1 then 625000 else 625000000))) ∧
    (wHas { wUp with cnt := { wUp.cnt with dump := some (0, [], []) } } fun s => cntRuns s ∧ s.cnt.dump.isSome ∧ s.cnt.late = false ∧
      paced s paceEpoch (rdF s fCNT_DCFG_DCOUNT * (if rdF s fCNT_DCFG_DUNIT = 0 then 6250 else if rdF s fCNT_DCFG_DUNIT = 1 then 625000 else 625000000))) ∧
    leafKey 63 4095 0 % 2 ^ 20 ≠ aggObj ∧
    (wHas (wCnt { wUp with cnt := { wUp.cnt with dump := some (0, [], []) } }) fun s => s.cnt.dump = some (0, [], []) ∧ live s ∧
      rdF s fCNT_DBASEH_BASE * 2 ^ 24 + rdF s fCNT_DBASEL_BASE + 0 + 64 + 0 ≤ dataSpace ∧
      refusedByte s cntMaster (rdF s fCNT_DBASEH_BASE * 2 ^ 24 + rdF s fCNT_DBASEL_BASE + 0) 64 true = none) ∧
    (wHas { wUp with cnt := { wUp.cnt with dump := some (0, [], []) } } fun s => s.cnt.dump = some (0, [], []) ∧ live s ∧
      rdF s fCNT_DBASEH_BASE * 2 ^ 24 + rdF s fCNT_DBASEL_BASE + 0 + 64 + 0 ≤ dataSpace ∧
      refusedByte s cntMaster (rdF s fCNT_DBASEH_BASE * 2 ^ 24 + rdF s fCNT_DBASEL_BASE + 0) 64 true = some 0) ∧
    (wHas { wUp with cnt := { wUp.cnt with dump := some (dataSpace, [], []) } } fun s => live s ∧
      dataSpace < rdF s fCNT_DBASEH_BASE * 2 ^ 24 + rdF s fCNT_DBASEL_BASE + dataSpace + 64 + 0) ∧
    (wHas wUp fun s => live s ∧ (63 : Nat) < 64 ∧ (4095 : Nat) < 4096 ∧ aggObj - 1 < aggObj ∧ aggObj ≤ aggObj) ∧
    (wTakes wUp (fAddr fCNT_NGO_READ 0 0) 1 fun _ => (1 : BitVec 24).getLsbD 0) ∧
    (wTakes wUp (fAddr fCNT_NGO_READ 0 0) 2 fun _ => !(2 : BitVec 24).getLsbD 0 && (2 : BitVec 24).getLsbD 1) ∧
    (wTakes wUp (fAddr fCNT_SMPGO_GO 0 0) 1 fun x => smpRing x == 0) ∧
    (wTakes (wCnt (wrF wUp fCNT_SSIZE_KREC 1)) (fAddr fCNT_SMPGO_GO 0 0) 1 fun x => 0 < smpRing x && cntRuns x &&
      refusedByte x cntMaster (rdF x fCNT_SBASEH_BASE * 2 ^ 24 + rdF x fCNT_SBASEL_BASE + 32 * x.cnt.smpNext) 32 true == none) ∧
    (wTakes (wrF wUp fCNT_SSIZE_KREC 1) (fAddr fCNT_SMPGO_GO 0 0) 1 fun x => 0 < smpRing x && cntRuns x &&
      refusedByte x cntMaster (rdF x fCNT_SBASEH_BASE * 2 ^ 24 + rdF x fCNT_SBASEL_BASE + 32 * x.cnt.smpNext) 32 true == some 0) ∧
    (wTakes (wrF wUp fCNT_CSIZE_U 1) (fAddr fCNT_CGO_ARM 0 0) 1 fun x => cntRuns x && rdF x fCNT_CSIZE_U != 0 && rdF x fCNT_CSTAT_STATE == 0) ∧
    (wTakes (wrF (wrF wUp fCNT_CSIZE_U 1) fCNT_CSTAT_STATE 1) (fAddr fCNT_CGO_ARM 0 0) 1 fun x => cntRuns x && rdF x fCNT_CSIZE_U != 0 &&
      rdF x fCNT_CSTAT_STATE == 1) ∧
    (wTakes (wrF (wrF wUp fCNT_CSIZE_U 1) fCNT_CSTAT_STATE 2) (fAddr fCNT_CGO_ARM 0 0) 1 fun x => cntRuns x && rdF x fCNT_CSIZE_U != 0 &&
      rdF x fCNT_CSTAT_STATE == 2) ∧
    (wTakes wUp (fAddr fCNT_CGO_ARM 0 0) 2 fun x => cntRuns x) ∧
    (wTakes wUp (fAddr fCNT_CGO_ARM 0 0) 4 fun x => rdF x fCNT_CSTAT_STATE != 3) ∧
    (wHas (wrF wUp fCNT_CSTAT_STATE 1) fun s => rdF s fCNT_CSTAT_STATE = 1 ∧ rdF s fCNT_CPOST_MB = 0) ∧
    (wHas (wrF (wrF wUp fCNT_CSTAT_STATE 1) fCNT_CPOST_MB 131071) fun s => rdF s fCNT_CSTAT_STATE = 1 ∧ rdF s fCNT_CPOST_MB ≠ 0) ∧
    (wHas (wrF { wUp with cnt := { wUp.cnt with caps := [(64, 2)] } } fCNT_CSTAT_STATE 2) fun s => live s ∧ rdF s fCNT_CSTAT_STATE = 2 ∧
      s.cnt.capLeft = 0 ∧ s.cnt.caps = [(64, 2)] ++ []) ∧
    (wHas (wCnt (wOffer wUp)) fun s => s.cnt.offers.length = 1 ∧ cntRuns s ∧ (s.cnt.offers.all fun o => offerDone s o &&
      (refusedByte s cntMaster 0 (captureBytes s o).length true).isNone) ∧
      rdF s fCNT_CSTAT_STATE ≠ 2 ∧ rdF s fCNT_CBASEH_BASE * 2 ^ 24 + rdF s fCNT_CBASEL_BASE + 64 * 0 = 0) ∧
    (wHas (wOffer wUp) fun s => cntRuns s ∧ (s.cnt.offers.all fun o => offerDone s o &&
      (refusedByte s cntMaster 0 (captureBytes s o).length true).isSome) ∧ rdF s fCNT_CSTAT_STATE ≠ 2) ∧
    (wHas (wrF (wrF (wOffer wUp) fCNT_CBASEH_BASE 0xffffff) fCNT_CBASEL_BASE 0xffffff) fun s => cntRuns s ∧ (s.cnt.offers.all fun o =>
      offerDone s o &&
      decide (dataSpace < rdF s fCNT_CBASEH_BASE * 2 ^ 24 + rdF s fCNT_CBASEL_BASE + 64 * 0 + (captureBytes s o).length)) ∧
      rdF s fCNT_CSTAT_STATE ≠ 2) ∧
    (wHas (wTest 38) fun s => live s ∧ testing s 38 ∧ rdF s fTST_TCFG_CHK 38 ≠ 0 ∧ onF s fTST_TSTAT_LOCK 38 = false ∧ paced s (paceTerr 38) 625000) ∧
    (wHas (wrF (wTest 33) fTST_TSTAT_LOCK 1 33) fun s => live s ∧ onF s fTST_TSTAT_LOCK 33 ∧ testing s 33 ∧ paced s (paceTerr 33) 625000) ∧
    (wTakes (wTest 38) (fAddr fTST_TINJGO_GO 38 0) 0 fun _ => !(0 : BitVec 24).getLsbD 0) ∧
    (wTakes (wTest 38) (fAddr fTST_TINJGO_GO 38 0) 1 fun x => testing x 38 && rdF x fTST_TCFG_GEN 38 != 0 && tget (fun _ => 0) x.tst.inj 38 != 1 &&
      tget (fun _ => 0) x.tst.inj 38 != 2) ∧
    (wTakes { wTest 38 with tst := { wUp.tst with inj := [(38, 2)] } } (fAddr fTST_TINJGO_GO 38 0) 1 fun x => testing x 38 &&
      rdF x fTST_TCFG_GEN 38 != 0 &&
      tget (fun _ => 0) x.tst.inj 38 == 2) ∧
    (wHas (wAt 6000 (wTest 38)) fun s => live s ∧ testing s 38 ∧ rdF s fTST_TCFG_GEN 38 ≠ 0 ∧ busIdle s ∧ paced s paceTestFrame 1250000) ∧
    (wHas wUp fun s => tapOpen s ∧ ¬[0, 1, 2, 3, 4, 0x10, 0x11].contains (5 : BitVec 8).toNat) ∧
    (wHas (wFuse fun f => { f with lock := true }) fun s => s.fuse.lock) := by
  decide +kernel

/-! ## What WellFormed refuses, and the nearest term it takes -/

/-- 128 bytes of signer record; 16 words of a letter or none at all; eight bucket weights, and 32 refresh reports. -/
theorem test_wf_lengths : (Instr.recoveryImageCheck (List.replicate 127 0)).wf = false ∧ (Instr.recoveryImageCheck (List.replicate 128 0)).wf = true ∧
    (Instr.doorbellRing 0 ⟨List.replicate 15 0, 0⟩).wf = false ∧ (Instr.doorbellRing 0 ⟨List.replicate 16 0, 0⟩).wf = true ∧
    (Instr.letterFetched 0 (List.replicate 17 0) 0 false).wf = false ∧ (Instr.letterFetched 0 [] 1 false).wf = true ∧
    (Instr.parkedReread 0 ⟨List.replicate 17 0, 0⟩).wf = false ∧ (Instr.parkedReread 0 ⟨List.replicate 16 0, 0⟩).wf = true ∧
    (Instr.balanceEpoch (List.replicate 8 0) (List.replicate 7 0) []).wf = false ∧ (Instr.balanceEpoch (List.replicate 8 0) (List.replicate 8 0) []).wf = true ∧
    (Instr.refreshReportRead (List.replicate 31 (0, 0))).wf = false ∧ (Instr.refreshReportRead (List.replicate 32 (0, 0))).wf = true := by decide +kernel

/-- Lines, granules, bounds of counts. -/
theorem test_wf_ranges : (Instr.dramPhyLockLost 0 63 0).wf = false ∧ (Instr.dramPhyLockLost 0 64 0).wf = true ∧
    (Instr.sealCheck 0 0 dataSpace ⟨true, 0⟩).wf = false ∧ (Instr.sealCheck 0 0 0 ⟨true, 0⟩).wf = true ∧
    (Instr.granuleFill 0x1e0000).wf = false ∧ (Instr.granuleFill 0x1dffff).wf = true ∧
    (Instr.counterEccError 0x1c 0 0 true).wf = false ∧ (Instr.counterEccError 0x1b 0 0x100000 true).wf = false ∧
    (Instr.counterEccError 0x1b 0x1000 0 true).wf = false ∧ (Instr.counterEccError 0x1b 0xfff 0xfffff true).wf = true ∧
    (Instr.terrResult 0 4 5 0).wf = false ∧ (Instr.terrResult 0 4 4 5).wf = true ∧
    (Instr.macRxFrameEnd 0 false 0 0).wf = false ∧ (Instr.macRxFrameEnd 0 false 0 1).wf = true ∧
    (Instr.sbusRxFrame (0, 1000000000) ⟨[], 0⟩).wf = false ∧ (Instr.sbusRxFrame (0, 999999999) ⟨[], 0⟩).wf = true := by decide +kernel

/-- Register pairs, sizes and illegal encodings. -/
theorem test_wf_encodings : (Instr.fld 0 1 3 1).wf = false ∧ (Instr.fld 0 1 2 0).wf = false ∧ (Instr.fld 0 1 2 3).wf = true ∧
    (Instr.fst 0 1 0 1).wf = false ∧ (Instr.fst 0 1 4 0).wf = false ∧ (Instr.fst 0 1 4 1).wf = true ∧ (Instr.fbl 0 5 1 0).wf = false ∧
    (Instr.fbl 0 6 1 0).wf = true ∧ (Instr.fbs 0 0 1 0).wf = false ∧ (Instr.fbs 0 14 1 0).wf = true ∧ (Instr.timeat 0 1).wf = false ∧
    (Instr.timeat 0 2).wf = true ∧ (Instr.illegalEncoding 0 0x04d140 0).wf = false ∧ (Instr.illegalEncoding 0 0 0).wf = true := by decide

/-- Postboxes and lists without repeats. -/
theorem test_wf_lists : (Instr.postboxArbitration 0xfe [0]).wf = false ∧ (Instr.postboxArbitration 0 []).wf = false ∧
    (Instr.postboxArbitration 0 [1, 1]).wf = false ∧ (Instr.postboxArbitration 0 [1, 2]).wf = true ∧
    (Instr.messageCollectable 0xfe 0 0).wf = false ∧ (Instr.messageCollectable 0xbf 0 0).wf = true ∧
    (Instr.tribFrameBoundary [(3, []), (3, [])]).wf = false ∧ (Instr.tribFrameBoundary [(3, []), (4, [])]).wf = true ∧
    (Instr.clsSearch 0 [7, 7]).wf = false ∧ (Instr.clsSearch 0 [7, 8]).wf = true := by decide

/-- Unit instances: LANE has 34 of them, unit 0x1C none. -/
theorem test_wf_instances : (Instr.commitSnapshot 0 7 34).wf = false ∧ (Instr.commitSnapshot 0 7 33).wf = true ∧
    (Instr.commitPoint 0x1c 0).wf = false ∧ (Instr.commitPoint 7 0).wf = true ∧ (Instr.unitDisable 0 7 34 0).wf = false ∧
    (Instr.unitDisable 0 7 0 0).wf = true ∧ (Instr.unitEnable 0 7 34 1).wf = false ∧ (Instr.unitEnable 0 7 0 1).wf = true ∧
    (Instr.drainComplete 7 34).wf = false ∧ (Instr.drainComplete 7 0).wf = true ∧ (Instr.drainBoundExpiry 7 34).wf = false ∧
    (Instr.drainBoundExpiry 7 0).wf = true ∧ (Instr.scheduledCommitArm 0 7 34 1).wf = false ∧ (Instr.scheduledCommitArm 0 7 0 1).wf = true ∧
    (Instr.scheduledCommitDisarm 0 7 34 2).wf = false ∧ (Instr.scheduledCommitDisarm 0 7 0 2).wf = true ∧
    (Instr.scheduledCommitDue 7 34).wf = false ∧ (Instr.scheduledCommitDue 7 0).wf = true ∧ (Instr.ustatRead 0 7 34).wf = false ∧
    (Instr.ustatRead 0 7 0).wf = true := by decide

/-- Items of a downstream frame and mirror records. -/
theorem test_wf_items : (Instr.downstreamFrame 0 0 [.xgem 65536 0 0 true true false false []]).wf = false ∧
    (Instr.downstreamFrame 0 0 [.xgem 65535 3 0 true true false false []]).wf = true ∧ (Instr.downstreamFrame 0 0 [.lost 4 [65536]]).wf = false ∧
    (Instr.downstreamFrame 0 0 [.ploam (List.replicate 47 0)]).wf = false ∧ (Instr.downstreamFrame 0 0 [.ploam (List.replicate 48 0)]).wf = true ∧
    (Instr.downstreamFrame 0 0 [.grant 16384 0 0 0 false false]).wf = false ∧ (Instr.downstreamFrame 0 0 [.rangingGrant 1024 0 0 0]).wf = false ∧
    (Instr.downstreamFrame 0 0 [.fec 0 1 2]).wf = false ∧ (Instr.mirrorRecordReceived 0 0 (.pn 4096 0)).wf = false ∧
    (Instr.mirrorRecordReceived 0 0 (.pn 4095 (2 ^ 64))).wf = false ∧ (Instr.mirrorRecordReceived 0 0 (.install 4096)).wf = false ∧
    (Instr.mirrorRecordReceived 0 0 (.withdraw 4096)).wf = false ∧ (Instr.mirrorRecordReceived 0 0 (.switched 1024 0)).wf = false ∧
    (Instr.mirrorRecordReceived 0 0 (.switched 1023 3)).wf = true := by decide +kernel

/-! ## Words of BJ-24 written out from the chapter's encodings, field by field (R131 to R166) -/

/-- The chapter's example: add g3, g4, g5; b.ne -5; ldi g7, 0x140810. -/
theorem test_words_of_the_example : bjRun 0 0x04d140 0 = some (execAdd 0 3 4 5) ∧ bjRun 0 0xc05ffb 0 = some (execB 0 2 0x1ffb) ∧
    bjRun 0 0x21c000 0x140810 = some (execLdi 0 7 0x140810) := ⟨rfl, rfl, rfl⟩

/-- Arithmetic: SUBC, MULHU, CLZ, EXTB; ADDI, SHI with kind 2, EXT at 23 and INS. -/
theorem test_words_of_the_arithmetic : bjRun 0 0b000001_0001_0010_0011_000011#24 0 = some (execSubc 0 1 2 3) ∧
    bjRun 0 0b000001_1111_0010_0011_001110#24 0 = some (execMulhu 0 15 2 3) ∧
    bjRun 0 0b000001_0001_0010_0000_010111#24 0 = some (execClz 0 1 2) ∧ bjRun 0 0b000001_0001_0010_0011_011000#24 0 = some (execExtb 0 1 2 3) ∧
    bjRun 0 0b000010_0001_0010_1111111111#24 0 = some (execAddi 0 1 2 0x3ff) ∧
    bjRun 0 0b000110_0001_0010_10_000_00101#24 0 = some (execShi 0 1 2 2 5) ∧
    bjRun 0 0b001001_0001_0010_10111_00000#24 0 = some (execExt 0 1 2 23 0) ∧
    bjRun 0 0b001010_0001_0010_00100_00111#24 0 = some (execIns 0 1 2 4 7) := ⟨rfl, rfl, rfl, rfl, rfl, rfl, rfl, rfl⟩

/-- Control flow: B with COND 18 and the most negative offset, JMP, CALL, JR. -/
theorem test_words_of_the_control_flow : bjRun 0 0b110000_10010_1000000000000#24 0 = some (execB 0 18 0x1000) ∧
    bjRun 0 0b110001_000_111111111111111#24 0 = some (execJmp 0 0x7fff) ∧
    bjRun 0 0b110010_000_000000000000001#24 0 = some (execCall 0 1) ∧ bjRun 0 0b110011_1111_0001_0000_000000#24 0 = some (execJr 0 15 1) :=
  ⟨rfl, rfl, rfl, rfl⟩

/-- Near memory, window and frames: LD, ST, XADD, CAS, PLD2, PST3, TAKE, SEND, DROP, ADJ. -/
theorem test_words_of_memory_and_window : bjRun 0 0b010000_0001_0010_0000000011#24 0 = some (execLd 0 1 2 3 false) ∧
    bjRun 0 0b010001_0001_0010_0000000011#24 0 = some (execSt 0 1 2 3) ∧ bjRun 0 0b010010_0001_0010_0011_000000#24 0 = some (execXadd 0 1 ⟨2, false⟩ 3) ∧
    bjRun 0 0b010011_0001_0010_0011_000000#24 0 = some (execCas 0 1 ⟨2, false⟩ 3) ∧ bjRun 0 0b010101_0001_0010_0000000011#24 0 = some (execPld2 0 1 2 3) ∧
    bjRun 0 0b011001_0001_0010_0000000011#24 0 = some (execPst3 0 1 2 3) ∧ bjRun 0 0b011010_0000_0000_0000_000000#24 0 = some (execTake 0) ∧
    bjRun 0 0b011010_0000_0000_0000_000001#24 0 = some (execSend 0) ∧ bjRun 0 0b011010_0000_0000_0000_000010#24 0 = some (execDrop 0) ∧
    bjRun 0 0b011010_0000_0000_0101_000011#24 0 = some (execAdj 0 5) := ⟨rfl, rfl, rfl, rfl, rfl, rfl, rfl, rfl, rfl, rfl⟩

/-- Far memory, unit words and messages: FLD.2, FST.3, FBL, FBS, FENCE, SET, GET, COMMIT, POST, COLLECT. -/
theorem test_words_of_far_memory_and_units : bjRun 0 0b100000_0001_0010_0000_000010#24 0 = some (execFld 0 1 2 2) ∧
    bjRun 0 0b100001_0001_0010_0000_000011#24 0 = some (execFst 0 1 2 3) ∧ bjRun 0 0b100010_0000_0010_0011_111111#24 0 = some (execFbl 0 2 3 63) ∧
    bjRun 0 0b100011_0000_0010_0011_000000#24 0 = some (execFbs 0 2 3 0) ∧ bjRun 0 0b100100_0000_0000_0000_000000#24 0 = some (execFence 0) ∧
    bjRun 0 0b101000_0000_0010_0011_000000#24 0 = some (execSet 0 2 3) ∧ bjRun 0 0b101001_0001_0010_0000_000000#24 0 = some (execGet 0 1 2) ∧
    bjRun 0 0b101010_0000_0010_0000_000000#24 0 = some (execCommit 0 2) ∧ bjRun 0 0b101100_0000_0000_0011_000010#24 0 = some (execPost 0 2 3) ∧
    bjRun 0 0b101101_0000_0000_0000_000011#24 0 = some (execCollect 0 3) := ⟨rfl, rfl, rfl, rfl, rfl, rfl, rfl, rfl, rfl, rfl⟩

/-- Waits, traps and system: WATCH, WAIT, TIMEAT, its disarm, TRAP, RTT, NOP, MFL, MTFL, MFTP, MTTP. -/
theorem test_words_of_waits_and_system : bjRun 0 0b111000_0000_0010_0000_000000#24 0 = some (execWatch 0 2) ∧
    bjRun 0 0b111001_0000_0000_000000_1111#24 0 = some (execWait 0 15) ∧ bjRun 0 0b111010_0000_0010_0000_000000#24 0 = some (execTimeat 0 2) ∧
    bjRun 0 0b111010_0000_0000_0000_000001#24 0 = some (execTimeatDisarm 0) ∧ bjRun 0 0b111100_0000_0000_000000_1011#24 0 = some (execTrap 0 11) ∧
    bjRun 0 0b111101_0000_0000_0000_000000#24 0 = some (execRtt 0) ∧ bjRun 0 0b111110_0000_0000_0000_000000#24 0 = some (execNop 0) ∧
    bjRun 0 0b111110_0001_0000_0000_000001#24 0 = some (execMfl 0 1) ∧ bjRun 0 0b111110_0000_0001_0000_000010#24 0 = some (execMtfl 0 1) ∧
    bjRun 0 0b111110_0001_0000_0000_000011#24 0 = some (execMftp 0 1) ∧ bjRun 0 0b111110_0000_0001_0000_000100#24 0 = some (execMttp 0 1) :=
  ⟨rfl, rfl, rfl, rfl, rfl, rfl, rfl, rfl, rfl, rfl, rfl⟩

/-! ## One step each, against values worked out by hand from chapter 05 -/

/-- Engine 0 after one command on a state with g1, g2 and g3 as given. -/
def wRun (i : Instr) (l : List Word) : Engine :=
  match exec i (wRegs wUp l) with
  | .next t => eng t 0
  | _ => eng State.reset 1

/-- The largest positive word plus one: negative with overflow and no carry; the largest word plus one: zero with carry (R136). -/
theorem test_add_wraps : (let g := wRun (.add 0 3 1 2) [0x7fffff, 1]; (reg g 3, g.z, g.n, g.c, g.v)) = (0x800000, false, true, false, true) ∧
    (let g := wRun (.add 0 1 1 2) [0xffffff, 1]; (reg g 1, g.z, g.n, g.c, g.v)) = (0, true, false, true, false) := by decide +kernel

/-- 0 - 1 borrows (R136). -/
theorem test_sub_borrows : (let g := wRun (.sub 0 3 1 2) [0, 1]; (reg g 3, g.z, g.n, g.c, g.v)) = (0xffffff, false, true, true, false) := by
  decide +kernel

/-- A shift by 24 writes zero with bit 0 as the last bit out, an arithmetic one by 31 writes signs (R137). -/
theorem test_shifts_past_the_width : (let g := wRun (.shl 0 3 1 2) [0x000001, 24]; (reg g 3, g.z, g.c)) = (0, true, true) ∧
    (let g := wRun (.sar 0 3 1 2) [0x800000, 31]; (reg g 3, g.n, g.c)) = (0xffffff, true, true) := by decide +kernel

/-- The most negative word divided by -1 wraps with V; -7 by 2 is -3, remainder -1 (R138). -/
theorem test_div_corners : (let g := wRun (.div 0 3 1 2) [0x800000, 0xffffff]; (reg g 3, g.v)) = (0x800000, true) ∧
    reg (wRun (.div 0 3 1 2) [0xfffff9, 2]) 3 = 0xfffffd ∧ reg (wRun (.rem 0 3 1 2) [0xfffff9, 2]) 3 = 0xffffff := by decide +kernel

/-- A divisor of zero traps: the engine continues at keeper level at the vector of cause 7 (R111, R112, R138). -/
theorem test_div_by_zero_traps : (let g := wRun (.divu 0 3 1 2) [5, 0]; (g.tip, g.kp, g.pc)) = (true, true, 28) := by decide +kernel

/-- -1 times -1: signed high word 0, unsigned high word 0xFFFFFE (R136). -/
theorem test_high_products : reg (wRun (.mulh 0 3 1 2) [0xffffff, 0xffffff]) 3 = 0 ∧
    reg (wRun (.mulhu 0 3 1 2) [0xffffff, 0xffffff]) 3 = 0xfffffe := by decide +kernel

/-- A field of 8 bits at 4, out of and into a word (R141). -/
theorem test_fields : reg (wRun (.ext 0 3 1 4 7) [0x123456]) 3 = 0x45 ∧ reg (wRun (.ins 0 2 1 4 7) [0xab, 0x123456]) 2 = 0x123ab6 := by
  decide +kernel

/-- CALL saves the address after it in g15 (R143); g0 reads zero after a write (R99). -/
theorem test_call_links : (let g := wRun (.call 0 0x1234) []; (g.pc, reg g 15)) = (0x1234, 1) ∧ reg (wRun (.addi 0 0 0 7) []) 0 = 0 := by decide +kernel

/-! ## Primitives against the vectors of their own standards -/

/-- The n bytes of a number, the most significant first. -/
def wBytes (n v : Nat) : List Nat := nums (toBytes n v)

/-- GCM test case 1; block 1 of XTS vector 1 of IEEE 1619, B. -/
theorem test_gcm_and_xts : gmac (wBytes 16 0) (wBytes 12 0) [] = wBytes 16 0x58e2fccefa7e3061367f1d57a4e7455a ∧
    xtsBlock (wBytes 16 0) (wBytes 16 0) 0 1 (wBytes 16 0) = wBytes 16 0xcd43d2f59598ed858c02c2652fbf922e := by decide +kernel

/-- The check values of the two CRCs, over "123456789". -/
theorem test_crcs : crc32 (wBytes 9 0x313233343536373839) = 0xcbf43926 ∧ crc32c 0xffffffff (wBytes 9 0x313233343536373839) = 0xe3069283 := by decide +kernel

end Sys2Proof.Machine
end

section
/-! The RST_N pulse (R73): when it resets the module, and the statement about it. -/
namespace Sys2Proof.Machine

/-- The pulse resets the module when it is long enough, or may act and the outside's choice takes it; else it changes nothing (R73). -/
theorem exec_rstNReset_of_on {s : State} (hon : s.sys.phase ≠ .off) (low : Nat) (takes : Bool) :
    exec (.rstNReset low takes) s =
      if 10000 ≤ low ∨ (1000 ≤ low ∧ takes = true) then .next (romStart (resetModule s 2)) else .next s := by
  have hexec : exec (.rstNReset low takes) s = execRstNReset low takes s := rfl
  have hignored : (s.sys.phase == .off || decide (low < 1000) || (decide (low < 10000) && !takes)) = true ↔
      ¬(10000 ≤ low ∨ (1000 ≤ low ∧ takes = true)) := by
    cases takes <;> simp [hon] <;> omega
  rw [hexec, execRstNReset, if_congr hignored rfl rfl, ite_not]

/-- Settles O27: each range of the pulse's length decides the condition of `exec_rstNReset_of_on`. -/
theorem theResetPulseResetsWholeOrNotAtAll : Obligations.TheResetPulseResetsWholeOrNotAtAll := by
  intro low takes s hon
  refine ⟨fun hlong => ?long, fun hshort => ?short, fun hlow hhigh => ⟨?taken, ?ignored⟩⟩ <;> rw [exec_rstNReset_of_on hon]
  case long => exact if_pos (.inl hlong)
  case short => exact if_neg (by omega)
  case taken => exact if_pos (.inr ⟨hlow, rfl⟩)
  case ignored => exact if_neg (by simp [hhigh])

end Sys2Proof.Machine
end

section
/-! How an instruction that may run completes or traps, and when what it did is `Computed`: the rules the arithmetic statements share. -/
namespace Sys2Proof.Machine

/-! ## Running an instruction -/

/-- An instruction that runs and whose body is done retires at the word after its own. -/
theorem instr_of_runs_done {s s' : State} {e : Eng} {size : Nat} {uses : List Reg} {body : Engine → Eff} (hruns : Runs s e size uses)
    (hbody : body (eng s e) = .done s') :
    instr s e size (uses.map Fin.val) body = .next (retire s' e ((eng s e).pc + wd size)) := by
  obtain ⟨hable, hstep, hpast, hdue, hnoted, hfetch, hloading⟩ := hruns
  rw [instr_runs body hable hstep hpast hdue hnoted hfetch (by simpa [List.any_map] using hloading), hbody]

/-- An instruction that runs and whose body traps, with no far load outstanding, takes the trap. -/
theorem instr_of_runs_trap {s : State} {e : Eng} {size : Nat} {uses : List Reg} {body : Engine → Eff} {c d1 d2 : Nat}
    (hruns : Runs s e size uses) (hbody : body (eng s e) = .trap c d1 d2) (hloads : loadsOut (eng s e) = false) :
    instr s e size (uses.map Fin.val) body = .next (takeTrap s e c d1 d2) := by
  obtain ⟨hable, hstep, hpast, hdue, hnoted, hfetch, hloading⟩ := hruns
  rw [instr_runs body hable hstep hpast hdue hnoted hfetch (by simpa [List.any_map] using hloading), hbody]
  simp only [hloads, Bool.false_eq_true, if_false]

/-! ## Results -/

@[simp] theorem flags_setReg (g : Engine) (r : Nat) (v : Word) : flags (setReg g r v) = flags g := by simp [flags]

/-- Retiring on the engine g', to whose rd r is then written, has computed r and the flags of g', where g' differs from the engine before in
no register and in nothing beyond the flags. -/
theorem computed_retire_setReg {s : State} {e : Eng} {g' : Engine} (size : Nat) (rd : Reg) (r : Word)
    (hregs : g'.regs = (eng s e).regs) (hrest : engRest g' = engRest (eng s e)) :
    Computed s (retire (setEng s e (setReg g' rd r)) e ((eng s e).pc + wd size)) e size rd r (flags g') := by
  have hreg (k : Nat) : reg g' k = reg (eng s e) k := by simp only [reg, hregs]
  refine ⟨onlyEngine_retire .., fun k => ?written, ?flags, goesOnAt_retire .., ?rest⟩
  case written => rw [reg_retire, eng_setEng_same, reg_setReg, hreg]
  case flags => rw [flags_retire, eng_setEng_same, flags_setReg]
  case rest => rw [engRest_retire, eng_setEng_same, engRest_setReg, hrest]

theorem computed_retire_writeZN (s : State) (e : Eng) (size : Nat) (rd : Reg) (r : Word) :
    Computed s (retire (setEng s e (writeZN (eng s e) rd r)) e ((eng s e).pc + wd size)) e size rd r (znFlags (eng s e) r) :=
  computed_retire_setReg size rd r rfl rfl

theorem computed_retire_writeZNC (s : State) (e : Eng) (size : Nat) (rd : Reg) (x : Word × Bool) :
    Computed s (retire (setEng s e (writeZNC (eng s e) rd x)) e ((eng s e).pc + wd size)) e size rd x.1
      (x.1 == 0, x.1.msb, x.2, (eng s e).v) :=
  computed_retire_setReg size rd x.1 rfl rfl

theorem computed_retire_writeZNV (s : State) (e : Eng) (size : Nat) (rd : Reg) (r : Word) (v : Bool) :
    Computed s (retire (setEng s e (writeZNV (eng s e) rd r v)) e ((eng s e).pc + wd size)) e size rd r
      (r == 0, r.msb, (eng s e).c, v) :=
  computed_retire_setReg size rd r rfl rfl

/-! ## Traps -/

theorem eng_enterTrap_same (s : State) (e c d1 d2 skid drops : Nat) : eng (enterTrap s e c d1 d2 skid drops) e =
    { eng s e with pc := wd (((eng s e).tp.toNat + 4 * c) % 32768), kp := true, tip := true, cause := c, st := .running, conds := 0,
                   past := false } := by
  simp only [enterTrap, eng_setEng_same]

theorem eng_enterTrap_other (s : State) {e k : Nat} (c d1 d2 skid drops : Nat) (h : k ≠ e) :
    eng (enterTrap s e c d1 d2 skid drops) k = eng s k := by
  simp only [enterTrap, eng_setEng_other _ _ h, eng_setData]

/-- A trap entry writes the engine's trap record alone (R113). -/
theorem dataW_enterTrap_other (s : State) {e k a : Nat} (c d1 d2 skid drops : Nat) (ha : a < 32768)
    (h : ¬(k = e ∧ 0x7ff8 ≤ a ∧ a ≤ 0x7ffd)) : dataW (enterTrap s e c d1 d2 skid drops) k a = dataW s k a := by
  have hkey (b : Nat) (hb : 0x7ff8 ≤ b ∧ b ≤ 0x7ffd) : k * 32768 + a ≠ e * 32768 + b := by omega
  simp [enterTrap, dataW_setData, hkey]

/-- A trap entry changes engines and data memory alone. -/
theorem enterTrap_frame (s : State) (e c d1 d2 skid drops : Nat) :
    { enterTrap s e c d1 d2 skid drops with engs := s.engs, data := s.data } = s := by
  simp only [enterTrap, setEng, setData]

/-- With TIP clear a trap is the one that R111 to R113 describe. -/
theorem trapped_takeTrap {s : State} {e : Eng} (c d1 d2 : Nat) (htip : (eng s e).tip = false) :
    Trapped s (takeTrap s e c d1 d2) e c (wd d1) (wd d2) := by
  have htrap : takeTrap s e c d1 d2 = enterTrap s e c d1 d2 0 (eng s e).dropped := by
    simp only [takeTrap, htip, Bool.false_eq_true, if_false]
  rw [htrap]
  refine ⟨?pc, ?fl, ?cause, ?d1, ?d2, ?dropped, fun k a hout _ ha => dataW_enterTrap_other s c d1 d2 0 _ ha hout, ?_⟩
  case pc | fl | cause | d1 | d2 | dropped => simp [enterTrap, dataW_setData]
  rw [eng_enterTrap_same]
  exact ⟨rfl, rfl, rfl, rfl, rfl, rfl, fun k hk => eng_enterTrap_other s c d1 d2 0 _ hk, enterTrap_frame ..⟩

end Sys2Proof.Machine
end

section
/-! The shifts (R136, R137): what each makes of a word bit by bit, its carry, and the statement about them. -/
namespace Sys2Proof.Machine

/-- The low bits of a number are its remainder. -/
theorem bitsOf_zero (n w : Nat) : bitsOf n 0 w = n % 2 ^ w := by simp [bitsOf]

theorem bitOf_eq_testBit (n i : Nat) : bitOf n i = n.testBit i := by
  rw [Nat.testBit_eq_decide_div_mod_eq, Bool.eq_iff_iff]
  simp [bitOf, bitsOf]

theorem bitOf_toNat (a : Word) (i : Nat) : bitOf a.toNat i = a.getLsbD i := by rw [bitOf_eq_testBit, BitVec.testBit_toNat]

/-- Bit 24 of a word shifted left is the last one shifted out of it. -/
theorem bitOf_mul_two_pow (a : Word) (n : Nat) : bitOf (a.toNat * 2 ^ n) 24 = (decide (n ≤ 24) && a.getLsbD (24 - n)) := by
  rw [bitOf_eq_testBit, Nat.testBit_mul_two_pow, BitVec.testBit_toNat]

/-! ## Words -/

theorem shiftedLeft_shl (a : Word) (n : Nat) : ShiftedLeft a n (shl a n).1 (shl a n).2 := by
  refine ⟨fun i hi => ?bits, ?carry⟩
  case bits =>
    simp only [shl, BitVec.getLsbD_shiftLeft, hi, decide_true, Bool.true_and, ← decide_not, Nat.not_lt]
  case carry =>
    obtain rfl | hn := Nat.eq_zero_or_pos n
    · rfl
    · simp only [shl, hn, Nat.ne_of_gt hn, if_false, bitOf_mul_two_pow, true_and]

theorem shiftedRight_shr (a : Word) (n : Nat) : ShiftedRight a n (shr a n).1 (shr a n).2 := by
  refine ⟨fun i _ => ?bits, ?carry⟩
  case bits => simp only [shr, BitVec.getLsbD_ushiftRight, Nat.add_comm]
  case carry =>
    obtain rfl | hn := Nat.eq_zero_or_pos n
    · rfl
    have hbeyond (h : ¬n ≤ 24) : a.getLsbD (n - 1) = false := BitVec.getLsbD_of_ge _ _ (by omega)
    by_cases h : n ≤ 24 <;> simp [shr, hn, Nat.ne_of_gt hn, bitOf_toNat, h, hbeyond]

theorem shiftedSigned_sar (a : Word) (n : Nat) : ShiftedSigned a n (sar a n).1 (sar a n).2 := by
  refine ⟨fun i hi => ?bits, ?carry⟩
  case bits => simp [sar, BitVec.getLsbD_sshiftRight, Nat.not_le.2 hi, Nat.add_comm]
  case carry =>
    obtain rfl | hn := Nat.eq_zero_or_pos n
    · rfl
    obtain hlt | rfl | hgt := Nat.lt_trichotomy n 24
    · simp [sar, hn, Nat.ne_of_gt hn, bitOf_toNat, Nat.not_le.2 hlt, hlt.le]
    · simp [sar, BitVec.msb_eq_getLsbD_last]
    · simp [sar, hn, Nat.ne_of_gt hn, hgt.le, Nat.not_le.2 hgt]

theorem rotatedLeft_rol (a : Word) (n : Nat) : RotatedLeft a n (rol a n) := by
  intro i hi
  have hn : n % 24 < 24 := Nat.mod_lt _ (by decide)
  rw [rol, BitVec.getLsbD_rotateLeft, Nat.mod_eq_of_lt hn]
  by_cases hwrap : i < n % 24
  · have hfrom : (i + (24 - n % 24)) % 24 = 24 - n % 24 + i := by omega
    simp [hwrap, hfrom]
  · have hfrom : (i + (24 - n % 24)) % 24 = i - n % 24 := by omega
    simp [hwrap, hi, hfrom]

/-! ## Instructions -/

section
variable {s : State} {e : Eng} {uses : List Reg} (hruns : Runs s e 1 uses) (rd : Reg)
include hruns

/-- A shift with C: it computes its word and carry, whatever holds of the two. -/
theorem instrG_writeZNC_computes (x : Engine → Word × Bool) {P : Word → Bool → Prop} (hx : P (x (eng s e)).1 (x (eng s e)).2) :
    ∃ t r c, instrG s e 1 (uses.map Fin.val) (fun g => writeZNC g rd (x g)) = .next t ∧
      Computed s t e 1 rd r (r == 0, r.msb, c, (eng s e).v) ∧ P r c :=
  ⟨_, _, _, instrG_runs _ hruns, computed_retire_writeZNC s e 1 rd (x (eng s e)), hx⟩

/-- A result without C: it is computed, whatever holds of it. -/
theorem instrG_writeZN_computes (x : Engine → Word) {P : Word → Prop} (hx : P (x (eng s e))) :
    ∃ t r, instrG s e 1 (uses.map Fin.val) (fun g => writeZN g rd (x g)) = .next t ∧
      Computed s t e 1 rd r (znFlags (eng s e) r) ∧ P r :=
  ⟨_, _, instrG_runs _ hruns, computed_retire_writeZN s e 1 rd (x (eng s e)), hx⟩

end

/-- Settles O10: each shift writes what its function on words gives, and that shifts bit by bit. -/
theorem shiftsCarryTheLastBitOut : Obligations.ShiftsCarryTheLastBitOut := by
  rintro e rd ra rb amt s a rfl
  refine ⟨fun hruns => ?byRegister, fun hruns => ?byImmediate⟩
  case byRegister =>
    have hamount : (reg (eng s e) rb).toNat % 32 = bitsOf (reg (eng s e) rb).toNat 0 5 := (bitsOf_zero _ 5).symm
    rw [hamount]
    exact ⟨instrG_writeZNC_computes hruns rd (fun g => shl (reg g ra) (bitsOf (reg g rb).toNat 0 5)) (shiftedLeft_shl _ _),
      instrG_writeZNC_computes hruns rd (fun g => shr (reg g ra) (bitsOf (reg g rb).toNat 0 5)) (shiftedRight_shr _ _),
      instrG_writeZNC_computes hruns rd (fun g => sar (reg g ra) (bitsOf (reg g rb).toNat 0 5)) (shiftedSigned_sar _ _),
      instrG_writeZN_computes hruns rd (fun g => rol (reg g ra) (bitsOf (reg g rb).toNat 0 5)) (rotatedLeft_rol _ _)⟩
  case byImmediate =>
    exact ⟨instrG_writeZNC_computes hruns rd (fun g => shl (reg g ra) amt.toNat) (shiftedLeft_shl _ _),
      instrG_writeZNC_computes hruns rd (fun g => shr (reg g ra) amt.toNat) (shiftedRight_shr _ _),
      instrG_writeZNC_computes hruns rd (fun g => sar (reg g ra) amt.toNat) (shiftedSigned_sar _ _),
      instrG_writeZN_computes hruns rd (fun g => rol (reg g ra) amt.toNat) (rotatedLeft_rol _ _)⟩

end Sys2Proof.Machine
end

section
/-! The divisions (R138): the words that DIV, REM, DIVU and REMU write, the trap at zero, and the statement about them. -/
namespace Sys2Proof.Machine

/-! ## Words -/

/-- A signed number taken to 24 bits of two's complement is the word of that number. -/
theorem wd_unsext (i : Int) : wd (unsext i 24) = BitVec.ofInt 24 i := by
  apply BitVec.eq_of_toNat_eq
  simp only [unsext, BitVec.toNat_ofNat, BitVec.toNat_ofInt]
  omega

theorem wd_unsext_tdiv (a b : Word) : wd (unsext (a.toInt.tdiv b.toInt) 24) = a.sdiv b := by
  rw [wd_unsext, ← BitVec.toInt_inj, BitVec.toInt_ofInt, BitVec.toInt_sdiv]

theorem wd_unsext_tmod (a b : Word) : wd (unsext (a.toInt.tmod b.toInt) 24) = a.srem b := by
  rw [wd_unsext, ← BitVec.toInt_srem, BitVec.ofInt_toInt]

theorem divOver_eq_decide (a b : Word) : divOver a b = decide (a = 0x800000 ∧ b = 0xffffff) := by
  rw [Bool.eq_iff_iff]
  simp [divOver]

/-- The signed quotient is rounded toward zero, but for the one that wraps (R138). -/
theorem toInt_sdiv_word (a b : Word) :
    (a.sdiv b).toInt = if a = 0x800000 ∧ b = 0xffffff then -8388608 else a.toInt.tdiv b.toInt := by
  by_cases hover : a = 0x800000 ∧ b = 0xffffff
  · obtain ⟨rfl, rfl⟩ := hover
    decide
  · rw [if_neg hover]
    exact BitVec.toInt_sdiv_of_ne_or_ne a b (not_and_or.1 hover)

/-! ## Instructions -/

section
variable (e : Eng) (rd ra rb : Reg) (s : State)

theorem exec_div : exec (.div e rd ra rb) s = instr s e 1 ([rd, ra, rb].map Fin.val) fun g => divTrap g rb (encR 1 rd ra rb 0x0f).toNat
    (setEng s e (writeZNV g rd ((reg g ra).sdiv (reg g rb)) (divOver (reg g ra) (reg g rb)))) := by
  simp only [← wd_unsext_tdiv]
  rfl

theorem exec_rem : exec (.rem e rd ra rb) s = instr s e 1 ([rd, ra, rb].map Fin.val) fun g => divTrap g rb (encR 1 rd ra rb 0x11).toNat
    (setEng s e (writeZNV g rd ((reg g ra).srem (reg g rb)) (divOver (reg g ra) (reg g rb)))) := by
  simp only [← wd_unsext_tmod]
  rfl

theorem exec_divu : exec (.divu e rd ra rb) s = instr s e 1 ([rd, ra, rb].map Fin.val) fun g => divTrap g rb (encR 1 rd ra rb 0x10).toNat
    (setEng s e (writeZN g rd (reg g ra / reg g rb))) := by
  simp only [BitVec.udiv_def]
  rfl

theorem exec_remu : exec (.remu e rd ra rb) s = instr s e 1 ([rd, ra, rb].map Fin.val) fun g => divTrap g rb (encR 1 rd ra rb 0x12).toNat
    (setEng s e (writeZN g rd (reg g ra % reg g rb))) := by
  simp only [BitVec.umod_def]
  rfl

end

section
variable {s : State} {e : Eng} {uses : List Reg} (hruns : Runs s e 1 uses) {rb : Reg}
include hruns

/-- A division by a divisor that is not zero has its effect on the engine. -/
theorem instr_divTrap_of_ne_zero (hdivisor : reg (eng s e) rb ≠ 0) (w0 : Nat) (f : Engine → Engine) :
    instr s e 1 (uses.map Fin.val) (fun g => divTrap g rb w0 (setEng s e (f g))) =
      .next (retire (setEng s e (f (eng s e))) e ((eng s e).pc + wd 1)) :=
  instr_of_runs_done hruns (if_neg hdivisor)

/-- A division by zero traps with its own word as detail 1. -/
theorem instr_divTrap_of_zero (hdivisor : reg (eng s e) rb = 0) (htip : (eng s e).tip = false) (hloads : loadsOut (eng s e) = false)
    (w0 : Word) (f : Engine → Engine) :
    ∃ t, instr s e 1 (uses.map Fin.val) (fun g => divTrap g rb w0.toNat (setEng s e (f g))) = .next t ∧ Trapped s t e 7 w0 0 := by
  have htrapped := trapped_takeTrap 7 w0.toNat 0 htip
  rw [wd, BitVec.ofNat_toNat, BitVec.setWidth_eq] at htrapped
  exact ⟨_, instr_of_runs_trap hruns (if_pos hdivisor) hloads, htrapped⟩

end

/-- Settles O11: with a divisor each instruction computes its word, and without one it takes the division trap. -/
theorem divisionsRoundTowardZeroOrTrap : Obligations.DivisionsRoundTowardZeroOrTrap := by
  rintro e rd ra rb s a b rfl rfl hruns
  rw [exec_div, exec_rem, exec_divu, exec_remu, ← divOver_eq_decide]
  refine ⟨fun hdivisor => ?computes, fun hdivisor htip hloads => ?traps⟩
  case computes =>
    have hcompletes := instr_divTrap_of_ne_zero hruns hdivisor
    exact ⟨⟨_, _, hcompletes .., computed_retire_writeZNV .., toInt_sdiv_word ..⟩,
      ⟨_, _, hcompletes .., computed_retire_writeZNV .., BitVec.toInt_srem ..⟩,
      ⟨_, hcompletes .., computed_retire_writeZN ..⟩, ⟨_, hcompletes .., computed_retire_writeZN ..⟩⟩
  case traps =>
    have htraps := instr_divTrap_of_zero hruns hdivisor htip hloads
    exact ⟨htraps .., htraps .., htraps .., htraps ..⟩

end Sys2Proof.Machine
end

section
/-! Illegal encodings (R132): what each group of instructions refuses, and the statement about all of them. -/
namespace Sys2Proof.Machine

/-! ## Fields of a word -/

theorem opOf_eq_div (w : Word) : opOf w = w.toNat / 262144 := by
  have := w.isLt
  simp only [opOf, bitsOf]
  omega

theorem rdOf_val (w : Word) : (rdOf w).val = w.toNat / 16384 % 16 := by simp [rdOf, bitsOf]

theorem raOf_val (w : Word) : (raOf w).val = w.toNat / 1024 % 16 := by simp [raOf, bitsOf]

theorem rbOf_val (w : Word) : (rbOf w).val = w.toNat / 64 % 16 := by simp [rbOf, bitsOf]

theorem fnOf_eq_mod (w : Word) : fnOf w = w.toNat % 64 := by simp [fnOf, bitsOf]

theorem immOf_toNat (w : Word) : (immOf w).toNat = w.toNat % 1024 := by simp [immOf]

/-! ## Fields that must be zero, and groups -/

@[simp] theorem ifZero_nil_eq_none_iff {f : State → Out} : ifZero [] f = none ↔ False := by simp [ifZero]

@[simp] theorem ifZero_cons_eq_none_iff {x : Nat} {fields : List Nat} {f : State → Out} :
    ifZero (x :: fields) f = none ↔ x ≠ 0 ∨ ifZero fields f = none := by
  by_cases h : x = 0 <;> simp [ifZero, h]

/-- A pair begins at an even register that is not g0. -/
theorem pairOk_iff (r : Nat) : pairOk r = true ↔ r % 2 = 0 ∧ r ≠ 0 := by
  rw [pairOk, Bool.and_eq_true, beq_iff_eq, bne_iff_ne]

section
variable {e : Eng} {w : Word}

theorem aluRun_eq_none (h : 0x18 < fnOf w ∨ (fnOf w = 0x17 ∧ (rbOf w).val ≠ 0)) : aluRun e w = none := by
  unfold aluRun
  obtain hfn | ⟨hfn, hb⟩ := h
  · split
    case h_26 => rfl
    all_goals omega
  · simp only [hfn, ifZero_cons_eq_none_iff]
    exact .inl hb

theorem frmRun_eq_none (h : 3 < fnOf w ∨ (rdOf w).val ≠ 0 ∨ (raOf w).val ≠ 0 ∨ (fnOf w ≠ 3 ∧ (rbOf w).val ≠ 0)) : frmRun e w = none := by
  unfold frmRun
  split
  case h_5 => rfl
  all_goals
    simp only [ifZero_cons_eq_none_iff, ifZero_nil_eq_none_iff]
    omega

theorem sysRun_eq_none (h : 4 < fnOf w ∨ (rbOf w).val ≠ 0 ∨ (fnOf w ∈ [0, 2, 4] ∧ (rdOf w).val ≠ 0) ∨
    (fnOf w ∈ [0, 1, 3] ∧ (raOf w).val ≠ 0)) : sysRun e w = none := by
  simp only [List.mem_cons, List.not_mem_nil, or_false] at h
  unfold sysRun
  split
  case h_6 => rfl
  all_goals
    simp only [ifZero_cons_eq_none_iff, ifZero_nil_eq_none_iff]
    omega

theorem branchRun_eq_none (h : 19 ≤ w.toNat / 8192 % 32) : branchRun e w = none :=
  dif_neg (Nat.not_lt.2 h)

theorem fieldRun_eq_none {f : Fin 24 → BitVec 5 → State → Out} (h : 24 ≤ w.toNat % 1024 / 32) : fieldRun w f = none :=
  dif_neg (by simp only [bitsOf]; omega)

theorem farRun_eq_none {f : Fin 4 → State → Out}
    (h : (raOf w).val % 2 = 1 ∨ (raOf w).val = 0 ∨ (rbOf w).val ≠ 0 ∨ 4 ≤ fnOf w ∨ fnOf w = 0) : farRun w f = none := by
  simp only [farRun, ite_eq_right_iff, Bool.and_eq_true, pairOk_iff, bne_iff_ne, ifZero_cons_eq_none_iff, ifZero_nil_eq_none_iff]
  omega

/-- An OP that R135 does not assign runs nothing. -/
theorem bjRun_eq_none_of_unassigned {w1 : Word} {bad : Bool}
    (h : opOf w ∉ [0x01, 0x02, 0x03, 0x04, 0x05, 0x06, 0x07, 0x08, 0x09, 0x0a, 0x10, 0x11, 0x12, 0x13, 0x14, 0x15, 0x16, 0x17, 0x18, 0x19, 0x1a,
        0x20, 0x21, 0x22, 0x23, 0x24, 0x28, 0x29, 0x2a, 0x2c, 0x2d, 0x30, 0x31, 0x32, 0x33, 0x38, 0x39, 0x3a, 0x3c, 0x3d, 0x3e]) :
    bjRun e w w1 bad = none := by
  simp only [List.mem_cons, List.not_mem_nil, or_false, not_or] at h
  unfold bjRun
  split
  case h_42 => rfl
  all_goals omega

end

/-- Settles O25: one case for each kind of illegal word, in the order of the statement. -/
theorem illegalEncodingsRunNothing : Obligations.IllegalEncodingsRunNothing := by
  intro e w w1 bad op d a b fn imm hop hd ha hb hfn himm hillegal
  rw [← opOf_eq_div] at hop
  rw [← rdOf_val] at hd
  rw [← raOf_val] at ha
  rw [← rbOf_val] at hb
  rw [← fnOf_eq_mod] at hfn
  subst hop hd ha hb hfn
  have hkind : bitsOf w.toNat 5 3 = imm / 32 % 8 := by simp only [bitsOf]; omega
  have hlow : bitsOf w.toNat 4 6 = imm / 16 := by simp only [bitsOf]; omega
  obtain h | ⟨hop, h⟩ | ⟨hop, h⟩ | ⟨hop, h⟩ | ⟨hop, h⟩ | ⟨hop, h⟩ | ⟨hop, h⟩ | ⟨hop | hop, h⟩ | ⟨hop | hop, h⟩ | ⟨hop | hop, h⟩ |
    ⟨hop | hop, h⟩ | ⟨hop | hop, h⟩ | ⟨hop, h⟩ | ⟨hop | hop, h⟩ | ⟨hop, h⟩ | ⟨hop, h⟩ | ⟨hop, h⟩ | ⟨hop | hop, h⟩ | ⟨hop, h⟩ |
    ⟨hop, h⟩ | ⟨hop, h⟩ := hillegal
  · exact bjRun_eq_none_of_unassigned h
  all_goals simp only [bjRun, hop, ite_eq_right_iff, pairOk_iff, ifZero_cons_eq_none_iff, ifZero_nil_eq_none_iff, or_false]
  · exact aluRun_eq_none h
  · exact frmRun_eq_none h
  · exact sysRun_eq_none h
  · exact branchRun_eq_none h
  · rwa [hkind] -- SHI
  · rwa [immOf_toNat, ← himm] -- LDI
  · exact fieldRun_eq_none (himm ▸ h) -- EXT
  · exact fieldRun_eq_none (himm ▸ h) -- INS
  · exact h -- XADD
  · exact h -- CAS
  · exact farRun_eq_none h -- FLD
  · exact farRun_eq_none h -- FST
  · omega -- FBL
  · omega -- FBS
  · exact h -- FENCE
  · exact h -- RTT
  · exact h -- SET
  · exact h -- GET
  · exact h -- JR
  · exact h -- COMMIT
  · omega -- POST
  · omega -- COLLECT
  · exact h -- JMP
  · exact h -- CALL
  · rwa [hlow] -- WAIT
  · rwa [hlow] -- TRAP
  · split -- TIMEAT, and its disarm
    · rw [ite_eq_right_iff]
      omega
    · simp only [ite_eq_right_iff, ifZero_cons_eq_none_iff]
      omega

end Sys2Proof.Machine
end

section
/-! Every encoding of BJ-24 (R131 to R166): the fields of the words that the formats build, and the instruction that each of them runs. -/
namespace Sys2Proof.Machine

/-! ## Fields of the words that the formats build -/

section
variable {op d a b fn imm : Nat} (hop : op < 64) (hd : d < 16) (ha : a < 16)
include hop hd ha

theorem toNat_encI (himm : imm < 1024) : (encI op d a imm).toNat = op * 262144 + d * 16384 + a * 1024 + imm := by
  simp only [encI, wd, BitVec.toNat_ofNat]
  omega

@[simp] theorem opOf_encI (himm : imm < 1024) : opOf (encI op d a imm) = op := by
  rw [opOf_eq_div, toNat_encI hop hd ha himm]
  omega

@[simp] theorem rdOf_encI (himm : imm < 1024) : rdOf (encI op d a imm) = Fin.ofNat 16 d := by
  rw [Fin.ext_iff, rdOf_val, toNat_encI hop hd ha himm, Fin.val_ofNat]
  omega

@[simp] theorem raOf_encI (himm : imm < 1024) : raOf (encI op d a imm) = Fin.ofNat 16 a := by
  rw [Fin.ext_iff, raOf_val, toNat_encI hop hd ha himm, Fin.val_ofNat]
  omega

@[simp] theorem immOf_encI (himm : imm < 1024) : immOf (encI op d a imm) = BitVec.ofNat 10 imm := by
  apply BitVec.eq_of_toNat_eq
  rw [immOf_toNat, toNat_encI hop hd ha himm, BitVec.toNat_ofNat]
  omega

/-- Bits that lie within IMM10 are those of the immediate. -/
theorem bitsOf_encI (himm : imm < 1024) {lo w : Nat} (hw : lo + w ≤ 10) : bitsOf (encI op d a imm).toNat lo w = bitsOf imm lo w := by
  have h10 : (encI op d a imm).toNat = imm + 2 ^ 10 * (op * 256 + d * 16 + a) := by
    rw [toNat_encI hop hd ha himm]
    omega
  obtain ⟨k, hk⟩ := Nat.exists_eq_add_of_le hw
  rw [h10, hk, bitsOf, bitsOf, Nat.pow_add, Nat.pow_add, Nat.mul_assoc, Nat.mul_assoc, Nat.add_mul_div_left _ _ (Nat.two_pow_pos lo),
    Nat.add_mul_mod_self_left]

/-- The low bits of a word of the I format are those of its immediate. -/
theorem setWidth_encI (himm : imm < 1024) {w : Nat} (hw : w ≤ 10) : (encI op d a imm).setWidth w = BitVec.ofNat w imm := by
  have h := bitsOf_encI hop hd ha himm (lo := 0) (w := w) (by omega)
  apply BitVec.eq_of_toNat_eq
  simpa only [bitsOf_zero, BitVec.toNat_ofNat, BitVec.toNat_setWidth] using h

section
variable (hb : b < 16) (hfn : fn < 64)
include hb hfn

/-- A word of the R format is one of the I format whose IMM10 holds RB and FN. -/
theorem toNat_encR : (encR op d a b fn).toNat = op * 262144 + d * 16384 + a * 1024 + (b * 64 + fn) := by
  rw [← toNat_encI hop hd ha (by omega)]
  simp only [encR, encI, Nat.add_assoc]

@[simp] theorem opOf_encR : opOf (encR op d a b fn) = op := by
  rw [opOf_eq_div, toNat_encR hop hd ha hb hfn]
  omega

@[simp] theorem rdOf_encR : rdOf (encR op d a b fn) = Fin.ofNat 16 d := by
  rw [Fin.ext_iff, rdOf_val, toNat_encR hop hd ha hb hfn, Fin.val_ofNat]
  omega

@[simp] theorem raOf_encR : raOf (encR op d a b fn) = Fin.ofNat 16 a := by
  rw [Fin.ext_iff, raOf_val, toNat_encR hop hd ha hb hfn, Fin.val_ofNat]
  omega

@[simp] theorem rbOf_encR : rbOf (encR op d a b fn) = Fin.ofNat 16 b := by
  rw [Fin.ext_iff, rbOf_val, toNat_encR hop hd ha hb hfn, Fin.val_ofNat]
  omega

@[simp] theorem fnOf_encR : fnOf (encR op d a b fn) = fn := by
  rw [fnOf_eq_mod, toNat_encR hop hd ha hb hfn]
  omega

end
end

/-- The fields of a word of the form that B, JMP and CALL have: OP and 18 bits. -/
theorem toNat_wd_of_op {op n : Nat} (hop : op < 64) (hn : n < 262144) : (wd (op * 262144 + n)).toNat = op * 262144 + n := by
  simp only [wd, BitVec.toNat_ofNat]
  omega

theorem opOf_wd {op n : Nat} (hop : op < 64) (hn : n < 262144) : opOf (wd (op * 262144 + n)) = op := by
  rw [opOf_eq_div, toNat_wd_of_op hop hn]
  omega

/-! ## Instructions -/

@[simp] theorem ifZero_nil (f : State → Out) : ifZero [] f = some f := rfl

@[simp] theorem ifZero_cons_zero (fields : List Nat) (f : State → Out) : ifZero (0 :: fields) f = ifZero fields f := by simp [ifZero]

section
variable (e : Eng) (d a b : Reg) (w1 : Word) (bad : Bool)

theorem bjRun_alu : ∀ p ∈ [(0x00, execAdd), (0x01, execAddc), (0x02, execSub), (0x03, execSubc), (0x04, execAnd), (0x05, execOr), (0x06, execXor),
        (0x07, execAndn), (0x08, execShl), (0x09, execShr), (0x0a, execSar), (0x0b, execRol), (0x0c, execMul), (0x0d, execMulh),
        (0x0e, execMulhu), (0x0f, execDiv), (0x10, execDivu), (0x11, execRem), (0x12, execRemu), (0x13, execMin), (0x14, execMax),
        (0x15, execMinu), (0x16, execMaxu), (0x18, execExtb)],
      bjRun e (encR 0x01 d a b p.1) w1 bad = some (p.2 e d a b) := by
  have hgroup {fn : Nat} (hfn : fn < 64) : bjRun e (encR 0x01 d a b fn) w1 bad = aluRun e (encR 0x01 d a b fn) := by simp [bjRun, hfn]
  simp [hgroup, aluRun]

theorem bjRun_immediate : ∀ p ∈ [(0x02, execAddi), (0x03, execAndi), (0x04, execOri), (0x05, execXori), (0x07, execSubi), (0x11, execSt),
        (0x14, execPld1), (0x15, execPld2), (0x16, execPld3), (0x17, execPst1), (0x18, execPst2), (0x19, execPst3)],
      ∀ imm : BitVec 10, bjRun e (encI p.1 d a imm.toNat) w1 bad = some (p.2 e d a imm) := by
  have himm (imm : BitVec 10) : imm.toNat < 1024 := imm.isLt
  simp [bjRun, himm]

/-- SHI: kind and amount are IMM10[9:8] and IMM10[4:0], the bits between them zero. -/
theorem bjRun_shi (kind : Fin 4) (amt : BitVec 5) :
    bjRun e (encI 0x06 d a (256 * kind + amt.toNat)) w1 bad = some (execShi e d a kind amt) := by
  have hamt : amt.toNat < 32 := amt.isLt
  have himm : 256 * kind.val + amt.toNat < 1024 := by omega
  have hmust : bitsOf (256 * kind.val + amt.toNat) 5 3 = 0 := by simp only [bitsOf]; omega
  have hkind : bitsOf (256 * kind.val + amt.toNat) 8 2 = kind := by simp only [bitsOf]; omega
  have hlow : BitVec.ofNat 5 (256 * kind.val + amt.toNat) = amt := by
    apply BitVec.eq_of_toNat_eq
    simp only [BitVec.toNat_ofNat]
    omega
  simp [bjRun, himm, bitsOf_encI, setWidth_encI, hmust, hkind, hlow]

/-- EXT and INS: position and width are IMM10[9:5] and IMM10[4:0]. -/
theorem fieldRun_encI {op : Nat} (hop : op < 64) (pos : Fin 24) (wm1 : BitVec 5) (f : Fin 24 → BitVec 5 → State → Out) :
    fieldRun (encI op d a (32 * pos + wm1.toNat)) f = some (f pos wm1) := by
  have hwm1 : wm1.toNat < 32 := wm1.isLt
  have himm : 32 * pos.val + wm1.toNat < 1024 := by omega
  have hpos : bitsOf (32 * pos.val + wm1.toNat) 5 5 = pos := by simp only [bitsOf]; omega
  have hlow : BitVec.ofNat 5 (32 * pos.val + wm1.toNat) = wm1 := by
    apply BitVec.eq_of_toNat_eq
    simp only [BitVec.toNat_ofNat]
    omega
  simp [fieldRun, hop, himm, bitsOf_encI, setWidth_encI, hpos, hlow]

theorem bjRun_field (pos : Fin 24) (wm1 : BitVec 5) :
    bjRun e (encI 0x09 d a (32 * pos + wm1.toNat)) w1 bad = some (execExt e d a pos wm1) ∧
      bjRun e (encI 0x0a d a (32 * pos + wm1.toNat)) w1 bad = some (execIns e d a pos wm1) := by
  have hwm1 : wm1.toNat < 32 := wm1.isLt
  have himm : 32 * pos.val + wm1.toNat < 1024 := by omega
  simp [bjRun, himm, fieldRun_encI]

/-- FLD and FST: FN[1:0] is the size. -/
theorem farRun_encR {op : Nat} (hop : op < 64) (hpair : pairOk a = true) {size : Fin 4} (hsize : size ≠ 0) (f : Fin 4 → State → Out) :
    farRun (encR op d a 0 size) f = some (f size) := by
  have hfn : size.val < 64 := by omega
  have hmod : size.val % 4 = size := by omega
  have hdiv : size.val / 4 = 0 := by omega
  have hne : size.val ≠ 0 := fun h => hsize (Fin.ext h)
  simp [farRun, hop, hfn, hpair, hmod, hdiv, hne]

theorem bjRun_pair (hpair : pairOk a = true) :
    (∀ size : Fin 4, size ≠ 0 → bjRun e (encR 0x20 d a 0 size) w1 bad = some (execFld e d a size) ∧
        bjRun e (encR 0x21 d a 0 size) w1 bad = some (execFst e d a size)) ∧
      (∀ fn : BitVec 6, bjRun e (encR 0x22 0 a b fn.toNat) w1 bad = some (execFbl e a b fn) ∧
        bjRun e (encR 0x23 0 a b fn.toNat) w1 bad = some (execFbs e a b fn)) ∧
      bjRun e (encR 0x3a d a b 0) w1 bad = some (execTimeat e a) := by
  refine ⟨fun size hsize => ?far, fun fn => ?block, ?timeat⟩
  case far =>
    have hfn : size.val < 64 := by omega
    simp [bjRun, hfn, farRun_encR, hpair, hsize]
  case block =>
    have hfn : fn.toNat < 64 := fn.isLt
    simp [bjRun, hfn, hpair]
  case timeat => simp [bjRun, hpair]

theorem bjRun_message (q : Fin 4) :
    bjRun e (encR 0x2c d 0 b q) w1 bad = some (execPost e q b) ∧ bjRun e (encR 0x2d d 0 0 q) w1 bad = some (execCollect e q) := by
  have hfn : q.val < 64 := by omega
  simp [bjRun, hfn]

/-- B: COND and OFF13. -/
theorem bjRun_branch (cond : Fin 19) (off : BitVec 13) :
    bjRun e (wd (0x30 * 262144 + 8192 * cond + off.toNat)) w1 bad = some (execB e cond off) := by
  have hoff : off.toNat < 8192 := off.isLt
  have hfits : 8192 * cond.val + off.toNat < 262144 := by omega
  rw [Nat.add_assoc]
  have hcond : bitsOf (wd (0x30 * 262144 + (8192 * cond + off.toNat))).toNat 13 5 = cond := by
    rw [toNat_wd_of_op (by decide) hfits]
    simp only [bitsOf]
    omega
  have hlow : BitVec.ofNat 13 (wd (0x30 * 262144 + (8192 * cond + off.toNat))).toNat = off := by
    apply BitVec.eq_of_toNat_eq
    rw [toNat_wd_of_op (by decide) hfits, BitVec.toNat_ofNat]
    omega
  simp only [bjRun, opOf_wd (show 0x30 < 64 by decide) hfits, branchRun, hcond, hlow, cond.isLt, dite_true]

/-- JMP and CALL: TARGET is the low 15 bits, those above it zero. -/
theorem bjRun_target (target : BitVec 15) : bjRun e (wd (0x31 * 262144 + target.toNat)) w1 bad = some (execJmp e target) ∧
    bjRun e (wd (0x32 * 262144 + target.toNat)) w1 bad = some (execCall e target) := by
  have htarget : target.toNat < 32768 := target.isLt
  have hfits : target.toNat < 262144 := by omega
  have hmust {op : Nat} (hop : op < 64) : bitsOf (wd (op * 262144 + target.toNat)).toNat 15 3 = 0 := by
    rw [toNat_wd_of_op hop hfits]
    simp only [bitsOf]
    omega
  have hlow {op : Nat} (hop : op < 64) : BitVec.ofNat 15 (wd (op * 262144 + target.toNat)).toNat = target := by
    apply BitVec.eq_of_toNat_eq
    rw [toNat_wd_of_op hop hfits, BitVec.toNat_ofNat]
    omega
  constructor <;> simp only [bjRun, opOf_wd _ hfits, hmust, hlow, ifZero_cons_zero, ifZero_nil, Nat.reduceLT]

/-- WAIT and TRAP: the conditions or the cause are the low four bits, IMM10[9:4] zero. -/
theorem bjRun_waitTrap (n : BitVec 4) : bjRun e (encI 0x39 d 0 n.toNat) w1 bad = some (execWait e n) ∧
    bjRun e (encI 0x3c 0 0 n.toNat) w1 bad = some (execTrap e n) := by
  have hn : n.toNat < 16 := n.isLt
  have himm : n.toNat < 1024 := by omega
  have hmust : bitsOf n.toNat 4 6 = 0 := by simp only [bitsOf]; omega
  simp [bjRun, himm, bitsOf_encI, setWidth_encI, hmust]

end

/-- Settles O24: the fields that each format builds are those that the decoder reads back, and the fields that must be zero are. -/
theorem everyEncodingRunsItsInstruction : Obligations.EveryEncodingRunsItsInstruction := by
  intro e d a b imm w1 bad
  have himm : imm.toNat < 1024 := imm.isLt
  have hwatch (fn : BitVec 6) : bjRun e (encR 0x38 d a b fn.toNat) w1 bad = some (execWatch e a) := by
    have hfn : fn.toNat < 64 := fn.isLt
    simp [bjRun, hfn]
  exact ⟨bjRun_alu e d a b w1 bad, by simp [bjRun, aluRun], fun p hp => bjRun_immediate e d a w1 bad p hp imm, by simp [bjRun, himm],
    bjRun_shi e d a w1 bad, by simp [bjRun], bjRun_field e d a w1 bad, by simp [bjRun], by simp [bjRun], by simp [bjRun, frmRun],
    by simp [bjRun, frmRun], by simp [bjRun, frmRun], by simp [bjRun, frmRun], bjRun_pair e d a b w1 bad, by simp [bjRun], by simp [bjRun],
    by simp [bjRun], by simp [bjRun], bjRun_message e d b w1 bad, bjRun_branch e w1 bad, bjRun_target e w1 bad, by simp [bjRun], hwatch,
    bjRun_waitTrap e d w1 bad, by simp [bjRun], by simp [bjRun], by simp [bjRun, sysRun], by simp [bjRun, sysRun], by simp [bjRun, sysRun],
    by simp [bjRun, sysRun], by simp [bjRun, sysRun]⟩

end Sys2Proof.Machine
end

section
/-! Step and reset: what a step takes from the queue, where reset leaves the module, and words written out from the chapter. -/
namespace Sys2Proof.Machine

/-- Settles O1: the two branches of a step. -/
theorem stepTakesTheFrontCommand : Obligations.StepTakesTheFrontCommand := by
  refine ⟨fun c rest s => rfl, fun s hempty => ?_⟩
  rw [step, hempty]

theorem eng_reset (e : Nat) : eng State.reset e = engReset e := rfl

/-- Settles O3: reset lists nothing but what a default gives, so everything reads as its default. -/
theorem resetLeavesStartUpAtStepTwo : Obligations.ResetLeavesStartUpAtStepTwo := by
  refine ⟨rfl, rfl, rfl, rfl, rfl, fun e he => ?stopped, fun e r => ?engine, fun a => rfl, ⟨rfl, rfl, rfl, rfl⟩, fun e a => ⟨rfl, rfl, rfl⟩,
    fun a => rfl, rfl, fun g => rfl, rfl, rfl, rfl, rfl, rfl⟩
  case stopped => rw [eng_reset, engReset, if_neg he]
  case engine => exact ⟨rfl, rfl, by simp [eng_reset, engReset, reg, tget], rfl, rfl, rfl, rfl⟩

theorem fuseInOrder_reset : FuseInOrder fuseReset := by
  refine ⟨by decide, fun _ k => rfl, fun x hx => ?_⟩
  cases hx

/-- Settles O4: memories list nothing and no fuse is blown or being written. -/
theorem resetMeetsTheInvariants : Obligations.ResetMeetsTheInvariants := ⟨memory_reset, fuseInOrder_reset⟩

/-- Settles O26: each word's fields are those of its instruction, and OP 0 is not assigned. -/
theorem writtenOutWordsDecode : Obligations.WrittenOutWordsDecode := by
  intro e
  have hzero : bjRun e 0 0 = none := bjRun_eq_none_of_unassigned (by decide)
  exact ⟨rfl, rfl, rfl, rfl, rfl, rfl, rfl, rfl, rfl, hzero⟩

end Sys2Proof.Machine
end

section
/-! SUPPORT. What every function of the model keeps of the queue, the halt, the fuses and the memories: `Step` between the vital parts of two
states, and one lemma for each function, in the order of the model's files (`vital_f`: f leaves the vital part alone; `step_f`: f steps it;
`ends_execX`: the command X ends in a next state that is a step away). -/
namespace Sys2Proof.Machine

/-- What the four invariants of a step speak of: the queue, the halt, the fuses and the eight memories. -/
structure Vital where
  pending : List Instr
  halted : Bool
  fuse : FuseSt
  dram : Tab Byte
  data : Tab Word
  imem : Tab Word
  shared : Tab Word
  hostMem : Tab Byte
  bus : Tab Nat
  store : Tab Nat
  tag : Tab Byte

/-- The vital part of a state. -/
def vital (s : State) : Vital :=
  ⟨s.pending, s.sys.halted, s.fuse, s.mpe.dram, s.data, s.imem, s.shared, s.hst.mem, s.hst.bus, s.hst.store, s.log.tag⟩

/-- Every memory of a vital part stands in its canonical form. -/
structure Vital.Canonical (v : Vital) : Prop where
  dram : twf (fun _ => (0 : Byte)) v.dram = true
  data : twf (fun _ => (0 : Word)) v.data = true
  imem : twf (fun _ => (0 : Word)) v.imem = true
  shared : twf (fun _ => (0 : Word)) v.shared = true
  hostMem : twf (fun _ => (0 : Byte)) v.hostMem = true
  bus : twf (fun _ => (0 : Nat)) v.bus = true
  store : twf (fun _ => (0 : Nat)) v.store = true
  tag : twf (fun _ => (0 : Byte)) v.tag = true

theorem wf_iff_canonical (s : State) : Memory.wf s = true ↔ (vital s).Canonical := by
  simp only [Memory.wf, Bool.and_eq_true]
  constructor
  · rintro ⟨⟨⟨⟨⟨⟨⟨hdram, hdata⟩, himem⟩, hshared⟩, hmem⟩, hbus⟩, hstore⟩, htag⟩
    exact ⟨hdram, hdata, himem, hshared, hmem, hbus, hstore, htag⟩
  · rintro ⟨hdram, hdata, himem, hshared, hmem, hbus, hstore, htag⟩
    exact ⟨⟨⟨⟨⟨⟨⟨hdram, hdata⟩, himem⟩, hshared⟩, hmem⟩, hbus⟩, hstore⟩, htag⟩

/-- What a command may do to a vital part: the queue stays, a halt is not left, fuses in order stay in order and only grow, canonical memories
stay canonical. -/
structure Step (v w : Vital) : Prop where
  pending : w.pending = v.pending
  halted : v.halted = true → w.halted = true
  fuse : FuseInOrder v.fuse → FuseInOrder w.fuse ∧ FuseGrows v.fuse w.fuse
  memory : v.Canonical → w.Canonical

theorem FuseGrows.refl (f : FuseSt) : FuseGrows f f := ⟨le_rfl, le_rfl, id, fun _ => id, fun _ _ => id, fun _ _ => id⟩

theorem FuseGrows.trans {f g h : FuseSt} (hfg : FuseGrows f g) (hgh : FuseGrows g h) : FuseGrows f h := by
  obtain ⟨hblown, hfloor, hlock, hrevoked, hhash, hbank⟩ := hfg
  obtain ⟨hblown', hfloor', hlock', hrevoked', hhash', hbank'⟩ := hgh
  exact ⟨hblown.trans hblown', hfloor.trans hfloor', hlock' ∘ hlock, fun k => hrevoked' k ∘ hrevoked k, fun k v => hhash' k v ∘ hhash k v,
    fun k v => hbank' k v ∘ hbank k v⟩

@[simp] theorem Step.refl (v : Vital) : Step v v := ⟨rfl, id, fun h => ⟨h, .refl _⟩, id⟩

theorem Step.trans {u v w : Vital} (huv : Step u v) (hvw : Step v w) : Step u w :=
  ⟨hvw.pending.trans huv.pending, hvw.halted ∘ huv.halted,
    fun h => ⟨(hvw.fuse (huv.fuse h).1).1, (huv.fuse h).2.trans (hvw.fuse (huv.fuse h).1).2⟩, hvw.memory ∘ huv.memory⟩

@[simp] theorem step_ite {v a b : Vital} (c : Prop) [Decidable c] : Step v (if c then a else b) ↔ (c → Step v a) ∧ (¬c → Step v b) := by
  split <;> simp [*]

@[simp ↓] theorem vital_mk (s : State) : Vital.mk s.pending s.sys.halted s.fuse s.mpe.dram s.data s.imem s.shared s.hst.mem s.hst.bus s.hst.store s.log.tag = vital s := (rfl)

@[simp ↓] theorem vital_update (pending sys words ctl engs data imem shared load log flt mpe time cndl cnt hst slots flow flights ovAt nextId qm sch lane pll
    mac msec cls plc pon trib mem key fuse chk pwr pair meas sbus tst) :
    vital (.mk pending sys words ctl engs data imem shared load log flt mpe time cndl cnt hst slots flow flights ovAt nextId qm sch lane pll
    mac msec cls plc pon trib mem key fuse chk pwr pair meas sbus tst) = .mk pending sys.halted fuse mpe.dram data imem shared hst.mem hst.bus hst.store log.tag := (rfl)

@[simp ↓] theorem vital_ite (c : Prop) [Decidable c] (s t : State) : vital (if c then s else t) = if c then vital s else vital t := apply_ite ..

@[simp ↓] theorem vital_dite (c : Prop) [Decidable c] (s : c → State) (t : ¬c → State) : vital (if h : c then s h else t h) = if h : c then vital (s h) else vital (t h) := apply_dite ..

@[simp ↓] theorem vital_fst_ite {α} (c : Prop) [Decidable c] (s t : State × α) : vital (if c then s else t).1 = if c then vital s.1 else vital t.1 := by split <;> rfl

@[simp ↓] theorem vital_snd_ite {α} (c : Prop) [Decidable c] (s t : α × State) : vital (if c then s else t).2 = if c then vital s.2 else vital t.2 := by split <;> rfl

@[simp] theorem vital_foldl {α : Type} {f : State → α → State} (hf : ∀ s x, vital (f s x) = vital s) (s : State) (l : List α) :
    vital (l.foldl f s) = vital s := by
  induction l generalizing s with
  | nil => rfl
  | cons x l ih => rw [List.foldl_cons, ih, hf]

@[simp] theorem step_foldl {α : Type} {v : Vital} {f : State → α → State} (hf : ∀ s x, Step (vital s) (vital (f s x))) {s : State} (hs :
    Step v (vital s)) (l : List α) :
    Step v (vital (l.foldl f s)) := by
  induction l generalizing s with
  | nil => exact hs
  | cons x l ih => exact ih (hs.trans (hf s x))

/-- The outcome is a next state, a step away from the vital part v. -/
def Ends (v : Vital) (o : Out) : Prop := ∃ t, o = .next t ∧ Step v (vital t)

@[simp] theorem ends_next (v : Vital) (t : State) : Ends v (.next t) ↔ Step v (vital t) := by simp [Ends]

@[simp] theorem ends_ite {v} {a b : Out} (c : Prop) [Decidable c] : Ends v (if c then a else b) ↔ (c → Ends v a) ∧ (¬c → Ends v b) := by
  split <;> simp [*]

@[simp] theorem ends_dite {v} (c : Prop) [Decidable c] {a : c → Out} {b : ¬ c → Out} : Ends v (if h : c then a h else b h) ↔ (∀ h :
    c, Ends v (a h)) ∧ (∀ h : ¬c, Ends v (b h)) := by
  split <;> simp [*]

theorem step_of_canonical {v : Vital} {s s' : State} (h : Step v (vital s)) (hp : s'.pending = s.pending) (hh : s'.sys = s.sys) (hf :
    s'.fuse = s.fuse)
    (hm : (vital s).Canonical → (vital s').Canonical) : Step v (vital s') := by
  refine h.trans ⟨hp, fun hhalted => ?_, fun hfuse => ?_, hm⟩
  · exact (congrArg SysSt.halted hh).trans hhalted
  · have hfuse' : (vital s').fuse = (vital s).fuse := hf
    rw [hfuse']
    exact ⟨hfuse, .refl _⟩

@[simp] theorem step_setData {v s} (h : Step v (vital s)) (e a x) : Step v (vital (setData s e a x)) :=
  step_of_canonical h rfl rfl rfl fun h => {h with data := twf_tset _ _ _ _ h.data}

@[simp] theorem step_setImem {v s} (h : Step v (vital s)) (e a x) : Step v (vital (setImem s e a x)) :=
  step_of_canonical h rfl rfl rfl fun h => {h with imem := twf_tset _ _ _ _ h.imem}

@[simp] theorem step_dramWrite {v s} (h : Step v (vital s)) (a bs) : Step v (vital (dramWrite s a bs)) :=
  step_of_canonical h rfl rfl rfl fun h => {h with dram := twf_foldl_tset _ _ _ h.dram}

theorem vital_watchHit0 (s l a) : vital (watchHit s l a) = vital s := by simp [watchHit, setEng]

@[simp] theorem step_setShared {v s} (h : Step v (vital s)) (l a x) : Step v (vital (setShared s l a x)) := by
  rw [setShared, vital_watchHit0]
  exact step_of_canonical h rfl rfl rfl fun h => {h with shared := twf_tset _ _ _ _ h.shared}

/-! ### Ops -/

@[simp] theorem vital_takeFree (s) : vital (takeFree s).2 = vital s := by simp [takeFree]
@[simp] theorem vital_takeBool (s) : vital (takeBool s).2 = vital s := by simp [takeBool]
@[simp] theorem vital_takeRandom (n s) : vital (takeRandom n s).2 = vital s := by simp [takeRandom]
@[simp] theorem vital_setPace (s k) : vital (setPace s k) = vital s := by simp [setPace]
@[simp] theorem vital_wrW (s a v) : vital (wrW s a v) = vital s := by simp [wrW]
@[simp] theorem vital_wrF (s f v i off) : vital (wrF s f v i off) = vital s := by simp [wrF]
@[simp] theorem vital_wrC (s f u i v) : vital (wrC s f u i v) = vital s := by simp [wrC]
@[simp] theorem vital_setResult (s a v) : vital (setResult s a v) = vital s := by simp [setResult]
@[simp] theorem vital_result (s f v i off) : vital (result s f v i off) = vital s := by simp [result]
@[simp] theorem vital_emitM (s code p1 p2 p3 m h) : vital (emitM s code p1 p2 p3 m h) = vital s := by simp [emitM]
@[simp] theorem vital_emit (s code p1 p2 p3) : vital (emit s code p1 p2 p3) = vital s := by simp [emit]
@[simp] theorem vital_emit2 (s code p1 p2) : vital (emit2 s code p1 p2) = vital s := by simp [emit2]
@[simp] theorem vital_emit1 (s code p1) : vital (emit1 s code p1) = vital s := by simp [emit1]
@[simp] theorem vital_emit0 (s code) : vital (emit0 s code) = vital s := by simp [emit0]
@[simp] theorem vital_count (s unit kind obj n) : vital (count s unit kind obj n) = vital s := by simp [count]
@[simp] theorem vital_raiseFaultAt (s code dom p1 p2) : vital (raiseFaultAt s code dom p1 p2) = vital s := by simp [raiseFaultAt]
@[simp] theorem vital_sealFault (s code a master) : vital (sealFault s code a master) = vital s := by simp [sealFault]
@[simp] theorem vital_raiseFault (s code dom) : vital (raiseFault s code dom) = vital s := by simp [raiseFault]
@[simp] theorem vital_setDom (s d x) : vital (setDom s d x) = vital s := by simp [setDom]
@[simp] theorem vital_setEng (s e g) : vital (setEng s e g) = vital s := by simp [setEng]
@[simp] theorem vital_watchHit (s l a) : vital (watchHit s l a) = vital s := by simp [watchHit]

@[simp] theorem step_enterTrap {v s} (h : Step v (vital s)) (e c d1 d2 skid drops) : Step v (vital (enterTrap s e c d1 d2 skid drops)) := by
  unfold enterTrap
  rw [vital_setEng]
  iterate 6 apply step_setData
  exact h

@[simp] theorem vital_setBox (s d l) : vital (setBox s d l) = vital s := by simp [setBox]
@[simp] theorem vital_signal (s v) : vital (signal s v) = vital s := by simp [signal, setPace]
@[simp] theorem vital_setServed (s d ix) : vital (setServed s d ix) = vital s := by simp [setServed]
@[simp] theorem vital_putPlace (s d p) : vital (putPlace s d p) = vital s := by simp [putPlace]
@[simp] theorem vital_post (s d m) : vital (post s d m).1 = vital s := by simp [post]

theorem vital_of_accept {s e c a v t} (h : accept s e c a v = some t) : vital t = vital s := by
  unfold accept at h
  split at h
  · cases h
  split at h
  · split at h
    · cases h
      exact vital_setEng ..
    · cases h
  · cases h

@[simp] theorem ends_onSet {f : State → State} (hf : ∀ t, Step (vital t) (vital (f t))) (s e a v) : Ends (vital s) (onSet s e a v f) := by
  unfold onSet
  split
  next t ht => simpa [vital_of_accept ht] using hf t
  next => simp

@[simp] theorem vital_answer (s e v) : vital (answer s e v) = vital s := by
  simp only [answer]
  repeat' split
  all_goals simp

@[simp] theorem vital_takeBytes (n s) : vital (takeBytes n s).2 = vital s := by
  induction n generalizing s with
  | zero => rfl
  | succ n ih => simp [takeBytes, ih]

@[simp] theorem vital_countLines (s m a n wr) : vital (countLines s m a n wr) = vital s := by simp [countLines]
@[simp] theorem vital_setWritten (s g b) : vital (setWritten s g b) = vital s := by simp [setWritten]
@[simp] theorem vital_fillRange (s a n) : vital (fillRange s a n) = vital s := by simp [fillRange]
@[simp] theorem step_deviceWrite {v s} (h : Step v (vital s)) (a bs) : Step v (vital (deviceWrite s a bs)) := by simp [deviceWrite, h]
@[simp] theorem vital_countPair (s m a) : vital (countPair s m a) = vital s := by simp [countPair]
@[simp] theorem vital_drawMemKeys (s r) : vital (drawMemKeys s r) = vital s := by simp [drawMemKeys]
@[simp] theorem step_memWrite {v s} (h : Step v (vital s)) (m a bs) : Step v (vital (memWrite s m a bs)) := by simp [memWrite, h]

@[simp] theorem step_writeRange {v s} (h : Step v (vital s)) (m a bs bad) : Step v (vital (writeRange s m a bs bad)) := by
  unfold writeRange; split <;> simp [h]

@[simp] theorem vital_trained (s c) : vital (trained s c) = vital s := by simp [trained]
@[simp] theorem vital_refuse (s n b wr) : vital (refuse s n b wr) = vital s := by simp [refuse]
@[simp] theorem step_putShared {v s} (h : Step v (vital s)) (l a bs) : Step v (vital (putShared s l a bs)) := by simp [putShared, h]

/-! ### Place -/

@[simp] theorem vital_setQueue (s q x) : vital (setQueue s q x) = vital s := by simp [setQueue]
@[simp] theorem vital_eqcnt (s e) : vital (eqcnt s e) = vital s := by simp [eqcnt]
@[simp] theorem vital_pushEng (s e f) : vital (pushEng s e f) = vital s := by simp [pushEng]
@[simp] theorem vital_pushQueue (s q f) : vital (pushQueue s q f) = vital s := by simp [pushQueue]
@[simp] theorem vital_objRes (s place st hints) : vital (objRes s place st hints) = vital s := by simp [objRes]
@[simp] theorem vital_dropMove (s m) : vital (dropMove s m) = vital s := by simp [dropMove]
@[simp] theorem vital_releaseFlow (s m x2) : vital (releaseFlow s m x2) = vital s := by unfold releaseFlow; split <;> simp
@[simp] theorem vital_noteReverted (s m cause) : vital (noteReverted s m cause) = vital s := by simp [noteReverted]
@[simp] theorem vital_revertFlow (s m cause) : vital (revertFlow s m cause) = vital s := by simp [revertFlow]
@[simp] theorem vital_setFlowEngine (s f e) : vital (setFlowEngine s f e) = vital s := by simp [setFlowEngine]
@[simp] theorem vital_switchMoving (s m) : vital (switchMoving s m) = vital s := by simp [switchMoving]
@[simp] theorem vital_dropEngineFrames (s e) : vital (dropEngineFrames s e) = vital s := by simp [dropEngineFrames]
@[simp] theorem vital_notePoolsGone (s l) : vital (notePoolsGone s l) = vital s := by simp [notePoolsGone]
@[simp] theorem vital_engineGone (s e) : vital (engineGone s e) = vital s := by simp [engineGone]
@[simp] theorem vital_failEngine (s e code) : vital (failEngine s e code) = vital s := by simp [failEngine]

@[simp] theorem step_takeTrap {v s} (h : Step v (vital s)) (e c d1 d2) : Step v (vital (takeTrap s e c d1 d2)) := by
  unfold takeTrap
  simp [h]

/-! ### Operands -/

theorem step_of_nearWrite {v s e a x t} (h : Step v (vital s)) (ht : nearWrite s e a x = some t) : Step v (vital t) := by
  simp only [nearWrite] at ht
  split_ifs at ht
  all_goals
    rw [← Option.some.inj ht]
    simp [h]

@[simp] theorem vital_retire (s e pc) : vital (retire s e pc) = vital s := by simp [retire]
@[simp] theorem vital_stepDone (s e) : vital (stepDone s e) = vital s := by simp [stepDone]
@[simp] theorem vital_endInstr (step s e) : vital (endInstr step s e) = vital s := by simp [endInstr]
@[simp] theorem step_trapOr {v s} (h : Step v (vital s)) (e c d1 d2) : Step v (vital (trapOr s e c d1 d2)) := by simp [trapOr, h]

/-- An instruction's effect keeps the vital part v. -/
def Eff.Keeps (v : Vital) : Eff → Prop
  | .done s | .jump s _ | .trapWith s _ _ _ | .hold s => Step v (vital s)
  | .trap .. | .stall => True

@[simp] theorem keeps_done (v s) : (Eff.done s).Keeps v ↔ Step v (vital s) := .rfl
@[simp] theorem keeps_jump (v s pc) : (Eff.jump s pc).Keeps v ↔ Step v (vital s) := .rfl
@[simp] theorem keeps_trap (v c d1 d2) : (Eff.trap c d1 d2).Keeps v := trivial
@[simp] theorem keeps_trapWith (v s c d1 d2) : (Eff.trapWith s c d1 d2).Keeps v ↔ Step v (vital s) := .rfl
@[simp] theorem keeps_hold (v s) : (Eff.hold s).Keeps v ↔ Step v (vital s) := .rfl
@[simp] theorem keeps_stall (v) : Eff.stall.Keeps v := trivial

@[simp] theorem keeps_ite {v} {a b : Eff} (c : Prop) [Decidable c] : (if c then a else b).Keeps v ↔ (c → a.Keeps v) ∧ (¬c → b.Keeps v) := by
  split <;> simp [*]

@[simp] theorem ends_instr {s e size uses body} (hbody : (body (eng s e)).Keeps (vital s)) : Ends (vital s) (instr s e size uses body) := by
  unfold instr
  split_ifs
  any_goals simp
  split
  all_goals
    next heff =>
      rw [heff] at hbody
      simp_all

@[simp] theorem ends_instrG (s e size uses f) : Ends (vital s) (instrG s e size uses f) := by simp [instrG]

/-! ### Alu -/

@[simp] theorem ends_execAdd (e rd ra rb s) : Ends (vital s) (execAdd e rd ra rb s) := by simp [execAdd]
@[simp] theorem ends_execAddc (e rd ra rb s) : Ends (vital s) (execAddc e rd ra rb s) := by simp [execAddc]
@[simp] theorem ends_execSub (e rd ra rb s) : Ends (vital s) (execSub e rd ra rb s) := by simp [execSub]
@[simp] theorem ends_execSubc (e rd ra rb s) : Ends (vital s) (execSubc e rd ra rb s) := by simp [execSubc]
@[simp] theorem ends_execAnd (e rd ra rb s) : Ends (vital s) (execAnd e rd ra rb s) := by simp [execAnd]
@[simp] theorem ends_execOr (e rd ra rb s) : Ends (vital s) (execOr e rd ra rb s) := by simp [execOr]
@[simp] theorem ends_execXor (e rd ra rb s) : Ends (vital s) (execXor e rd ra rb s) := by simp [execXor]
@[simp] theorem ends_execAndn (e rd ra rb s) : Ends (vital s) (execAndn e rd ra rb s) := by simp [execAndn]
@[simp] theorem ends_execShl (e rd ra rb s) : Ends (vital s) (execShl e rd ra rb s) := by simp [execShl]
@[simp] theorem ends_execShr (e rd ra rb s) : Ends (vital s) (execShr e rd ra rb s) := by simp [execShr]
@[simp] theorem ends_execSar (e rd ra rb s) : Ends (vital s) (execSar e rd ra rb s) := by simp [execSar]
@[simp] theorem ends_execRol (e rd ra rb s) : Ends (vital s) (execRol e rd ra rb s) := by simp [execRol]
@[simp] theorem ends_execMul (e rd ra rb s) : Ends (vital s) (execMul e rd ra rb s) := by simp [execMul]
@[simp] theorem ends_execMulh (e rd ra rb s) : Ends (vital s) (execMulh e rd ra rb s) := by simp [execMulh]
@[simp] theorem ends_execMulhu (e rd ra rb s) : Ends (vital s) (execMulhu e rd ra rb s) := by simp [execMulhu]
@[simp] theorem ends_execMin (e rd ra rb s) : Ends (vital s) (execMin e rd ra rb s) := by simp [execMin]
@[simp] theorem ends_execMax (e rd ra rb s) : Ends (vital s) (execMax e rd ra rb s) := by simp [execMax]
@[simp] theorem ends_execMinu (e rd ra rb s) : Ends (vital s) (execMinu e rd ra rb s) := by simp [execMinu]
@[simp] theorem ends_execMaxu (e rd ra rb s) : Ends (vital s) (execMaxu e rd ra rb s) := by simp [execMaxu]
@[simp] theorem ends_execExtb (e rd ra rb s) : Ends (vital s) (execExtb e rd ra rb s) := by simp [execExtb]
@[simp] theorem keeps_divTrap {v s} (h : Step v (vital s)) (g rb w0) : (divTrap g rb w0 s).Keeps v := by simp [divTrap, h]
@[simp] theorem ends_execDiv (e rd ra rb s) : Ends (vital s) (execDiv e rd ra rb s) := by simp [execDiv]
@[simp] theorem ends_execDivu (e rd ra rb s) : Ends (vital s) (execDivu e rd ra rb s) := by simp [execDivu]
@[simp] theorem ends_execRem (e rd ra rb s) : Ends (vital s) (execRem e rd ra rb s) := by simp [execRem]
@[simp] theorem ends_execRemu (e rd ra rb s) : Ends (vital s) (execRemu e rd ra rb s) := by simp [execRemu]
@[simp] theorem ends_execClz (e rd ra s) : Ends (vital s) (execClz e rd ra s) := by simp [execClz]
@[simp] theorem ends_execAddi (e rd ra imm s) : Ends (vital s) (execAddi e rd ra imm s) := by simp [execAddi]
@[simp] theorem ends_execSubi (e rd ra imm s) : Ends (vital s) (execSubi e rd ra imm s) := by simp [execSubi]
@[simp] theorem ends_execAndi (e rd ra imm s) : Ends (vital s) (execAndi e rd ra imm s) := by simp [execAndi]
@[simp] theorem ends_execOri (e rd ra imm s) : Ends (vital s) (execOri e rd ra imm s) := by simp [execOri]
@[simp] theorem ends_execXori (e rd ra imm s) : Ends (vital s) (execXori e rd ra imm s) := by simp [execXori]
@[simp] theorem ends_execShi (e rd ra kind amt s) : Ends (vital s) (execShi e rd ra kind amt s) := by simp [execShi]
@[simp] theorem ends_execLdi (e rd imm s) : Ends (vital s) (execLdi e rd imm s) := by simp [execLdi]
@[simp] theorem ends_execExt (e rd ra pos wm1 s) : Ends (vital s) (execExt e rd ra pos wm1 s) := by simp [execExt]
@[simp] theorem ends_execIns (e rd ra pos wm1 s) : Ends (vital s) (execIns e rd ra pos wm1 s) := by simp [execIns]

/-! ### Branch -/

@[simp] theorem ends_execB (e cond off s) : Ends (vital s) (execB e cond off s) := by simp [execB]
@[simp] theorem ends_execJmp (e target s) : Ends (vital s) (execJmp e target s) := by simp [execJmp]
@[simp] theorem ends_execCall (e target s) : Ends (vital s) (execCall e target s) := by simp [execCall]
@[simp] theorem ends_execJr (e rd ra s) : Ends (vital s) (execJr e rd ra s) := by simp [execJr]
@[simp] theorem ends_execTrap (e n s) : Ends (vital s) (execTrap e n s) := by simp [execTrap]
@[simp] theorem ends_execRtt (e s) : Ends (vital s) (execRtt e s) := by simp [execRtt]
@[simp] theorem ends_execNop (e s) : Ends (vital s) (execNop e s) := by simp [execNop]
@[simp] theorem ends_execMfl (e rd s) : Ends (vital s) (execMfl e rd s) := by simp [execMfl]
@[simp] theorem ends_execMtfl (e ra s) : Ends (vital s) (execMtfl e ra s) := by simp [execMtfl]
@[simp] theorem ends_execMftp (e rd s) : Ends (vital s) (execMftp e rd s) := by simp [execMftp]
@[simp] theorem ends_execMttp (e ra s) : Ends (vital s) (execMttp e ra s) := by simp [execMttp]

/-! ### UnitWord -/

@[simp] theorem vital_unassigned (s a v) : vital (unassigned s a v) = vital s := by simp [unassigned]
@[simp] theorem vital_setNow (s a v) : vital (setNow s a v) = vital s := by simp [setNow]

/-! ### Flow -/

@[simp] theorem vital_setCredits (s f c p) : vital (setCredits s f c p) = vital s := by simp [setCredits]
@[simp] theorem vital_chargeFlow (s f colour len) : vital (chargeFlow s f colour len) = vital s := by simp [chargeFlow]
@[simp] theorem vital_setKey (s k key v) : vital (setKey s k key v) = vital s := by simp [setKey]

@[simp] theorem ends_flowRequest {f : State → State × Nat} (hf : ∀ t, Step (vital t) (vital (f t).1)) (s e op v) :
    Ends (vital s) (flowRequest s e op v f) := by
  simp [flowRequest, hf]

@[simp] theorem vital_writeRec (s f r rst) : vital (writeRec s f r rst) = vital s := by simp [writeRec]
@[simp] theorem ends_execFlowRecordWrite (e v s) : Ends (vital s) (execFlowRecordWrite e v s) := by simp [execFlowRecordWrite]
@[simp] theorem ends_execFlowRecordRead (e v s) : Ends (vital s) (execFlowRecordRead e v s) := by simp [execFlowRecordRead]
@[simp] theorem ends_execExactMatchInsert (e v s) : Ends (vital s) (execExactMatchInsert e v s) := by simp [execExactMatchInsert]
@[simp] theorem ends_execExactMatchDelete (e v s) : Ends (vital s) (execExactMatchDelete e v s) := by simp [execExactMatchDelete]

@[simp] theorem ends_execExactMatchLookup (e v s) : Ends (vital s) (execExactMatchLookup e v s) := by
  refine ends_flowRequest (fun t => ?_) ..
  dsimp only
  split <;> simp

@[simp] theorem ends_execFlowOpComplete (s) : Ends (vital s) (execFlowOpComplete s) := by unfold execFlowOpComplete; split <;> simp

/-! ### Qm -/

@[simp] theorem vital_setFlight (s x) : vital (setFlight s x) = vital s := by simp [setFlight]
@[simp] theorem vital_dropFlight (s f) : vital (dropFlight s f) = vital s := by simp [dropFlight]
@[simp] theorem vital_addFlight (s x) : vital (addFlight s x) = vital s := by simp [addFlight]
@[simp] theorem vital_fillHead (s q) : vital (fillHead s q) = vital s := by simp [fillHead]

@[simp] theorem vital_spillOut (k s q) : vital (spillOut k s q) = vital s := by
  induction k generalizing s with
  | zero => rfl
  | succ k ih => simp [spillOut, ih]

@[simp] theorem vital_settle (s q) : vital (settle s q) = vital s := by simp [settle]
@[simp] theorem vital_setMac (s p m) : vital (setMac s p m) = vital s := by simp [setMac]
@[simp] theorem vital_sendPause (s p) : vital (sendPause s p) = vital s := by simp [sendPause]
@[simp] theorem vital_pauseCheck (s p c) : vital (pauseCheck s p c) = vital s := by simp [pauseCheck]
@[simp] theorem vital_pauseFor (s port q) : vital (pauseFor s port q) = vital s := by unfold pauseFor; split <;> simp
@[simp] theorem vital_hqcnt (s n) : vital (hqcnt s n) = vital s := by simp [hqcnt]
@[simp] theorem vital_setHostq (s n h) : vital (setHostq s n h) = vital s := by simp [setHostq]
@[simp] theorem step_idleEntry {v s} (h : Step v (vital s)) (n k) : Step v (vital (idleEntry s n k)) := by simp [idleEntry, h]
@[simp] theorem step_deliverHost {v s} (h : Step v (vital s)) (n f) : Step v (vital (deliverHost s n f)) := by simp [deliverHost, h]

@[simp] theorem step_drainHost {v s} (h : Step v (vital s)) (k n) : Step v (vital (drainHost k s n)) := by
  induction k generalizing s with
  | zero => exact h
  | succ k ih =>
    unfold drainHost
    split
    next => exact h
    next =>
      split
      next => exact ih (by simp [h])
      next => exact h

@[simp] theorem vital_rewind (s x) : vital (rewind s x) = vital s := by unfold rewind; split <;> simp
@[simp] theorem vital_refuseFlight (s x kind) : vital (refuseFlight s x kind) = vital s := by simp [refuseFlight]
@[simp] theorem vital_admitFlight (s x) : vital (admitFlight s x) = vital s := by unfold admitFlight; split <;> simp
@[simp] theorem vital_noteDetached (s q n) : vital (noteDetached s q n) = vital s := by simp [noteDetached]
@[simp] theorem vital_endDoze (s q) : vital (endDoze s q) = vital s := by unfold endDoze; split <;> simp
@[simp] theorem vital_enterQueue (s q f) : vital (enterQueue s q f) = vital s := by simp [enterQueue]
@[simp] theorem vital_releaseFence (s m place) : vital (releaseFence s m place) = vital s := by simp [releaseFence]
@[simp] theorem vital_revertMove (s m cause) : vital (revertMove s m cause) = vital s := by simp [revertMove]

@[simp] theorem ends_execQmAdmit (f s) : Ends (vital s) (execQmAdmit f s) := by
  simp only [execQmAdmit]
  repeat' split
  all_goals simp

@[simp] theorem step_commitFrame {v s} (h : Step v (vital s)) (x) : Step v (vital (commitFrame s x)) := by
  simp only [commitFrame]
  repeat' split
  all_goals simp [h]

@[simp] theorem ends_execQmFrameCommit (c s) : Ends (vital s) (execQmFrameCommit c s) := by unfold execQmFrameCommit; split <;> simp

@[simp] theorem ends_execSpillReadback (q ok s) : Ends (vital s) (execSpillReadback q ok s) := by
  simp only [execSpillReadback]
  repeat' split
  all_goals simp

@[simp] theorem ends_execQueueStateEccError (q s) : Ends (vital s) (execQueueStateEccError q s) := by simp [execQueueStateEccError]

@[simp] theorem ends_execHqdoneWrite (e n v s) : Ends (vital s) (execHqdoneWrite e n v s) := by
  refine ends_onSet (fun t => ?_) ..
  apply step_drainHost
  simp only [vital_ite, vital_hqcnt, vital_setHostq, ite_self]
  exact step_foldl (fun t k => step_idleEntry (.refl _) ..) (by simp) _

/-! ### Msec -/

@[simp] theorem vital_setTx (s c x) : vital (setTx s c x) = vital s := by simp [setTx]
@[simp] theorem vital_setRx (s c x) : vital (setRx s c x) = vital s := by simp [setRx]
@[simp] theorem vital_setSa (s k x) : vital (setSa s k x) = vital s := by simp [setSa]
@[simp] theorem vital_countSa (s kind ch ctx n) : vital (countSa s kind ch ctx n) = vital s := by simp [countSa]
@[simp] theorem vital_notify (s code w1 w2 w3) : vital (notify s code w1 w2 w3) = vital s := by simp [notify]

@[simp] theorem vital_retryNotes (n s) : vital (retryNotes n s) = vital s := by
  induction n generalizing s with
  | zero => rfl
  | succ n ih =>
    unfold retryNotes
    split <;> simp [ih]

@[simp] theorem ends_execMsecNoteRetry (s) : Ends (vital s) (execMsecNoteRetry s) := by simp [execMsecNoteRetry]
@[simp] theorem vital_refuseSwitch (s ch an cause) : vital (refuseSwitch s ch an cause) = vital s := by simp [refuseSwitch]
@[simp] theorem vital_mirrorRecord (s x) : vital (mirrorRecord s x) = vital s := by simp [mirrorRecord]
@[simp] theorem vital_doSwitch (s ch an x) : vital (doSwitch s ch an x) = vital s := by simp [doSwitch]

@[simp] theorem vital_trySwitch (s ch) : vital (trySwitch s ch) = vital s := by
  simp only [trySwitch]
  repeat' split
  all_goals simp

@[simp] theorem ends_execSwitchRequest (e v s) : Ends (vital s) (execSwitchRequest e v s) := by simp [execSwitchRequest]
@[simp] theorem ends_execSwitchCancel (e v s) : Ends (vital s) (execSwitchCancel e v s) := by simp [execSwitchCancel]
@[simp] theorem ends_execSwitchTimeDue (ch s) : Ends (vital s) (execSwitchTimeDue ch s) := by unfold execSwitchTimeDue; split <;> simp
@[simp] theorem vital_nosaRx (s p c m b) : vital (nosaRx s p c m b) = vital s := by simp [nosaRx]
@[simp] theorem vital_missed (s c x) : vital (missed s c x) = vital s := by simp [missed]
@[simp] theorem vital_contextError (s p k x) : vital (contextError s p k x) = vital s := by simp [contextError]
@[simp] theorem vital_noSaEvent (s tx ch an cause) : vital (noSaEvent s tx ch an cause) = vital s := by simp [noSaEvent]

@[simp] theorem vital_ingressTagged (s p v ecc m b t) : vital (ingressTagged s p v ecc m b t).1 = vital s := by
  unfold ingressTagged
  repeat' split
  all_goals simp

@[simp] theorem vital_msecIngress (s p ecc m b) : vital (msecIngress s p ecc m b).1 = vital s := by simp [msecIngress]
@[simp] theorem vital_firstVerify (s k x pn) : vital (firstVerify s k x pn) = vital s := by simp [firstVerify]
@[simp] theorem vital_spoil (s x cause) : vital (spoil s x cause) = vital s := by simp [spoil]
@[simp] theorem vital_spoilAll (s x cause) : vital (spoilAll s x cause) = vital s := by simp [spoilAll]
@[simp] theorem vital_settleIcv (s f) : vital (settleIcv s f) = vital s := by simp [settleIcv]
@[simp] theorem vital_markInvalid (s f) : vital (markInvalid s f) = vital s := by simp [markInvalid]

@[simp] theorem ends_execMsecIcvResult (f s) : Ends (vital s) (execMsecIcvResult f s) := by
  simp only [execMsecIcvResult]
  repeat' split
  all_goals simp

@[simp] theorem vital_withdraw (s k) : vital (withdraw s k) = vital s := by
  simp only [withdraw]
  repeat' split
  all_goals simp

@[simp] theorem ends_execRetentionExpiry (c s) : Ends (vital s) (execRetentionExpiry c s) := by unfold execRetentionExpiry; split <;> simp
@[simp] theorem vital_afterPn (s ch k x) : vital (afterPn s ch k x) = vital s := by simp [afterPn]

@[simp] theorem vital_msecEgress (s p ch ecc b) : vital (msecEgress s p ch ecc b).1 = vital s := by
  simp only [msecEgress]
  repeat' split
  all_goals simp

/-! ### Slots -/

@[simp] theorem vital_setSlot (s n x) : vital (setSlot s n x) = vital s := by simp [setSlot]

/-! ### Key -/

@[simp] theorem vital_extend (s k h) : vital (extend s k h) = vital s := by simp [extend]

@[simp] theorem vital_slotChanged (s n) : vital (slotChanged s n) = vital s := by
  refine vital_foldl (fun t x => ?_) ..
  split <;> simp

@[simp] theorem vital_writeSlot (s n key attr life_ measured) : vital (writeSlot s n key attr life_ measured) = vital s := by simp [writeSlot]
@[simp] theorem vital_clearSl (s) : vital (clearSl s) = vital s := by simp [clearSl]
@[simp] theorem vital_keyRefuse (s why) : vital (keyRefuse s why) = vital s := by simp [keyRefuse]
@[simp] theorem vital_keyRuns (s slq) : vital (keyRuns s slq) = vital s := by simp [keyRuns]

@[simp] theorem ends_onKgo {f : State → State} (hf : ∀ t, Step (vital t) (vital (f t))) (s e v op rules) :
    Ends (vital s) (onKgo s e v op rules f) := by
  unfold onKgo
  split
  next => simp
  next =>
    refine ends_onSet (fun t => ?_) ..
    have hcount : vital (count t 0x11 (kKeyOp op) 0) = vital t := vital_count ..
    dsimp only
    split
    next => simp
    next => simpa [hcount] using hf (count t 0x11 (kKeyOp op) 0)

@[simp] theorem ends_execKeyWrite (e v s) : Ends (vital s) (execKeyWrite e v s) := by simp [execKeyWrite]
@[simp] theorem vital_generate (s) : vital (generate s) = vital s := by simp [generate]
@[simp] theorem ends_execKeyGenerate (e v s) : Ends (vital s) (execKeyGenerate e v s) := by simp [execKeyGenerate]
@[simp] theorem ends_execKeyDerive (e v s) : Ends (vital s) (execKeyDerive e v s) := by simp [execKeyDerive]
@[simp] theorem ends_execKeyErase (e v s) : Ends (vital s) (execKeyErase e v s) := by simp [execKeyErase]
@[simp] theorem ends_execKeyQuery (e v s) : Ends (vital s) (execKeyQuery e v s) := by simp [execKeyQuery]
@[simp] theorem ends_execMextend (e v s) : Ends (vital s) (execMextend e v s) := by simp [execMextend]

@[simp] theorem ends_execKeyOpComplete (s) : Ends (vital s) (execKeyOpComplete s) := by
  unfold execKeyOpComplete
  repeat' split
  all_goals simp

@[simp] theorem vital_slotBad (s n why) : vital (slotBad s n why) = vital s := by simp [slotBad]
@[simp] theorem ends_execKeyScrub (n mismatch s) : Ends (vital s) (execKeyScrub n mismatch s) := by simp [execKeyScrub]
@[simp] theorem ends_execKeyLifeExpiry (n s) : Ends (vital s) (execKeyLifeExpiry n s) := by simp [execKeyLifeExpiry]
@[simp] theorem vital_newRand (s) : vital (newRand s) = vital s := by simp [newRand]
@[simp] theorem ends_execRngReady (s) : Ends (vital s) (execRngReady s) := by simp [execRngReady]
@[simp] theorem ends_execDrbgReseed (s) : Ends (vital s) (execDrbgReseed s) := by simp [execDrbgReseed]
@[simp] theorem ends_execRandRefresh (s) : Ends (vital s) (execRandRefresh s) := by simp [execRandRefresh]
@[simp] theorem ends_execRngHealthFailure (s) : Ends (vital s) (execRngHealthFailure s) := by simp [execRngHealthFailure]
@[simp] theorem vital_lcState (s) : vital (lcState s) = vital s := by simp [lcState]
@[simp] theorem vital_lcRes (s why) : vital (lcRes s why) = vital s := by simp [lcRes]

theorem ends_onLcgo {rules : State → List (Bool × Nat)} {f : State → State}
    (hf : ∀ t, t.fuse.op = none → (∀ x ∈ rules t, x.1 = false) → Step (vital t) (vital (f t))) (s e v op) :
    Ends (vital s) (onLcgo s e v op rules f) := by
  unfold onLcgo
  split
  next => simp
  next =>
    refine ends_onSet (fun t => ?_) ..
    split
    next => simp
    next =>
      split
      next => simp
      next hnone =>
        simp only [List.find?_eq_none, List.mem_append, List.mem_cons, List.not_mem_nil, or_false, Bool.not_eq_true] at hnone
        exact hf t (by simpa using hnone _ (.inl (.inr rfl))) fun x hx => hnone x (.inr hx)

theorem step_startFuse {s t : State} {op h floor key : Nat} (hs : Step (vital t) (vital s))
    (hop : (op = 1 → s.fuse.blown = 0) ∧ (op = 2 → s.fuse.blown = 1) ∧ (op = 3 → tget (fun _ => none) s.fuse.hash h = none) ∧
      (op = 5 → s.fuse.floor ≤ floor)) : Step (vital t) (vital (startFuse s op h floor key)) := by
  refine hs.trans ⟨rfl, id, fun horder => ⟨⟨horder.1, horder.2.1, fun x hx => ?_⟩, .refl _⟩, fun hmem => { hmem with }⟩
  cases hx
  exact hop

@[simp] theorem ends_execLcToProvisioned (e v s) : Ends (vital s) (execLcToProvisioned e v s) := by
  refine ends_onLcgo (fun t _ hrules => ?_) ..
  have hblown : t.fuse.blown = 0 := by
    have := hrules _ (List.mem_cons_of_mem _ (List.mem_cons_self ..))
    simp at this
    exact this.1.1.2
  simp only [vital_wrF]
  exact step_startFuse (by simp) (by simp [takeRandom, hblown])

@[simp] theorem ends_execLcToField (e v s) : Ends (vital s) (execLcToField e v s) := by
  refine ends_onLcgo (fun t _ hrules => ?_) ..
  have hblown : t.fuse.blown = 1 := by
    have := hrules _ (List.mem_cons_self ..)
    simp at this
    exact this.2
  simp only [vital_wrF]
  exact step_startFuse (by simp) (by simp [hblown])

@[simp] theorem ends_execLcWriteHash (e v s) : Ends (vital s) (execLcWriteHash e v s) := by
  refine ends_onLcgo (fun t _ hrules => ?_) ..
  have hempty := hrules _ (List.mem_cons_self ..)
  simp only [Bool.or_eq_false_iff, Option.isSome_eq_false_iff, Option.isNone_iff_eq_none] at hempty
  exact step_startFuse (by simp) (by simp [hempty])

@[simp] theorem ends_execLcRevokeHash (e v s) : Ends (vital s) (execLcRevokeHash e v s) := by
  refine ends_onLcgo (fun t _ _ => ?_) ..
  exact step_startFuse (by simp) (by simp)

@[simp] theorem ends_execLcRaiseFloor (e v s) : Ends (vital s) (execLcRaiseFloor e v s) := by
  refine ends_onLcgo (fun t _ hrules => ?_) ..
  have hfloor := hrules _ (List.mem_cons_of_mem _ (List.mem_cons_self ..))
  simp only [decide_eq_false_iff_not, Nat.not_le] at hfloor
  exact step_startFuse (by simp) (by simp [hfloor.le])

@[simp] theorem ends_execLcBlowTestLock (e v s) : Ends (vital s) (execLcBlowTestLock e v s) := by
  refine ends_onLcgo (fun t _ _ => ?_) ..
  exact step_startFuse (by simp) (by simp)

theorem fuse_blow {f : FuseSt} {x : FuseOp} (horder : FuseInOrder f) (hop : f.op = some x) : FuseInOrder (blow f x) ∧ FuseGrows f (blow f x) := by
  obtain ⟨hle, hbank, hrunning⟩ := horder
  obtain ⟨hprov, hfield, hhash, hfloor⟩ := hrunning x hop
  unfold blow
  generalize (if tget (fun _ => false) f.failed 0 then 1 else 0) = bank
  split_ifs with h1 h2 h3 h4 h5
  · exact ⟨⟨by simp, by simp, by simp⟩, by simp [hprov h1], le_rfl, id, fun _ => id, fun _ _ => id, fun k v hk => by simp [hbank (hprov h1)] at hk⟩
  · exact ⟨⟨by simp, by simp, by simp⟩, by simp [hfield h2], le_rfl, by simp, fun _ => id, fun _ _ => id, fun _ _ => id⟩
  · refine ⟨⟨hle, hbank, by simp⟩, le_rfl, le_rfl, id, fun _ => id, fun k v hk => ?_, fun _ _ => id⟩
    rw [tget_tset_other]
    · exact hk
    · rintro rfl
      simp [hhash h3] at hk
  · refine ⟨⟨hle, hbank, by simp⟩, le_rfl, le_rfl, id, fun k hk => ?_, fun _ _ => id, fun _ _ => id⟩
    rw [tget_tset]
    split
    · rfl
    · exact hk
  · exact ⟨⟨hle, hbank, by simp⟩, le_rfl, hfloor h5, id, fun _ => id, fun _ _ => id, fun _ _ => id⟩
  · exact ⟨⟨hle, hbank, by simp⟩, le_rfl, le_rfl, by simp, fun _ => id, fun _ _ => id, fun _ _ => id⟩

@[simp] theorem ends_execFuseWriteComplete (ok s) : Ends (vital s) (execFuseWriteComplete ok s) := by
  unfold execFuseWriteComplete
  split
  next x hx =>
    split
    next => simp
    next =>
      split
      next =>
        have hblow : Step (vital s) (vital { s with fuse := blow s.fuse x }) :=
          ⟨rfl, id, fun horder => fuse_blow horder hx, fun hmem => { hmem with }⟩
        simpa using hblow
      next =>
        simp only [ends_next, vital_emit0, vital_lcRes, vital_lcState]
        refine ⟨rfl, id, fun horder => ⟨⟨horder.1, horder.2.1, fun y hy => ?_⟩, .refl _⟩, fun hmem => { hmem with }⟩
        cases hy
  next => simp

/-! ### EngCtl -/

@[simp] theorem vital_setSample (s l k v) : vital (setSample s l k v) = vital s := by simp [setSample]
@[simp] theorem vital_startEngine (s l k) : vital (startEngine s l k) = vital s := by simp [startEngine]
@[simp] theorem ends_execEngineRun (by_ l k v s) : Ends (vital s) (execEngineRun by_ l k v s) := by simp [execEngineRun]
@[simp] theorem ends_execEngineStop (by_ l k v s) : Ends (vital s) (execEngineStop by_ l k v s) := by simp [execEngineStop]
@[simp] theorem ends_execEngineStopped (e s) : Ends (vital s) (execEngineStopped e s) := by simp [execEngineStopped]
@[simp] theorem ends_execClrfail (by_ l k v s) : Ends (vital s) (execClrfail by_ l k v s) := by simp [execClrfail]
@[simp] theorem ends_execLoaderGo (by_ l v s) : Ends (vital s) (execLoaderGo by_ l v s) := by simp [execLoaderGo]

@[simp] theorem step_loadBytes {v s} (h : Step v (vital s)) (l target emask off bs) : Step v (vital (loadBytes s l target emask off bs)) := by
  unfold loadBytes
  split
  next => exact step_putShared h ..
  next =>
    refine step_foldl (fun t k => step_foldl (fun t p => ?_) (.refl _) _) h _
    split
    next => exact step_setImem (.refl _) ..
    next => exact step_setData (.refl _) ..

@[simp] theorem ends_execLoaderDone (l ok s) : Ends (vital s) (execLoaderDone l ok s) := by unfold execLoaderDone; split <;> simp
@[simp] theorem keeps_issueFar (s e kind a n data) : (issueFar s e kind a n data).Keeps (vital s) := by simp [issueFar]

theorem keeps_of_farCheck {s e a n wr aligned x} (h : farCheck s e a n wr aligned = some x) : x.Keeps (vital s) := by
  unfold farCheck at h
  split at h
  next =>
    cases h
    trivial
  split at h
  next =>
    cases h
    trivial
  dsimp only at h
  split at h
  next =>
    cases h
    simp
  next => cases h

/-! ### FarMem -/

@[simp] theorem ends_farSingle (s e op rd ra size uses wr) : Ends (vital s) (farSingle s e op rd ra size uses wr) := by
  refine ends_instr ?_
  dsimp only
  split
  next => trivial
  next =>
    split
    next h => exact keeps_of_farCheck h
    next => exact keeps_issueFar ..

@[simp] theorem ends_execFld (e rd ra size s) : Ends (vital s) (execFld e rd ra size s) := by simp [execFld]
@[simp] theorem ends_execFst (e rd ra size s) : Ends (vital s) (execFst e rd ra size s) := by simp [execFst]

@[simp] theorem ends_farBlock (s e op ra rb fn wr) : Ends (vital s) (farBlock s e op ra rb fn wr) := by
  refine ends_instr ?_
  dsimp only
  split
  next => trivial
  next =>
    split
    next h => exact keeps_of_farCheck h
    next => simp

@[simp] theorem ends_execFbl (e ra rb fn s) : Ends (vital s) (execFbl e ra rb fn s) := by simp [execFbl]
@[simp] theorem ends_execFbs (e ra rb fn s) : Ends (vital s) (execFbs e ra rb fn s) := by simp [execFbs]
@[simp] theorem vital_noteUnchecked (s e k a n) : vital (noteUnchecked s e k a n) = vital s := by simp [noteUnchecked]

@[simp] theorem ends_execFarLoadDataReturn (e k s) : Ends (vital s) (execFarLoadDataReturn e k s) := by
  unfold execFarLoadDataReturn
  repeat' split
  all_goals simp

@[simp] theorem ends_execFarAccessComplete (e k s) : Ends (vital s) (execFarAccessComplete e k s) := by
  unfold execFarAccessComplete
  repeat' split
  all_goals simp

@[simp] theorem ends_execFence (e s) : Ends (vital s) (execFence e s) := by simp [execFence]
@[simp] theorem keeps_eccTrap (s e a) : (eccTrap s e a).Keeps (vital s) := by simp [eccTrap]

/-! ### NearMem -/

@[simp] theorem ends_execLd (e rd ra imm bad s) : Ends (vital s) (execLd e rd ra imm bad s) := by
  refine ends_instr ?_
  dsimp only
  split <;> simp

@[simp] theorem ends_execSt (e rd ra imm s) : Ends (vital s) (execSt e rd ra imm s) := by
  refine ends_instr ?_
  dsimp only
  split
  next => simp
  next t ht => simp [step_of_nearWrite (.refl _) ht]

@[simp] theorem ends_execXadd (e rd ra rb s) : Ends (vital s) (execXadd e rd ra rb s) := by
  refine ends_instr ?_
  dsimp only
  split
  next t _ ht => simp [step_of_nearWrite (.refl _) ht]
  next => trivial

@[simp] theorem ends_execCas (e rd ra rb s) : Ends (vital s) (execCas e rd ra rb s) := by
  refine ends_instr ?_
  dsimp only
  split
  next t _ ht => simp [step_of_nearWrite (.refl _) ht]
  next => trivial

@[simp] theorem ends_pld (s e rd ra imm n) : Ends (vital s) (pld s e rd ra imm n) := by simp [pld]
@[simp] theorem ends_pst (s e rd ra imm n) : Ends (vital s) (pst s e rd ra imm n) := by simp [pst]
@[simp] theorem ends_execPld1 (e rd ra imm s) : Ends (vital s) (execPld1 e rd ra imm s) := by simp [execPld1]
@[simp] theorem ends_execPld2 (e rd ra imm s) : Ends (vital s) (execPld2 e rd ra imm s) := by simp [execPld2]
@[simp] theorem ends_execPld3 (e rd ra imm s) : Ends (vital s) (execPld3 e rd ra imm s) := by simp [execPld3]
@[simp] theorem ends_execPst1 (e rd ra imm s) : Ends (vital s) (execPst1 e rd ra imm s) := by simp [execPst1]
@[simp] theorem ends_execPst2 (e rd ra imm s) : Ends (vital s) (execPst2 e rd ra imm s) := by simp [execPst2]
@[simp] theorem ends_execPst3 (e rd ra imm s) : Ends (vital s) (execPst3 e rd ra imm s) := by simp [execPst3]
@[simp] theorem keeps_issueSet (s e c a v) : (issueSet s e c a v).Keeps (vital s) := by simp [issueSet]

/-! ### UnitAccess -/

@[simp] theorem ends_execSet (e ra rb s) : Ends (vital s) (execSet e ra rb s) := by simp [execSet]
@[simp] theorem ends_execCommit (e ra s) : Ends (vital s) (execCommit e ra s) := by simp [execCommit]
@[simp] theorem ends_execGet (e rd ra s) : Ends (vital s) (execGet e rd ra s) := by simp [execGet]
@[simp] theorem ends_execPost (e q rb s) : Ends (vital s) (execPost e q rb s) := by simp [execPost]

@[simp] theorem vital_decidePost (s d e) : vital (decidePost s d e) = vital s := by
  simp only [decidePost]
  repeat' split
  all_goals simp

@[simp] theorem ends_execPostboxArbitration (d at_ s) : Ends (vital s) (execPostboxArbitration d at_ s) := by simp [execPostboxArbitration]

@[simp] theorem ends_execMessageCollectable (d e k s) : Ends (vital s) (execMessageCollectable d e k s) := by
  simp only [execMessageCollectable]
  repeat' split
  all_goals simp

@[simp] theorem ends_execCollect (e q s) : Ends (vital s) (execCollect e q s) := by simp [execCollect]
@[simp] theorem ends_execWatch (e ra s) : Ends (vital s) (execWatch e ra s) := by simp [execWatch]

/-! ### Shaper -/

@[simp] theorem vital_setNodeCredits (s lvl n c p) : vital (setNodeCredits s lvl n c p) = vital s := by simp [setNodeCredits]
@[simp] theorem vital_chargeNode (s lvl n bytes committed) : vital (chargeNode s lvl n bytes committed) = vital s := by simp [chargeNode]
@[simp] theorem vital_chargePath (s q bytes comm) : vital (chargePath s q bytes comm) = vital s := by unfold chargePath; split <;> simp
@[simp] theorem vital_overload (s obj) : vital (overload s obj) = vital s := by simp [overload]

/-! ### Gates -/

@[simp] theorem vital_gateApply (s p) : vital (gateApply s p) = vital s := by simp [gateApply]
@[simp] theorem vital_gateCommit (s p t) : vital (gateCommit s p t) = vital s := by simp [gateCommit]
@[simp] theorem vital_writeEntry (s p f) : vital (writeEntry s p f) = vital s := by simp [writeEntry]
@[simp] theorem ends_execGeaWrite (e p v s) : Ends (vital s) (execGeaWrite e p v s) := by simp [execGeaWrite]
@[simp] theorem ends_execGebWrite (e p v s) : Ends (vital s) (execGebWrite e p v s) := by simp [execGebWrite]

/-! ### Mac -/

@[simp] theorem vital_setSel (s p pre x) : vital (setSel s p pre x) = vital s := by simp [setSel]
@[simp] theorem vital_correctCharge (s x bytes) : vital (correctCharge s x bytes) = vital s := by simp [correctCharge]

@[simp] theorem vital_dropSel (s p pre x) : vital (dropSel s p pre x) = vital s := by
  simp only [dropSel]
  repeat' split
  all_goals simp

@[simp] theorem vital_dropInvalid (s p pre) : vital (dropInvalid s p pre) = vital s := by unfold dropInvalid; split <;> simp
@[simp] theorem vital_putOnLine (s p pre x) : vital (putOnLine s p pre x) = vital s := by simp [putOnLine]

@[simp] theorem vital_startNext (s p) : vital (startNext s p) = vital s := by
  simp only [startNext]
  repeat' split
  all_goals simp

@[simp] theorem vital_setRxSlot (s p pre x) : vital (setRxSlot s p pre x) = vital s := by simp [setRxSlot]
@[simp] theorem vital_setClassBit (s f p c b) : vital (setClassBit s f p c b) = vital s := by simp [setClassBit]
@[simp] theorem vital_holdClass (s p c q) : vital (holdClass s p c q) = vital s := by simp [holdClass]
@[simp] theorem vital_pauseReceived (s p b) : vital (pauseReceived s p b) = vital s := by simp [pauseReceived]

@[simp] theorem vital_rxEnd (s p pre how frags) : vital (rxEnd s p pre how frags) = vital s := by
  unfold rxEnd
  split
  next => rfl
  next =>
    extract_lets s1 s2 s3 bad counted cause
    have h3 : vital s3 = vital s := by simp [s3, s2, s1]
    have hcounted : vital counted = vital s := by simp [counted, h3]
    clear_value s3 counted
    split
    next => simp [h3]
    next =>
      split
      next => exact hcounted
      next =>
        extract_lets y t u
        have ht : vital t = vital s := by simp [t, hcounted]
        clear_value t
        simp [u, ht]

@[simp] theorem ends_execMacRxFrameStart (p pre buf ecc x s) : Ends (vital s) (execMacRxFrameStart p pre buf ecc x s) := by
  unfold execMacRxFrameStart
  split
  next => simp
  next =>
    extract_lets t max r held u
    have ht : vital t = vital s := by simp [t]
    have hr : vital r.1 = vital s := by simp [r, ht]
    have hu : vital u = vital s := by simp [u, hr]
    clear_value u
    split
    next => simp [ht]
    split
    next => simp [ht]
    split
    next => simp [ht]
    split <;> simp [hr, hu]

@[simp] theorem ends_execMacRxFrameEnd (p pre how frags s) : Ends (vital s) (execMacRxFrameEnd p pre how frags s) := by
  unfold execMacRxFrameEnd
  split
  next => simp
  split <;> simp

@[simp] theorem ends_execPauseRepeat (p s) : Ends (vital s) (execPauseRepeat p s) := by simp [execPauseRepeat]
@[simp] theorem ends_execPauseTimeExpiry (p classes s) : Ends (vital s) (execPauseTimeExpiry p classes s) := by simp [execPauseTimeExpiry]
@[simp] theorem ends_execPauseWatchdogTrip (p c s) : Ends (vital s) (execPauseWatchdogTrip p c s) := by simp [execPauseWatchdogTrip]

@[simp] theorem ends_execPauseWatchdogRecoveryEnd (p c s) : Ends (vital s) (execPauseWatchdogRecoveryEnd p c s) := by
  simp [execPauseWatchdogRecoveryEnd]

@[simp] theorem vital_preCommit (s p) : vital (preCommit s p) = vital s := by simp [preCommit]
@[simp] theorem ends_execVerifyTimer (p s) : Ends (vital s) (execVerifyTimer p s) := by simp [execVerifyTimer]
@[simp] theorem ends_execVerifyResponse (p s) : Ends (vital s) (execVerifyResponse p s) := by simp [execVerifyResponse]
@[simp] theorem ends_execVerifyMpacketReceived (p s) : Ends (vital s) (execVerifyMpacketReceived p s) := by simp [execVerifyMpacketReceived]

@[simp] theorem vital_selectFrame (s p pre f cls queue cut charged comm) : vital (selectFrame s p pre f cls queue cut charged comm) = vital s := by
  simp [selectFrame]

@[simp] theorem ends_execMsecEgressFrame (p pre ecc s) : Ends (vital s) (execMsecEgressFrame p pre ecc s) := by
  simp only [execMsecEgressFrame]
  repeat' split
  all_goals simp

@[simp] theorem vital_egressRecord (s p x) : vital (egressRecord s p x) = vital s := by simp [egressRecord]
@[simp] theorem vital_offerEgress (s p x) : vital (offerEgress s p x) = vital s := by simp [offerEgress]

@[simp] theorem vital_txWhole (s p pre x cause) : vital (txWhole s p pre x cause) = vital s := by
  unfold txWhole
  repeat' split
  all_goals simp

@[simp] theorem ends_execMacTxFrameEnd (p cutAt under s) : Ends (vital s) (execMacTxFrameEnd p cutAt under s) := by
  unfold execMacTxFrameEnd
  repeat' split
  all_goals simp

@[simp] theorem vital_stompAll (s) : vital (stompAll s) = vital s := by
  refine vital_foldl (fun t p => ?_) ..
  dsimp only
  split <;> simp

@[simp] theorem ends_execGateEntryChange (p early s) : Ends (vital s) (execGateEntryChange p early s) := by simp [execGateEntryChange]
@[simp] theorem ends_execGateListSwitch (p s) : Ends (vital s) (execGateListSwitch p s) := by unfold execGateListSwitch; split <;> simp
@[simp] theorem vital_gatesStepped (s) : vital (gatesStepped s) = vital s := by simp [gatesStepped]

/-! ### Wake -/

@[simp] theorem vital_wakeSource (s k) : vital (wakeSource s k) = vital s := by simp [wakeSource]
@[simp] theorem vital_postTo (s eng m) : vital (postTo s eng m).1 = vital s := by simp [postTo]

/-! ### Meas -/

@[simp] theorem vital_measPost (s obj tag w1 w2) : vital (measPost s obj tag w1 w2) = vital s := by simp [measPost]
@[simp] theorem vital_setStreak (s c n) : vital (setStreak s c n) = vital s := by simp [setStreak]
@[simp] theorem vital_setTrip (s c b) : vital (setTrip s c b) = vital s := by simp [setTrip]
@[simp] theorem vital_watcher (s c v) : vital (watcher s c v) = vital s := by simp [watcher]
@[simp] theorem ends_execConversionResult (c v surge s) : Ends (vital s) (execConversionResult c v surge s) := by simp [execConversionResult]

@[simp] theorem ends_execCalibrationSlot (c isOpen forced missed s) : Ends (vital s) (execCalibrationSlot c isOpen forced missed s) := by
  simp [execCalibrationSlot]

@[simp] theorem vital_measFire (s t ns k) : vital (measFire s t ns k) = vital s := by simp [measFire]
@[simp] theorem ends_execDioEdge (j rising s) : Ends (vital s) (execDioEdge j rising s) := by simp [execDioEdge]
@[simp] theorem ends_execDioedgeRead (e s) : Ends (vital s) (execDioedgeRead e s) := by simp [execDioedgeRead]

@[simp] theorem ends_execCygoWrite (e v s) : Ends (vital s) (execCygoWrite e v s) := by
  refine ends_onSet (fun t => ?_) ..
  simp

@[simp] theorem vital_applyCycle (s c) : vital (applyCycle s c) = vital s := by simp [applyCycle]

@[simp] theorem ends_execCycleApply (c s) : Ends (vital s) (execCycleApply c s) := by
  simp only [execCycleApply]
  repeat' split
  all_goals simp

@[simp] theorem ends_execPwmPeriodStart (k s) : Ends (vital s) (execPwmPeriodStart k s) := by simp [execPwmPeriodStart]
@[simp] theorem vital_outputsSafe (s) : vital (outputsSafe s) = vital s := by simp [outputsSafe]

/-! ### Cls -/

@[simp] theorem vital_setRow (s copy1 i r) : vital (setRow s copy1 i r) = vital s := by simp [setRow]
@[simp] theorem vital_loseRow (s i) : vital (loseRow s i) = vital s := by simp [loseRow]

@[simp] theorem vital_decideAction (s p source prot) : vital (decideAction s p source prot).1 = vital s := by
  simp only [decideAction]
  repeat' split
  all_goals simp

@[simp] theorem vital_endHere (s x) : vital (endHere s x) = vital s := by simp [endHere]
@[simp] theorem vital_sendTo (s x d) : vital (sendTo s x d) = vital s := by simp [sendTo]
@[simp] theorem vital_cutThrough (s x n c q) : vital (cutThrough s x n c q) = vital s := by simp [cutThrough]

@[simp] theorem vital_place (s x r hash) : vital (place s x r hash) = vital s := by
  simp only [place]
  repeat' split
  all_goals simp

@[simp] theorem vital_flowDecide (s x r hash) : vital (flowDecide s x r hash) = vital s := by simp [flowDecide]
@[simp] theorem vital_offerCapture (s x) : vital (offerCapture s x) = vital s := by simp [offerCapture]
@[simp] theorem vital_mirror (s x q hash) : vital (mirror s x q hash) = vital s := by unfold mirror; split <;> simp

@[simp] theorem ends_execClsSearch (f lost s) : Ends (vital s) (execClsSearch f lost s) := by
  unfold execClsSearch
  split
  next => simp
  next =>
    split
    next => simp
    next =>
      extract_lets i s1 p d a hash key s2 s3 fl r t h frame y s4 s5 s6
      have h1 : vital s1 = vital s := by simp [s1]
      have hd : vital d.1 = vital s := by simp [d, h1]
      have h2 : vital s2 = vital s := by
        unfold s2
        split <;> simp [hd]
      have h6 : vital s6 = vital s := by simp [s6, s5, s4, s3, h2]
      clear_value s6
      split
      next => simp
      split
      next =>
        simp only [ends_next, vital_endHere]
        split <;> simp [h6]
      next => simp [h6]

@[simp] theorem vital_unstage320 (s fld k) : vital (unstage320 s fld k) = vital s := by simp [unstage320]
@[simp] theorem vital_putRows (s copy1 i l) : vital (putRows s copy1 i l) = vital s := by simp [putRows]
@[simp] theorem vital_eres (s st why) : vital (eres s st why) = vital s := by simp [eres]
@[simp] theorem ends_execClsEntryWrite (e v s) : Ends (vital s) (execClsEntryWrite e v s) := by simp [execClsEntryWrite]
@[simp] theorem ends_execClsEntryWriteDone (s) : Ends (vital s) (execClsEntryWriteDone s) := by unfold execClsEntryWriteDone; split <;> simp
@[simp] theorem ends_execClsEntryRead (e v s) : Ends (vital s) (execClsEntryRead e v s) := by simp [execClsEntryRead]
@[simp] theorem ends_execHidataWrite (e v s) : Ends (vital s) (execHidataWrite e v s) := by simp [execHidataWrite]
@[simp] theorem ends_execClsScrub (row bad0 bad1 s) : Ends (vital s) (execClsScrub row bad0 bad1 s) := by simp [execClsScrub]

/-! ### Plc -/

@[simp] theorem vital_reportObj (s kind index st) : vital (reportObj s kind index st) = vital s := by unfold reportObj; split <;> simp
@[simp] theorem vital_noteMoved (s kind index asked) : vital (noteMoved s kind index asked) = vital s := by simp [noteMoved]
@[simp] theorem vital_setPlace (s kind index target) : vital (setPlace s kind index target) = vital s := by unfold setPlace; split <;> simp
@[simp] theorem vital_endSaMove (s c st) : vital (endSaMove s c st) = vital s := by unfold endSaMove; split <;> simp
@[simp] theorem vital_setResident (s k b) : vital (setResident s k b) = vital s := by unfold setResident; split <;> simp
@[simp] theorem vital_bringIn (s k x) : vital (bringIn s k x) = vital s := by unfold bringIn; split <;> simp
@[simp] theorem ends_execContextResident (c s) : Ends (vital s) (execContextResident c s) := by unfold execContextResident; split <;> simp

@[simp] theorem ends_execContextMove (c toStore s) : Ends (vital s) (execContextMove c toStore s) := by
  unfold execContextMove
  repeat' split
  all_goals simp

@[simp] theorem vital_startMove (s kind index source target asked) : vital (startMove s kind index source target asked) = vital s := by
  simp [startMove]

@[simp] theorem vital_askMove (s) : vital (askMove s) = vital s := by
  simp only [askMove]
  repeat' split
  all_goals simp

@[simp] theorem ends_onObjGo {f : State → State} (hf : ∀ t, Step (vital t) (vital (f t))) (s e v k) : Ends (vital s) (onObjGo s e v k f) := by
  unfold onObjGo
  split
  next => simp
  next => exact ends_onSet hf ..

@[simp] theorem ends_execPlcQuery (e v s) : Ends (vital s) (execPlcQuery e v s) := by simp [execPlcQuery]
@[simp] theorem ends_execPlcMove (e v s) : Ends (vital s) (execPlcMove e v s) := by simp [execPlcMove]

@[simp] theorem ends_execPlcHint (e x s) : Ends (vital s) (execPlcHint e x s) := by
  unfold execPlcHint
  refine ends_onObjGo (fun t => ?_) ..
  extract_lets k h plc
  simp

@[simp] theorem ends_execPlcPick (e v least s) : Ends (vital s) (execPlcPick e v least s) := by simp [execPlcPick]

@[simp] theorem ends_execPickReservationExpiry (x s) : Ends (vital s) (execPickReservationExpiry x s) := by
  unfold execPickReservationExpiry; split <;> simp

@[simp] theorem ends_execMoveDrainComplete (kind index s) : Ends (vital s) (execMoveDrainComplete kind index s) := by
  unfold execMoveDrainComplete; split <;> simp

@[simp] theorem ends_execMoveTimeout (kind index s) : Ends (vital s) (execMoveTimeout kind index s) := by unfold execMoveTimeout; split <;> simp
@[simp] theorem vital_noteGrant (s c n) : vital (noteGrant s c n) = vital s := by simp [noteGrant]
@[simp] theorem vital_keepRate (s c) : vital (keepRate s c) = vital s := by simp [keepRate]
@[simp] theorem vital_noteAuto (s) : vital (noteAuto s) = vital s := by simp [noteAuto]

@[simp] theorem vital_autoMove (bw s w) : vital (autoMove bw s w) = vital s := by
  simp only [autoMove]
  repeat' split
  all_goals simp

@[simp] theorem vital_moveOut (s f) : vital (moveOut s f) = vital s := by unfold moveOut; split <;> simp
@[simp] theorem ends_execBalanceEpoch (out back wants s) : Ends (vital s) (execBalanceEpoch out back wants s) := by simp [execBalanceEpoch]

@[simp] theorem vital_dropChannelFrames (s c which) : vital (dropChannelFrames s c which) = vital s := by
  unfold dropChannelFrames
  extract_lets s1 s2
  have hs1 : vital s1 = vital s := by
    unfold s1
    refine (vital_foldl (fun t x => ?_) ..).trans ?_
    · split <;> simp
    · simp
  have hs2 : vital s2 = vital s := by
    unfold s2
    refine (vital_foldl (fun t x => ?_) ..).trans ?_
    · split
      · split <;> simp
      · simp
    · simp [hs1]
  clear_value s1 s2
  simp [hs2]

@[simp] theorem vital_endBucketMove (s m) : vital (endBucketMove s m) = vital s := by simp [endBucketMove]
@[simp] theorem vital_channelGone (s c) : vital (channelGone s c) = vital s := by simp [channelGone]

/-! ### Time -/

@[simp] theorem vital_setFadj (s f) : vital (setFadj s f) = vital s := by simp [setFadj]
@[simp] theorem vital_setLearn (s n) : vital (setLearn s n) = vital s := by simp [setLearn]
@[simp] theorem vital_enterHoldover (s) : vital (enterHoldover s) = vital s := by simp [enterHoldover]
@[simp] theorem vital_leaveHoldover (s ref) : vital (leaveHoldover s ref) = vital s := by simp [leaveHoldover]
@[simp] theorem vital_timeState (s) : vital (timeState s) = vital s := by simp [timeState]
@[simp] theorem vital_noteRefs (s) : vital (noteRefs s) = vital s := by simp [noteRefs]
@[simp] theorem vital_endSlew (s) : vital (endSlew s) = vital s := by simp [endSlew]
@[simp] theorem vital_selectRef (s r) : vital (selectRef s r) = vital s := by simp [selectRef]
@[simp] theorem ends_execRefSelection (s) : Ends (vital s) (execRefSelection s) := by simp [execRefSelection]

@[simp] theorem ends_execWtrExpiry (r s) : Ends (vital s) (execWtrExpiry r s) := by
  simp only [execWtrExpiry]
  repeat' split
  all_goals simp

@[simp] theorem vital_secondBoundary (s) : vital (secondBoundary s) = vital s := by simp [secondBoundary]
@[simp] theorem vital_countTick (s) : vital (countTick s) = vital s := by simp [countTick]

@[simp] theorem vital_latchPassed (s) : vital (latchPassed s) = vital s := by
  unfold latchPassed
  refine (vital_foldl (fun t x => ?_) ..).trans ?_
  · split <;> simp
  · simp

@[simp] theorem vital_stepTime (s t kind ref) : vital (stepTime s t kind ref) = vital s := by simp [stepTime]
@[simp] theorem ends_execSnapshotLatch (e k v s) : Ends (vital s) (execSnapshotLatch e k v s) := by simp [execSnapshotLatch]
@[simp] theorem vital_adjust (s val) : vital (adjust s val) = vital s := by simp [adjust]
@[simp] theorem ends_execAdjFreq (e val s) : Ends (vital s) (execAdjFreq e val s) := by simp [execAdjFreq]
@[simp] theorem ends_execAdjOffset (e val s) : Ends (vital s) (execAdjOffset e val s) := by simp [execAdjOffset]
@[simp] theorem ends_execAdjSet (e val s) : Ends (vital s) (execAdjSet e val s) := by simp [execAdjSet]
@[simp] theorem ends_execSlewEnd (s) : Ends (vital s) (execSlewEnd s) := by simp [execSlewEnd]
@[simp] theorem ends_execPpsInEdge (j s) : Ends (vital s) (execPpsInEdge j s) := by simp [execPpsInEdge]
@[simp] theorem ends_execPpsLoss (j s) : Ends (vital s) (execPpsLoss j s) := by simp [execPpsLoss]
@[simp] theorem vital_setTod (s j l) : vital (setTod s j l) = vital s := by simp [setTod]
@[simp] theorem ends_execTodCharReceived (j c ferr s) : Ends (vital s) (execTodCharReceived j c ferr s) := by simp [execTodCharReceived]
@[simp] theorem ends_execTodtake (e j v s) : Ends (vital s) (execTodtake e j v s) := by simp [execTodtake]
@[simp] theorem ends_execEgtake (e v s) : Ends (vital s) (execEgtake e v s) := by simp [execEgtake]
@[simp] theorem ends_execSynceFreqMeasure (v s) : Ends (vital s) (execSynceFreqMeasure v s) := by simp [execSynceFreqMeasure]
@[simp] theorem ends_execPpsOutPulse (j s) : Ends (vital s) (execPpsOutPulse j s) := by simp [execPpsOutPulse]
@[simp] theorem ends_execTodOutMessage (j s) : Ends (vital s) (execTodOutMessage j s) := by simp [execTodOutMessage]
@[simp] theorem vital_clockTo (s candle) : vital (clockTo s candle) = vital s := by simp [clockTo]

/-! ### Cndl -/

@[simp] theorem vital_showClass (s) : vital (showClass s) = vital s := by simp [showClass]
@[simp] theorem ends_execCandleOscReady (s) : Ends (vital s) (execCandleOscReady s) := by simp [execCandleOscReady]
@[simp] theorem ends_execOvenOkSet (s) : Ends (vital s) (execOvenOkSet s) := by simp [execOvenOkSet]

@[simp] theorem ends_execOvenOkClear (s) : Ends (vital s) (execOvenOkClear s) := by
  unfold execOvenOkClear
  split
  · simp
  · extract_lets s1 x s2
    have hs1 : Step (vital s) (vital s1) := by simp [s1]
    have hs2 : Step (vital s) (vital s2) := by simp [s2, hs1]
    clear_value s1 s2
    simp [hs2]

@[simp] theorem ends_execCandleCompare (d s) : Ends (vital s) (execCandleCompare d s) := by simp [execCandleCompare]
@[simp] theorem vital_learnSecond (s) : vital (learnSecond s) = vital s := by simp [learnSecond]
@[simp] theorem vital_holdSecond (s) : vital (holdSecond s) = vital s := by simp [holdSecond]
@[simp] theorem vital_boundSecond (s) : vital (boundSecond s) = vital s := by simp [boundSecond]
@[simp] theorem ends_execModelEval (h err fast s) : Ends (vital s) (execModelEval h err fast s) := by simp [execModelEval]
@[simp] theorem ends_execLseedWrite (e v s) : Ends (vital s) (execLseedWrite e v s) := by simp [execLseedWrite]
@[simp] theorem ends_execCandleStop (s) : Ends (vital s) (execCandleStop s) := by simp [execCandleStop]
@[simp] theorem ends_execCandleRestartAttempt (s) : Ends (vital s) (execCandleRestartAttempt s) := by simp [execCandleRestartAttempt]
@[simp] theorem ends_execCstatRead (e s) : Ends (vital s) (execCstatRead e s) := by simp [execCstatRead]

/-! ### Hst -/

@[simp] theorem vital_noteAer (s b) : vital (noteAer s b) = vital s := by simp [noteAer]
@[simp] theorem vital_setChain (s n c) : vital (setChain s n c) = vital s := by simp [setChain]

@[simp] theorem step_busW {v s} (h : Step v (vital s)) (inStore a x) : Step v (vital (busW s inStore a x)) := by
  unfold busW
  split
  · exact step_of_canonical h rfl rfl rfl fun h => { h with store := twf_tset _ _ _ _ h.store }
  · exact step_of_canonical h rfl rfl rfl fun h => { h with bus := twf_tset _ _ _ _ h.bus }

@[simp] theorem step_readLetterAt {v s} (h : Step v (vital s)) (a w) : Step v (vital (readLetterAt s a w).1) := by simp [readLetterAt, h]

@[simp] theorem step_writeStatus {v s} (h : Step v (vital s)) (inStore a done code) : Step v (vital (writeStatus s inStore a done code)) := by
  unfold writeStatus
  extract_lets s1 s2 s3 s4
  have hs1 : Step v (vital s1) := by simp [s1, h]
  have hs2 : Step v (vital s2) := by simp [s2, hs1]
  have hs3 : Step v (vital s3) := by simp [s3, hs2]
  have hs4 : Step v (vital s4) := by simp [s4, hs3]
  clear_value s1 s2 s3 s4
  simp [hs4]

@[simp] theorem step_endLetter {v s} (h : Step v (vital s)) (n code status) : Step v (vital (endLetter s n code status)) := by simp [endLetter, h]
@[simp] theorem vital_discardWrite (s) : vital (discardWrite s) = vital s := by simp [discardWrite]

@[simp] theorem ends_onHost {f : State → State} (hf : ∀ t, Step (vital t) (vital (f t))) (s) : Ends (vital s) (onHost s f) := by
  unfold onHost
  split
  · simp
  · split
    · simp
    · exact (ends_next ..).2 (hf s)

@[simp] theorem ends_execChainStart (n h l s) : Ends (vital s) (execChainStart n h l s) := by simp [execChainStart]
@[simp] theorem step_takeLetter {v s} (h : Step v (vital s)) (n l inStore) : Step v (vital (takeLetter s n l inStore)) := by simp [takeLetter, h]
@[simp] theorem vital_noteErr (s err) : vital (noteErr s err) = vital s := by simp [noteErr]
@[simp] theorem ends_execLetterFetched (n w cpl poison s) : Ends (vital s) (execLetterFetched n w cpl poison s) := by simp [execLetterFetched]
@[simp] theorem vital_failRead (s n code) : vital (failRead s n code) = vital s := by simp [failRead]
@[simp] theorem step_reread {v s} (h : Step v (vital s)) (n w err) : Step v (vital (reread s n w err)) := by simp [reread, h]
@[simp] theorem ends_execParkedReread (n r s) : Ends (vital s) (execParkedReread n r s) := by simp [execParkedReread]
@[simp] theorem ends_execDoorbellRing (n r s) : Ends (vital s) (execDoorbellRing n r s) := by simp [execDoorbellRing]

@[simp] theorem ends_execChainResume (n s) : Ends (vital s) (execChainResume n s) := by
  unfold execChainResume
  refine ends_onHost (fun t => ?_) ..
  extract_lets c
  split
  · simp
  · split <;> simp [c]

@[simp] theorem vital_stopChain (s n) : vital (stopChain s n) = vital s := by simp [stopChain]
@[simp] theorem ends_execChainDisable (e n v s) : Ends (vital s) (execChainDisable e n v s) := by simp [execChainDisable]
@[simp] theorem ends_execBar0WriteDiscarded (off s) : Ends (vital s) (execBar0WriteDiscarded off s) := by simp [execBar0WriteDiscarded]

@[simp] theorem ends_execHostPostboxTake (n s) : Ends (vital s) (execHostPostboxTake n s) := by
  unfold execHostPostboxTake
  refine ends_onHost (fun t => ?_) ..
  split
  · extract_lets s1
    have hs1 : Step (vital t) (vital s1) := by simp [s1]
    clear_value s1
    simp [hs1]
  · simp

@[simp] theorem ends_execNopLetter (n s) : Ends (vital s) (execNopLetter n s) := by simp [execNopLetter]
@[simp] theorem step_sendMsg {v s} (h : Step v (vital s)) (n) : Step v (vital (sendMsg s n)) := by simp [sendMsg, h]
@[simp] theorem ends_execMsgLetter (n s) : Ends (vital s) (execMsgLetter n s) := by simp [execMsgLetter]
@[simp] theorem ends_execMsgLetterRetry (n s) : Ends (vital s) (execMsgLetterRetry n s) := by simp [execMsgLetterRetry]
@[simp] theorem ends_execMsgFullTimeout (n s) : Ends (vital s) (execMsgFullTimeout n s) := by simp [execMsgFullTimeout]

theorem step_of_dmaCheck {v s n l wr t} (h : Step v (vital s)) (ht : dmaCheck s n l wr = some t) : Step v (vital t) := by
  unfold dmaCheck at ht
  split at ht
  next => rw [← Option.some.inj ht]; simp [h]
  next =>
    split at ht
    next => rw [← Option.some.inj ht]; simp [h]
    next => cases ht

@[simp] theorem step_moveRead {v s} (h : Step v (vital s)) (n bytes code bad) : Step v (vital (moveRead s n bytes code bad)) := by
  unfold moveRead
  extract_lets c l unit
  split
  next t ht => exact step_of_dmaCheck h ht
  next =>
    split
    · exact h
    rename_i got free s1 s2 _ _ _
    have hs1 : Step v (vital s1) := by simp [s1, free, h]
    have hs2 : Step v (vital s2) := by simp [s2, hs1]
    simp [hs1, hs2]

@[simp] theorem ends_execReadLetter (n bytes x s) : Ends (vital s) (execReadLetter n bytes x s) := by simp [execReadLetter]

@[simp] theorem step_hostMem {v s} (h : Step v (vital s)) (l : List (Nat × Byte)) :
    Step v (vital { s with hst := { s.hst with mem := l.foldl (fun t p => tset (fun _ => 0) t p.1 p.2) s.hst.mem } }) :=
  step_of_canonical h rfl rfl rfl fun h => { h with hostMem := twf_foldl_tset _ _ _ h.hostMem }

@[simp] theorem ends_execWriteLetter (n s) : Ends (vital s) (execWriteLetter n s) := by
  unfold execWriteLetter
  split
  · simp
  extract_lets -underBinder c l
  split
  · simp
  split
  next t ht => exact (ends_next ..).2 (step_of_dmaCheck (.refl _) ht)
  next =>
    rw [ends_next, vital_setChain]
    exact step_hostMem (by simp) _

@[simp] theorem ends_execDmaComplete (n s) : Ends (vital s) (execDmaComplete n s) := by simp [execDmaComplete]
@[simp] theorem ends_execCompletionTimeout (x s) : Ends (vital s) (execCompletionTimeout x s) := by simp [execCompletionTimeout]
@[simp] theorem ends_execIrqHoldoffExpiry (v s) : Ends (vital s) (execIrqHoldoffExpiry v s) := by simp [execIrqHoldoffExpiry]
@[simp] theorem ends_execPcieLinkDown (s) : Ends (vital s) (execPcieLinkDown s) := by simp [execPcieLinkDown]
@[simp] theorem ends_execPcieLinkUp (link cfg s) : Ends (vital s) (execPcieLinkUp link cfg s) := by simp [execPcieLinkUp]
@[simp] theorem ends_execMsixUnmask (x f s) : Ends (vital s) (execMsixUnmask x f s) := by simp [execMsixUnmask]
@[simp] theorem ends_execLinkRead (e s) : Ends (vital s) (execLinkRead e s) := by simp [execLinkRead]

@[simp] theorem ends_execResultSlotHostRead (slot s) : Ends (vital s) (execResultSlotHostRead slot s) := by
  unfold execResultSlotHostRead
  repeat' split
  all_goals simp

@[simp] theorem ends_execResultSlotMap (e v s) : Ends (vital s) (execResultSlotMap e v s) := by
  refine ends_onSet (fun t => ?_) ..
  dsimp only
  repeat' split
  all_goals simp

/-! ### Cnt -/

@[simp] theorem vital_setNode (s k v f) : vital (setNode s k v f) = vital s := by simp [setNode]
@[simp] theorem vital_resetNode (s k) : vital (resetNode s k) = vital s := by simp [resetNode]
@[simp] theorem vital_dropMaxima (s) : vital (dropMaxima s) = vital s := by simp [dropMaxima]
@[simp] theorem vital_startDump (s) : vital (startDump s) = vital s := by simp [startDump]
@[simp] theorem ends_execEpochSwitch (s) : Ends (vital s) (execEpochSwitch s) := by simp [execEpochSwitch]

@[simp] theorem ends_execDumpComplete (s) : Ends (vital s) (execDumpComplete s) := by
  generalize hf : @execDumpComplete = f
  delta execDumpComplete at hf
  subst hf
  beta_reduce
  split
  next pos head body _ =>
    split
    · simp
    · extract_lets +onlyGivenNames a head seq
      generalize hdone : ({ s with cnt := { s.cnt with dump := none, late := false, dumpSeq := seq + 1 } } : State) = done
      have hv : vital done = vital s := by rw [← hdone]; rfl
      clear hdone
      split
      · simp [hv]
      · extract_lets d s1 r
        have hs1 : Step (vital s) (vital s1) := by simp [s1, d, hv]
        have hr : Step (vital s) (vital r.1) := by simp [r, hs1]
        simp [hr]
  · simp

@[simp] theorem ends_execCounterEccError (unit kind obj single s) : Ends (vital s) (execCounterEccError unit kind obj single s) := by
  simp [execCounterEccError]

@[simp] theorem ends_execNodeRead (e v s) : Ends (vital s) (execNodeRead e v s) := by simp [execNodeRead]

@[simp] theorem ends_execNodeReset (e val s) : Ends (vital s) (execNodeReset e val s) := by
  unfold execNodeReset
  split
  · simp
  · refine ends_onSet (fun t => ?_) ..
    simp

@[simp] theorem ends_execSampleAppend (e v s) : Ends (vital s) (execSampleAppend e v s) := by
  generalize hf : @execSampleAppend = f
  delta execSampleAppend at hf
  subst hf
  beta_reduce
  refine ends_onSet (fun t => ?_) ..
  split
  · simp
  · extract_lets -underBinder a b
    split
    · simp
    · extract_lets -underBinder s1 x
      have hs1 : Step (vital t) (vital s1) := by simp [s1]
      simp [hs1]

@[simp] theorem vital_freeze (s) : vital (freeze s) = vital s := by simp [freeze]
@[simp] theorem vital_captureTrigger (s) : vital (captureTrigger s) = vital s := by simp [captureTrigger]
@[simp] theorem ends_execCaptureArm (e v s) : Ends (vital s) (execCaptureArm e v s) := by simp [execCaptureArm]
@[simp] theorem ends_execCaptureTrigger (e v s) : Ends (vital s) (execCaptureTrigger e v s) := by simp [execCaptureTrigger]
@[simp] theorem ends_execCaptureStop (e v s) : Ends (vital s) (execCaptureStop e v s) := by simp [execCaptureStop]
@[simp] theorem ends_execCaptureFrozen (s) : Ends (vital s) (execCaptureFrozen s) := by simp [execCaptureFrozen]

@[simp] theorem ends_execCaptureRecord (lost s) : Ends (vital s) (execCaptureRecord lost s) := by
  generalize hf : @execCaptureRecord = f
  delta execCaptureRecord at hf
  subst hf
  beta_reduce
  split
  next o l _ =>
    split
    · simp
    · extract_lets +onlyGivenNames b n ring
      generalize hdone : ({ s with cnt := { s.cnt with offers := l } } : State) = done
      have hv : vital done = vital s := by rw [← hdone]; rfl
      clear hdone
      extract_lets -underBinder s1 pos a
      split
      · simp [s1, hv]
      · split <;> simp [s1, hv]
  · simp

/-! ### Trib -/

@[simp] theorem vital_setTribu (s q x) : vital (setTribu s q x) = vital s := by simp [setTribu]
@[simp] theorem vital_pushBlocks (s q cpf fill l bs) : vital (pushBlocks s q cpf fill l bs).1 = vital s := by simp [pushBlocks]
@[simp] theorem vital_setCauses (s q x) : vital (setCauses s q x) = vital s := by simp [setCauses]
@[simp] theorem vital_refill (s q) : vital (refill s q) = vital s := by simp [refill]
@[simp] theorem vital_breakFrame (s q) : vital (breakFrame s q) = vital s := by simp [breakFrame]
@[simp] theorem vital_tribChannelLost (s c) : vital (tribChannelLost s c) = vital s := by simp [tribChannelLost]
@[simp] theorem vital_tribFrameEnd (s c up) : vital (tribFrameEnd s c up) = vital s := by simp [tribFrameEnd]
@[simp] theorem vital_pushDown (s q bs) : vital (pushDown s q bs).1 = vital s := by simp [pushDown]
@[simp] theorem vital_containerIn (s q b) : vital (containerIn s q b) = vital s := by simp [containerIn]
@[simp] theorem ends_execContainerTimeout (q s) : Ends (vital s) (execContainerTimeout q s) := by simp [execContainerTimeout]
@[simp] theorem vital_takeUpstream (s rx) : vital (takeUpstream s rx) = vital s := by simp [takeUpstream]

@[simp] theorem vital_feedPort (s p n) : vital (feedPort s p n) = vital s := by
  simp only [feedPort]
  repeat' split
  all_goals simp

@[simp] theorem vital_feedPorts (s) : vital (feedPorts s) = vital s := by simp [feedPorts]
@[simp] theorem vital_swapChannel (s c) : vital (swapChannel s c) = vital s := by unfold swapChannel; split <;> simp
@[simp] theorem ends_execTribFrameBoundary (rx s) : Ends (vital s) (execTribFrameBoundary rx s) := by simp [execTribFrameBoundary]
@[simp] theorem ends_execConnWrite (e n v s) : Ends (vital s) (execConnWrite e n v s) := by simp [execConnWrite]

/-! ### Pon -/

@[simp] theorem vital_setPon (s c x) : vital (setPon s c x) = vital s := by simp [setPon]
@[simp] theorem vital_clearWlock (s c) : vital (clearWlock s c) = vital s := by simp [clearWlock]
@[simp] theorem vital_sampleBurst (s c b) : vital (sampleBurst s c b) = vital s := by simp [sampleBurst]
@[simp] theorem vital_noteCarried (s c b) : vital (noteCarried s c b) = vital s := by simp [noteCarried]

@[simp] theorem vital_endBurst (s c) : vital (endBurst s c) = vital s := by
  unfold endBurst
  extract_lets -underBinder x
  split
  · simp
  · extract_lets -underBinder s1
    have hs1 : vital s1 = vital s := by simp [s1]
    split <;> simp [hs1]

@[simp] theorem vital_checkSerial (s c) : vital (checkSerial s c) = vital s := by simp [checkSerial]
@[simp] theorem vital_dropPloams (s c) : vital (dropPloams s c) = vital s := by simp [dropPloams]
@[simp] theorem vital_setOper (s c b) : vital (setOper s c b) = vital s := by simp [setOper]
@[simp] theorem vital_leaveAct (s c st) : vital (leaveAct s c st) = vital s := by simp [leaveAct]
@[simp] theorem vital_enterO6 (s c) : vital (enterO6 s c) = vital s := by simp [enterO6]
@[simp] theorem vital_putAct (s c st) : vital (putAct s c st) = vital s := by simp [putAct]
@[simp] theorem vital_setAct (s c st) : vital (setAct s c st) = vital s := by simp [setAct]
@[simp] theorem vital_breakChain (s c id) : vital (breakChain s c id) = vital s := by simp [breakChain]
@[simp] theorem vital_breakChains (s c) : vital (breakChains s c) = vital s := by simp [breakChains]
@[simp] theorem vital_lods (s c) : vital (lods s c) = vital s := by simp [lods]
@[simp] theorem ends_execPsbdMissed (c s) : Ends (vital s) (execPsbdMissed c s) := by simp [execPsbdMissed]

@[simp] theorem ends_execO6HoldExpiry (c s) : Ends (vital s) (execO6HoldExpiry c s) := by
  unfold execO6HoldExpiry
  split <;> simp

@[simp] theorem ends_execActset (e c val s) : Ends (vital s) (execActset e c val s) := by simp [execActset]
@[simp] theorem vital_toAgent (s c agent b m) : vital (toAgent s c agent b m) = vital s := by simp [toAgent]

@[simp] theorem step_downloadSection {v s} (h : Step v (vital s)) (c b) : Step v (vital (downloadSection s c b)) := by
  unfold downloadSection
  split
  · simp [h]
  · split
    · simp [h]
    · extract_lets -underBinder len s1 d a fail
      have hs1 : Step v (vital s1) := by simp [s1, h]
      split
      · simp [hs1]
      · split
        · simp [fail, s1, len, h]
        · split
          · simp [fail, s1, len, h]
          · simp [hs1]

@[simp] theorem step_deliverXgem {v s} (h : Step v (vital s)) (c i b m) : Step v (vital (deliverXgem s c i b m)) := by
  unfold deliverXgem
  split
  · simp [h]
  · simp [h]
  · extract_lets -underBinder x f
    simp [h]

@[simp] theorem vital_dropChain (s c id rest) : vital (dropChain s c id rest) = vital s := by simp [dropChain]

@[simp] theorem step_joinXgem {v s} (h : Step v (vital s)) (c i port first last b) : Step v (vital (joinXgem s c i port first last b)) := by
  unfold joinXgem
  extract_lets -underBinder isOpen s1 old
  have hs1 : Step v (vital s1) := by simp [s1, h]
  clear_value isOpen old
  split
  · simp [hs1]
  · extract_lets -underBinder s2 x
    have hs2 : Step v (vital s2) := by simp [s2, hs1]
    simp [hs2]

@[simp] theorem step_xgemIn {v s} (h : Step v (vital s)) (c port key pos first last corrected full b) :
    Step v (vital (xgemIn s c port key pos first last corrected full b)) := by
  unfold xgemIn
  extract_lets -underBinder s1
  have hs1 : Step v (vital s1) := by simp [s1, h]
  split
  · simp [hs1]
  · split
    · extract_lets -underBinder s2
      have hs2 : Step v (vital s2) := by simp [s2, hs1]
      simp [hs2]
    · simp [hs1]

@[simp] theorem step_itemIn {v s} (h : Step v (vital s)) (c i) : Step v (vital (itemIn c s i)) := by
  unfold itemIn
  split
  · simp [h]
  · simp [h]
  · simp [h]
  · split
    · simp [h]
    · split <;> simp [h]
  · simp [h]
  · simp [h]
  · simp [h]
  · simp [h]

@[simp] theorem vital_captureSfc (s c superframe) : vital (captureSfc s c superframe) = vital s := by simp [captureSfc]
@[simp] theorem vital_psbdSeen (s c) : vital (psbdSeen s c) = vital s := by simp [psbdSeen]

@[simp] theorem ends_execDownstreamFrame (c superframe items s) : Ends (vital s) (execDownstreamFrame c superframe items s) := by
  unfold execDownstreamFrame
  split
  · simp
  · extract_lets -underBinder x s1 s2 s3 s4
    have hs1 : Step (vital s) (vital s1) := by simp [s1]
    have hs2 : Step (vital s) (vital s2) := by simp [s2, hs1]
    have hs3 : Step (vital s) (vital s3) := by
      unfold s3
      split <;> simp [hs2]
    have hs4 : Step (vital s) (vital s4) := by simp [s4, hs3]
    simp [hs3, hs4]

@[simp] theorem vital_putPiece (s c a f last) : vital (putPiece s c a f last) = vital s := by
  unfold putPiece
  split
  · simp
  · extract_lets -underBinder k bytes x
    simp

@[simp] theorem vital_putPayload (s c a f) : vital (putPayload s c a f) = vital s := by
  unfold putPayload
  split
  · simp
  · extract_lets -underBinder setRest k rest x s1
    have hs1 : vital s1 = vital s := by simp [s1]
    simp [s1, x, rest, k, setRest]

/-! ### Trib -/

theorem vital_of_nextContainer {s q x t} (h : nextContainer s q = some (x, t)) : vital t = vital s := by
  unfold nextContainer at h
  extract_lets y ais u at h
  have hu : vital u = vital s := by simp [u]
  clear_value u
  split_ifs at h <;> cases h <;> exact hu

/-! ### Pon -/

@[simp] theorem vital_putContainers (k s c a q) : vital (putContainers k s c a q) = vital s := by
  induction k generalizing s with
  | zero => rfl
  | succ k ih =>
    unfold putContainers
    split
    · rfl
    split
    · rfl
    split
    · rfl
    next x t ht =>
      have h : vital t = vital s := vital_of_nextContainer ht
      split <;> simp [ih, h]

@[simp] theorem vital_takePloam (s c) : vital (takePloam s c).2 = vital s := by
  unfold takePloam
  extract_lets -underBinder x r
  have hr : vital r.2 = vital s := by
    unfold r
    split <;> simp
  split
  · simp [hr]
  · extract_lets -underBinder m
    have hm : vital m.2 = vital s := by simp [m, hr]
    simp [hm]

@[simp] theorem vital_beginBurst (s c g) : vital (beginBurst s c g) = vital s := by
  unfold beginBurst
  split
  · simp
  · split
    · simp
    · split <;> simp

@[simp] theorem ends_execBurstStart (c s) : Ends (vital s) (execBurstStart c s) := by
  unfold execBurstStart
  extract_lets -underBinder x
  split <;> simp

@[simp] theorem ends_execBurstEnd (c s) : Ends (vital s) (execBurstEnd c s) := by simp [execBurstEnd]
@[simp] theorem ends_execSerialNumberReply (c s) : Ends (vital s) (execSerialNumberReply c s) := by simp [execSerialNumberReply]
@[simp] theorem ends_execPloamUpstreamGo (e c val s) : Ends (vital s) (execPloamUpstreamGo e c val s) := by simp [execPloamUpstreamGo]
@[simp] theorem ends_execSfcCaptureArm (e c val s) : Ends (vital s) (execSfcCaptureArm e c val s) := by simp [execSfcCaptureArm]
@[simp] theorem vital_setDlctl (s c val) : vital (setDlctl s c val) = vital s := by simp [setDlctl]
@[simp] theorem ends_execDlerrClear (e c val s) : Ends (vital s) (execDlerrClear e c val s) := by simp [execDlerrClear]

@[simp] theorem ends_execWatchfulSleepReceiverCycle (c on s) : Ends (vital s) (execWatchfulSleepReceiverCycle c on s) := by
  simp [execWatchfulSleepReceiverCycle]

@[simp] theorem ends_execPonFramerPllLockLoss (c s) : Ends (vital s) (execPonFramerPllLockLoss c s) := by simp [execPonFramerPllLockLoss]

/-! ### Log -/

@[simp] theorem vital_logStat (s) : vital (logStat s) = vital s := by simp [logStat]
@[simp] theorem vital_flush (s) : vital (flush s) = vital s := by simp [flush]
@[simp] theorem vital_dropRecord (s) : vital (dropRecord s) = vital s := by simp [dropRecord]
@[simp] theorem vital_storeRecord (s x supp) : vital (storeRecord s x supp) = vital s := by simp [storeRecord]
@[simp] theorem vital_ownRecord (s code p1 p2 p3) : vital (ownRecord s code p1 p2 p3) = vital s := by simp [ownRecord]
@[simp] theorem vital_lifemark (s) : vital (lifemark s) = vital s := by simp [lifemark]
@[simp] theorem vital_suppress (s c) : vital (suppress s c) = vital s := by simp [suppress]
@[simp] theorem vital_spend (s c exempt) : vital (spend s c exempt) = vital s := by simp [spend]
@[simp] theorem vital_takeEvent (s x) : vital (takeEvent s x) = vital s := by simp [takeEvent]

@[simp] theorem ends_execEventRecord (s) : Ends (vital s) (execEventRecord s) := by
  unfold execEventRecord
  split <;> simp

@[simp] theorem ends_execCommitBufferFlush (s) : Ends (vital s) (execCommitBufferFlush s) := by simp [execCommitBufferFlush]
@[simp] theorem ends_execCreditInstant (s) : Ends (vital s) (execCreditInstant s) := by simp [execCreditInstant]
@[simp] theorem ends_execSuppressedRecord (code s) : Ends (vital s) (execSuppressedRecord code s) := by simp [execSuppressedRecord]
@[simp] theorem vital_wearOf (s area) : vital (wearOf s area) = vital s := by simp [wearOf]
@[simp] theorem ends_execRecorderClear (e val s) : Ends (vital s) (execRecorderClear e val s) := by simp [execRecorderClear]
@[simp] theorem ends_execHostRecordLatch (s) : Ends (vital s) (execHostRecordLatch s) := by simp [execHostRecordLatch]
@[simp] theorem ends_execHostRecordAdvance (s) : Ends (vital s) (execHostRecordAdvance s) := by simp [execHostRecordAdvance]
@[simp] theorem ends_execEngineRecordLatch (e k s) : Ends (vital s) (execEngineRecordLatch e k s) := by simp [execEngineRecordLatch]
@[simp] theorem ends_execEngineRecordAdvance (e k s) : Ends (vital s) (execEngineRecordAdvance e k s) := by simp [execEngineRecordAdvance]
@[simp] theorem vital_commitJournal (s) : vital (commitJournal s) = vital s := by simp [commitJournal]
@[simp] theorem ends_execJournalCommit (worn s) : Ends (vital s) (execJournalCommit worn s) := by simp [execJournalCommit]
@[simp] theorem ends_execLifeCounterWrap (s) : Ends (vital s) (execLifeCounterWrap s) := by simp [execLifeCounterWrap]
@[simp] theorem vital_journalAdd (s k) : vital (journalAdd s k) = vital s := by simp [journalAdd]
@[simp] theorem vital_journalSecond (s) : vital (journalSecond s) = vital s := by simp [journalSecond]
@[simp] theorem vital_tagRes (s why) : vital (tagRes s why) = vital s := by simp [tagRes]
@[simp] theorem ends_execTagReadLatch (e val s) : Ends (vital s) (execTagReadLatch e val s) := by simp [execTagReadLatch]
@[simp] theorem ends_execTagWrite (e val s) : Ends (vital s) (execTagWrite e val s) := by simp [execTagWrite]
@[simp] theorem vital_lockBlock (s op b) : vital (lockBlock s op b) = vital s := by simp [lockBlock]

@[simp] theorem vital_askLock (s op b) : vital (askLock s op b) = vital s := by
  unfold askLock
  split <;> simp

@[simp] theorem ends_execTagLockToReset (e val s) : Ends (vital s) (execTagLockToReset e val s) := by simp [execTagLockToReset]
@[simp] theorem ends_execTagLockPermanent (e val s) : Ends (vital s) (execTagLockPermanent e val s) := by simp [execTagLockPermanent]

@[simp] theorem ends_execTagWriteCommit (s) : Ends (vital s) (execTagWriteCommit s) := by
  unfold execTagWriteCommit
  split
  next t _ =>
    split
    · simp
    extract_lets l tag y s1
    have hs1 : Step (vital s) (vital s1) :=
      step_of_canonical (.refl _) rfl rfl rfl fun h => { h with tag := twf_foldl_tset _ _ _ h.tag }
    refine (ends_next ..).2 (step_foldl (fun _ _ => by simp) ?_ _)
    simp [hs1]
  · simp

@[simp] theorem ends_execFwcauseClear (e val s) : Ends (vital s) (execFwcauseClear e val s) := by simp [execFwcauseClear]

/-! ### Opt -/

@[simp] theorem ends_execLosSet (c s) : Ends (vital s) (execLosSet c s) := by simp [execLosSet]
@[simp] theorem ends_execLosClear (c s) : Ends (vital s) (execLosClear c s) := by simp [execLosClear]
@[simp] theorem vital_cutLaser (s c why) : vital (cutLaser s c why) = vital s := by simp [cutLaser]
@[simp] theorem ends_execLaserCut (e c val s) : Ends (vital s) (execLaserCut e c val s) := by simp [execLaserCut]
@[simp] theorem ends_execLaserCutClear (e c val holds s) : Ends (vital s) (execLaserCutClear e c val holds s) := by simp [execLaserCutClear]
@[simp] theorem ends_execWatchdogCut (c why ns s) : Ends (vital s) (execWatchdogCut c why ns s) := by simp [execWatchdogCut]
@[simp] theorem ends_execRxReady (c s) : Ends (vital s) (execRxReady c s) := by simp [execRxReady]
@[simp] theorem ends_execTxReady (c s) : Ends (vital s) (execTxReady c s) := by simp [execTxReady]
@[simp] theorem ends_execWlockSet (c s) : Ends (vital s) (execWlockSet c s) := by simp [execWlockSet]
@[simp] theorem ends_execWlockClear (c s) : Ends (vital s) (execWlockClear c s) := by simp [execWlockClear]

@[simp] theorem ends_execOptMonitorResult (c power temp apd burst s) : Ends (vital s) (execOptMonitorResult c power temp apd burst s) := by
  unfold execOptMonitorResult
  split
  · simp
  · extract_lets -underBinder s1 s2
    have hs1 : Step (vital s) (vital s1) := by simp [s1]
    have hs2 : Step (vital s) (vital s2) := by simp [s2, hs1]
    split <;> simp [hs2]

@[simp] theorem vital_optOff (s c) : vital (optOff s c) = vital s := by simp [optOff]
@[simp] theorem vital_haltLasers (s) : vital (haltLasers s) = vital s := by simp [haltLasers]

/-! ### Lane -/

@[simp] theorem vital_setLane (s l x) : vital (setLane s l x) = vital s := by simp [setLane]
@[simp] theorem vital_moveSource (s c g) : vital (moveSource s c g) = vital c := by simp [moveSource]
@[simp] theorem vital_laneDown (s l) : vital (laneDown s l) = vital s := by simp [laneDown]
@[simp] theorem vital_portDown (s p) : vital (portDown s p) = vital s := by simp [portDown]
@[simp] theorem ends_execLaneSignalDetect (l s) : Ends (vital s) (execLaneSignalDetect l s) := by simp [execLaneSignalDetect]
@[simp] theorem ends_execLaneAdaptationDone (l s) : Ends (vital s) (execLaneAdaptationDone l s) := by simp [execLaneAdaptationDone]
@[simp] theorem ends_execPolarityToggle (l s) : Ends (vital s) (execPolarityToggle l s) := by simp [execPolarityToggle]
@[simp] theorem vital_noteSwap (s swap) : vital (noteSwap s swap) = vital s := by simp [noteSwap]
@[simp] theorem ends_execLaneBlockLock (l m swap s) : Ends (vital s) (execLaneBlockLock l m swap s) := by simp [execLaneBlockLock]
@[simp] theorem ends_execLaneFecLock (l s) : Ends (vital s) (execLaneFecLock l s) := by simp [execLaneFecLock]
@[simp] theorem ends_execEqUpdate (l tap up s) : Ends (vital s) (execEqUpdate l tap up s) := by simp [execEqUpdate]

@[simp] theorem ends_execLaneLockLoss (l s) : Ends (vital s) (execLaneLockLoss l s) := by
  unfold execLaneLockLoss
  split
  · simp
  · split <;> simp

@[simp] theorem vital_pllLost (s g) : vital (pllLost s g) = vital s := by simp [pllLost]
@[simp] theorem ends_execLanePllLockLoss (g s) : Ends (vital s) (execLanePllLockLoss g s) := by simp [execLanePllLockLoss]
@[simp] theorem ends_execRxsnrResult (l x s) : Ends (vital s) (execRxsnrResult l x s) := by simp [execRxsnrResult]
@[simp] theorem vital_pllLocked (s g) : vital (pllLocked s g) = vital s := by simp [pllLocked]
@[simp] theorem vital_pllStart (s g) : vital (pllStart s g) = vital s := by simp [pllStart]

/-! ### Pair -/

@[simp] theorem vital_driveMate (s) : vital (driveMate s) = vital s := by simp [driveMate]
@[simp] theorem vital_guardSa (s k x) : vital (guardSa s k x) = vital s := by simp [guardSa]

@[simp] theorem vital_takeoverNote (s ch c) : vital (takeoverNote s ch c) = vital s := by
  unfold takeoverNote
  split
  · simp
  · split
    · extract_lets -underBinder s1
      have hs1 : vital s1 = vital s := by simp [s1]
      simp [hs1]
    · simp

@[simp] theorem vital_takeOver (s) : vital (takeOver s) = vital s := by
  unfold takeOver
  extract_lets -underBinder guarded bare s1 s2 s3
  have hs1 : vital s1 = vital s := by
    unfold s1
    refine (vital_foldl (fun t x => ?_) ..).trans ?_
    · split <;> simp
    · simp
  have hs2 : vital s2 = vital s := by simp [s2, hs1]
  have hs3 : vital s3 = vital s := by simp [s3, hs2]
  simp [hs3]

@[simp] theorem vital_heldRequests (s keep) : vital (heldRequests s keep) = vital s := by simp [heldRequests]
@[simp] theorem vital_roleNote (s cause) : vital (roleNote s cause) = vital s := by simp [roleNote]
@[simp] theorem vital_enterActive (s cause) : vital (enterActive s cause) = vital s := by simp [enterActive]
@[simp] theorem vital_leaveActive (s) : vital (leaveActive s) = vital s := by simp [leaveActive]
@[simp] theorem vital_enterStandby (s cause) : vital (enterStandby s cause) = vital s := by simp [enterStandby]
@[simp] theorem vital_pairEnable (s) : vital (pairEnable s) = vital s := by simp [pairEnable]
@[simp] theorem vital_pairDisable (s) : vital (pairDisable s) = vital s := by simp [pairDisable]
@[simp] theorem vital_dropActive (s) : vital (dropActive s) = vital s := by simp [dropActive]
@[simp] theorem vital_notHeard (s) : vital (notHeard s) = vital s := by simp [notHeard]
@[simp] theorem ends_execSeekTimeout (s) : Ends (vital s) (execSeekTimeout s) := by simp [execSeekTimeout]
@[simp] theorem ends_execMateActInFall (fit s) : Ends (vital s) (execMateActInFall fit s) := by simp [execMateActInFall]
@[simp] theorem ends_execMateActInRise (fit s) : Ends (vital s) (execMateActInRise fit s) := by simp [execMateActInRise]
@[simp] theorem ends_execHeartbeatSend (s) : Ends (vital s) (execHeartbeatSend s) := by simp [execHeartbeatSend]
@[simp] theorem vital_showHeard (s) : vital (showHeard s) = vital s := by simp [showHeard]

@[simp] theorem ends_execHeartbeatReceived (k mate fit primary seq sn s) : Ends (vital s) (execHeartbeatReceived k mate fit primary seq sn s) := by
  simp [execHeartbeatReceived]

@[simp] theorem ends_execPartnerNotHeard (s) : Ends (vital s) (execPartnerNotHeard s) := by simp [execPartnerNotHeard]
@[simp] theorem ends_execGraceEnd (s) : Ends (vital s) (execGraceEnd s) := by simp [execGraceEnd]
@[simp] theorem ends_execPartnerReset (e val s) : Ends (vital s) (execPartnerReset e val s) := by simp [execPartnerReset]
@[simp] theorem vital_sendRecords (s l) : vital (sendRecords s l) = vital s := by simp [sendRecords]
@[simp] theorem ends_execMirrorRefresh (s) : Ends (vital s) (execMirrorRefresh s) := by simp [execMirrorRefresh]

@[simp] theorem vital_applyRecord (s x) : vital (applyRecord s x) = vital s := by
  unfold applyRecord
  split
  · split <;> simp
  · simp
  · simp
  · simp

@[simp] theorem ends_execMirrorRecordReceived (k seq x s) : Ends (vital s) (execMirrorRecordReceived k seq x s) := by
  simp [execMirrorRecordReceived]

@[simp] theorem ends_execResyncComplete (s) : Ends (vital s) (execResyncComplete s) := by simp [execResyncComplete]
@[simp] theorem ends_execSyncLoss (s) : Ends (vital s) (execSyncLoss s) := by simp [execSyncLoss]
@[simp] theorem ends_execPairSwitch (e val fit s) : Ends (vital s) (execPairSwitch e val fit s) := by simp [execPairSwitch]
@[simp] theorem ends_execPartnerMessageSend (e val s) : Ends (vital s) (execPartnerMessageSend e val s) := by simp [execPartnerMessageSend]

@[simp] theorem vital_deliver (n s) : vital (deliver n s) = vital s := by
  induction n generalizing s with
  | zero => rfl
  | succ n ih =>
    unfold deliver
    split
    · rfl
    · extract_lets d r source pair
      have hr : vital r.1 = vital s := by simp [r]
      simp [ih, hr, source]

@[simp] theorem ends_execPartnerMessageReceived (tag w1 w2 w3 s) : Ends (vital s) (execPartnerMessageReceived tag w1 w2 w3 s) := by
  simp [execPartnerMessageReceived]

@[simp] theorem ends_execPartnerMessageRetry (s) : Ends (vital s) (execPartnerMessageRetry s) := by simp [execPartnerMessageRetry]
@[simp] theorem ends_execFitokWrite (e val s) : Ends (vital s) (execFitokWrite e val s) := by simp [execFitokWrite]

/-! ### Sbus -/

@[simp] theorem vital_setTxFrame (s x) : vital (setTxFrame s x) = vital s := by simp [setTxFrame]
@[simp] theorem vital_txRes (s code tries) : vital (txRes s code tries) = vital s := by simp [txRes]
@[simp] theorem vital_endTx (s x code wait) : vital (endTx s x code wait) = vital s := by simp [endTx]
@[simp] theorem ends_execSbusTxgo (e val s) : Ends (vital s) (execSbusTxgo e val s) := by simp [execSbusTxgo]

@[simp] theorem ends_execSbusFetchComplete (sealOk s) : Ends (vital s) (execSbusFetchComplete sealOk s) := by
  unfold execSbusFetchComplete
  split
  · split
    · simp
    · split <;> simp
  · simp

@[simp] theorem ends_execSbusTxAttempt (deferred s) : Ends (vital s) (execSbusTxAttempt deferred s) := by
  unfold execSbusTxAttempt
  split <;> simp

@[simp] theorem ends_execSbusCollision (sent s) : Ends (vital s) (execSbusCollision sent s) := by
  unfold execSbusCollision
  split <;> simp

@[simp] theorem ends_execSbusBackoffEnd (s) : Ends (vital s) (execSbusBackoffEnd s) := by
  unfold execSbusBackoffEnd
  split
  · split <;> simp
  · simp

@[simp] theorem ends_execSbusTxComplete (s) : Ends (vital s) (execSbusTxComplete s) := by
  unfold execSbusTxComplete
  split <;> simp

@[simp] theorem vital_sbusNote (s k n) : vital (sbusNote s k n) = vital s := by simp [sbusNote]

@[simp] theorem step_sbusRing {v s} (h : Step v (vital s)) (start b bad) : Step v (vital (sbusRing s start b bad)) := by
  generalize hf : @sbusRing = f
  delta sbusRing at hf
  subst hf
  beta_reduce
  extract_lets -underBinder k a
  split
  · simp [h]
  · extract_lets head s1 s2
    have hs1 : Step v (vital s1) := by simp [s1, h]
    split
    · exact hs1
    · simp [s2, hs1]

@[simp] theorem vital_testFrameIn (s b) : vital (testFrameIn s b) = vital s := by simp [testFrameIn]
@[simp] theorem ends_execSbusRxFrame (start x s) : Ends (vital s) (execSbusRxFrame start x s) := by simp [execSbusRxFrame]
@[simp] theorem ends_execSbusPostRetry (s) : Ends (vital s) (execSbusPostRetry s) := by simp [execSbusPostRetry]
@[simp] theorem ends_execSbusRxdone (e val s) : Ends (vital s) (execSbusRxdone e val s) := by simp [execSbusRxdone]
@[simp] theorem ends_execJabberDetect (s) : Ends (vital s) (execJabberDetect s) := by simp [execJabberDetect]

@[simp] theorem vital_sbusStomp (s) : vital (sbusStomp s) = vital s := by
  unfold sbusStomp
  split
  · simp
  · extract_lets -underBinder k b s1 x
    have hk : vital k.2 = vital s := by simp [k]
    have hs1 : vital s1 = vital s := by simp [s1, hk]
    simp [hs1]

@[simp] theorem ends_execJabberClear (s) : Ends (vital s) (execJabberClear s) := by simp [execJabberClear]
@[simp] theorem ends_execSbusCarrierWake (s) : Ends (vital s) (execSbusCarrierWake s) := by simp [execSbusCarrierWake]

/-! ### Flt -/

@[simp] theorem vital_fltNote (s d cls code action) : vital (fltNote s d cls code action) = vital s := by simp [fltNote]
@[simp] theorem vital_handOver (s) : vital (handOver s) = vital s := by simp [handOver]
@[simp] theorem vital_domStates (s d val) : vital (domStates s d val) = vital s := by simp [domStates]
@[simp] theorem vital_failDomain (s d code) : vital (failDomain s d code) = vital s := by simp [failDomain]
@[simp] theorem vital_beginRecovery (s d code cls under) : vital (beginRecovery s d code cls under) = vital s := by simp [beginRecovery]
@[simp] theorem vital_startLocal (s d code) : vital (startLocal s d code).1 = vital s := by simp [startLocal]
@[simp] theorem vital_latchFault (s d code cls running) : vital (latchFault s d code cls running) = vital s := by simp [latchFault]

@[simp] theorem vital_reevaluate (s d) : vital (reevaluate s d) = vital s := by
  unfold reevaluate
  extract_lets -underBinder l
  clear_value l
  split
  · simp
  · extract_lets -underBinder x s1
    have hs1 : vital s1 = vital s := by simp [s1]
    simp [hs1]

@[simp] theorem vital_meetFault (s d code cls) : vital (meetFault s d code cls).1 = vital s := by
  unfold meetFault
  split <;> simp

@[simp] theorem vital_takeFault (s code d) : vital (takeFault s code d) = vital s := by simp [takeFault]

@[simp] theorem ends_execRecoveryEnd (d s) : Ends (vital s) (execRecoveryEnd d s) := by
  unfold execRecoveryEnd
  split
  · extract_lets -underBinder c x s1 x1 s2
    have hs1 : Step (vital s) (vital s1) := by simp [s1]
    have hs2 : Step (vital s) (vital s2) := by simp [s2, hs1]
    simp [hs2]
  · simp

@[simp] theorem ends_execRecoveryTimeout (d s) : Ends (vital s) (execRecoveryTimeout d s) := by
  unfold execRecoveryTimeout
  split
  · extract_lets -underBinder under c x s1
    have hs1 : Step (vital s) (vital s1) := by simp [s1]
    simp [hs1]
  · simp

@[simp] theorem ends_execDomainClear (e val s) : Ends (vital s) (execDomainClear e val s) := by simp [execDomainClear]

@[simp] theorem vital_recordHalt (n s code) : vital (recordHalt n s code).1 = vital s := by
  induction n generalizing s with
  | zero => rfl
  | succ n ih =>
    unfold recordHalt
    split
    · rfl
    · extract_lets before y s1
      have hs1 : vital s1 = vital s := by simp [s1, y]
      clear_value s1
      split
      · exact hs1
      · rw [ih, hs1]

@[simp] theorem vital_countHalt (s) : vital (countHalt s) = vital s := by simp [countHalt]

theorem step_setHalted {v s} (h : Step v (vital s)) : Step v (vital { s with sys := { s.sys with halted := true } }) :=
  h.trans ⟨rfl, fun _ => rfl, fun hf => ⟨hf, .refl _⟩, fun hm => ⟨hm.dram, hm.data, hm.imem, hm.shared, hm.hostMem, hm.bus, hm.store, hm.tag⟩⟩

@[simp] theorem step_halt {v s} (h : Step v (vital s)) (f) : Step v (vital (halt s f)) := by
  unfold halt
  extract_lets r s1 s2 s3 time s4 s5 host power s6 faults s7 s8 sys
  have hr : vital r.1 = vital s := by simp [r]
  have hs1 : vital s1 = vital s := by simp [s1, hr]
  have hs2 : vital s2 = vital s := by simp [s2, hs1]
  have hs3 : vital s3 = vital s := by simp [s3, hs2]
  have hs4 : vital s4 = vital s := by simp [s4, hs3]
  have hs5 : vital s5 = vital s := by simp [s5, hs4]
  have hs6 : vital s6 = vital s := by simp [s6, host, power, hs5]
  have hs7 : vital s7 = vital s := by simp [s7, hs6]
  have hs8 : vital s8 = vital s := by simp [s8, hs7]
  exact step_setHalted (hs8 ▸ h)

@[simp] theorem ends_execFaultRaised (s) : Ends (vital s) (execFaultRaised s) := by
  unfold execFaultRaised
  split
  · simp
  · split
    · extract_lets -underBinder x s1
      have hs1 : Step (vital s) (vital s1) := by simp [s1]
      simp [hs1]
    · split
      · extract_lets -underBinder x1 s2
        have hs2 : Step (vital s) (vital s2) := by simp [s2]
        simp [hs2]
      · simp

@[simp] theorem ends_execHaltRecordCommit (s) : Ends (vital s) (execHaltRecordCommit s) := by simp [execHaltRecordCommit]

/-! ### Trigger -/

@[simp] theorem vital_setTrig (s t x) : vital (setTrig s t x) = vital s := by simp [setTrig]
@[simp] theorem ends_execTriggerArm (e t val s) : Ends (vital s) (execTriggerArm e t val s) := by simp [execTriggerArm]
@[simp] theorem ends_execTriggerStop (e t val s) : Ends (vital s) (execTriggerStop e t val s) := by simp [execTriggerStop]
@[simp] theorem vital_fireEffects (s t k) : vital (fireEffects s t k) = vital s := by simp [fireEffects]
@[simp] theorem ends_execTriggerFire (t s) : Ends (vital s) (execTriggerFire t s) := by simp [execTriggerFire]
@[simp] theorem vital_timeWrite (s a val) : vital (timeWrite s a val) = vital s := by simp [timeWrite]

/-! ### Tst -/

@[simp] theorem vital_tstRefresh (s j) : vital (tstRefresh s j) = vital s := by
  unfold tstRefresh
  extract_lets -underBinder was on s1 s2 x s3 x1 s4
  have hs1 : vital s1 = vital s := by simp [s1]
  have hs2 : vital s2 = vital s := by simp [s2, hs1]
  have hs3 : vital s3 = vital s := by simp [s3, hs2]
  have hs4 : vital s4 = vital s := by simp [s4, hs3]
  split
  · split <;> simp [hs4]
  · simp [hs4]

@[simp] theorem ends_execCheckerLock (j s) : Ends (vital s) (execCheckerLock j s) := by simp [execCheckerLock]
@[simp] theorem ends_execCheckerLockLoss (j s) : Ends (vital s) (execCheckerLockLoss j s) := by simp [execCheckerLockLoss]
@[simp] theorem ends_execInject (e j val busy s) : Ends (vital s) (execInject e j val busy s) := by simp [execInject]

@[simp] theorem ends_execTerrResult (j bits errors generated s) : Ends (vital s) (execTerrResult j bits errors generated s) := by
  simp [execTerrResult]

@[simp] theorem ends_execTestFrameSend (s) : Ends (vital s) (execTestFrameSend s) := by simp [execTestFrameSend]
@[simp] theorem vital_tapTo (s code drive dr) : vital (tapTo s code drive dr) = vital s := by simp [tapTo]
@[simp] theorem ends_execTapReset (s) : Ends (vital s) (execTapReset s) := by simp [execTapReset]
@[simp] theorem ends_execExtest (cells pins s) : Ends (vital s) (execExtest cells pins s) := by simp [execExtest]
@[simp] theorem ends_execSamplePreload (pins s) : Ends (vital s) (execSamplePreload pins s) := by simp [execSamplePreload]
@[simp] theorem ends_execIdcode (s) : Ends (vital s) (execIdcode s) := by simp [execIdcode]
@[simp] theorem ends_execClamp (cells s) : Ends (vital s) (execClamp cells s) := by simp [execClamp]
@[simp] theorem ends_execHighz (s) : Ends (vital s) (execHighz s) := by simp [execHighz]
@[simp] theorem ends_execEngdebug (s) : Ends (vital s) (execEngdebug s) := by simp [execEngdebug]
@[simp] theorem ends_execPtest (s) : Ends (vital s) (execPtest s) := by simp [execPtest]
@[simp] theorem ends_execBypass (code s) : Ends (vital s) (execBypass code s) := by simp [execBypass]

/-- The fuses after a reset: no write runs, and the lifecycle in force is the blown one, but on a wake from S3. -/
def fuseAfterReset (f : FuseSt) (kind : Nat) : FuseSt :=
  { f with op := none, state := if kind = 3 then f.state else f.blown }

/-- `Step` without the halt: what a reset and a loss of power keep as well. -/
structure Resets (v w : Vital) : Prop where
  pending : w.pending = v.pending
  fuse : FuseInOrder v.fuse → FuseInOrder w.fuse ∧ FuseGrows v.fuse w.fuse
  memory : v.Canonical → w.Canonical

theorem step_of_resets {v w : Vital} (hv : v.halted = false) (h : Resets v w) : Step v w :=
  ⟨h.pending, fun hh => absurd (hv.symm.trans hh) (by decide), h.fuse, h.memory⟩

/-! ### Reset -/

theorem vital_resetModule (s kind) : vital (resetModule s kind) =
    ⟨s.pending, false, fuseAfterReset s.fuse kind, [], [], [], [], s.hst.mem, s.hst.bus, [], s.log.tag⟩ := by
  unfold resetModule
  extract_lets cold s1 r t sys time candle host fuse power meas test n n1 n2 n3
  have hs1 : vital s1 = vital s := by
    unfold s1
    split
    · rfl
    · simp
  have hpending : s1.pending = s.pending := congrArg Vital.pending hs1
  have hmem : s1.hst.mem = s.hst.mem := congrArg Vital.hostMem hs1
  have hbus : s1.hst.bus = s.hst.bus := congrArg Vital.bus hs1
  have htag : s1.log.tag = s.log.tag := congrArg Vital.tag hs1
  have hfuse : s1.fuse = s.fuse := congrArg Vital.fuse hs1
  have hn3 : vital n3 = vital n := by simp [n3, n2, n1]
  rw [vital_lcState, vital_logStat, hn3, ← hpending, ← hmem, ← hbus, ← htag, ← hfuse]
  rfl

theorem resets_resetModule (s kind) : Resets (vital s) (vital (resetModule s kind)) := by
  rw [vital_resetModule]
  refine ⟨rfl, fun hf => ?_, fun hm => ⟨rfl, rfl, rfl, rfl, hm.hostMem, hm.bus, rfl, hm.tag⟩⟩
  obtain ⟨hblown, hbank, hop⟩ := hf
  exact ⟨⟨hblown, hbank, nofun⟩, le_rfl, le_rfl, id, fun _ => id, fun _ _ => id, fun _ _ => id⟩

@[simp] theorem vital_romStart (s) : vital (romStart s) = vital s := by simp [romStart]

theorem resets_powerOff (s) : Resets (vital s) (vital (powerOff s)) := by
  have h : vital (powerOff s) = vital (resetModule s 1) := by simp [powerOff]
  rw [h]
  exact resets_resetModule s 1

@[simp] theorem step_loseVolatile {v s} (h : Step v (vital s)) : Step v (vital (loseVolatile s)) :=
  step_of_canonical h rfl rfl rfl fun h => { h with dram := rfl, data := rfl, imem := rfl, shared := rfl }

/-! ### Power -/

@[simp] theorem vital_beginTransition (s kind st l) : vital (beginTransition s kind st l) = vital s := by simp [beginTransition]
@[simp] theorem vital_beginEntry (s st) : vital (beginEntry s st) = vital s := by simp [beginEntry]
@[simp] theorem vital_beginLevel (s l) : vital (beginLevel s l) = vital s := by simp [beginLevel]
@[simp] theorem vital_clearRun (s) : vital (clearRun s) = vital s := by simp [clearRun]

@[simp] theorem vital_beginForce (s tj sensor) : vital (beginForce s tj sensor) = vital s := by
  unfold beginForce
  extract_lets -underBinder s1 x s2
  have hs1 : vital s1 = vital s := by simp [s1]
  have hs2 : vital s2 = vital s := by simp [s2, hs1]
  simp [hs2]

@[simp] theorem vital_forceWaited (s) : vital (forceWaited s) = vital s := by
  unfold forceWaited
  split <;> simp

@[simp] theorem vital_followOn (s) : vital (followOn s) = vital s := by simp [followOn]
@[simp] theorem vital_requestPair (s st l) : vital (requestPair s st l) = vital s := by simp [requestPair]
@[simp] theorem ends_execLevelRequest (e val s) : Ends (vital s) (execLevelRequest e val s) := by simp [execLevelRequest]
@[simp] theorem vital_endSleepWait (s) : vital (endSleepWait s) = vital s := by simp [endSleepWait]
@[simp] theorem vital_completeWake (s) : vital (completeWake s) = vital s := by simp [completeWake]

theorem resets_startFromS3 (s) : Resets (vital s) (vital (startFromS3 s)) := by
  have h : vital (startFromS3 s) = vital (resetModule s 3) := by simp [startFromS3]
  rw [h]
  exact resets_resetModule s 3

@[simp] theorem ends_execVoltageAck (s) : Ends (vital s) (execVoltageAck s) := by
  unfold execVoltageAck
  split
  · simp
  next hrun =>
    have hawake : s.sys.halted = false := by
      simp only [Bool.or_eq_true, not_or] at hrun
      exact Bool.eq_false_iff.2 hrun.2
    extract_lets -underBinder x s1
    have hs1 : vital s1 = vital s := by simp [s1]
    split
    · simp [hs1]
    · split
      · exact (ends_next ..).2 (step_of_resets hawake (hs1 ▸ resets_startFromS3 s1))
      · simp [hs1]
    · simp [hs1]

@[simp] theorem vital_failWake (s) : vital (failWake s) = vital s := by simp [failWake]

@[simp] theorem ends_execVoltageRequestTimeout (s) : Ends (vital s) (execVoltageRequestTimeout s) := by
  unfold execVoltageRequestTimeout
  split
  · simp
  · extract_lets -underBinder n x x1 sleeping s1 x2
    have hx : Step (vital s) (vital x) := by simp [x]
    have hs1 : Step (vital s) (vital s1) := by simp [s1]
    simp [hx, hs1]

@[simp] theorem vital_stopLanes (s all) : vital (stopLanes s all) = vital s := by simp [stopLanes]
@[simp] theorem vital_gateLanterns (s) : vital (gateLanterns s) = vital s := by simp [gateLanterns]
@[simp] theorem vital_asleep (s st) : vital (asleep s st) = vital s := by simp [asleep]
@[simp] theorem vital_enterLight (s st chans) : vital (enterLight s st chans) = vital s := by simp [enterLight]
@[simp] theorem vital_countLeft (s) : vital (countLeft s) = vital s := by simp [countLeft]

theorem step_powerDown {v s} (h : Step v (vital s)) (power sys) (hsys : sys.halted = s.sys.halted) :
    Step v (vital { s with pwr := power, hst := { s.hst with rate := 0, width := 0, store := [] }, sys := sys }) :=
  h.trans ⟨rfl, fun hh => hsys.trans hh, fun hf => ⟨hf, .refl _⟩, fun hm => { hm with store := rfl }⟩

@[simp] theorem step_enterDeep {v s} (h : Step v (vital s)) : Step v (vital (enterDeep s)) := by
  unfold enterDeep
  extract_lets s1 hold sys s2 s3 s4 s5
  have hs2 : Step v (vital s2) := by simp [s2, sys, s1, h]
  have hs4 : Step v (vital s4) := by simp [s4, s3, hs2]
  have hs5 : Step v (vital s5) := step_loseVolatile hs4
  clear_value s5
  rw [vital_driveMate]
  exact step_powerDown hs5 _ _ rfl

@[simp] theorem ends_execSleepEntry (chans s) : Ends (vital s) (execSleepEntry chans s) := by simp [execSleepEntry]
@[simp] theorem ends_execWakeEvent (s) : Ends (vital s) (execWakeEvent s) := by simp [execWakeEvent]
@[simp] theorem ends_execDoorbellWake (_n s) : Ends (vital s) (execDoorbellWake _n s) := by simp [execDoorbellWake]
@[simp] theorem ends_execPonForcedWake (c s) : Ends (vital s) (execPonForcedWake c s) := by simp [execPonForcedWake]
@[simp] theorem ends_execPadRelease (e val s) : Ends (vital s) (execPadRelease e val s) := by simp [execPadRelease]

@[simp] theorem ends_execTjSample (t sensor s) : Ends (vital s) (execTjSample t sensor s) := by
  unfold execTjSample
  split
  · simp
  · extract_lets -underBinder tj p was s1 x l s2 x1 s3
    have hs1 : Step (vital s) (vital s1) := by simp [s1]
    have hs2 : Step (vital s) (vital s2) := by simp [s2, hs1]
    have hs3 : Step (vital s) (vital s3) := by simp [s3, hs2]
    simp [hs1, hs3]

@[simp] theorem ends_execVcoreResult (mv s) : Ends (vital s) (execVcoreResult mv s) := by simp [execVcoreResult]
@[simp] theorem ends_execOvldRead (e s) : Ends (vital s) (execOvldRead e s) := by simp [execOvldRead]

/-! ### Wait -/

@[simp] theorem ends_execTimeat (e ra s) : Ends (vital s) (execTimeat e ra s) := by simp [execTimeat]
@[simp] theorem ends_execTimeatDisarm (e s) : Ends (vital s) (execTimeatDisarm e s) := by simp [execTimeatDisarm]

@[simp] theorem ends_execTimeLatchSet (e s) : Ends (vital s) (execTimeLatchSet e s) := by
  unfold execTimeLatchSet
  extract_lets -underBinder g
  split <;> simp

@[simp] theorem ends_execWait (e conds s) : Ends (vital s) (execWait e conds s) := by simp [execWait]
@[simp] theorem ends_execWaitWake (e s) : Ends (vital s) (execWaitWake e s) := by simp [execWaitWake]
@[simp] theorem vital_expire (s e) : vital (expire s e) = vital s := by simp [expire]
@[simp] theorem ends_execSampleIntervalExpiry (e s) : Ends (vital s) (execSampleIntervalExpiry e s) := by simp [execSampleIntervalExpiry]

@[simp] theorem step_sampleTrap {v s} (h : Step v (vital s)) (e) : Step v (vital (sampleTrap s e)) := by
  unfold sampleTrap
  extract_lets -underBinder g
  split <;> simp [h]

@[simp] theorem ends_execSampleTrap (e s) : Ends (vital s) (execSampleTrap e s) := by simp [execSampleTrap]
@[simp] theorem vital_fetchFails (s e) : vital (fetchFails s e) = vital s := by simp [fetchFails]
@[simp] theorem ends_execImemEccError (x s) : Ends (vital s) (execImemEccError x s) := by simp [execImemEccError]

/-! ### Window -/

@[simp] theorem ends_execTake (e s) : Ends (vital s) (execTake e s) := by
  refine ends_instr ?_
  split
  · simp
  · split
    · simp
    · split
      · trivial
      · simp

@[simp] theorem ends_execFrameArrivalInWindow (e rest s) : Ends (vital s) (execFrameArrivalInWindow e rest s) := by simp [execFrameArrivalInWindow]
@[simp] theorem vital_offerFrame (s f d) : vital (offerFrame s f d) = vital s := by simp [offerFrame]

@[simp] theorem ends_execSend (e s) : Ends (vital s) (execSend e s) := by
  refine ends_instr ?_
  dsimp only
  split
  · simp
  · split <;> simp

@[simp] theorem ends_execDrop (e s) : Ends (vital s) (execDrop e s) := by simp [execDrop]
@[simp] theorem ends_execAdj (e rb s) : Ends (vital s) (execAdj e rb s) := by simp [execAdj]

end Sys2Proof.Machine
end

section
/-! SUPPORT. An instruction's words run nothing but an instruction, which keeps the vital part and does nothing in a halt; the later functions of
the model; and the invariants of every step. -/
namespace Sys2Proof.Machine

/-- P holds of the meaning that an encoding has, if it has one. -/
def AllRuns (P : (State → Out) → Prop) (o : Option (State → Out)) : Prop := ∀ f, o = some f → P f

@[simp] theorem vital_mk_post (s : State) :
    Vital.mk s.pending s.sys.halted s.fuse s.mpe.dram s.data s.imem s.shared s.hst.mem s.hst.bus s.hst.store s.log.tag = vital s := rfl

@[simp] theorem allRuns_none (P) : AllRuns P none := nofun

@[simp] theorem allRuns_some (P f) : AllRuns P (some f) ↔ P f := by simp [AllRuns]

@[simp] theorem allRuns_ite (P) (c : Prop) [Decidable c] (a b) : AllRuns P (if c then a else b) ↔ (c → AllRuns P a) ∧ (¬c → AllRuns P b) := by
  split <;> simp [*]

theorem allRuns_ifZero {P f} (h : P f) (fields) : AllRuns P (ifZero fields f) := by simp [ifZero, h]

theorem allRuns_fieldRun {P f} (h : ∀ p w, P (f p w)) (w) : AllRuns P (fieldRun w f) := by
  unfold fieldRun
  extract_lets p
  split <;> simp [h]

theorem allRuns_branchRun {P e} (h : ∀ c off, P (execB e c off)) (w) : AllRuns P (branchRun e w) := by
  unfold branchRun
  extract_lets c
  split <;> simp [h]

theorem allRuns_farRun {P f} (h : ∀ size, P (f size)) (w) : AllRuns P (farRun w f) := by
  unfold farRun
  split
  · exact allRuns_ifZero (h _) _
  · simp

/-- An instruction keeps the vital part and leaves a halted module as it is. -/
structure Tame (f : State → Out) : Prop where
  ends : ∀ s, Ends (vital s) (f s)
  halted : ∀ s, s.sys.halted = true → f s = .next s
@[simp] theorem instr_of_halted {s : State} (h : s.sys.halted = true) (e size uses body) : instr s e size uses body = .next s := by
  simp [instr, able, live, h]
@[simp] theorem instrG_of_halted {s : State} (h : s.sys.halted = true) (e size uses f) : instrG s e size uses f = .next s :=
  instr_of_halted h ..
@[simp] theorem farSingle_of_halted {s : State} (h : s.sys.halted = true) (e op rd ra size uses wr) : farSingle s e op rd ra size uses wr = .next s :=
  instr_of_halted h ..
@[simp] theorem farBlock_of_halted {s : State} (h : s.sys.halted = true) (e op ra rb fn wr) : farBlock s e op ra rb fn wr = .next s :=
  instr_of_halted h ..
@[simp] theorem pld_of_halted {s : State} (h : s.sys.halted = true) (e rd ra imm n) : pld s e rd ra imm n = .next s :=
  instr_of_halted h ..
@[simp] theorem pst_of_halted {s : State} (h : s.sys.halted = true) (e rd ra imm n) : pst s e rd ra imm n = .next s :=
  instr_of_halted h ..

@[simp] theorem tame_execAdd (e rd ra rb) : Tame (execAdd e rd ra rb) := ⟨ends_execAdd e rd ra rb, fun _ h => by simp [execAdd, h]⟩
@[simp] theorem tame_execAddc (e rd ra rb) : Tame (execAddc e rd ra rb) := ⟨ends_execAddc e rd ra rb, fun _ h => by simp [execAddc, h]⟩
@[simp] theorem tame_execSub (e rd ra rb) : Tame (execSub e rd ra rb) := ⟨ends_execSub e rd ra rb, fun _ h => by simp [execSub, h]⟩
@[simp] theorem tame_execSubc (e rd ra rb) : Tame (execSubc e rd ra rb) := ⟨ends_execSubc e rd ra rb, fun _ h => by simp [execSubc, h]⟩
@[simp] theorem tame_execAnd (e rd ra rb) : Tame (execAnd e rd ra rb) := ⟨ends_execAnd e rd ra rb, fun _ h => by simp [execAnd, h]⟩
@[simp] theorem tame_execOr (e rd ra rb) : Tame (execOr e rd ra rb) := ⟨ends_execOr e rd ra rb, fun _ h => by simp [execOr, h]⟩
@[simp] theorem tame_execXor (e rd ra rb) : Tame (execXor e rd ra rb) := ⟨ends_execXor e rd ra rb, fun _ h => by simp [execXor, h]⟩
@[simp] theorem tame_execAndn (e rd ra rb) : Tame (execAndn e rd ra rb) := ⟨ends_execAndn e rd ra rb, fun _ h => by simp [execAndn, h]⟩
@[simp] theorem tame_execShl (e rd ra rb) : Tame (execShl e rd ra rb) := ⟨ends_execShl e rd ra rb, fun _ h => by simp [execShl, h]⟩
@[simp] theorem tame_execShr (e rd ra rb) : Tame (execShr e rd ra rb) := ⟨ends_execShr e rd ra rb, fun _ h => by simp [execShr, h]⟩
@[simp] theorem tame_execSar (e rd ra rb) : Tame (execSar e rd ra rb) := ⟨ends_execSar e rd ra rb, fun _ h => by simp [execSar, h]⟩
@[simp] theorem tame_execRol (e rd ra rb) : Tame (execRol e rd ra rb) := ⟨ends_execRol e rd ra rb, fun _ h => by simp [execRol, h]⟩
@[simp] theorem tame_execMul (e rd ra rb) : Tame (execMul e rd ra rb) := ⟨ends_execMul e rd ra rb, fun _ h => by simp [execMul, h]⟩
@[simp] theorem tame_execMulh (e rd ra rb) : Tame (execMulh e rd ra rb) := ⟨ends_execMulh e rd ra rb, fun _ h => by simp [execMulh, h]⟩
@[simp] theorem tame_execMulhu (e rd ra rb) : Tame (execMulhu e rd ra rb) := ⟨ends_execMulhu e rd ra rb, fun _ h => by simp [execMulhu, h]⟩
@[simp] theorem tame_execDiv (e rd ra rb) : Tame (execDiv e rd ra rb) := ⟨ends_execDiv e rd ra rb, fun _ h => by simp [execDiv, h]⟩
@[simp] theorem tame_execDivu (e rd ra rb) : Tame (execDivu e rd ra rb) := ⟨ends_execDivu e rd ra rb, fun _ h => by simp [execDivu, h]⟩
@[simp] theorem tame_execRem (e rd ra rb) : Tame (execRem e rd ra rb) := ⟨ends_execRem e rd ra rb, fun _ h => by simp [execRem, h]⟩
@[simp] theorem tame_execRemu (e rd ra rb) : Tame (execRemu e rd ra rb) := ⟨ends_execRemu e rd ra rb, fun _ h => by simp [execRemu, h]⟩
@[simp] theorem tame_execMin (e rd ra rb) : Tame (execMin e rd ra rb) := ⟨ends_execMin e rd ra rb, fun _ h => by simp [execMin, h]⟩
@[simp] theorem tame_execMax (e rd ra rb) : Tame (execMax e rd ra rb) := ⟨ends_execMax e rd ra rb, fun _ h => by simp [execMax, h]⟩
@[simp] theorem tame_execMinu (e rd ra rb) : Tame (execMinu e rd ra rb) := ⟨ends_execMinu e rd ra rb, fun _ h => by simp [execMinu, h]⟩
@[simp] theorem tame_execMaxu (e rd ra rb) : Tame (execMaxu e rd ra rb) := ⟨ends_execMaxu e rd ra rb, fun _ h => by simp [execMaxu, h]⟩
@[simp] theorem tame_execClz (e rd ra) : Tame (execClz e rd ra) := ⟨ends_execClz e rd ra, fun _ h => by simp [execClz, h]⟩
@[simp] theorem tame_execExtb (e rd ra rb) : Tame (execExtb e rd ra rb) := ⟨ends_execExtb e rd ra rb, fun _ h => by simp [execExtb, h]⟩
@[simp] theorem tame_execTake (e) : Tame (execTake e) := ⟨ends_execTake e, fun _ h => by simp [execTake, h]⟩
@[simp] theorem tame_execSend (e) : Tame (execSend e) := ⟨ends_execSend e, fun _ h => by simp [execSend, h]⟩
@[simp] theorem tame_execDrop (e) : Tame (execDrop e) := ⟨ends_execDrop e, fun _ h => by simp [execDrop, h]⟩
@[simp] theorem tame_execAdj (e rb) : Tame (execAdj e rb) := ⟨ends_execAdj e rb, fun _ h => by simp [execAdj, h]⟩
@[simp] theorem tame_execNop (e) : Tame (execNop e) := ⟨ends_execNop e, fun _ h => by simp [execNop, h]⟩
@[simp] theorem tame_execMfl (e rd) : Tame (execMfl e rd) := ⟨ends_execMfl e rd, fun _ h => by simp [execMfl, h]⟩
@[simp] theorem tame_execMtfl (e ra) : Tame (execMtfl e ra) := ⟨ends_execMtfl e ra, fun _ h => by simp [execMtfl, h]⟩
@[simp] theorem tame_execMftp (e rd) : Tame (execMftp e rd) := ⟨ends_execMftp e rd, fun _ h => by simp [execMftp, h]⟩
@[simp] theorem tame_execMttp (e ra) : Tame (execMttp e ra) := ⟨ends_execMttp e ra, fun _ h => by simp [execMttp, h]⟩
@[simp] theorem tame_execB (e cond off) : Tame (execB e cond off) := ⟨ends_execB e cond off, fun _ h => by simp [execB, h]⟩
@[simp] theorem tame_execAddi (e rd ra imm) : Tame (execAddi e rd ra imm) := ⟨ends_execAddi e rd ra imm, fun _ h => by simp [execAddi, h]⟩
@[simp] theorem tame_execAndi (e rd ra imm) : Tame (execAndi e rd ra imm) := ⟨ends_execAndi e rd ra imm, fun _ h => by simp [execAndi, h]⟩
@[simp] theorem tame_execOri (e rd ra imm) : Tame (execOri e rd ra imm) := ⟨ends_execOri e rd ra imm, fun _ h => by simp [execOri, h]⟩
@[simp] theorem tame_execXori (e rd ra imm) : Tame (execXori e rd ra imm) := ⟨ends_execXori e rd ra imm, fun _ h => by simp [execXori, h]⟩
@[simp] theorem tame_execShi (e rd ra kind amt) : Tame (execShi e rd ra kind amt) := ⟨ends_execShi e rd ra kind amt, fun _ h => by simp [execShi, h]⟩
@[simp] theorem tame_execSubi (e rd ra imm) : Tame (execSubi e rd ra imm) := ⟨ends_execSubi e rd ra imm, fun _ h => by simp [execSubi, h]⟩
@[simp] theorem tame_execLdi (e rd imm) : Tame (execLdi e rd imm) := ⟨ends_execLdi e rd imm, fun _ h => by simp [execLdi, h]⟩
@[simp] theorem tame_execExt (e rd ra pos wm1) : Tame (execExt e rd ra pos wm1) := ⟨ends_execExt e rd ra pos wm1, fun _ h => by simp [execExt, h]⟩
@[simp] theorem tame_execIns (e rd ra pos wm1) : Tame (execIns e rd ra pos wm1) := ⟨ends_execIns e rd ra pos wm1, fun _ h => by simp [execIns, h]⟩
@[simp] theorem tame_execLd (e rd ra imm bad) : Tame (execLd e rd ra imm bad) := ⟨ends_execLd e rd ra imm bad, fun _ h => by simp [execLd, h]⟩
@[simp] theorem tame_execSt (e rd ra imm) : Tame (execSt e rd ra imm) := ⟨ends_execSt e rd ra imm, fun _ h => by simp [execSt, h]⟩
@[simp] theorem tame_execXadd (e rd ra rb) : Tame (execXadd e rd ra rb) := ⟨ends_execXadd e rd ra rb, fun _ h => by simp [execXadd, h]⟩
@[simp] theorem tame_execCas (e rd ra rb) : Tame (execCas e rd ra rb) := ⟨ends_execCas e rd ra rb, fun _ h => by simp [execCas, h]⟩
@[simp] theorem tame_execPld1 (e rd ra imm) : Tame (execPld1 e rd ra imm) := ⟨ends_execPld1 e rd ra imm, fun _ h => by simp [execPld1, h]⟩
@[simp] theorem tame_execPld2 (e rd ra imm) : Tame (execPld2 e rd ra imm) := ⟨ends_execPld2 e rd ra imm, fun _ h => by simp [execPld2, h]⟩
@[simp] theorem tame_execPld3 (e rd ra imm) : Tame (execPld3 e rd ra imm) := ⟨ends_execPld3 e rd ra imm, fun _ h => by simp [execPld3, h]⟩
@[simp] theorem tame_execPst1 (e rd ra imm) : Tame (execPst1 e rd ra imm) := ⟨ends_execPst1 e rd ra imm, fun _ h => by simp [execPst1, h]⟩
@[simp] theorem tame_execPst2 (e rd ra imm) : Tame (execPst2 e rd ra imm) := ⟨ends_execPst2 e rd ra imm, fun _ h => by simp [execPst2, h]⟩
@[simp] theorem tame_execPst3 (e rd ra imm) : Tame (execPst3 e rd ra imm) := ⟨ends_execPst3 e rd ra imm, fun _ h => by simp [execPst3, h]⟩
@[simp] theorem tame_execFld (e rd ra size) : Tame (execFld e rd ra size) := ⟨ends_execFld e rd ra size, fun _ h => by simp [execFld, h]⟩
@[simp] theorem tame_execFst (e rd ra size) : Tame (execFst e rd ra size) := ⟨ends_execFst e rd ra size, fun _ h => by simp [execFst, h]⟩
@[simp] theorem tame_execFbl (e ra rb fn) : Tame (execFbl e ra rb fn) := ⟨ends_execFbl e ra rb fn, fun _ h => by simp [execFbl, h]⟩
@[simp] theorem tame_execFbs (e ra rb fn) : Tame (execFbs e ra rb fn) := ⟨ends_execFbs e ra rb fn, fun _ h => by simp [execFbs, h]⟩
@[simp] theorem tame_execFence (e) : Tame (execFence e) := ⟨ends_execFence e, fun _ h => by simp [execFence, h]⟩
@[simp] theorem tame_execSet (e ra rb) : Tame (execSet e ra rb) := ⟨ends_execSet e ra rb, fun _ h => by simp [execSet, h]⟩
@[simp] theorem tame_execGet (e rd ra) : Tame (execGet e rd ra) := ⟨ends_execGet e rd ra, fun _ h => by simp [execGet, h]⟩
@[simp] theorem tame_execCommit (e ra) : Tame (execCommit e ra) := ⟨ends_execCommit e ra, fun _ h => by simp [execCommit, h]⟩
@[simp] theorem tame_execPost (e q rb) : Tame (execPost e q rb) := ⟨ends_execPost e q rb, fun _ h => by simp [execPost, h]⟩
@[simp] theorem tame_execCollect (e q) : Tame (execCollect e q) := ⟨ends_execCollect e q, fun _ h => by simp [execCollect, h]⟩
@[simp] theorem tame_execJmp (e target) : Tame (execJmp e target) := ⟨ends_execJmp e target, fun _ h => by simp [execJmp, h]⟩
@[simp] theorem tame_execCall (e target) : Tame (execCall e target) := ⟨ends_execCall e target, fun _ h => by simp [execCall, h]⟩
@[simp] theorem tame_execJr (e rd ra) : Tame (execJr e rd ra) := ⟨ends_execJr e rd ra, fun _ h => by simp [execJr, h]⟩
@[simp] theorem tame_execWatch (e ra) : Tame (execWatch e ra) := ⟨ends_execWatch e ra, fun _ h => by simp [execWatch, h]⟩
@[simp] theorem tame_execWait (e conds) : Tame (execWait e conds) := ⟨ends_execWait e conds, fun _ h => by simp [execWait, h]⟩
@[simp] theorem tame_execTimeat (e ra) : Tame (execTimeat e ra) := ⟨ends_execTimeat e ra, fun _ h => by simp [execTimeat, h]⟩
@[simp] theorem tame_execTimeatDisarm (e) : Tame (execTimeatDisarm e) := ⟨ends_execTimeatDisarm e, fun _ h => by simp [execTimeatDisarm, h]⟩
@[simp] theorem tame_execTrap (e n) : Tame (execTrap e n) := ⟨ends_execTrap e n, fun _ h => by simp [execTrap, h]⟩
@[simp] theorem tame_execRtt (e) : Tame (execRtt e) := ⟨ends_execRtt e, fun _ h => by simp [execRtt, h]⟩

theorem allRuns_aluRun (e w) : AllRuns Tame (aluRun e w) := by
  unfold aluRun
  extract_lets d a b
  split <;> simp [allRuns_ifZero]

theorem allRuns_frmRun (e w) : AllRuns Tame (frmRun e w) := by
  unfold frmRun
  split <;> simp [allRuns_ifZero]

theorem allRuns_sysRun (e w) : AllRuns Tame (sysRun e w) := by
  unfold sysRun
  split <;> simp [allRuns_ifZero]

theorem allRuns_bjRun (e w w1 bad) : AllRuns Tame (bjRun e w w1 bad) := by
  unfold bjRun
  extract_lets d a b n i
  split <;> simp [allRuns_ifZero, allRuns_fieldRun, allRuns_branchRun, allRuns_farRun, allRuns_aluRun, allRuns_frmRun, allRuns_sysRun]

/-! ### Bj24 -/

@[simp] theorem ends_execIllegalEncoding (e w0 w1 s) : Ends (vital s) (execIllegalEncoding e w0 w1 s) := by simp [execIllegalEncoding]

@[simp] theorem ends_runNext (e bad s) : Ends (vital s) (runNext e bad s) := by
  unfold runNext
  extract_lets pc w0 w1
  split
  next f hf => exact (allRuns_bjRun _ _ _ _ f hf).ends s
  next => simp

@[simp] theorem step_settleSample {v s} (h : Step v (vital s)) (e) : Step v (vital (settleSample s e)) := by simp [settleSample, h]

@[simp] theorem ends_execEngineStep (by_ l k w s) : Ends (vital s) (execEngineStep by_ l k w s) := by
  unfold execEngineStep
  split
  · simp
  split
  · simp
  next t ht =>
    have h : vital t = vital s := vital_of_accept ht
    extract_lets s1 e g s2
    have hs2 : Step (vital s) (vital s2) := by simp [s2, s1, h]
    have hs1 : Step (vital s) (vital s1) := by simp [s1, h]
    split
    · simp [hs1]
    split
    · simp [hs2]
    · obtain ⟨u, hu, hstep⟩ := ends_runNext e w.bad s2
      exact ⟨u, hu, hs2.trans hstep⟩

/-! ### Boot -/

@[simp] theorem step_loadSection {v s} (h : Step v (vital s)) (x l) : Step v (vital (loadSection s x l)) := by simp [loadSection, h]

@[simp] theorem step_loadImage {v s} (h : Step v (vital s)) (e0) : Step v (vital (loadImage s e0)) := by
  unfold loadImage
  refine step_foldl (fun t x => ?_) ?_ _
  · simp
  · simp [h]

@[simp] theorem vital_startSections (s) : vital (startSections s) = vital s := by simp [startSections]
@[simp] theorem step_acceptImage {v s} (h : Step v (vital s)) (signer) : Step v (vital (acceptImage s signer)) := by simp [acceptImage, h]

@[simp] theorem vital_recordOnce (s) : vital (recordOnce s) = vital s := by
  unfold recordOnce
  split
  · rfl
  · extract_lets s1 x
    have hs1 : vital s1 = vital s := by simp [s1]
    simp [x, hs1]

@[simp] theorem vital_setHostWindow (s w) : vital (setHostWindow s w) = vital s := by simp [setHostWindow]
@[simp] theorem vital_enterRecovery (s) : vital (enterRecovery s) = vital s := by simp [enterRecovery]

@[simp] theorem ends_execRecoveryImageCheck (signer s) : Ends (vital s) (execRecoveryImageCheck signer s) := by
  unfold execRecoveryImageCheck
  split
  · simp
  · split
    · simp
    · extract_lets -underBinder s1 n b why c s2 x y z s3 s4 s5 x1
      have hs1 : Step (vital s) (vital s1) := by simp [s1]
      have hc : Step (vital s) (vital c.2) := by simp [c, hs1]
      have hs2 : Step (vital s) (vital s2) := by simp [s2, hs1, hc]
      have hx : Step (vital s) (vital x.2) := by simp [x, hs2]
      have hy : Step (vital s) (vital y.2) := by simp [y, hx]
      have hz : Step (vital s) (vital z.2) := by simp [z, hy]
      have hs3 : Step (vital s) (vital s3) := by simp [s3, hz]
      have hs4 : Step (vital s) (vital s4) := by simp [s4, hs3]
      have hs5 : Step (vital s) (vital s5) := by simp [s5, hs4]
      simp [x1, s5, s4, s3, z, y, x, s2, c, why, b, n, s1, hs4]

@[simp] theorem ends_execRecoveryBroadcast (s) : Ends (vital s) (execRecoveryBroadcast s) := by simp [execRecoveryBroadcast]
@[simp] theorem vital_railsTried (s good) : vital (railsTried s good) = vital s := by simp [railsTried]
theorem Step.resets {v w : Vital} (h : Step v w) : Resets v w := ⟨h.pending, h.fuse, h.memory⟩
/-- The outcome is a next state that keeps what a reset keeps. -/
def EndsReset (v : Vital) (o : Out) : Prop := ∃ t, o = .next t ∧ Resets v (vital t)

theorem endsReset_execPowerOn (a b good s) : EndsReset (vital s) (execPowerOn a b good s) := by
  unfold execPowerOn
  split
  · exact ⟨s, rfl, (Step.refl _).resets⟩
  · extract_lets s1 x
    have hs1 : vital s1 = vital (resetModule s 1) := by simp [s1]
    refine ⟨_, rfl, ?_⟩
    have h : vital (railsTried { s1 with sys := { s1.sys with feedA := a, feedB := b } } good) = vital (resetModule s 1) := by simp [hs1]
    exact h ▸ resets_resetModule s 1

@[simp] theorem ends_execRailStartRetry (good s) : Ends (vital s) (execRailStartRetry good s) := by simp [execRailStartRetry]

theorem endsReset_execRstNReset (low takes s) : EndsReset (vital s) (execRstNReset low takes s) := by
  unfold execRstNReset
  split
  · exact ⟨s, rfl, (Step.refl _).resets⟩
  · refine ⟨_, rfl, ?_⟩
    have h : vital (romStart (resetModule s 2)) = vital (resetModule s 2) := by simp
    exact h ▸ resets_resetModule s 2

@[simp] theorem ends_execCrystalReady (s) : Ends (vital s) (execCrystalReady s) := by simp [execCrystalReady]

@[simp] theorem ends_execCrystalStartTimeout (s) : Ends (vital s) (execCrystalStartTimeout s) := by
  unfold execCrystalStartTimeout
  split
  · simp
  · extract_lets sys s1 s2 sys2
    have hs1 : vital s1 = vital s := by simp [s1, sys]
    have hs2 : vital s2 = vital s := by simp [s2, hs1]
    split
    · simp [hs1]
    · simp [sys2, hs2]

@[simp] theorem step_trySlots {v s} (h : Step v (vital s)) (l other) : Step v (vital (trySlots l other s)) := by
  induction l generalizing s other with
  | nil => simp [trySlots, h]
  | cons k l ih =>
    unfold trySlots
    extract_lets -underBinder x s1 why s2 sys
    have hs1 : Step v (vital s1) := by simp [s1, h]
    have hs2 : Step v (vital s2) := by simp [s2, hs1]
    split
    · simp [sys, hs2]
    · exact ih (by simp [hs1]) _

@[simp] theorem ends_execDramTrained (s) : Ends (vital s) (execDramTrained s) := by
  unfold execDramTrained
  split
  · simp
  · extract_lets mpe s1 s2
    have hs1 : vital s1 = vital s := by simp [s1, mpe]
    have hs2 : vital s2 = vital s := by simp [s2, hs1]
    simp [hs2]

@[simp] theorem ends_execBootHandover (s) : Ends (vital s) (execBootHandover s) := by simp [execBootHandover]
@[simp] theorem vital_feedEvent (s) : vital (feedEvent s) = vital s := by simp [feedEvent]
@[simp] theorem ends_execFeedLoss (b s) : Ends (vital s) (execFeedLoss b s) := by simp [execFeedLoss]
@[simp] theorem ends_execFeedReturn (b s) : Ends (vital s) (execFeedReturn b s) := by simp [execFeedReturn]
@[simp] theorem vital_islandsLost (s) : vital (islandsLost s) = vital s := by simp [islandsLost]
@[simp] theorem ends_execIslandRailSag (s) : Ends (vital s) (execIslandRailSag s) := by simp [execIslandRailSag]

@[simp] theorem ends_execDramPhyLockLost (_c line master s) : Ends (vital s) (execDramPhyLockLost _c line master s) := by
  simp [execDramPhyLockLost]

theorem endsReset_execCollapse (s) : EndsReset (vital s) (execCollapse s) := by
  unfold execCollapse
  split
  · exact ⟨s, rfl, (Step.refl _).resets⟩
  · exact ⟨_, rfl, resets_powerOff s⟩

@[simp] theorem ends_execCrystalLoss (s) : Ends (vital s) (execCrystalLoss s) := by
  unfold execCrystalLoss
  split
  · simp
  · extract_lets x s1
    have hs1 : vital s1 = vital s := by simp [s1, x]
    split
    · simp [hs1]
    · obtain ⟨t, ht, hstep⟩ := ends_execPcieLinkDown (driveMate (islandsLost s1))
      rw [ht, ends_next]
      simpa [hs1] using hstep

/-! ### Chk -/

@[simp] theorem vital_chkRes (s l code n) : vital (chkRes s l code n) = vital s := by simp [chkRes]

@[simp] theorem ends_onCgo (s e l val op cls lengthOk dirOk more f) : Ends (vital s) (onCgo s e l val op cls lengthOk dirOk more f) := by
  unfold onCgo
  split
  · simp
  · refine ends_onSet (fun t => ?_) ..
    extract_lets -underBinder s1 x rules
    have hs1 : Step (vital t) (vital s1) := by simp [s1]
    split <;> simp [hs1]

@[simp] theorem ends_execCmacGen (e l val s) : Ends (vital s) (execCmacGen e l val s) := by simp [execCmacGen]
@[simp] theorem ends_execCmacVer (e l val s) : Ends (vital s) (execCmacVer e l val s) := by simp [execCmacVer]
@[simp] theorem ends_execGmacGen (e l val s) : Ends (vital s) (execGmacGen e l val s) := by simp [execGmacGen]
@[simp] theorem ends_execGmacVer (e l val s) : Ends (vital s) (execGmacVer e l val s) := by simp [execGmacVer]
@[simp] theorem ends_execWrapKey (e l val s) : Ends (vital s) (execWrapKey e l val s) := by simp [execWrapKey]
@[simp] theorem ends_execUnwrapKey (e l val s) : Ends (vital s) (execUnwrapKey e l val s) := by simp [execUnwrapKey]
@[simp] theorem ends_execWrapData (e l val s) : Ends (vital s) (execWrapData e l val s) := by simp [execWrapData]
@[simp] theorem ends_execUnwrapData (e l val s) : Ends (vital s) (execUnwrapData e l val s) := by simp [execUnwrapData]

@[simp] theorem ends_execChkOpComplete (l s) : Ends (vital s) (execChkOpComplete l s) := by
  unfold execChkOpComplete
  split
  · split
    · simp
    · extract_lets -underBinder s1 s2 f s3 s4
      have hs1 : Step (vital s) (vital s1) := by simp [s1]
      have hs2 : Step (vital s) (vital s2) := by simp [s2, hs1]
      have hf : Step (vital s) (vital f.2) := by simp [f, hs2]
      have hs3 : Step (vital s) (vital s3) := by simp [s3, hs2, hf]
      have hs4 : Step (vital s) (vital s4) := by
        unfold s4
        split <;> simp [hs3]
      simp [hs4]
  · simp

/-! ### Mem -/

@[simp] theorem vital_refreshReport (s c code lvl) : vital (refreshReport s c code lvl) = vital s := by simp [refreshReport]
@[simp] theorem ends_execRefreshReportRead (reports s) : Ends (vital s) (execRefreshReportRead reports s) := by simp [execRefreshReportRead]

@[simp] theorem vital_nextNotice (s) : vital (nextNotice s) = vital s := by
  unfold nextNotice
  split <;> simp

@[simp] theorem vital_retrainDue (s c) : vital (retrainDue s c) = vital s := by simp [retrainDue]
@[simp] theorem ends_execRetrainDue (x s) : Ends (vital s) (execRetrainDue x s) := by simp [execRetrainDue]
@[simp] theorem ends_execTrainnow (e c val s) : Ends (vital s) (execTrainnow e c val s) := by simp [execTrainnow]
@[simp] theorem ends_execRetrainPauseStart (s) : Ends (vital s) (execRetrainPauseStart s) := by simp [execRetrainPauseStart]
@[simp] theorem ends_execRetrainPauseEnd (ok step held s) : Ends (vital s) (execRetrainPauseEnd ok step held s) := by simp [execRetrainPauseEnd]
@[simp] theorem ends_execMemBandwidthResult (val s) : Ends (vital s) (execMemBandwidthResult val s) := by simp [execMemBandwidthResult]

/-! ### Mpe -/

@[simp] theorem vital_countFixed (s line n) : vital (countFixed s line n) = vital s := by simp [countFixed]
@[simp] theorem ends_execSealCheck (e k line r s) : Ends (vital s) (execSealCheck e k line r s) := by simp [execSealCheck]

@[simp] theorem ends_execPartialWrite (e k r s) : Ends (vital s) (execPartialWrite e k r s) := by
  unfold execPartialWrite
  split
  · simp
  · split <;> simp

@[simp] theorem ends_execGranuleFill (g s) : Ends (vital s) (execGranuleFill g s) := by simp [execGranuleFill]
@[simp] theorem ends_execBackgroundFillDone (s) : Ends (vital s) (execBackgroundFillDone s) := by simp [execBackgroundFillDone]
@[simp] theorem vital_setRekey (s r x) : vital (setRekey s r x) = vital s := by simp [setRekey]
@[simp] theorem ends_execRekeyStart (e val s) : Ends (vital s) (execRekeyStart e val s) := by simp [execRekeyStart]

@[simp] theorem ends_execRekeyLine (r d s) : Ends (vital s) (execRekeyLine r d s) := by
  unfold execRekeyLine
  split <;> simp

/-! ### Sch -/

theorem vital_of_drr {s pass lvl c parent l x t} (h : drr s pass lvl c parent l = some (x, t)) : vital t = vital s := by
  unfold drr at h
  extract_lets at h
  split at h
  · cases h
  · cases h
    simp

theorem vital_of_pickQueue {s n c b l x t} (h : pickQueue s n c b l = some (x, t)) : vital t = vital s := vital_of_drr h

theorem vital_of_pickSub {s n c v l x y t} (h : pickSub s n c v l = some (x, y, t)) : vital t = vital s := by
  unfold pickSub at h
  extract_lets at h
  split at h
  · cases h
  next hdrr =>
    obtain ⟨r, hr, hrt⟩ := Option.map_eq_some_iff.1 h
    cases hrt
    rw [vital_of_pickQueue hr, vital_of_drr hdrr]

theorem vital_of_pickService {s n c l x y t} (h : pickService s n c l = some (x, y, t)) : vital t = vital s := by
  unfold pickService at h
  extract_lets at h
  split at h
  · cases h
  next hdrr =>
    obtain ⟨r, hr, hrt⟩ := Option.map_eq_some_iff.1 h
    cases hrt
    rw [vital_of_pickSub hr, vital_of_drr hdrr]

@[simp] theorem vital_countServed (s n c q f charge comm) : vital (countServed s n c q f charge comm) = vital s := by
  unfold countServed
  extract_lets -underBinder s1 s2
  have hs1 : vital s1 = vital s := by simp [s1]
  have hs2 : vital s2 = vital s := by simp [s2, hs1]
  split
  · extract_lets -underBinder s3
    have hs3 : vital s3 = vital s := by simp [s3, hs2]
    simp [hs3]
  · simp [hs2]

/-! ### Qm -/

theorem vital_of_popQueue {s q f t} (h : popQueue s q = some (f, t)) : vital t = vital s := by
  unfold popQueue at h
  extract_lets x at h
  split at h
  · cases h
  · rename_i nb s1 _ f' l _
    extract_lets headc s2 at h
    cases h
    simp [s2, s1]

/-! ### Sch -/

theorem vital_of_serve {s n c q comm parity f len t} (h : serve s n c q comm parity = some (f, len, t)) : vital t = vital s := by
  unfold serve at h
  split at h
  · cases h
  next hpop =>
    cases h
    simp [vital_of_popQueue hpop]

@[simp] theorem vital_serveBurst (s n c q comm parity) : vital (serveBurst s n c q comm parity) = vital s := by
  unfold serveBurst
  extract_lets ch a
  split
  · split
    · simp
    · split
      · rfl
      next hserve =>
        have h := vital_of_serve hserve
        simp [h]
  · rfl

@[simp] theorem vital_countWaits (s n cls lost ahead) : vital (countWaits s n cls lost ahead) = vital s := by simp [countWaits]

@[simp] theorem ends_execServiceDecision (n d parity lost s) : Ends (vital s) (execServiceDecision n d parity lost s) := by
  unfold execServiceDecision
  split
  · simp
  · extract_lets cls out takes s1
    have hs1 : vital s1 = vital s := by simp [s1]
    split
    · simp [hs1]
    · split
      · simp [hs1]
      next hpick =>
        have h := vital_of_pickService hpick
        split
        · simp [h, hs1]
        · split
          · simp [h, hs1]
          next hserve => simp [vital_of_serve hserve, h, hs1]

@[simp] theorem vital_raiseLeaf (s kind obj val) : vital (raiseLeaf s kind obj val) = vital s := by simp [raiseLeaf]
@[simp] theorem ends_execSchSample (n s) : Ends (vital s) (execSchSample n s) := by simp [execSchSample]

/-! ### View -/

@[simp] theorem ends_execGetAnswer (e s) : Ends (vital s) (execGetAnswer e s) := by
  unfold execGetAnswer
  split <;> simp

@[simp] theorem ends_execUstatRead (e u n s) : Ends (vital s) (execUstatRead e u n s) := by simp [execUstatRead]

/-! ### Commit -/

@[simp] theorem vital_stageWord (s a val) : vital (stageWord s a val) = vital s := by simp [stageWord]
@[simp] theorem vital_snapshot (s u n) : vital (snapshot s u n) = vital s := by simp [snapshot]
@[simp] theorem vital_disarm (s u n) : vital (disarm s u n) = vital s := by simp [disarm]
@[simp] theorem vital_clearPend (s u n) : vital (clearPend s u n) = vital s := by simp [clearPend]
@[simp] theorem vital_takeWord (s p) : vital (takeWord s p) = vital s := by simp [takeWord]
@[simp] theorem vital_withPending (s u n) : vital (withPending s u n) = vital s := by simp [withPending]
@[simp] theorem vital_attachCredits (s lvl k old new c) : vital (attachCredits s lvl k old new c) = vital c := by simp [attachCredits]
@[simp] theorem vital_writeNodes (s n sv sb sq c) : vital (writeNodes s n sv sb sq c) = vital c := by simp [writeNodes]
@[simp] theorem vital_countDetached (s c) : vital (countDetached s c) = vital c := by simp [countDetached]
@[simp] theorem vital_swapDue (s c) : vital (swapDue s c) = vital c := by simp [swapDue]
@[simp] theorem vital_applyMsec (s c) : vital (applyMsec s c) = vital c := by simp [applyMsec]

theorem twf_filter {α : Type} [DecidableEq α] (d : Nat → α) (p : Nat × α → Bool) {t : Tab α} (h : twf d t = true) : twf d (t.filter p) = true := by
  induction t with
  | nil => rfl
  | cons q t ih =>
    simp only [twf, Bool.and_eq_true, List.all_eq_true] at h
    obtain ⟨⟨hq, hlt⟩, ht⟩ := h
    rw [List.filter_cons]
    split
    · simp only [twf, Bool.and_eq_true, List.all_eq_true]
      exact ⟨⟨hq, fun x hx => hlt x (List.mem_of_mem_filter hx)⟩, ih ht⟩
    · exact ih ht

@[simp] theorem step_dropDram {v s} (h : Step v (vital s)) (p) :
    Step v (vital { s with mpe := { s.mpe with dram := s.mpe.dram.filter p } }) :=
  step_of_canonical h rfl rfl rfl fun h => { h with dram := twf_filter _ _ h.dram }

@[simp] theorem step_applyMpe {v c} (h : Step v (vital c)) : Step v (vital (applyMpe c)) := by
  unfold applyMpe
  extract_lets k e x y rights c1 gs mpe
  have hc1 : vital c1 = vital c := by simp [c1, rights]
  split
  · exact hc1 ▸ h
  · rw [vital_foldl (fun t x => vital_setWritten ..)]
    exact step_dropDram (hc1 ▸ h) _

@[simp] theorem vital_applyMeas (c) : vital (applyMeas c) = vital c := by simp [applyMeas]
@[simp] theorem vital_applyPlc (s c) : vital (applyPlc s c) = vital c := by simp [applyPlc]

@[simp] theorem step_applyQm {v c} (h : Step v (vital c)) (s) : Step v (vital (applyQm s c)) := by
  unfold applyQm
  extract_lets -underBinder x c1
  have hc1 : Step v (vital c1) := by simp [c1, h]
  refine step_foldl (fun t x => ?_) ?_ _
  · simp
  · simp [hc1]

@[simp] theorem step_applyHook {v c} (h : Step v (vital c)) (s u n) : Step v (vital (applyHook s c u n)) := by
  unfold applyHook
  split
  · simp [h]
  · simp [h]
  · simp [h]
  · extract_lets -underBinder c1
    have hc1 : Step v (vital c1) := by simp [c1, h]
    simp [hc1]
  · simp [h]
  · simp [h]
  · simp [h]
  · simp [h]
  · simp [h]
  · simp [h]
  · simp [h]

@[simp] theorem step_commitNow {v s} (h : Step v (vital s)) (u n) : Step v (vital (commitNow s u n)) := by
  unfold commitNow
  extract_lets -underBinder c
  have hc : Step v (vital c) := by simp [c, h]
  split
  · simp [h]
  · extract_lets -underBinder c1
    have hc1 : Step v (vital c1) := by simp [c1, hc]
    simp [hc1]

@[simp] theorem step_commitAtOnce {v s} (h : Step v (vital s)) (u n) : Step v (vital (commitAtOnce s u n)) := by simp [commitAtOnce, h]

/-! ### Units -/

@[simp] theorem vital_keyOpUnassigned (s a val) : vital (keyOpUnassigned s a val) = vital s := by simp [keyOpUnassigned]
@[simp] theorem vital_chkOpUnassigned (s e l) : vital (chkOpUnassigned s e l) = vital s := by simp [chkOpUnassigned]

/-! ### Meas -/

theorem vital_of_measWrite {s a x t} (h : measWrite s a x = some t) : vital t = vital s := by
  unfold measWrite at h
  extract_lets w k t1 keep meas j old member t2 t3 t4 at h
  have ht1 : vital t1 = vital s := by simp [t1]
  have ht2 : vital t2 = vital s := by simp [t2]
  have ht3 : vital t3 = vital s := by simp [t3, ht2]
  have ht4 : vital t4 = vital s := by simp [t4, ht3]
  split_ifs at h <;> rw [← Option.some.inj h] <;> simp [ht1, ht3, ht4]

/-! ### Units -/

@[simp] theorem vital_writeWord (s e a x) : vital (writeWord s e a x) = vital s := by
  unfold writeWord
  extract_lets w
  split
  · split <;> simp
  · split <;> simp
  · repeat' split
    all_goals simp
  · repeat' split
    all_goals simp
  · simp
  · cases hm : measWrite s a x with
    | none => simp
    | some t => simpa using vital_of_measWrite hm
  · repeat' split
    all_goals simp
  · simp

@[simp] theorem ends_execUnitWordWrite (e a val s) : Ends (vital s) (execUnitWordWrite e a val s) := by simp [execUnitWordWrite]

@[simp] theorem ends_execCommitSnapshot (e u n s) : Ends (vital s) (execCommitSnapshot e u n s) := by
  unfold execCommitSnapshot
  split
  next t ht => simp [vital_of_accept ht]
  next => simp

@[simp] theorem ends_execCommitPoint (u n s) : Ends (vital s) (execCommitPoint u n s) := by simp [execCommitPoint]
@[simp] theorem vital_setDue (s u n) : vital (setDue s u n) = vital s := by simp [setDue]
@[simp] theorem step_armCommit {v s} (h : Step v (vital s)) (u n) : Step v (vital (armCommit s u n)) := by simp [armCommit, h]
@[simp] theorem ends_execScheduledCommitArm (e u n val s) : Ends (vital s) (execScheduledCommitArm e u n val s) := by simp [execScheduledCommitArm]

@[simp] theorem ends_execScheduledCommitDisarm (e u n val s) : Ends (vital s) (execScheduledCommitDisarm e u n val s) := by
  simp [execScheduledCommitDisarm]

@[simp] theorem ends_execScheduledCommitDue (u n s) : Ends (vital s) (execScheduledCommitDue u n s) := by
  unfold execScheduledCommitDue
  split <;> simp

@[simp] theorem step_idleRings {v s} (h : Step v (vital s)) : Step v (vital (idleRings s)) := by
  unfold idleRings
  refine step_foldl (fun t x => ?_) ?_ _
  · simp
  · simp [h]

@[simp] theorem step_onActive {v s} (h : Step v (vital s)) (u n) : Step v (vital (onActive s u n)) := by
  unfold onActive
  split <;> simp [h]

@[simp] theorem vital_onDisabled (s u n) : vital (onDisabled s u n) = vital s := by
  unfold onDisabled
  split
  · simp
  · simp
  · split <;> simp
  · simp
  · simp
  · simp

@[simp] theorem vital_emptyStores (s counted) : vital (emptyStores s counted) = vital s := by simp [emptyStores]

@[simp] theorem vital_onIdle (s u n) : vital (onIdle s u n) = vital s := by
  unfold onIdle
  extract_lets -underBinder x s1
  have hs1 : vital s1 = vital s := by simp [s1]
  split <;> simp [hs1]

@[simp] theorem step_goActive {v s} (h : Step v (vital s)) (u n) : Step v (vital (goActive s u n)) := by simp [goActive, h]
@[simp] theorem step_goIdle {v s} (h : Step v (vital s)) (u n) : Step v (vital (goIdle s u n)) := by simp [goIdle, h]
@[simp] theorem vital_beginDrain (s u n) : vital (beginDrain s u n) = vital s := by simp [beginDrain]

@[simp] theorem ends_execUnitDisable (e u n val s) : Ends (vital s) (execUnitDisable e u n val s) := by
  unfold execUnitDisable
  split
  · simp
  · refine ends_onSet (fun t => ?_) ..
    split
    · simp
    · extract_lets -underBinder st s1
      have hs1 : Step (vital t) (vital s1) := by simp [s1]
      clear_value st
      split <;> simp [hs1]

@[simp] theorem ends_execUnitEnable (e u n val s) : Ends (vital s) (execUnitEnable e u n val s) := by
  unfold execUnitEnable
  split
  · simp
  · refine ends_onSet (fun t => ?_) ..
    split
    · simp
    · split
      · simp
      · extract_lets -underBinder st s1
        have hs1 : Step (vital t) (vital s1) := by simp [s1]
        clear_value st
        split <;> simp [hs1]

@[simp] theorem ends_execDrainComplete (u n s) : Ends (vital s) (execDrainComplete u n s) := by simp [execDrainComplete]
@[simp] theorem vital_dropQm (s) : vital (dropQm s).1 = vital s := by simp [dropQm]

@[simp] theorem step_discardHeld {v s} (h : Step v (vital s)) (u n) : Step v (vital (discardHeld s u n).1) := by
  unfold discardHeld
  split
  · extract_lets -underBinder c
    have hc : Step v (vital c.2) := by simp [c, h]
    simp [hc]
  · extract_lets -underBinder l
    simp [h]
  · simp [h]
  · extract_lets -underBinder left
    simp [h]
  · split <;> simp [h]
  · simp [h]
  · simp [h]
  · simp [h]

@[simp] theorem ends_execDrainBoundExpiry (u n s) : Ends (vital s) (execDrainBoundExpiry u n s) := by simp [execDrainBoundExpiry]
@[simp] theorem ends_execFunctionLevelReset (s) : Ends (vital s) (execFunctionLevelReset s) := by simp [execFunctionLevelReset]

/-! ### Tick -/

@[simp] theorem vital_laserTick (s c) : vital (laserTick s c) = vital s := by simp [laserTick]
@[simp] theorem vital_tick (s) : vital (tick s) = vital s := by simp [tick]

/-! ### Every command and every step -/

/-- The three commands that may leave a halt. -/
def isReset : Instr → Bool
  | .powerOn .. | .rstNReset .. | .collapse => true
  | _ => false

theorem ends_exec {i : Instr} (h : isReset i = false) (s : State) : Ends (vital s) (exec i s) := by
  cases i
  case powerOn => cases h
  case rstNReset => cases h
  case collapse => cases h
  all_goals simp [exec]

theorem endsReset_exec (i : Instr) (s : State) : EndsReset (vital s) (exec i s) := by
  cases hi : isReset i with
  | false =>
    obtain ⟨t, ht, hstep⟩ := ends_exec hi s
    exact ⟨t, ht, hstep.resets⟩
  | true =>
    unfold isReset at hi
    split at hi
    · exact endsReset_execPowerOn ..
    · exact endsReset_execRstNReset ..
    · exact endsReset_execCollapse ..
    · cases hi

theorem step_tick (s : State) : Step (vital s) (vital (tick s)) := by simp

theorem resets_of_step {s t : State} (h : step s = .next t) : ∃ pending, Resets (vital { s with pending := pending }) (vital t) := by
  unfold step at h
  split at h
  · refine ⟨s.pending, ?_⟩
    cases h
    exact (step_tick s).resets
  next i rest _ =>
    obtain ⟨u, hu, hreset⟩ := endsReset_exec i { s with pending := rest }
    rw [hu] at h
    cases h
    exact ⟨rest, hreset⟩

/-- Settles O2. -/
theorem everyCommandCompletes : Obligations.EveryCommandCompletes := by
  intro i s
  obtain ⟨t, ht, hreset⟩ := endsReset_exec i s
  exact ⟨t, ht, hreset.pending⟩

/-- Settles O5. -/
theorem everyStepKeepsMemoryCanonical : Obligations.EveryStepKeepsMemoryCanonical := by
  intro s t hwf hstep
  obtain ⟨pending, hreset⟩ := resets_of_step hstep
  have hcanonical := (wf_iff_canonical s).1 hwf
  exact (wf_iff_canonical t).2 (hreset.memory { hcanonical with })

/-- Settles O6. -/
theorem noFuseIsEverUnblown : Obligations.NoFuseIsEverUnblown := by
  intro s t hfuse hstep
  obtain ⟨pending, hreset⟩ := resets_of_step hstep
  exact hreset.fuse hfuse

theorem step_keeps_halt {s t : State} (hhalted : s.sys.halted = true) (hstep : step s = .next t)
    (hcommand : ∀ i rest, s.pending = i :: rest → isReset i = false) : t.sys.halted = true := by
  unfold step at hstep
  split at hstep
  · cases hstep
    exact (step_tick s).halted hhalted
  next i rest hpending =>
    obtain ⟨u, hu, h⟩ := ends_exec (hcommand i rest hpending) { s with pending := rest }
    rw [hu] at hstep
    cases hstep
    exact h.halted hhalted

/-- Settles O7. -/
theorem aHaltIsLeftOnlyByAReset : Obligations.AHaltIsLeftOnlyByAReset := by
  refine ⟨fun s t hhalted hstep hrst hcollapse hpower => ?_, fun e w0 w1 s hhalted => ⟨fun bad f hf => ?_, ?_⟩⟩
  · refine step_keeps_halt hhalted hstep fun i rest hpending => ?_
    rw [hpending] at hrst hcollapse hpower
    refine Bool.eq_false_iff.2 fun hi => ?_
    unfold isReset at hi
    split at hi
    · exact hpower _ _ _ rfl
    · exact hrst _ _ rfl
    · exact hcollapse rfl
    · cases hi
  · exact (allRuns_bjRun e w0 w1 bad f hf).halted s hhalted
  · simp [exec, execIllegalEncoding, hhalted]

end Sys2Proof.Machine
end

section
/-! Sums and differences (R136): their words, carry and overflow, and the statement about them. -/
namespace Sys2Proof.Machine

/-! ## Words -/

theorem toInt_eq_ite (a : Word) : a.toInt = if a.toNat < 8388608 then (a.toNat : Int) else (a.toNat : Int) - 16777216 := by
  rw [BitVec.toInt_eq_toNat_cond]
  split <;> split <;> omega

theorem msb_eq_decide (a : Word) : a.msb = decide (8388608 ≤ a.toNat) := BitVec.msb_eq_decide a

theorem toNat_wd_b2n (c : Bool) : (wd (b2n c)).toNat = b2n c := by cases c <;> rfl

/-- The word of a sum is the sum of the words. -/
theorem wd_sum (a b : Word) (c : Bool) : wd (a.toNat + b.toNat + b2n c) = a + b + wd (b2n c) := by
  apply BitVec.eq_of_toNat_eq
  simp [wd, BitVec.toNat_add]

/-- Two operands of one sign whose sum has the other: the signed sum does not fit. -/
theorem overflow_add (a b : Word) (c : Bool) :
    (a.msb == b.msb && (a + b + wd (b2n c)).msb != a.msb) = decide (a.toInt + b.toInt + (b2n c : Int) ≠ (a + b + wd (b2n c)).toInt) := by
  have ha := a.isLt
  have hb := b.isLt
  have hr : (a + b + wd (b2n c)).toNat = (a.toNat + b.toNat + b2n c) % 16777216 := by
    rw [← wd_sum]
    rfl
  generalize a + b + wd (b2n c) = r at *
  rw [Bool.eq_iff_iff]
  simp only [msb_eq_decide, toInt_eq_ite, Bool.and_eq_true, beq_iff_eq, bne_iff_ne, decide_eq_decide, decide_eq_true_eq, ne_eq]
  have hc : b2n c ≤ 1 := by cases c <;> decide
  omega

theorem toNat_sub_borrow (a b : Word) (c : Bool) :
    (a - b - wd (b2n c)).toNat = (a.toNat + (16777216 - b.toNat) + (16777216 - b2n c)) % 16777216 := by
  have ha := a.isLt
  have hb := b.isLt
  have hc : b2n c ≤ 1 := by cases c <;> decide
  simp only [BitVec.toNat_sub, toNat_wd_b2n]
  omega

/-- Two operands of different signs whose difference does not have the first one's: the signed difference does not fit. -/
theorem overflow_sub (a b : Word) (c : Bool) :
    (a.msb != b.msb && (a - b - wd (b2n c)).msb != a.msb) = decide (a.toInt - b.toInt - (b2n c : Int) ≠ (a - b - wd (b2n c)).toInt) := by
  have ha := a.isLt
  have hb := b.isLt
  have hr := toNat_sub_borrow a b c
  generalize a - b - wd (b2n c) = r at *
  rw [Bool.eq_iff_iff]
  simp only [msb_eq_decide, toInt_eq_ite, Bool.and_eq_true, bne_iff_ne, decide_eq_decide, decide_eq_true_eq, ne_eq]
  have hc : b2n c ≤ 1 := by cases c <;> decide
  omega

/-! ## Instructions -/

theorem computed_retire_writeZNCV (s : State) (e : Eng) (size : Nat) (rd : Reg) (x : Word × Bool × Bool) :
    Computed s (retire (setEng s e (writeZNCV (eng s e) rd x)) e ((eng s e).pc + wd size)) e size rd x.1
      (x.1 == 0, x.1.msb, x.2.1, x.2.2) :=
  computed_retire_setReg size rd x.1 rfl rfl

section
variable {s : State} {e : Eng} {uses : List Reg} (hruns : Runs s e 1 uses) (rd : Reg) (x y : Engine → Word) (c : Engine → Bool)
include hruns

theorem instrG_addC_computes {r : Word} (hr : x (eng s e) + y (eng s e) + wd (b2n (c (eng s e))) = r) :
    ∃ t, instrG s e 1 (uses.map Fin.val) (fun g => writeZNCV g rd (addC (x g) (y g) (c g))) = .next t ∧
      Computed s t e 1 rd r (sumFlags (x (eng s e)) (y (eng s e)) (c (eng s e))) := by
  subst hr
  refine ⟨_, instrG_runs _ hruns, ?_⟩
  have h := computed_retire_writeZNCV s e 1 rd (addC (x (eng s e)) (y (eng s e)) (c (eng s e)))
  simp only [addC, wd_sum, overflow_add] at h ⊢
  exact h

theorem instrG_subC_computes {r : Word} (hr : x (eng s e) - y (eng s e) - wd (b2n (c (eng s e))) = r) :
    ∃ t, instrG s e 1 (uses.map Fin.val) (fun g => writeZNCV g rd (subC (x g) (y g) (c g))) = .next t ∧
      Computed s t e 1 rd r (diffFlags (x (eng s e)) (y (eng s e)) (c (eng s e))) := by
  subst hr
  refine ⟨_, instrG_runs _ hruns, ?_⟩
  have h := computed_retire_writeZNCV s e 1 rd (subC (x (eng s e)) (y (eng s e)) (c (eng s e)))
  simp only [subC, overflow_sub] at h ⊢
  exact h

end

/-- Settles O8: every one of the six adds or subtracts, with or without the carry. -/
theorem sumsAndDifferencesSetFourFlags : Obligations.SumsAndDifferencesSetFourFlags := by
  rintro e rd ra rb imm s a b k c rfl rfl rfl rfl
  have hadd (a b : Word) : a + b + wd (b2n false) = a + b := BitVec.add_zero _
  have hsub (a b : Word) : a - b - wd (b2n false) = a - b := BitVec.sub_zero _
  refine ⟨fun hruns => ?registers, fun hruns => ?immediate⟩
  case registers =>
    exact ⟨instrG_addC_computes hruns rd (reg · ra) (reg · rb) (fun _ => false) (hadd ..),
      instrG_addC_computes hruns rd (reg · ra) (reg · rb) Engine.c rfl,
      instrG_subC_computes hruns rd (reg · ra) (reg · rb) (fun _ => false) (hsub ..),
      instrG_subC_computes hruns rd (reg · ra) (reg · rb) Engine.c rfl⟩
  case immediate =>
    exact ⟨instrG_addC_computes hruns rd (reg · ra) (fun _ => imm.signExtend 24) (fun _ => false) (hadd ..),
      instrG_subC_computes hruns rd (reg · ra) (fun _ => imm.signExtend 24) (fun _ => false) (hsub ..)⟩

end Sys2Proof.Machine
end

section
/-! Logic, products, minima and maxima, CLZ and EXTB (R136, R139): the words they write, and the statement about them. -/
namespace Sys2Proof.Machine

/-! ## Words -/

/-- The upper half of the signed product. -/
theorem wd_mulh (a b : Word) :
    wd (unsext (a.toInt * b.toInt) 48 / 16777216) = (a.signExtend 48 * b.signExtend 48).extractLsb' 24 24 := by
  have hproduct : a.signExtend 48 * b.signExtend 48 = BitVec.ofInt 48 (a.toInt * b.toInt) := by
    rw [BitVec.signExtend, BitVec.signExtend, BitVec.ofInt_mul]
  apply BitVec.eq_of_toNat_eq
  rw [hproduct, BitVec.extractLsb'_toNat, BitVec.toNat_ofInt, wd, BitVec.toNat_ofNat, unsext, Nat.shiftRight_eq_div_pow]

/-- The upper half of the unsigned product. -/
theorem wd_mulhu (a b : Word) : wd (a.toNat * b.toNat / 16777216) = (a.zeroExtend 48 * b.zeroExtend 48).extractLsb' 24 24 := by
  have hlt : a.toNat * b.toNat < 2 ^ 24 * 2 ^ 24 := Nat.mul_lt_mul'' a.isLt b.isLt
  apply BitVec.eq_of_toNat_eq
  rw [BitVec.extractLsb'_toNat, BitVec.toNat_mul, BitVec.toNat_setWidth_of_le (by decide), BitVec.toNat_setWidth_of_le (by decide),
    Nat.mod_eq_of_lt (hlt.trans_le (by decide)), wd, BitVec.toNat_ofNat, Nat.shiftRight_eq_div_pow]

theorem toNat_extb (a : Word) (k : Nat) (hk : k < 4) : (extb a k).toNat = if k = 3 then 0 else a.toNat / 2 ^ (16 - 8 * k) % 256 := by
  unfold extb
  split
  · rw [if_neg (by omega), wd, BitVec.toNat_ofNat]
    exact Nat.mod_eq_of_lt ((Nat.mod_lt _ (by decide)).trans (by decide))
  · rw [if_pos (by omega)]
    rfl

/-- A word of n significant bits has 24 - n leading zeros, and no more. -/
theorem clz_spec (a : Word) : (clz a).toNat ≤ 24 ∧ (∀ i, i < (clz a).toNat → a.getMsbD i = false) ∧
    ((clz a).toNat < 24 → a.getMsbD (clz a).toNat = true) := by
  have ha := a.isLt
  by_cases hzero : a.toNat = 0
  · have : a = 0 := BitVec.eq_of_toNat_eq hzero
    subst this
    exact ⟨by decide, fun i _ => by simp, fun h => absurd h (by decide)⟩
  have hlog : Nat.log2 a.toNat < 24 := (Nat.log2_lt hzero).2 ha
  have hclz : (clz a).toNat = 23 - Nat.log2 a.toNat := by
    rw [clz, if_neg hzero, wd, BitVec.toNat_ofNat]
    omega
  rw [hclz]
  refine ⟨by omega, fun i hi => ?_, fun _ => ?_⟩
  · rw [BitVec.getMsbD, ← BitVec.testBit_toNat, Nat.testBit_lt_two_pow ((Nat.log2_lt hzero).1 (by omega : Nat.log2 a.toNat < 24 - 1 - i)),
      Bool.and_false]
  · rw [BitVec.getMsbD, ← BitVec.testBit_toNat, show 24 - 1 - (23 - Nat.log2 a.toNat) = Nat.log2 a.toNat by omega, Nat.testBit_log2 hzero,
      Bool.and_true, decide_eq_true_eq]
    omega

/-! ## Instructions -/

section
variable {s : State} {e : Eng} {uses : List Reg} (hruns : Runs s e 1 uses) (rd : Reg)
include hruns

theorem instrG_writeZN_runs (x : Engine → Word) : ∃ t, instrG s e 1 (uses.map Fin.val) (fun g => writeZN g rd (x g)) = .next t ∧
    Computed s t e 1 rd (x (eng s e)) (znFlags (eng s e) (x (eng s e))) :=
  ⟨_, instrG_runs _ hruns, computed_retire_writeZN ..⟩

end

/-- Settles O9: each instruction writes what its function on words gives. -/
theorem logicProductsAndChoices : Obligations.LogicProductsAndChoices := by
  rintro e rd ra rb imm s a b k rfl rfl rfl
  refine ⟨fun hruns => ?registers, fun hruns => ?immediate⟩
  case registers =>
    refine ⟨instrG_writeZN_runs hruns rd fun g => reg g ra &&& reg g rb, instrG_writeZN_runs hruns rd fun g => reg g ra ||| reg g rb,
      instrG_writeZN_runs hruns rd fun g => reg g ra ^^^ reg g rb, instrG_writeZN_runs hruns rd fun g => reg g ra &&& ~~~(reg g rb),
      instrG_writeZN_computes hruns rd (fun g => reg g ra * reg g rb) (BitVec.toNat_mul ..),
      instrG_writeZN_computes hruns rd (fun g => wd (unsext ((reg g ra).toInt * (reg g rb).toInt) 48 / 16777216)) (wd_mulh ..),
      instrG_writeZN_computes hruns rd (fun g => wd ((reg g ra).toNat * (reg g rb).toNat / 16777216)) (wd_mulhu ..),
      instrG_writeZN_computes hruns rd (fun g => if (reg g ra).toInt ≤ (reg g rb).toInt then reg g ra else reg g rb) ?min,
      instrG_writeZN_computes hruns rd (fun g => if (reg g ra).toInt ≤ (reg g rb).toInt then reg g rb else reg g ra) ?max,
      instrG_writeZN_computes hruns rd (fun g => if (reg g ra).toNat ≤ (reg g rb).toNat then reg g ra else reg g rb) ?minu,
      instrG_writeZN_computes hruns rd (fun g => if (reg g ra).toNat ≤ (reg g rb).toNat then reg g rb else reg g ra) ?maxu,
      instrG_writeZN_computes hruns rd (fun g => extb (reg g ra) (bitsOf (reg g rb).toNat 0 2)) ?extb⟩
    case min | max => split <;> omega
    case minu | maxu => split <;> omega
    case extb =>
      rw [bitsOf_zero]
      exact toNat_extb _ _ (Nat.mod_lt _ (by decide))
  case immediate =>
    exact ⟨instrG_writeZN_computes hruns rd (fun g => clz (reg g ra)) (clz_spec _),
      instrG_writeZN_runs hruns rd fun g => reg g ra &&& imm.zeroExtend 24, instrG_writeZN_runs hruns rd fun g => reg g ra ||| imm.zeroExtend 24,
      instrG_writeZN_runs hruns rd fun g => reg g ra ^^^ imm.zeroExtend 24⟩

end Sys2Proof.Machine
end

section
/-! EXT and INS, LDI, NOP and the SYS group (R140, R141, R166): what they write, when an instruction `Went` on, and the statement about
them. -/
namespace Sys2Proof.Machine

/-! ## Going on -/

theorem onlyEngine_retire_self (s : State) (e : Eng) (pc : Word) : OnlyEngine s (retire s e pc) e :=
  ⟨rfl, fun _ h => eng_retire_other _ _ h⟩

/-- Retiring after a write to rd alone. -/
theorem went_retire_setReg (s : State) (e : Eng) (rd : Reg) (r pc : Word) :
    Went s (retire (setEng s e (setReg (eng s e) rd r)) e pc) e rd r pc := by
  refine ⟨onlyEngine_retire .., fun k => ?written, ?flags, goesOnAt_retire .., ?rest⟩
  case written => rw [reg_retire, eng_setEng_same, reg_setReg]
  case flags => rw [flags_retire, eng_setEng_same, flags_setReg]
  case rest => rw [engRest_retire, eng_setEng_same, engRest_setReg]

/-- Retiring without an effect. -/
theorem went_retire (s : State) (e : Eng) (pc : Word) : Went s (retire s e pc) e 0 0 pc :=
  ⟨onlyEngine_retire_self .., fun k => by rw [reg_retire, if_neg (by simp)], flags_retire .., goesOnAt_retire .., engRest_retire ..⟩

/-- An instruction that runs and whose body goes on elsewhere retires there. -/
theorem instr_of_runs_jump {s s' : State} {e : Eng} {size : Nat} {uses : List Reg} {body : Engine → Eff} {pc : Word}
    (hruns : Runs s e size uses) (hbody : body (eng s e) = .jump s' pc) :
    instr s e size (uses.map Fin.val) body = .next (retire s' e pc) := by
  obtain ⟨hable, hstep, hpast, hdue, hnoted, hfetch, hloading⟩ := hruns
  rw [instr_runs body hable hstep hpast hdue hnoted hfetch (by simpa [List.any_map] using hloading), hbody]

theorem wd_one : wd 1 = 1 := rfl

theorem wd_two : wd 2 = 2 := rfl

/-- A one-word instruction that runs and whose body is done retires at the next word. -/
theorem instr_of_runs_one {s s' : State} {e : Eng} {uses : List Reg} {body : Engine → Eff} (hruns : Runs s e 1 uses)
    (hbody : body (eng s e) = .done s') : instr s e 1 (uses.map Fin.val) body = .next (retire s' e ((eng s e).pc + 1)) := by
  rw [instr_of_runs_done hruns hbody, wd_one]

theorem instrG_of_runs_one {s : State} {e : Eng} {uses : List Reg} (f : Engine → Engine) (hruns : Runs s e 1 uses) :
    instrG s e 1 (uses.map Fin.val) f = .next (retire (setEng s e (f (eng s e))) e ((eng s e).pc + 1)) :=
  instr_of_runs_one hruns rfl

/-- An instruction that runs and traps, with TIP clear and no far load outstanding, has trapped. -/
theorem exists_trapped {s : State} {e : Eng} {size : Nat} {uses : List Reg} {body : Engine → Eff} {c d1 d2 : Nat}
    (hruns : Runs s e size uses) (hbody : body (eng s e) = .trap c d1 d2) (htip : (eng s e).tip = false) (hloads : loadsOut (eng s e) = false) :
    ∃ t, instr s e size (uses.map Fin.val) body = .next t ∧ Trapped s t e c (wd d1) (wd d2) :=
  ⟨_, instr_of_runs_trap hruns hbody hloads, trapped_takeTrap c d1 d2 htip⟩

theorem wd_toNat (a : Word) : wd a.toNat = a := by rw [wd, BitVec.ofNat_toNat, BitVec.setWidth_eq]

/-! ## Fields -/

theorem testBit_bitsOf (n lo w i : Nat) : (bitsOf n lo w).testBit i = (decide (i < w) && n.testBit (lo + i)) := by
  rw [bitsOf, Nat.testBit_mod_two_pow, Nat.testBit_div_two_pow, Nat.add_comm]

theorem getLsbD_extField (a : Word) (pos : Nat) (wm1 : Nat) {i : Nat} (hi : i < 24) :
    (extField a pos (wm1 + 1)).getLsbD i = (decide (i ≤ wm1) && a.getLsbD (pos + i)) := by
  rw [extField, wd, BitVec.getLsbD_ofNat, testBit_bitsOf, BitVec.testBit_toNat]
  simp [hi]

/-- A bit of a number after a field was put in: within the field the new value's, else the old one. -/
theorem testBit_putBits (n lo w v i : Nat) :
    (putBits n lo w v).testBit i = if lo ≤ i ∧ i < lo + w then v.testBit (i - lo) else n.testBit i := by
  split
  next h =>
    have hfield := congrArg (Nat.testBit · (i - lo)) (bitsOf_putBits_same n lo w v)
    have hi : lo + (i - lo) = i := by omega
    have hw : i - lo < w := by omega
    simpa [testBit_bitsOf, Nat.testBit_mod_two_pow, hi, hw] using hfield
  next h =>
    have hbit := congrArg (Nat.testBit · 0) (bitsOf_putBits_other n lo w v i 1 (by omega))
    simpa only [testBit_bitsOf, Nat.zero_lt_one, decide_true, Bool.true_and, Nat.add_zero] using hbit

theorem getLsbD_insField (a b : Word) (pos wm1 : Nat) {i : Nat} (hi : i < 24) :
    (insField a b pos (wm1 + 1)).getLsbD i = if pos ≤ i ∧ i ≤ pos + wm1 then b.getLsbD (i - pos) else a.getLsbD i := by
  rw [insField, wd, BitVec.getLsbD_ofNat, testBit_putBits, BitVec.testBit_toNat, BitVec.testBit_toNat, ← Nat.add_assoc]
  simp [hi]

/-- Bits [14:7] of a word, in their place. -/
theorem wd_tpField (a : Word) : wd (bitsOf a.toNat 7 8 * 128) = a &&& 0x7f80 := by
  apply BitVec.eq_of_getLsbD_eq
  intro i hi
  have hmask : (0x7f80 : Word).getLsbD i = decide (7 ≤ i ∧ i < 15) := by decide +revert
  rw [BitVec.getLsbD_and, hmask, wd, BitVec.getLsbD_ofNat, show 128 = 2 ^ 7 from rfl, Nat.testBit_mul_two_pow, testBit_bitsOf]
  by_cases h : 7 ≤ i
  · simp only [hi, h, Nat.add_sub_cancel' h, BitVec.testBit_toNat, decide_true, true_and, Bool.true_and]
    rw [Bool.and_comm]
    congr 1
    exact decide_eq_decide.2 (by omega)
  · simp [h]

/-! ## Instructions -/

/-- The effect of MTTP (R109, R166). -/
def mttpEff (s : State) (e : Eng) (ra : Reg) (g : Engine) : Eff :=
  if !g.kp then .trap 2 (encR 0x3e 0 ra 0 4).toNat 0 else .done (setEng s e { g with tp := wd (bitsOf (reg g ra).toNat 7 8 * 128) })

section
variable (s : State) (e : Eng) (rd ra : Reg)

theorem exec_ldi (imm : Word) : exec (.ldi e rd imm) s = instrG s e 2 ([rd].map Fin.val) fun g => setReg g rd imm := rfl
theorem exec_nop : exec (.nop e) s = instr s e 1 (([] : List Reg).map Fin.val) fun _ => .done s := rfl
theorem exec_mfl : exec (.mfl e rd) s = instrG s e 1 ([rd].map Fin.val) fun g => setReg g rd (wd (flWord g)) := rfl
theorem exec_mftp : exec (.mftp e rd) s = instrG s e 1 ([rd].map Fin.val) fun g => setReg g rd g.tp := rfl
theorem exec_mtfl : exec (.mtfl e ra) s = instrG s e 1 ([ra].map Fin.val) fun g => setFl g (reg g ra).toNat := rfl
theorem exec_mttp : exec (.mttp e ra) s = instr s e 1 ([ra].map Fin.val) (mttpEff s e ra) := rfl

end

/-- Settles O12: one case for each instruction, in the order of the statement. -/
theorem fieldsConstantsAndSystemRegisters : Obligations.FieldsConstantsAndSystemRegisters := by
  rintro e rd ra pos wm1 imm s a rfl
  refine ⟨fun hruns => ⟨?ext, ?ins⟩, fun hruns => ?ldi, fun hruns => ?nop, fun hruns => ⟨?mfl, ?mftp⟩, fun hruns => ⟨?mtfl, ?keeper, ?user⟩⟩
  case ext =>
    exact instrG_writeZN_computes hruns rd (fun g => extField (reg g ra) pos (wm1.toNat + 1)) fun i hi => getLsbD_extField _ _ _ hi
  case ins =>
    exact instrG_writeZN_computes hruns rd (fun g => insField (reg g rd) (reg g ra) pos (wm1.toNat + 1)) fun i hi => getLsbD_insField _ _ _ _ hi
  case ldi =>
    rw [exec_ldi, instrG_runs _ hruns, wd_two]
    exact ⟨_, rfl, went_retire_setReg ..⟩
  case nop =>
    rw [exec_nop, instr_of_runs_one hruns rfl]
    exact ⟨_, rfl, went_retire ..⟩
  case mfl =>
    rw [exec_mfl, instrG_of_runs_one _ hruns]
    exact ⟨_, rfl, went_retire_setReg ..⟩
  case mftp =>
    rw [exec_mftp, instrG_of_runs_one _ hruns]
    exact ⟨_, rfl, went_retire_setReg ..⟩
  case mtfl =>
    rw [exec_mtfl, instrG_of_runs_one _ hruns]
    refine ⟨_, rfl, onlyEngine_retire .., ?_, ?_, goesOnAt_retire .., fun k => ?_, ?_⟩
    · rw [flags_retire, eng_setEng_same]
      simp only [flags, setFl, bitOf_toNat]
    · rw [eng_retire, eng_setEng_same]
      exact bitOf_toNat ..
    · rw [reg_retire, eng_setEng_same]
      rfl
    · rw [engRest', engRest_retire, eng_setEng_same]
      rfl
  case keeper =>
    intro hkeeper
    rw [exec_mttp, instr_of_runs_one hruns (if_neg (by simp [hkeeper]))]
    refine ⟨_, rfl, onlyEngine_retire .., ?_, ?_, goesOnAt_retire .., fun k => ?_, ?_⟩
    · rw [eng_retire, eng_setEng_same]
      exact wd_tpField _
    · rw [flags_retire, eng_setEng_same]
      rfl
    · rw [reg_retire, eng_setEng_same]
      rfl
    · rw [eng_retire, eng_setEng_same]
      rfl
  case user =>
    intro huser htip hloads
    obtain ⟨t, ht, htrapped⟩ := exists_trapped (body := mttpEff s e ra) hruns (if_pos (by simp [huser])) htip hloads
    exact ⟨t, ht, wd_toNat (encR 0x3e 0 ra 0 4) ▸ htrapped⟩

end Sys2Proof.Machine
end

section
/-! B, JMP, CALL and JR (R142 to R144): where they go on, what the conditions mean after SUB, and the statement about them. -/
namespace Sys2Proof.Machine

/-- The effect of B (R142, R144). -/
def branchEff (s : State) (cond : Fin 19) (off : BitVec 13) (g : Engine) : Eff :=
  if !condHolds g cond then .done s
  else if 0x7fff < (g.pc + off.signExtend 24).toNat then .trap 3 (g.pc + off.signExtend 24).toNat 0 else .jump s (g.pc + off.signExtend 24)

section
variable (s : State) (e : Eng) (rd ra : Reg) (target : BitVec 15)

theorem exec_b (cond : Fin 19) (off : BitVec 13) :
    exec (.b e cond off) s = instr s e 1 (([] : List Reg).map Fin.val) (branchEff s cond off) := rfl
theorem exec_jmp : exec (.jmp e target) s = instr s e 1 (([] : List Reg).map Fin.val) fun _ => .jump s (target.zeroExtend 24) := rfl
theorem exec_call : exec (.call e target) s = instr s e 1 ([(15 : Reg)].map Fin.val) fun g =>
    .jump (setEng s e (setReg g (15 : Reg) (g.pc + 1))) (target.zeroExtend 24) := rfl
theorem exec_jr : exec (.jr e rd ra) s = instr s e 1 ([rd, ra].map Fin.val) fun g =>
    .jump (setEng s e (setReg g rd (g.pc + 1))) (wd (bitsOf (reg g ra).toNat 0 15)) := rfl

end

/-- The low 15 bits of a word. -/
theorem wd_low15 (a : Word) : wd (bitsOf a.toNat 0 15) = a &&& 0x7fff := by
  apply BitVec.eq_of_toNat_eq
  have hand : a.toNat &&& 0x7fff = a.toNat % 2 ^ 15 := Nat.and_two_pow_sub_one_eq_mod a.toNat 15
  rw [bitsOf_zero, wd, BitVec.toNat_ofNat, BitVec.toNat_and]
  change _ = a.toNat &&& 0x7fff
  rw [hand]
  omega

/-! ## Conditions after a difference -/

/-- An engine's flags are those of the difference of a and b. -/
def HasDiffFlags (g : Engine) (a b : Word) : Prop := flags g = diffFlags a b false

section
variable {g : Engine} {a b : Word} (h : HasDiffFlags g a b)
include h

theorem z_of_diffFlags : g.z = decide (a = b) := by
  have hz : g.z = (a - b - wd (b2n false) == 0) := congrArg Prod.fst h
  rw [hz, Bool.eq_iff_iff]
  simp [wd, b2n, BitVec.sub_eq_iff_eq_add]

theorem c_of_diffFlags : g.c = decide (a.toNat < b.toNat) := congrArg (fun f => f.2.2.1) h

/-- The sign of the difference, turned by a signed overflow, is the signed order. -/
theorem n_xor_v_of_diffFlags : (g.n != g.v) = decide (a.toInt < b.toInt) := by
  have hn : g.n = (a - b - wd (b2n false)).msb := congrArg (fun f => f.2.1) h
  have hv : g.v = decide (a.toInt - b.toInt - (b2n false : Int) ≠ (a - b - wd (b2n false)).toInt) := congrArg (fun f => f.2.2.2) h
  rw [hn, hv]
  have ha := a.isLt
  have hb := b.isLt
  have hr := toNat_sub_borrow a b false
  generalize a - b - wd (b2n false) = r at *
  rw [Bool.eq_iff_iff]
  simp only [b2n, Bool.false_eq_true, if_false] at hr ⊢
  simp only [msb_eq_decide, toInt_eq_ite, bne_iff_ne, decide_eq_decide, decide_eq_true_eq, ne_eq]
  omega

end

/-! ## Instructions -/

/-- Settles O13: the outcomes of B by its condition and target, the jumps, and the conditions from the flags of the difference. -/
theorem branchesJumpsAndCalls : Obligations.BranchesJumpsAndCalls := by
  refine ⟨fun e cond off s hruns => ?branch, fun e target rd ra s => ⟨fun hruns => ?jmp, fun hruns => ?call, fun hruns => ?jr⟩,
    fun e rd ra rb s a b ha hb hruns => ?conditions⟩
  case branch =>
    rw [exec_b]
    refine ⟨fun hcond => ?_, fun hcond hnear => ?_, fun hcond hfar htip hloads => ?_⟩
    · have heff : branchEff s cond off (eng s e) = .done s := by simp [branchEff, hcond]
      rw [instr_of_runs_one hruns heff]
      exact ⟨_, rfl, went_retire ..⟩
    · have heff : branchEff s cond off (eng s e) = .jump s ((eng s e).pc + off.signExtend 24) := by simp only [branchEff, hcond, Nat.not_lt.2 hnear, Bool.not_true, Bool.false_eq_true, if_false]
      rw [instr_of_runs_jump hruns heff]
      exact ⟨_, rfl, went_retire ..⟩
    · have heff : branchEff s cond off (eng s e) = .trap 3 ((eng s e).pc + off.signExtend 24).toNat 0 := by simp only [branchEff, hcond, hfar, Bool.not_true, Bool.false_eq_true, if_false, if_true]
      obtain ⟨t, ht, htrapped⟩ := exists_trapped hruns heff htip hloads
      exact ⟨t, ht, wd_toNat ((eng s e).pc + off.signExtend 24) ▸ htrapped⟩
  case jmp =>
    rw [exec_jmp, instr_of_runs_jump hruns rfl]
    exact ⟨_, rfl, went_retire ..⟩
  case call =>
    rw [exec_call, instr_of_runs_jump hruns rfl]
    exact ⟨_, rfl, went_retire_setReg ..⟩
  case jr =>
    rw [exec_jr, instr_of_runs_jump hruns rfl, wd_low15]
    exact ⟨_, rfl, went_retire_setReg ..⟩
  case conditions =>
    obtain ⟨-, -, ⟨t, ht, hcomputed⟩, -⟩ := (sumsAndDifferencesSetFourFlags e rd ra rb 0 s a b _ _ ha hb rfl rfl).1 hruns
    obtain ⟨-, -, hflags, -⟩ := hcomputed
    have hz := z_of_diffFlags (a := a) (b := b) hflags
    have hc := c_of_diffFlags (a := a) (b := b) hflags
    have hnv := n_xor_v_of_diffFlags (a := a) (b := b) hflags
    have hnv' : ((eng t e).n == (eng t e).v) = !decide (a.toInt < b.toInt) := by rw [← hnv, bne, Bool.not_not]
    have heq : a = b ↔ a.toNat = b.toNat := BitVec.toNat_inj.symm
    have heq' : a = b ↔ a.toInt = b.toInt := BitVec.toInt_inj.symm
    refine ⟨t, ht, ?_⟩
    simp only [condHolds, hz, hc, hnv, hnv', ← decide_not, ← Bool.decide_and, ← Bool.decide_or, decide_eq_decide]
    refine ⟨trivial, trivial, trivial, ?hs, ?hi, ?ls, ?ge, trivial, ?gt, ?le⟩
    case hs | ge => omega
    case hi | ls =>
      rw [heq]
      omega
    case gt | le =>
      rw [heq']
      omega

end Sys2Proof.Machine
end

section
/-! LD (R102, R145, R147, R151): how an instruction stalls or traps with its fault raised, what the address map answers, and the statement
about near loads. -/
namespace Sys2Proof.Machine

/-! ## Stalls, and traps after a fault -/

/-- An instruction that runs and stalls leaves the state as it is. -/
theorem instr_of_runs_stall {s : State} {e : Eng} {size : Nat} {uses : List Reg} {body : Engine → Eff} (hruns : Runs s e size uses)
    (hbody : body (eng s e) = .stall) : instr s e size (uses.map Fin.val) body = .next s := by
  obtain ⟨hable, hstep, hpast, hdue, hnoted, hfetch, hloading⟩ := hruns
  rw [instr_runs body hable hstep hpast hdue hnoted hfetch (by simpa [List.any_map] using hloading), hbody]

/-- An instruction that runs and traps after it has made s' of s: the trap is taken in s'. -/
theorem exists_trapped_with {s s' : State} {e : Eng} {size : Nat} {uses : List Reg} {body : Engine → Eff} {c d1 d2 : Nat}
    (hruns : Runs s e size uses) (hbody : body (eng s e) = .trapWith s' c d1 d2) (htip : (eng s' e).tip = false)
    (hloads : loadsOut (eng s e) = false) :
    ∃ t, instr s e size (uses.map Fin.val) body = .next t ∧ Trapped s' t e c (wd d1) (wd d2) := by
  obtain ⟨hable, hstep, hpast, hdue, hnoted, hfetch, hloading⟩ := hruns
  rw [instr_runs body hable hstep hpast hdue hnoted hfetch (by simpa [List.any_map] using hloading), hbody]
  simp only [hloads, Bool.false_eq_true, if_false]
  exact ⟨_, rfl, trapped_takeTrap _ _ _ htip⟩

/-- The memory trap is taken with its fault raised (R104). -/
theorem exists_trapped_eccTrap {s : State} {e : Eng} {size a : Nat} {uses : List Reg} {body : Engine → Eff} (hruns : Runs s e size uses)
    (hbody : body (eng s e) = eccTrap s e a) (htip : (eng s e).tip = false) (hloads : loadsOut (eng s e) = false) :
    ∃ t, instr s e size (uses.map Fin.val) body = .next t ∧
      Trapped (raiseFault (emit0 s 0x040012) 0x040012 (14 + lanternOf e)) t e 9 (wd a) 0 :=
  exists_trapped_with hruns hbody htip hloads

/-! ## What a near load finds -/

section
variable (s : State) (e : Nat) {a : Nat}

theorem nearRead_data (h : a < 0x8000) : nearRead s e a = some (dataW s e a) := if_pos h

theorem nearRead_imem (hlow : 0x10000 ≤ a) (hhigh : a < 0x18000) (hkeeper : (eng s e).kp = true) :
    nearRead s e a = some (imemW s e (a - 0x10000)) := by
  rw [nearRead, if_neg (by omega), if_pos ⟨hlow, hhigh⟩, if_pos hkeeper]

theorem nearRead_win (hlow : 0x20000 ≤ a) (hhigh : a < 0x21000) :
    nearRead s e a = some (winWord (eng s e) (a - 0x20000)) := by
  rw [nearRead, if_neg (by omega), if_neg (by omega), if_pos ⟨hlow, hhigh⟩]

theorem nearRead_desc (hlow : 0x21000 ≤ a) (hhigh : a < 0x21040) :
    nearRead s e a = some (descWord (eng s e).win (a - 0x21000)) := by
  rw [nearRead, if_neg (by omega), if_neg (by omega), if_neg (by omega), if_pos ⟨hlow, hhigh⟩]

theorem nearRead_shared (hlow : 0x80000 ≤ a) (hhigh : a < 0x100000) :
    nearRead s e a = some (sharedW s (lanternOf e) (a - 0x80000)) := by
  rw [nearRead, if_neg (by omega), if_neg (by omega), if_neg (by omega), if_neg (by omega), if_pos ⟨hlow, hhigh⟩]

/-- Outside the address map of its level an engine finds nothing. -/
theorem nearRead_eq_none (h : (0x8000 ≤ a ∧ a < 0x20000 ∧ ¬(0x10000 ≤ a ∧ a < 0x18000 ∧ (eng s e).kp = true)) ∨
    (0x21040 ≤ a ∧ a < 0x80000) ∨ 0x100000 ≤ a) : nearRead s e a = none := by
  unfold nearRead
  by_cases himem : 0x10000 ≤ a ∧ a < 0x18000
  · have huser : (eng s e).kp = false := by
      rw [← Bool.not_eq_true]
      intro hkeeper
      simp only [hkeeper, and_true] at h
      omega
    rw [if_neg (by omega), if_pos himem, huser, if_neg (by decide)]
  · rw [if_neg (by omega), if_neg himem, if_neg (by omega), if_neg (by omega), if_neg (by omega)]

end

/-- A word of the window is its three bytes. -/
theorem winWord_eq (g : Engine) (i : Nat) : winWord g i = wd (ofBytes (winBytes g (3 * i) 3)) := rfl

section
variable (g : Engine) {a : Nat}

/-- Apart from the window and shared memory an access does not stall. -/
theorem nearStall_apart (hshared : a < 0x80000) (hwindow : ¬(0x20000 ≤ a ∧ a < 0x21000)) : nearStall g a = false := by
  simp only [nearStall, Bool.or_eq_false_iff, Bool.and_eq_false_iff, decide_eq_false_iff_not]
  omega

theorem nearStall_win (hlow : 0x20000 ≤ a) (hhigh : a < 0x21000) : nearStall g a = notArrived g (3 * (a - 0x20000)) 3 := by
  have hshared : ¬0x80000 ≤ a := by omega
  simp [nearStall, hlow, hhigh, hshared]

theorem nearStall_shared (hlow : 0x80000 ≤ a) : nearStall g a = inBlock g a := by
  have hwindow : ¬a < 0x21000 := by omega
  simp [nearStall, hlow, hwindow]

end

/-! ## The instruction -/

/-- What LD does to an engine. -/
def ldEff (s : State) (e : Eng) (rd ra : Reg) (imm : BitVec 10) (bad : Bool) (g : Engine) : Eff :=
  match nearRead s e (nearAddr g ra imm) with
  | none => .trap 3 (nearAddr g ra imm) 0
  | some w =>
    if nearStall g (nearAddr g ra imm) then .stall
    else if bad && (nearAddr g ra imm < 0x8000 || 0x80000 ≤ nearAddr g ra imm) then eccTrap s e (nearAddr g ra imm)
    else .done (setEng s e (setReg g rd w))

theorem exec_ld (s : State) (e : Eng) (rd ra : Reg) (imm : BitVec 10) (bad : Bool) :
    exec (.ld e rd ra imm bad) s = instr s e 1 ([rd, ra].map Fin.val) (ldEff s e rd ra imm bad) := rfl

section
variable {s : State} {e : Eng} {rd ra : Reg} {imm : BitVec 10} (hruns : Runs s e 1 [rd, ra])
include hruns

/-- LD of a word that is there and need not be waited for writes it to rd. -/
theorem exec_ld_went {w : Word} (hread : nearRead s e (nearAddr (eng s e) ra imm) = some w)
    (hstall : nearStall (eng s e) (nearAddr (eng s e) ra imm) = false) :
    ∃ t, exec (.ld e rd ra imm false) s = .next t ∧ Went s t e rd w ((eng s e).pc + 1) := by
  have heff : ldEff s e rd ra imm false (eng s e) = .done (setEng s e (setReg (eng s e) rd w)) := by
    simp only [ldEff, hread, hstall, Bool.false_eq_true, if_false, Bool.false_and]
  rw [exec_ld, instr_of_runs_one hruns heff]
  exact ⟨_, rfl, went_retire_setReg ..⟩

theorem exec_ld_stalls {w : Word} (hread : nearRead s e (nearAddr (eng s e) ra imm) = some w)
    (hstall : nearStall (eng s e) (nearAddr (eng s e) ra imm) = true) (bad : Bool) : exec (.ld e rd ra imm bad) s = .next s := by
  have heff : ldEff s e rd ra imm bad (eng s e) = .stall := by simp only [ldEff, hread, hstall, if_true]
  rw [exec_ld, instr_of_runs_stall hruns heff]

theorem exec_ld_ecc {w : Word} (hread : nearRead s e (nearAddr (eng s e) ra imm) = some w)
    (hstall : nearStall (eng s e) (nearAddr (eng s e) ra imm) = false)
    (hplace : nearAddr (eng s e) ra imm < 0x8000 ∨ 0x80000 ≤ nearAddr (eng s e) ra imm)
    (htip : (eng s e).tip = false) (hloads : loadsOut (eng s e) = false) :
    ∃ t, exec (.ld e rd ra imm true) s = .next t ∧
      Trapped (raiseFault (emit0 s 0x040012) 0x040012 (14 + lanternOf e)) t e 9 (wd (nearAddr (eng s e) ra imm)) 0 := by
  have heff : ldEff s e rd ra imm true (eng s e) = eccTrap s e (nearAddr (eng s e) ra imm) := by
    simp [ldEff, hread, hstall, hplace]
  rw [exec_ld]
  exact exists_trapped_eccTrap hruns heff htip hloads

theorem exec_ld_traps (hread : nearRead s e (nearAddr (eng s e) ra imm) = none) (htip : (eng s e).tip = false)
    (hloads : loadsOut (eng s e) = false) (bad : Bool) :
    ∃ t, exec (.ld e rd ra imm bad) s = .next t ∧ Trapped s t e 3 (wd (nearAddr (eng s e) ra imm)) 0 := by
  have heff : ldEff s e rd ra imm bad (eng s e) = .trap 3 (nearAddr (eng s e) ra imm) 0 := by simp only [ldEff, hread]
  rw [exec_ld]
  exact exists_trapped hruns heff htip hloads

end

/-- Settles O14: one case for each region of the address map. -/
theorem nearLoadsFollowTheAddressMap : Obligations.NearLoadsFollowTheAddressMap := by
  intro e rd ra imm s a ha hruns
  replace ha : a = nearAddr (eng s e) ra imm := ha
  subst ha
  refine ⟨fun hdata => ?data, fun hlow hhigh hkeeper => ?imem, fun hlow hhigh harrived => ?window, fun hlow hhigh => ?desc,
    fun hlow hhigh hblock => ?shared, ?stalls, fun hout htip hloads => ?traps, ?ecc⟩
  case data => exact exec_ld_went hruns (nearRead_data _ _ hdata) (nearStall_apart _ (by omega) (by omega))
  case imem => exact exec_ld_went hruns (nearRead_imem _ _ hlow hhigh hkeeper) (nearStall_apart _ (by omega) (by omega))
  case window =>
    rw [← winWord_eq]
    exact exec_ld_went hruns (nearRead_win _ _ hlow hhigh) ((nearStall_win _ hlow hhigh).trans harrived)
  case desc => exact exec_ld_went hruns (nearRead_desc _ _ hlow hhigh) (nearStall_apart _ (by omega) (by omega))
  case shared => exact exec_ld_went hruns (nearRead_shared _ _ hlow hhigh) ((nearStall_shared _ hlow).trans hblock)
  case stalls =>
    rintro (⟨hlow, hhigh, hmissing⟩ | ⟨hlow, hhigh, hblock⟩)
    · exact exec_ld_stalls hruns (nearRead_win _ _ hlow hhigh) ((nearStall_win _ hlow hhigh).trans hmissing) false
    · exact exec_ld_stalls hruns (nearRead_shared _ _ hlow hhigh) ((nearStall_shared _ hlow).trans hblock) false
  case traps => exact exec_ld_traps hruns (nearRead_eq_none s e hout) htip hloads false
  case ecc =>
    rintro (hdata | ⟨hlow, hhigh, hblock⟩) htip hloads
    · exact exec_ld_ecc hruns (nearRead_data _ _ hdata) (nearStall_apart _ (by omega) (by omega)) (.inl hdata) htip hloads
    · exact exec_ld_ecc hruns (nearRead_shared _ _ hlow hhigh) ((nearStall_shared _ hlow).trans hblock) (.inr hlow) htip hloads

end Sys2Proof.Machine
end

section
/-! The packet window's bytes (R102, R148, R151): what a store into the window leaves there, and the statement about PLD and PST. -/
namespace Sys2Proof.Machine

/-! ## Bytes -/

@[simp] theorem length_toBytes (n v : Nat) : (toBytes n v).length = n := by
  induction n with
  | zero => rfl
  | succ n ih => simp [toBytes, ih]

/-- Byte i of n bytes, the first the most significant. -/
theorem getD_toBytes {n i : Nat} (v : Nat) (h : i < n) : (toBytes n v).getD i 0 = by8 (v / 256 ^ (n - 1 - i)) := by
  induction n generalizing i with
  | zero => omega
  | succ n ih =>
    cases i with
    | zero => rfl
    | succ i =>
      have hexp : n + 1 - 1 - (i + 1) = n - 1 - i := by omega
      rw [toBytes, List.getD_cons_succ, ih (by omega), hexp]

/-- A list stored at consecutive keys stands there, and every other key is as before. -/
theorem tget_foldl_mapIdx {α : Type} [DecidableEq α] (d : Nat → α) (x : α) (bs : List α) (o k : Nat) (t : Tab α) :
    tget d ((bs.mapIdx fun i b => (o + i, b)).foldl (fun t p => tset d t p.1 p.2) t) k =
      if o ≤ k ∧ k < o + bs.length then bs.getD (k - o) x else tget d t k := by
  induction bs generalizing o t with
  | nil => simp
  | cons b bs ih =>
    have hshift : (bs.mapIdx fun i b => (o + (i + 1), b)) = bs.mapIdx fun i b => (o + 1 + i, b) := by
      congr 1; funext i b; rw [Nat.add_right_comm, Nat.add_assoc]
    rw [List.mapIdx_cons, hshift, List.foldl_cons, ih, List.length_cons, tget_tset]
    obtain hlt | rfl | hgt := Nat.lt_trichotomy k o
    · rw [if_neg (by omega), if_neg (by omega), if_neg (by omega)]
    · rw [if_neg (by omega), if_pos (Nat.add_zero k).symm, if_pos (by omega), Nat.sub_self, List.getD_cons_zero]
    · have hnext : k - o = k - (o + 1) + 1 := by omega
      have hne : k ≠ o + 0 := by omega
      rw [if_neg hne, hnext, List.getD_cons_succ]
      exact if_congr (by omega) rfl rfl

/-- The window's bytes after n bytes were stored. -/
theorem tget_putWin (w : Window) (o n v k : Nat) :
    tget (fun _ => 0) (putWin w o (toBytes n v)).buf k =
      if o ≤ k ∧ k < o + n then by8 (v / 256 ^ (n - 1 - (k - o))) else tget (fun _ => 0) w.buf k := by
  simp only [putWin, tget_foldl_mapIdx _ (0 : Byte), length_toBytes]
  split
  · exact getD_toBytes v (by omega)
  · rfl

/-! ## The instructions -/

/-- What PLDn does to an engine. -/
def pldEff (s : State) (e : Eng) (rd ra : Reg) (imm : BitVec 10) (n : Nat) (g : Engine) : Eff :=
  if 12288 < winOff g ra imm + n then .trap 3 (winOff g ra imm) 0
  else if notArrived g (winOff g ra imm) n then .stall
  else .done (setEng s e (setReg g rd (wd (ofBytes (winBytes g (winOff g ra imm) n)))))

/-- What PSTn does to an engine. -/
def pstEff (s : State) (e : Eng) (rd ra : Reg) (imm : BitVec 10) (n : Nat) (g : Engine) : Eff :=
  if 12288 < winOff g ra imm + n then .trap 3 (winOff g ra imm) 0
  else if notArrived g (winOff g ra imm) n then .stall
  else .done (setEng s e { g with win := putWin g.win (winOff g ra imm) (toBytes n (reg g rd).toNat) })

theorem pld_eq (s : State) (e : Eng) (rd ra : Reg) (imm : BitVec 10) (n : Nat) :
    pld s e rd ra imm n = instr s e 1 ([rd, ra].map Fin.val) (pldEff s e rd ra imm n) := rfl

theorem pst_eq (s : State) (e : Eng) (rd ra : Reg) (imm : BitVec 10) (n : Nat) :
    pst s e rd ra imm n = instr s e 1 ([rd, ra].map Fin.val) (pstEff s e rd ra imm n) := rfl

section
variable {s : State} {e : Eng} {rd ra : Reg} {imm : BitVec 10} {n o : Nat} (hruns : Runs s e 1 [rd, ra]) (ho : winOff (eng s e) ra imm = o)
include hruns ho

theorem pld_went (hend : o + n ≤ 12288) (harrived : notArrived (eng s e) o n = false) :
    ∃ t, pld s e rd ra imm n = .next t ∧ Went s t e rd (wd (ofBytes (winBytes (eng s e) o n))) ((eng s e).pc + 1) := by
  subst ho
  have heff : pldEff s e rd ra imm n (eng s e) =
      .done (setEng s e (setReg (eng s e) rd (wd (ofBytes (winBytes (eng s e) (winOff (eng s e) ra imm) n))))) := by
    rw [pldEff, if_neg (Nat.not_lt.2 hend), harrived, if_neg (by decide)]
  rw [pld_eq, instr_of_runs_one hruns heff]
  exact ⟨_, rfl, went_retire_setReg ..⟩

/-- PSTn that may store retires with its bytes in the window. -/
theorem pst_retires (hend : o + n ≤ 12288) (harrived : notArrived (eng s e) o n = false) :
    pst s e rd ra imm n =
      .next (retire (setEng s e { eng s e with win := putWin (eng s e).win o (toBytes n (reg (eng s e) rd).toNat) }) e ((eng s e).pc + 1)) := by
  subst ho
  have heff : pstEff s e rd ra imm n (eng s e) =
      .done (setEng s e { eng s e with win := putWin (eng s e).win (winOff (eng s e) ra imm) (toBytes n (reg (eng s e) rd).toNat) }) := by
    rw [pstEff, if_neg (Nat.not_lt.2 hend), harrived, if_neg (by decide)]
  rw [pst_eq, instr_of_runs_one hruns heff]

/-- Both stall on bytes that have not arrived. -/
theorem pld_pst_stall (hend : o + n ≤ 12288) (hmissing : notArrived (eng s e) o n = true) :
    pld s e rd ra imm n = .next s ∧ pst s e rd ra imm n = .next s := by
  subst ho
  rw [pld_eq, pst_eq]
  constructor <;> refine instr_of_runs_stall hruns ?_
  · rw [pldEff, if_neg (Nat.not_lt.2 hend), if_pos hmissing]
  · rw [pstEff, if_neg (Nat.not_lt.2 hend), if_pos hmissing]

/-- Both trap on a span beyond the window's end. -/
theorem pld_pst_trap (hend : 12288 < o + n) (htip : (eng s e).tip = false) (hloads : loadsOut (eng s e) = false) :
    (∃ t, pld s e rd ra imm n = .next t ∧ Trapped s t e 3 (wd o) 0) ∧ ∃ t, pst s e rd ra imm n = .next t ∧ Trapped s t e 3 (wd o) 0 := by
  subst ho
  rw [pld_eq, pst_eq]
  constructor <;> refine exists_trapped hruns (d2 := 0) ?_ htip hloads
  · rw [pldEff, if_pos hend]
  · rw [pstEff, if_pos hend]

end

/-- Settles O16: the three widths are one instruction of n bytes. -/
theorem windowBytesLoadAndStore : Obligations.WindowBytesLoadAndStore := by
  intro e rd ra imm s o n load store ho hform hruns
  replace ho : winOff (eng s e) ra imm = o := ho.symm
  have hload : exec load s = pld s e rd ra imm n := by obtain ⟨rfl, rfl, rfl⟩ | ⟨rfl, rfl, rfl⟩ | ⟨rfl, rfl, rfl⟩ := hform <;> rfl
  have hstore : exec store s = pst s e rd ra imm n := by obtain ⟨rfl, rfl, rfl⟩ | ⟨rfl, rfl, rfl⟩ | ⟨rfl, rfl, rfl⟩ := hform <;> rfl
  rw [hload, hstore]
  refine ⟨fun hend harrived => ⟨pld_went hruns ho hend harrived, ?stores⟩, fun hend hmissing => pld_pst_stall hruns ho hend hmissing,
    fun hend htip hloads => pld_pst_trap hruns ho hend htip hloads⟩
  refine ⟨_, pst_retires hruns ho hend harrived, onlyEngine_retire .., fun k => ?regs, ?flags, goesOnAt_retire .., fun k => ?bytes, ?window, ?rest⟩
  case regs => rw [reg_retire, eng_setEng_same]; rfl
  case flags => rw [flags_retire, eng_setEng_same]; rfl
  case bytes => rw [eng_retire, eng_setEng_same]; exact tget_putWin ..
  case window => rw [eng_retire, eng_setEng_same]; rfl
  case rest => rw [eng_retire, eng_setEng_same]; rfl

end Sys2Proof.Machine
end

section
/-! Near stores (R102, R160): what they leave as it was, for each region of the address map. -/
namespace Sys2Proof.Machine

/-! ## What a store leaves as it was -/

/-- s1 is s but for near word a of engine e: every other near word, every other engine's memories, every other lantern's shared memory and
everything else read as before, and the engines of the lantern that watch the word have their latch set (R102, R160). -/
structure NearWrote (s s1 : State) (e : Eng) (a : Nat) : Prop where
  near : ∀ b, b ≠ a → nearRead s1 e b = nearRead s e b
  latch : ∀ k, k < 192 → (eng s1 k).watchL =
    ((eng s k).watchL || decide (k / 8 = e.val / 8 ∧ 0x80000 ≤ a ∧ (eng s k).watch = some (a - 0x80000)))
  own : { eng s1 e with watchL := false, win := idleWin } = { eng s e with watchL := false, win := idleWin }
  others : ∀ k, k ≠ e.val → { eng s1 k with watchL := false } = { eng s k with watchL := false }
  data : ∀ k b, k ≠ e.val → b < 32768 → dataW s1 k b = dataW s k b
  shared : ∀ l b, l ≠ lanternOf e → b < 524288 → sharedW s1 l b = sharedW s l b
  frame : { s1 with engs := s.engs, data := s.data, shared := s.shared } = s

/-- What an engine that goes on finds at near addresses: what it found before. -/
theorem nearRead_of_onlyEngine {s t : State} {e : Eng} (honly : OnlyEngine s t e) (hrest : engRest (eng t e) = engRest (eng s e)) (a : Nat) :
    nearRead t e a = nearRead s e a := by
  have hdata : t.data = s.data := (congrArg State.data honly.1 :)
  have himem : t.imem = s.imem := (congrArg State.imem honly.1 :)
  have hshared : t.shared = s.shared := (congrArg State.shared honly.1 :)
  have hkeeper : (eng t e).kp = (eng s e).kp := (congrArg Engine.kp hrest :)
  have hwin : (eng t e).win = (eng s e).win := (congrArg Engine.win hrest :)
  simp only [nearRead, dataW, imemW, sharedW, winWord, hdata, himem, hshared, hkeeper, hwin]

/-- An engine that has stored and then completed its instruction has `Stored`. -/
theorem stored_of_nearWrote {s s1 t : State} {e : Eng} {a : Nat} {rd : Reg} {r : Word} {f : Bool × Bool × Bool × Bool}
    (hwrote : NearWrote s s1 e a) (hdone : Computed s1 t e 1 rd r f) : Stored s t e a rd r f := by
  obtain ⟨honly, hregs, hflags, hpc, hrest⟩ := hdone
  obtain ⟨hframe, hothers⟩ := honly
  have hown := hwrote.own
  have hreg (k : Nat) : reg (eng s1 e) k = reg (eng s e) k := (congrArg (fun g => reg g k) hown :)
  have hnr : (eng s1 e).nr = (eng s e).nr := (congrArg Engine.nr hown :)
  have hpc1 : (eng s1 e).pc = (eng s e).pc := (congrArg Engine.pc hown :)
  refine ⟨fun k => ?regs, hflags, (congrArg Engine.nr hrest :).trans hnr, hpc1 ▸ hpc, fun b hb => ?near, fun k hk => ?latch,
    fun k _ hk => ?others, ?own, fun k b _ hk hb => ?data, fun l b _ hl hb => ?shared, ?frame⟩
  case regs => rw [hregs k, hreg]
  case near => rw [nearRead_of_onlyEngine ⟨hframe, hothers⟩ hrest, hwrote.near b hb]
  case latch =>
    rw [← hwrote.latch k hk]
    by_cases hke : k = e
    · subst hke; exact (congrArg Engine.watchL hrest :)
    · rw [hothers k hke]
  case others => rw [hothers k hk]; exact hwrote.others k hk
  case own =>
    rw [hrest]
    exact (congrArg engRest hown :)
  case data =>
    have hdata : t.data = s1.data := (congrArg State.data hframe :)
    rw [dataW, hdata]; exact hwrote.data k b hk hb
  case shared =>
    have hshared : t.shared = s1.shared := (congrArg State.shared hframe :)
    rw [sharedW, hshared]; exact hwrote.shared l b hl hb
  case frame =>
    calc { t with engs := s.engs, data := s.data, shared := s.shared }
        = { { t with engs := s1.engs } with engs := s.engs, data := s.data, shared := s.shared } := rfl
      _ = { s1 with engs := s.engs, data := s.data, shared := s.shared } := by rw [hframe]
      _ = s := hwrote.frame

/-! ## What each store changes -/

theorem nearWrote_setData (s : State) (e : Eng) {a : Nat} (v : Word) (ha : a < 0x8000) : NearWrote s (setData s e a v) e a where
  near b hb := by
    have hword (h : b < 0x8000) : dataW (setData s e a v) e b = dataW s e b := by rw [dataW_setData, if_neg (by omega)]
    unfold nearRead
    split
    · rw [hword ‹_›]
    · rfl
  latch k _ := by
    have hplace : ¬0x80000 ≤ a := by omega
    simp [hplace]
  own := rfl
  others _ _ := rfl
  data k b hk hb := by rw [dataW_setData, if_neg (by omega)]
  shared _ _ _ _ := rfl
  frame := rfl

/-- A change of the window is seen in the words of the window and of the descriptor alone. -/
theorem nearRead_setWin (s : State) (e : Nat) (w : Window) {b : Nat}
    (hbytes : ∀ i, b = 0x20000 + i → winWord { eng s e with win := w } i = winWord (eng s e) i)
    (hdesc : ∀ i, b = 0x21000 + i → descWord w i = descWord (eng s e).win i) :
    nearRead (setEng s e { eng s e with win := w }) e b = nearRead s e b := by
  by_cases hw : 0x20000 ≤ b ∧ b < 0x21000
  · rw [nearRead_win _ _ hw.1 hw.2, nearRead_win _ _ hw.1 hw.2, eng_setEng_same, hbytes _ (by omega)]
  by_cases hd : 0x21000 ≤ b ∧ b < 0x21040
  · rw [nearRead_desc _ _ hd.1 hd.2, nearRead_desc _ _ hd.1 hd.2, eng_setEng_same, hdesc _ (by omega)]
  simp only [nearRead, if_neg hw, if_neg hd, eng_setEng_same]
  rfl

/-- A change of the window that near word a alone shows. -/
theorem nearWrote_setWin (s : State) (e : Eng) {a : Nat} (w : Window) (ha : a < 0x80000)
    (hbytes : ∀ i, 0x20000 + i ≠ a → winWord { eng s e with win := w } i = winWord (eng s e) i)
    (hdesc : ∀ i, 0x21000 + i ≠ a → descWord w i = descWord (eng s e).win i) :
    NearWrote s (setEng s e { eng s e with win := w }) e a where
  near b hb := nearRead_setWin s e w (fun i hi => hbytes i (hi ▸ hb)) fun i hi => hdesc i (hi ▸ hb)
  latch k _ := by
    have hplace : ¬0x80000 ≤ a := by omega
    by_cases hke : k = e
    · subst hke; simp [hplace]
    · simp [hplace, eng_setEng_other _ _ hke]
  own := by rw [eng_setEng_same]
  others k hk := by rw [eng_setEng_other _ _ hk]
  data _ _ _ _ := rfl
  shared _ _ _ _ := rfl
  frame := rfl

/-- Word i of the window after word j was stored. -/
theorem winWord_putWin (g : Engine) (i j : Nat) (v : Word) :
    winWord { g with win := putWin g.win (3 * j) (wordBytes v) } i = if i = j then v else winWord g i := by
  simp only [winWord, wordBytes, tget_putWin]
  by_cases hij : i = j
  · subst hij
    apply BitVec.eq_of_toNat_eq
    have hv := v.isLt
    simp [ofBytes, BitVec.toNat_ofNat]
    omega
  · rw [if_neg hij, if_neg (by omega), if_neg (by omega), if_neg (by omega)]

/-- A stored window leaves the descriptor. -/
theorem descWord_putWin (w : Window) (o : Nat) (bs : List Byte) (i : Nat) : descWord (putWin w o bs) i = descWord w i := rfl

/-- A descriptor's write leaves its other words. -/
theorem descWord_putDesc_other (w : Window) {i j : Nat} (v : Word) (h : i ≠ j) : descWord (putDesc w j v) i = descWord w i := by
  unfold putDesc
  split_ifs with _ h0 h1 h5 h6
  · rfl
  · refine if_congr Iff.rfl rfl (congrArg wd ?_)
    split
    case h_1 => exact absurd h0.symm h
    all_goals rfl
  · refine if_congr Iff.rfl rfl (congrArg wd ?_)
    split
    case h_2 => exact absurd h1.symm h
    all_goals rfl
  · refine if_congr Iff.rfl rfl (congrArg wd ?_)
    split
    case h_6 => exact absurd h5.symm h
    all_goals rfl
  · refine if_congr Iff.rfl rfl (congrArg wd ?_)
    split
    case h_7 => exact absurd h6.symm h
    all_goals rfl
  · rfl

theorem winWord_putDesc (g : Engine) (i j : Nat) (v : Word) : winWord { g with win := putDesc g.win j v } i = winWord g i := by
  have hbuf : (putDesc g.win j v).buf = g.win.buf := by
    unfold putDesc
    split_ifs <;> rfl
  simp only [winWord, hbuf]

/-! ## Shared memory and its watches -/

/-- The engines of a list of places in a lantern whose watch stands on the word have their latch set. -/
theorem eng_foldl_watch (l a k : Nat) (ks : List Nat) (s : State) :
    eng (ks.foldl (fun s k => if (eng s (8 * l + k)).watch = some a then setEng s (8 * l + k) { eng s (8 * l + k) with watchL := true } else s) s) k =
      if (∃ j ∈ ks, k = 8 * l + j) ∧ (eng s k).watch = some a then { eng s k with watchL := true } else eng s k := by
  induction ks generalizing s with
  | nil => simp
  | cons j ks ih =>
    rw [List.foldl_cons, ih]
    by_cases hkj : k = 8 * l + j
    · subst hkj
      by_cases hwatch : (eng s (8 * l + j)).watch = some a <;> simp [hwatch]
    · have hstep : eng (if (eng s (8 * l + j)).watch = some a then setEng s (8 * l + j) { eng s (8 * l + j) with watchL := true } else s) k =
          eng s k := by
        split
        · exact eng_setEng_other _ _ hkj
        · rfl
      simp only [hstep, List.mem_cons, exists_eq_or_imp, hkj, false_or]

theorem eng_watchHit (s : State) (l a k : Nat) :
    eng (watchHit s l a) k = if k / 8 = l ∧ (eng s k).watch = some a then { eng s k with watchL := true } else eng s k := by
  have hplace : (∃ j ∈ List.range 8, k = 8 * l + j) ↔ k / 8 = l := by
    simp only [List.mem_range]
    exact ⟨fun ⟨j, hj, hk⟩ => by omega, fun h => ⟨k % 8, by omega, by omega⟩⟩
  rw [watchHit, eng_foldl_watch]
  exact if_congr (and_congr_left' hplace) rfl rfl

theorem watchHit_frame (s : State) (l a : Nat) : { watchHit s l a with engs := s.engs } = s := by
  unfold watchHit
  generalize List.range 8 = ks
  suffices h : ∀ s', { s' with engs := s.engs } = s →
      { ks.foldl (fun s k => if (eng s (8 * l + k)).watch = some a then setEng s (8 * l + k) { eng s (8 * l + k) with watchL := true } else s) s'
        with engs := s.engs } = s from h s rfl
  induction ks with
  | nil => exact fun _ h => h
  | cons k ks ih =>
    intro s' h
    rw [List.foldl_cons]
    apply ih
    split
    · exact h
    · exact h

theorem eng_setShared (s : State) (l a k : Nat) (v : Word) :
    eng (setShared s l a v) k = if k / 8 = l ∧ (eng s k).watch = some a then { eng s k with watchL := true } else eng s k :=
  eng_watchHit ..

theorem sharedW_setShared (s : State) (l a k b : Nat) (v : Word) :
    sharedW (setShared s l a v) k b = if k * 524288 + b = l * 524288 + a then v else sharedW s k b := by
  have hshared : (setShared s l a v).shared = tset (fun _ => 0) s.shared (l * 524288 + a) v :=
    (congrArg State.shared (watchHit_frame { s with shared := tset (fun _ => 0) s.shared (l * 524288 + a) v } l a) :)
  rw [sharedW, hshared, tget_tset]
  rfl

theorem setShared_frame (s : State) (l a : Nat) (v : Word) : { setShared s l a v with engs := s.engs, shared := s.shared } = s := by
  have hframe := watchHit_frame { s with shared := tset (fun _ => 0) s.shared (l * 524288 + a) v } l a
  unfold setShared
  generalize watchHit _ l a = t at hframe ⊢
  exact (congrArg (fun x : State => { x with shared := s.shared }) hframe :)

/-- But for their latches no engine is changed by a store to shared memory. -/
theorem eng_setShared_latch (s : State) (l a k : Nat) (v : Word) :
    { eng (setShared s l a v) k with watchL := false } = { eng s k with watchL := false } := by
  rw [eng_setShared]
  split <;> rfl

theorem nearWrote_setShared (s : State) (e : Eng) {a : Nat} (v : Word) (hlow : 0x80000 ≤ a) (hhigh : a < 0x100000) :
    NearWrote s (setShared s (lanternOf e) (a - 0x80000) v) e a where
  near b hb := by
    have hvalue (c : Nat) := sharedW_setShared s (lanternOf e) (a - 0x80000) (lanternOf e) c v
    have hframe := setShared_frame s (lanternOf e) (a - 0x80000) v
    have hlatch := eng_setShared_latch s (lanternOf e) (a - 0x80000) e v
    generalize setShared s (lanternOf e) (a - 0x80000) v = t at hvalue hframe hlatch ⊢
    have hdata : t.data = s.data := (congrArg State.data hframe :)
    have himem : t.imem = s.imem := (congrArg State.imem hframe :)
    have hkeeper : (eng t e).kp = (eng s e).kp := (congrArg Engine.kp hlatch :)
    have hwin : (eng t e).win = (eng s e).win := (congrArg Engine.win hlatch :)
    by_cases hb' : 0x80000 ≤ b ∧ b < 0x100000
    · rw [nearRead_shared _ _ hb'.1 hb'.2, nearRead_shared _ _ hb'.1 hb'.2, hvalue, if_neg (by omega)]
    · simp only [nearRead, if_neg hb', dataW, imemW, winWord, hdata, himem, hkeeper, hwin]
  latch k _ := by
    rw [eng_setShared]
    by_cases h : k / 8 = lanternOf e ∧ (eng s k).watch = some (a - 0x80000)
    · have hsame : k / 8 = e.val / 8 := h.1
      rw [if_pos h]
      simp [hsame, h.2, hlow]
    · rw [if_neg h]
      have hnot : ¬(k / 8 = e.val / 8 ∧ 0x80000 ≤ a ∧ (eng s k).watch = some (a - 0x80000)) := fun ⟨hk, _, hwatch⟩ => h ⟨hk, hwatch⟩
      simp [hnot]
  own := by
    have hlatch := eng_setShared_latch s (lanternOf e) (a - 0x80000) e v
    generalize eng (setShared s (lanternOf e) (a - 0x80000) v) e = g at hlatch ⊢
    exact (congrArg (fun g : Engine => { g with win := idleWin }) hlatch :)
  others k _ := eng_setShared_latch ..
  data k b _ _ := by
    have hdata : (setShared s (lanternOf e) (a - 0x80000) v).data = s.data :=
      (congrArg State.data (setShared_frame s (lanternOf e) (a - 0x80000) v) :)
    rw [dataW, hdata]; rfl
  shared l b hl hb := by rw [sharedW_setShared, if_neg (by omega)]
  frame := by
    have hframe := setShared_frame s (lanternOf e) (a - 0x80000) v
    generalize setShared s (lanternOf e) (a - 0x80000) v = t at hframe ⊢
    exact (congrArg (fun x : State => { x with data := s.data }) hframe :)

end Sys2Proof.Machine
end

section
/-! ST, XADD and CAS (R102, R145 to R147, R153): what each does to an engine, and the statement about them. -/
namespace Sys2Proof.Machine

/-! ## What a near store makes of the state -/

/-- A store that the address map admits changes its word. -/
theorem exists_nearWrite {s : State} {e : Eng} {a : Nat} (hok : storeOk s e a) (v : Word) :
    ∃ s1, nearWrite s e a v = some s1 ∧ NearWrote s s1 e a ∧
      (0x21000 ≤ a ∧ a < 0x21040 → (eng s1 e).win = putDesc (eng s e).win (a - 0x21000) v) ∧
      (¬(0x21000 ≤ a ∧ a < 0x21040) → nearRead s1 e a = some v) := by
  by_cases hdata : a < 0x8000
  · have hwrite : nearWrite s e a v = some (setData s e a v) := by
      by_cases hrecord : a < 0x7ff8
      · exact if_pos hrecord
      · have hkeeper : (eng s e).kp = true := by
          obtain h | ⟨_, h⟩ | h | h := hok
          · exact absurd h hrecord
          · exact h
          all_goals omega
        simp only [nearWrite, if_neg hrecord, if_pos hdata, if_pos hkeeper]
    exact ⟨_, hwrite, nearWrote_setData s e v hdata, fun h => absurd h (by omega),
      fun _ => by rw [nearRead_data _ _ hdata, dataW_setData, if_pos rfl]⟩
  by_cases hwindow : 0x20000 ≤ a ∧ a < 0x21000
  · have hwrite : nearWrite s e a v =
        some (setEng s e { eng s e with win := putWin (eng s e).win (3 * (a - 0x20000)) (wordBytes v) }) := by
      rw [nearWrite, if_neg (by omega), if_neg hdata, if_pos hwindow]
    refine ⟨_, hwrite, nearWrote_setWin s e _ (by omega) (fun i hi => ?_) fun i _ => descWord_putWin .., fun h => absurd h (by omega), fun _ => ?_⟩
    · rw [winWord_putWin, if_neg (by omega)]
    · rw [nearRead_win _ _ hwindow.1 hwindow.2, eng_setEng_same, winWord_putWin, if_pos rfl]
  by_cases hdesc : 0x21000 ≤ a ∧ a < 0x21040
  · have hwrite : nearWrite s e a v = some (setEng s e { eng s e with win := putDesc (eng s e).win (a - 0x21000) v }) := by
      rw [nearWrite, if_neg (by omega), if_neg hdata, if_neg hwindow, if_pos hdesc]
    refine ⟨_, hwrite, nearWrote_setWin s e _ (by omega) (fun i _ => winWord_putDesc ..) fun i hi => ?_, fun _ => ?_, fun h => absurd hdesc h⟩
    · exact descWord_putDesc_other _ _ (by omega)
    · rw [eng_setEng_same]
  have hshared : 0x80000 ≤ a ∧ a < 0x100000 := by
    obtain h | ⟨h, _⟩ | h | h := hok <;> omega
  have hwrite : nearWrite s e a v = some (setShared s (lanternOf e) (a - 0x80000) v) := by
    rw [nearWrite, if_neg (by omega), if_neg hdata, if_neg hwindow, if_neg hdesc, if_pos hshared]
  exact ⟨_, hwrite, nearWrote_setShared s e v hshared.1 hshared.2, fun h => absurd h hdesc,
    fun _ => by rw [nearRead_shared _ _ hshared.1 hshared.2, sharedW_setShared, if_pos rfl]⟩

/-- A store that the address map refuses finds no place. -/
theorem nearWrite_eq_none {s : State} {e : Eng} {a : Nat} (hno : ¬storeOk s e a) (v : Word) : nearWrite s e a v = none := by
  simp only [storeOk, not_or, not_and, Bool.not_eq_true] at hno
  obtain ⟨hdata, hrecord, hwindow, hshared⟩ := hno
  unfold nearWrite
  rw [if_neg hdata]
  by_cases h : a < 0x8000
  · simp [h, hrecord h]
  · rw [if_neg h, if_neg (by omega), if_neg (by omega), if_neg (by omega)]

/-- The pc of an engine after its store is the one before. -/
theorem NearWrote.pc {s s1 : State} {e : Eng} {a : Nat} (h : NearWrote s s1 e a) : (eng s1 e).pc = (eng s e).pc :=
  (congrArg Engine.pc h.own :)

theorem NearWrote.flags {s s1 : State} {e : Eng} {a : Nat} (h : NearWrote s s1 e a) : flags (eng s1 e) = flags (eng s e) :=
  (congrArg Machine.flags h.own :)

theorem computed_retire (s : State) (e : Eng) : Computed s (retire s e ((eng s e).pc + 1)) e 1 0 0 (flags (eng s e)) :=
  ⟨onlyEngine_retire_self .., fun k => by rw [reg_retire, if_neg (by simp)], flags_retire .., goesOnAt_retire .., engRest_retire ..⟩

/-! ## ST -/

/-- What ST does to an engine. -/
def stEff (s : State) (e : Eng) (rd ra : Reg) (imm : BitVec 10) (g : Engine) : Eff :=
  match nearWrite s e (nearAddr g ra imm) (reg g rd) with
  | none =>
    if !g.kp && 0x7ff8 ≤ nearAddr g ra imm && nearAddr g ra imm < 0x8000 then .trap 2 (encI 0x11 rd ra imm.toNat).toNat 0
    else .trap 3 (nearAddr g ra imm) 0
  | some s' => if nearStall g (nearAddr g ra imm) then .stall else .done s'

theorem exec_st (s : State) (e : Eng) (rd ra : Reg) (imm : BitVec 10) :
    exec (.st e rd ra imm) s = instr s e 1 ([rd, ra].map Fin.val) (stEff s e rd ra imm) := rfl

section
variable {s : State} {e : Eng} {rd ra : Reg} {imm : BitVec 10} {a : Nat} (ha : nearAddr (eng s e) ra imm = a) (hruns : Runs s e 1 [rd, ra])
include ha hruns

theorem exec_st_stored (hok : storeOk s e a) (hstall : nearStall (eng s e) a = false) :
    ∃ t, exec (.st e rd ra imm) s = .next t ∧ Stored s t e a 0 0 (flags (eng s e)) ∧
      (0x21000 ≤ a ∧ a < 0x21040 → (eng t e).win = putDesc (eng s e).win (a - 0x21000) (reg (eng s e) rd)) ∧
      (¬(0x21000 ≤ a ∧ a < 0x21040) → nearRead t e a = some (reg (eng s e) rd)) := by
  subst ha
  obtain ⟨s1, hwrite, hwrote, hdesc, hvalue⟩ := exists_nearWrite hok (reg (eng s e) rd)
  have heff : stEff s e rd ra imm (eng s e) = .done s1 := by simp only [stEff, hwrite, hstall, Bool.false_eq_true, if_false]
  rw [exec_st, instr_of_runs_one hruns heff, ← hwrote.pc]
  refine ⟨_, rfl, stored_of_nearWrote hwrote (hwrote.flags ▸ computed_retire s1 e), fun h => ?desc, fun h => ?value⟩
  case desc => rw [eng_retire]; exact hdesc h
  case value => rw [nearRead_of_onlyEngine (onlyEngine_retire_self ..) (engRest_retire ..)]; exact hvalue h

theorem exec_st_stalls (hok : storeOk s e a) (hstall : nearStall (eng s e) a = true) : exec (.st e rd ra imm) s = .next s := by
  subst ha
  obtain ⟨s1, hwrite, _⟩ := exists_nearWrite hok (reg (eng s e) rd)
  have heff : stEff s e rd ra imm (eng s e) = .stall := by simp only [stEff, hwrite, hstall, if_true]
  rw [exec_st, instr_of_runs_stall hruns heff]

theorem exec_st_privilege (hlow : 0x7ff8 ≤ a) (hhigh : a < 0x8000) (huser : (eng s e).kp = false) (htip : (eng s e).tip = false)
    (hloads : loadsOut (eng s e) = false) :
    ∃ t, exec (.st e rd ra imm) s = .next t ∧ Trapped s t e 2 (encI 0x11 rd ra imm.toNat) 0 := by
  subst ha
  have hno : ¬storeOk s e (nearAddr (eng s e) ra imm) := by
    simp only [storeOk, huser, Bool.false_eq_true, and_false, false_or]
    omega
  have heff : stEff s e rd ra imm (eng s e) = .trap 2 (encI 0x11 rd ra imm.toNat).toNat 0 := by
    simp [stEff, nearWrite_eq_none hno, huser, hlow, hhigh]
  rw [exec_st, ← wd_toNat (encI 0x11 rd ra imm.toNat)]
  exact exists_trapped hruns heff htip hloads

theorem exec_st_address (hno : ¬storeOk s e a) (hrecord : ¬(0x7ff8 ≤ a ∧ a < 0x8000)) (htip : (eng s e).tip = false)
    (hloads : loadsOut (eng s e) = false) : ∃ t, exec (.st e rd ra imm) s = .next t ∧ Trapped s t e 3 (wd a) 0 := by
  subst ha
  have heff : stEff s e rd ra imm (eng s e) = .trap 3 (nearAddr (eng s e) ra imm) 0 := by
    rw [stEff, nearWrite_eq_none hno]
    exact if_neg fun h => hrecord (by simpa [and_assoc] using (by simpa [and_assoc] using h : _ ∧ _ ∧ _).2)
  rw [exec_st]
  exact exists_trapped hruns heff htip hloads

end

/-! ## XADD and CAS -/

/-- What XADD does to an engine. -/
def xaddEff (s : State) (e : Eng) (rd : Reg) (ra : AddrReg) (rb : Reg) (g : Engine) : Eff :=
  match nearRead s e (reg g ra.reg).toNat, nearWrite s e (reg g ra.reg).toNat ((nearRead s e (reg g ra.reg).toNat).getD 0 + reg g rb) with
  | some w, some s' =>
    if !atomicOk (reg g ra.reg).toNat then .trap 3 (reg g ra.reg).toNat 0
    else if nearStall g (reg g ra.reg).toNat then .stall
    else if ra.bad then eccTrap s e (reg g ra.reg).toNat
    else .done (setEng s' e (setReg (eng s' e) rd w))
  | _, _ => .trap 3 (reg g ra.reg).toNat 0

/-- What CAS does to an engine. -/
def casEff (s : State) (e : Eng) (rd : Reg) (ra : AddrReg) (rb : Reg) (g : Engine) : Eff :=
  match nearRead s e (reg g ra.reg).toNat, nearWrite s e (reg g ra.reg).toNat (reg g rb) with
  | some w, some s' =>
    if !atomicOk (reg g ra.reg).toNat then .trap 3 (reg g ra.reg).toNat 0
    else if nearStall g (reg g ra.reg).toNat then .stall
    else if ra.bad then eccTrap s e (reg g ra.reg).toNat
    else if w = reg g rd then .done (setEng s' e (setReg { eng s' e with z := true } rd w))
    else .done (setEng s e (setReg { g with z := false } rd w))
  | _, _ => .trap 3 (reg g ra.reg).toNat 0

theorem exec_xadd (s : State) (e : Eng) (rd ra rb : Reg) (bad : Bool) :
    exec (.xadd e rd ⟨ra, bad⟩ rb) s = instr s e 1 ([rd, ra, rb].map Fin.val) (xaddEff s e rd ⟨ra, bad⟩ rb) := rfl

theorem exec_cas (s : State) (e : Eng) (rd ra rb : Reg) (bad : Bool) :
    exec (.cas e rd ⟨ra, bad⟩ rb) s = instr s e 1 ([rd, ra, rb].map Fin.val) (casEff s e rd ⟨ra, bad⟩ rb) := rfl

/-- The places of XADD and CAS: data memory but the trap record, and shared memory. -/
theorem atomicOk_iff (a : Nat) : atomicOk a = true ↔ a < 0x7ff8 ∨ (0x80000 ≤ a ∧ a < 0x100000) := by
  simp [atomicOk]

/-- Where XADD and CAS are permitted the word is there to read. -/
theorem exists_nearRead_of_atomicOk (s : State) (e : Eng) {a : Nat} (hplace : atomicOk a = true) : ∃ w, nearRead s e a = some w := by
  obtain h | ⟨hlow, hhigh⟩ := (atomicOk_iff a).1 hplace
  · exact ⟨_, nearRead_data _ _ (by omega)⟩
  · exact ⟨_, nearRead_shared _ _ hlow hhigh⟩

theorem storeOk_of_atomicOk (s : State) (e : Eng) {a : Nat} (hplace : atomicOk a = true) : storeOk s e a :=
  ((atomicOk_iff a).1 hplace).imp id fun h => .inr (.inr h)

section
variable {s : State} {e : Eng} {rd ra rb : Reg} {a : Nat} (ha : (reg (eng s e) ra).toNat = a)
include ha

section
variable (hplace : atomicOk a = false)
include hplace

theorem xaddEff_address (bad : Bool) : xaddEff s e rd ⟨ra, bad⟩ rb (eng s e) = .trap 3 a 0 := by
  subst ha
  unfold xaddEff
  split
  · rw [hplace]; rfl
  · rfl

theorem casEff_address (bad : Bool) : casEff s e rd ⟨ra, bad⟩ rb (eng s e) = .trap 3 a 0 := by
  subst ha
  unfold casEff
  split
  · rw [hplace]; rfl
  · rfl

end

section
variable (hplace : atomicOk a = true)
include hplace

theorem xaddEff_stall (hstall : nearStall (eng s e) a = true) (bad : Bool) : xaddEff s e rd ⟨ra, bad⟩ rb (eng s e) = .stall := by
  subst ha
  obtain ⟨w, hread⟩ := exists_nearRead_of_atomicOk s e hplace
  obtain ⟨s1, hwrite, _⟩ := exists_nearWrite (storeOk_of_atomicOk s e hplace) ((some w).getD 0 + reg (eng s e) rb)
  simp only [xaddEff, hread, hwrite, hplace, hstall, Bool.not_true, Bool.false_eq_true, if_false, if_true]

theorem casEff_stall (hstall : nearStall (eng s e) a = true) (bad : Bool) : casEff s e rd ⟨ra, bad⟩ rb (eng s e) = .stall := by
  subst ha
  obtain ⟨w, hread⟩ := exists_nearRead_of_atomicOk s e hplace
  obtain ⟨s1, hwrite, _⟩ := exists_nearWrite (storeOk_of_atomicOk s e hplace) (reg (eng s e) rb)
  simp only [casEff, hread, hwrite, hplace, hstall, Bool.not_true, Bool.false_eq_true, if_false, if_true]

variable (hstall : nearStall (eng s e) a = false)
include hstall

theorem xaddEff_ecc : xaddEff s e rd ⟨ra, true⟩ rb (eng s e) = eccTrap s e a := by
  subst ha
  obtain ⟨w, hread⟩ := exists_nearRead_of_atomicOk s e hplace
  obtain ⟨s1, hwrite, _⟩ := exists_nearWrite (storeOk_of_atomicOk s e hplace) ((some w).getD 0 + reg (eng s e) rb)
  simp only [xaddEff, hread, hwrite, hplace, hstall, Bool.not_true, Bool.false_eq_true, if_false, if_true]

theorem casEff_ecc : casEff s e rd ⟨ra, true⟩ rb (eng s e) = eccTrap s e a := by
  subst ha
  obtain ⟨w, hread⟩ := exists_nearRead_of_atomicOk s e hplace
  obtain ⟨s1, hwrite, _⟩ := exists_nearWrite (storeOk_of_atomicOk s e hplace) (reg (eng s e) rb)
  simp only [casEff, hread, hwrite, hplace, hstall, Bool.not_true, Bool.false_eq_true, if_false, if_true]

variable {w : Word} (hread : nearRead s e a = some w) (hruns : Runs s e 1 [rd, ra, rb])
include hread hruns

theorem exec_xadd_stored : ∃ t, exec (.xadd e rd ⟨ra, false⟩ rb) s = .next t ∧ Stored s t e a rd w (flags (eng s e)) ∧
    nearRead t e a = some (w + reg (eng s e) rb) := by
  subst ha
  obtain ⟨s1, hwrite, hwrote, _, hvalue⟩ := exists_nearWrite (storeOk_of_atomicOk s e hplace) ((some w).getD 0 + reg (eng s e) rb)
  have heff : xaddEff s e rd ⟨ra, false⟩ rb (eng s e) = .done (setEng s1 e (setReg (eng s1 e) rd w)) := by
    simp only [xaddEff, hread, hwrite, hplace, hstall, Bool.not_true, Bool.false_eq_true, if_false]
  have hdone := computed_retire_setReg (s := s1) (e := e) (g' := eng s1 e) 1 rd w rfl rfl
  rw [exec_xadd, instr_of_runs_one hruns heff, ← hwrote.pc]
  refine ⟨_, rfl, stored_of_nearWrote hwrote (hwrote.flags ▸ hdone), ?value⟩
  case value =>
    obtain ⟨honly, _, _, _, hrest⟩ := hdone
    have hplace' := (atomicOk_iff _).1 hplace
    exact (nearRead_of_onlyEngine honly hrest _).trans (hvalue (by omega))

theorem exec_cas_stored (hequal : w = reg (eng s e) rd) : ∃ t, exec (.cas e rd ⟨ra, false⟩ rb) s = .next t ∧
    Stored s t e a rd w (true, (eng s e).n, (eng s e).c, (eng s e).v) ∧ nearRead t e a = some (reg (eng s e) rb) := by
  subst ha
  obtain ⟨s1, hwrite, hwrote, _, hvalue⟩ := exists_nearWrite (storeOk_of_atomicOk s e hplace) (reg (eng s e) rb)
  have heff : casEff s e rd ⟨ra, false⟩ rb (eng s e) = .done (setEng s1 e (setReg { eng s1 e with z := true } rd w)) := by
    simp only [casEff, hread, hwrite, hplace, hstall, hequal, Bool.not_true, Bool.false_eq_true, if_false, if_true]
  have hflags : flags { eng s1 e with z := true } = (true, (eng s e).n, (eng s e).c, (eng s e).v) :=
    (congrArg (fun g : Engine => flags { g with z := true }) hwrote.own :)
  have hdone := computed_retire_setReg (s := s1) (e := e) (g' := { eng s1 e with z := true }) 1 rd w rfl rfl
  rw [exec_cas, instr_of_runs_one hruns heff, ← hwrote.pc]
  refine ⟨_, rfl, stored_of_nearWrote hwrote (hflags ▸ hdone), ?value⟩
  case value =>
    obtain ⟨honly, _, _, _, hrest⟩ := hdone
    have hplace' := (atomicOk_iff _).1 hplace
    exact (nearRead_of_onlyEngine honly hrest _).trans (hvalue (by omega))

theorem exec_cas_computed (hdiffer : w ≠ reg (eng s e) rd) : ∃ t, exec (.cas e rd ⟨ra, false⟩ rb) s = .next t ∧
    Computed s t e 1 rd w (false, (eng s e).n, (eng s e).c, (eng s e).v) := by
  subst ha
  obtain ⟨s1, hwrite, _⟩ := exists_nearWrite (storeOk_of_atomicOk s e hplace) (reg (eng s e) rb)
  have heff : casEff s e rd ⟨ra, false⟩ rb (eng s e) = .done (setEng s e (setReg { eng s e with z := false } rd w)) := by
    simp only [casEff, hread, hwrite, hplace, hstall, hdiffer, Bool.not_true, Bool.false_eq_true, if_false]
  rw [exec_cas, instr_of_runs_one hruns heff]
  exact ⟨_, rfl, computed_retire_setReg (g' := { eng s e with z := false }) 1 rd w rfl rfl⟩

end
end

/-- Settles O15: ST by where the address lies, then XADD and CAS by whether their place is permitted, must be waited for or meets an error. -/
theorem storesChangeOneWord : Obligations.StoresChangeOneWord := by
  constructor
  case left =>
    intro e rd ra imm s a ha hruns
    exact ⟨exec_st_stored ha.symm hruns, exec_st_stalls ha.symm hruns, exec_st_privilege ha.symm hruns, exec_st_address ha.symm hruns⟩
  intro e rd ra rb s a w ha hruns
  replace ha := ha.symm
  refine ⟨fun hword => ?permitted, fun bad hlow hhigh hblock => ?waits, fun bad hlow hshared htip hloads => ?forbidden⟩
  case permitted =>
    have hplace : atomicOk a = true := (atomicOk_iff a).2 (by omega)
    have hstall : nearStall (eng s e) a = false := by
      obtain ⟨hdata, _⟩ | ⟨hlow, _, hblock, _⟩ := hword
      · exact nearStall_apart _ (by omega) (by omega)
      · exact (nearStall_shared _ hlow).trans hblock
    have hread : nearRead s e a = some w := by
      obtain ⟨hdata, rfl⟩ | ⟨hlow, hhigh, _, rfl⟩ := hword
      · exact nearRead_data _ _ (by omega)
      · exact nearRead_shared _ _ hlow hhigh
    refine ⟨exec_xadd_stored ha hplace hstall hread hruns, exec_cas_stored ha hplace hstall hread hruns,
      exec_cas_computed ha hplace hstall hread hruns, ?ecc⟩
    rintro htip hloads _ rfl
    rw [exec_xadd, exec_cas]
    exact ⟨exists_trapped_eccTrap hruns (xaddEff_ecc ha hplace hstall) htip hloads,
      exists_trapped_eccTrap hruns (casEff_ecc ha hplace hstall) htip hloads⟩
  case waits =>
    have hplace : atomicOk a = true := (atomicOk_iff a).2 (.inr ⟨hlow, hhigh⟩)
    have hstall : nearStall (eng s e) a = true := (nearStall_shared _ hlow).trans hblock
    rw [exec_xadd, exec_cas]
    exact ⟨instr_of_runs_stall hruns (xaddEff_stall ha hplace hstall bad), instr_of_runs_stall hruns (casEff_stall ha hplace hstall bad)⟩
  case forbidden =>
    have hplace : atomicOk a = false := by
      rw [← Bool.not_eq_true, atomicOk_iff]
      omega
    rw [exec_xadd, exec_cas]
    exact ⟨exists_trapped hruns (xaddEff_address ha hplace bad) htip hloads, exists_trapped hruns (casEff_address ha hplace bad) htip hloads⟩

end Sys2Proof.Machine
end

section
/-! Far accesses (R105 to R107, R152 to R154): their checks in order, their issue, their completion, FENCE, and the statement about them. -/
namespace Sys2Proof.Machine

/-! ## The checks, in order -/

section
variable {s : State} {e : Eng} {a n : Nat} {wr aligned : Bool}

theorem farCheck_alignment (haligned : aligned = false) : farCheck s e a n wr aligned = some (.trap 4 (a / 2 ^ 24) (a % 2 ^ 24)) := by
  subst haligned
  rfl

section
variable (haligned : aligned = true)
include haligned

theorem farCheck_unmapped (hend : dataSpace < a + n) : farCheck s e a n wr aligned = some (.trap 6 (a / 2 ^ 24) (a % 2 ^ 24)) := by
  subst haligned
  exact if_pos hend

variable (hend : a + n ≤ dataSpace)
include hend

theorem farCheck_rights {b : Nat} (hrefused : refusedByte s (if (eng s e).kp then 0 else 1) a n wr = some b) :
    farCheck s e a n wr aligned = some (.trapWith (refuse s (if (eng s e).kp then 0 else 1) b wr) 5 (a / 2 ^ 24) (a % 2 ^ 24)) := by
  subst haligned
  simp only [farCheck, Bool.not_true, Bool.false_eq_true, if_false, if_neg (Nat.not_lt.2 hend), hrefused]

theorem farCheck_eq_none (hadmitted : refusedByte s (if (eng s e).kp then 0 else 1) a n wr = none) :
    farCheck s e a n wr aligned = none := by
  subst haligned
  simp only [farCheck, Bool.not_true, Bool.false_eq_true, if_false, if_neg (Nat.not_lt.2 hend), hadmitted]

end
end

/-- The low word of a far address. -/
theorem wd_mod (a : Nat) : wd (a % 2 ^ 24) = wd a := by
  apply BitVec.eq_of_toNat_eq
  rw [BitVec.toNat_ofNat, BitVec.toNat_ofNat, Nat.mod_mod]

theorem issueFar_of_free {s : State} {e : Eng} (kind : FarKind) (a n : Nat) (data : List Byte) (hfree : (eng s e).far.length < 8) :
    issueFar s e kind a n data = .done (setEng s e { eng s e with
      far := (eng s e).far ++ [⟨(eng s e).serial, kind, a, n, data, false⟩], serial := (eng s e).serial + 1 }) :=
  if_neg (Nat.not_le.2 hfree)

theorem refuse_engs (s : State) (m b : Nat) (wr : Bool) : (refuse s m b wr).engs = s.engs := by simp only [refuse, emit_engs, count_engs]

/-- The trap of a far access to a, with its address as details. -/
theorem exists_trapped_far {s : State} {e : Eng} {size a c : Nat} {uses : List Reg} {body : Engine → Eff} (hruns : Runs s e size uses)
    (hbody : body (eng s e) = .trap c (a / 2 ^ 24) (a % 2 ^ 24)) (htip : (eng s e).tip = false) (hloads : loadsOut (eng s e) = false) :
    ∃ t, instr s e size (uses.map Fin.val) body = .next t ∧ Trapped s t e c (wd (a / 2 ^ 24)) (wd a) := by
  rw [← wd_mod a]
  exact exists_trapped hruns hbody htip hloads

/-- The far-rights trap, with the refusal recorded. -/
theorem exists_trapped_refuse {s : State} {e : Eng} {size a m b : Nat} {wr : Bool} {uses : List Reg} {body : Engine → Eff}
    (hruns : Runs s e size uses) (hbody : body (eng s e) = .trapWith (refuse s m b wr) 5 (a / 2 ^ 24) (a % 2 ^ 24))
    (htip : (eng s e).tip = false) (hloads : loadsOut (eng s e) = false) :
    ∃ t, instr s e size (uses.map Fin.val) body = .next t ∧ Trapped (refuse s m b wr) t e 5 (wd (a / 2 ^ 24)) (wd a) := by
  rw [← wd_mod a]
  exact exists_trapped_with hruns hbody (by rwa [eng_congr (refuse_engs s m b wr)]) hloads

/-- The second register of a pair. -/
theorem val_add_one_of_pairOk {r : Reg} (hpair : pairOk r = true) : (r + 1).val = r.val + 1 := by
  obtain ⟨heven, _⟩ := (pairOk_iff r).1 hpair
  have := r.isLt
  rw [Fin.val_add_one_of_lt']
  omega

/-! ## Single accesses -/

/-- What FLD and FST do to an engine. -/
def farSingleEff (s : State) (e op rd ra size : Nat) (wr : Bool) (g : Engine) : Eff :=
  if size = 0 ∨ !pairOk ra then .trap 1 (encR op rd ra 0 size).toNat 0
  else
    match farCheck s e (pairVal g ra) size wr (decide (pairVal g ra % 64 + size ≤ 64)) with
    | some x => x
    | none => issueFar s e (if wr then .store else .load rd) (pairVal g ra) size (if wr then toBytes size (reg g rd).toNat else [])

section
variable {s : State} {e : Eng} {rd ra : Reg} (hpair : pairOk ra = true)
include hpair

theorem farSingle_eq (op size : Nat) (wr : Bool) : farSingle s e op rd ra size [rd.val, ra.val, ra.val + 1] wr =
    instr s e 1 ([rd, ra, ra + 1].map Fin.val) (farSingleEff s e op rd ra size wr) := by
  simp only [List.map_cons, List.map_nil, val_add_one_of_pairOk hpair]
  rfl

theorem exec_fld (size : Fin 4) : exec (.fld e rd ra size) s =
    instr s e 1 ([rd, ra, ra + 1].map Fin.val) (farSingleEff s e 0x20 rd ra size false) := farSingle_eq hpair ..

theorem exec_fst (size : Fin 4) : exec (.fst e rd ra size) s =
    instr s e 1 ([rd, ra, ra + 1].map Fin.val) (farSingleEff s e 0x21 rd ra size true) := farSingle_eq hpair ..

variable {op size a : Nat} {wr : Bool} (hsize : size ≠ 0) (ha : a = pairVal (eng s e) ra)
include hsize ha

theorem farSingleEff_of_check {x : Eff} (hcheck : farCheck s e a size wr (decide (a % 64 + size ≤ 64)) = some x) :
    farSingleEff s e op rd ra size wr (eng s e) = x := by
  subst ha
  rw [farSingleEff, if_neg (by simp [hsize, hpair]), hcheck]

theorem farSingleEff_issues (hcheck : farCheck s e a size wr (decide (a % 64 + size ≤ 64)) = none) :
    farSingleEff s e op rd ra size wr (eng s e) =
      issueFar s e (if wr then .store else .load rd) a size (if wr then toBytes size (reg (eng s e) rd).toNat else []) := by
  subst ha
  rw [farSingleEff, if_neg (by simp [hsize, hpair]), hcheck]

variable (hruns : Runs s e 1 [rd, ra, ra + 1])
include hruns

/-- A single access that passes its checks joins the outstanding ones. -/
theorem farSingle_issues (hline : a % 64 + size ≤ 64) (hend : a + size ≤ dataSpace) (hfree : (eng s e).far.length < 8)
    (hadmitted : refusedByte s (if (eng s e).kp then 0 else 1) a size wr = none) :
    instr s e 1 ([rd, ra, ra + 1].map Fin.val) (farSingleEff s e op rd ra size wr) =
      .next (after s (setEng s e { eng s e with
        far := (eng s e).far ++ [⟨(eng s e).serial, if wr then .store else .load rd, a, size,
          if wr then toBytes size (reg (eng s e) rd).toNat else [], false⟩], serial := (eng s e).serial + 1 }) e) :=
  instr_of_runs_one hruns ((farSingleEff_issues hpair hsize ha (farCheck_eq_none (decide_eq_true hline) hend hadmitted)).trans
    (issueFar_of_free _ _ _ _ hfree))

variable (htip : (eng s e).tip = false) (hloads : loadsOut (eng s e) = false)
include htip hloads

theorem farSingle_alignment (hline : 64 < a % 64 + size) :
    ∃ t, instr s e 1 ([rd, ra, ra + 1].map Fin.val) (farSingleEff s e op rd ra size wr) = .next t ∧
      Trapped s t e 4 (wd (a / 2 ^ 24)) (wd a) :=
  exists_trapped_far hruns (farSingleEff_of_check hpair hsize ha (farCheck_alignment (decide_eq_false (Nat.not_le.2 hline)))) htip hloads

theorem farSingle_unmapped (hline : a % 64 + size ≤ 64) (hend : dataSpace < a + size) :
    ∃ t, instr s e 1 ([rd, ra, ra + 1].map Fin.val) (farSingleEff s e op rd ra size wr) = .next t ∧
      Trapped s t e 6 (wd (a / 2 ^ 24)) (wd a) :=
  exists_trapped_far hruns (farSingleEff_of_check hpair hsize ha (farCheck_unmapped (decide_eq_true hline) hend)) htip hloads

theorem farSingle_rights (hline : a % 64 + size ≤ 64) (hend : a + size ≤ dataSpace) {b : Nat}
    (hrefused : refusedByte s (if (eng s e).kp then 0 else 1) a size wr = some b) :
    ∃ t, instr s e 1 ([rd, ra, ra + 1].map Fin.val) (farSingleEff s e op rd ra size wr) = .next t ∧
      Trapped (refuse s (if (eng s e).kp then 0 else 1) b wr) t e 5 (wd (a / 2 ^ 24)) (wd a) :=
  exists_trapped_refuse hruns (farSingleEff_of_check hpair hsize ha (farCheck_rights (decide_eq_true hline) hend hrefused)) htip hloads

end

/-! ## Blocks -/

/-- What FBL and FBS do to an engine. -/
def farBlockEff (s : State) (e op ra rb fn : Nat) (wr : Bool) (g : Engine) : Eff :=
  if !pairOk ra then .trap 1 (encR op 0 ra rb fn).toNat 0
  else
    match farCheck s e (pairVal g ra) (64 * (fn + 1)) wr (decide (pairVal g ra % 64 = 0)) with
    | some x => x
    | none =>
      if (reg g rb).toNat < 0x80000 ∨ 0x100000 < (reg g rb).toNat + blockWords (64 * (fn + 1)) then .trap 3 (reg g rb).toNat 0
      else issueFar s e (if wr then .blockStore (reg g rb).toNat else .blockLoad (reg g rb).toNat) (pairVal g ra) (64 * (fn + 1)) []

section
variable {s : State} {e : Eng} {ra rb : Reg} {fn : BitVec 6} (hpair : pairOk ra = true)
include hpair

theorem exec_fbl_fbs (wr : Bool) : exec (if wr then .fbs e ra rb fn else .fbl e ra rb fn) s =
    instr s e 1 ([ra, ra + 1, rb].map Fin.val) (farBlockEff s e (if wr then 0x23 else 0x22) ra rb fn.toNat wr) := by
  simp only [List.map_cons, List.map_nil, val_add_one_of_pairOk hpair]
  cases wr <;> rfl

variable {op a n p : Nat} {wr : Bool} (ha : a = pairVal (eng s e) ra) (hn : n = 64 * (fn.toNat + 1))
include ha hn

theorem farBlockEff_of_check {x : Eff} (hcheck : farCheck s e a n wr (decide (a % 64 = 0)) = some x) :
    farBlockEff s e op ra rb fn.toNat wr (eng s e) = x := by
  subst ha hn
  rw [farBlockEff, if_neg (by simp [hpair]), hcheck]

variable (hp : p = (reg (eng s e) rb).toNat)
include hp

theorem farBlockEff_of_passed (hcheck : farCheck s e a n wr (decide (a % 64 = 0)) = none) :
    farBlockEff s e op ra rb fn.toNat wr (eng s e) =
      if p < 0x80000 ∨ 0x100000 < p + blockWords n then .trap 3 p 0
      else issueFar s e (if wr then .blockStore p else .blockLoad p) a n [] := by
  subst ha hn hp
  rw [farBlockEff, if_neg (by simp [hpair]), hcheck]

variable (hruns : Runs s e 1 [ra, ra + 1, rb])
include hruns

/-- A block that passes its checks joins the outstanding accesses. -/
theorem farBlock_issues (hline : a % 64 = 0) (hend : a + n ≤ dataSpace) (hlow : 0x80000 ≤ p) (hhigh : p + blockWords n ≤ 0x100000)
    (hfree : (eng s e).far.length < 8) (hadmitted : refusedByte s (if (eng s e).kp then 0 else 1) a n wr = none) :
    exec (if wr then .fbs e ra rb fn else .fbl e ra rb fn) s =
      .next (after s (setEng s e { eng s e with
        far := (eng s e).far ++ [⟨(eng s e).serial, if wr then .blockStore p else .blockLoad p, a, n, [], false⟩],
        serial := (eng s e).serial + 1 }) e) := by
  rw [exec_fbl_fbs hpair]
  refine instr_of_runs_one hruns ?_
  rw [farBlockEff_of_passed hpair ha hn hp (farCheck_eq_none (decide_eq_true hline) hend hadmitted), if_neg (by omega),
    issueFar_of_free _ _ _ _ hfree]

variable (htip : (eng s e).tip = false) (hloads : loadsOut (eng s e) = false)
include htip hloads

theorem farBlock_traps (wr : Bool) (i : Instr) (m : Nat) (hm : m = if (eng s e).kp then 0 else 1)
    (hi : i = if wr then .fbs e ra rb fn else .fbl e ra rb fn) :
    (a % 64 ≠ 0 → ∃ t, exec i s = .next t ∧ Trapped s t e 4 (wd (a / 2 ^ 24)) (wd a)) ∧
    (a % 64 = 0 → dataSpace < a + n → ∃ t, exec i s = .next t ∧ Trapped s t e 6 (wd (a / 2 ^ 24)) (wd a)) ∧
    (a % 64 = 0 → a + n ≤ dataSpace → ∀ b, refusedByte s m a n wr = some b →
      ∃ t, exec i s = .next t ∧ Trapped (refuse s m b wr) t e 5 (wd (a / 2 ^ 24)) (wd a)) ∧
    (a % 64 = 0 → a + n ≤ dataSpace → refusedByte s m a n wr = none →
      (p < 0x80000 ∨ 0x100000 < p + blockWords n) → ∃ t, exec i s = .next t ∧ Trapped s t e 3 (wd p) 0) := by
  subst hm hi
  rw [exec_fbl_fbs hpair]
  refine ⟨fun hline => ?alignment, fun hline hend => ?unmapped, fun hline hend b hrefused => ?rights, fun hline hend hadmitted hplace => ?address⟩
  case alignment => exact exists_trapped_far hruns (farBlockEff_of_check hpair ha hn (farCheck_alignment (decide_eq_false hline))) htip hloads
  case unmapped => exact exists_trapped_far hruns (farBlockEff_of_check hpair ha hn (farCheck_unmapped (decide_eq_true hline) hend)) htip hloads
  case rights =>
    exact exists_trapped_refuse hruns (farBlockEff_of_check hpair ha hn (farCheck_rights (decide_eq_true hline) hend hrefused)) htip hloads
  case address =>
    refine exists_trapped (d2 := 0) hruns ?_ htip hloads
    rw [farBlockEff_of_passed hpair ha hn hp (farCheck_eq_none (decide_eq_true hline) hend hadmitted), if_pos hplace]

end

/-! ## FENCE and completion -/

/-- What FENCE does to an engine. -/
def fenceEff (s : State) (g : Engine) : Eff := if g.far.isEmpty && g.posted.isEmpty then .done s else .stall

theorem exec_fence (s : State) (e : Eng) : exec (.fence e) s = instr s e 1 (([] : List Reg).map Fin.val) (fenceEff s) := rfl

section
variable {s : State} {e : Eng} (hruns : Runs s e 1 [])
include hruns

theorem exec_fence_of_none (hfar : (eng s e).far = []) (hposted : (eng s e).posted = []) : exec (.fence e) s = .next (after s s e) := by
  have heff : fenceEff s (eng s e) = .done s := by simp [fenceEff, hfar, hposted]
  rw [exec_fence, instr_of_runs_one hruns heff]
  rfl

theorem exec_fence_of_some (hsome : (eng s e).far ≠ [] ∨ (eng s e).posted ≠ []) : exec (.fence e) s = .next s := by
  have heff : fenceEff s (eng s e) = .stall :=
    if_neg (by rw [Bool.and_eq_true, List.isEmpty_iff, List.isEmpty_iff, not_and_or]; exact hsome)
  rw [exec_fence, instr_of_runs_stall hruns heff]

end

section
variable {s : State} {e : Eng} {k : Nat} {f : Far} (hlive : live s = true) (hmem : memRuns s = true) (hheld : farHeld s e k = false)
  (hturn : farTurn (eng s e) k = some f)
include hlive hmem hheld hturn

theorem exec_farLoadDataReturn_of_turn {rd : Nat} (hkind : f.kind = .load rd) : exec (.farLoadDataReturn e k) s =
    .next (countLines (noteUnchecked (setEng s e (setReg (dropFar (eng s e) k) rd (wd (ofBytes (dramRead s f.addr f.len))))) e k f.addr f.len)
      (engMaster s e) f.addr f.len false) := by
  obtain ⟨serial, kind, addr, len, data, written⟩ := f
  subst hkind
  have hexec : exec (.farLoadDataReturn e k) s = execFarLoadDataReturn e k s := rfl
  simp only [hexec, execFarLoadDataReturn, hlive, hmem, hheld, hturn, Bool.not_true, Bool.or_self, Bool.false_eq_true, if_false]

theorem exec_farAccessComplete_store (hkind : f.kind = .store) (hwritten : f.written = true) :
    exec (.farAccessComplete e k) s = .next (setEng s e (dropFar (eng s e) k)) := by
  obtain ⟨serial, kind, addr, len, data, written⟩ := f
  subst hkind hwritten
  have hexec : exec (.farAccessComplete e k) s = execFarAccessComplete e k s := rfl
  simp only [hexec, execFarAccessComplete, hlive, hmem, hheld, hturn, Bool.not_true, Bool.or_self, Bool.false_eq_true, if_false]

theorem exec_farAccessComplete_blockLoad {p : Nat} (hkind : f.kind = .blockLoad p) : exec (.farAccessComplete e k) s =
    .next (countLines (noteUnchecked (putShared (setEng s e (dropFar (eng s e) k)) (lanternOf e) (p - 0x80000) (dramRead s f.addr f.len))
      e k f.addr f.len) (engMaster s e) f.addr f.len false) := by
  obtain ⟨serial, kind, addr, len, data, written⟩ := f
  subst hkind
  have hexec : exec (.farAccessComplete e k) s = execFarAccessComplete e k s := rfl
  simp only [hexec, execFarAccessComplete, hlive, hmem, hheld, hturn, Bool.not_true, Bool.or_self, Bool.false_eq_true, if_false]

theorem exec_farAccessComplete_blockStore {p : Nat} (hkind : f.kind = .blockStore p) (hwritten : rangeWritten s f.addr f.len = true) :
    exec (.farAccessComplete e k) s =
      .next (countLines (dramWrite (setEng s e (dropFar (eng s e) k)) f.addr (sharedBytes s (lanternOf e) (p - 0x80000) f.len))
        (engMaster s e) f.addr f.len true) := by
  obtain ⟨serial, kind, addr, len, data, written⟩ := f
  subst hkind
  have hexec : exec (.farAccessComplete e k) s = execFarAccessComplete e k s := rfl
  simp only [hexec, execFarAccessComplete, hlive, hmem, hheld, hturn, hwritten, Bool.not_true, Bool.or_self, Bool.false_eq_true, if_false]

end

/-- An instruction with a register that is still being loaded stalls. -/
theorem exec_add_stalls {s : State} {e : Eng} {rd ra rb : Reg} (hable : able s e = true) (hdue : sampleDue s e = false)
    (hpast : (eng s e).past = false) (hnoted : ((eng s e).noted.any fun x => decide (12 ≤ x.2)) = false)
    (hloading : loading (eng s e) rd = true ∨ loading (eng s e) ra = true ∨ loading (eng s e) rb = true) :
    exec (.add e rd ra rb) s = .next s := by
  have hexec : exec (.add e rd ra rb) s = execAdd e rd ra rb s := rfl
  have huses : ([rd.val, ra.val, rb.val].any (loading (eng s e))) = true := by simpa using hloading
  have hnoted' : ((eng s e).noted.any fun (x : Word × Nat) => decide (12 ≤ x.2)) = false := hnoted
  rw [hexec, execAdd, instrG, instr]
  simp [hable, hdue, hnoted', hpast, huses]

/-- Settles O18: single accesses, their traps, blocks, FENCE, completion, and the stall on a register being loaded. -/
theorem farAccessesIssueCheckAndComplete : Obligations.FarAccessesIssueCheckAndComplete := by
  refine ⟨?single, ?singleTraps, ?block, fun e s hruns => ⟨exec_fence_of_none hruns, exec_fence_of_some hruns⟩, ?completes,
    fun e rd ra rb s hable hdue hpast hnoted hloading => exec_add_stalls hable hdue hpast hnoted hloading⟩
  case single =>
    intro e rd ra size s a ha hpair hsize hruns hline hend hfree
    have hsize' : size.val ≠ 0 := fun h => hsize (Fin.ext h)
    rw [exec_fld hpair, exec_fst hpair]
    exact ⟨farSingle_issues hpair hsize' ha hruns hline hend hfree, farSingle_issues hpair hsize' ha hruns hline hend hfree⟩
  case singleTraps =>
    intro e rd ra size s a ha hpair hsize hruns htip hloads
    have hsize' : size.val ≠ 0 := fun h => hsize (Fin.ext h)
    rw [exec_fld hpair, exec_fst hpair]
    refine ⟨fun hline => ⟨?_, ?_⟩, fun hline hend => ⟨?_, ?_⟩, ?rights⟩
    case rights =>
      rintro hline hend _ b rfl
      exact ⟨farSingle_rights hpair hsize' ha hruns htip hloads hline hend, farSingle_rights hpair hsize' ha hruns htip hloads hline hend⟩
    · exact farSingle_alignment hpair hsize' ha hruns htip hloads hline
    · exact farSingle_alignment hpair hsize' ha hruns htip hloads hline
    · exact farSingle_unmapped hpair hsize' ha hruns htip hloads hline hend
    · exact farSingle_unmapped hpair hsize' ha hruns htip hloads hline hend
  case block =>
    intro e ra rb fn s a n p ha hn hp hpair hruns
    exact ⟨fun hline hend hlow hhigh hfree => ⟨farBlock_issues (wr := false) hpair ha hn hp hruns hline hend hlow hhigh hfree,
        farBlock_issues (wr := true) hpair ha hn hp hruns hline hend hlow hhigh hfree⟩,
      fun htip hloads => farBlock_traps hpair ha hn hp hruns htip hloads⟩
  case completes =>
    rintro e k _ s f hlive hmem hheld rfl hturn
    refine ⟨?_, exec_farAccessComplete_store hlive hmem hheld hturn, ?_, ?_⟩
    · rintro rd _ hkind rfl
      exact exec_farLoadDataReturn_of_turn hlive hmem hheld hturn hkind
    · rintro p _ hkind rfl
      exact exec_farAccessComplete_blockLoad hlive hmem hheld hturn hkind
    · rintro p _ hkind hwritten rfl
      exact exec_farAccessComplete_blockStore hlive hmem hheld hturn hkind hwritten

end Sys2Proof.Machine
end

section
/-! SET, COMMIT and GET (R155 to R157), the answer to a GET (R155, R180), and the statement about them. -/
namespace Sys2Proof.Machine

/-- A one-word instruction that runs and whose body is done. -/
theorem instr_after {s s' : State} {e : Eng} {uses : List Reg} {body : Engine → Eff} (hruns : Runs s e 1 uses)
    (hbody : body (eng s e) = .done s') : instr s e 1 (uses.map Fin.val) body = .next (after s s' e) := instr_of_runs_one hruns hbody

/-! ## Issue -/

section
variable {s : State} {e : Eng} (commit : Bool) (a : Nat) (v : Word)

theorem issueSet_of_free (hfree : (eng s e).posted.length < 16) : issueSet s e commit a v = .done (setEng s e { eng s e with
    posted := (eng s e).posted ++ [⟨commit, a, v, (eng s e).serial⟩], serial := (eng s e).serial + 1 }) :=
  if_neg (Nat.not_le.2 hfree)

theorem issueSet_of_full (hfull : 16 ≤ (eng s e).posted.length) : issueSet s e commit a v = .stall := if_pos hfull

end

/-- What SET does to an engine. -/
def setEff (s : State) (e : Eng) (ra rb : Reg) (g : Engine) : Eff :=
  if !wordExists (reg g rb).toNat then .trap 8 (reg g rb).toNat 0
  else if !g.kp && keeperSet (reg g rb).toNat (reg g ra) then .trap 2 (encR 0x28 0 ra rb 0).toNat (reg g rb).toNat
  else issueSet s e false (reg g rb).toNat (reg g ra)

/-- What COMMIT does to an engine. -/
def commitEff (s : State) (e : Eng) (ra : Reg) (g : Engine) : Eff :=
  if !wordExists ((reg g ra).toNat / 1024 * 1024) then .trap 8 (reg g ra).toNat 0
  else issueSet s e true ((reg g ra).toNat / 1024 * 1024) 0

/-- What GET does to an engine. -/
def getEff (s : State) (e : Eng) (rd ra : Reg) (g : Engine) : Eff :=
  if !wordExists (reg g ra).toNat then .trap 8 (reg g ra).toNat 0
  else .done (setEng s e { g with get := some (rd.val, (reg g ra).toNat) })

section
variable (s : State) (e : Eng) (rd ra rb : Reg)

theorem exec_set : exec (.set e ra rb) s = instr s e 1 ([ra, rb].map Fin.val) (setEff s e ra rb) := rfl

theorem exec_commit : exec (.commit e ra) s = instr s e 1 ([ra].map Fin.val) (commitEff s e ra) := rfl

theorem exec_get : exec (.get e rd ra) s = instr s e 1 ([rd, ra].map Fin.val) (getEff s e rd ra) := rfl

end

section
variable {s : State} {e : Eng} {rd ra rb : Reg} {a : Nat}

theorem setEff_issues (ha : a = (reg (eng s e) rb).toNat) (hexists : wordExists a = true)
    (hlevel : (eng s e).kp = true ∨ keeperSet a (reg (eng s e) ra) = false) :
    setEff s e ra rb (eng s e) = issueSet s e false a (reg (eng s e) ra) := by
  subst ha
  have hallowed : (!(eng s e).kp && keeperSet (reg (eng s e) rb).toNat (reg (eng s e) ra)) = false := by
    rw [Bool.and_eq_false_iff, Bool.not_eq_false']
    exact hlevel
  simp only [setEff, hexists, hallowed, Bool.not_true, Bool.false_eq_true, if_false]

theorem setEff_privilege (ha : a = (reg (eng s e) rb).toNat) (hexists : wordExists a = true) (huser : (eng s e).kp = false)
    (hkeeper : keeperSet a (reg (eng s e) ra) = true) :
    setEff s e ra rb (eng s e) = .trap 2 (encR 0x28 0 ra rb 0).toNat a := by
  subst ha
  simp only [setEff, hexists, huser, hkeeper, Bool.not_true, Bool.not_false, Bool.and_self, Bool.false_eq_true, if_false, if_true]

theorem setEff_refused (ha : a = (reg (eng s e) rb).toNat) (hmissing : wordExists a = false) :
    setEff s e ra rb (eng s e) = .trap 8 a 0 := by
  subst ha
  simp only [setEff, hmissing, Bool.not_false, if_true]

theorem commitEff_issues (ha : a = (reg (eng s e) ra).toNat / 1024 * 1024) (hexists : wordExists a = true) :
    commitEff s e ra (eng s e) = issueSet s e true a 0 := by
  subst ha
  simp only [commitEff, hexists, Bool.not_true, Bool.false_eq_true, if_false]

theorem commitEff_refused (ha : a = (reg (eng s e) ra).toNat / 1024 * 1024) (hmissing : wordExists a = false) :
    commitEff s e ra (eng s e) = .trap 8 (reg (eng s e) ra).toNat 0 := by
  subst ha
  simp only [commitEff, hmissing, Bool.not_false, if_true]

theorem getEff_issues (ha : a = (reg (eng s e) ra).toNat) (hexists : wordExists a = true) :
    getEff s e rd ra (eng s e) = .done (setEng s e { eng s e with get := some (rd.val, a) }) := by
  subst ha
  simp only [getEff, hexists, Bool.not_true, Bool.false_eq_true, if_false]

theorem getEff_refused (ha : a = (reg (eng s e) ra).toNat) (hmissing : wordExists a = false) :
    getEff s e rd ra (eng s e) = .trap 8 a 0 := by
  subst ha
  simp only [getEff, hmissing, Bool.not_false, if_true]

end

/-! ## The answer to a GET -/

section
variable {s : State} {e : Eng} {rd a : Nat} (hget : (eng s e).get = some (rd, a))
include hget

theorem answer_some (v : Word) : answer s e (some v) = setEng s e (setReg { eng s e with get := none, nr := false } rd v) := by
  simp only [answer, hget]

theorem answer_none : answer s e none = setEng s e { eng s e with get := none, nr := true } := by
  simp only [answer, hget]

variable (hready : getReady s e a = true) (hown : ownRead a = false)
include hready hown

theorem exec_getAnswer_value (hvalue : wordResult a = false ∨ isReady s a = true) (hrand : a ≠ fAddr fKEY_RAND_R 0 0) :
    exec (.getAnswer e) s = .next (answer s e (some (viewWord s a))) := by
  have hexec : exec (.getAnswer e) s = execGetAnswer e s := rfl
  have hshown : (wordResult a && !isReady s a) = false := by
    rw [Bool.and_eq_false_iff, Bool.not_eq_false']
    exact hvalue
  simp only [hexec, execGetAnswer, hget, hready, hown, hshown, Bool.not_true, Bool.or_self, Bool.false_eq_true, if_false, if_neg hrand]

theorem exec_getAnswer_notReady (hresult : wordResult a = true) (hnot : isReady s a = false) :
    exec (.getAnswer e) s = .next (answer s e none) := by
  have hexec : exec (.getAnswer e) s = execGetAnswer e s := rfl
  simp only [hexec, execGetAnswer, hget, hready, hown, hresult, hnot, Bool.not_true, Bool.not_false, Bool.or_self, Bool.and_self,
    Bool.false_eq_true, if_false, if_true]

end

/-- Settles O19: SET, COMMIT, GET, and the answer. -/
theorem unitAccessesLeaveTheEngine : Obligations.UnitAccessesLeaveTheEngine := by
  refine ⟨?set, ?commit, ?get, ?answer⟩
  case set =>
    rintro e ra rb s a _ ha rfl hruns
    rw [exec_set]
    refine ⟨fun hexists hlevel => ⟨fun hfree => ?_, fun hfull => ?_⟩, fun htip hloads => ⟨fun hmissing => ?_, fun hexists huser hkeeper => ?_⟩⟩
    · exact instr_after hruns ((setEff_issues ha hexists hlevel).trans (issueSet_of_free _ _ _ hfree))
    · exact instr_of_runs_stall hruns ((setEff_issues ha hexists hlevel).trans (issueSet_of_full _ _ _ hfull))
    · exact exists_trapped hruns (setEff_refused ha hmissing) htip hloads
    · rw [← wd_toNat (encR 0x28 0 ra rb 0)]
      exact exists_trapped hruns (setEff_privilege ha hexists huser hkeeper) htip hloads
  case commit =>
    intro e ra s a ha hruns
    rw [exec_commit]
    refine ⟨fun hexists hfree => ?_, fun hexists hfull => ?_, fun hmissing htip hloads => ?_⟩
    · exact instr_after hruns ((commitEff_issues ha hexists).trans (issueSet_of_free _ _ _ hfree))
    · exact instr_of_runs_stall hruns ((commitEff_issues ha hexists).trans (issueSet_of_full _ _ _ hfull))
    · rw [← wd_toNat (reg (eng s e) ra)]
      exact exists_trapped hruns (commitEff_refused ha hmissing) htip hloads
  case get =>
    intro e rd ra s a ha hruns
    rw [exec_get]
    exact ⟨fun hexists => instr_after hruns (getEff_issues ha hexists),
      fun hmissing htip hloads => exists_trapped hruns (getEff_refused ha hmissing) htip hloads⟩
  case answer =>
    intro e s rd a hget hready hown
    exact ⟨exec_getAnswer_value hget hready hown, exec_getAnswer_notReady hget hready hown, answer_some hget, answer_none hget⟩

end Sys2Proof.Machine
end

section
/-! POST, the postbox arbiter and COLLECT (R108, R116 to R118, R158, R159), and the statement about them. -/
namespace Sys2Proof.Machine

/-- An instruction that runs, given which registers it uses apart. -/
theorem instr_after_of_uses {s s' : State} {e : Eng} {uses : List Nat} {body : Engine → Eff} (hruns : Runs s e 1 [])
    (huses : uses.any (loading (eng s e)) = false) (hbody : body (eng s e) = .done s') : instr s e 1 uses body = .next (after s s' e) := by
  obtain ⟨hable, hstep, hpast, hdue, hnoted, hfetch, _⟩ := hruns
  rw [instr_runs body hable hstep hpast hdue hnoted hfetch huses, hbody]
  rfl

/-! ## POST -/

/-- What POST does to an engine. -/
def postEff (s : State) (e : Eng) (q : Fin 4) (rb : Reg) (g : Engine) : Eff :=
  if boxOk ((reg g rb).toNat % 256) then
    .done (setEng s e { g with
      out := some ((reg g rb).toNat % 256,
        ⟨e, (reg g (quad q 0)).toNat % 65536, (reg g (quad q 1)).toNat, (reg g (quad q 2)).toNat, (reg g (quad q 3)).toNat⟩, g.serial)
      serial := g.serial + 1 })
  else .done (count (setEng s e { g with nr := true }) 1 kEngMisdirected e)

theorem exec_post (s : State) (e : Eng) (q : Fin 4) (rb : Reg) :
    exec (.post e q rb) s = instr s e 1 ((List.range 4).map (quad q) ++ [rb.val]) (postEff s e q rb) := by
  have hexec : exec (.post e q rb) s = execPost e q rb s := rfl
  simp only [hexec, execPost, bitsOf_zero]
  rfl

/-! ## The arbiter -/

section
variable {s : State} {d e k : Nat} {m : Msg} (hout : (eng s e).out = some (d, m, k))
include hout

theorem decidePost_refused (hfull : boxFull s d = true) :
    decidePost s d e = count (setEng s e { eng s e with out := none, nr := true }) 1 kEngRefused d := by
  simp only [decidePost, hout, hfull, ne_eq, not_true_eq_false, if_false, if_true]

theorem decidePost_granted (hroom : boxFull s d = false) :
    decidePost s d e = setServed (putPlace (setEng s e { eng s e with out := none, nr := false }) d ⟨m, false, k⟩) d e := by
  simp only [decidePost, hout, hroom, ne_eq, not_true_eq_false, Bool.false_eq_true, if_false]

end

theorem exec_postboxArbitration {s : State} {d : BitVec 8} (es : List Eng) (hlive : live s = true) (hbox : boxOk d.toNat = true) :
    exec (.postboxArbitration d es) s =
      .next ((inTurn (servedOf s d.toNat) (es.map fun e => e.val)).foldl (fun s e => decidePost s d.toNat e) s) := by
  have hexec : exec (.postboxArbitration d es) s = execPostboxArbitration d es s := rfl
  rw [hexec, execPostboxArbitration, if_neg (by simp [hlive, hbox])]

/-- A message of an engine's postbox becomes collectable. -/
theorem exec_messageCollectable {s : State} {d : BitVec 8} {e : Eng} {k : Nat} {p : Place} (hlive : live s = true) (hbox : d.toNat < 192)
    (hreleased : released (eng s e) k = true) (hfirst : (boxOf s d.toNat).find? (fun p => p.msg.sender == e.val && !p.ready) = some p)
    (hserial : p.serial = k) :
    exec (.messageCollectable d e k) s = .next (setBox s d.toNat ((boxOf s d.toNat).map fun x =>
      if (x.msg.sender == e.val && !x.ready) && x.serial == k then { x with ready := true } else x)) := by
  have hexec : exec (.messageCollectable d e k) s = execMessageCollectable d e k s := rfl
  have hok : boxOk d.toNat = true := by simp [boxOk, hbox]
  have hhost : ¬(0xf0 ≤ d.toNat ∧ ready s d.toNat = 0) := by omega
  rw [hexec, execMessageCollectable, if_neg (by simp [hlive, hok])]
  simp only [hfirst, hserial, hreleased, and_self, if_true, if_neg hhost]

/-! ## COLLECT -/

/-- What COLLECT makes of an engine. -/
def collected (q : Fin 4) (g : Engine) : Engine :=
  match takeFirst (fun p => p.ready) g.box with
  | some (p, l) =>
    setQuad { g with box := l, nr := false } q (wd (p.msg.sender * 65536 + p.msg.tag)) (wd p.msg.w1) (wd p.msg.w2) (wd p.msg.w3)
  | none => setQuad { g with nr := true } q 0 0 0 0

theorem exec_collect (s : State) (e : Eng) (q : Fin 4) :
    exec (.collect e q) s = instr s e 1 ((List.range 4).map (quad q)) fun g => .done (setEng s e (collected q g)) := rfl

/-- Settles O20: POST, the arbiter's turn and its decisions, the release of a message, and COLLECT. -/
theorem messagesAreGrantedThenCollected : Obligations.MessagesAreGrantedThenCollected := by
  refine ⟨?post, fun d es s hlive hbox => exec_postboxArbitration es hlive hbox,
    fun s d e k m hout => ⟨decidePost_refused hout, decidePost_granted hout⟩,
    fun d e k s p hlive hbox hreleased hfirst hserial => exec_messageCollectable hlive hbox hreleased hfirst hserial, ?collect⟩
  case post =>
    rintro e q rb s _ _ rfl rfl huses hruns
    rw [exec_post]
    exact ⟨fun hbox => instr_after_of_uses hruns huses (if_pos hbox),
      fun hbox => instr_after_of_uses hruns huses (if_neg (ne_true_of_eq_false hbox))⟩
  case collect =>
    rintro e q s _ rfl huses hruns
    rw [exec_collect]
    have hcompletes := instr_after_of_uses hruns huses (body := fun g => .done (setEng s e (collected q g))) rfl
    refine ⟨fun p l hfirst => ?some, fun hnone => ?none⟩
    case some =>
      simp only [collected, hfirst] at hcompletes ⊢
      exact hcompletes
    case none =>
      simp only [collected, hnone] at hcompletes ⊢
      exact hcompletes

end Sys2Proof.Machine
end

section
/-! WATCH, TIMEAT and WAIT (R160 to R164), and the statement about them. -/
namespace Sys2Proof.Machine

theorem bitOf_eq_getLsbD {w : Nat} (a : BitVec w) (i : Nat) : bitOf a.toNat i = a.getLsbD i := by
  rw [bitOf_eq_testBit, BitVec.testBit_toNat]

/-! ## WATCH -/

/-- What WATCH does to an engine. -/
def watchEff (s : State) (e : Eng) (ra : Reg) (g : Engine) : Eff :=
  if (reg g ra).toNat < 0x80000 ∨ 0x100000 ≤ (reg g ra).toNat then .trap 3 (reg g ra).toNat 0
  else .done (setEng s e { g with watch := some ((reg g ra).toNat - 0x80000), watchL := false })

theorem exec_watch (s : State) (e : Eng) (ra : Reg) : exec (.watch e ra) s = instr s e 1 ([ra].map Fin.val) (watchEff s e ra) := rfl

/-! ## TIMEAT -/

/-- The instant that a pair names, in ns, modulo the span of the wake counter. -/
def pairNs (p : Nat) : Nat := p / 2 ^ 30 * 1000000000 + p % 2 ^ 30

/-- The module's instant in ns. -/
def timeNs (s : State) : Nat := s.time.sec * 1000000000 + s.time.ns

/-- A pair holds 48 bits. -/
theorem pairVal_lt (g : Engine) (r : Nat) : pairVal g r < 2 ^ 48 := by
  have hhigh := (reg g r).isLt
  have hlow := (reg g (r + 1)).isLt
  unfold pairVal
  omega

theorem wakeTime_eq (s : State) (p : Nat) : wakeTime s p =
    if (pairNs p + wakeSpan - timeNs s % wakeSpan) % wakeSpan = 0 ∨ wakeSpan / 2 < (pairNs p + wakeSpan - timeNs s % wakeSpan) % wakeSpan then none
    else some ((timeNs s + (pairNs p + wakeSpan - timeNs s % wakeSpan) % wakeSpan) / 1000000000,
      (timeNs s + (pairNs p + wakeSpan - timeNs s % wakeSpan) % wakeSpan) % 1000000000) := rfl

/-- An instant of the pair within half the span ahead is the wake time. -/
theorem wakeTime_of_ahead {s : State} {p t0 i : Nat} (ht0 : t0 = timeNs s) (hafter : t0 < i) (hwithin : i ≤ t0 + 131072 * 1000000000)
    (hi : i % (262144 * 1000000000) = p / 2 ^ 30 * 1000000000 + p % 2 ^ 30) : wakeTime s p = some (i / 1000000000, i % 1000000000) := by
  subst ht0
  rw [← pairNs] at hi
  have hdist : (pairNs p + wakeSpan - timeNs s % wakeSpan) % wakeSpan = i - timeNs s := by
    unfold wakeSpan
    omega
  have hsum : timeNs s + (i - timeNs s) = i := by omega
  rw [wakeTime_eq, hdist, hsum, if_neg (by unfold wakeSpan; omega)]

/-- The wake time is an instant of the pair, within half the span ahead. -/
theorem wakeTime_spec {s : State} {p t0 w n : Nat} (ht0 : t0 = timeNs s) (hp : p < 2 ^ 48) (hns : p % 2 ^ 30 < 1000000000)
    (hwake : wakeTime s p = some (w, n)) :
    w % 2 ^ 18 = p / 2 ^ 30 % 2 ^ 18 ∧ n = p % 2 ^ 30 ∧ t0 < w * 1000000000 + n ∧ w * 1000000000 + n ≤ t0 + 131072 * 1000000000 := by
  subst ht0
  rw [wakeTime_eq] at hwake
  split at hwake
  · simp at hwake
  next hahead =>
    simp only [Option.some.injEq, Prod.mk.injEq] at hwake
    obtain ⟨rfl, rfl⟩ := hwake
    generalize hd : (pairNs p + wakeSpan - timeNs s % wakeSpan) % wakeSpan = d at hahead ⊢
    unfold wakeSpan pairNs at *
    generalize timeNs s = t at *
    omega

/-- An engine with the wake time w, or with the latch set where there is none. -/
def armed (g : Engine) (w : Option (Nat × Nat)) : Engine := { g with wake := w, timeL := w.isNone }

theorem reg_armed (g : Engine) (w : Option (Nat × Nat)) (k : Nat) : reg (armed g w) k = reg g k := rfl

theorem flags_armed (g : Engine) (w : Option (Nat × Nat)) : flags (armed g w) = flags g := rfl

/-- Beyond its wake time and latch an engine that retires armed is as one that retires. -/
theorem engRest_retire_armed (s : State) (e : Nat) (w : Option (Nat × Nat)) (pc : Word) :
    engRest { eng (retire (setEng s e (armed (eng s e) w)) e pc) e with wake := none, timeL := false } =
      engRest { eng s e with wake := none, timeL := false } := by
  rw [eng_retire, eng_setEng_same]
  rfl

/-- What TIMEAT does to an engine. -/
def timeatEff (s : State) (e : Eng) (ra : Reg) (g : Engine) : Eff :=
  if !pairOk ra || decide (1000000000 ≤ pairVal g ra % 2 ^ 30) then .trap 1 (encR 0x3a 0 ra 0 0).toNat 0
  else .done (setEng s e (armed g (wakeTime s (pairVal g ra))))

section
variable {s : State} {e : Eng} {ra : Reg} (hpair : pairOk ra = true)
include hpair

theorem exec_timeat : exec (.timeat e ra) s = instr s e 1 ([ra, ra + 1].map Fin.val) (timeatEff s e ra) := by
  simp only [List.map_cons, List.map_nil, val_add_one_of_pairOk hpair]
  rfl

variable (hruns : Runs s e 1 [ra, ra + 1])
include hruns

/-- TIMEAT of a pair below a second changes the wake time and its latch alone. -/
theorem exec_timeat_arms (hns : pairVal (eng s e) ra % 2 ^ 30 < 1000000000) :
    exec (.timeat e ra) s = .next (after s (setEng s e (armed (eng s e) (wakeTime s (pairVal (eng s e) ra)))) e) := by
  rw [exec_timeat hpair]
  exact instr_after hruns (if_neg (by simpa [hpair] using hns))

theorem exec_timeat_illegal (hns : 1000000000 ≤ pairVal (eng s e) ra % 2 ^ 30) (htip : (eng s e).tip = false)
    (hloads : loadsOut (eng s e) = false) : ∃ t, exec (.timeat e ra) s = .next t ∧ Trapped s t e 1 (encR 0x3a 0 ra 0 0) 0 := by
  rw [exec_timeat hpair, ← wd_toNat (encR 0x3a 0 ra 0 0)]
  exact exists_trapped (d2 := 0) hruns (if_pos (by simpa using .inr hns)) htip hloads

end

theorem exec_timeatDisarm {s : State} {e : Eng} (hruns : Runs s e 1 []) :
    exec (.timeatDisarm e) s = .next (after s (setEng s e { eng s e with wake := none, timeL := false }) e) := by
  have hexec : exec (.timeatDisarm e) s =
      instr s e 1 (([] : List Reg).map Fin.val) fun g => .done (setEng s e { g with wake := none, timeL := false }) := rfl
  rw [hexec]
  exact instr_after hruns rfl

/-- The wake time has been reached. -/
theorem exec_timeLatchSet {s : State} {e : Eng} {w n : Nat} (hlive : live s = true) (hwake : (eng s e).wake = some (w, n))
    (hreached : w < s.time.sec ∨ (w = s.time.sec ∧ n ≤ s.time.ns)) :
    exec (.timeLatchSet e) s = .next (setEng s e { eng s e with wake := none, timeL := true }) := by
  have hexec : exec (.timeLatchSet e) s = execTimeLatchSet e s := rfl
  have hnot : ¬((!live s || decide (s.time.sec < w) || (s.time.sec == w && decide (s.time.ns < n))) = true) := by
    simp only [hlive, Bool.not_true, Bool.false_or, Bool.or_eq_true, Bool.and_eq_true, decide_eq_true_eq, beq_iff_eq]
    omega
  simp only [hexec, execTimeLatchSet, hwake, if_neg hnot]

/-! ## WAIT -/

/-- Which conditions hold, bit by bit. -/
theorem waitHolds_eq (g : Engine) (c : BitVec 4) : waitHolds g c.toNat =
    ((c.getLsbD 0 && pk g) || (c.getLsbD 1 && g.watchL) || (c.getLsbD 2 && g.timeL) || (c.getLsbD 3 && !g.frames.isEmpty)) := by
  simp only [waitHolds, bitOf_eq_getLsbD]

/-- What WAIT does to an engine. -/
def waitEff (s : State) (e : Eng) (c : BitVec 4) (g : Engine) : Eff :=
  if e.val = 0 ∧ rdF s fPWR_MODE_SLEEP ≠ 0 then
    (if !g.kp then .trap 2 (encI 0x39 0 0 c.toNat).toNat 0
     else .hold (requestPair (setEng s e { g with st := .waiting, conds := 0, sleeping := true }) (rdF s fPWR_MODE_SLEEP) (rdF s fPWR_LEVEL_REQ)))
  else if c = 0 || waitHolds g c.toNat then .done s
  else .hold (setEng s e { g with st := .waiting, conds := c.toNat })

theorem exec_wait (s : State) (e : Eng) (c : BitVec 4) : exec (.wait e c) s = instr s e 1 (([] : List Reg).map Fin.val) (waitEff s e c) := rfl

/-- An instruction that runs and completes later. -/
theorem instr_of_runs_hold {s s' : State} {e : Eng} {size : Nat} {uses : List Reg} {body : Engine → Eff} (hruns : Runs s e size uses)
    (hbody : body (eng s e) = .hold s') : instr s e size (uses.map Fin.val) body = .next s' := by
  obtain ⟨hable, hstep, hpast, hdue, hnoted, hfetch, hloading⟩ := hruns
  rw [instr_runs body hable hstep hpast hdue hnoted hfetch (by simpa [List.any_map] using hloading), hbody]

section
variable {s : State} {e : Eng} {c : BitVec 4}

theorem exec_wait_completes (hruns : Runs s e 1 []) (hawake : e.val ≠ 0 ∨ rdF s fPWR_MODE_SLEEP = 0)
    (hholds : c = 0 ∨ waitHolds (eng s e) c.toNat = true) : exec (.wait e c) s = .next (after s s e) := by
  rw [exec_wait]
  refine instr_after hruns ?_
  rw [waitEff, if_neg (by omega), if_pos (by simpa using hholds)]

theorem exec_wait_waits (hruns : Runs s e 1 []) (hawake : e.val ≠ 0 ∨ rdF s fPWR_MODE_SLEEP = 0) (hsome : c ≠ 0)
    (hnone : waitHolds (eng s e) c.toNat = false) :
    exec (.wait e c) s = .next (setEng s e { eng s e with st := .waiting, conds := c.toNat }) := by
  rw [exec_wait]
  refine instr_of_runs_hold hruns ?_
  rw [waitEff, if_neg (by omega), if_neg (by simpa [hnone] using hsome)]

theorem exec_wait_sleeps (hruns : Runs s 0 1 []) (hmode : rdF s fPWR_MODE_SLEEP ≠ 0) (hkeeper : (eng s 0).kp = true) :
    exec (.wait 0 c) s = .next (requestPair (setEng s 0 { eng s 0 with st := .waiting, conds := 0, sleeping := true })
      (rdF s fPWR_MODE_SLEEP) (rdF s fPWR_LEVEL_REQ)) := by
  rw [exec_wait]
  refine instr_of_runs_hold hruns ?_
  have hkeeper' : (!(eng s (0 : Eng)).kp) ≠ true := by
    rw [show (eng s (0 : Eng)).kp = true from hkeeper]
    decide
  rw [waitEff, if_pos ⟨rfl, hmode⟩, if_neg hkeeper']
  rfl

theorem exec_waitWake (hlive : live s = true) (hwaits : (eng s e).st = .waiting) (hstep : (eng s e).step = false)
    (hgated : (eng s e).gated = false) (hawake : (eng s e).sleeping = false) (hholds : waitHolds (eng s e) (eng s e).conds = true) :
    exec (.waitWake e) s = .next (after s (setEng s e { eng s e with st := .running, conds := 0 }) e) := by
  have hexec : exec (.waitWake e) s = execWaitWake e s := rfl
  rw [hexec, execWaitWake, if_neg (by simp [hlive, hwaits, hgated, hawake, hholds])]
  simp only [endInstr, hstep, Bool.false_eq_true, if_false]
  rfl

end

/-- Settles O21: WATCH, TIMEAT, its disarm and latch, WAIT and its wake, and the sleep entry. -/
theorem watchesWakeTimesAndWaits : Obligations.WatchesWakeTimesAndWaits := by
  refine ⟨?watch, ?timeat, fun e s hruns => exec_timeatDisarm hruns, fun e s w n hlive hwake hreached => exec_timeLatchSet hlive hwake hreached, ?wait,
    fun c s hruns hmode hkeeper => exec_wait_sleeps hruns hmode hkeeper⟩
  case watch =>
    rintro e ra s _ rfl hruns
    rw [exec_watch]
    exact ⟨fun hlow hhigh => instr_after hruns (if_neg (by omega)),
      fun hout htip hloads => exists_trapped (d2 := 0) hruns (if_pos hout) htip hloads⟩
  case timeat =>
    rintro e ra s _ t0 rfl ht0 hpair hruns
    rw [← timeNs] at ht0
    refine ⟨fun hns => ?arms, exec_timeat_illegal hpair hruns⟩
    refine ⟨_, exec_timeat_arms hpair hruns hns, onlyEngine_retire .., fun k => ?regs, ?flags, goesOnAt_retire .., ?rest, ?latch, ?ahead, ?spec⟩
    case regs => rw [after, reg_retire, eng_setEng_same, reg_armed]
    case flags => rw [after, flags_retire, eng_setEng_same, flags_armed]
    case rest => exact engRest_retire_armed ..
    all_goals
      rw [after, eng_retire, eng_setEng_same]
      generalize hwake : wakeTime s (pairVal (eng s e) ra) = wake
    case latch => exact fun hnone => Option.isNone_iff_eq_none.2 hnone
    case ahead =>
      intro i hafter hwithin hi
      rw [← hwake]
      exact wakeTime_of_ahead ht0 hafter hwithin hi
    case spec =>
      intro w n hsome
      have hsome' : wake = some (w, n) := hsome
      refine ⟨congrArg Option.isNone hsome', wakeTime_spec ht0 (pairVal_lt _ _) hns (hwake.trans hsome')⟩
  case wait =>
    rintro e c s _ rfl
    rw [← waitHolds_eq]
    refine ⟨fun hruns hawake => ⟨exec_wait_completes hruns hawake, exec_wait_waits hruns hawake⟩,
      fun hlive hwaits hstep hgated hawake hconds hholds => ?_⟩
    exact exec_waitWake hlive hwaits hstep hgated hawake (hconds ▸ hholds)

end Sys2Proof.Machine
end

section
/-! TRAP, the illegal trap, RTT and sample traps (R111 to R114, R129, R130, R132, R165), errors in instruction words (R104), and the statement
about them. -/
namespace Sys2Proof.Machine

/-! ## TRAP and illegal encodings -/

/-- With TIP set a trap is a double trap (R114). -/
theorem takeTrap_double {s : State} {e : Nat} (c d1 d2 : Nat) (htip : (eng s e).tip = true) :
    takeTrap s e c d1 d2 = failEngine (emit s 0x040010 (e + 256 * c) (eng s e).pc.toNat (dataW s e 0x7ff8).toNat) e 0x040010 := by
  simp only [takeTrap, htip, if_true]

theorem exec_trap {s : State} {e : Eng} (n : BitVec 4) (hruns : Runs s e 1 []) (hloads : loadsOut (eng s e) = false) :
    exec (.trap e n) s = .next (takeTrap s e (0x10 + n.toNat) n.toNat 0) := by
  have hexec : exec (.trap e n) s = instr s e 1 (([] : List Reg).map Fin.val) fun _ => .trap (0x10 + n.toNat) n.toNat 0 := rfl
  rw [hexec]
  exact instr_of_runs_trap hruns rfl hloads

section
variable {s : State} {e : Eng} {w0 w1 : Word} (hillegal : bjRun e w0 w1 = none)
include hillegal

theorem exec_illegalEncoding : exec (.illegalEncoding e w0 w1) s =
    instr s e (if opOf w0 = 8 then 2 else 1) (([] : List Reg).map Fin.val) fun _ => .trap 1 w0.toNat (if opOf w0 = 8 then w1.toNat else 0) := by
  have hexec : exec (.illegalEncoding e w0 w1) s = execIllegalEncoding e w0 w1 s := rfl
  rw [hexec, execIllegalEncoding, hillegal]
  rfl

variable (htip : (eng s e).tip = false) (hloads : loadsOut (eng s e) = false)
include htip hloads

theorem exec_illegalEncoding_one (hop : opOf w0 ≠ 8) (hruns : Runs s e 1 []) :
    ∃ t, exec (.illegalEncoding e w0 w1) s = .next t ∧ Trapped s t e 1 w0 0 := by
  rw [exec_illegalEncoding hillegal]
  simp only [if_neg hop]
  obtain ⟨t, ht, htrapped⟩ := exists_trapped (d2 := 0) (body := fun _ => .trap 1 w0.toNat 0) hruns rfl htip hloads
  rw [wd_toNat] at htrapped
  exact ⟨t, ht, htrapped⟩

theorem exec_illegalEncoding_two (hop : opOf w0 = 8) (hruns : Runs s e 2 []) :
    ∃ t, exec (.illegalEncoding e w0 w1) s = .next t ∧ Trapped s t e 1 w0 w1 := by
  rw [exec_illegalEncoding hillegal]
  simp only [if_pos hop]
  obtain ⟨t, ht, htrapped⟩ := exists_trapped (body := fun _ => .trap 1 w0.toNat w1.toNat) hruns rfl htip hloads
  rw [wd_toNat, wd_toNat] at htrapped
  exact ⟨t, ht, htrapped⟩

end

/-! ## RTT -/

/-- The engine that RTT goes on with: its flags and level from the record, TIP clear. -/
def returned (s : State) (e : Eng) (g : Engine) : Engine :=
  { setFl g (dataW s e 0x7ff9).toNat with kp := bitOf (dataW s e 0x7ffa).toNat 5, tip := false }

/-- What RTT does to an engine. -/
def rttEff (s : State) (e : Eng) (g : Engine) : Eff :=
  if !g.kp then .trap 2 (encR 0x3d 0 0 0 0).toNat 0
  else .jump (setEng s e (returned s e g)) (wd ((dataW s e 0x7ff8).toNat % 32768))

theorem exec_rtt (s : State) (e : Eng) : exec (.rtt e) s = instr s e 1 (([] : List Reg).map Fin.val) (rttEff s e) := rfl

theorem exec_rtt_returns {s : State} {e : Eng} (hruns : Runs s e 1 []) (hkeeper : (eng s e).kp = true) :
    exec (.rtt e) s = .next (retire (setEng s e (returned s e (eng s e))) e (dataW s e 0x7ff8 &&& 0x7fff)) := by
  rw [exec_rtt, ← wd_low15, bitsOf_zero]
  exact instr_of_runs_jump hruns (if_neg (by simp [hkeeper]))

theorem exec_rtt_privilege {s : State} {e : Eng} (hruns : Runs s e 1 []) (huser : (eng s e).kp = false) (htip : (eng s e).tip = false)
    (hloads : loadsOut (eng s e) = false) : ∃ t, exec (.rtt e) s = .next t ∧ Trapped s t e 2 (encR 0x3d 0 0 0 0) 0 := by
  rw [exec_rtt, ← wd_toNat (encR 0x3d 0 0 0 0)]
  exact exists_trapped (d2 := 0) hruns (if_pos (by simp [huser])) htip hloads

/-- A pc of 15 bits is gone on at as it is. -/
theorem goesOnAt_low15 {g : Engine} {w : Word} (h : GoesOnAt g (w &&& 0x7fff)) : g.pc = w &&& 0x7fff ∧ g.past = false := by
  obtain ⟨hpc, hpast⟩ := h
  have hlt : (w &&& 0x7fff).toNat < 32768 := by
    rw [BitVec.toNat_and]
    exact Nat.lt_of_le_of_lt Nat.and_le_right (by decide)
  refine ⟨?_, ?_⟩
  · rw [hpc, Nat.mod_eq_of_lt hlt, wd_toNat]
  · rw [hpast, decide_eq_false (by omega)]

/-! ## Samples -/

section
variable {s : State} {e : Eng}

theorem exec_sampleIntervalExpiry (hlive : live s = true) (hdue : sampleDue s e = true) :
    exec (.sampleIntervalExpiry e) s = .next (expire s e) := by
  have hexec : exec (.sampleIntervalExpiry e) s = execSampleIntervalExpiry e s := rfl
  rw [hexec, execSampleIntervalExpiry, if_neg (by simp [hlive, hdue])]

theorem expire_noted (htip : (eng s e).tip = false) :
    expire s e = setEng s e { eng s e with noted := some ((eng s e).lastPc, 0), count := 0 } := by
  simp only [expire, htip, Bool.false_eq_true, if_false]

theorem expire_dropped (htip : (eng s e).tip = true) :
    expire s e = setEng s e { eng s e with count := 0, dropped := (eng s e).dropped + 1 } := by
  simp only [expire, htip, if_true]

theorem exec_sampleTrap (hable : able s e = true) (hloads : loadsOut (eng s e) = false) :
    exec (.sampleTrap e) s = .next (sampleTrap s e) := by
  have hexec : exec (.sampleTrap e) s = execSampleTrap e s := rfl
  rw [hexec, execSampleTrap, if_neg (by simp [hable, hloads])]

variable {pc : Word} {k : Nat} (hnoted : (eng s e).noted = some (pc, k))
include hnoted

theorem sampleTrap_dropped (htip : (eng s e).tip = true) :
    sampleTrap s e = setEng s e { eng s e with noted := none, dropped := (eng s e).dropped + 1 } := by
  simp only [sampleTrap, hnoted, htip, if_true]

theorem sampleTrap_entered (htip : (eng s e).tip = false) :
    sampleTrap s e = enterTrap (setEng s e { eng s e with noted := none, dropped := 0 }) e 0xa pc.toNat 0 k (eng s e).dropped := by
  simp only [sampleTrap, hnoted, htip, Bool.false_eq_true, if_false]

end

/-- Settles O22: TRAP, illegal encodings, RTT, the expiry of the interval, the sample trap, and the errors of instruction words. -/
theorem trapsSaveAndReturnRestores : Obligations.TrapsSaveAndReturnRestores := by
  refine ⟨?trap, ?illegal, ?rtt, ?expiry, ?sample, ?ecc⟩
  case trap =>
    intro e n s hruns hloads
    rw [exec_trap n hruns hloads]
    exact ⟨fun htip => ⟨_, rfl, trapped_takeTrap _ _ _ htip⟩, fun htip => congrArg _ (takeTrap_double _ _ _ htip)⟩
  case illegal =>
    intro e w0 w1 s hillegal htip hloads
    exact ⟨exec_illegalEncoding_one hillegal htip hloads, exec_illegalEncoding_two hillegal htip hloads⟩
  case rtt =>
    intro e s hruns
    refine ⟨fun hkeeper => ?_, exec_rtt_privilege hruns⟩
    obtain ⟨hpc, hpast⟩ := goesOnAt_low15 (goesOnAt_retire (setEng s e (returned s e (eng s e))) e (dataW s e 0x7ff8 &&& 0x7fff))
    refine ⟨_, exec_rtt_returns hruns hkeeper, onlyEngine_retire .., ?tip, hpc, hpast, ?flags, ?nr, ?level, fun k => ?regs, ?rest⟩
    case flags =>
      rw [flags_retire, eng_setEng_same]
      simp only [← bitOf_toNat]
      rfl
    case regs => rw [reg_retire, eng_setEng_same]; rfl
    all_goals rw [eng_retire, eng_setEng_same]
    case tip => rfl
    case nr => exact bitOf_toNat ..
    case level => exact bitOf_toNat ..
    case rest => rfl
  case expiry =>
    intro e s hlive hdue
    rw [exec_sampleIntervalExpiry hlive hdue]
    exact ⟨fun htip => congrArg _ (expire_noted htip), fun htip => congrArg _ (expire_dropped htip)⟩
  case sample =>
    intro e s pc k hable hloads hnoted
    rw [exec_sampleTrap hable hloads]
    refine ⟨fun htip => congrArg _ (sampleTrap_dropped hnoted htip), fun htip => ⟨_, rfl, ?_⟩⟩
    rw [sampleTrap_entered hnoted htip]
    refine ⟨?savedPc, ?fl, ?cause, ?d1, ?d2, ?dropped, ?_⟩
    case savedPc | fl | cause | d2 | dropped => simp [enterTrap, dataW_setData, flWord, pk]
    case d1 => simp [enterTrap, dataW_setData]
    rw [eng_enterTrap_same, eng_setEng_same]
    refine ⟨rfl, rfl, rfl, rfl, rfl, rfl, fun r => rfl, fun j hj => ?others, ?frame⟩
    case others => rw [eng_enterTrap_other _ _ _ _ _ _ hj, eng_setEng_other _ _ hj]
    case frame => simp only [enterTrap, setEng, setData]
  case ecc =>
    intro e s
    have hexec (single : Bool) : exec (.imemEccError ⟨e, single⟩) s = execImemEccError ⟨e, single⟩ s := rfl
    refine ⟨fun hable => ?_, fun hlive => ?_⟩
    · rw [hexec, execImemEccError, if_neg Bool.false_ne_true, if_neg (by simp [hable])]
      rfl
    · rw [hexec, execImemEccError, if_pos rfl, if_pos hlive]

end Sys2Proof.Machine
end

section
/-! What a reset keeps (R94, R516, R553, R619, R672, R673): the end of the selection before it, the reset itself, step 2 of start-up, and the
statement about power-on and RST_N. -/
namespace Sys2Proof.Machine

/-! ## The selection of no reference -/

/-- What RST_N's choice of no reference leaves as it was, of what a reset is to keep. -/
def selectKept (s : State) :=
  (s.pending, s.sys.slots, s.log.recs, s.log.tag, s.log.lockP, s.log.kept, s.fuse, s.time.sec, s.time.ns, s.time.gen,
    { s.cndl with y0 := 0, unbound := false }, rdF s fFLT_HCOUNT_N)

theorem selectKept_wrF (s : State) (f : Fld) (v i off : Nat) (h : fAddr fFLT_HCOUNT_N 0 0 ≠ fAddr f i off) :
    selectKept (wrF s f v i off) = selectKept s := by
  simp only [selectKept, rdF_wrF_word _ _ _ _ _ _ _ _ h, wrF_pending, wrF_sys, wrF_log, wrF_fuse, wrF_time, wrF_cndl]

theorem selectKept_count (s : State) (unit kind obj n : Nat) : selectKept (count s unit kind obj n) = selectKept s := by
  unfold count
  split <;> rfl

theorem selectKept_setFadj (s : State) (f : Int) : selectKept (setFadj s f) = selectKept s := by
  rw [setFadj, selectKept_wrF _ _ _ _ _ (by decide), selectKept_wrF _ _ _ _ _ (by decide)]
  rfl

theorem selectKept_endSlew (s : State) : selectKept (endSlew s) = selectKept s := by
  rw [endSlew, selectKept_wrF _ _ _ _ _ (by decide)]
  rfl

theorem selectKept_emit (s : State) (code p1 p2 p3 : Nat) : selectKept (emit s code p1 p2 p3) = selectKept s := rfl

theorem selectKept_emit2 (s : State) (code p1 p2 : Nat) : selectKept (emit2 s code p1 p2) = selectKept s := rfl

/-- What an entry into holdover fixes is none of it. -/
theorem selectKept_fixed (s : State) (y : Int) (unbound : Bool) (corr : Int) :
    selectKept { s with cndl := { s.cndl with y0 := y, unbound := unbound }, time := { s.time with corr := corr } } = selectKept s := rfl

theorem selectKept_enterHoldover (s : State) : selectKept (enterHoldover s) = selectKept s := by
  simp only [enterHoldover]
  rw [selectKept_emit, selectKept_count, selectKept_wrF _ _ _ _ _ (by decide), selectKept_wrF _ _ _ _ _ (by decide),
    selectKept_wrF _ _ _ _ _ (by decide)]
  refine (selectKept_fixed _ _ _ _).trans ?_
  split
  · rfl
  · exact selectKept_setFadj ..

theorem selectKept_corr (s : State) (corr : Int) : selectKept { s with time := { s.time with corr := corr } } = selectKept s := rfl

theorem selectKept_leaveHoldover (s : State) (ref : Bool) : selectKept (leaveHoldover s ref) = selectKept s := by
  simp only [leaveHoldover]
  split
  · rw [selectKept_emit2, selectKept_setFadj, selectKept_wrF _ _ _ _ _ (by decide), selectKept_corr]
  · rw [selectKept_wrF _ _ _ _ _ (by decide), selectKept_corr]

theorem selectKept_timeState (s : State) : selectKept (timeState s) = selectKept s := by
  unfold timeState
  extract_lets old sel new s1
  have hstate : selectKept s1 = selectKept s := selectKept_wrF _ _ _ _ _ (by decide)
  split_ifs
  · rw [selectKept_enterHoldover, hstate]
  · rw [selectKept_leaveHoldover, hstate]
  · exact hstate

theorem selectKept_selectRef (s : State) (r : Nat) : selectKept (selectRef s r) = selectKept s := by
  unfold selectRef
  extract_lets old
  split
  · rfl
  · rw [selectKept_timeState, selectKept_emit2, selectKept_endSlew, selectKept_wrF _ _ _ _ _ (by decide),
      selectKept_wrF _ _ _ _ _ (by decide)]

/-! ## Records of LOG's own -/

/-- The module but for what a record of LOG's own may change: LOG's buffer and positions, its words, its pace and the counters. -/
def unlogged (s : State) : State :=
  { s with words := [], cnt := State.reset.cnt, sys := { s.sys with pace := [] },
           log := { s.log with buf := [], recs := [], nextSeq := 0, reserved := 0, drop := 0 } }

theorem unlogged_words (s : State) (words : Tab Word) : unlogged { s with words := words } = unlogged s := rfl

theorem unlogged_wrF (s : State) (f : Fld) (v i off : Nat) : unlogged (wrF s f v i off) = unlogged s := unlogged_words s _

theorem unlogged_count (s : State) (unit kind obj n : Nat) : unlogged (count s unit kind obj n) = unlogged s := by
  unfold count
  split <;> rfl

theorem unlogged_logStat (s : State) : unlogged (logStat s) = unlogged s := by rw [logStat, unlogged_wrF, unlogged_wrF, unlogged_wrF]

theorem log_logStat (s : State) : (logStat s).log = s.log := by rw [logStat, wrF_log, wrF_log, wrF_log]

/-- RSTAT and RDROP do not stand in the word of the halts. -/
theorem rdF_logStat_halts (s : State) : rdF (logStat s) fFLT_HCOUNT_N = rdF s fFLT_HCOUNT_N := by
  rw [logStat, rdF_wrF_word _ _ _ _ _ _ _ _ (by decide), rdF_wrF_word _ _ _ _ _ _ _ _ (by decide),
    rdF_wrF_word _ _ _ _ _ _ _ _ (by decide)]

/-- From s to t LOG has stored or dropped records: the committed ones stand as the first ones, and nothing else has changed. -/
structure LogWrote (s t : State) : Prop where
  rest : unlogged t = unlogged s
  recs : s.log.recs <+: t.log.recs
  halts : rdF t fFLT_HCOUNT_N = rdF s fFLT_HCOUNT_N

theorem logWrote_flush {s t : State} (h : LogWrote s t) : LogWrote s (flush t) where
  rest := by
    rw [flush, unlogged_logStat, ← h.rest]
    rfl
  recs := by
    rw [flush, log_logStat]
    exact h.recs.trans (List.prefix_append _ _)
  halts := by
    rw [flush, rdF_logStat_halts]
    exact h.halts

theorem logWrote_ite {s t u : State} {p : Prop} [Decidable p] (ht : LogWrote s t) (hu : LogWrote s u) : LogWrote s (if p then t else u) := by
  split
  · exact ht
  · exact hu

theorem logWrote_dropRecord (s : State) : LogWrote s (dropRecord s) where
  rest := by
    rw [dropRecord, unlogged_logStat, unlogged_count]
    rfl
  recs := by
    rw [dropRecord, log_logStat, count_log]
  halts := by
    rw [dropRecord, rdF_logStat_halts, rdF_congr (count_words ..)]
    rfl

theorem logWrote_storeRecord (s : State) (x : Ev) (supp : Nat) : LogWrote s (storeRecord s x supp) := by
  simp only [storeRecord]
  apply logWrote_ite
  · apply logWrote_flush
    apply logWrote_ite <;> exact ⟨rfl, List.prefix_rfl, rfl⟩
  · apply logWrote_ite <;> exact ⟨rfl, List.prefix_rfl, rfl⟩

theorem logWrote_ownRecord (s : State) (code p1 p2 p3 : Nat) : LogWrote s (ownRecord s code p1 p2 p3) := by
  unfold ownRecord
  split
  · exact logWrote_storeRecord ..
  · exact logWrote_dropRecord s

/-- A record of LOG's own is not committed at once where nothing else waits in the buffer. -/
theorem recs_ownRecord_of_empty {s : State} (hbuf : s.log.buf = []) (code p1 p2 p3 : Nat) : (ownRecord s code p1 p2 p3).log.recs = s.log.recs := by
  unfold ownRecord
  split
  · simp [storeRecord, hbuf, setPace]
  · simp [dropRecord, logStat]

/-! ## Step 2 of start-up -/

/-- The module at step 2 before LOG writes its LIFEMARK. -/
def romSlot (s : State) : State :=
  let c := takeFree { s with sys := { s.sys with phase := .crystal, crystal := false, crystalTries := 0, railAt := s.sys.ticks } }
  let d := takeFree c.2
  setSlot d.2 0 (rootSlot (rootKey s.fuse) (c.1 + 2 ^ 24 * (d.1 % 256)))

theorem logWrote_romStart (s : State) : LogWrote (romSlot s) (romStart s) := logWrote_ownRecord ..

/-- With nothing in the buffer step 2 commits nothing. -/
theorem recs_romStart_of_empty {s : State} (hbuf : s.log.buf = []) : (romStart s).log.recs = s.log.recs :=
  recs_ownRecord_of_empty (s := romSlot s) hbuf ..

/-- No slot but slot 0 is loaded where none stands. -/
theorem tget_setSlot_zero {s : State} (hslots : s.slots = []) (x : KeySlot) {k : Nat} (hk : k ≠ 0) :
    tget (fun _ => none) ((setSlot s 0 x).slots.map fun x => (x.1, some x.2)) k = none := by
  simp only [setSlot, hslots, tset]
  split
  · rfl
  · exact if_neg (Ne.symm hk)

theorem romSlot_words (y : State) : (romSlot y).words = y.words := rfl

theorem romSlot_log (y : State) : (romSlot y).log = y.log := rfl

/-- Before its LIFEMARK step 2 has changed no more than the phase and slot 0. -/
theorem exists_romSlot (y : State) (hslots : y.slots = []) : ∃ free slots,
    unlogged (romSlot y) = unlogged { y with
      sys := { y.sys with phase := .crystal, crystal := false, crystalTries := 0, railAt := y.sys.ticks, free := free }
      slots := slots } ∧
    ∀ k, k ≠ 0 → tget (fun _ => none) (slots.map fun x => (x.1, some x.2)) k = none := by
  simp only [romSlot]
  generalize rootSlot (rootKey y.fuse) _ = x
  exact ⟨_, _, rfl, fun k hk => tget_setSlot_zero (s := y) hslots x hk⟩

/-! ## The reset -/

/-- What the module is reset from: on a power-on as it is, else with no reference selected. -/
def deselected (s : State) (cold : Bool) : State := if cold then s else endSlew (selectRef s 0)

theorem selectKept_deselected (s : State) (cold : Bool) : selectKept (deselected s cold) = selectKept s := by
  cases cold
  · exact (selectKept_endSlew _).trans (selectKept_selectRef s 0)
  · rfl

/-- A table without the keys that do not pass. -/
theorem tget_filter {α : Type} (d : Nat → α) (p : Nat → Bool) (t : Tab α) (k : Nat) :
    tget d (t.filter fun x => p x.1) k = if p k then tget d t k else d k := by
  induction t with
  | nil => simp [tget]
  | cons x t ih =>
    by_cases hk : x.1 = k
    · subst hk
      by_cases hx : p x.1 = true
      · simp [tget, hx]
      · simpa [tget, hx] using ih
    · by_cases hx : p x.1 = true <;> simp [tget, hx, hk, ih]

/-- The module but for its unit words. -/
def wordless (s : State) : State := { s with words := [] }

theorem wordless_words (s : State) (words : Tab Word) : wordless { s with words := words } = wordless s := rfl

theorem wordless_wrW (s : State) (a : Nat) (v : Word) : wordless (wrW s a v) = wordless s := wordless_words s _

theorem wordless_wrF (s : State) (f : Fld) (v i off : Nat) : wordless (wrF s f v i off) = wordless s := wordless_words s _

theorem wordless_logStat (s : State) : wordless (logStat s) = wordless s := by rw [logStat, wordless_wrF, wordless_wrF, wordless_wrF]

theorem wordless_lcState (s : State) : wordless (lcState s) = wordless s := wordless_words s _

/-- LCSTATE does not stand in the word of the halts. -/
theorem rdF_lcState_halts (s : State) : rdF (lcState s) fFLT_HCOUNT_N = rdF s fFLT_HCOUNT_N := by
  have hword : fAddr fFLT_HCOUNT_N 0 0 ≠ fAddr fKEY_LCSTATE_STATE 0 0 := by decide
  rw [lcState, rdF, rdW_wrW_other _ _ hword]
  rfl

/-- What the module is after a reset, apart from its words: x is what it was reset from. -/
structure WipedOf (x r : State) (cold : Bool) : Prop where
  pending : r.pending = x.pending
  log : r.log = logKept x.log cold
  images : r.sys.slots = x.sys.slots
  running : r.sys.halted = false
  fuse : r.fuse = { x.fuse with op := none, state := x.fuse.blown }
  engs : r.engs = []
  qm : r.qm = State.reset.qm
  flights : r.flights = []
  acc : r.key.acc = []
  msec : r.msec = State.reset.msec
  flt : r.flt = State.reset.flt
  mpe : r.mpe = mpeReset
  store : r.hst.store = []
  slots : r.slots = []
  onPower : cold = true → r.time = timeReset
  onPulse : cold = false → r.time.sec = x.time.sec ∧ r.time.ns = x.time.ns ∧ r.time.gen = x.time.gen ∧ r.cndl = x.cndl

theorem WipedOf.congr {x r q : State} {cold : Bool} (h : WipedOf x q cold) (hr : wordless r = wordless q) : WipedOf x r cold where
  pending := (congrArg State.pending hr :).trans h.pending
  log := (congrArg State.log hr :).trans h.log
  images := (congrArg (fun s : State => s.sys.slots) hr :).trans h.images
  running := (congrArg (fun s : State => s.sys.halted) hr :).trans h.running
  fuse := (congrArg State.fuse hr :).trans h.fuse
  engs := (congrArg State.engs hr :).trans h.engs
  qm := (congrArg State.qm hr :).trans h.qm
  flights := (congrArg State.flights hr :).trans h.flights
  acc := (congrArg (fun s : State => s.key.acc) hr :).trans h.acc
  msec := (congrArg State.msec hr :).trans h.msec
  flt := (congrArg State.flt hr :).trans h.flt
  mpe := (congrArg State.mpe hr :).trans h.mpe
  store := (congrArg (fun s : State => s.hst.store) hr :).trans h.store
  slots := (congrArg State.slots hr :).trans h.slots
  onPower hc := (congrArg State.time hr :).trans (h.onPower hc)
  onPulse hc := by
    obtain ⟨hsec, hns, hgen, hcndl⟩ := h.onPulse hc
    exact ⟨(congrArg (fun s : State => s.time.sec) hr :).trans hsec, (congrArg (fun s : State => s.time.ns) hr :).trans hns,
      (congrArg (fun s : State => s.time.gen) hr :).trans hgen, (congrArg State.cndl hr :).trans hcndl⟩

/-- The kind of a reset: 1 power-on, 2 RST_N. -/
def resetKind (cold : Bool) : Nat := if cold then 1 else 2

/-- The words that a reset keeps. -/
theorem rdF_halts_filter {s r : State} (p : Nat → Bool) (h : r.words = s.words.filter fun x => p x.1) :
    rdF r fFLT_HCOUNT_N = if p (fAddr fFLT_HCOUNT_N 0 0) then rdF s fFLT_HCOUNT_N else 0 := by
  have hreset : bitsOf (resetWord (fAddr fFLT_HCOUNT_N 0 0)).toNat fFLT_HCOUNT_N.lo fFLT_HCOUNT_N.w = 0 := by decide
  rw [rdF, rdW, h, tget_filter]
  split
  · rfl
  · exact hreset

/-- A reset keeps the word of the halts on RST_N alone, and wipes the module otherwise. -/
theorem wipedOf_resetModule (s : State) (onPower : Bool) :
    WipedOf (deselected s onPower) (resetModule s (resetKind onPower)) onPower ∧
    rdF (resetModule s (resetKind onPower)) fFLT_HCOUNT_N = if onPower then 0 else rdF (deselected s onPower) fFLT_HCOUNT_N := by
  have hnot : resetKind onPower ≠ 3 := by cases onPower <;> decide
  have hcold : (resetKind onPower == 1) = onPower := by cases onPower <;> rfl
  unfold resetModule
  extract_lets cold x r t sys time candle host fuse power meas test n n1 n2 n3
  change cold = onPower at hcold
  clear_value cold
  subst hcold
  have hx : x = deselected s cold := rfl
  have hn3 : n3 = n2 := if_neg hnot
  have hwords : wordless n3 = wordless n := by
    rw [hn3]
    simp only [n2, n1, wordless_wrF]
  have hhalts : rdF n3 fFLT_HCOUNT_N = rdF n fFLT_HCOUNT_N := by
    rw [hn3]
    simp only [n2, n1]
    rw [rdF_wrF_word _ _ _ _ _ _ _ _ (by decide), rdF_wrF_word _ _ _ _ _ _ _ _ (by decide),
      rdF_wrF_word _ _ _ _ _ _ _ _ (by decide)]
  refine ⟨WipedOf.congr (q := n) ?_ ((wordless_lcState _).trans ((wordless_logStat _).trans hwords)), ?_⟩
  · refine ⟨rfl, rfl, rfl, rfl, ?fuse, rfl, rfl, rfl, rfl, rfl, rfl, rfl, rfl, rfl, fun hc => ?onPower, fun hc => ?onPulse⟩
    case fuse =>
      simp only [n, if_neg hnot]
      rfl
    case onPower => subst hc; rfl
    case onPulse => subst hc; exact ⟨rfl, rfl, rfl, rfl⟩
  · rw [rdF_lcState_halts, rdF_logStat_halts, hhalts, rdF_halts_filter (s := x) (keepsWord cold) rfl, hx]
    cases cold
    · exact if_pos (by decide)
    · exact if_neg (by decide)

/-! ## The two resets -/

/-- The module y, about to begin step 2, is what a reset of s on power-on or on RST_N leaves of it. -/
structure Restarts (s y : State) (cold : Bool) : Prop where
  pending : y.pending = s.pending
  recs : y.log.recs = s.log.recs
  buf : cold = true → y.log.buf = []
  tag : y.log.tag = s.log.tag
  lockP : y.log.lockP = s.log.lockP
  kept : ∀ k, tget (fun _ => 0) y.log.kept k = tget (fun _ => 0) s.log.kept k + (if cold ∧ k = 0 then 60 else if cold ∧ k = 96 then 1 else 0)
  images : y.sys.slots = s.sys.slots
  running : y.sys.halted = false
  fuse : y.fuse = { s.fuse with op := none, state := s.fuse.blown }
  engs : y.engs = []
  qm : y.qm = State.reset.qm
  flights : y.flights = []
  acc : y.key.acc = []
  msec : y.msec = State.reset.msec
  flt : y.flt = State.reset.flt
  mpe : y.mpe = mpeReset
  store : y.hst.store = []
  slots : y.slots = []
  onPower : cold = true → y.time = timeReset ∧ rdF y fFLT_HCOUNT_N = 0
  onPulse : cold = false → y.time.sec = s.time.sec ∧ y.time.ns = s.time.ns ∧ y.time.gen = s.time.gen ∧
    { y.cndl with y0 := s.cndl.y0, unbound := s.cndl.unbound } = s.cndl ∧ rdF y fFLT_HCOUNT_N = rdF s fFLT_HCOUNT_N

theorem restarts_pulse (s : State) : Restarts s (resetModule s 2) false := by
  obtain ⟨hwiped, hhalts⟩ := wipedOf_resetModule s false
  have hkept := selectKept_deselected s false
  generalize deselected s false = x at hwiped hhalts hkept
  simp only [selectKept, Prod.mk.injEq] at hkept
  obtain ⟨hpending, himages, hrecs, htag, hlockP, hstored, hfuse, hsec, hns, hgen, hcndl, hhalts'⟩ := hkept
  obtain ⟨hsec', hns', hgen', hcndl'⟩ := hwiped.onPulse rfl
  have hlog := hwiped.log
  exact {
    pending := hwiped.pending.trans hpending
    recs := (congrArg LogSt.recs hlog :).trans hrecs
    buf := nofun
    tag := (congrArg LogSt.tag hlog :).trans htag
    lockP := (congrArg LogSt.lockP hlog :).trans hlockP
    kept := fun k => by
      have hkept : (resetModule s 2).log.kept = s.log.kept := (congrArg LogSt.kept hlog :).trans hstored
      rw [hkept]
      rfl
    images := hwiped.images.trans himages
    running := hwiped.running
    fuse := by rw [← hfuse]; exact hwiped.fuse
    engs := hwiped.engs
    qm := hwiped.qm
    flights := hwiped.flights
    acc := hwiped.acc
    msec := hwiped.msec
    flt := hwiped.flt
    mpe := hwiped.mpe
    store := hwiped.store
    slots := hwiped.slots
    onPower := nofun
    onPulse := fun _ => by
      refine ⟨hsec'.trans hsec, hns'.trans hns, hgen'.trans hgen, ?_, hhalts.trans hhalts'⟩
      have hsame : (resetModule s 2).cndl = x.cndl := hcndl'
      rw [hsame]
      exact (congrArg (fun c : CndlSt => { c with y0 := s.cndl.y0, unbound := s.cndl.unbound }) hcndl :) }

/-- A power-on begins step 2 with its journal committed. -/
def poweredOn (s : State) (a b : Bool) : State :=
  let x := commitJournal (journalAdd (resetModule s 1) 96)
  { x with sys := { x.sys with feedA := a, feedB := b }, cndl := { x.cndl with onAt := x.sys.ticks } }

/-- The journal after a power-on, and the counters that it commits. -/
theorem exists_commitJournal {s r : State} (hjournal : r.log.journal = s.log.kept) : ∃ journal kept,
    commitJournal (journalAdd r 96) = { r with log := { r.log with journal := journal, kept := kept } } ∧
    ∀ k, tget (fun _ => 0) kept k = tget (fun _ => 0) s.log.kept k + (if k = 0 then 60 else if k = 96 then 1 else 0) := by
  refine ⟨_, _, rfl, fun k => ?_⟩
  simp only [journalAdd, life, hjournal, tget_tset]
  split
  · subst k; rfl
  · split
    · subst k; rfl
    · rfl

theorem restarts_powerOn (s : State) (a b : Bool) : Restarts s (poweredOn s a b) true := by
  obtain ⟨hwiped, hhalts⟩ := wipedOf_resetModule s true
  have hkind : resetKind true = 1 := rfl
  have hfrom : deselected s true = s := rfl
  rw [hkind, hfrom] at hwiped
  rw [hkind, if_pos rfl] at hhalts
  unfold poweredOn
  generalize resetModule s 1 = r at hwiped hhalts ⊢
  have hlog := hwiped.log
  obtain ⟨journal, kept, hcommit, hkept⟩ := exists_commitJournal (congrArg LogSt.journal hlog :)
  rw [hcommit]
  exact {
    pending := hwiped.pending
    recs := (congrArg LogSt.recs hlog :)
    buf := fun _ => (congrArg LogSt.buf hlog :)
    tag := (congrArg LogSt.tag hlog :)
    lockP := (congrArg LogSt.lockP hlog :)
    kept := fun k => by
      simp only [true_and]
      exact hkept k
    images := hwiped.images
    running := hwiped.running
    fuse := hwiped.fuse
    engs := hwiped.engs
    qm := hwiped.qm
    flights := hwiped.flights
    acc := hwiped.acc
    msec := hwiped.msec
    flt := hwiped.flt
    mpe := hwiped.mpe
    store := hwiped.store
    slots := hwiped.slots
    onPower := fun _ => ⟨hwiped.onPower rfl, hhalts⟩
    onPulse := nofun }

/-- What stands after step 2 has begun. -/
theorem kept_of_restarts {s y : State} {cold : Bool} (h : Restarts s y cold) {t : State} (ht : t = romStart y) :
    s.log.recs <+: t.log.recs ∧ (cold = true → t.log.recs = s.log.recs) ∧ t.log.tag = s.log.tag ∧ t.log.lockP = s.log.lockP ∧
    (∀ k, tget (fun _ => 0) t.log.kept k = tget (fun _ => 0) s.log.kept k + (if cold ∧ k = 0 then 60 else if cold ∧ k = 96 then 1 else 0)) ∧
    t.sys.slots = s.sys.slots ∧ FuseGrows s.fuse t.fuse ∧ FuseGrows t.fuse s.fuse ∧ t.fuse.state = s.fuse.blown ∧ t.fuse.op = none ∧
    (∀ e, eng t e = engReset e) ∧ t.qm = State.reset.qm ∧ t.flights = [] ∧ t.key.acc = [] ∧ t.msec = State.reset.msec ∧
    t.flt = State.reset.flt ∧ t.mpe = mpeReset ∧ t.hst.store = [] ∧
    (∀ k, k ≠ 0 → tget (fun _ => none) (t.slots.map fun x => (x.1, some x.2)) k = none) ∧
    t.sys.halted = false ∧ t.sys.phase = .crystal ∧ t.pending = s.pending ∧
    (cold = false → t.time.sec = s.time.sec ∧ t.time.ns = s.time.ns ∧ t.time.gen = s.time.gen ∧
      { t.cndl with y0 := s.cndl.y0, unbound := s.cndl.unbound } = s.cndl ∧ rdF t fFLT_HCOUNT_N = rdF s fFLT_HCOUNT_N) ∧
    (cold = true → t.time = timeReset ∧ rdF t fFLT_HCOUNT_N = 0) := by
  have hwrote := logWrote_romStart y
  rw [← ht] at hwrote
  obtain ⟨free, slots, hslot, hnone⟩ := exists_romSlot y h.slots
  have hrest := hwrote.rest.trans hslot
  have hhalts : rdF t fFLT_HCOUNT_N = rdF y fFLT_HCOUNT_N := hwrote.halts.trans (rdF_congr (romSlot_words y) _ _ _)
  have hprefix := hwrote.recs
  rw [romSlot_log, h.recs] at hprefix
  have hkept : t.log.kept = y.log.kept := (congrArg (fun s : State => s.log.kept) hrest :)
  have hfuse : t.fuse = { s.fuse with op := none, state := s.fuse.blown } := (congrArg State.fuse hrest :).trans h.fuse
  have hengs : t.engs = [] := (congrArg State.engs hrest :).trans h.engs
  have hslots : t.slots = slots := (congrArg State.slots hrest :)
  have htime : t.time = y.time := (congrArg State.time hrest :)
  have hcndl : t.cndl = y.cndl := (congrArg State.cndl hrest :)
  refine ⟨hprefix, fun hc => ?recs, (congrArg (fun s : State => s.log.tag) hrest :).trans h.tag,
    (congrArg (fun s : State => s.log.lockP) hrest :).trans h.lockP, fun k => ?kept,
    (congrArg (fun s : State => s.sys.slots) hrest :).trans h.images, ?grows, ?grows', ?state, ?op, fun e => ?engs,
    (congrArg State.qm hrest :).trans h.qm, (congrArg State.flights hrest :).trans h.flights,
    (congrArg (fun s : State => s.key.acc) hrest :).trans h.acc, (congrArg State.msec hrest :).trans h.msec,
    (congrArg State.flt hrest :).trans h.flt, (congrArg State.mpe hrest :).trans h.mpe,
    (congrArg (fun s : State => s.hst.store) hrest :).trans h.store, fun k hk => ?slots,
    (congrArg (fun s : State => s.sys.halted) hrest :).trans h.running, (congrArg (fun s : State => s.sys.phase) hrest :),
    (congrArg State.pending hrest :).trans h.pending, fun hc => ?onPulse, fun hc => ?onPower⟩
  case recs => rw [ht, recs_romStart_of_empty (h.buf hc), h.recs]
  case kept => rw [hkept, h.kept]
  case grows | grows' => rw [hfuse]; exact ⟨le_rfl, le_rfl, id, fun _ => id, fun _ _ => id, fun _ _ => id⟩
  case state | op => rw [hfuse]
  case engs => rw [eng, hengs]; rfl
  case slots => rw [hslots]; exact hnone k hk
  case onPulse => rw [htime, hcndl, hhalts]; exact h.onPulse hc
  case onPower => rw [htime, hhalts]; exact h.onPower hc

/-- Settles O28: both resets end in step 2, begun from a module that is wiped but for what the statement lists. -/
theorem whatAResetKeeps : Obligations.WhatAResetKeeps := by
  intro s t cold hcold hwarm
  cases cold
  · obtain ⟨hon, hexec⟩ := hwarm rfl
    rw [exec_rstNReset_of_on hon, if_pos (.inl (by decide))] at hexec
    injection hexec with ht
    exact kept_of_restarts (restarts_pulse s) ht.symm
  · obtain ⟨hoff, a, b, hfeed, hexec⟩ := hcold rfl
    have hpower : exec (.powerOn a b true) s = .next (romStart (poweredOn s a b)) := by
      have hexec : exec (.powerOn a b true) s = execPowerOn a b true s := rfl
      rw [hexec, execPowerOn, if_neg (by simp [hoff, hfeed])]
      simp only [railsTried, poweredOn, if_true]
    rw [hpower] at hexec
    injection hexec with ht
    exact kept_of_restarts (restarts_powerOn s a b) ht.symm

end Sys2Proof.Machine
end

section
/-! TAKE, SEND, DROP and ADJ (R148 to R151), and the statement about frames in the packet window. -/
namespace Sys2Proof.Machine

/-- What TAKE does to an engine. -/
def takeEff (s : State) (e : Eng) (g : Engine) : Eff :=
  if !g.win.idle then .done (setEng s e { g with nr := true })
  else match g.frames with
    | [] => .done (setEng s e { g with nr := true })
    | f :: l =>
      if !g.arrived then .stall
      else .done (eqcnt (setEng s e { g with frames := l, arrived := false, win := takenWin f, nr := false }) e)

/-- What SEND does to an engine. -/
def sendEff (s : State) (e : Eng) (g : Engine) : Eff :=
  if g.win.idle then .done (setEng s e { g with nr := true })
  else match sendDest s g.win.queue g.win.hash with
    | some d => .done (offerFrame (setEng s e { g with win := idleWin, nr := false }) (sentFrame e g) d)
    | none => .done (count (setEng s e { g with win := idleWin, nr := false }) 0x0d kQmUnplaced g.win.queue)

/-- What DROP does to an engine. -/
def dropEff (s : State) (e : Eng) (g : Engine) : Eff :=
  if g.win.idle then .done (setEng s e { g with nr := true })
  else .done (count (setEng s e { g with win := idleWin, nr := false }) 0x0c kFlowDropped g.win.flow)

/-- What ADJ does to an engine. -/
def adjEff (s : State) (e : Eng) (rb : Reg) (g : Engine) : Eff :=
  if g.win.idle || decide (12288 < (g.win.len : Int) + (reg g rb).toInt) || decide ((g.win.len : Int) + (reg g rb).toInt < 14) then
    .done (setEng s e { g with nr := true })
  else .done (setEng s e { g with win := adjWin g.win (reg g rb).toInt, nr := false })

section
variable (s : State) (e : Eng) (rb : Reg)

theorem exec_take : exec (.take e) s = instr s e 1 (([] : List Reg).map Fin.val) (takeEff s e) := rfl

theorem exec_send : exec (.send e) s = instr s e 1 (([] : List Reg).map Fin.val) (sendEff s e) := rfl

theorem exec_drop : exec (.drop e) s = instr s e 1 (([] : List Reg).map Fin.val) (dropEff s e) := rfl

theorem exec_adj : exec (.adj e rb) s = instr s e 1 ([rb].map Fin.val) (adjEff s e rb) := rfl

end

section
variable {s : State} {e : Eng} {rb : Reg}

theorem takeEff_taken {f : Frame} {l : List Frame} (hidle : (eng s e).win.idle = true) (hframes : (eng s e).frames = f :: l)
    (harrived : (eng s e).arrived = true) : takeEff s e (eng s e) =
      .done (eqcnt (setEng s e { eng s e with frames := l, arrived := false, win := takenWin f, nr := false }) e) := by
  simp only [takeEff, hidle, hframes, harrived, Bool.not_true, Bool.false_eq_true, if_false]

theorem takeEff_none (hnone : (eng s e).win.idle = false ∨ (eng s e).frames = []) :
    takeEff s e (eng s e) = .done (setEng s e { eng s e with nr := true }) := by
  unfold takeEff
  obtain hheld | hempty := hnone
  · rw [hheld]
    rfl
  · simp only [hempty, ite_self]

theorem sendEff_placed {d : Dest} (hheld : (eng s e).win.idle = false) (hdest : sendDest s (eng s e).win.queue (eng s e).win.hash = some d) :
    sendEff s e (eng s e) = .done (offerFrame (setEng s e { eng s e with win := idleWin, nr := false }) (sentFrame e (eng s e)) d) := by
  simp only [sendEff, hheld, hdest, Bool.false_eq_true, if_false]

theorem sendEff_unplaced (hheld : (eng s e).win.idle = false) (hdest : sendDest s (eng s e).win.queue (eng s e).win.hash = none) :
    sendEff s e (eng s e) =
      .done (count (setEng s e { eng s e with win := idleWin, nr := false }) 0x0d kQmUnplaced (eng s e).win.queue) := by
  simp only [sendEff, hheld, hdest, Bool.false_eq_true, if_false]

theorem exec_frameArrivalInWindow_of_live (hlive : live s = true) (rest : Bool) : exec (.frameArrivalInWindow e rest) s =
    .next (if rest then (if (eng s e).win.idle then s else setEng s e { eng s e with win := { (eng s e).win with got := 12288 } })
      else if (eng s e).frames = [] then s else setEng s e { eng s e with arrived := true }) := by
  have hexec : exec (.frameArrivalInWindow e rest) s = execFrameArrivalInWindow e rest s := rfl
  rw [hexec, execFrameArrivalInWindow, if_neg (by simp [hlive])]
  cases rest <;> rfl

end

/-- Settles O17: TAKE, SEND and DROP by whether the window holds a frame, ADJ by the new length, then the arrivals. -/
theorem framesPassThroughTheWindow : Obligations.FramesPassThroughTheWindow := by
  refine ⟨?engine, ?adj, ?arrival⟩
  case engine =>
    intro e s hruns
    rw [exec_take, exec_send, exec_drop]
    refine ⟨fun hidle f l hframes harrived => instr_after hruns (takeEff_taken hidle hframes harrived),
      fun hnone => instr_after hruns (takeEff_none hnone), fun hheld => ⟨fun d hdest => instr_after hruns (sendEff_placed hheld hdest),
        fun hdest => instr_after hruns (sendEff_unplaced hheld hdest), instr_after hruns (if_neg (ne_true_of_eq_false hheld))⟩,
      fun hidle => ⟨instr_after hruns (if_pos hidle), instr_after hruns (if_pos hidle)⟩⟩
  case adj =>
    rintro e rb s _ rfl hruns
    rw [exec_adj]
    refine ⟨fun hheld hlow hhigh => instr_after hruns (if_neg ?_), fun hout => instr_after hruns (if_pos ?_)⟩
    · simp only [hheld, Bool.false_or, Bool.or_eq_true, decide_eq_true_eq]
      omega
    · obtain hidle | hshort | hlong := hout
      · simp [hidle]
      · simp [hshort]
      · simp [hlong]
  case arrival =>
    intro e s hlive
    rw [exec_frameArrivalInWindow_of_live hlive, exec_frameArrivalInWindow_of_live hlive]
    exact ⟨fun hsome => by rw [if_neg Bool.false_ne_true, if_neg hsome], fun hheld => by rw [if_pos rfl, if_neg (ne_true_of_eq_false hheld)]⟩

end Sys2Proof.Machine
end

section
/-! ECTL and the loaders (R119 to R125, R684), and the statement about them. -/
namespace Sys2Proof.Machine

/-- A SET that its unit accepts. -/
theorem onSet_of_accept {s s' : State} {e a : Nat} {v : Word} (f : State → State) (h : accept s e false a v = some s') :
    onSet s e a v f = .next (f s') := by
  rw [onSet, h]

/-! ## ECTL -/

section
variable {b : Eng} {l : Lan} {k : Fin 8} {v : Word} {s s' : State} (haccept : accept s b false (ectlAddr l k) v = some s')
include haccept

theorem exec_engineRun (hrun : v.getLsbD 0 = true) (hstep : v.getLsbD 1 = false) (hclear : v.getLsbD 3 = false) :
    exec (.engineRun b l k v) s = .next (startEngine (setSample (wrF s' fENG_ECTL_RUN 1 l (0x20 * k.val)) l k v) l k) := by
  have hexec : exec (.engineRun b l k v) s = execEngineRun b l k v s := rfl
  rw [hexec, execEngineRun, if_neg (by simp only [bitOf_toNat, hrun, hstep, hclear]; decide), onSet_of_accept _ haccept]

theorem exec_engineStop (hrun : v.getLsbD 0 = false) (hstep : v.getLsbD 1 = false) (hclear : v.getLsbD 3 = false) {x : State}
    (hx : x = setSample (wrF s' fENG_ECTL_RUN 0 l (0x20 * k.val)) l k v)
    (hbusy : (eng x (engOf l k)).st = .running ∨ (eng x (engOf l k)).st = .waiting) :
    exec (.engineStop b l k v) s =
      .next (setEng x (engOf l k) { eng x (engOf l k) with st := .draining, conds := 0, sleeping := false, step := false }) := by
  have hexec : exec (.engineStop b l k v) s = execEngineStop b l k v s := rfl
  rw [hexec, execEngineStop, if_neg (by simp only [bitOf_toNat, hrun, hstep, hclear]; decide), onSet_of_accept _ haccept]
  simp only [← hx]
  rw [if_pos (by obtain h | h := hbusy <;> simp [h])]

theorem exec_clrfail (hclear : v.getLsbD 3 = true) {x : State} (hx : x = setSample s' l k v) (hfailed : (eng x (engOf l k)).st = .failed) :
    exec (.clrfail b l k v) s = .next (setEng x (engOf l k)
      { setFl (eng x (engOf l k)) 0 with regs := [], pc := 0, tp := 0, past := false, st := .stopped, tip := false, kp := true }) := by
  have hexec : exec (.clrfail b l k v) s = execClrfail b l k v s := rfl
  rw [hexec, execClrfail, if_neg (by simp only [bitOf_toNat, hclear]; decide), onSet_of_accept _ haccept]
  simp only [← hx]
  rw [if_neg (by simp [hfailed])]

section
variable (hstep : v.getLsbD 1 = true) (hclear : v.getLsbD 3 = false) {x y : State} {e : Eng} (hx : x = setSample s' l k v)
  (he : e = Fin.ofNat 192 (engOf l k)) (hstopped : (eng x e).st = .stopped) (hgated : (eng x e).gated = false)
  (hdomain : (dom x (14 + l.val)).failed = false)
  (hy : y = settleSample (setEng x e { eng x e with st := .running, step := true }) e)
include hstep hclear hx he hstopped hgated hdomain hy

/-- A STEP of a stopped engine settles its sample and runs the next instruction, or fails at its word. -/
theorem exec_engineStep (fetch bad : Bool) : exec (.engineStep b l k ⟨v, fetch, bad⟩) s =
    if !(eng y e).past && fetch then .next (fetchFails y e) else runNext e bad y := by
  have hexec : exec (.engineStep b l k ⟨v, fetch, bad⟩) s = execEngineStep b l k ⟨v, fetch, bad⟩ s := rfl
  rw [hexec, execEngineStep, if_neg (by simp only [bitOf_toNat, hstep, hclear]; decide)]
  simp only [haccept, ← hx, ← he]
  rw [if_neg (by simp [hstopped, hgated, hdomain]), ← hy]

theorem exec_engineStep_runs (bad : Bool) : exec (.engineStep b l k ⟨v, false, bad⟩) s = runNext e bad y := by
  rw [exec_engineStep haccept hstep hclear hx he hstopped hgated hdomain hy, Bool.and_false, if_neg Bool.false_ne_true]

theorem exec_engineStep_fails (hpast : (eng y e).past = false) (bad : Bool) :
    exec (.engineStep b l k ⟨v, true, bad⟩) s = .next (fetchFails y e) := by
  rw [exec_engineStep haccept hstep hclear hx he hstopped hgated hdomain hy, hpast]
  exact if_pos rfl

end
end

/-- The word of a NOP runs it. -/
theorem bjRun_nop (e : Eng) (w1 : Word) (bad : Bool) : bjRun e (encR 0x3e 0 0 0 0) w1 bad = some (execNop e) := rfl

/-- With no sample due or noted there is nothing to settle. -/
theorem settleSample_of_none {s : State} {e : Nat} (hdue : sampleDue s e = false) (hnoted : (eng s e).noted = none) : settleSample s e = s := by
  simp [settleSample, hdue, hnoted]

/-- A NOP that an engine runs by a STEP retires and stops the engine. -/
theorem runNext_nop {y : State} {e : Eng} (hable : able y e = true) (hdue : sampleDue y e = false) (hnoted : (eng y e).noted = none)
    (hpast : (eng y e).past = false) (hstep : (eng y e).step = true) (hword : imemW y e (eng y e).pc.toNat = encR 0x3e 0 0 0 0) (bad : Bool) :
    runNext e bad y = .next (stepDone (retire y e ((eng y e).pc + 1)) e) := by
  simp only [runNext, hword, bjRun_nop]
  simp [execNop, instr, hable, hdue, hnoted, hpast, hstep, endInstr]

/-- A stepped engine that waits for nothing is stopped. -/
theorem stepDone_of_idle {s : State} {e : Nat} (hst : (eng s e).st = .running) (hget : (eng s e).get = none) (hout : (eng s e).out = none)
    (hfar : (eng s e).far = []) : stepDone s e = setEng s e { eng s e with step := false, st := .stopped } := by
  simp [stepDone, hst, hget, hout, hfar]

/-- A STEP onto a NOP leaves its engine stopped at the next word. -/
theorem exists_step_nop {x : State} {e : Eng} (hlive : live x = true) (hgated : (eng x e).gated = false) (hget : (eng x e).get = none)
    (hout : (eng x e).out = none) (hfar : (eng x e).far = []) (hnoted : (eng x e).noted = none) (hdue : sampleDue x e = false)
    (hpast : (eng x e).past = false) (hword : imemW x e (eng x e).pc.toNat = encR 0x3e 0 0 0 0) (bad : Bool) :
    ∃ t, runNext e bad (settleSample (setEng x e { eng x e with st := .running, step := true }) e) = .next t ∧
      (eng t e).st = .stopped ∧ (eng t e).step = false ∧ GoesOnAt (eng t e) ((eng x e).pc + 1) ∧ OnlyEngine x t e ∧
      (∀ j, reg (eng t e) j = reg (eng x e) j) ∧ flags (eng t e) = flags (eng x e) := by
  obtain ⟨y, hy⟩ : ∃ y, y = setEng x e { eng x e with st := .running, step := true } := ⟨_, rfl⟩
  have hengine : eng y e = { eng x e with st := .running, step := true } := by rw [hy, eng_setEng_same]
  have hable : able y e = true := by
    have hlive' : live y = true := by rw [hy]; exact hlive
    simp [able, hlive', hengine, hgated, hget, hout]
  have hdue' : sampleDue y e = false := by
    have hcount : (eng y e).count = (eng x e).count := by rw [hengine]
    have hwords : y.words = x.words := by rw [hy]; rfl
    rwa [sampleDue, sampling, onF_congr hwords, rdF_congr hwords, hcount]
  have hnoted' : (eng y e).noted = none := by rw [hengine]; exact hnoted
  have hword' : imemW y e (eng y e).pc.toNat = encR 0x3e 0 0 0 0 := by
    have himem (a : Nat) : imemW y e a = imemW x e a := by rw [hy]; rfl
    have hpc : (eng y e).pc = (eng x e).pc := by rw [hengine]
    rw [himem, hpc]
    exact hword
  have hpast' : (eng y e).past = false := by rw [hengine]; exact hpast
  have hstep' : (eng y e).step = true := by rw [hengine]
  rw [← hy, settleSample_of_none hdue' hnoted', runNext_nop hable hdue' hnoted' hpast' hstep' hword']
  have hretired := eng_retire y e ((eng y e).pc + 1)
  have hst : (eng (retire y e ((eng y e).pc + 1)) e).st = .running := by rw [hretired, hengine]
  have hget' : (eng (retire y e ((eng y e).pc + 1)) e).get = none := by rw [hretired, hengine]; exact hget
  have hout' : (eng (retire y e ((eng y e).pc + 1)) e).out = none := by rw [hretired, hengine]; exact hout
  have hfar' : (eng (retire y e ((eng y e).pc + 1)) e).far = [] := by rw [hretired, hengine]; exact hfar
  rw [stepDone_of_idle hst hget' hout' hfar', hretired, hengine]
  refine ⟨_, rfl, ?_⟩
  rw [eng_setEng_same]
  refine ⟨rfl, rfl, ⟨rfl, rfl⟩, ⟨?frame, fun j hj => ?others⟩, fun j => rfl, rfl⟩
  case frame => rw [hy]; rfl
  case others => rw [eng_setEng_other _ _ hj, eng_retire_other _ _ hj, hy, eng_setEng_other _ _ hj]

/-! ## Start, stop and loaders -/

theorem startEngine_of_stopped {s : State} {l : Lan} {k : Fin 8} (hstopped : (eng s (engOf l k)).st = .stopped)
    (hgated : (eng s (engOf l k)).gated = false) (hdomain : (dom s (14 + l.val)).failed = false) :
    startEngine s l k = setEng s (engOf l k) { eng s (engOf l k) with
      pc := wd (rdF s fENG_EENTRY_ENTRY l (0x20 * k.val)), kp := !onF s fENG_EENTRY_USER l (0x20 * k.val), st := .running,
      past := false, conds := 0 } := by
  rw [startEngine, if_neg (by simp [hstopped, hgated, hdomain])]

theorem exec_engineStopped {e : Eng} {s : State} (hlive : live s = true) (hdrains : (eng s e).st = .draining) (hgated : (eng s e).gated = false)
    (hfar : (eng s e).far = []) (hget : (eng s e).get = none) (hout : (eng s e).out = none) :
    exec (.engineStopped e) s = .next (setEng s e { eng s e with st := .stopped }) := by
  have hexec : exec (.engineStopped e) s = execEngineStopped e s := rfl
  rw [hexec, execEngineStopped, if_neg (by simp [hlive, hdrains, hgated, hfar, hget, hout])]

section
variable {b : Eng} {l : Lan} {v : Word} {s s' : State} (haccept : accept s b false (fAddr fENG_LDGO_ACC l 0) v = some s')
  (hgo : v.getLsbD 2 = true)
include haccept hgo

theorem exec_loaderGo_busy {x : Load} (hbusy : tget (fun _ => none) s'.load l = some x) :
    exec (.loaderGo b l v) s = .next (wrF s' fENG_LDSTAT_WHY 4 l) := by
  have hexec : exec (.loaderGo b l v) s = execLoaderGo b l v s := rfl
  rw [hexec, execLoaderGo, onSet_of_accept _ haccept, if_neg (by simp only [bitOf_toNat, hgo]; decide), if_pos (by simp [hbusy])]

/-- A transfer is asked of an idle loader. -/
theorem exec_loaderGo_idle (hidle : tget (fun _ => none) s'.load l = none) {x : Load} (hx : x = loadOf s' l (v.toNat % 4)) :
    exec (.loaderGo b l v) s = .next (if loadWhy s' l x ≠ 0 then wrF (wrF s' fENG_LDSTAT_STATE 3 l) fENG_LDSTAT_WHY (loadWhy s' l x) l
      else { wrF (wrF s' fENG_LDSTAT_STATE 1 l) fENG_LDSTAT_WHY 0 l with load := tset (fun _ => none) s'.load l (some x) }) := by
  have hexec : exec (.loaderGo b l v) s = execLoaderGo b l v s := rfl
  have hx' : x = loadOf s' l (bitsOf v.toNat 0 2) := by rw [bitsOf_zero]; exact hx
  rw [hexec, execLoaderGo, onSet_of_accept _ haccept, if_neg (by simp only [bitOf_toNat, hgo]; decide), if_neg (by simp [hidle])]
  simp only [← hx']

end

section
variable {l : Lan} {s : State} {x : Load} (hruns : tget (fun _ => none) s.load l = some x) (hlive : live s = true) (hmem : memRuns s = true)
include hruns hlive hmem

theorem exec_loaderDone_true {bs : List Byte} (hbs : bs = dramRead s x.src (64 * x.lines)) {y : State}
    (hy : y = extend (loadBytes (countLines s 0 x.src (64 * x.lines) false) l x.target x.emask x.off bs) x.acc (sha384 (nums bs))) :
    exec (.loaderDone l true) s =
      .next (wrF (wrF { y with load := tset (fun _ => none) y.load l none } fENG_LDSTAT_STATE 2 l) fENG_LDSTAT_WHY 0 l) := by
  have hexec : exec (.loaderDone l true) s = execLoaderDone l true s := rfl
  simp only [hexec, execLoaderDone, hruns, hlive, hmem, Bool.not_true, Bool.or_self, Bool.false_eq_true, if_false, ← hbs, ← hy]

theorem exec_loaderDone_false : exec (.loaderDone l false) s =
    .next (sealFault (takeFree s).2 0x400010 (x.src + 64 * ((takeFree s).1 % x.lines)) 0) := by
  have hexec : exec (.loaderDone l false) s = execLoaderDone l false s := rfl
  simp only [hexec, execLoaderDone, hruns, hlive, hmem, Bool.not_true, Bool.not_false, Bool.or_self, Bool.false_eq_true, if_false, if_true]

end

/-- Settles O23: the four uses of ECTL, the start, the end of a drain, and the loaders. -/
theorem enginesStartStopStepAndLoad : Obligations.EnginesStartStopStepAndLoad := by
  refine ⟨?ectl, ?start, fun e s hlive hdrains hgated hfar hget hout => exec_engineStopped hlive hdrains hgated hfar hget hout, ?go, ?done⟩
  case ectl =>
    intro b l k v s s' haccept
    refine ⟨exec_engineRun haccept, fun hrun hstep hclear x hx hbusy => exec_engineStop haccept hrun hstep hclear hx hbusy, ?step, ?clear⟩
    case clear =>
      rintro hclear x _ hx rfl hfailed
      exact exec_clrfail haccept hclear hx hfailed
    case step =>
      intro hstep hclear x e hx he hstopped hgated hdomain y bad hy
      have hruns := exec_engineStep_runs haccept hstep hclear hx he hstopped hgated hdomain hy bad
      refine ⟨?_, fun hpast => exec_engineStep_fails haccept hstep hclear hx he hstopped hgated hdomain hy hpast bad,
        fun hlive hget hout hfar hnoted hdue hpast hword => ?_⟩
      · obtain ⟨t, ht, _⟩ := everyCommandCompletes (.engineStep b l k ⟨v, false, bad⟩) s
        exact ⟨t, hruns ▸ ht, ht⟩
      · rw [hruns, hy]
        exact exists_step_nop hlive hgated hget hout hfar hnoted hdue hpast hword bad
  case start =>
    rintro s l k _ rfl hstopped hgated hdomain
    exact startEngine_of_stopped hstopped hgated hdomain
  case go =>
    intro b l v s s' haccept hgo
    refine ⟨fun x hbusy => exec_loaderGo_busy haccept hgo hbusy, fun hidle x hx => ?_⟩
    rw [exec_loaderGo_idle haccept hgo hidle hx]
    exact ⟨fun hwhy => by rw [if_pos hwhy], fun hwhy => by rw [if_neg (by simp [hwhy])]⟩
  case done =>
    intro l s x bs hruns hlive hmem hbs
    exact ⟨fun y hy => exec_loaderDone_true hruns hlive hmem hbs hy, exec_loaderDone_false hruns hlive hmem⟩

end Sys2Proof.Machine
end

section
/-! Refresh reports, retraining and bandwidth of the memory (R466 to R468, R472), and the statement about them. -/
namespace Sys2Proof.Machine

/-! ## Refresh reports -/

theorem exec_refreshReportRead {l : List (BitVec 5 × Fin 3)} {s : State} (hmem : memRuns s = true)
    (hpaced : paced s paceRefresh 1250000 = true) (hlen : l.length = 32) : exec (.refreshReportRead l) s =
      .next (l.zipIdx.foldl (fun s x => refreshReport s x.2 x.1.1 x.1.2) (setPace s paceRefresh)) := by
  have hexec : exec (.refreshReportRead l) s = execRefreshReportRead l s := rfl
  rw [hexec, execRefreshReportRead, if_neg (by simp [hmem, hpaced]), List.take_of_length_le hlen.le]

/-- The state of channel c once a report above 85 C of a level has been noted. -/
def reported (s : State) (c : Nat) (code : BitVec 5) (lvl : Fin 3) : State :=
  let s1 := wrF s fMEM_CHSTAT_REPORT code.toNat 0 c
  wrF { s1 with mem := { s1.mem with hot := tset (fun _ => false) s1.mem.hot c (lvl == 2), cool := tset (fun _ => none) s1.mem.cool c none } }
    fMEM_CHSTAT_REFX lvl 0 c

/-- REFX and REPORT after both were written, REFX last. -/
theorem rdF_wrF_refx {s s1 : State} {c : Nat} (code : BitVec 5) {n : Nat} (hn : n < 4)
    (hs1 : s1.words = (wrF s fMEM_CHSTAT_REPORT code.toNat 0 c).words) :
    rdF (wrF s1 fMEM_CHSTAT_REFX n 0 c) fMEM_CHSTAT_REFX 0 c = n ∧ rdF (wrF s1 fMEM_CHSTAT_REFX n 0 c) fMEM_CHSTAT_REPORT 0 c = code.toNat := by
  have hcode := code.isLt
  constructor
  · rw [rdF_wrF_same _ _ _ _ _ (by decide)]
    exact Nat.mod_eq_of_lt hn
  · rw [rdF_wrF_apart s1 fMEM_CHSTAT_REFX fMEM_CHSTAT_REPORT n 0 c 0 c rfl (by decide) (by decide), rdF_congr hs1, rdF_wrF_same _ _ _ _ _ (by decide)]
    exact Nat.mod_eq_of_lt hcode

section
variable {s : State} {c : Nat} (code : BitVec 5)

theorem refreshReport_limit (hnormal : rdF s fMEM_CHSTAT_REFX 0 c = 0) :
    refreshReport s c code 2 = raiseFault (emit0 (reported s c code 2) 0x3c0013) 0x3c0013 13 := by
  simp [refreshReport, hnormal, reported]

theorem refreshReport_above (hnormal : rdF s fMEM_CHSTAT_REFX 0 c = 0) :
    refreshReport s c code 1 = emit0 (reported s c code 1) 0x3c0011 := by
  simp [refreshReport, hnormal, reported]

/-- The state of channel c once a report below has come long enough after the first. -/
def cooled (s : State) (c : Nat) (code : BitVec 5) (n : Nat) : State :=
  let s1 := wrF s fMEM_CHSTAT_REPORT code.toNat 0 c
  wrF { s1 with mem := { s1.mem with hot := tset (fun _ => false) s1.mem.hot c false, cool := tset (fun _ => none) s1.mem.cool c (some n) } }
    fMEM_CHSTAT_REFX 0 0 c

theorem refreshReport_cooled (hraised : rdF s fMEM_CHSTAT_REFX 0 c ≠ 0) {n : Nat} (hsince : tget (fun _ => none) s.mem.cool c = some n)
    (hlong : n + 625000000 ≤ s.sys.ticks) : refreshReport s c code 0 = emit0 (cooled s c code n) 0x3c0012 := by
  simp [refreshReport, hraised, hsince, hlong, cooled]

end

/-! ## Retraining -/

section
variable {s : State} (hmem : memRuns s = true)
include hmem

theorem exec_retrainDue {c : Fin 32} {deg : Option Nat}
    (hinterval : deg = none → tget (fun _ => 0) s.mem.trainedAt c + 625000 * rdF s fMEM_MCFG_RTINT ≤ s.sys.ticks)
    (hdegrees : ∀ d, deg = some d → 0 < rdF s fMEM_MCFG_RTTEMP ∧ rdF s fMEM_MCFG_RTTEMP ≤ d) :
    exec (.retrainDue ⟨c, deg⟩) s = .next (retrainDue s c) := by
  have hexec : exec (.retrainDue ⟨c, deg⟩) s = execRetrainDue ⟨c, deg⟩ s := rfl
  rw [hexec]
  cases deg with
  | none => simp [execRetrainDue, hmem, hinterval]
  | some d =>
    obtain ⟨hon, hreached⟩ := hdegrees d rfl
    simp [execRetrainDue, hmem, hreached, Nat.ne_of_gt hon]

theorem exec_retrainPauseStart (hnotice : onF s fMEM_MSTAT_NOTICE = true) (hlong : s.mem.noticeAt + 3125 ≤ s.sys.ticks)
    (hapart : s.mem.pauseEnd + 1250 ≤ s.sys.ticks) : exec .retrainPauseStart s =
      .next (count (wrF (wrF s fMEM_MSTAT_NOTICE 0) fMEM_MSTAT_PAUSE 1) 0x0f kMemPause (rdF s fMEM_MSTAT_CH)) := by
  have hexec : exec .retrainPauseStart s = execRetrainPauseStart s := rfl
  rw [hexec, execRetrainPauseStart, if_neg]
  simp only [hmem, hnotice, Bool.not_true, Bool.false_or, Bool.or_eq_true, decide_eq_true_eq]
  omega

theorem exec_retrainPauseEnd (hpause : onF s fMEM_MSTAT_PAUSE = true) {step held c : Nat} {ok : Bool} {x : State} (hc : c = rdF s fMEM_MSTAT_CH)
    (hx : x = wrF (count (wrF (trained { s with mem := { s.mem with pauseEnd := s.sys.ticks } } c) fMEM_MSTAT_PAUSE 0) 0x0f kMemHeld c held)
      fMEM_CHSTAT_TRAINOK (b2n ok) 0 c) : exec (.retrainPauseEnd ok step held) s =
      .next (nextNotice (if ok then x else raiseFault (emit2 (wrF (count x 0x0f kMemFail c) fMEM_CHSTAT_TFAIL
        (min 255 (rdF (count x 0x0f kMemFail c) fMEM_CHSTAT_TFAIL 0 c + 1)) 0 c) 0x3c0010 c step) 0x3c0010 13)) := by
  subst hc
  have hexec : exec (.retrainPauseEnd ok step held) s = execRetrainPauseEnd ok step held s := rfl
  rw [hexec, execRetrainPauseEnd, if_neg (by simp [hmem, hpause])]
  simp only [← hx]
  cases ok with
  | true => rfl
  | false =>
    rw [rdF_congr (count_words x 0x0f kMemFail (rdF s fMEM_MSTAT_CH) 1)]
    rfl

theorem exec_memBandwidthResult (hpaced : paced s paceBandwidth 625000 = true) (v : BitVec 24) :
    exec (.memBandwidthResult v) s = .next (result (setPace s paceBandwidth) fMEM_MBW_BW v.toNat) := by
  have hexec : exec (.memBandwidthResult v) s = execMemBandwidthResult v s := rfl
  rw [hexec, execMemBandwidthResult, if_pos (by simp [hmem, hpaced])]

end

theorem exec_trainnow {e : Eng} {c : Fin 32} {v : BitVec 24} {s s' : State}
    (haccept : accept s e false (fAddr fMEM_TRAIN_TRAINNOW 0 c) v = some s') (hmem : memRuns s' = true) (hnow : v.getLsbD 0 = true) :
    exec (.trainnow e c v) s = .next (retrainDue s' c) := by
  have hexec : exec (.trainnow e c v) s = execTrainnow e c v s := rfl
  rw [hexec, execTrainnow, onSet_of_accept _ haccept, if_pos (by simp only [bitOf_toNat, hnow, hmem]; decide)]

/-- With nothing waiting a retraining is given notice at once. -/
theorem retrainDue_of_idle {s : State} (c : Nat) (hdue : s.mem.due = []) (hnotice : onF s fMEM_MSTAT_NOTICE = false)
    (hpause : onF s fMEM_MSTAT_PAUSE = false) : retrainDue s c =
    wrF (wrF { s with mem := { s.mem with due := [], noticeAt := s.sys.ticks } } fMEM_MSTAT_CH c) fMEM_MSTAT_NOTICE 1 := by
  have hnone : (s.mem.due.contains c || (rdF s fMEM_MSTAT_CH == c && onF s fMEM_MSTAT_NOTICE)) = false := by simp [hdue, hnotice]
  have hfree : ∀ due, (onF { s with mem := { s.mem with due := due } } fMEM_MSTAT_NOTICE ||
      onF { s with mem := { s.mem with due := due } } fMEM_MSTAT_PAUSE) = false := by
    exact fun due => (congrArg₂ or (onF_congr rfl _ 0 0) (onF_congr rfl _ 0 0)).trans (Bool.or_eq_false_iff.mpr ⟨hnotice, hpause⟩)
  rw [retrainDue, hnone, if_neg Bool.false_ne_true, hdue, List.nil_append]
  simp only [nextNotice, hfree, Bool.false_eq_true, if_false]

/-- Settles O31: the reports, then a retraining from the time it falls due to its end, then the bandwidth. -/
theorem memoryIsRefreshedAndRetrained : Obligations.MemoryIsRefreshedAndRetrained := by
  refine ⟨fun l s hmem hpaced hlen => exec_refreshReportRead hmem hpaced hlen, ?report,
    fun c deg s hmem hinterval hdegrees => exec_retrainDue hmem hinterval hdegrees,
    fun e c v s s' haccept hmem hnow => exec_trainnow haccept hmem hnow,
    fun s c hdue hnotice hpause => retrainDue_of_idle c hdue hnotice hpause,
    fun s hmem hnotice hlong hapart => exec_retrainPauseStart hmem hnotice hlong hapart, ?pauseEnd,
    fun v s hmem hpaced => exec_memBandwidthResult hmem hpaced v⟩
  case report =>
    intro s c code _
    refine ⟨fun hnormal => ⟨⟨_, refreshReport_limit code hnormal, rdF_wrF_refx code (by decide) rfl⟩,
      ⟨_, refreshReport_above code hnormal, rdF_wrF_refx code (by decide) rfl⟩⟩, fun hraised n hsince hlong =>
      ⟨_, refreshReport_cooled code hraised hsince hlong, rdF_wrF_refx code (by decide) rfl⟩⟩
  case pauseEnd =>
    intro step held s x ok c hmem hpause hc hx
    rw [exec_retrainPauseEnd hmem hpause hc hx]
    refine ⟨fun hok => by rw [if_pos hok], ?_⟩
    rintro hok _ rfl
    rw [if_neg (ne_true_of_eq_false hok)]

end Sys2Proof.Machine
end

section
/-! Seal checks, writes of less than a line, fills and re-keys of the protected memory (R476 to R484), and the statement about them. -/
namespace Sys2Proof.Machine

/-- A projection that every step of a fold keeps is kept by the fold. -/
theorem foldl_keeps {α β γ : Type} (f : α → γ) {step : α → β → α} (h : ∀ a b, f (step a b) = f a) (l : List β) (a : α) :
    f (l.foldl step a) = f a :=
  List.foldlRecOn (motive := fun b => f b = f a) l step rfl fun b hb c _ => (h b c).trans hb

@[simp] theorem countLines_mpe (s : State) (m a n : Nat) (wr : Bool) : (countLines s m a n wr).mpe = s.mpe :=
  foldl_keeps State.mpe (fun _ _ => (count_mpe ..).trans (count_mpe ..)) _ _

@[simp] theorem takeRandom_mpe (n : Nat) (s : State) : (takeRandom n s).2.mpe = s.mpe := rfl

theorem countFixed_of_pos {s : State} {line n : Nat} (h : 0 < n) : countFixed s line n = count s 0x10 kMpeFixed (dramChannel line) n :=
  if_neg (Nat.ne_of_gt h)

@[simp] theorem countFixed_mpe (s : State) (line n : Nat) : (countFixed s line n).mpe = s.mpe := by
  unfold countFixed; split
  · rfl
  · exact count_mpe ..

theorem region_congr {s t : State} (h : t.mpe.regions = s.mpe.regions) (r : Nat) : region t r = region s r :=
  congrArg (tget regionReset · r) h

/-- The state after both keys of a region were drawn has its regions as they were. -/
theorem region_drawMemKeys (s : State) (k r : Nat) : region (drawMemKeys s k) r = region s r :=
  region_congr (by simp [drawMemKeys]) r

theorem granuleWritten_setWritten (s : State) (g : Nat) (b : Bool) : granuleWritten (setWritten s g b) g = b := by
  simp only [granuleWritten, setWritten, tget_tset_same]
  cases s.mpe.allWritten <;> cases b <;> rfl

section
variable {s : State} (hlive : live s = true)
include hlive

theorem exec_sealCheck {e : Eng} {k line : Nat} (hwaits : (eng s e).unchecked.contains (k, line) = true) (ok : Bool) (fix : Nat) :
    exec (.sealCheck e k line ⟨ok, fix⟩) s = .next (if ok then
      countFixed (setEng s e { eng s e with unchecked := (eng s e).unchecked.filter fun x => x != (k, line) }) line fix
      else sealFault (countFixed s line fix) 0x400010 line (engMaster s e)) := by
  have hexec : exec (.sealCheck e k line ⟨ok, fix⟩) s = execSealCheck e k line ⟨ok, fix⟩ s := rfl
  rw [hexec, execSealCheck, if_neg (by simp only [hlive, hwaits]; decide)]
  cases ok <;> rfl

section
variable (hmem : memRuns s = true)
include hmem

theorem exec_partialWrite {e : Eng} {k : Nat} {f : Far} (hheld : farHeld s e k = false) (hturn : farTurn (eng s e) k = some f)
    (hstore : f.kind = .store) (hunwritten : f.written = false) (hgranules : rangeWritten s f.addr f.len = true) (ok : Bool) (fix : Nat) :
    exec (.partialWrite e k ⟨ok, fix⟩) s = .next (if ok then countFixed (countPair (setEng (dramWrite s f.addr f.data) e { eng s e with
        far := (eng s e).far.map fun f => if f.serial == k then { f with written := true } else f }) (engMaster s e) f.addr) f.addr fix
      else sealFault (countFixed s f.addr fix) 0x400011 (f.addr / 64 * 64) (engMaster s e)) := by
  obtain ⟨serial, kind, addr, len, data, written⟩ := f
  subst hstore hunwritten
  have hexec : exec (.partialWrite e k ⟨ok, fix⟩) s = execPartialWrite e k ⟨ok, fix⟩ s := rfl
  rw [hexec, execPartialWrite, if_neg (by simp only [hlive, hmem, hheld]; decide)]
  simp only [hturn, hgranules, Bool.not_true, Bool.false_eq_true, if_false]
  cases ok <;> rfl

theorem exec_granuleFill {g : Nat} (hunwritten : granuleWritten s g = false) (hwanted : fillWanted s g = true) :
    exec (.granuleFill g) s = .next (setWritten s g true) := by
  have hexec : exec (.granuleFill g) s = execGranuleFill g s := rfl
  rw [hexec, execGranuleFill, if_neg (by simp only [hlive, hmem, hunwritten, hwanted]; decide)]

theorem exec_backgroundFillDone (hfirst : s.mpe.allWritten = false) : exec .backgroundFillDone s =
    .next (wrF { s with mpe := { s.mpe with allWritten := true, odd := [] } } fMPE_INIT_DONE 1) := by
  have hexec : exec .backgroundFillDone s = execBackgroundFillDone s := rfl
  rw [hexec, execBackgroundFillDone, if_neg (by simp [hlive, hmem, hfirst])]

section
variable {r : Fin 16} {x : Rekey} (hruns : rekeyOf s r = some x) (hpause : paused s x.line 64 = false)
include hruns hpause

theorem exec_rekeyLine_failed (hwritten : granuleWritten s (x.line / 65536) = true) (fix : Nat) :
    exec (.rekeyLine r ⟨false, fix⟩) s = .next (sealFault (countFixed s x.line fix) 0x400012 x.line 0x12) := by
  have hexec : exec (.rekeyLine r ⟨false, fix⟩) s = execRekeyLine r ⟨false, fix⟩ s := rfl
  simp only [hexec, execRekeyLine, hruns, hlive, hmem, hpause, hwritten, Bool.not_true, Bool.or_self, Bool.false_eq_true, if_false, if_true,
    Bool.not_false, Bool.and_self]

theorem exec_rekeyLine {w : Bool} {next fix : Nat} {y : State} (hw : w = granuleWritten s (x.line / 65536))
    (hnext : next = (if w then x.line + 64 else (x.line / 65536 + 1) * 65536))
    (hy : y = (if w then count (countPair (countFixed s x.line fix) 0x12 x.line) 0x10 kMpeRekeyed r else s)) :
    exec (.rekeyLine r ⟨true, fix⟩) s = .next (if ((region s r).limit + 1) * 65536 ≤ next then emit0 (setRekey y r none) 0x400014
      else setRekey y r (some ⟨next, x.old⟩)) := by
  have hexec : exec (.rekeyLine r ⟨true, fix⟩) s = execRekeyLine r ⟨true, fix⟩ s := rfl
  have hregion : region y r = region s r := by
    subst hy
    exact region_congr (by cases w <;> simp [countPair]) r
  simp only [hexec, execRekeyLine, hruns, hlive, hmem, hpause, ← hw, Bool.not_true, Bool.or_self, Bool.false_eq_true, if_false, Bool.and_false]
  cases w with
  | true =>
    simp only [if_true] at hy hnext ⊢
    rw [← hy, ← hnext, hregion]
    split <;> rfl
  | false =>
    simp only [Bool.false_eq_true, if_false] at hy hnext ⊢
    rw [← hnext, hy]
    split <;> rfl

end
end
end

section
variable {e : Eng} {v : BitVec 24} {s s' : State} {r : Nat} (haccept : accept s e false (fAddr fMPE_RKGO_GO 0 0) v = some s')
  (hgo : v.getLsbD 0 = true) (hmem : memRuns s' = true) (hr : r = rdF s' fMPE_RKSEL_R)
include haccept hgo hmem hr

/-- RKGO with GO accepted while MEM runs is refused, draws nothing, or starts the re-key. -/
theorem exec_rekeyStart : exec (.rekeyStart e v) s = .next (
    if (rekeyOf s' r).isSome then result s' fMPE_RKRES_STATE 1
    else if !(region s' r).valid then result s' fMPE_RKRES_STATE 2
    else if onF s' fKEY_RNGSTAT_FAILED then s'
    else
      let x := drawMemKeys { s' with mpe := { s'.mpe with keyGen := tset (fun _ => 0) s'.mpe.keyGen r (tget (fun _ => 0) s'.mpe.keyGen r + 1) } } r
      emit0 (result (setRekey x r (some ⟨(region x r).base * 65536, tget (fun _ => []) s'.mpe.memKeys r⟩)) fMPE_RKRES_STATE 0) 0x400013) := by
  have hexec : exec (.rekeyStart e v) s = execRekeyStart e v s := rfl
  subst hr
  rw [hexec, execRekeyStart, onSet_of_accept _ haccept, if_neg (by simp only [bitOf_toNat, hgo, hmem]; decide)]

end

/-- Settles O32: a load's seal check, a store's pair, the fills, then the re-key from its start to its last line. -/
theorem sealsFillsAndRekeys : Obligations.SealsFillsAndRekeys := by
  refine ⟨fun s line n => ⟨rfl, countFixed_of_pos⟩, fun e k line fix s hlive hwaits =>
    ⟨exec_sealCheck hlive hwaits true fix, exec_sealCheck hlive hwaits false fix⟩, ?pair,
    fun g s hlive hmem hunwritten hwanted => ⟨exec_granuleFill hlive hmem hunwritten hwanted, granuleWritten_setWritten s g true⟩,
    fun s hlive hmem hfirst => exec_backgroundFillDone hlive hmem hfirst, ?rekeyStart, ?rekeyLine⟩
  case pair =>
    rintro e k fix s _ f hlive hmem hheld hturn hstore hunwritten hgranules rfl
    exact ⟨exec_partialWrite hlive hmem hheld hturn hstore hunwritten hgranules true fix,
      exec_partialWrite hlive hmem hheld hturn hstore hunwritten hgranules false fix⟩
  case rekeyStart =>
    intro e v s s' r haccept hgo hmem hr
    rw [exec_rekeyStart haccept hgo hmem hr]
    refine ⟨fun hruns => by rw [if_pos hruns], fun hfree hinvalid => by simp [hfree, hinvalid], ?_⟩
    rintro hfree hvalid hrandom _ rfl
    simp only [hfree, hvalid, hrandom, Bool.not_true, Bool.false_eq_true, if_false, region_drawMemKeys]
    rfl
  case rekeyLine =>
    intro r s x w next fix hlive hmem hruns hpause hw hnext
    refine ⟨fun hwritten => exec_rekeyLine_failed hlive hmem hruns hpause (hw ▸ hwritten) fix, fun y hy => ?_⟩
    rw [exec_rekeyLine hlive hmem hruns hpause hw hnext hy]
    exact ⟨fun hmore => by rw [if_neg (Nat.not_le.mpr hmore)], fun hpast => by rw [if_pos hpast]⟩

end Sys2Proof.Machine
end

section
/-! Words without a row of their own, USTAT's read, result slots and their map (R169 to R180, R195), and the statement about them. -/
namespace Sys2Proof.Machine

/-! ## The words that every unit has -/

theorem toNat_wd_putBits (w : Word) {lo n : Nat} (v : Nat) (h : lo + n ≤ 24) : (wd (putBits w.toNat lo n v)).toNat = putBits w.toNat lo n v := by
  rw [BitVec.toNat_ofNat, Nat.mod_eq_of_lt (putBits_lt _ _ _ _ _ w.isLt h)]

theorem rdC_wrC_same (s : State) (f : Fld) (u n v : Nat) (h : f.lo + f.w ≤ 24) : rdC (wrC s f u n v) f u n = v % 2 ^ f.w := by
  rw [rdC, wrC, rdW_wrW_same, toNat_wd_putBits _ _ h, bitsOf_putBits_same]

/-- A common field reads as before once another of its word was written. -/
theorem rdC_wrC_apart (s : State) (f g : Fld) (u n v : Nat) (hword : g.word = f.word) (h : f.lo + f.w ≤ 24)
    (hapart : g.lo + g.w ≤ f.lo ∨ f.lo + f.w ≤ g.lo) : rdC (wrC s f u n v) g u n = rdC s g u n := by
  rw [rdC, hword, wrC, rdW_wrW_same, toNat_wd_putBits _ _ h, bitsOf_putBits_other _ _ _ _ _ _ hapart, ← hword, rdC]

/-! ## SETs -/

theorem exec_unitWordWrite {e : Eng} {a v : Word} {s x : State} (haccept : accept s e false a.toNat v = some x)
    (hown : ownRow s a.toNat v.toNat = false) :
    exec (.unitWordWrite e a v) s = .next (stageWord (writeWord x e a.toNat v.toNat) a.toNat v) := by
  have hexec : exec (.unitWordWrite e a v) s = execUnitWordWrite e a v s := rfl
  rw [hexec, execUnitWordWrite, if_neg (by simp [hown]), onSet_of_accept _ haccept]

theorem staged_stageWord (s : State) {a : Nat} (v : Word) (hcm : wordCM a = true) : tget (fun _ => none) (stageWord s a v).ctl.staged a = some v := by
  rw [stageWord, if_pos hcm]
  exact tget_tset_same (fun _ => none) s.ctl.staged a (some v)

/-! ## USTAT's read -/

theorem exists_get_of_getReady {s : State} {e a : Nat} (h : getReady s e a = true) : ∃ rd, (eng s e).get = some (rd, a) := by
  simp only [getReady, Bool.and_eq_true] at h
  obtain ⟨-, h⟩ := h
  match hget : (eng s e).get, h with
  | some (rd, b), h =>
    simp only [Bool.and_eq_true, beq_iff_eq] at h
    obtain ⟨rfl, -⟩ := h
    exact ⟨rd, rfl⟩

/-- A wait for a unit is over once the unit has answered with a value, which stands in the register. -/
theorem eng_answer {s : State} {e : Eng} {rd a : Nat} (hget : (eng s e).get = some (rd, a)) (v : Word) :
    (eng (answer s e (some v)) e).get = none ∧ (eng (answer s e (some v)) e).nr = false ∧
    (rd ≠ 0 → reg (eng (answer s e (some v)) e) rd = v) := by
  rw [answer_some hget, eng_setEng_same]
  refine ⟨?_, setReg_nr .., fun hrd => by rw [reg_setReg, if_pos ⟨rfl, hrd⟩]⟩
  unfold setReg
  split <;> rfl

section
variable {e : Eng} {u : UnitI} {n : InstI} {s : State} (hready : getReady s e (uaddr u n 2) = true)
include hready

theorem exec_ustatRead : exec (.ustatRead e u n) s = .next (wrC (wrC (answer s e (some (wd (putBits (rdW s (uaddr u n 2)).toNat 0 2 (ustat s u n)))))
    fCOMMON_USTAT_LATE u n 0) fCOMMON_USTAT_CMREF u n 0) := by
  have hexec : exec (.ustatRead e u n) s = execUstatRead e u n s := rfl
  rw [hexec, execUstatRead, if_neg (by simp [hready])]

theorem ustatRead_answers : ∃ t, exec (.ustatRead e u n) s = .next t ∧ (eng t e).get = none ∧ (eng t e).nr = false ∧
    rdC t fCOMMON_USTAT_LATE u n = 0 ∧ rdC t fCOMMON_USTAT_CMREF u n = 0 ∧
    (∀ rd a, (eng s e).get = some (rd, a) → rd ≠ 0 → reg (eng t e) rd = wd (putBits (rdW s (uaddr u n 2)).toNat 0 2 (ustat s u n))) := by
  refine ⟨_, exec_ustatRead hready, ?_⟩
  obtain ⟨rd, hget⟩ := exists_get_of_getReady hready
  generalize wd (putBits (rdW s (uaddr u n 2)).toNat 0 2 (ustat s u n)) = v
  have heng : eng (wrC (wrC (answer s e (some v)) fCOMMON_USTAT_LATE u n 0) fCOMMON_USTAT_CMREF u n 0) e = eng (answer s e (some v)) e := by
    rw [eng, wrC_engs, wrC_engs, eng]
  obtain ⟨hdone, hnr, hreg⟩ := eng_answer hget v
  rw [heng, rdC_wrC_apart _ fCOMMON_USTAT_CMREF fCOMMON_USTAT_LATE _ _ _ rfl (by decide) (by decide), rdC_wrC_same _ _ _ _ _ (by decide),
    rdC_wrC_same _ _ _ _ _ (by decide)]
  refine ⟨hdone, hnr, rfl, rfl, fun rd' a ha hrd => ?_⟩
  obtain ⟨rfl, -⟩ := Prod.mk.inj (Option.some.inj (hget.symm.trans ha))
  exact hreg hrd

end

/-! ## Result slots -/

section
variable {slot : Fin 4096} {s : State} (hup : hostUp s = true)
include hup

/-- What a ready result's slot reads: VALID, REREAD, the sequence number and the value. -/
def slotWord (s : State) (slot a : Nat) : Nat :=
  2 ^ 31 + 2 ^ 30 * b2n (tget (fun _ => false) s.ctl.marks slot) + 2 ^ 24 * tget (fun _ => 0) s.ctl.seq a + (rdW s a).toNat

theorem exec_resultSlotHostRead_ready {a : Nat} (hslot : slotAddr s slot = some a) (hready : isReady s a = true) :
    exec (.resultSlotHostRead slot) s = .next { s with
      key := { s.key with randDue := s.key.randDue || (a == fAddr fKEY_RAND_R 0 0 && !tget (fun _ => false) s.ctl.marks slot) }
      hst := { s.hst with hostRead := slotWord s slot a }
      ctl := { s.ctl with marks := tset (fun _ => false) s.ctl.marks slot true } } := by
  have hexec : exec (.resultSlotHostRead slot) s = execResultSlotHostRead slot s := rfl
  simp only [hexec, execResultSlotHostRead, hup, hslot, hready, Bool.not_true, Bool.false_eq_true, if_false, if_true, slotWord]

theorem exec_resultSlotHostRead_notReady {a : Nat} (hslot : slotAddr s slot = some a) (hready : isReady s a = false) :
    exec (.resultSlotHostRead slot) s = .next { s with hst := { s.hst with hostRead := 0 } } := by
  have hexec : exec (.resultSlotHostRead slot) s = execResultSlotHostRead slot s := rfl
  simp only [hexec, execResultSlotHostRead, hup, hslot, hready, Bool.not_true, Bool.false_eq_true, if_false]

theorem exec_resultSlotHostRead_unmapped (hslot : slotAddr s slot = none) :
    exec (.resultSlotHostRead slot) s = .next { s with hst := { s.hst with hostRead := 0 } } := by
  have hexec : exec (.resultSlotHostRead slot) s = execResultSlotHostRead slot s := rfl
  simp only [hexec, execResultSlotHostRead, hup, hslot, Bool.not_true, Bool.false_eq_true, if_false]

end

/-- The slot that RMSLOT names is mapped by RMADDR to a word, or by 0 to none. -/
def slotMapped (x : State) (v : Word) : State :=
  let y := wrW x (fAddr fHST_RMADDR_ADDR 0 0) v
  { y with ctl := { y.ctl with
      slots := tset (fun _ => none) y.ctl.slots (rdF x fHST_RMSLOT_SLOT) (if v = 0 then none else some v.toNat)
      marks := tset (fun _ => false) y.ctl.marks (rdF x fHST_RMSLOT_SLOT) false } }

theorem exec_resultSlotMap {e : Eng} {v : Word} {s x : State} (haccept : accept s e false (fAddr fHST_RMADDR_ADDR 0 0) v = some x) :
    exec (.resultSlotMap e v) s = .next (slotMapped x v) := by
  have hexec : exec (.resultSlotMap e v) s = execResultSlotMap e v s := rfl
  rw [hexec, execResultSlotMap, onSet_of_accept _ haccept]
  rfl

theorem rdF_slotMapped (x : State) (v : Word) : rdF (slotMapped x v) fHST_RMADDR_ADDR = v.toNat := by
  have hwords : (slotMapped x v).words = (wrW x (fAddr fHST_RMADDR_ADDR 0 0) v).words := rfl
  rw [rdF_congr hwords, rdF, rdW_wrW_same, bitsOf_zero]
  exact Nat.mod_eq_of_lt v.isLt

/-- Settles O33: SETs of plain words, USTAT's read, the host's reads of result slots, and their map. -/
theorem unitWordsTakeSetsAndAnswerReads : Obligations.UnitWordsTakeSetsAndAnswerReads := by
  refine ⟨fun e a v s x haccept hown => exec_unitWordWrite haccept hown, fun s a v => rfl, fun s a v hcm => staged_stageWord s v hcm,
    fun e u n s hready => ustatRead_answers hready, ?slot, fun slot s hup hslot => exec_resultSlotHostRead_unmapped hup hslot,
    fun e v s x haccept => ⟨_, exec_resultSlotMap haccept, rdF_slotMapped x v, tget_tset_same (fun _ => none) _ _ _,
      tget_tset_same (fun _ => false) x.ctl.marks (rdF x fHST_RMSLOT_SLOT) false⟩⟩
  case slot =>
    intro slot s a hup hslot
    refine ⟨fun hready => ⟨_, exec_resultSlotHostRead_ready hup hslot hready, rfl,
        tget_tset_same (fun _ => false) s.ctl.marks slot true, rfl⟩,
      fun hready => exec_resultSlotHostRead_notReady hup hslot hready⟩

end Sys2Proof.Machine
end

section
/-! Commits: snapshot, commit point, armed commits (R182 to R191), and the statement about them. -/
namespace Sys2Proof.Machine

theorem exec_commitSnapshot {e : Eng} {u : UnitI} {n : InstI} {s x : State} (haccept : accept s e true (uaddr u n 0) 0 = some x) :
    exec (.commitSnapshot e u n) s = .next (commitAtOnce (disarm (snapshot x u n) u n) u n) := by
  have hexec : exec (.commitSnapshot e u n) s = execCommitSnapshot e u n s := rfl
  simp only [hexec, execCommitSnapshot, haccept]

theorem commitAtOnce_eq_commitNow {s : State} {u n : Nat} (hdue : commitDue s u n = true) (hpoint : atAcceptance u = true ∨ ustat s u n = 0) :
    commitAtOnce s u n = commitNow s u n := by
  rw [commitAtOnce, if_pos (by simpa [hdue] using hpoint)]

theorem exec_commitPoint {u : UnitI} {n : InstI} {s : State} (hlive : live s = true) (hdue : commitDue s u n = true) (hpoint : atPoint s u n = true) :
    exec (.commitPoint u n) s = .next (if u.val = 8 then startNext (commitNow s u n) n else commitNow s u n) := by
  have hexec : exec (.commitPoint u n) s = execCommitPoint u n s := rfl
  rw [hexec, execCommitPoint, if_pos (by simp [hlive, hdue, hpoint])]

theorem commitNow_refused {s : State} {u n w : Nat} (hw : (refusedWords s (withPending s u n) u n).min? = some w) : commitNow s u n =
    emit2 (wrC (clearPend s u n) fCOMMON_USTAT_CMREF u n 1) (u * 2 ^ 18 + 0x3ff00) (rdC s fCOMMON_UCMSEQ_CMSEQ u n) (uaddr u n w) := by
  simp only [commitNow, hw]

theorem commitNow_applied {s : State} {u n : Nat} (hw : (refusedWords s (withPending s u n) u n).min? = none) : commitNow s u n =
    clearPend (applyHook s (wrC (withPending s u n) fCOMMON_UCMSEQ_CMSEQ u n (rdC (withPending s u n) fCOMMON_UCMSEQ_CMSEQ u n + 1)) u n) u n := by
  simp only [commitNow, hw]

/-! ## Armed commits -/

/-- Word p goes back to the shadows unless a later SET stands there. -/
def restage (t : Tab (Option Word)) (p : Nat × Word) : Tab (Option Word) :=
  if (tget (fun _ => none) t p.1).isSome then t else tset (fun _ => none) t p.1 (some p.2)

theorem tget_restage {t : Tab (Option Word)} {a : Nat} {w : Word} (h : tget (fun _ => none) t a = some w) (p : Nat × Word) :
    tget (fun _ => none) (restage t p) a = some w := by
  unfold restage
  split
  · exact h
  · next hnone =>
    rw [tget_tset_other]
    · exact h
    · rintro rfl
      exact hnone (by rw [h]; rfl)

/-- The state whose shadows hold the pending set of a unit again. -/
def restaged (x : State) (u n : Nat) : State :=
  { x with ctl := { x.ctl with staged := (instWords x.ctl.pend u n).foldl restage x.ctl.staged } }

theorem staged_restaged {x : State} (u n : Nat) {a : Nat} {w : Word} (h : tget (fun _ => none) x.ctl.staged a = some w) :
    tget (fun _ => none) (restaged x u n).ctl.staged a = some w :=
  List.foldlRecOn (motive := fun t => tget (fun _ => none) t a = some w) (instWords x.ctl.pend u n) restage h
    fun _ ht p _ => tget_restage ht p

section
variable {e : Eng} {u : UnitI} {n : InstI} {v : Word} {s x : State} (haccept : accept s e false (uaddr u n 8) v = some x)
include haccept

theorem exec_scheduledCommitArm (harm : v.getLsbD 0 = true) (hdisarm : v.getLsbD 1 = false) :
    exec (.scheduledCommitArm e u n v) s = .next (armCommit x u n) := by
  have hexec : exec (.scheduledCommitArm e u n v) s = execScheduledCommitArm e u n v s := rfl
  rw [hexec, execScheduledCommitArm, if_neg (by simp only [bitOf_toNat, harm, hdisarm]; decide), onSet_of_accept _ haccept]

theorem exec_scheduledCommitDisarm (hdisarm : v.getLsbD 1 = true) : exec (.scheduledCommitDisarm e u n v) s = .next
    (if rdC x fCOMMON_USTAT_ARMED u n = 0 then x else clearPend (restaged x u n) u n) := by
  have hexec : exec (.scheduledCommitDisarm e u n v) s = execScheduledCommitDisarm e u n v s := rfl
  rw [hexec, execScheduledCommitDisarm, if_neg (by simp only [bitOf_toNat, hdisarm]; decide), onSet_of_accept _ haccept]
  rfl

end

/-- The commit armed for an instant. -/
def armedFor (y : State) (u n : Nat) (at' : Instant) : State :=
  wrC { y with ctl := { y.ctl with
    armed := tset (fun _ => none) y.ctl.armed (uaddr u n 0) (some at')
    due := tset (fun _ => false) y.ctl.due (uaddr u n 0) false } } fCOMMON_USTAT_ARMED u n 1

section
variable {s : State} {u n : Nat}

theorem armCommit_refused (h : 1000000000 ≤ (instantOf (armWords s u n).1 (armWords s u n).2).2) : armCommit s u n =
    emit2 (wrC s fCOMMON_USTAT_CMREF u n 1) (u * 2 ^ 18 + 0x3ff00) (rdC s fCOMMON_UCMSEQ_CMSEQ u n) (uaddr u n 7) := by
  rw [armCommit, if_pos h]

theorem armCommit_armed (h : (instantOf (armWords s u n).1 (armWords s u n).2).2 < 1000000000) : armCommit s u n =
    let i := resolve s (armWords s u n).1 (armWords s u n).2
    let z := armedFor (snapshot s u n) u n i
    if reached z i then commitAtOnce (emit (wrC (setDue z u n) fCOMMON_USTAT_LATE u n 1)
      (u * 2 ^ 18 + 0x3ff01) (armWords s u n).1 (armWords s u n).2 (rdC s fCOMMON_UCMSEQ_CMSEQ u n)) u n else z := by
  rw [armCommit, if_neg (Nat.not_le.mpr h)]
  rfl

end

theorem exec_scheduledCommitDue {u : UnitI} {n : InstI} {s : State} {i : Instant} (hlive : live s = true)
    (harmed : tget (fun _ => none) s.ctl.armed (uaddr u n 0) = some i) (hreached : reached s i = true)
    (hdue : tget (fun _ => false) s.ctl.due (uaddr u n 0) = false) :
    exec (.scheduledCommitDue u n) s = .next (commitAtOnce (setDue s u n) u n) := by
  have hexec : exec (.scheduledCommitDue u n) s = execScheduledCommitDue u n s := rfl
  simp only [hexec, execScheduledCommitDue, harmed, hlive, hreached, hdue, Bool.not_false, Bool.and_self, if_true]

/-- Settles O34: a commit from its acceptance to its point, then a commit armed for an instant. -/
theorem commitsApplyWholeOrNotAtAll : Obligations.CommitsApplyWholeOrNotAtAll := by
  refine ⟨fun e u n s x haccept => exec_commitSnapshot haccept, fun s u n hdue hpoint => commitAtOnce_eq_commitNow hdue hpoint,
    fun u n s hlive hdue hpoint => exec_commitPoint hlive hdue hpoint, fun s u n w hw => commitNow_refused hw, ?applied, ?words, ?arm,
    fun u n s i hlive harmed hreached hdue => exec_scheduledCommitDue hlive harmed hreached hdue⟩
  case applied =>
    rintro s u n _ rfl hw
    exact commitNow_applied hw
  case words =>
    intro e u n v s x haccept
    refine ⟨exec_scheduledCommitArm haccept, fun hdisarm hfree => ?free, fun hdisarm harmed => ?armed⟩
    case free => rw [exec_scheduledCommitDisarm haccept hdisarm, if_pos hfree]
    case armed =>
      exact ⟨restaged x u n, by rw [exec_scheduledCommitDisarm haccept hdisarm, if_neg harmed], rfl, rfl, fun a w h => staged_restaged u n h⟩
  case arm =>
    rintro s y u n _ rfl
    refine ⟨armCommit_refused, ?_⟩
    rintro h rfl _ rfl
    rw [armCommit_armed h]
    exact ⟨fun hahead => if_neg (ne_true_of_eq_false hahead), fun hpast => if_pos hpast⟩

end Sys2Proof.Machine
end

section
/-! Enabling, draining and going idle (R169 to R171, R181, R192), and the statement about them. -/
namespace Sys2Proof.Machine

section
variable {e : Eng} {u : UnitI} {n : InstI} {v : Word} {s x : State} (haccept : accept s e false (uaddr u n 1) v = some x)
include haccept

/-- EN cleared: what the SET makes of the unit, by the state it is in. -/
theorem exec_unitDisable (hen : v.getLsbD 0 = false) : exec (.unitDisable e u n v) s = .next (
    if noDisable u then x else
      match ustat x u n with
      | 1 => onDisabled (beginDrain (wrC x fCOMMON_UCTRL_EN u n 0) u n) u n
      | 2 => wrC (wrC x fCOMMON_UCTRL_EN u n 0) fCOMMON_USTAT_REEN u n 0
      | _ => wrC x fCOMMON_UCTRL_EN u n 0) := by
  have hexec : exec (.unitDisable e u n v) s = execUnitDisable e u n v s := rfl
  rw [hexec, execUnitDisable, if_neg (by simp only [bitOf_toNat, hen]; decide), onSet_of_accept _ haccept] <;> rfl

/-- EN set: a port without a frame mode, a unit that is enabled, and one that becomes so. -/
theorem exec_unitEnable (hen : v.getLsbD 0 = true) : exec (.unitEnable e u n v) s = .next (
    if (u : Nat) = 8 && !frameMode x n then count x 8 kMacNoEn n
    else if noDisable u || rdC x fCOMMON_UCTRL_EN u n == 1 then x
    else
      match ustat x u n with
      | 0 => goActive (wrC (wrC x fCOMMON_UCTRL_EN u n 1) fCOMMON_UDRAIN_DISC u n 0) u n
      | 2 => wrC (wrC (wrC x fCOMMON_UCTRL_EN u n 1) fCOMMON_UDRAIN_DISC u n 0) fCOMMON_USTAT_REEN u n 1
      | _ => wrC (wrC x fCOMMON_UCTRL_EN u n 1) fCOMMON_UDRAIN_DISC u n 0) := by
  have hexec : exec (.unitEnable e u n v) s = execUnitEnable e u n v s := rfl
  rw [hexec, execUnitEnable, if_neg (by simp only [bitOf_toNat, hen]; decide), onSet_of_accept _ haccept] <;> rfl

end

/-- A unit other than a MAC, and a MAC whose port has a frame mode, takes EN. -/
theorem takesEnable {u : UnitI} {n : InstI} {x : State} (h : u.val ≠ 8 ∨ frameMode x n = true) : ((u : Nat) = 8 && !frameMode x n) = false := by
  rcases h with h | h <;> simp [h]

section
variable {u : UnitI} {n : InstI} {s : State} (hlive : live s = true)
include hlive

theorem exec_drainComplete (hdrains : ustat s u n = 2) (hempty : holdsWork s u n = false) :
    exec (.drainComplete u n) s = .next (goIdle s u n) := by
  have hexec : exec (.drainComplete u n) s = execDrainComplete u n s := rfl
  rw [hexec, execDrainComplete, if_pos (by simp [hlive, hdrains, hempty])]

theorem exec_drainBoundExpiry (hdue : overdue s u n = true) {r y : State} {k : Nat} (hheld : discardHeld s u n = (r, k)) (hnone : k = 0 → y = r)
    (hsome : k ≠ 0 → y = emit1 (count (wrC r fCOMMON_UDRAIN_DISC u n (min 0xffffff (rdC r fCOMMON_UDRAIN_DISC u n + k))) u kDrain n k)
      (u * 2 ^ 18 + 0x3ff02) k) :
    exec (.drainBoundExpiry u n) s = .next (if ustat y u n = 2 ∧ (u.val ≠ 3 ∨ !holdsWork y u n) then goIdle y u n else y) := by
  have hexec : exec (.drainBoundExpiry u n) s = execDrainBoundExpiry u n s := rfl
  have hy : y = if k = 0 then r
      else emit1 (count (wrC r fCOMMON_UDRAIN_DISC u n (min 0xffffff (rdC r fCOMMON_UDRAIN_DISC u n + k))) u kDrain n k) (u * 2 ^ 18 + 0x3ff02) k := by
    split
    · next h => exact hnone h
    · next h => exact hsome h
  rw [hexec, execDrainBoundExpiry, if_neg (by simp [hlive, hdue])]
  simp only [hheld, ← hy]

end

theorem goIdle_reenabled {s x y : State} {u n : Nat} (hy : y = onIdle (wrC s fCOMMON_USTAT_STATE u n 0) u n)
    (hx : x = (if commitDue y u n then commitNow y u n else y)) :
    goIdle s u n = if rdC x fCOMMON_USTAT_REEN u n = 1 then goActive (wrC x fCOMMON_USTAT_REEN u n 0) u n else x := by
  subst hx hy
  rfl

/-- Settles O35: EN cleared and EN set by the state the unit is in, then the two ends of a drain. -/
theorem unitsAreEnabledDrainedAndIdle : Obligations.UnitsAreEnabledDrainedAndIdle := by
  refine ⟨?enabling, ?draining, ?idle⟩
  case enabling =>
    intro e u n v s x y haccept
    refine ⟨fun hen hno => by rw [exec_unitDisable haccept hen, if_pos hno], ?disable, ?already, ?noFrames, ?enable⟩
    case disable =>
      rintro hen hno rfl
      rw [exec_unitDisable haccept hen, if_neg (ne_true_of_eq_false hno)]
      exact ⟨fun hst => by simp only [hst], fun hst => by simp only [hst], fun hst => by simp only [hst]⟩
    case already =>
      intro hen htakes hon
      rw [exec_unitEnable haccept hen, takesEnable htakes, if_neg Bool.false_ne_true, if_pos (by simpa using hon)]
    case noFrames =>
      intro hen hmac hmode
      rw [exec_unitEnable haccept hen, if_pos (by simp [hmac, hmode])]
    case enable =>
      rintro hen hno hoff htakes rfl
      rw [exec_unitEnable haccept hen, takesEnable htakes, if_neg Bool.false_ne_true, if_neg (by simp [hno, hoff])]
      exact ⟨fun hst => by simp only [hst, goActive], fun hst => by simp only [hst]⟩
  case draining =>
    intro u n s hlive
    refine ⟨exec_drainComplete hlive, fun hdue r k y hheld hnone hsome => ?_⟩
    rw [exec_drainBoundExpiry hlive hdue hheld hnone hsome]
    refine ⟨fun hdrains hempty => by rw [if_pos ⟨hdrains, by simpa using hempty⟩], fun hstays => ?_⟩
    rw [if_neg]
    rintro ⟨hdrains, hempty⟩
    rcases hstays with hnot | ⟨hhost, hholds⟩
    · exact hnot hdrains
    · rw [hholds] at hempty
      simp [hhost] at hempty
  case idle =>
    intro s x y u n hy hx
    rw [goIdle_reenabled hy hx]
    exact ⟨fun hreen => if_pos hreen, fun hreen => if_neg hreen⟩

end Sys2Proof.Machine
end

section
/-! Letter chains: start, fetch, park, re-read, doorbell, resume and stop (R196 to R207), and the statement about them. -/
namespace Sys2Proof.Machine

/-! ## What reaches the function -/

theorem onHost_open {s : State} (hup : hostUp s = true) (hopen : hostOpen s = true) (f : State → State) : onHost s f = .next (f s) := by
  simp only [onHost, hup, hopen, Bool.not_true, Bool.false_eq_true, if_false]

/-- A host access with the link down does nothing, and one that the host is not open for is discarded. -/
theorem onHost_closed {s t : State} (hdown : hostUp s = false → t = s) (hclosed : hostUp s = true → hostOpen s = false ∧ t = count s 3 kHstDiscarded 0)
    (f : State → State) : onHost s f = .next t := by
  cases hup : hostUp s with
  | false => simp only [onHost, hup, hdown hup, Bool.not_false, if_true]
  | true =>
    obtain ⟨hopen, rfl⟩ := hclosed hup
    simp only [onHost, hup, hopen, Bool.not_true, Bool.not_false, Bool.false_eq_true, if_false, if_true, discardWrite]

theorem exec_bar0WriteDiscarded (off : BitVec 20) (s : State) : exec (.bar0WriteDiscarded off) s = .next
    (if hostUp s && (!windowListed off.toNat || (windowCommand off.toNat && !hostOpen s)) then count s 3 kHstDiscarded 0 else s) := by
  have hexec : exec (.bar0WriteDiscarded off) s = execBar0WriteDiscarded off s := rfl
  rw [hexec, execBar0WriteDiscarded]
  split <;> rfl

/-! ## Starting and stopping -/

section
variable {n : ChainI} {h l : BitVec 32} {s : State} (hup : hostUp s = true) (hopen : hostOpen s = true)
include hup hopen

theorem exec_chainStart : exec (.chainStart n h l) s = .next
    (if ((chain s n).st = 0 ∨ (chain s n).st = 4) ∧ chainOn s n ∧ l.toNat % 64 = 0 then
      setChain s n { chain s n with st := 1, start := h.toNat, cur := h.toNat * 2 ^ 32 + l.toNat, letter := none, done := 0 }
    else emit2 (setChain s n { chain s n with start := h.toNat }) 0x0c0010 n (chain s n).st) :=
  (show exec (.chainStart n h l) s = execChainStart n h l s from rfl).trans (onHost_open hup hopen _)

theorem exec_chainResume (hfailed : (chain s n).st = 4) (hon : chainOn s n = true) : exec (.chainResume n) s = .next
    (match (chain s n).letter with
    | some l => if lLast l then setChain s n { chain s n with st := 2, done := 0 }
      else setChain s n { chain s n with st := 1, cur := lNext l, letter := none, done := 0 }
    | none => setChain s n { chain s n with st := 2, done := 0 }) := by
  have hexec : exec (.chainResume n) s = execChainResume n s := rfl
  rw [hexec, execChainResume, onHost_open hup hopen, if_neg (by simp [hfailed, hon])] <;> rfl

theorem exec_doorbellRing (w : List (BitVec 32)) (err : Fin 4) : exec (.doorbellRing n ⟨w, err⟩) s = exec (.parkedReread n ⟨w, err⟩) s :=
  (show exec (.doorbellRing n ⟨w, err⟩) s = execDoorbellRing n ⟨w, err⟩ s from rfl).trans (onHost_open hup hopen _)

end

theorem exec_chainDisable {e : Eng} {n : ChainI} {v : Word} {s x : State} (hen : v.getLsbD 0 = false) (hon : onF s fHST_CHCTL_EN 0 (2 * n) = true)
    (haccept : accept s e false (fAddr fHST_CHCTL_EN 0 (2 * n)) v = some x) :
    exec (.chainDisable e n v) s = .next (stopChain (wrW x (fAddr fHST_CHCTL_EN 0 (2 * n)) (v &&& 0xfff)) n) := by
  have hexec : exec (.chainDisable e n v) s = execChainDisable e n v s := rfl
  have hfield : wd (bitsOf v.toNat 0 12) = v &&& 0xfff := by
    apply BitVec.eq_of_toNat_eq
    rw [BitVec.toNat_ofNat, bitsOf_zero, BitVec.toNat_and, show (0xfff : Word).toNat = 2 ^ 12 - 1 from rfl, Nat.and_two_pow_sub_one_eq_mod]
    omega
  rw [hexec, execChainDisable, if_neg (by simp only [bitOf_toNat, hen, hon]; decide), onSet_of_accept _ haccept, hfield]

section
variable {s : State} {n : Nat}

theorem stopChain_letter (hst : (chain s n).st = 1) (hletter : (chain s n).letter.isSome = true) :
    stopChain s n = setChain s n { chain s n with st := 5, drainAt := s.sys.ticks } := by
  rw [stopChain, if_pos ⟨hst, hletter⟩]

theorem stopChain_noLetter (h : (chain s n).st = 2 ∨ (chain s n).st = 3 ∨ ((chain s n).st = 1 ∧ (chain s n).letter = none)) :
    stopChain s n = setChain s n { chain s n with st := 0, letter := none } := by
  rw [stopChain, if_neg, if_pos]
  · rcases h with h | h | ⟨h, -⟩ <;> simp [h]
  · rintro ⟨hst, hletter⟩
    rcases h with h | h | ⟨-, h⟩
    · exact absurd (hst.symm.trans h) (by decide)
    · exact absurd (hst.symm.trans h) (by decide)
    · simp [h] at hletter

end

/-! ## Letters as they are read -/

theorem readErr_eq_zero {cpl : Fin 3} {poison : Bool} : readErr cpl poison = 0 ↔ cpl = 0 ∧ poison = false := by
  revert cpl poison; decide

section
variable {n : ChainI} {s : State} (hrun : s.sys.halted = false) (hup : hostUp s = true)
include hrun hup

theorem exec_letterFetched (hst : (chain s n).st = 1) (hnone : (chain s n).letter = none) (w : List (BitVec 32)) (cpl : Fin 3) (poison : Bool) :
    exec (.letterFetched n w cpl poison) s = .next
      (if readErr cpl poison ≠ 0 ∧ inBar2 s (chain s n).cur = false then endLetter (noteErr s (readErr cpl poison)) n 1
      else takeLetter (readLetterAt s (chain s n).cur w).1 n (readLetterAt s (chain s n).cur w).2 (inBar2 s (chain s n).cur)) := by
  have hexec : exec (.letterFetched n w cpl poison) s = execLetterFetched n w cpl poison s := rfl
  have hzero : ((readErr cpl poison).val ≠ 0 ∧ (!inBar2 s (chain s n).cur) = true) ↔
      readErr cpl poison ≠ 0 ∧ inBar2 s (chain s n).cur = false := by
    rw [Bool.not_eq_true', Ne, Ne, Fin.ext_iff]; rfl
  rw [hexec, execLetterFetched, if_neg (by simp [hrun, hup, hst, hnone])]
  simp only [hzero]
  split <;> rfl

theorem exec_parkedReread (hwaits : (chain s n).st = 2 ∨ (chain s n).st = 3) (w : List (BitVec 32)) (err : Fin 4) :
    exec (.parkedReread n ⟨w, err⟩) s = .next
      (if err ≠ 0 ∧ inBar2 s (chain s n).cur = false then failRead (noteErr s err) n 1
      else
        let r := readLetterAt s (chain s n).cur w
        if (chain s n).st = 2 then
          (if lLast r.2 then r.1 else setChain r.1 n { chain s n with st := 1, cur := lNext r.2, letter := none, done := 0 })
        else if lOwn r.2 then takeLetter r.1 n r.2 (inBar2 s (chain s n).cur)
        else r.1) := by
  have hexec : exec (.parkedReread n ⟨w, err⟩) s = .next (reread s n w err) := rfl
  have hzero : (err.val ≠ 0 ∧ (!inBar2 s (chain s n).cur) = true) ↔ err ≠ 0 ∧ inBar2 s (chain s n).cur = false := by
    rw [Bool.not_eq_true', Ne, Ne, Fin.ext_iff]; rfl
  have hparked : ¬(s.sys.halted = true ∨ (!hostUp s) = true ∨ (chain s n).st ≠ 2 ∧ (chain s n).st ≠ 3) := by
    rcases hwaits with h | h <;> simp [hrun, hup, h]
  rw [hexec, reread, if_neg hparked]
  simp only [hzero]

end

theorem exec_parkedReread_idle {n : ChainI} {s : State} (hparked : (chain s n).st ≠ 2) (hstalled : (chain s n).st ≠ 3) (w : List (BitVec 32))
    (err : Fin 4) : exec (.parkedReread n ⟨w, err⟩) s = .next s := by
  have hexec : exec (.parkedReread n ⟨w, err⟩) s = .next (reread s n w err) := rfl
  rw [hexec, reread, if_pos (.inr (.inr ⟨hparked, hstalled⟩))]

/-- A letter in the host's memory is what the host answers. -/
theorem readLetterAt_host {s : State} {a : Nat} (h : inBar2 s a = false) (w : List (BitVec 32)) :
    readLetterAt s a w = (s, w.map fun x => x.toNat) := by
  simp only [readLetterAt, h, Bool.false_eq_true, if_false]

theorem readLetterAt_store {s : State} {a : Nat} (h : inBar2 s a = true) : readLetterAt s a [] =
    (s, (List.range 16).map fun k => tget (fun _ => 0) s.hst.store ((a - s.hst.cfg.bar2.toNat) / 4 + k)) := by
  simp only [readLetterAt, h, if_true, List.map_nil, List.zipIdx_nil, List.foldl_nil]

/-! ## Taking a letter -/

section
variable {s : State} {n : Nat} {l : List Nat} (i : Bool)

theorem takeLetter_stalls (hown : lOwn l = false) : takeLetter s n l i = setChain s n { chain s n with st := 3, letter := none, inStore := i } := by
  rw [takeLetter, if_pos (by simp [hown])]

/-- A letter with OWN: its kind, its postbox, the kinds allowed and its reserved fields are checked in this order. -/
theorem takeLetter_own {x : State} (hown : lOwn l = true)
    (hx : x = setChain s n { chain s n with st := 1, letter := some l, done := 0, inStore := i, retry := false }) : takeLetter s n l i =
    if 3 < lKind l ∨ (lKind l = 1 ∧ 0xbf < lw l 4 % 256) then endLetter x n 6
    else if (rdF x fHST_CHCTL_KINDS 0 (2 * n)).testBit (lKind l) = false then endLetter x n 7
    else if lReserved l = false then endLetter x n 4
    else x := by
  subst hx
  rw [takeLetter, if_neg (by simp [hown])]
  simp only [bitOf_eq_testBit, bitsOf_zero, Bool.not_eq_true', show 2 ^ 8 = 256 from rfl]

end

/-- Settles O36: starts, the fetch, what a letter is, its checks, the re-read, resume, stop, and the writes that are discarded. -/
theorem chainsFetchStallParkAndResume : Obligations.ChainsFetchStallParkAndResume := by
  refine ⟨?start, ?fetched, ?letters, ?taken, ?reread, ?resume, ?disable, fun s n => ⟨stopChain_letter, stopChain_noLetter⟩, ?discarded, ?closed⟩
  case start =>
    intro n h l s hup hopen
    rw [exec_chainStart hup hopen]
    refine ⟨fun hst hon halign => by rw [if_pos ⟨hst, hon, halign⟩], fun hnot => ?_⟩
    rw [if_neg]
    rintro ⟨hst, hon, halign⟩
    rcases hnot with h | h | h
    · exact h hst
    · exact absurd (hon.symm.trans h) (by decide)
    · exact h halign
  case fetched =>
    intro n w cpl poison s hrun hup hst hnone
    rw [exec_letterFetched hrun hup hst hnone]
    refine ⟨fun hhost => ⟨fun herr => ?_, fun hok => ?_⟩, fun hstore x l hread => ?_⟩
    · have hbad : readErr cpl poison ≠ 0 := by
        intro h
        obtain ⟨hcpl, hpoison⟩ := readErr_eq_zero.mp h
        simp [hcpl, hpoison] at herr
      rw [if_pos ⟨hbad, hhost⟩]
    · rw [if_neg (fun h => h.1 (readErr_eq_zero.mpr hok)), readLetterAt_host hhost, hhost]
    · rw [if_neg (by simp [hstore]), hread, hstore]
  case letters =>
    rintro s a _ rfl hstore
    exact ⟨readLetterAt_store hstore, rfl, rfl, fun p => ⟨rfl, rfl⟩, rfl, rfl, rfl⟩
  case taken =>
    intro s x n l i
    refine ⟨takeLetter_stalls i, fun hown hx => ?_⟩
    rw [takeLetter_own i hown hx]
    refine ⟨fun hkind => if_pos hkind, fun hkind hbox => ?_⟩
    rw [if_neg (by omega)]
    refine ⟨fun hkinds => if_pos hkinds, fun hkinds => ?_⟩
    rw [if_neg (by simp [hkinds])]
    exact ⟨fun hres => if_pos hres, fun hres => if_neg (by simp [hres])⟩
  case reread =>
    rintro n w err s x l _ hrun hup rfl hhost hstore
    refine ⟨fun herr hi hwaits => ?_, fun hok => ?_, fun hparked hstalled => exec_parkedReread_idle hparked hstalled w err,
      fun hopen => exec_doorbellRing hup hopen w err⟩
    · rw [exec_parkedReread hrun hup hwaits, if_pos ⟨herr, hi⟩]
    · have hread : readLetterAt s (chain s n).cur w = (x, l) := by
        cases hi : inBar2 s (chain s n).cur with
        | true => exact hstore hi
        | false =>
          obtain ⟨rfl, rfl⟩ := hhost hi
          exact readLetterAt_host hi w
      have hgood : ¬(err ≠ 0 ∧ inBar2 s (chain s n).cur = false) := by
        rintro ⟨herr, hi⟩
        rcases hok with h | h
        · exact herr h
        · exact absurd (h.symm.trans hi) (by decide)
      refine ⟨fun hst hlast => ?_, fun hst hlast => ?_, fun hst hown => ?_, fun hst hown => ?_⟩
      · simp only [exec_parkedReread hrun hup (.inl hst), if_neg hgood, hread, if_pos hst, hlast, Bool.false_eq_true, if_false]
      · simp only [exec_parkedReread hrun hup (.inl hst), if_neg hgood, hread, if_pos hst, hlast, if_true]
      · simp only [exec_parkedReread hrun hup (.inr hst), if_neg hgood, hread, hst, hown, if_true]
        rfl
      · simp only [exec_parkedReread hrun hup (.inr hst), if_neg hgood, hread, hst, hown, Bool.false_eq_true, if_false]
        rfl
  case resume =>
    intro n s hup hopen hfailed hon
    rw [exec_chainResume hup hopen hfailed hon]
    exact ⟨fun l hl => by simp only [hl], fun hnone => by simp only [hnone]⟩
  case disable =>
    rintro e n v s x _ hen hon haccept rfl
    exact exec_chainDisable hen hon haccept
  case discarded =>
    intro off s hup
    rw [exec_bar0WriteDiscarded]
    refine ⟨fun h => ?_, fun hlisted h => ?_⟩
    · rw [if_pos]
      rcases h with h | ⟨h, hopen⟩
      · simp [hup, h]
      · simp [hup, h, hopen]
    · rw [if_neg]
      rcases h with h | h <;> simp [hlisted, h]
  case closed =>
    intro n h l w err off s t hdown hclosed
    have hstart : exec (.chainStart n h l) s = execChainStart n h l s := rfl
    have hring : exec (.doorbellRing n ⟨w, err⟩) s = execDoorbellRing n ⟨w, err⟩ s := rfl
    have hresume : exec (.chainResume n) s = execChainResume n s := rfl
    have htake : exec (.hostPostboxTake n) s = execHostPostboxTake n s := rfl
    refine ⟨hstart.trans (onHost_closed hdown hclosed _), hring.trans (onHost_closed hdown hclosed _),
      hresume.trans (onHost_closed hdown hclosed _), htake.trans (onHost_closed hdown hclosed _), fun hup => ?_⟩
    rw [exec_bar0WriteDiscarded, hup]
    rfl

end Sys2Proof.Machine
end

section
/-! Letters in execution: messages, data moves, their ends and their status (R199 to R207, R477, R480), and the statement about them. -/
namespace Sys2Proof.Machine

/-! ## Data in DRAM -/

/-- A count changes the counters alone. -/
theorem count_eq (s : State) (u k o n : Nat) : count s u k o n = { s with cnt := (count s u k o n).cnt } := by
  unfold count; split <;> rfl

theorem countLines_eq (s : State) (m a n : Nat) (wr : Bool) : countLines s m a n wr = { s with cnt := (countLines s m a n wr).cnt } := by
  unfold countLines
  exact List.foldlRecOn (motive := fun t : State => t = { s with cnt := t.cnt }) (linesOf a n) _ rfl fun t ht l _ => by
    rw [count_eq, count_eq t, ht]

theorem dramB_congr {s t : State} (h : t.mpe = s.mpe) (a : Nat) : dramB t a = dramB s a := by rw [dramB, h, dramB]

theorem dramB_dramWrite (s : State) (a : Nat) (bs : List Byte) (k : Nat) :
    dramB (dramWrite s a bs) k = if a ≤ k ∧ k < a + bs.length then bs.getD (k - a) 0 else dramB s k :=
  tget_foldl_mapIdx (fun _ => 0) 0 bs a k s.mpe.dram

@[simp] theorem length_swapBytes (k : Nat) (bs : List Byte) : (swapBytes k bs).length = bs.length := List.length_mapIdx

theorem length_takeBytes (n : Nat) (s : State) : (takeBytes n s).1.length = n := by
  induction n generalizing s with
  | zero => rfl
  | succ n ih => exact congrArg (· + 1) (ih _)

/-- Bytes that no spec names are drawn without a change to the module's memories or units. -/
theorem takeBytes_frame (n : Nat) (s : State) : { (takeBytes n s).2 with sys := s.sys } = s ∧ (takeBytes n s).2.sys.halted = s.sys.halted := by
  induction n generalizing s with
  | zero => exact ⟨rfl, rfl⟩
  | succ n ih =>
    obtain ⟨hframe, hhalt⟩ := ih (takeFree s).2
    exact ⟨congrArg (fun t : State => { t with sys := s.sys }) hframe, hhalt⟩

theorem takeBytes_mpe (n : Nat) (s : State) : (takeBytes n s).2.mpe = s.mpe := (congrArg State.mpe (takeBytes_frame n s).1 :)

theorem bytesAt_zero {bs : List Byte} {n : Nat} (h : n ≤ bs.length) : bytesAt bs 0 n = bs.take n := by
  apply List.ext_getElem
  · simp [bytesAt, h]
  · intro i hi _
    have hin : i < bs.length := by simp [bytesAt] at hi; omega
    simp [bytesAt, byteAt, hin]

@[simp] theorem length_bytesAt (bs : List Byte) (i n : Nat) : (bytesAt bs i n).length = n := by simp [bytesAt]

/-! ## A range written by a master -/

section
variable (s : State) (m a : Nat) {bs : List Byte} {bad : Nat}

/-- Where the seal of each line written in part holds, the pairs are counted and the whole range is written. -/
theorem writeRange_whole (h : bad = 0 ∨ (partLines a bs.length)[bad - 1]? = none) : writeRange s m a bs bad =
    countLines (dramWrite ((partLines a bs.length).foldl (fun s l => count (countLines s m (l * 64) 1 false) 0x10 kMpePair m) s) a bs)
      m a bs.length true := by
  have hnone : (if bad = 0 then none else (partLines a bs.length)[bad - 1]?) = none := by
    rcases h with h | h
    · rw [if_pos h]
    · rw [h, ite_self]
  rw [writeRange, hnone]

theorem writeRange_failed {line : Nat} (hbad : bad ≠ 0) (h : (partLines a bs.length)[bad - 1]? = some line) :
    writeRange s m a bs bad = sealFault (dramWrite s a (bs.take (line * 64 - a))) 0x400011 (line * 64) m := by
  rw [writeRange, if_neg hbad, h]

theorem writeRange_sys (bs : List Byte) (bad : Nat) : (writeRange s m a bs bad).sys = s.sys := by
  unfold writeRange
  split
  · rfl
  · rw [countLines_eq]
    exact foldl_keeps State.sys (fun t l => by rw [count_eq, countLines_eq]) _ s

theorem dramB_writeRange_whole (h : bad = 0 ∨ (partLines a bs.length)[bad - 1]? = none) (k : Nat) :
    dramB (writeRange s m a bs bad) k = if a ≤ k ∧ k < a + bs.length then bs.getD (k - a) 0 else dramB s k := by
  rw [writeRange_whole s m a h, dramB_congr (countLines_mpe ..), dramB_dramWrite]
  congr 1
  exact dramB_congr (foldl_keeps State.mpe (fun t l => by rw [count_eq, countLines_eq]) _ s) k

end

/-- A failed seal is an event and a fault of its code. -/
theorem sealFault_raised (s : State) {code : Nat} (hcode : code < 2 ^ 24) (a m : Nat) :
    (∃ v, v ∈ (sealFault s code a m).log.raised ∧ v.code = code) ∧ ∃ f, f ∈ (sealFault s code a m).flt.raised ∧ f.code = code :=
  ⟨⟨_, List.mem_append_right _ (List.mem_singleton_self _), Nat.mod_eq_of_lt hcode⟩,
    ⟨_, List.mem_append_right _ (List.mem_singleton_self _), rfl⟩⟩

theorem dramB_sealFault (s : State) (code a m k : Nat) : dramB (sealFault s code a m) k = dramB s k := rfl

@[simp] theorem chain_setChain (s : State) (n : Nat) (c : Chain) : chain (setChain s n c) n = c := tget_tset_same (fun _ => chainReset) s.hst.chains n c

theorem dramB_setChain (s : State) (n : Nat) (c : Chain) (k : Nat) : dramB (setChain s n c) k = dramB s k := rfl

/-! ## Short letters -/

theorem exec_nopLetter {n : ChainI} {s : State} (h : executing s n 0 = true) : exec (.nopLetter n) s = .next (endLetter s n 0) := by
  have hexec : exec (.nopLetter n) s = execNopLetter n s := rfl
  rw [hexec, execNopLetter, if_pos h]

section
variable {n : ChainI} {s : State} (hexecuting : executing s n 1 = true)
include hexecuting

theorem exec_msgLetter (hfirst : (chain s n).retry = false) : exec (.msgLetter n) s = .next (sendMsg s n) := by
  have hexec : exec (.msgLetter n) s = execMsgLetter n s := rfl
  rw [hexec, execMsgLetter, if_pos (by simp [hexecuting, hfirst])]

section
variable (hretry : (chain s n).retry = true)
include hretry

theorem exec_msgLetterRetry (hpaced : paced s (paceRetry n) (625 * (rdF s fHST_CHCTL_WATCH 0 (2 * n) + 1) / 2) = true) :
    exec (.msgLetterRetry n) s = .next (sendMsg s n) := by
  have hexec : exec (.msgLetterRetry n) s = execMsgLetterRetry n s := rfl
  rw [hexec, execMsgLetterRetry, if_pos (by simp only [hexecuting, hretry, hpaced]; decide)]

theorem exec_msgFullTimeout (hpaced : paced s (paceFull n) 625000 = true) : exec (.msgFullTimeout n) s = .next (endLetter s n 5) := by
  have hexec : exec (.msgFullTimeout n) s = execMsgFullTimeout n s := rfl
  rw [hexec, execMsgFullTimeout, if_pos (by simp only [hexecuting, hretry, hpaced]; decide)]

end
end

/-- A MSG letter posts its message; accepted it ends, refused it waits for another try. -/
theorem sendMsg_eq {n : Nat} {s t x y : State} {l : List Nat} {ok : Bool} (hletter : (chain s n).letter = some l)
    (hpost : post s (lw l 4 % 256) ⟨0xf0 + n, lw l 0 / 65536 % 65536, lw l 8 % 2 ^ 24, lw l 9 % 2 ^ 24, lw l 10 % 2 ^ 24⟩ = (t, ok))
    (hx : x = if (chain t n).retry then t else setPace t (paceFull n))
    (hy : y = if ok then endLetter t n 0 else setChain (setPace x (paceRetry n)) n { chain t n with retry := true }) : sendMsg s n = y := by
  have hchain : chain (setPace x (paceRetry n)) n = chain t n := by
    subst hx
    split <;> rfl
  have hfield : bitsOf (lw l 0) 16 16 = lw l 0 / 65536 % 65536 := rfl
  have hbox : bitsOf (lw l 4) 0 8 = lw l 4 % 256 := bitsOf_zero _ _
  simp only [sendMsg, hletter, Option.getD_some, hfield, hbox, bitsOf_zero, hpost, ← hx, hchain]
  exact hy.symm

/-! ## The checks of a move -/

section
variable {s : State} {n : Nat} {l : List Nat} {wr : Bool}

theorem dmaCheck_format (h : dmaFormat l = false) : dmaCheck s n l wr = some (endLetter s n 4) := by
  rw [dmaCheck, if_pos (by simp [h])]

section
variable (h : dmaFormat l = true)
include h

theorem dmaCheck_refused {b : Nat} (hb : refusedByte s (2 + n) (lFar l) (lLen l) wr = some b) :
    dmaCheck s n l wr = some (endLetter (refuse s (2 + n) b wr) n 3) := by
  rw [dmaCheck, if_neg (by simp [h]), hb]

theorem dmaCheck_none (hb : refusedByte s (2 + n) (lFar l) (lLen l) wr = none) : dmaCheck s n l wr = none := by
  rw [dmaCheck, if_neg (by simp [h]), hb]

theorem dmaFormat_length : 4 ≤ lLen l := by
  simp only [dmaFormat, Bool.and_eq_true, decide_eq_true_eq] at h
  omega

end
end

/-! ## WRITE letters -/

/-- The host's memory with bytes written from an address on. -/
def hostWritten (m : Tab Byte) (a : Nat) (bs : List Byte) : Tab Byte :=
  (bs.mapIdx fun k b => (a + k, b)).foldl (fun t p => tset (fun _ => 0) t p.1 p.2) m

/-- The state whose host has the bytes of a WRITE letter, and whose chain n is c. -/
def hostMoved (t : State) (n a : Nat) (c : Chain) (bs : List Byte) : State :=
  setChain { t with hst := { t.hst with mem := hostWritten t.hst.mem a bs } } n c

theorem tget_hostWritten (m : Tab Byte) (a : Nat) (bs : List Byte) (k : Nat) : tget (fun _ => 0) (hostWritten m a bs) k =
    if a ≤ k ∧ k < a + bs.length then bs.getD (k - a) 0 else tget (fun _ => 0) m k :=
  tget_foldl_mapIdx (fun _ => 0) 0 bs a k m

theorem hostMoved_wrote (s : State) (cnt : CntSt) (n a : Nat) (c : Chain) (bs : List Byte) :
    (∀ k, k < bs.length → tget (fun _ => 0) (hostMoved { s with cnt := cnt } n a c bs).hst.mem (a + k) = bs.getD k 0) ∧
    (∀ b, b < a ∨ a + bs.length ≤ b → tget (fun _ => 0) (hostMoved { s with cnt := cnt } n a c bs).hst.mem b = tget (fun _ => 0) s.hst.mem b) ∧
    (hostMoved { s with cnt := cnt } n a c bs).cnt = cnt ∧ { hostMoved { s with cnt := cnt } n a c bs with hst := s.hst, cnt := s.cnt } = s := by
  refine ⟨fun k hk => ?_, fun b hb => ?_, rfl, rfl⟩
  · refine (tget_hostWritten s.hst.mem a bs (a + k)).trans ?_
    rw [if_pos (by omega), Nat.add_sub_cancel_left]
  · exact (tget_hostWritten s.hst.mem a bs b).trans (if_neg (by omega))

section
variable {n : ChainI} {s : State} {l : List Nat} (hexecuting : executing s n 3 = true) (hletter : (chain s n).letter = some l)
  (hdone : (chain s n).done = 0)
include hexecuting hletter hdone

theorem exec_writeLetter_stops {t : State} (hcheck : dmaCheck s n l false = some t) : exec (.writeLetter n) s = .next t := by
  have hexec : exec (.writeLetter n) s = execWriteLetter n s := rfl
  rw [hexec, execWriteLetter, if_neg (by simp [hexecuting])]
  simp only [hletter, hdone, Option.getD_some, hcheck, ne_eq, not_true_eq_false, if_false]

theorem exec_writeLetter (hcheck : dmaCheck s n l false = none) : exec (.writeLetter n) s = .next
    (let t := countLines s (2 + n) (lFar l) (lLen l) false
    hostMoved t n (lHaddr l) { chain s n with done := lLen l } (swapBytes (lSwap l) (dramRead s (lFar l) (lLen l)))) := by
  have hexec : exec (.writeLetter n) s = execWriteLetter n s := rfl
  rw [hexec, execWriteLetter, if_neg (by simp [hexecuting])]
  simp only [hletter, hdone, Option.getD_some, hcheck, ne_eq, not_true_eq_false, if_false]
  rfl

end

/-! ## READ letters -/

/-- The bytes of a READ letter that came from the host: all of them, or with an error a whole number of units short of all. -/
def arrived (l : List Nat) (bytes : List Byte) (code : Nat) : List Byte :=
  bytesAt bytes 0 (if code = 0 then lLen l else min bytes.length (lLen l - 1) / 2 ^ lSwap l * 2 ^ lSwap l)

/-- All bytes that a READ letter writes: those that came, and those that the spec leaves open. -/
def moved (s : State) (l : List Nat) (bytes : List Byte) (code : Nat) : List Byte :=
  swapBytes (lSwap l) (arrived l bytes code ++ (takeBytes (lLen l - (arrived l bytes code).length) s).1)

/-- The state with a READ letter's bytes in DRAM. -/
def movedIn (s : State) (n : Nat) (l : List Nat) (bytes : List Byte) (code bad : Nat) : State :=
  writeRange (takeBytes (lLen l - (arrived l bytes code).length) s).2 (2 + n) (lFar l) (moved s l bytes code) bad

theorem length_arrived_le (l : List Nat) (bytes : List Byte) {code : Nat} (hcode : code ≠ 0) : (arrived l bytes code).length ≤ lLen l - 1 := by
  rw [arrived, length_bytesAt, if_neg hcode]
  exact (Nat.div_mul_le_self _ _).trans (Nat.min_le_right _ _)

theorem length_arrived_ok (l : List Nat) (bytes : List Byte) : (arrived l bytes 0).length = lLen l := by
  rw [arrived, length_bytesAt, if_pos rfl]

theorem length_moved (s : State) (l : List Nat) (bytes : List Byte) (code : Nat) : (moved s l bytes code).length = lLen l := by
  rw [moved, length_swapBytes, List.length_append, length_takeBytes]
  by_cases hcode : code = 0
  · rw [hcode, length_arrived_ok, Nat.sub_self, Nat.add_zero]
  · have := length_arrived_le l bytes hcode
    omega

theorem moved_ok (s : State) (l : List Nat) {bytes : List Byte} (h : lLen l ≤ bytes.length) :
    moved s l bytes 0 = swapBytes (lSwap l) (bytes.take (lLen l)) := by
  rw [moved, length_arrived_ok, Nat.sub_self, arrived, if_pos rfl, bytesAt_zero h]
  exact congrArg _ (List.append_nil _)

theorem dramB_movedIn (s : State) (n : Nat) (l : List Nat) (bytes : List Byte) {code bad : Nat}
    (h : bad = 0 ∨ (partLines (lFar l) (lLen l))[bad - 1]? = none) (k : Nat) : dramB (movedIn s n l bytes code bad) k =
      if lFar l ≤ k ∧ k < lFar l + lLen l then (moved s l bytes code).getD (k - lFar l) 0 else dramB s k := by
  rw [movedIn, dramB_writeRange_whole _ _ _ (by rwa [length_moved]), length_moved, dramB_congr (takeBytes_mpe ..)]

section
variable {s : State} {n : Nat} {l : List Nat} (hletter : (chain s n).letter = some l)
include hletter

theorem moveRead_stops {t : State} (hcheck : dmaCheck s n l true = some t) (bytes : List Byte) (code bad : Nat) :
    moveRead s n bytes code bad = t := by
  simp only [moveRead, hletter, Option.getD_some, hcheck]

theorem moveRead_moves (hcheck : dmaCheck s n l true = none) (hlength : 4 ≤ lLen l)
    (hwritten : ∀ a, lFar l ≤ a → a < lFar l + lLen l → granuleWritten s (a / 65536) = true) (hrun : s.sys.halted = false) (bytes : List Byte)
    (code bad : Nat) : moveRead s n bytes code bad =
      let y := setChain (movedIn s n l bytes code bad) n { chain s n with done := (arrived l bytes code).length }
      if code = 0 then y else endLetter y n code := by
  have hall : ((List.range ((lFar l + lLen l - 1) / 65536 - lFar l / 65536 + 1)).all fun k => granuleWritten s (lFar l / 65536 + k)) = true := by
    rw [List.all_eq_true]
    intro k hk
    rw [List.mem_range] at hk
    have hin := hwritten (max (lFar l) ((lFar l / 65536 + k) * 65536)) (by omega) (by omega)
    rwa [show max (lFar l) ((lFar l / 65536 + k) * 65536) / 65536 = lFar l / 65536 + k by omega] at hin
  have hruns : (movedIn s n l bytes code bad).sys.halted = false := by
    rw [movedIn, writeRange_sys, (takeBytes_frame _ s).2, hrun]
  have heq : moveRead s n bytes code bad = if (movedIn s n l bytes code bad).sys.halted then movedIn s n l bytes code bad else
      let y := setChain (movedIn s n l bytes code bad) n { chain s n with done := (arrived l bytes code).length }
      if code = 0 then y else endLetter y n code := by
    simp only [moveRead, hletter, Option.getD_some, hcheck, hall, Bool.not_true, Bool.false_eq_true, if_false]
    rfl
  rw [heq, hruns]
  rfl

end

theorem executing_runs {s : State} {n k : Nat} (h : executing s n k = true) : s.sys.halted = false ∧ hostUp s = true := by
  simp only [executing, Bool.and_eq_true, Bool.not_eq_true'] at h
  exact ⟨h.1.1.1, h.1.1.2⟩

section
variable {n : ChainI} {s : State} {l : List Nat} (hexecuting : executing s n 2 = true) (hdone : (chain s n).done = 0)
include hexecuting hdone

theorem exec_readLetter (bytes : List Byte) (err : Fin 4) (bad : Fin 3) : exec (.readLetter n bytes ⟨err, bad⟩) s =
    .next (moveRead (noteErr s err) n bytes (if err = 0 then 0 else 1) bad) := by
  have hexec : exec (.readLetter n bytes ⟨err, bad⟩) s = execReadLetter n bytes ⟨err, bad⟩ s := rfl
  rw [hexec, execReadLetter, if_neg (by simp [hexecuting, hdone])]
  simp only [Fin.ext_iff]
  rfl

theorem exec_completionTimeout_move (hletter : (chain s n).letter = some l) (bytes : List Byte) :
    exec (.completionTimeout ⟨n, bytes⟩) s = .next (moveRead (noteAer s 14) n bytes 2 0) := by
  have hexec : exec (.completionTimeout ⟨n, bytes⟩) s = execCompletionTimeout ⟨n, bytes⟩ s := rfl
  obtain ⟨hrun, hup⟩ := executing_runs hexecuting
  simp only [hexec, execCompletionTimeout, hrun, hup, hletter, hexecuting, hdone, Bool.not_true, Bool.or_self, Bool.false_eq_true, if_false,
    Option.isNone_some, Bool.and_false, Bool.false_and, beq_self_eq_true, Bool.and_self, if_true]

end

theorem noteErr_frame (s : State) (err : Fin 4) : ∃ a, noteErr s err = { s with hst := { s.hst with aer := a } } := by
  unfold noteErr
  split
  · exact ⟨_, rfl⟩
  · exact ⟨s.hst.aer, rfl⟩

section
variable {n : ChainI} {s : State} {l : List Nat} (hexecuting : executing s n 2 = true) (hletter : (chain s n).letter = some l)
  (hdone : (chain s n).done = 0) (hcheck : dmaCheck s n l true = none) (hlength : 4 ≤ lLen l)
  (hwritten : ∀ a, lFar l ≤ a → a < lFar l + lLen l → granuleWritten s (a / 65536) = true)
include hexecuting hletter hdone hcheck hlength hwritten

theorem exec_readLetter_ok (bytes : List Byte) (bad : Fin 3) : exec (.readLetter n bytes ⟨0, bad⟩) s =
    .next (setChain (movedIn s n l bytes 0 bad) n { chain s n with done := lLen l }) := by
  refine (exec_readLetter hexecuting hdone bytes 0 bad).trans (congrArg _ ?_)
  rw [← length_arrived_ok l bytes]
  exact moveRead_moves hletter hcheck hlength hwritten (executing_runs hexecuting).1 bytes 0 bad

theorem readLetter_whole {bytes : List Byte} {bad : Fin 3} (hbytes : lLen l ≤ bytes.length)
    (hseals : bad = 0 ∨ (partLines (lFar l) (lLen l))[bad.val - 1]? = none) :
    ∃ t, exec (.readLetter n bytes ⟨0, bad⟩) s = .next t ∧ (chain t n).done = lLen l ∧ (chain t n).st = (chain s n).st ∧
      (∀ k, k < lLen l → dramB t (lFar l + k) = (swapBytes (lSwap l) (bytes.take (lLen l))).getD k 0) ∧
      ∀ a, a < lFar l ∨ lFar l + lLen l ≤ a → dramB t a = dramB s a := by
  have hmoved := dramB_movedIn s n l bytes (code := 0) (bad := bad) (hseals.imp_left fun h => by rw [h]; rfl)
  refine ⟨_, exec_readLetter_ok hexecuting hletter hdone hcheck hlength hwritten bytes bad, by rw [chain_setChain], by rw [chain_setChain],
    fun k hk => ?_, fun a ha => ?_⟩
  · rw [dramB_setChain, hmoved, if_pos (by omega), Nat.add_sub_cancel_left, moved_ok s l hbytes]
  · rw [dramB_setChain, hmoved, if_neg (by omega)]

theorem readLetter_sealFailed {bytes : List Byte} {bad : Fin 3} {line : Nat} (hbad : bad ≠ 0)
    (hline : (partLines (lFar l) (lLen l))[bad.val - 1]? = some line) :
    ∃ t, exec (.readLetter n bytes ⟨0, bad⟩) s = .next t ∧ (∃ v, v ∈ t.log.raised ∧ v.code = 0x400011) ∧
      (∃ f, f ∈ t.flt.raised ∧ f.code = 0x400011) ∧ ∀ a, a < lFar l ∨ line * 64 ≤ a → dramB t a = dramB s a := by
  refine ⟨_, exec_readLetter_ok hexecuting hletter hdone hcheck hlength hwritten bytes bad, ?_⟩
  rw [movedIn, writeRange_failed _ _ _ (fun h => hbad (Fin.ext h)) (by rwa [length_moved])]
  obtain ⟨hevent, hfault⟩ := sealFault_raised (dramWrite (takeBytes (lLen l - (arrived l bytes 0).length) s).2 (lFar l)
    ((moved s l bytes 0).take (line * 64 - lFar l))) (code := 0x400011) (by decide) (line * 64) (2 + n)
  refine ⟨hevent, hfault, fun a ha => ?_⟩
  rw [dramB_setChain, dramB_sealFault, dramB_dramWrite, if_neg, dramB_congr (takeBytes_mpe ..)]
  rw [List.length_take]
  omega

end

/-- A move that meets an error or has no answer writes its whole range and ends with its code after the bytes that came. -/
theorem moveRead_short {x : State} {n : Nat} {l : List Nat} (hletter : (chain x n).letter = some l) (hcheck : dmaCheck x n l true = none)
    (hlength : 4 ≤ lLen l) (hwritten : ∀ a, lFar l ≤ a → a < lFar l + lLen l → granuleWritten x (a / 65536) = true)
    (hrun : x.sys.halted = false) (bytes : List Byte) {code : Nat} (hcode : code ≠ 0) :
    ∃ u, moveRead x n bytes code 0 = endLetter u n code ∧ (chain u n).done ≤ lLen l - 1 ∧ (chain u n).letter = some l ∧
      ∀ a, a < lFar l ∨ lFar l + lLen l ≤ a → dramB u a = dramB x a := by
  refine ⟨_, (moveRead_moves hletter hcheck hlength hwritten hrun bytes code 0).trans (if_neg hcode), ?_, ?_, fun a ha => ?_⟩
  · rw [chain_setChain]
    exact length_arrived_le l bytes hcode
  · rw [chain_setChain]
    exact hletter
  · rw [dramB_setChain, dramB_movedIn x n l bytes (.inl rfl), if_neg (by omega)]

section
variable {n : ChainI} {bytes : List Byte} {s : State} (hrun : s.sys.halted = false) (hup : hostUp s = true)
  (hhost : inBar2 s (chain s n).cur = false)
include hrun hup hhost

theorem exec_completionTimeout_fetch (hst : (chain s n).st = 1) (hnone : (chain s n).letter = none) :
    exec (.completionTimeout ⟨n, bytes⟩) s = .next (endLetter (noteAer s 14) n 2) := by
  have hexec : exec (.completionTimeout ⟨n, bytes⟩) s = execCompletionTimeout ⟨n, bytes⟩ s := rfl
  rw [hexec, execCompletionTimeout, if_neg (by simp [hrun, hup]), if_pos (by simp [hst, hnone, hhost])]

theorem exec_completionTimeout_reread (hst : (chain s n).st = 2 ∨ (chain s n).st = 3) :
    exec (.completionTimeout ⟨n, bytes⟩) s = .next (failRead (noteAer s 14) n 2) := by
  have hexec : exec (.completionTimeout ⟨n, bytes⟩) s = execCompletionTimeout ⟨n, bytes⟩ s := rfl
  have hidle : ∀ k, executing s n k = false := by
    intro k
    rcases hst with h | h <;> simp [executing, h]
  rw [hexec, execCompletionTimeout, if_neg (by simp [hrun, hup]), if_neg, if_neg (by simp [hidle]), if_pos]
  · rcases hst with h | h <;> simp [h, hhost]
  · rcases hst with h | h <;> simp [h]

end

theorem exec_dmaComplete {n : ChainI} {s : State} {l : List Nat} (hletter : (chain s n).letter = some l)
    (hexecuting : executing s n 2 = true ∨ executing s n 3 = true) (hdone : (chain s n).done = lLen l) (hlength : lLen l ≠ 0) :
    exec (.dmaComplete n) s = .next (endLetter s n 0) := by
  have hexec : exec (.dmaComplete n) s = execDmaComplete n s := rfl
  rw [hexec, execDmaComplete, if_pos]
  rcases hexecuting with h | h <;> simp [h, hletter, hdone, hlength]

/-! ## The end of a letter -/

theorem endLetter_failed {s x : State} {n code : Nat} {c : Chain} (hc : c = chain s n) (hcode : code ≠ 0)
    (hx : x = wrF (if c.letter.isSome then writeStatus s c.inStore c.cur c.done code else s) fHST_CHSTAT_LASTCODE code 0 (2 * n)) :
    endLetter s n code = signal (emit (setChain x n { c with
      letters := (if c.letter.isSome then (c.letters + 1) % 2 ^ 32 else c.letters), retry := false, st := 4 }) 0x0c0020 n code c.done) n := by
  subst hx hc
  simp only [endLetter, Bool.true_and, if_pos hcode]

theorem failRead_eq {s : State} {n : Nat} {c : Chain} (hc : c = chain s n) (code : Nat) : failRead s n code =
    signal (emit (setChain (wrF s fHST_CHSTAT_LASTCODE code 0 (2 * n)) n { c with st := 4 }) 0x0c0020 n code 0) n := by
  subst hc
  rfl

/-- What a word of the host's memory, or of BAR2's store, reads after a word was written. -/
def busRead (s : State) (i : Bool) (k : Nat) : Nat := if i then tget (fun _ => 0) s.hst.store k else tget (fun _ => 0) s.hst.bus k

/-- The word that a byte address of the host's memory, or of BAR2, stands for. -/
def busIndex (s : State) (i : Bool) (a : Nat) : Nat := if i then (a - s.hst.cfg.bar2.toNat) / 4 else a / 4

theorem busRead_busW (s : State) (i : Bool) (a v k : Nat) :
    busRead (busW s i a v) i k = if k = busIndex s i a then v else busRead s i k := by
  cases i with
  | true => exact tget_tset (fun _ => 0) s.hst.store _ k v
  | false => exact tget_tset (fun _ => 0) s.hst.bus _ k v

theorem busIndex_busW (s : State) (i j : Bool) (a v b : Nat) : busIndex (busW s i a v) j b = busIndex s j b := by
  cases i <;> rfl

@[simp] theorem busW_time (s : State) (i : Bool) (a v : Nat) : (busW s i a v).time = s.time := by cases i <;> rfl

/-- The status of a letter stands in the last five of its words. -/
theorem busRead_writeStatus {s : State} {i : Bool} {a b : Nat} (hb : ∀ j, busIndex s i (a + 4 * j) = b + j) (done code k : Nat) :
    busRead (writeStatus s i a done code) i k =
      if k = b + 15 then code + (if code = 0 then 0 else 2 ^ 30) else if k = b + 14 then s.time.gen
      else if k = b + 13 then s.time.ns else if k = b + 12 then s.time.sec % 2 ^ 24 else if k = b + 11 then done else busRead s i k := by
  have h11 := hb 11
  have h12 := hb 12
  have h13 := hb 13
  have h14 := hb 14
  have h15 := hb 15
  simp only [writeStatus, busRead_busW, busIndex_busW, busW_time, h11, h12, h13, h14, h15]

/-- Settles O37: NOP and MSG, the checks of a move, WRITE, READ and its errors, completion, time-outs, and the end of a letter. -/
theorem lettersMoveDataAndEndWithACode : Obligations.LettersMoveDataAndEndWithACode := by
  refine ⟨fun n s h => exec_nopLetter h, ?msg, ?checks, ?write, ?read,
    fun n s l hletter hexecuting hdone hlength => exec_dmaComplete hletter hexecuting hdone hlength,
    fun n bytes s hrun hup hhost => ⟨exec_completionTimeout_fetch hrun hup hhost, exec_completionTimeout_reread hrun hup hhost⟩, ?failed, ?status⟩
  case msg =>
    intro n s t x y l ok hexecuting hletter hpost hx hy
    have hsend := sendMsg_eq hletter hpost hx hy
    refine ⟨fun hfirst => ?_, fun hretry hpaced => ?_, exec_msgFullTimeout hexecuting⟩
    · rw [exec_msgLetter hexecuting hfirst, hsend]
    · rw [exec_msgLetterRetry hexecuting hretry hpaced, hsend]
  case checks =>
    rintro n s x l bytes err bad wr c rfl hx hexecuting hletter hdone
    have hstops : ∀ t, dmaCheck x n l wr = some t → exec (if wr then .readLetter n bytes ⟨err, bad⟩ else .writeLetter n) s = .next t := by
      intro t hcheck
      cases wr with
      | true =>
        subst hx
        obtain ⟨a, ha⟩ := noteErr_frame s err
        have hletter' : (chain (noteErr s err) n).letter = some l := by rw [ha]; exact hletter
        exact (exec_readLetter hexecuting hdone bytes err bad).trans (congrArg _ (moveRead_stops hletter' hcheck _ _ _))
      | false =>
        subst hx
        exact exec_writeLetter_stops hexecuting hletter hdone hcheck
    exact ⟨fun hformat => hstops _ (dmaCheck_format hformat), fun b hformat hb => hstops _ (dmaCheck_refused hformat hb)⟩
  case write =>
    rintro n s l bs hexecuting hletter hdone hformat hfree hbs
    refine ⟨_, exec_writeLetter hexecuting hletter hdone (dmaCheck_none hformat hfree), ?_⟩
    obtain ⟨cnt, hcnt⟩ : ∃ cnt, countLines s (2 + n) (lFar l) (lLen l) false = { s with cnt := cnt } := ⟨_, countLines_eq ..⟩
    rw [hcnt, ← hbs]
    obtain ⟨hbytes, hrest, hcnt, hframe⟩ := hostMoved_wrote s cnt n (lHaddr l) { chain s n with done := lLen l } bs
    have hlength : bs.length = lLen l := by rw [hbs, length_swapBytes, dramRead, List.length_map, List.length_range]
    rw [hlength] at hbytes hrest
    exact ⟨congrArg Chain.done (chain_setChain _ _ _), hbytes, hrest, hcnt, hframe⟩
  case read =>
    intro n s l bytes err bad hexecuting hletter hdone hformat hfree hwritten
    have hcheck : dmaCheck s n l true = none := dmaCheck_none hformat hfree
    have hlength := dmaFormat_length hformat
    refine ⟨readLetter_whole hexecuting hletter hdone hcheck hlength hwritten,
      fun line => readLetter_sealFailed hexecuting hletter hdone hcheck hlength hwritten, fun c code hc => ?_⟩
    have hshort : ∀ a code, code ≠ 0 → _ := fun a code (hcode : code ≠ 0) =>
      moveRead_short (x := { s with hst := { s.hst with aer := a } }) hletter (dmaCheck_none hformat hfree) hlength hwritten
        (executing_runs hexecuting).1 bytes hcode
    rcases hc with ⟨rfl, herr, rfl⟩ | ⟨rfl, rfl⟩
    · obtain ⟨a, ha⟩ := noteErr_frame s err
      obtain ⟨u, hu, hends⟩ := hshort a 1 (by decide)
      exact ⟨u, by rw [exec_readLetter hexecuting hdone, if_neg herr, ha, ← hu]; rfl, hends⟩
    · obtain ⟨u, hu, hends⟩ := hshort (s.hst.aer ||| 2 ^ 14) 2 (by decide)
      exact ⟨u, (exec_completionTimeout_move hexecuting hdone hletter bytes).trans (congrArg _ hu), hends⟩
  case failed =>
    intro s x n code c hc hcode hx
    exact ⟨endLetter_failed hc hcode hx, failRead_eq hc code⟩
  case status =>
    intro s i a b done code f hhost hstore k
    cases i with
    | true =>
      obtain ⟨hle, halign, rfl, rfl⟩ := hstore rfl
      refine busRead_writeStatus (i := true) (fun j => ?_) done code k
      simp only [busIndex, if_true]
      omega
    | false =>
      obtain ⟨halign, rfl, rfl⟩ := hhost rfl
      refine busRead_writeStatus (i := false) (fun j => ?_) done code k
      simp only [busIndex, Bool.false_eq_true, if_false]
      omega

end Sys2Proof.Machine
end

section
/-! Postboxes, vectors, the link and the function-level reset of the host interface (R195 to R209), and the statement about them. -/
namespace Sys2Proof.Machine

theorem exec_hostPostboxTake {n : ChainI} {s : State} {p : Place} {l : List Place} (hup : hostUp s = true) (hopen : hostOpen s = true)
    (htake : takeFirst (fun p => p.ready) (boxOf s (0xf0 + n)) = some (p, l)) : exec (.hostPostboxTake n) s = .next
      (if 0 < ready (setBox s (0xf0 + n) l) (0xf0 + n) then signal (setBox s (0xf0 + n) l) (8 + n) else setBox s (0xf0 + n) l) := by
  have hexec : exec (.hostPostboxTake n) s = execHostPostboxTake n s := rfl
  rw [hexec, execHostPostboxTake, onHost_open hup hopen, htake]

/-! ## Vectors -/

section
variable {s : State} {v : Nat}

theorem signal_off (h : s.hst.msixOn = false ∨ s.hst.cfg.d3hot = true) : signal s v = s := by
  rcases h with h | h <;> simp [signal, h]

section
variable (hon : s.hst.msixOn = true) (hd0 : s.hst.cfg.d3hot = false)
include hon hd0

theorem signal_masked (h : s.hst.fmask = true ∨ tget (fun _ => false) s.hst.unmasked v = false) :
    signal s v = { s with hst := { s.hst with msixPend := tset (fun _ => false) s.hst.msixPend v true } } := by
  have hmask : (s.hst.fmask || !tget (fun _ => false) s.hst.unmasked v) = true := by rcases h with h | h <;> simp [h]
  simp only [signal, hon, hd0, hmask, Bool.not_true, Bool.or_self, Bool.false_eq_true, if_false, if_true]

variable (hfree : s.hst.fmask = false) (hunmasked : tget (fun _ => false) s.hst.unmasked v = true)
include hfree hunmasked

theorem signal_held (hheld : tget (fun _ => false) s.hst.holdoff v = true) :
    signal s v = { s with hst := { s.hst with held := tset (fun _ => false) s.hst.held v true } } := by
  simp only [signal, hon, hd0, hfree, hunmasked, hheld, Bool.not_true, Bool.or_self, Bool.false_eq_true, if_false, if_true]

theorem signal_sent (hheld : tget (fun _ => false) s.hst.holdoff v = false) : signal s v = { setPace s (paceIrq v) with hst := { s.hst with
    sent := tset (fun _ => 0) s.hst.sent v (tget (fun _ => 0) s.hst.sent v + 1)
    msg := some (tget (fun _ => 0) s.hst.table (4 * v + 1) * 2 ^ 32 + tget (fun _ => 0) s.hst.table (4 * v + 0),
      tget (fun _ => 0) s.hst.table (4 * v + 2))
    holdoff := tset (fun _ => false) s.hst.holdoff v (rdF s fHST_IRQHOLD_US != 0) } } := by
  simp only [signal, hon, hd0, hfree, hunmasked, hheld, Bool.not_true, Bool.or_self, Bool.false_eq_true, if_false]

theorem signal_sends (hheld : tget (fun _ => false) s.hst.holdoff v = false) : ∃ t, signal s v = t ∧
    tget (fun _ => 0) t.hst.sent v = tget (fun _ => 0) s.hst.sent v + 1 ∧
    t.hst.msg = some (tget (fun _ => 0) s.hst.table (4 * v + 1) * 2 ^ 32 + tget (fun _ => 0) s.hst.table (4 * v),
      tget (fun _ => 0) s.hst.table (4 * v + 2)) ∧ tget (fun _ => false) t.hst.holdoff v = (rdF s fHST_IRQHOLD_US != 0) := by
  refine ⟨_, signal_sent hon hd0 hfree hunmasked hheld, ?_, rfl, ?_⟩
  · exact tget_tset_same (fun _ => 0) s.hst.sent v (tget (fun _ => 0) s.hst.sent v + 1)
  · exact tget_tset_same (fun _ => false) s.hst.holdoff v (rdF s fHST_IRQHOLD_US != 0)

end
end

theorem exec_irqHoldoffExpiry {v : Fin 32} {s : State} (hheld : tget (fun _ => false) s.hst.holdoff v = true)
    (hpaced : paced s (paceIrq v) (625 * rdF s fHST_IRQHOLD_US) = true) {x : State} (hx : x = { s with hst := { s.hst with
      holdoff := tset (fun _ => false) s.hst.holdoff v false, held := tset (fun _ => false) s.hst.held v false } }) :
    exec (.irqHoldoffExpiry v) s = .next (if tget (fun _ => false) s.hst.held v then signal x v else x) := by
  have hexec : exec (.irqHoldoffExpiry v) s = execIrqHoldoffExpiry v s := rfl
  subst hx
  rw [hexec, execIrqHoldoffExpiry, if_neg (by simp only [hheld, hpaced]; decide)]

/-! ## Vectors sent at a write of the table or the function's control -/

/-- The state in which vector k is not pending. -/
def unpended (s : State) (k : Nat) : State := { s with hst := { s.hst with msixPend := tset (fun _ => false) s.hst.msixPend k false } }

/-- A vector that is pending and that nothing masks any more is signalled. -/
def sendUnmasked (s : State) (k : Nat) : State :=
  if !s.hst.fmask && s.hst.msixOn && tget (fun _ => false) s.hst.unmasked k && tget (fun _ => false) s.hst.msixPend k then
    signal (unpended s k) k
  else s

/-- Whether vector k goes out of the state a table write has left. -/
def goesOut (s : State) (k : Nat) : Bool :=
  s.hst.msixOn && !s.hst.fmask && tget (fun _ => false) s.hst.unmasked k && tget (fun _ => false) s.hst.msixPend k

/-- What is left of a state once the vectors below m were seen to. -/
structure SentBelow (s t : State) (m : Nat) : Prop where
  on : t.hst.msixOn = s.hst.msixOn
  fmask : t.hst.fmask = s.hst.fmask
  unmasked : t.hst.unmasked = s.hst.unmasked
  table : t.hst.table = s.hst.table
  cfg : t.hst.cfg = s.hst.cfg
  pend : ∀ k, tget (fun _ => false) t.hst.msixPend k = (tget (fun _ => false) s.hst.msixPend k && !(decide (k < m) && goesOut s k))
  sent : ∀ k, tget (fun _ => 0) t.hst.sent k =
    tget (fun _ => 0) s.hst.sent k + if decide (k < m) && goesOut s k && !tget (fun _ => false) s.hst.holdoff k then 1 else 0
  holdoff : ∀ k, m ≤ k → tget (fun _ => false) t.hst.holdoff k = tget (fun _ => false) s.hst.holdoff k
  rest : { t with hst := s.hst, sys := { t.sys with pace := s.sys.pace } } = s

theorem SentBelow.start (s : State) : SentBelow s s 0 where
  on := rfl
  fmask := rfl
  unmasked := rfl
  table := rfl
  cfg := rfl
  pend k := by simp
  sent k := by simp
  holdoff k _ := rfl
  rest := rfl

/-- The next vector is seen to as the state before all of them has it. -/
theorem SentBelow.next {s t : State} {m : Nat} (h : SentBelow s t m) (hd0 : s.hst.cfg.d3hot = false) : SentBelow s (sendUnmasked t m) (m + 1) := by
  have hpend : tget (fun _ => false) t.hst.msixPend m = tget (fun _ => false) s.hst.msixPend m := by
    rw [h.pend]; simp
  have hcond : (!t.hst.fmask && t.hst.msixOn && tget (fun _ => false) t.hst.unmasked m && tget (fun _ => false) t.hst.msixPend m) = goesOut s m := by
    rw [goesOut, h.fmask, h.on, h.unmasked, hpend, Bool.and_comm (!s.hst.fmask)]
  have hlt : ∀ {k}, k ≠ m → decide (k < m + 1) = decide (k < m) := fun hk => by simp; omega
  cases hgo : goesOut s m with
  | false =>
    rw [sendUnmasked, hcond, hgo, if_neg Bool.false_ne_true]
    refine ⟨h.on, h.fmask, h.unmasked, h.table, h.cfg, fun k => ?_, fun k => ?_, fun k hk => h.holdoff k (by omega), h.rest⟩
    · rw [h.pend]
      by_cases hk : k = m
      · simp [hk, hgo]
      · rw [hlt hk]
    · rw [h.sent]
      by_cases hk : k = m
      · simp [hk, hgo]
      · rw [hlt hk]
  | true =>
    have hgo' := hgo
    simp only [goesOut, Bool.and_eq_true, Bool.not_eq_true'] at hgo'
    obtain ⟨⟨⟨hon, hfmask⟩, hunmasked⟩, hwaits⟩ := hgo'
    have hholdoff := h.holdoff m (Nat.le_refl m)
    have hpend' : ∀ k, tget (fun _ => false) (tset (fun _ => false) t.hst.msixPend m false) k =
        (tget (fun _ => false) s.hst.msixPend k && !(decide (k < m + 1) && goesOut s k)) := by
      intro k
      rw [tget_tset, h.pend]
      by_cases hk : k = m
      · simp [hk, hgo]
      · rw [if_neg hk, hlt hk]
    rw [sendUnmasked, hcond, hgo, if_pos rfl]
    cases hheld : tget (fun _ => false) s.hst.holdoff m with
    | true =>
      rw [signal_held (s := unpended t m) (h.on.trans hon) ((congrArg PcieCfg.d3hot h.cfg).trans hd0) (h.fmask.trans hfmask)
        ((congrArg (fun u => tget (fun _ => false) u m) h.unmasked).trans hunmasked) (hholdoff.trans hheld)]
      refine ⟨h.on, h.fmask, h.unmasked, h.table, h.cfg, hpend', fun k => ?_, fun k hk => h.holdoff k (by omega), h.rest⟩
      refine (h.sent k).trans ?_
      by_cases hk : k = m
      · simp [hk, hheld]
      · rw [hlt hk]
    | false =>
      rw [signal_sent (s := unpended t m) (h.on.trans hon) ((congrArg PcieCfg.d3hot h.cfg).trans hd0) (h.fmask.trans hfmask)
        ((congrArg (fun u => tget (fun _ => false) u m) h.unmasked).trans hunmasked) (hholdoff.trans hheld)]
      refine ⟨h.on, h.fmask, h.unmasked, h.table, h.cfg, hpend', fun k => ?_, fun k hk => ?_, h.rest⟩
      · refine (tget_tset (fun _ => 0) t.hst.sent m k (tget (fun _ => 0) t.hst.sent m + 1)).trans ?_
        rw [h.sent, h.sent]
        by_cases hk : k = m
        · simp [hk, hgo, hheld]
        · rw [if_neg hk, hlt hk]
      · refine (tget_tset (fun _ => false) t.hst.holdoff m k (rdF (unpended t m) fHST_IRQHOLD_US != 0)).trans ?_
        rw [if_neg (by omega), h.holdoff k (by omega)]

theorem sentBelow_foldl {s : State} (hd0 : s.hst.cfg.d3hot = false) (m : Nat) : SentBelow s ((List.range m).foldl sendUnmasked s) m := by
  induction m with
  | zero => exact SentBelow.start s
  | succ m ih =>
    rw [List.range_succ, List.foldl_append]
    exact ih.next hd0

/-- The state with vector v's entry and the function's control as the host wrote them. -/
def tableWritten (s : State) (v : Fin 32) (addr : BitVec 64) (data : BitVec 32) (mask en fm : Bool) : State :=
  { s with hst := { s.hst with
    table := tset (fun _ => 0) (tset (fun _ => 0) (tset (fun _ => 0) s.hst.table (4 * v.val + 0) (addr.toNat % 2 ^ 32)) (4 * v.val + 1)
      (addr.toNat / 2 ^ 32)) (4 * v.val + 2) data.toNat
    unmasked := tset (fun _ => false) s.hst.unmasked v (!mask)
    msixOn := en
    fmask := fm } }

section
variable (v : Fin 32) (addr : BitVec 64) (data : BitVec 32) (mask en fm : Bool) {s : State} (hup : hostUp s = true)
include hup

theorem exec_msixUnmask : exec (.msixUnmask ⟨v, addr, data, mask⟩ ⟨en, fm⟩) s =
    .next ((List.range 32).foldl sendUnmasked (tableWritten s v addr data mask en fm)) := by
  have hexec : exec (.msixUnmask ⟨v, addr, data, mask⟩ ⟨en, fm⟩) s = execMsixUnmask ⟨v, addr, data, mask⟩ ⟨en, fm⟩ s := rfl
  rw [hexec, execMsixUnmask, if_neg (by simp [hup])]
  rfl

theorem msixUnmask_sends : ∃ t, exec (.msixUnmask ⟨v, addr, data, mask⟩ ⟨en, fm⟩) s = .next t ∧ t.hst.msixOn = en ∧ t.hst.fmask = fm ∧
    t.hst.unmasked = tset (fun _ => false) s.hst.unmasked v (!mask) ∧
    tget (fun _ => 0) t.hst.table (4 * v) = addr.toNat % 2 ^ 32 ∧ tget (fun _ => 0) t.hst.table (4 * v + 1) = addr.toNat / 2 ^ 32 ∧
    tget (fun _ => 0) t.hst.table (4 * v + 2) = data.toNat ∧
    (∀ k, k < 32 → ∀ go : Bool, go = (en && !fm && tget (fun _ => false) t.hst.unmasked k && tget (fun _ => false) s.hst.msixPend k) →
      tget (fun _ => false) t.hst.msixPend k = (tget (fun _ => false) s.hst.msixPend k && !go) ∧
      tget (fun _ => 0) t.hst.sent k = tget (fun _ => 0) s.hst.sent k + (if go && !tget (fun _ => false) s.hst.holdoff k then 1 else 0)) ∧
    { t with hst := s.hst, sys := { t.sys with pace := s.sys.pace } } = s := by
  have hd0 : s.hst.cfg.d3hot = false := by
    simp only [hostUp, Bool.and_eq_true, Bool.not_eq_true'] at hup
    exact hup.2
  have h := sentBelow_foldl (s := tableWritten s v addr data mask en fm) hd0 32
  refine ⟨_, exec_msixUnmask v addr data mask en fm hup, h.on, h.fmask, h.unmasked, ?_, ?_, ?_, fun k hk go hgo => ?_, ?_⟩
  · rw [h.table]
    refine (tget_tset_other (fun _ => 0) _ _ (by omega)).trans ((tget_tset_other (fun _ => 0) _ _ (by omega)).trans ?_)
    exact tget_tset_same (fun _ => 0) s.hst.table (4 * v.val + 0) _
  · rw [h.table]
    exact (tget_tset_other (fun _ => 0) _ _ (by omega)).trans (tget_tset_same (fun _ => 0) _ _ _)
  · rw [h.table]
    exact tget_tset_same (fun _ => 0) _ _ _
  · have hgoes : goesOut (tableWritten s v addr data mask en fm) k = go := by
      rw [hgo, h.unmasked]
      rfl
    have hpend := h.pend k
    have hsent := h.sent k
    rw [hgoes, decide_eq_true hk, Bool.true_and] at hpend hsent
    exact ⟨hpend, hsent⟩
  · generalize (List.range 32).foldl sendUnmasked (tableWritten s v addr data mask en fm) = t at h
    exact (congrArg (fun t : State => { t with hst := s.hst }) h.rest :)

end

end Sys2Proof.Machine
end

section
/-! The PCIe link and the function-level reset (R201, R204, R208), and the statement about the host interface's signals. -/
namespace Sys2Proof.Machine

/-! ## What a letter's end leaves of the chains -/

@[simp] theorem signal_chains (s : State) (v : Nat) : (signal s v).hst.chains = s.hst.chains := by
  simp only [signal]
  split
  · rfl
  · split
    · rfl
    · split <;> rfl

@[simp] theorem busW_chains (s : State) (i : Bool) (a v : Nat) : (busW s i a v).hst.chains = s.hst.chains := by cases i <;> rfl

@[simp] theorem writeStatus_chains (s : State) (i : Bool) (a done code : Nat) : (writeStatus s i a done code).hst.chains = s.hst.chains := by
  simp only [writeStatus, busW_chains]

theorem chain_congr {s t : State} (h : t.hst.chains = s.hst.chains) (n : Nat) : chain t n = chain s n := congrArg (tget (fun _ => chainReset) · n) h

theorem chain_setChain_other (s : State) {n m : Nat} (c : Chain) (h : m ≠ n) : chain (setChain s n c) m = chain s m :=
  tget_tset_other (fun _ => chainReset) s.hst.chains c h

/-- A letter that ends with a code fails its chain and leaves the others. -/
theorem st_endLetter_failed (s : State) (n : Nat) {code : Nat} (hcode : code ≠ 0) (status : Bool) (m : Nat) :
    (chain (endLetter s n code status) m).st = if m = n then 4 else (chain s m).st := by
  have hstatus : ∀ b : Bool, (if b then writeStatus s (chain s n).inStore (chain s n).cur (chain s n).done code else s).hst.chains = s.hst.chains := by
    intro b
    cases b with
    | true => exact writeStatus_chains ..
    | false => rfl
  simp only [endLetter, if_pos hcode]
  rw [chain_congr (signal_chains ..), chain_congr (congrArg HstSt.chains (emit_hst ..))]
  by_cases hm : m = n
  · rw [hm, chain_setChain, if_pos rfl]
  · rw [chain_setChain_other _ _ hm, if_neg hm]
    exact congrArg Chain.st (chain_congr (hstatus _) m)

/-! ## The link -/

/-- The letter of chain n that is being read or executed ends as the link goes down. -/
def endInFlight (s : State) (n : Nat) : State :=
  if (chain s n).st = 1 ∨ (chain s n).st = 5 then endLetter s n 9 (chain s n).inStore else s

theorem st_endInFlight (s : State) (n m : Nat) : (chain (endInFlight s n) m).st =
    if m = n ∧ ((chain s m).st = 1 ∨ (chain s m).st = 5) then 4 else (chain s m).st := by
  unfold endInFlight
  split
  · next h =>
    rw [st_endLetter_failed s n (by decide)]
    by_cases hm : m = n
    · rw [if_pos hm, if_pos ⟨hm, hm ▸ h⟩]
    · rw [if_neg hm, if_neg fun hn => hm hn.1]
  · next h =>
    rw [if_neg]
    rintro ⟨rfl, hn⟩
    exact h hn

theorem st_foldl_endInFlight (s : State) (k m : Nat) : (chain ((List.range k).foldl endInFlight s) m).st =
    if m < k ∧ ((chain s m).st = 1 ∨ (chain s m).st = 5) then 4 else (chain s m).st := by
  induction k with
  | zero => simp
  | succ k ih =>
    rw [List.range_succ, List.foldl_append]
    refine (st_endInFlight _ k m).trans ?_
    rw [ih]
    by_cases hm : m = k
    · simp [hm]
    · simp only [hm, false_and, if_false, show m < k + 1 ↔ m < k by omega]

/-- The state with no rate and no width. -/
def unlinked (s : State) : State := { s with hst := { s.hst with rate := 0, width := 0 } }

/-- The state of the link once it is down, its event and fault not yet raised. -/
def linkDropped (s : State) : State := unlinked (if s.sys.halted then s else (List.range 8).foldl endInFlight s)

theorem chain_unlinked (s : State) (n : Nat) : chain (unlinked s) n = chain s n := rfl

theorem exec_pcieLinkDown {s : State} (hup : s.hst.rate ≠ 0) :
    exec .pcieLinkDown s = .next (raiseFault (emit0 (linkDropped s) 0x0c0030) 0x0c0030 40) := by
  have hexec : exec .pcieLinkDown s = execPcieLinkDown s := rfl
  rw [hexec, execPcieLinkDown, if_neg hup]
  rfl

theorem st_linkDropped (s : State) {n : Nat} (hn : n < 8) : (chain (linkDropped s) n).st =
    if s.sys.halted = false ∧ ((chain s n).st = 1 ∨ (chain s n).st = 5) then 4 else (chain s n).st := by
  rw [linkDropped, chain_unlinked]
  cases hhalt : s.sys.halted with
  | true => rw [if_pos rfl, if_neg (by simp)]
  | false =>
    rw [if_neg Bool.false_ne_true, st_foldl_endInFlight]
    simp only [hn, true_and]

theorem exec_pcieLinkUp {rate : Fin 6} {width : Fin 5} {cfg : PcieCfg} {s : State} (hoff : s.sys.phase ≠ .off) (hrails : s.sys.phase ≠ .rails)
    (hasleep : s.sys.phase ≠ .asleep) (hcrystal : s.sys.crystal = true) (hrate : rate ≠ 0) (hwidth : width ≠ 0) (hthree : width ≠ 3) :
    exec (.pcieLinkUp ⟨rate, width⟩ cfg) s = .next { s with hst := { s.hst with
      rate := rate, width := width, cfg := cfg, aer := s.hst.aer - (s.hst.aer &&& cfg.aerClear.toNat) } } := by
  have hexec : exec (.pcieLinkUp ⟨rate, width⟩ cfg) s = execPcieLinkUp ⟨rate, width⟩ cfg s := rfl
  rw [hexec, execPcieLinkUp, if_neg]
  rintro (h | h | h | h)
  · simp [hoff, hrails, hasleep, hcrystal] at h
  · exact hrate (Fin.ext h)
  · exact hwidth (Fin.ext h)
  · exact hthree (Fin.ext h)

/-! ## LINK's read -/

theorem exec_linkRead {e : Eng} {s : State} (hready : getReady s e (fAddr fHST_LINK_RATE 0 0) = true) : exec (.linkRead e) s =
    .next (wrF (answer s e (some (wd (putBits (putBits (rdW s (fAddr fHST_LINK_RATE 0 0)).toNat 0 3 s.hst.rate) 3 3 s.hst.width)))) fHST_LINK_FLR 0) := by
  have hexec : exec (.linkRead e) s = execLinkRead e s := rfl
  rw [hexec, execLinkRead, if_neg (by simp [hready])]

theorem linkRead_answers {e : Eng} {s : State} {rd : Nat} (hget : (eng s e).get = some (rd, fAddr fHST_LINK_RATE 0 0))
    (hready : getReady s e (fAddr fHST_LINK_RATE 0 0) = true) (hrd : rd ≠ 0) (hrate : s.hst.rate < 8) (hwidth : s.hst.width < 8) :
    ∃ t, exec (.linkRead e) s = .next t ∧ rdF t fHST_LINK_FLR = 0 ∧
      (reg (eng t e) rd).toNat % 8 = s.hst.rate ∧ (reg (eng t e) rd).toNat / 8 % 8 = s.hst.width ∧
      (reg (eng t e) rd).getLsbD 6 = onF s fHST_LINK_FLR := by
  have hlt : putBits (putBits (rdW s (fAddr fHST_LINK_RATE 0 0)).toNat 0 3 s.hst.rate) 3 3 s.hst.width < 2 ^ 24 :=
    putBits_lt _ _ _ _ _ (putBits_lt _ _ _ _ _ (BitVec.isLt _) (by decide)) (by decide)
  have hflr : bitsOf (putBits (putBits (rdW s (fAddr fHST_LINK_RATE 0 0)).toNat 0 3 s.hst.rate) 3 3 s.hst.width) 6 1 = rdF s fHST_LINK_FLR := by
    rw [bitsOf_putBits_other _ _ _ _ _ _ (by decide), bitsOf_putBits_other _ _ _ _ _ _ (by decide)]
    rfl
  have hr : bitsOf (putBits (putBits (rdW s (fAddr fHST_LINK_RATE 0 0)).toNat 0 3 s.hst.rate) 3 3 s.hst.width) 0 3 = s.hst.rate := by
    rw [bitsOf_putBits_other _ _ _ _ _ _ (by decide), bitsOf_putBits_same]
    exact Nat.mod_eq_of_lt hrate
  have hw : bitsOf (putBits (putBits (rdW s (fAddr fHST_LINK_RATE 0 0)).toNat 0 3 s.hst.rate) 3 3 s.hst.width) 3 3 = s.hst.width := by
    rw [bitsOf_putBits_same]
    exact Nat.mod_eq_of_lt hwidth
  refine ⟨_, exec_linkRead hready, rdF_wrF_same _ _ _ _ _ (by decide), ?_⟩
  generalize putBits (putBits (rdW s (fAddr fHST_LINK_RATE 0 0)).toNat 0 3 s.hst.rate) 3 3 s.hst.width = v at *
  have hreg : reg (eng (wrF (answer s e (some (wd v))) fHST_LINK_FLR 0) e) rd = wd v := (eng_answer hget (wd v)).2.2 hrd
  have hv : (wd v).toNat = v := (BitVec.toNat_ofNat v 24).trans (Nat.mod_eq_of_lt hlt)
  rw [hreg, hv]
  refine ⟨(bitsOf_zero v 3).symm.trans hr, hw, ?_⟩
  rw [onF, ← hflr, ← BitVec.testBit_toNat, hv, ← bitOf_eq_testBit]
  rfl

end Sys2Proof.Machine
end

section
/-! The function-level reset (R208), and the statement about the host link, its signals and its resets. -/
namespace Sys2Proof.Machine

/-! ## What a commit of the host interface leaves alone -/

/-- A word without a field that a commit writes keeps its value as a pending word is taken. -/
theorem rdW_takeWord {a : Nat} (hrows : ((rowsAt (uUnit a) (uWord a)).filter fun r => r.acc == .cm) = []) (s : State) (p : Nat × Word) :
    rdW (takeWord s p) a = rdW s a := by
  unfold takeWord
  by_cases hp : a = p.1
  · subst hp
    rw [rdW_wrW_same, hrows]
    exact wd_toNat _
  · exact rdW_wrW_other _ _ hp

theorem linkRows : ((rowsAt (uUnit (fAddr fHST_LINK_FLR 0 0)) (uWord (fAddr fHST_LINK_FLR 0 0))).filter fun r => r.acc == .cm) = [] := by decide

/-- The host's side of a state: what the interface keeps apart from its unit's own words, and LINK. -/
structure HostKept (s t : State) : Prop where
  hst : t.hst = s.hst
  marks : t.ctl.marks = s.ctl.marks
  link : rdW t (fAddr fHST_LINK_FLR 0 0) = rdW s (fAddr fHST_LINK_FLR 0 0)

theorem HostKept.trans {s t u : State} (h : HostKept s t) (h' : HostKept t u) : HostKept s u :=
  ⟨h'.hst.trans h.hst, h'.marks.trans h.marks, h'.link.trans h.link⟩

theorem hostKept_wrC (s : State) (f : Fld) (v : Nat) (h : fAddr fHST_LINK_FLR 0 0 ≠ uaddr 3 0 f.word) : HostKept s (wrC s f 3 0 v) :=
  ⟨rfl, rfl, rdW_wrW_other _ _ h⟩

theorem hostKept_clearPend (s : State) : HostKept s (clearPend s 3 0) :=
  HostKept.trans (t := disarm { s with ctl := { s.ctl with pend := dropInst s.ctl.pend 3 0 } } 3 0)
    ⟨rfl, rfl, rdW_wrW_other _ _ (by decide)⟩ (hostKept_wrC _ fCOMMON_USTAT_CMPEND 0 (by decide))

theorem hostKept_withPending (s : State) : HostKept s (withPending s 3 0) :=
  List.foldlRecOn (motive := HostKept s) _ takeWord ⟨rfl, rfl, rfl⟩ fun t ht p _ => ht.trans ⟨rfl, rfl, rdW_takeWord linkRows t p⟩

theorem hostKept_commitNow (s : State) : HostKept s (commitNow s 3 0) := by
  cases hw : (refusedWords s (withPending s 3 0) 3 0).min? with
  | some w =>
    rw [commitNow_refused hw]
    refine ((hostKept_clearPend s).trans (hostKept_wrC _ fCOMMON_USTAT_CMREF 1 (by decide))).trans ⟨emit2_hst .., ?_, ?_⟩
    · rw [emit2_ctl]
    · rw [rdW, emit2_words, rdW]
  | none =>
    rw [commitNow_applied hw]
    exact ((hostKept_withPending s).trans (hostKept_wrC _ fCOMMON_UCMSEQ_CMSEQ _ (by decide))).trans (hostKept_clearPend _)

theorem hostKept_goActive (s : State) : HostKept s (goActive s 3 0) := hostKept_wrC s fCOMMON_USTAT_STATE 1 (by decide)

theorem hostKept_goIdle (s : State) : HostKept s (goIdle s 3 0) := by
  have hidle : HostKept s (onIdle (wrC s fCOMMON_USTAT_STATE 3 0 0) 3 0) :=
    (hostKept_wrC s fCOMMON_USTAT_STATE 0 (by decide)).trans ⟨rfl, rfl, rfl⟩
  have hcommit : ∀ t : State, HostKept t (if commitDue t 3 0 then commitNow t 3 0 else t) := by
    intro t
    split
    · exact hostKept_commitNow t
    · exact ⟨rfl, rfl, rfl⟩
  have hactive : ∀ t : State, HostKept t (if rdC t fCOMMON_USTAT_REEN 3 0 = 1 then goActive (wrC t fCOMMON_USTAT_REEN 3 0 0) 3 0 else t) := by
    intro t
    split
    · exact (hostKept_wrC t fCOMMON_USTAT_REEN 0 (by decide)).trans (hostKept_goActive _)
    · exact ⟨rfl, rfl, rfl⟩
  exact (hidle.trans (hcommit _)).trans (hactive _)

/-! ## Stopping every chain -/

theorem stopChain_eq (s : State) (n : Nat) : stopChain s n = { s with hst := { s.hst with chains := (stopChain s n).hst.chains } } := by
  simp only [stopChain]
  split
  · rfl
  · split <;> rfl

theorem foldl_stopChain_eq (s : State) (l : List Nat) :
    l.foldl stopChain s = { s with hst := { s.hst with chains := (l.foldl stopChain s).hst.chains } } :=
  List.foldlRecOn (motive := fun t : State => t = { s with hst := { s.hst with chains := t.hst.chains } }) l stopChain rfl
    fun t ht n _ => by rw [stopChain_eq t n]; exact (congrArg (fun t' : State => { t' with hst := { t'.hst with chains := (stopChain t n).hst.chains } }) ht :)

theorem foldl_stopChain_keeps (s : State) (l : List Nat) : (l.foldl stopChain s).hst = { s.hst with chains := (l.foldl stopChain s).hst.chains } ∧
    (l.foldl stopChain s).ctl = s.ctl ∧ (l.foldl stopChain s).words = s.words :=
  ⟨(congrArg State.hst (foldl_stopChain_eq s l) :), (congrArg State.ctl (foldl_stopChain_eq s l) :),
    (congrArg State.words (foldl_stopChain_eq s l) :)⟩

theorem stopChain_chains {s t : State} (h : t.hst.chains = s.hst.chains) (hticks : t.sys.ticks = s.sys.ticks) (n : Nat) :
    (stopChain t n).hst.chains = (stopChain s n).hst.chains := by
  simp only [stopChain, chain_congr h n, hticks]
  split
  · exact congrArg (fun l => tset (fun _ => chainReset) l n { chain s n with st := 5, drainAt := s.sys.ticks }) h
  · split
    · exact congrArg (fun l => tset (fun _ => chainReset) l n { chain s n with st := 0, letter := none }) h
    · exact h

/-- Which chains stop, and when, depends on the chains and the time alone. -/
theorem foldl_stopChain_chains {s t : State} (h : t.hst.chains = s.hst.chains) (hticks : t.sys.ticks = s.sys.ticks) (l : List Nat) :
    (l.foldl stopChain t).hst.chains = (l.foldl stopChain s).hst.chains := by
  induction l generalizing s t with
  | nil => exact h
  | cons n l ih =>
    refine ih (stopChain_chains h hticks n) ?_
    rw [stopChain_eq t n, stopChain_eq s n]
    exact hticks

/-! ## The reset -/

/-- The state whose MSI-X table and read marks are cleared, with FLR set. -/
def flrCleared (s : State) : State :=
  wrF { s with
    hst := { s.hst with unmasked := [], table := [], msixPend := [], held := [], msixOn := false, fmask := false }
    ctl := { s.ctl with marks := [] } } fHST_LINK_FLR 1

/-- The chains of an ACTIVE unit stopped and its drain begun. -/
def flrStopped (c : State) : State := if ustat c 3 0 = 1 then (List.range 8).foldl stopChain (beginDrain c 3 0) else c

/-- The unit enabled again. -/
def flrEnabled (c : State) : State := wrC (wrC (flrStopped c) fCOMMON_UCTRL_EN 3 0 1) fCOMMON_UDRAIN_DISC 3 0 0

theorem exec_functionLevelReset {s : State} (hup : s.hst.rate ≠ 0) : exec .functionLevelReset s =
    if (flrCleared s).sys.halted || ustat (flrCleared s) 3 0 == 3 then .next (flrCleared s)
    else if ustat (flrCleared s) 3 0 = 0 then .next (goActive (flrEnabled (flrCleared s)) 3 0)
    else .next (if holdsWork (wrC (flrEnabled (flrCleared s)) fCOMMON_USTAT_REEN 3 0 1) 3 0 then
        wrC (flrEnabled (flrCleared s)) fCOMMON_USTAT_REEN 3 0 1
      else goIdle (wrC (flrEnabled (flrCleared s)) fCOMMON_USTAT_REEN 3 0 1) 3 0) := by
  have hexec : exec .functionLevelReset s = execFunctionLevelReset s := rfl
  rw [hexec, execFunctionLevelReset, if_neg hup]
  rfl

theorem flrCleared_sys (s : State) : (flrCleared s).sys = s.sys := wrF_sys ..

theorem ustat_flrCleared (s : State) : ustat (flrCleared s) 3 0 = ustat s 3 0 := by
  unfold ustat flrCleared wrF
  rw [rdW_wrW_other _ _ (by decide), rdW_wrW_other _ _ (by decide)]
  rfl

theorem onF_flrCleared (s : State) : onF (flrCleared s) fHST_LINK_FLR = true := by
  rw [onF, flrCleared, rdF_wrF_same _ _ _ _ _ (by decide)]
  rfl

/-- The state that the reset leaves, up to the chains and the words of the unit. -/
theorem hostKept_flrEnabled (c : State) : HostKept (flrStopped c) (flrEnabled c) :=
  (hostKept_wrC _ fCOMMON_UCTRL_EN 1 (by decide)).trans (hostKept_wrC _ fCOMMON_UDRAIN_DISC 0 (by decide))

/-- The chains after the reset: stopped where the unit was ACTIVE. -/
theorem chains_flrStopped (s : State) : (flrStopped (flrCleared s)).hst.chains =
    if ustat s 3 0 = 1 then ((List.range 8).foldl stopChain s).hst.chains else s.hst.chains := by
  rw [flrStopped, ustat_flrCleared]
  split
  · exact foldl_stopChain_chains (s := s) (t := beginDrain (flrCleared s) 3 0) rfl rfl (List.range 8)
  · rfl

/-- What the reset clears stays cleared as the chains stop. -/
theorem hst_flrStopped (c : State) : (flrStopped c).hst = { c.hst with chains := (flrStopped c).hst.chains } ∧
    (flrStopped c).ctl.marks = c.ctl.marks ∧ rdW (flrStopped c) (fAddr fHST_LINK_FLR 0 0) = rdW c (fAddr fHST_LINK_FLR 0 0) := by
  unfold flrStopped
  split
  · have hlink : rdW (beginDrain c 3 0) (fAddr fHST_LINK_FLR 0 0) = rdW c (fAddr fHST_LINK_FLR 0 0) := rdW_wrW_other _ _ (by decide)
    obtain ⟨hhst, hctl, hwords⟩ := foldl_stopChain_keeps (beginDrain c 3 0) (List.range 8)
    generalize (List.range 8).foldl stopChain (beginDrain c 3 0) = d at hhst hctl hwords ⊢
    exact ⟨hhst, (congrArg CtlSt.marks hctl).trans rfl, (congrArg (tget resetWord · (fAddr fHST_LINK_FLR 0 0)) hwords).trans hlink⟩
  · exact ⟨rfl, rfl, rfl⟩

/-- What a state has in common with the reset's result: the table and the marks cleared, FLR set, the chains those of d. -/
theorem flr_of_hostKept {s t : State} (h : HostKept (flrStopped (flrCleared s)) t) :
    t.hst.unmasked = [] ∧ t.hst.table = [] ∧ t.hst.msixPend = [] ∧ t.hst.msixOn = false ∧ t.ctl.marks = [] ∧ onF t fHST_LINK_FLR = true ∧
    ∀ n, chain t n = if ustat s 3 0 = 1 then chain ((List.range 8).foldl stopChain s) n else chain s n := by
  obtain ⟨hhst, hmarks, hlink⟩ := hst_flrStopped (flrCleared s)
  refine ⟨by rw [h.hst, hhst]; rfl, by rw [h.hst, hhst]; rfl, by rw [h.hst, hhst]; rfl, by rw [h.hst, hhst]; rfl, by rw [h.marks, hmarks]; rfl,
    ?_, fun n => ?_⟩
  · rw [← onF_flrCleared s, onF, onF, rdF, rdF, h.link, hlink]
  · rw [chain, h.hst, chains_flrStopped, apply_ite (tget fun _ => chainReset) , ite_apply]
    rfl

theorem holdsWork_congr {s t : State} (h : t.hst.chains = s.hst.chains) : holdsWork t 3 0 = holdsWork s 3 0 := by
  simp only [holdsWork, chain_congr h]

/-- The result of a reset outside a halt, by the state the unit was in. -/
theorem functionLevelReset_enables {s : State} (hup : s.hst.rate ≠ 0) (hrun : s.sys.halted = false) (hfailed : ustat s 3 0 ≠ 3) :
    ∃ t, exec .functionLevelReset s = .next t ∧ HostKept (flrStopped (flrCleared s)) t ∧
      (ustat s 3 0 = 0 → t = goActive (flrEnabled (flrCleared s)) 3 0) ∧
      (ustat s 3 0 ≠ 0 → holdsWork (flrEnabled (flrCleared s)) 3 0 = true → t = wrC (flrEnabled (flrCleared s)) fCOMMON_USTAT_REEN 3 0 1) := by
  have hcond : ((flrCleared s).sys.halted || ustat (flrCleared s) 3 0 == 3) = false := by
    rw [ustat_flrCleared, flrCleared_sys s, hrun, Bool.false_or, beq_eq_false_iff_ne]
    exact hfailed
  have hkept := hostKept_flrEnabled (flrCleared s)
  rw [exec_functionLevelReset hup, hcond, if_neg Bool.false_ne_true, ustat_flrCleared]
  by_cases hidle : ustat s 3 0 = 0
  · rw [if_pos hidle]
    exact ⟨_, rfl, hkept.trans (hostKept_goActive _), fun _ => rfl, fun h => absurd hidle h⟩
  · rw [if_neg hidle]
    have hreen := hkept.trans (hostKept_wrC (flrEnabled (flrCleared s)) fCOMMON_USTAT_REEN 1 (by decide))
    refine ⟨_, rfl, ?_, fun h => absurd h hidle, fun _ hholds => if_pos ((holdsWork_congr (congrArg HstSt.chains (wrC_hst ..))).trans hholds)⟩
    split
    · exact hreen
    · exact hreen.trans (hostKept_goIdle _)

/-- Outside a halt a unit that has not failed is enabled; otherwise the reset clears and no more. -/
theorem exec_functionLevelReset_clears {s : State} (hup : s.hst.rate ≠ 0) (h : s.sys.halted = true ∨ ustat s 3 0 = 3) :
    exec .functionLevelReset s = .next (flrCleared s) := by
  rw [exec_functionLevelReset hup, if_pos]
  rw [ustat_flrCleared, flrCleared_sys]
  rcases h with h | h <;> simp [h]

theorem rdC_wrC_word (s : State) (f g : Fld) (u n v : Nat) (h : uaddr u n g.word ≠ uaddr u n f.word) : rdC (wrC s f u n v) g u n = rdC s g u n := by
  rw [rdC, wrC, rdW_wrW_other _ _ h, rdC]

/-- The common words that the reset writes once the unit is enabled. -/
theorem rdC_flrEnabled (c : State) : rdC (flrEnabled c) fCOMMON_UCTRL_EN 3 0 = 1 ∧
    (ustat c 3 0 = 1 → rdC (flrEnabled c) fCOMMON_USTAT_STATE 3 0 = 2) := by
  have hwords : ∀ g : Fld, uaddr 3 0 g.word ≠ uaddr 3 0 fCOMMON_UDRAIN_DISC.word →
      rdC (flrEnabled c) g 3 0 = rdC (wrC (flrStopped c) fCOMMON_UCTRL_EN 3 0 1) g 3 0 := fun g h => rdC_wrC_word _ _ _ _ _ _ h
  refine ⟨?_, fun hactive => ?_⟩
  · rw [hwords _ (by decide), rdC_wrC_same _ _ _ _ _ (by decide)]
    rfl
  · have hstopped : (flrStopped c).words = (beginDrain c 3 0).words := by
      rw [flrStopped, if_pos hactive]
      exact (foldl_stopChain_keeps (beginDrain c 3 0) (List.range 8)).2.2
    rw [hwords _ (by decide), rdC_wrC_word _ _ _ _ _ _ (by decide), rdC, rdW, hstopped]
    exact rdC_wrC_same _ fCOMMON_USTAT_STATE 3 0 2 (by decide)

theorem functionLevelReset_resets {s x : State} (hup : s.hst.rate ≠ 0) (hx : x = (List.range 8).foldl stopChain s) :
    ∃ t, exec .functionLevelReset s = .next t ∧
    t.hst.unmasked = [] ∧ t.hst.table = [] ∧ t.hst.msixPend = [] ∧ t.hst.msixOn = false ∧ t.ctl.marks = [] ∧ onF t fHST_LINK_FLR = true ∧
    (∀ n, n < 8 → chain t n = if s.sys.halted = false ∧ ustat s 3 0 = 1 then chain x n else chain s n) ∧
    (s.sys.halted = false → ustat s 3 0 = 1 → (∃ n, n < 8 ∧ (chain x n).st = 5) →
      rdC t fCOMMON_USTAT_STATE 3 0 = 2 ∧ rdC t fCOMMON_USTAT_REEN 3 0 = 1) ∧
    (s.sys.halted = false → ustat s 3 0 = 0 → rdC t fCOMMON_USTAT_STATE 3 0 = 1 ∧ rdC t fCOMMON_UCTRL_EN 3 0 = 1) := by
  by_cases hstays : s.sys.halted = true ∨ ustat s 3 0 = 3
  · have hout : s.sys.halted = false → ustat s 3 0 = 3 := fun hrun => hstays.resolve_left (by simp [hrun])
    refine ⟨_, exec_functionLevelReset_clears hup hstays, rfl, rfl, rfl, rfl, rfl, onF_flrCleared s, fun n _ => ?_, fun hrun hactive => ?_,
      fun hrun hidle => ?_⟩
    · rw [if_neg fun h => absurd (h.2.symm.trans (hout h.1)) (by decide)]
      exact chain_congr (congrArg HstSt.chains (wrF_hst ..)) n
    · exact absurd (hactive.symm.trans (hout hrun)) (by decide)
    · exact absurd (hidle.symm.trans (hout hrun)) (by decide)
  · rw [not_or, Bool.not_eq_true] at hstays
    obtain ⟨hrun, hfailed⟩ := hstays
    obtain ⟨t, ht, hkept, hidle, hdrains⟩ := functionLevelReset_enables hup hrun hfailed
    obtain ⟨hunmasked, htable, hpend, hon, hmarks, hflr, hchains⟩ := flr_of_hostKept hkept
    obtain ⟨hen, hstate⟩ := rdC_flrEnabled (flrCleared s)
    refine ⟨t, ht, hunmasked, htable, hpend, hon, hmarks, hflr, fun n _ => ?_, fun _ hactive hletter => ?_, fun _ h => ?_⟩
    · rw [hchains, hx]
      exact if_congr ⟨fun h => ⟨hrun, h⟩, fun h => h.2⟩ rfl rfl
    · obtain ⟨n, hn, hst⟩ := hletter
      rw [hx] at hst
      have hholds : holdsWork (flrEnabled (flrCleared s)) 3 0 = true := by
        refine List.any_eq_true.mpr ⟨n, List.mem_range.mpr hn, ?_⟩
        have hchain : (flrEnabled (flrCleared s)).hst.chains = ((List.range 8).foldl stopChain s).hst.chains := by
          rw [(hostKept_flrEnabled _).hst, chains_flrStopped, if_pos hactive]
        rw [chain_congr hchain, hst]
        rfl
      rw [hdrains (by omega) hholds, rdC_wrC_apart _ fCOMMON_USTAT_REEN fCOMMON_USTAT_STATE _ _ _ rfl (by decide) (by decide),
        rdC_wrC_same _ _ _ _ _ (by decide), hstate ((ustat_flrCleared s).trans hactive)]
      exact ⟨rfl, rfl⟩
    · have ht' : t = wrC (flrEnabled (flrCleared s)) fCOMMON_USTAT_STATE 3 0 1 := hidle h
      rw [ht', rdC_wrC_same _ _ _ _ _ (by decide), rdC_wrC_word _ _ _ _ _ _ (by decide), hen]
      exact ⟨rfl, rfl⟩

/-- Settles O38: postboxes, vectors and their masks, the link, LINK's read, and the function-level reset. -/
theorem theHostLinkSignalsAndResets : Obligations.TheHostLinkSignalsAndResets := by
  refine ⟨?take, fun s v => ⟨signal_off, fun hon hd0 => ⟨signal_masked hon hd0, fun hfree hunmasked =>
      ⟨signal_held hon hd0 hfree hunmasked, signal_sends hon hd0 hfree hunmasked⟩⟩⟩,
    fun v s x hheld hpaced hx => exec_irqHoldoffExpiry hheld hpaced hx,
    fun v addr data mask en fm s hup => msixUnmask_sends v addr data mask en fm hup, ?down,
    fun rate width cfg s hoff hrails hasleep hcrystal hrate hwidth hthree =>
      exec_pcieLinkUp hoff hrails hasleep hcrystal hrate hwidth hthree,
    fun e s rd hget hready hrd hrate hwidth => linkRead_answers hget hready hrd hrate hwidth,
    fun s x hup hx => functionLevelReset_resets hup hx⟩
  case take =>
    rintro n s _ p l hup hopen htake rfl
    exact exec_hostPostboxTake hup hopen htake
  case down =>
    intro s hup
    exact ⟨_, exec_pcieLinkDown hup, rfl, rfl, fun n hn => st_linkDropped s hn⟩

end Sys2Proof.Machine
end

section
/-! Placement: requests, moves, contexts in the store, the balance epoch (R209 to R229), and the statement about them. -/
namespace Sys2Proof.Machine

/-! ## Requests of OBJGO -/

/-- The request that an OBJGO value makes is its lowest bit. -/
theorem objAction_eq_some {v : Word} {k : Nat} (hk : k < 4) (hbit : v.getLsbD k = true) (hlower : ∀ j, j < k → v.getLsbD j = false) :
    objAction v = some k := by
  rw [objAction, List.find?_range_eq_some]
  refine ⟨by rw [bitOf_toNat, hbit], List.mem_range.mpr hk, fun j hj => ?_⟩
  rw [bitOf_toNat, hlower j hj]
  rfl

section
variable {e : Eng} {v : Word} {s x : State} (haccept : accept s e false (fAddr fPLC_OBJGO_QUERY 0 0) v = some x)
include haccept

theorem onObjGo_of_accept {k : Nat} (hk : objAction v = some k) (f : State → State) : onObjGo s e v k f = .next (f x) := by
  rw [onObjGo, if_neg (by simp [hk]), onSet_of_accept _ haccept]

theorem exec_plcQuery (h0 : v.getLsbD 0 = true) : exec (.plcQuery e v) s = .next
    (if objExists (rdF x fPLC_OBJKIND_KIND) (rdF x fPLC_OBJIDX_INDEX) then
      reportObj x (rdF x fPLC_OBJKIND_KIND) (rdF x fPLC_OBJIDX_INDEX) (b2n (moveOf x (rdF x fPLC_OBJKIND_KIND) (rdF x fPLC_OBJIDX_INDEX)).isSome)
    else reportObj x (rdF x fPLC_OBJKIND_KIND) (rdF x fPLC_OBJIDX_INDEX) 3) := by
  have hexec : exec (.plcQuery e v) s = execPlcQuery e v s := rfl
  rw [hexec, execPlcQuery, onObjGo_of_accept haccept (objAction_eq_some (by decide) h0 (by omega))]

theorem exec_plcMove (h0 : v.getLsbD 0 = false) (h1 : v.getLsbD 1 = true) : exec (.plcMove e v) s = .next (askMove x) := by
  have hexec : exec (.plcMove e v) s = execPlcMove e v s := rfl
  have hlower : ∀ j, j < 1 → v.getLsbD j = false := by
    intro j hj
    rwa [Nat.lt_one_iff.mp hj]
  rw [hexec, execPlcMove, onObjGo_of_accept haccept (objAction_eq_some (by decide) h1 hlower)]

theorem exec_plcHint (h0 : v.getLsbD 0 = false) (h1 : v.getLsbD 1 = false) (h2 : v.getLsbD 2 = true) : exec (.plcHint e v) s =
    .next { x with plc := { x.plc with
      hints := tset (fun _ => 0) x.plc.hints (objKey (rdF x fPLC_OBJKIND_KIND) (rdF x fPLC_OBJIDX_INDEX))
        (rdF x fPLC_OBJHINT_PIN + 2 * rdF x fPLC_OBJHINT_CRIT + 4 * rdF x fPLC_OBJHINT_NEAR) } } := by
  have hexec : exec (.plcHint e v) s = execPlcHint e v s := rfl
  have hlower : ∀ j, j < 2 → v.getLsbD j = false := by
    intro j hj
    interval_cases j
    · exact h0
    · exact h1
  rw [hexec, execPlcHint, onObjGo_of_accept haccept (objAction_eq_some (by decide) h2 hlower)]

section
variable (h0 : v.getLsbD 0 = false) (h1 : v.getLsbD 1 = false) (h2 : v.getLsbD 2 = false) (h3 : v.getLsbD 3 = true)
  (hkind : rdF s fPLC_OBJKIND_KIND = 4) (hpool : rdF s fPLC_OBJIDX_INDEX < 64) (hactive : active s 2 0 = true) {l : List Nat}
  (hl : l = (List.range 192).filter (fun k => mayPick s (rdF s fPLC_OBJIDX_INDEX) k))
include h0 h1 h2 h3 hkind hpool hactive hl

/-- PICK with the engine that the host's choice names, one of those that may be picked where there are any. -/
theorem exec_plcPick (least : Eng) (hleast : l ≠ [] → least.val ∈ l ∧ ((hintsOf s 4 (rdF s fPLC_OBJIDX_INDEX)).testBit 2 = true →
      (∃ k ∈ l, k < 8) → least.val < 8)) : exec (.plcPick e v least) s = .next
    (if l.isEmpty then reportObj x 4 (rdF s fPLC_OBJIDX_INDEX) 3
    else objRes { x with plc := { x.plc with picked := tset (fun _ => none) x.plc.picked least (some x.sys.ticks) } } least 0
      (hintsOf x 4 (rdF s fPLC_OBJIDX_INDEX))) := by
  have hexec : exec (.plcPick e v least) s = execPlcPick e v least s := rfl
  have hlower : ∀ j, j < 3 → v.getLsbD j = false := by
    intro j hj
    interval_cases j
    · exact h0
    · exact h1
    · exact h2
  have hsome : (rdF s fPLC_OBJKIND_KIND == 4 && decide (rdF s fPLC_OBJIDX_INDEX < 64) && active s 2 0) = true := by
    simp [hkind, hpool, hactive]
  have hgood : (!l.isEmpty && (!l.contains least.val || (bitOf (hintsOf s 4 (rdF s fPLC_OBJIDX_INDEX)) 2 &&
      l.any (fun x => decide (x < 8)) && decide (8 ≤ least.val)))) = false := by
    by_cases hempty : l = []
    · simp [hempty]
    · obtain ⟨hmem, hnear⟩ := hleast hempty
      have hcontains : l.contains least.val = true := List.contains_iff_mem.mpr hmem
      simp only [hcontains, Bool.not_true, Bool.false_or, Bool.and_eq_false_iff, bitOf_eq_testBit, decide_eq_false_iff_not, Nat.not_le]
      by_cases hhint : (hintsOf s 4 (rdF s fPLC_OBJIDX_INDEX)).testBit 2 = true
      · by_cases hany : ∃ k ∈ l, k < 8
        · exact .inr (.inr (hnear hhint hany))
        · refine .inr (.inl (.inr ?_))
          simpa [List.any_eq_false] using hany
      · exact .inr (.inl (.inl (by simpa using hhint)))
  simp only [hexec, execPlcPick, hsome, Bool.true_and, ← hl, hgood, Bool.false_eq_true, if_false]
  exact onObjGo_of_accept haccept (objAction_eq_some (by decide) h3 hlower) _

end
end

/-! ## MOVE -/

section
variable {s : State} {kind index target : Nat} (hkind : kind = rdF s fPLC_OBJKIND_KIND) (hindex : index = rdF s fPLC_OBJIDX_INDEX)
include hkind hindex

theorem askMove_barred (h : active s 2 0 = false ∨ objExists kind index = false ∨ (moveOf s kind index).isSome = true) :
    askMove s = reportObj s kind index 3 := by
  subst hkind hindex
  rw [askMove, if_pos]
  rcases h with h | h | h <;> simp [h]

section
variable (htarget : target = rdF s fPLC_OBJTGT_TARGET) (hactive : active s 2 0 = true) (hexists : objExists kind index = true) (hfree : moveOf s kind index = none)
include htarget hactive hexists hfree

theorem askMove_free : askMove s =
    if placeOf s kind index = some target then reportObj s kind index 0
    else if !targetOk s kind index target || (kind < 2 && 16 ≤ runningMoves s) then reportObj s kind index 3
    else if kind = 2 then reportObj (noteMoved (setPlace s 2 index target) 2 index true) 2 index 0
    else match placeOf s kind index with
      | some p => startMove s kind index p target true
      | none => reportObj s kind index 3 := by
  subst hkind hindex htarget
  rw [askMove, if_neg (by simp [hactive, hexists, hfree])] <;> rfl

theorem askMove_inForce (hplace : placeOf s kind index = some target) : askMove s = reportObj s kind index 0 := by
  rw [askMove_free hkind hindex htarget hactive hexists hfree, if_pos hplace]

theorem askMove_refused (hplace : placeOf s kind index ≠ some target)
    (h : targetOk s kind index target = false ∨ (kind < 2 ∧ 16 ≤ runningMoves s)) : askMove s = reportObj s kind index 3 := by
  rw [askMove_free hkind hindex htarget hactive hexists hfree, if_neg hplace, if_pos]
  rcases h with h | ⟨h, hmany⟩
  · simp [h]
  · simp [h, hmany]

theorem askMove_queue (hplace : placeOf s kind index ≠ some target) (hfits : targetOk s kind index target = true) (hqueue : kind = 2) :
    askMove s = reportObj (noteMoved (setPlace s 2 index target) 2 index true) 2 index 0 := by
  rw [askMove_free hkind hindex htarget hactive hexists hfree, if_neg hplace, if_neg, if_pos hqueue]
  rw [hfits]
  simp [hqueue]

/-- An object without a placement is refused: a queue without one is critical, which no target fits. -/
theorem askMove_unplaced (hplace : placeOf s kind index = none) : askMove s = reportObj s kind index 3 := by
  rw [askMove_free hkind hindex htarget hactive hexists hfree, if_neg (by simp [hplace])]
  split
  · rfl
  · next hfits =>
    rw [if_neg, hplace]
    rintro rfl
    have hcritical : critical s index = true := by
      by_contra h
      simp [placeOf, h] at hplace
    simp [targetOk, hcritical] at hfits

theorem askMove_starts {p : Nat} (hplace : placeOf s kind index = some p) (hp : p ≠ target) (hfits : targetOk s kind index target = true)
    (hqueue : kind ≠ 2) (hroom : ¬(kind < 2 ∧ 16 ≤ runningMoves s)) : askMove s = startMove s kind index p target true := by
  rw [askMove_free hkind hindex htarget hactive hexists hfree, hplace, if_neg (by simpa using hp), if_neg (by simpa [hfits] using hroom),
    if_neg hqueue]

end
end

/-! ## Moves that run -/

theorem exec_pickReservationExpiry {k : Eng} {s : State} {n : Nat} (hlive : live s = true)
    (hpicked : tget (fun _ => none) s.plc.picked k = some n) (hdue : n + 6250000 ≤ s.sys.ticks) : exec (.pickReservationExpiry k) s =
      .next { s with plc := { s.plc with picked := tset (fun _ => none) s.plc.picked k none } } := by
  have hexec : exec (.pickReservationExpiry k) s = execPickReservationExpiry k s := rfl
  simp only [hexec, execPickReservationExpiry, hpicked, hlive, hdue, decide_true, Bool.and_self, if_true]

section
variable {kind : Fin 2} {index : Fin 131072} {s : State} {m : Move} (hmove : moveOf s kind index = some m) (hlive : live s = true)
include hmove hlive

theorem exec_moveDrainComplete (hdrained : drained s m = true) {y : State}
    (hy : y = noteMoved (setPlace (releaseFence (dropMove s m) m m.target) m.kind m.index m.target) m.kind m.index m.asked) :
    exec (.moveDrainComplete kind index) s = .next (if m.asked then reportObj y m.kind m.index 0 else y) := by
  have hexec : exec (.moveDrainComplete kind index) s = execMoveDrainComplete kind index s := rfl
  simp only [hexec, execMoveDrainComplete, hmove, hlive, hdrained, Bool.not_true, Bool.or_self, Bool.false_eq_true, if_false, ← hy]

theorem exec_moveTimeout (hdue : m.at_ + rdF s fPLC_MOVECTL_TIMEOUT * 6250 ≤ s.sys.ticks) :
    exec (.moveTimeout kind index) s = .next (revertMove s m 1) := by
  have hexec : exec (.moveTimeout kind index) s = execMoveTimeout kind index s := rfl
  simp only [hexec, execMoveTimeout, hmove, hlive, hdue, decide_true, Bool.and_self, if_true]

end

/-! ## Contexts in the store -/

theorem exec_contextResident {c : Fin 4096} {s : State} {x : Sa} (hctx : saCtx s c = some x) (hlive : live s = true)
    (hactive : active s 2 0 = true) (haway : x.resident = false) (henters : (x.fresh || firstRank s x) = true) :
    exec (.contextResident c) s = .next (bringIn (setSa s c (some { x with fresh := false })) c { x with fresh := false }) := by
  have hexec : exec (.contextResident c) s = execContextResident c s := rfl
  simp only [hexec, execContextResident, hctx, hlive, hactive, haway, henters, Bool.not_true, Bool.or_self, Bool.false_eq_true, if_false]

section
variable {y : State} {c : Nat} {x : Sa}

theorem bringIn_room (hroom : residents y < storeSize) : bringIn y c x = setResident y c true := by
  rw [bringIn, admits, if_pos hroom]

theorem bringIn_full (hfull : storeSize ≤ residents y) {k : Nat} {z : Sa} (hlow : lowestResident y = some k) (hz : saCtx y k = some z) :
    bringIn y c x = if firstRank y x || decide (rankOf y k z < rankOf y c x) then setResident (setResident y k false) c true else y := by
  rw [bringIn, admits, if_neg (Nat.not_lt.mpr hfull), hlow]
  simp only [hz]
  cases firstRank y x || decide (rankOf y k z < rankOf y c x) <;> rfl

end

section
variable {c : Fin 4096} {s : State} {m : Move} {b : Bool} (hlive : live s = true) (hmove : saMove s c = some m) (htarget : m.target = b2n b)
include hlive hmove htarget

theorem exec_contextMove_gone (hctx : saCtx s c = none) : exec (.contextMove c b) s = .next (endSaMove s c 3) := by
  have hexec : exec (.contextMove c b) s = execContextMove c b s := rfl
  simp only [hexec, execContextMove, hmove, hlive, htarget, hctx, Bool.not_true, bne_self_eq_false, Bool.or_self, Bool.false_eq_true, if_false]

theorem exec_contextMove {x : Sa} (hctx : saCtx s c = some x) : exec (.contextMove c b) s = .next
    (if b then endSaMove (bringIn s c x) c 3 else if mayLeave s c x m.asked then setResident s c false else endSaMove s c 3) := by
  have hexec : exec (.contextMove c b) s = execContextMove c b s := rfl
  simp only [hexec, execContextMove, hmove, hlive, htarget, hctx, Bool.not_true, bne_self_eq_false, Bool.or_self, Bool.false_eq_true, if_false]
  split
  · rfl
  · split <;> rfl

end

theorem setResident_eq {s : State} {k : Nat} {b : Bool} {x : Sa} (hctx : saCtx s k = some x) : setResident s k b =
    let y := setSa s k (some { x with resident := b })
    let z := if (saMove y k).any fun m => m.target == b2n b then endSaMove y k 0 else y
    if b && x.tx then trySwitch z x.ch else z := by
  simp only [setResident, hctx]

/-! ## The balance epoch -/

theorem exec_balanceEpoch {out back bw : List Nat} {wants : List (Fin 4 × Fin 131072 × Fin 256)} {s x y z : State} (hlive : live s = true)
    (hactive : active s 2 0 = true) (hbw : bw = List.zipWith (· + ·) out back)
    (hdue : s.plc.epochAt + (rdF s fPLC_EPOCH_E + 1) * 6250 ≤ s.sys.ticks)
    (hx : x = { s with plc := { s.plc with epochAt := s.sys.ticks, still := s.plc.still || s.pwr.run.isSome } })
    (hquiet : s.pair.quiet = true → y = { x with pair := { x.pair with quiet := false } })
    (hmoves : s.pair.quiet = false → y = wants.foldl (autoMove bw) (if x.plc.still then x else (strayFlows x).foldl moveOut x))
    (hz : z = { y with plc := { y.plc with still := false } }) :
    exec (.balanceEpoch out back wants) s = .next (if crowded z then emit1 z 0x080012 (heldOut z) else z) := by
  have hexec : exec (.balanceEpoch out back wants) s = execBalanceEpoch out back wants s := rfl
  have hy : y = if x.pair.quiet then { x with pair := { x.pair with quiet := false } }
      else wants.foldl (autoMove bw) (if x.plc.still then x else (strayFlows x).foldl moveOut x) := by
    have hpair : x.pair.quiet = s.pair.quiet := by rw [hx]
    rw [hpair]
    cases h : s.pair.quiet with
    | true => exact hquiet h
    | false => exact hmoves h
  rw [hexec, execBalanceEpoch, if_neg (by simpa [hlive, hactive] using hdue)]
  rw [hz, hy, hx, hbw]

/-- Settles O39: the requests of OBJGO, moves and their ends, contexts in the store, and the balance epoch. -/
theorem placementMovesObjects : Obligations.PlacementMovesObjects := by
  refine ⟨?requests, ?moves, ?pick, fun k s n hlive hpicked hdue => exec_pickReservationExpiry hlive hpicked hdue, ?ends, ?noted,
    ?resident, ?contextMove, ?setResident, ?epoch⟩
  case requests =>
    rintro e v s x _ _ haccept rfl rfl
    exact ⟨fun h0 hexists => by rw [exec_plcQuery haccept h0, if_pos hexists],
      fun h0 hexists => by rw [exec_plcQuery haccept h0, if_neg (by simp [hexists])],
      exec_plcMove haccept, exec_plcHint haccept⟩
  case moves =>
    intro s kind index target hkind hindex htarget
    exact ⟨askMove_barred hkind hindex, fun hactive hexists hfree =>
      ⟨askMove_inForce hkind hindex htarget hactive hexists hfree, askMove_refused hkind hindex htarget hactive hexists hfree,
        askMove_queue hkind hindex htarget hactive hexists hfree, askMove_unplaced hkind hindex htarget hactive hexists hfree,
        fun p => askMove_starts hkind hindex htarget hactive hexists hfree⟩⟩
  case pick =>
    intro e least v s x l haccept h0 h1 h2 h3 hkind hpool hactive hl
    have hpick := exec_plcPick haccept h0 h1 h2 h3 hkind hpool hactive hl least
    refine ⟨fun hempty => ?_, fun hmem hnear => ?_⟩
    · rw [hpick fun h => absurd hempty h, hempty]
      rfl
    · have hsome : l.isEmpty = false := by
        rw [List.isEmpty_eq_false_iff]
        exact List.ne_nil_of_mem hmem
      rw [hpick fun _ => ⟨hmem, hnear⟩, hsome]
      rfl
  case ends =>
    rintro kind index s x y m hmove hlive
    refine ⟨fun hdrained hx hy => ?_, exec_moveTimeout hmove hlive⟩
    subst hx
    exact exec_moveDrainComplete hmove hlive hdrained hy
  case noted =>
    rintro s _ kind index b rfl
    rfl
  case resident =>
    rintro c s _ x _ hctx hlive hactive haway henters rfl rfl
    rw [exec_contextResident hctx hlive hactive haway henters]
    refine ⟨fun hroom => by rw [bringIn_room hroom], fun hfull k z hlow hz => ?_⟩
    rw [bringIn_full hfull hlow hz]
    refine ⟨fun hranks => ?_, fun hfirst hranks => ?_⟩
    · rw [if_pos (by simpa using hranks)]
    · rw [if_neg (by simp [hfirst, hranks])]
  case contextMove =>
    intro c s m b hlive hmove htarget
    refine ⟨exec_contextMove_gone hlive hmove htarget, fun x hctx => ?_⟩
    rw [exec_contextMove hlive hmove htarget hctx]
    exact ⟨fun hb => by rw [if_pos hb], fun hb hmay => by rw [if_neg (by simp [hb]), if_pos hmay],
      fun hb hmay => by rw [if_neg (by simp [hb]), if_neg (by simp [hmay])]⟩
  case setResident =>
    rintro s _ _ k b x hctx rfl rfl
    exact setResident_eq hctx
  case epoch =>
    intro out back bw wants s x y z hlive hactive hbw hdue hx hquiet hmoves hz
    exact exec_balanceEpoch hlive hactive hbw hdue hx hquiet hmoves hz

end Sys2Proof.Machine
end

section
/-! PON channels: synchronisation, activation, and the items of a frame (R249 to R262), and the statement about them. -/
namespace Sys2Proof.Machine

@[simp] theorem ponCh_setPon (s : State) (c : Nat) (x : PonCh) : ponCh (setPon s c x) c = x := tget_tset_same (fun _ => ponReset) s.pon c x

theorem ponCh_congr {s t : State} (h : t.pon = s.pon) (c : Nat) : ponCh t c = ponCh s c := congrArg (tget (fun _ => ponReset) · c) h

/-! ## Synchronisation -/

/-- A channel with its frame number n taken. -/
def frameTaken (s : State) (c n : Nat) : State := swapChannel (psbdSeen (setPon s c { ponCh s c with super := n }) c) c

theorem exec_downstreamFrame {c : Chan} {n : Nat} {items : List PonItem} {s y : State} (hlive : live s = true) (hidle : ustat s 5 c ≠ 0)
    (hfailed : ustat s 5 c ≠ 3) (hlos : onF s fOPT_OSTAT_LOS c = false) (hready : onF s fOPT_OSTAT_RXREADY c = true)
    (hpll : (ponCh s c).pllLost = false)
    (hy : y = match (ponCh (frameTaken s c n) c).act with | some a => setAct (frameTaken s c n) c a | none => frameTaken s c n) :
    exec (.downstreamFrame c n items) s = .next (if onF y fPON_CHSTAT_LOCK c then
      let z := items.foldl (itemIn c) (captureSfc y c n)
      tribFrameEnd z c (onF z fPON_CHSTAT_LOCK c && onF z fPON_CHSTAT_OPER c) else y) := by
  have hexec : exec (.downstreamFrame c n items) s = execDownstreamFrame c n items s := rfl
  have hcond : (!live s || ustat s 5 c == 0 || ustat s 5 c == 3 || onF s fOPT_OSTAT_LOS c || !onF s fOPT_OSTAT_RXREADY c || (ponCh s c).pllLost) =
      false := by simp [hlive, hidle, hfailed, hlos, hready, hpll]
  have hmodel : exec (.downstreamFrame c n items) s = if !onF y fPON_CHSTAT_LOCK c then .next y else .next
      (let z := items.foldl (itemIn c) (captureSfc y c n)
      tribFrameEnd z c (onF z fPON_CHSTAT_LOCK c && onF z fPON_CHSTAT_OPER c)) := by
    rw [hexec, execDownstreamFrame, hcond, hy] <;> rfl
  rw [hmodel]
  cases onF y fPON_CHSTAT_LOCK c <;> rfl

section
variable {c : Nat} {s : State} (hlock : onF s fPON_CHSTAT_LOCK c = false)
include hlock

theorem psbdSeen_first (hseen : (ponCh s c).seen = 0) : onF (psbdSeen s c) fPON_CHSTAT_LOCK c = false := by
  rw [psbdSeen, if_pos (.inl (by omega))]
  exact hlock

/-- The second PSBd in a row locks the channel. -/
theorem psbdSeen_second (hact : actst s c ≠ 6) (hseen : (ponCh s c).seen = 1) :
    onF (psbdSeen s c) fPON_CHSTAT_LOCK c = true ∧ onF (psbdSeen s c) fPON_CHSTAT_LODS c = false := by
  have heq : psbdSeen s c = wrF (wrF (setPon s c { ponCh s c with seen := min ((ponCh s c).seen + 1) 2 }) fPON_CHSTAT_LOCK 1 c)
      fPON_CHSTAT_LODS 0 c := by
    have hstill : actst (wrF (wrF (setPon s c { ponCh s c with seen := min ((ponCh s c).seen + 1) 2 }) fPON_CHSTAT_LOCK 1 c)
        fPON_CHSTAT_LODS 0 c) c = actst s c := by
      rw [actst, rdF_wrF_apart _ fPON_CHSTAT_LODS fPON_CHSTAT_ACTST _ _ _ _ _ rfl (by decide) (by decide),
        rdF_wrF_apart _ fPON_CHSTAT_LOCK fPON_CHSTAT_ACTST _ _ _ _ _ rfl (by decide) (by decide)]
      rfl
    rw [psbdSeen, if_neg]
    · exact if_neg fun h => hact (hstill.symm.trans h.1)
    · rintro (h | h)
      · omega
      · exact absurd (h.symm.trans (show onF (setPon s c _) fPON_CHSTAT_LOCK c = false from hlock)) (by decide)
  rw [heq]
  refine ⟨?_, ?_⟩
  · rw [onF, rdF_wrF_apart _ fPON_CHSTAT_LODS fPON_CHSTAT_LOCK _ _ _ _ _ rfl (by decide) (by decide), rdF_wrF_same _ _ _ _ _ (by decide)]
    rfl
  · rw [onF, rdF_wrF_same _ _ _ _ _ (by decide)]
    rfl

theorem lods_unlocked : lods s c = setPon s c { ponCh s c with seen := 0 } := by
  have hnot : onF (setPon s c { ponCh s c with seen := 0 }) fPON_CHSTAT_LOCK c = false := hlock
  rw [lods, if_pos (by simp [hnot])]

end

/-- The lock of a channel is lost: its chains break and its capture is disarmed, and from O5 it goes to O6. -/
theorem lods_locked {c : Nat} {s x y z : State} (hlock : onF s fPON_CHSTAT_LOCK c = true) (hx : x = setPon s c { ponCh s c with seen := 0 })
    (hy : y = breakChains (wrF (wrF x fPON_CHSTAT_LOCK 0 c) fPON_CHSTAT_LODS 1 c) c)
    (hz : z = tribChannelLost (setPon y c { ponCh y c with sfc := none }) c) :
    lods s c = if actst z c = 5 then raiseFault (setAct z c 6) 0x140010 c else z := by
  have hnot : onF (setPon s c { ponCh s c with seen := 0 }) fPON_CHSTAT_LOCK c = true := hlock
  rw [lods, if_neg (by simp [hnot]), hz, hy, hx]

theorem exec_psbdMissed {c : Chan} {s : State} (hlive : live s = true) : exec (.psbdMissed c) s = .next (lods s c) := by
  have hexec : exec (.psbdMissed c) s = execPsbdMissed c s := rfl
  rw [hexec, execPsbdMissed, if_pos hlive]

theorem exec_ponFramerPllLockLoss {c : Chan} {s : State} (hlive : live s = true) (hpll : (ponCh s c).pllLost = false) :
    exec (.ponFramerPllLockLoss c) s =
      .next (raiseFault (emit0 (lods (setPon s c { ponCh s c with pllLost := true }) c) 0x140016) 0x140016 c) := by
  have hexec : exec (.ponFramerPllLockLoss c) s = execPonFramerPllLockLoss c s := rfl
  rw [hexec, execPonFramerPllLockLoss, if_neg (by simp [hlive, hpll])]

/-! ## Activation -/

theorem exec_actset {e : Eng} {c : Chan} {v : Word} {s x : State} (haccept : accept s e false (fAddr fPON_ACTSET_STATE c 0) v = some x) :
    exec (.actset e c v) s = .next (if 1 ≤ v.toNat % 16 ∧ v.toNat % 16 ≤ 9 ∧ v.toNat % 16 ≠ 3 then
      setPon x c { ponCh x c with act := some (v.toNat % 16) } else unassigned x (fAddr fPON_ACTSET_STATE c 0) (v.toNat % 16)) := by
  have hexec : exec (.actset e c v) s = execActset e c v s := rfl
  rw [hexec, execActset, onSet_of_accept _ haccept, bitsOf_zero]
  rfl

/-- A channel that goes to O6 from another state holds there and stays operable. -/
theorem setAct_o6 {c : Nat} {s : State} (hact : actst s c ≠ 6) :
    setAct s c 6 = setOper (wrF (enterO6 (leaveAct s c 6) c) fPON_CHSTAT_ACTST 6 c) c true := by
  have hhold : ∀ t : State, (ponCh (enterO6 t c) c).hold.isSome = true := by
    intro t
    rw [enterO6, ponCh_congr (emit0_pon ..), ponCh_setPon]
    rfl
  have hput : putAct s c 6 = setOper (wrF (enterO6 (leaveAct s c 6) c) fPON_CHSTAT_ACTST 6 c) c true := by
    rw [putAct, if_pos ⟨rfl, hact⟩, hhold, Bool.or_true]
  rw [setAct, if_neg (by simp), hput]

theorem exec_o6HoldExpiry {c : Chan} {s : State} {t : Nat} (hlive : live s = true) (hact : actst s c = 6) (hhold : (ponCh s c).hold = some t)
    (hdue : t ≤ s.sys.ticks) : exec (.o6HoldExpiry c) s = .next (raiseFault (emit0 (setAct s c 1) 0x140015) 0x140015 c) := by
  have hexec : exec (.o6HoldExpiry c) s = execO6HoldExpiry c s := rfl
  simp only [hexec, execO6HoldExpiry, hhold, hlive, hact, hdue, beq_self_eq_true, decide_true, Bool.and_self, if_true]

/-! ## Items of a frame -/

section
variable {c : Nat} {s : State} (hactive : active s 5 c = true)
include hactive

theorem itemIn_xgem_unknown {port : Nat} (hport : portEntry s c port = none) (key pos : Nat) (first last full : Bool) (b : List Byte) :
    itemIn c s (.xgem port key pos first last false full b) = count s 5 kPonPort c := by
  simp only [itemIn, hactive, if_true, xgemIn, Bool.false_eq_true, if_false, hport]

theorem itemIn_xgem_noKey {port key pos i : Nat} {b : List Byte} (hport : portEntry s c port = some i)
    (hkey : openPayload s c (rdF s fPON_PORTB_KIND c (2 * i)) key pos b = none) (full : Bool) :
    itemIn c s (.xgem port key pos true true false full b) = count s 5 kPonKey c := by
  simp only [itemIn, hactive, if_true, xgemIn, Bool.false_eq_true, if_false, hport, hkey, Bool.and_self]

theorem itemIn_ploam {b : List Byte} (hours : ownOnu s c (ploamOnu b) = true ∨ ploamOnu b = 0x3ff) : itemIn c s (.ploam b) =
    if micHolds s c b then toAgent s c (rdF s fPON_AGENTS_PLOAM c) b (now s) else emit0 (count s 5 kPonMic c) 0x140012 := by
  have hours' : (ownOnu s c (ploamOnu b) || ploamOnu b == 0x3ff) = true := by rcases hours with h | h <;> simp [h]
  simp only [itemIn, hours', hactive, Bool.not_true, Bool.or_self, Bool.false_eq_true, if_false]
  cases micHolds s c b <;> rfl

theorem itemIn_grant {id a : Nat} (hact : actst s c = 5) (halloc : allocOf s c id = some a) (prof len start : Nat) (dbru ploam : Bool) :
    itemIn c s (.grant id prof len start dbru ploam) = noteGrant (setPon s c { ponCh s c with
      grants := (ponCh s c).grants ++ [⟨some a, prof, len, dbru, ploam, start, s.sys.ticks⟩] }) c len := by
  simp only [itemIn, hact, hactive, halloc, ne_eq, not_true_eq_false, Bool.not_true, Bool.false_eq_true, or_self, if_false]

end

/-- Settles O41: the frame, its synchronisation, activation values, the loss of lock, and what each item of a frame does. -/
theorem ponChannelsLockActivateAndReceive : Obligations.PonChannelsLockActivateAndReceive := by
  refine ⟨?frame, fun c s hlock hact => ⟨psbdSeen_first hlock, psbdSeen_second hlock hact⟩, ?actset, ?losses, ?items⟩
  case frame =>
    intro c n items s x y hlive hidle hfailed hlos hready hpll hx hy
    subst hx
    rw [exec_downstreamFrame hlive hidle hfailed hlos hready hpll hy]
    exact ⟨fun hlock => by rw [if_neg (ne_true_of_eq_false hlock)], fun hlock z hz => by rw [if_pos hlock, hz]⟩
  case actset =>
    intro e c v s x haccept
    rw [exec_actset haccept]
    exact ⟨fun h1 h9 h3 => by rw [if_pos ⟨h1, h9, h3⟩], fun h => by rw [if_neg (by omega)]⟩
  case losses =>
    intro c s x y z hlive
    refine ⟨exec_psbdMissed hlive, lods_unlocked, fun hlock hx hy hz => ?_, setAct_o6, rfl,
      fun t hact hhold hdue => exec_o6HoldExpiry hlive hact hhold hdue, exec_ponFramerPllLockLoss hlive⟩
    rw [lods_locked hlock hx hy hz]
    exact ⟨fun hact => if_neg hact, fun hact => if_pos hact⟩
  case items =>
    intro c s hactive
    refine ⟨fun port key pos first last full b hport => itemIn_xgem_unknown hactive hport key pos first last full b,
      fun port key pos full b i hport hkey => itemIn_xgem_noKey hactive hport hkey full, fun b hours => ?_,
      fun id prof len start dbru ploam a hact halloc => itemIn_grant hactive hact halloc prof len start dbru ploam⟩
    rw [itemIn_ploam hactive hours]
    exact ⟨fun hmic => if_pos hmic, fun hmic => if_neg (ne_true_of_eq_false hmic)⟩

end Sys2Proof.Machine
end

section
/-! PON bursts: their start, payload and end, serial number replies, upstream PLOAMs and DLCTL (R231, R254 to R266), and the statement about
them. -/
namespace Sys2Proof.Machine

/-! ## What a burst takes as it fills -/

/-- A channel whose open burst has taken some of what waits, and that is otherwise as it was. -/
structure Filled (c : Nat) (s t : State) : Prop where
  fills : ∀ b, (ponCh s c).burst = some b → ∃ sent free, ponCh t c = { ponCh s c with burst := some { b with sent := sent, free := free } }

theorem Filled.of_pon {c : Nat} {s t : State} (h : t.pon = s.pon) : Filled c s t :=
  ⟨fun b hb => ⟨b.sent, b.free, by rw [ponCh_congr h, ← hb]⟩⟩

theorem Filled.trans {c : Nat} {s t u : State} (h : Filled c s t) (h' : Filled c t u) : Filled c s u := by
  refine ⟨fun b hb => ?_⟩
  obtain ⟨sent, free, ht⟩ := h.fills b hb
  obtain ⟨sent', free', hu⟩ := h'.fills _ (congrArg PonCh.burst ht)
  exact ⟨sent', free', by rw [hu, ht]⟩

theorem filled_putPiece (s : State) (c a : Nat) (f : Frame) (last : Bool) : Filled c s (putPiece s c a f last) := by
  refine ⟨fun b hb => ?_⟩
  simp only [putPiece, hb]
  exact ⟨_, _, ponCh_setPon ..⟩

theorem nextContainer_pon {s t : State} {q : Nat} {x : List Byte} (h : nextContainer s q = some (x, t)) : t.pon = s.pon := by
  have hcount : ∀ u : State, u.pon = s.pon → (count u 6 kTribTx q).pon = s.pon := fun u hu => (count_pon ..).trans hu
  simp only [nextContainer] at h
  split at h
  · cases h
  · split at h
    · obtain ⟨-, rfl⟩ := Prod.mk.inj (Option.some.inj h)
      exact hcount _ rfl
    · split at h
      · cases h
      · obtain ⟨-, rfl⟩ := Prod.mk.inj (Option.some.inj h)
        exact hcount _ rfl

theorem filled_putContainers (k : Nat) (s : State) (c a q : Nat) : Filled c s (putContainers k s c a q) := by
  induction k generalizing s with
  | zero => exact Filled.of_pon rfl
  | succ k ih =>
    unfold putContainers
    split
    · exact Filled.of_pon rfl
    · split
      · exact Filled.of_pon rfl
      · split
        · exact Filled.of_pon rfl
        · next x t hnext =>
          have ht : Filled c s t := Filled.of_pon (nextContainer_pon hnext)
          split
          · exact (ht.trans (filled_putPiece ..)).trans (ih _)
          · exact (ht.trans (Filled.of_pon (count_pon ..))).trans (ih _)

theorem filled_putPayload (s : State) (c a : Nat) (f : Frame) : Filled c s (putPayload s c a f) := by
  refine ⟨fun b hb => ?_⟩
  simp only [putPayload, hb]
  split
  · exact (Filled.of_pon (s := s) (t := count s 5 kPonUpKey c) (count_pon ..)).fills b hb
  · split
    · exact ⟨b.sent, 0, ponCh_setPon ..⟩
    · exact ((filled_putPiece s c a _ _).trans (Filled.of_pon rfl)).fills b hb

theorem filled_beginBurst (s : State) (c : Nat) (g : Grant) : Filled c s (beginBurst s c g) := by
  unfold beginBurst
  split
  · exact Filled.of_pon rfl
  · split
    · exact filled_putContainers ..
    · split
      · exact filled_putPayload ..
      · exact Filled.of_pon rfl

/-! ## The oldest PLOAM -/

theorem takeBytes_ticks (n : Nat) (s : State) : (takeBytes n s).2.sys.ticks = s.sys.ticks := by
  induction n generalizing s with
  | zero => rfl
  | succ n ih => exact ih (takeFree s).2

/-- What the state after a PLOAM was taken has in common with the one before: PUCOUNT is the only word written, the queue the only part of
the channel. -/
structure PloamTaken (c : Nat) (s t : State) : Prop where
  words : ∀ w, w % 1024 ≠ fPON_PUCOUNT_N.word → rdW t (uaddr 5 c w) = rdW s (uaddr 5 c w)
  ticks : t.sys.ticks = s.sys.ticks
  channel : ponCh t c = { ponCh s c with ploams := (ponCh s c).ploams.tail }

theorem PloamTaken.takeBytes {c : Nat} {s t : State} (h : PloamTaken c s t) (n : Nat) : PloamTaken c s (takeBytes n t).2 := by
  have hwords : (Machine.takeBytes n t).2.words = t.words := (congrArg State.words (takeBytes_frame n t).1 :)
  have hpon : (Machine.takeBytes n t).2.pon = t.pon := (congrArg State.pon (takeBytes_frame n t).1 :)
  exact ⟨fun w hw => by rw [rdW, hwords]; exact h.words w hw, (takeBytes_ticks n t).trans h.ticks, (ponCh_congr hpon c).trans h.channel⟩

/-- The oldest queued PLOAM, or where none is queued bytes that the spec leaves open, before its MIC. -/
def oldestPloam (s : State) (c : Nat) : List Byte × State :=
  match (ponCh s c).ploams with
  | [] => takeBytes 40 s
  | p :: l => (p, wrF (setPon s c { ponCh s c with ploams := l }) fPON_PUCOUNT_N l.length c)

theorem ploamTaken_oldestPloam (s : State) (c : Nat) : PloamTaken c s (oldestPloam s c).2 := by
  cases hq : (ponCh s c).ploams with
  | nil =>
    rw [oldestPloam, hq]
    refine PloamTaken.takeBytes ⟨fun _ _ => rfl, rfl, ?_⟩ 40
    rw [hq, List.tail_nil, ← hq]
  | cons p l =>
    rw [oldestPloam, hq]
    refine ⟨fun w hw => rdW_wrW_other _ _ ?_, rfl, ?_⟩
    · rw [fAddr, uaddr, uaddr]
      simp only at hw ⊢
      omega
    · rw [hq]
      exact ponCh_setPon ..

theorem takePloam_eq (s : State) (c : Nat) : ∃ mic t, takePloam s c = ((oldestPloam s c).1 ++ mic, t) ∧ PloamTaken c s t := by
  have h := ploamTaken_oldestPloam s c
  have heq : takePloam s c = match makeKey (oldestPloam s c).2 c with
      | some k => ((oldestPloam s c).1 ++ ploamMic k 2 (oldestPloam s c).1, (oldestPloam s c).2)
      | none => ((oldestPloam s c).1 ++ (takeBytes 8 (oldestPloam s c).2).1, (takeBytes 8 (oldestPloam s c).2).2) := rfl
  rw [heq]
  cases makeKey (oldestPloam s c).2 c with
  | some k => exact ⟨_, _, rfl, h⟩
  | none => exact ⟨_, _, rfl, h.takeBytes 8⟩

/-! ## The words that a burst is made from -/

section
variable {c : Nat} {s t : State} (h : PloamTaken c s t)
include h

theorem PloamTaken.rdF {f : Fld} {off : Nat} (hunit : f.unit = 5) (hword : (f.word + off) % 1024 ≠ fPON_PUCOUNT_N.word) :
    Machine.rdF t f c off = Machine.rdF s f c off := by
  rw [Machine.rdF, Machine.rdF, fAddr, hunit, h.words _ hword]

theorem PloamTaken.eightBytes {f : Fld} {p : Nat} (hunit : f.unit = 5) (hlow : f.word + p + 2 < fPON_PUCOUNT_N.word) :
    Machine.eightBytes t f c p = Machine.eightBytes s f c p := by
  have hword : ∀ k ∈ List.range 3, wordBytes (rdW t (fAddr f c (p + k))) = wordBytes (rdW s (fAddr f c (p + k))) := by
    intro k hk
    rw [List.mem_range] at hk
    simp only at hlow
    rw [fAddr, hunit, h.words]
    simp only
    omega
  rw [Machine.eightBytes, Machine.eightBytes, List.map_congr_left hword]

theorem PloamTaken.burstHead {p : Nat} (hp : p < 4) : Machine.burstHead t c p = Machine.burstHead s c p := by
  rw [Machine.burstHead, Machine.burstHead, h.rdF rfl (by simp only; omega),
    h.eightBytes rfl (by simp only; omega),
    h.eightBytes rfl (by simp only; omega)]

theorem PloamTaken.burstTime (g : Grant) : Machine.burstTime t c g = Machine.burstTime s c g := by
  rw [Machine.burstTime, Machine.burstTime, h.rdF rfl (by decide), h.rdF rfl (by decide)]

end

/-! ## The start of a burst -/

section
variable {c : Chan} {s x : State} {g : Grant} {l : List Grant} (hlive : live s = true) (hgrants : (ponCh s c).grants = g :: l)
  (hnone : (ponCh s c).burst = none) (hdue : burstDue s c g = true) (hx : x = setPon s c { ponCh s c with grants := l })
include hlive hgrants hnone hdue hx

/-- The oldest grant of a channel without a burst, once due, is missed or opens its burst. -/
theorem exec_burstStart : exec (.burstStart c) s =
    if gatedChan x c then .next (count (count x 5 kPonMissed c) 0x17 kPairMissed c)
    else if 4 ≤ g.prof ∨ !onF x fPON_BPROF_VALID c (8 * g.prof) ∨ rdF x fPON_BPROF_RATE c (8 * g.prof) ≠ rdF x fOPT_OCFG_RATE c then
      .next (emit0 (count x 5 kPonMissed c) 0x140013)
    else if !mayEmit x c then .next (count x 5 kPonMissed c)
    else
      let pl := if g.ploam then (let r := takePloam x c; (some r.1, r.2)) else (none, x)
      let y := setPon pl.2 c { ponCh pl.2 c with burst := some (openBurst pl.2 c g pl.1) }
      .next (beginBurst y c g) := by
  have hexec : exec (.burstStart c) s = execBurstStart c s := rfl
  subst hx
  simp only [hexec, execBurstStart, hgrants, hnone, hlive, hdue, Bool.not_true, Bool.or_self, Bool.false_eq_true, if_false]

variable (hfree : gatedChan x c = false) (hprof : g.prof < 4) (hvalid : onF x fPON_BPROF_VALID c (8 * g.prof) = true)
  (hrate : rdF x fPON_BPROF_RATE c (8 * g.prof) = rdF x fOPT_OCFG_RATE c)
include hfree hprof hvalid hrate

theorem exec_burstStart_valid : exec (.burstStart c) s =
    if !mayEmit x c then .next (count x 5 kPonMissed c)
    else
      let pl := if g.ploam then (let r := takePloam x c; (some r.1, r.2)) else (none, x)
      let y := setPon pl.2 c { ponCh pl.2 c with burst := some (openBurst pl.2 c g pl.1) }
      .next (beginBurst y c g) := by
  have hgood : ¬(4 ≤ g.prof ∨ (!onF x fPON_BPROF_VALID c (8 * g.prof)) = true ∨
      rdF x fPON_BPROF_RATE c (8 * g.prof) ≠ rdF x fOPT_OCFG_RATE c) := by
    simp [hvalid, hrate, hprof]
  rw [exec_burstStart hlive hgrants hnone hdue hx, if_neg (ne_true_of_eq_false hfree), if_neg hgood]

end

/-- What an opened burst and its channel hold, once the PLOAM is taken. -/
theorem burstOpened {c : Nat} {s x u : State} {g : Grant} {l : List Grant} {p : Option (List Byte)} (hprof : g.prof < 4)
    (hx : x = setPon s c { ponCh s c with grants := l }) (hwords : PloamTaken c x u ∨ u = x) :
    ∃ b, (ponCh (beginBurst (setPon u c { ponCh u c with burst := some (openBurst u c g p) }) c g) c).burst = some b ∧ b.grant = g ∧
      b.start = g.start + rdF s fPON_EQD_D c + rdF s fPON_RSPT_T c ∧ b.openAt = s.sys.ticks ∧ b.head = burstHead s c g.prof ∧
      b.key = rdF s fPON_UKSEL_IDX c ∧ b.ploam = p ∧ (g.dbru = false → b.report = none) ∧
      (ponCh (beginBurst (setPon u c { ponCh u c with burst := some (openBurst u c g p) }) c g) c).grants = l ∧
      (ponCh (beginBurst (setPon u c { ponCh u c with burst := some (openBurst u c g p) }) c g) c).ploams = (ponCh u c).ploams := by
  have hgrants : (ponCh u c).grants = l := by
    rcases hwords with h | rfl
    · rw [h.channel, hx, ponCh_setPon]
    · rw [hx, ponCh_setPon]
  have hstart : burstTime u c g = burstTime s c g := by
    rcases hwords with h | rfl
    · rw [h.burstTime, hx]; rfl
    · rw [hx]; rfl
  have hhead : burstHead u c g.prof = burstHead s c g.prof := by
    rcases hwords with h | rfl
    · rw [h.burstHead hprof, hx]; rfl
    · rw [hx]; rfl
  have hkey : rdF u fPON_UKSEL_IDX c = rdF s fPON_UKSEL_IDX c := by
    rcases hwords with h | rfl
    · rw [h.rdF rfl (by decide), hx]; rfl
    · rw [hx]; rfl
  have hticks : u.sys.ticks = s.sys.ticks := by
    rcases hwords with h | rfl
    · rw [h.ticks, hx]; rfl
    · rw [hx]; rfl
  obtain ⟨sent, free, ht⟩ := (filled_beginBurst (setPon u c { ponCh u c with burst := some (openBurst u c g p) }) c g).fills
    (openBurst u c g p) (by rw [ponCh_setPon])
  rw [ht, ponCh_setPon]
  refine ⟨_, rfl, rfl, hstart, hticks, hhead, hkey, rfl, fun hdbru => ?_, hgrants, rfl⟩
  simp [openBurst, hdbru]

/-! ## The end of a burst -/

theorem endBurst_ends {s : State} {c : Nat} {b : Burst} (hburst : (ponCh s c).burst = some b) :
    (ponCh (endBurst s c) c).burst = none ∧ (ponCh (endBurst s c) c).last = some b ∧
      ∀ l, (ponCh s c).level = some l → rdF (endBurst s c) fOPT_OSTAT_PLEVEL c = l % 4 := by
  have hsampled : (ponCh (sampleBurst (setPon s c { ponCh s c with burst := none, level := none, last := some b }) c b) c).burst = none ∧
      (ponCh (sampleBurst (setPon s c { ponCh s c with burst := none, level := none, last := some b }) c b) c).last = some b := by
    simp only [sampleBurst]
    split
    · rw [ponCh_congr (wrF_pon ..), ponCh_setPon, ponCh_setPon]
      exact ⟨rfl, rfl⟩
    · rw [ponCh_setPon, ponCh_setPon]
      exact ⟨rfl, rfl⟩
  generalize hy : sampleBurst (setPon s c { ponCh s c with burst := none, level := none, last := some b }) c b = y at hsampled
  cases hlevel : (ponCh s c).level with
  | none =>
    have heq : endBurst s c = noteCarried y c b := by simp only [endBurst, hburst, hlevel, hy]
    rw [heq]
    exact ⟨hsampled.1, hsampled.2, fun l h => by cases h⟩
  | some l =>
    have heq : endBurst s c = wrF (noteCarried y c b) fOPT_OSTAT_PLEVEL l c := by simp only [endBurst, hburst, hlevel, hy]
    rw [heq]
    refine ⟨hsampled.1, hsampled.2, fun l' h => ?_⟩
    cases h
    exact rdF_wrF_same _ fOPT_OSTAT_PLEVEL l c 0 (by decide)

theorem exec_burstEnd {c : Chan} {s : State} (hlive : live s = true) : exec (.burstEnd c) s = .next (endBurst s c) := by
  have hexec : exec (.burstEnd c) s = execBurstEnd c s := rfl
  rw [hexec, execBurstEnd, if_pos hlive]

/-! ## Replies, requests, capture and DLCTL -/

theorem exec_serialNumberReply {c : Chan} {s x : State} (hlive : live s = true) (hgrant : (ponCh s c).snGrant.isSome = true)
    (hx : x = setPon s c { ponCh s c with snGrant := none }) : exec (.serialNumberReply c) s =
      if gatedChan x c then .next (count (count x 5 kPonMissed c) 0x17 kPairMissed c)
      else if mayEmit x c then .next (setPon x c { ponCh x c with replies := (ponCh s c).replies + 1, said := (ponCh s c).serial })
      else .next (count x 5 kPonMissed c) := by
  have hexec : exec (.serialNumberReply c) s = execSerialNumberReply c s := rfl
  rw [hexec, execSerialNumberReply, if_neg (by simp [hlive, Option.isSome_iff_ne_none.mp hgrant]), hx]

theorem exec_ploamUpstreamGo {e : Eng} {c : Chan} {v : Word} {s x : State} (haccept : accept s e false (fAddr fPON_PUGO_GO c 0) v = some x)
    (hgo : v.getLsbD 0 = true) : exec (.ploamUpstreamGo e c v) s = .next (if 4 ≤ (ponCh x c).ploams.length then count x 5 kPonPloam c
      else wrF (setPon x c { ponCh x c with ploams := (ponCh x c).ploams ++ [pudata x c] }) fPON_PUCOUNT_N ((ponCh x c).ploams.length + 1) c) := by
  have hexec : exec (.ploamUpstreamGo e c v) s = execPloamUpstreamGo e c v s := rfl
  rw [hexec, execPloamUpstreamGo, onSet_of_accept _ haccept, if_neg (by simp only [bitOf_toNat, hgo]; decide)]

theorem exec_sfcCaptureArm {e : Eng} {c : Chan} {v : Word} {s x : State} (haccept : accept s e false (fAddr fPON_SFCARM_ARM c 0) v = some x)
    (harm : v.getLsbD 0 = true) : exec (.sfcCaptureArm e c v) s =
      .next (setPon x c { ponCh x c with sfc := some (rdF x fPON_SFCM1_SFC c * 2 ^ 24 + rdF x fPON_SFCM0_SFC c) }) := by
  have hexec : exec (.sfcCaptureArm e c v) s = execSfcCaptureArm e c v s := rfl
  rw [hexec, execSfcCaptureArm, onSet_of_accept _ haccept, if_pos (by simp only [bitOf_toNat, harm])]

theorem exec_dlerrClear {e : Eng} {c : Chan} {v : Word} {s x : State} (haccept : accept s e false (fAddr fPON_DLCTL_DLARM c 0) v = some x)
    (hclear : v.getLsbD 1 = true) : exec (.dlerrClear e c v) s = .next (setDlctl x c v) := by
  have hexec : exec (.dlerrClear e c v) s = execDlerrClear e c v s := rfl
  rw [hexec, execDlerrClear, if_pos (by simp only [bitOf_toNat, hclear]), onSet_of_accept _ haccept]

/-- The rows of DLCTL: DLARM, which a SET writes, and DLERR, which a 1 clears. -/
theorem rows_dlctl (c : Chan) : rowsAt (uUnit (fAddr fPON_DLCTL_DLARM c 0)) (uWord (fAddr fPON_DLCTL_DLARM c 0)) =
    [⟨0xb0, 1, 1, 1, 1, 0, 1, .rw, true, false, 0, 0, 1⟩, ⟨0xb0, 1, 1, 1, 1, 1, 1, .w1c, false, false, 0, 0, 1⟩] := by
  revert c; decide

/-- DLARM takes every value. -/
theorem dlarm_assigns (c : Chan) (v : Nat) : FieldRow.assigns ⟨0xb0, 1, 1, 1, 1, 0, 1, .rw, true, false, 0, 0, 1⟩
    (uUnit (fAddr fPON_DLCTL_DLARM c 0)) (uWord (fAddr fPON_DLCTL_DLARM c 0)) v = true := by
  have hunit : uUnit (fAddr fPON_DLCTL_DLARM c 0) = 5 := by revert c; decide
  have hword : uWord (fAddr fPON_DLCTL_DLARM c 0) = 0xb0 := by revert c; decide
  have hbit : bitsOf v 0 1 ≤ 1 := by rw [bitsOf_zero]; omega
  simp [FieldRow.assigns, hunit, hword, hbit, valueGap]

section
variable (s : State) (c : Chan) (v : Word)

theorem setNow_dlctl : setNow s (fAddr fPON_DLCTL_DLARM c 0) v.toNat =
    wrW s (fAddr fPON_DLCTL_DLARM c 0) (wd (setValue s (fAddr fPON_DLCTL_DLARM c 0) v.toNat)) := by
  have hrows : (rwRows (fAddr fPON_DLCTL_DLARM c 0)).filter (fun r =>
      !r.assigns (uUnit (fAddr fPON_DLCTL_DLARM c 0)) (uWord (fAddr fPON_DLCTL_DLARM c 0)) v.toNat) = [] := by
    have hrw : rwRows (fAddr fPON_DLCTL_DLARM c 0) = [⟨0xb0, 1, 1, 1, 1, 0, 1, .rw, true, false, 0, 0, 1⟩] := by
      rw [rwRows, rows_dlctl]
      decide
    rw [hrw, List.filter_cons_of_neg (by rw [dlarm_assigns]; decide), List.filter_nil]
  rw [setNow, hrows, List.foldl_nil]

theorem setValue_dlctl : setValue s (fAddr fPON_DLCTL_DLARM c 0) v.toNat =
    let w := putBits (rdW s (fAddr fPON_DLCTL_DLARM c 0)).toNat 0 1 (bitsOf v.toNat 0 1)
    putBits w 1 1 (bitsOf w 1 1 - (bitsOf w 1 1 &&& bitsOf v.toNat 1 1)) := by
  rw [setValue, rows_dlctl, List.foldl_cons, List.foldl_cons, List.foldl_nil]
  simp only [dlarm_assigns, if_true]

variable (hclear : v.getLsbD 1 = true)
include hclear

/-- A SET of DLCTL with 1 in DLERR clears it and leaves DLARM as given. -/
theorem setNow_dlctl_fields : onF (setNow s (fAddr fPON_DLCTL_DLARM c 0) v.toNat) fPON_DLCTL_DLERR c = false ∧
    onF (setNow s (fAddr fPON_DLCTL_DLARM c 0) v.toNat) fPON_DLCTL_DLARM c = v.getLsbD 0 := by
  have hone : bitsOf v.toNat 1 1 = 1 := by
    have h := bitOf_toNat v 1
    rw [hclear, bitOf, beq_iff_eq] at h
    exact h
  have hzero : ∀ x, x < 2 → x - (x &&& 1) = 0 := by decide
  have hvalue : setValue s (fAddr fPON_DLCTL_DLARM c 0) v.toNat =
      putBits (putBits (rdW s (fAddr fPON_DLCTL_DLARM c 0)).toNat 0 1 (bitsOf v.toNat 0 1)) 1 1 0 := by
    rw [setValue_dlctl, hone]
    exact congrArg (putBits _ 1 1) (hzero _ (Nat.mod_lt _ (by decide)))
  have hlt : putBits (putBits (rdW s (fAddr fPON_DLCTL_DLARM c 0)).toNat 0 1 (bitsOf v.toNat 0 1)) 1 1 0 < 2 ^ 24 :=
    putBits_lt _ _ _ _ _ (putBits_lt _ _ _ _ _ (BitVec.isLt _) (by decide)) (by decide)
  have hread : ∀ f : Fld, fAddr f c 0 = fAddr fPON_DLCTL_DLARM c 0 → rdF (setNow s (fAddr fPON_DLCTL_DLARM c 0) v.toNat) f c =
      bitsOf (putBits (putBits (rdW s (fAddr fPON_DLCTL_DLARM c 0)).toNat 0 1 (bitsOf v.toNat 0 1)) 1 1 0) f.lo f.w := by
    intro f hf
    rw [setNow_dlctl, rdF, hf, rdW_wrW_same, hvalue, wd, BitVec.toNat_ofNat, Nat.mod_eq_of_lt hlt]
  refine ⟨?_, ?_⟩
  · rw [onF, hread fPON_DLCTL_DLERR rfl, bitsOf_putBits_same]
    rfl
  · rw [onF, hread fPON_DLCTL_DLARM rfl, bitsOf_putBits_other _ _ _ _ _ _ (by decide), bitsOf_putBits_same, ← bitOf_toNat, bitOf]
    congr 1
    exact Nat.mod_eq_of_lt (Nat.mod_lt _ (by decide))

theorem setDlctl_fields : onF (setDlctl s c v) fPON_DLCTL_DLERR c = false ∧ onF (setDlctl s c v) fPON_DLCTL_DLARM c = v.getLsbD 0 := by
  have hcount : ∀ (t : State) (f : Fld), fAddr f c 0 = fAddr fPON_DLCTL_DLARM c 0 → onF (result t fPON_DLCNT_N 0 c) f c = onF t f c := by
    intro t f hf
    have hapart : fAddr f c 0 ≠ fAddr fPON_DLCNT_N c 0 := by
      rw [hf]
      exact (show ∀ c : Chan, fAddr fPON_DLCTL_DLARM c 0 ≠ fAddr fPON_DLCNT_N c 0 by decide) c
    rw [onF, onF, rdF, rdF]
    exact congrArg (fun w : Word => bitsOf w.toNat f.lo f.w == 1) (rdW_wrW_other t _ hapart)
  have hset := setNow_dlctl_fields s c v hclear
  simp only [setDlctl]
  split
  · rw [hcount _ fPON_DLCTL_DLERR rfl, hcount _ fPON_DLCTL_DLARM rfl]
    exact hset
  · exact hset

end

/-- Settles O42: the start of a burst and its end, replies, PLOAMs, the capture, and DLCTL. -/
theorem ponBurstsRepliesAndRequests : Obligations.PonBurstsRepliesAndRequests := by
  refine ⟨?start, fun c s b hlive hburst => ⟨_, exec_burstEnd hlive, endBurst_ends hburst⟩, ?reply, ?go,
    fun e c v s x haccept harm => exec_sfcCaptureArm haccept harm,
    fun e c v s x haccept hclear => ⟨exec_dlerrClear haccept hclear, setDlctl_fields x c v hclear⟩⟩
  case start =>
    intro c s x g l hlive hgrants hnone hdue hx
    refine ⟨fun hgated => ?_, fun hfree hbad => ?_, fun hfree hprof hvalid hrate => ?_⟩
    · rw [exec_burstStart hlive hgrants hnone hdue hx, if_pos hgated]
    · rw [exec_burstStart hlive hgrants hnone hdue hx, if_neg (ne_true_of_eq_false hfree), if_pos (by simpa using hbad)]
    · have hvalidStart := exec_burstStart_valid hlive hgrants hnone hdue hx hfree hprof hvalid hrate
      refine ⟨fun hemit => by rw [hvalidStart, if_pos (by simp [hemit])], fun hemit => ?_⟩
      rw [hvalidStart, if_neg (by simp [hemit])]
      cases hploam : g.ploam with
      | false =>
        obtain ⟨b, hburst, hgrant, hstart, hopen, hhead, hkey, hnoPloam, hreport, hleft, hqueue⟩ :=
          burstOpened (p := none) hprof hx (.inr rfl)
        refine ⟨_, b, rfl, hburst, hgrant, hstart, hopen, hhead, hkey, hleft, fun _ => ⟨hnoPloam, hqueue.trans ?_⟩,
          fun h => absurd h (by decide), hreport⟩
        rw [hx, ponCh_setPon]
      | true =>
        obtain ⟨mic, u, htake, htaken⟩ := takePloam_eq x c
        obtain ⟨b, hburst, hgrant, hstart, hopen, hhead, hkey, hsome, hreport, hleft, hqueue⟩ :=
          burstOpened (p := some ((oldestPloam x c).1 ++ mic)) hprof hx (.inl htaken)
        rw [if_pos rfl, htake]
        refine ⟨_, b, rfl, hburst, hgrant, hstart, hopen, hhead, hkey, hleft, fun h => absurd h (by decide), fun _ p r hpr => ?_, hreport⟩
        have hploams : (ponCh x c).ploams = p :: r := by rw [hx, ponCh_setPon, hpr]
        refine ⟨hqueue.trans (by rw [htaken.channel, hploams, List.tail_cons]), mic, ?_⟩
        rw [hsome, oldestPloam, hploams]
  case reply =>
    intro c s x hlive hgrant hx
    rw [exec_serialNumberReply hlive hgrant hx]
    exact ⟨fun hgated => if_pos hgated, fun hfree hemit => by rw [if_neg (ne_true_of_eq_false hfree), if_pos hemit],
      fun hfree hemit => by rw [if_neg (ne_true_of_eq_false hfree), if_neg (ne_true_of_eq_false hemit)]⟩
  case go =>
    intro e c v s x haccept hgo
    rw [exec_ploamUpstreamGo haccept hgo]
    exact ⟨fun hroom => by rw [if_neg (Nat.not_le.mpr hroom)], fun hfull => by rw [if_pos hfull]⟩

end Sys2Proof.Machine
end

section
/-! Slotted tributaries: containers, causes, frame boundaries and connection entries (R276 to R295), and the statement about them. -/
namespace Sys2Proof.Machine

@[simp] theorem tribu_setTribu (s : State) (q : Nat) (x : Tribu) : tribu (setTribu s q x) q = x := tget_tset_same (fun _ => tribuReset) s.trib.tr q x

theorem tribu_congr {s t : State} (h : t.trib = s.trib) (q : Nat) : tribu t q = tribu s q := by rw [tribu, h, tribu]

theorem tribu_count (s : State) (u k o n q : Nat) : tribu (count s u k o n) q = tribu s q := tribu_congr (count_trib ..) q

/-- A connection stands in the words and in the page of its channel. -/
theorem connOf_congr {s t : State} (hwords : t.words = s.words) (hpage : t.trib.page = s.trib.page) (q : Nat) : connOf t q = connOf s q := by
  simp only [connOf, conn, pageOf, hpage, rdF_congr hwords, onF_congr hwords]

theorem dsOn_congr {s t : State} (hwords : t.words = s.words) (hpage : t.trib.page = s.trib.page) (q : Nat) : dsOn t q = dsOn s q := by
  rw [dsOn, dsOn, active_congr hwords, connOf_congr hwords hpage]

/-! ## Containers -/

theorem containerIn_bad {s : State} {q : Nat} {b : List Byte} (hon : dsOn s q = true) (h : b.length ≠ 268 ∨ (byteAt b 3).toNat ≠ q % 16) :
    containerIn s q b = count s 6 kTribBad q := by
  rw [containerIn, if_neg (by simp [hon]), if_pos]
  rcases h with h | h
  · exact .inl h
  · exact .inr (.inr h)

/-- The blocks pushed into the store, by what the store and its pace were. -/
theorem pushDown_store {s t : State} {q : Nat} (hconn : connOf t q = connOf s q) (hstore : (tribu t q).store = (tribu s q).store)
    (hrun : (tribu t q).run = (tribu s q).run) (hcame : (tribu t q).came = (tribu s q).came) (bs : List Nat) :
    (pushDown t q bs).2 = (pushDown s q bs).2 := by
  simp only [pushDown, pushBlocks, gone, hconn, hstore, hrun, hcame]

theorem tribu_pushDown (s : State) (q : Nat) (bs : List Nat) : tribu (pushDown s q bs).1 q = tribu s q := by
  simp only [pushDown, pushBlocks, tribu_count]

/-- A refilled store is the one it was: its port takes from it again. -/
theorem tribu_refill (s : State) (q : Nat) : (tribu (refill s q) q).store = (tribu s q).store ∧ (tribu (refill s q) q).lastAt = (tribu s q).lastAt ∧
    (tribu (refill s q) q).seqD = (tribu s q).seqD ∧ causeOf (tribu (refill s q) q) = causeOf (tribu s q) := by
  simp only [refill]
  split
  · exact ⟨rfl, rfl, rfl, rfl⟩
  · split
    · rw [tribu_congr (emit0_trib ..), tribu_setTribu]
      exact ⟨rfl, rfl, rfl, rfl⟩
    · rw [tribu_setTribu]
      exact ⟨rfl, rfl, rfl, rfl⟩

/-- A tributary that has taken the container in sequence. -/
def followed (s : State) (q seq : Nat) : Tribu :=
  { tribu s q with seqD := some ((seq + 1) % 65536), lastAt := s.sys.ticks, gotS := true, gotF := true }

/-- A container in sequence, while nothing is in force, goes into the store. -/
theorem containerIn_follows {s : State} {q : Nat} {b : List Byte} (hon : dsOn s q = true) (hlength : b.length = 268)
    (hnumber : (byteAt b 3).toNat = q % 16) (hzero : (byteAt b 2).toNat = 0) (hseq : (tribu s q).seqD = some (ofBytes (b.take 2)))
    (hcause : causeOf (tribu s q) = 0) :
    let y := setTribu (count (count s 6 kTribRx q) 6 kTribMissing q 0) q (followed s q (ofBytes (b.take 2)))
    let r := pushDown y q (containerBlocks b)
    containerIn s q b = refill (setTribu r.1 q { tribu r.1 q with store := r.2, came := (tribu r.1 q).came + 32 }) q := by
  have hgap : (ofBytes (b.take 2) + 65536 - ofBytes (b.take 2)) % 65536 = 0 := by rw [Nat.add_sub_cancel_left]
  have hais : bitOf (byteAt b 2).toNat 7 = false := by rw [hzero]; rfl
  have hbad : ¬(b.length ≠ 268 ∨ (byteAt b 2).toNat % 128 ≠ 0 ∨ (byteAt b 3).toNat ≠ q % 16) := by simp [hlength, hnumber, hzero]
  have hstill : ¬causeOf (followed s q (ofBytes (b.take 2))) ≠ 0 := not_not.mpr hcause
  rw [containerIn, if_neg (by simp [hon]), if_neg hbad]
  simp only [hseq, hgap, hais, Bool.not_false, Bool.or_true, Bool.or_false, beq_self_eq_true, bne_self_eq_false, Nat.mul_zero, List.replicate_zero,
    List.nil_append, Nat.zero_add, Nat.mul_one, count_sys, if_false, Bool.false_eq_true]
  rw [if_neg (show ¬16 ≤ 0 by decide), tribu_setTribu]
  exact if_neg hstill

theorem containerIn_stores {s : State} {q : Nat} {b : List Byte} (hon : dsOn s q = true) (hlength : b.length = 268)
    (hnumber : (byteAt b 3).toNat = q % 16) (hzero : (byteAt b 2).toNat = 0) (hseq : (tribu s q).seqD = some (ofBytes (b.take 2)))
    (hcause : causeOf (tribu s q) = 0) :
    (tribu (containerIn s q b) q).store = (pushDown s q (containerBlocks b)).2 ∧ (tribu (containerIn s q b) q).lastAt = s.sys.ticks ∧
    (tribu (containerIn s q b) q).seqD = some ((ofBytes (b.take 2) + 1) % 65536) ∧ causeOf (tribu (containerIn s q b) q) = 0 := by
  rw [containerIn_follows hon hlength hnumber hzero hseq hcause]
  obtain ⟨x, hx⟩ : ∃ x, x = followed s q (ofBytes (b.take 2)) := ⟨_, rfl⟩
  obtain ⟨y, hy⟩ : ∃ y, y = setTribu (count (count s 6 kTribRx q) 6 kTribMissing q 0) q x := ⟨_, rfl⟩
  have hty : tribu y q = x := by rw [hy, tribu_setTribu]
  have hpush : (pushDown y q (containerBlocks b)).2 = (pushDown s q (containerBlocks b)).2 := by
    refine pushDown_store ?_ ?_ ?_ ?_ _
    · rw [hy]
      exact connOf_congr ((count_words ..).trans (count_words ..)) (congrArg TribSt.page ((count_trib ..).trans (count_trib ..))) q
    · rw [hty, hx]; rfl
    · rw [hty, hx]; rfl
    · rw [hty, hx]; rfl
  rw [← hx, ← hy]
  obtain ⟨hstore, hlast, hnext, hstill⟩ := tribu_refill (setTribu (pushDown y q (containerBlocks b)).1 q
    { tribu (pushDown y q (containerBlocks b)).1 q with
      store := (pushDown y q (containerBlocks b)).2, came := (tribu (pushDown y q (containerBlocks b)).1 q).came + 32 }) q
  rw [tribu_setTribu] at hstore hlast hnext hstill
  have htp : tribu (pushDown y q (containerBlocks b)).1 q = followed s q (ofBytes (b.take 2)) := (tribu_pushDown ..).trans (hty.trans hx)
  have hnone : causeOf (tribu (pushDown y q (containerBlocks b)).1 q) = 0 := (congrArg causeOf htp).trans hcause
  exact ⟨hstore.trans hpush, hlast.trans (congrArg Tribu.lastAt htp), hnext.trans (congrArg Tribu.seqD htp), hstill.trans hnone⟩

/-! ## Silence -/

theorem exec_containerTimeout {q : Fin 64} {s : State} (hlive : live s = true) (hon : dsOn s q = true) (hframe : (tribu s q).frame = false)
    (hdue : (tribu s q).lastAt + 156250 ≤ s.sys.ticks) : exec (.containerTimeout q) s = .next (breakFrame s q) := by
  have hexec : exec (.containerTimeout q) s = execContainerTimeout q s := rfl
  rw [hexec, execContainerTimeout, if_pos (by simp [hlive, hon, hframe, hdue])]

/-- The lowest cause of a tributary whose frame alignment is broken. -/
def brokenCause (s : State) (q : Nat) : Nat := if (tribu s q).chan then 1 else 2

/-- A tributary whose frame alignment is broken: its store is empty and it sends all ones. -/
def brokenTribu (s : State) (q : Nat) : Tribu :=
  { tribu s q with frame := true, goodF := 0, gotF := false, badF := true, store := [], run := false, came := 0, ais := true }

theorem breakFrame_eq {s : State} {q : Nat} (hon : dsOn s q = true) : breakFrame s q = if (tribu s q).ais
    then setTribu s q (brokenTribu s q) else emit2 (setTribu s q (brokenTribu s q)) 0x180010 q (brokenCause s q) := by
  have hcause : causeOf { tribu s q with frame := true, goodF := 0, gotF := false, badF := true } = brokenCause s q := rfl
  have hne : brokenCause s q ≠ 0 := by unfold brokenCause; split <;> decide
  simp only [breakFrame, setCauses, hcause, if_neg hne, hon, Bool.or_true, Bool.true_and]
  cases (tribu s q).ais <;> rfl

/-- What of a state the tributaries' readings depend on. -/
theorem tribStatus_congr {s t : State} (hwords : t.words = s.words) (htrib : t.trib = s.trib) (q : Nat) : tribStatus t q = tribStatus s q := by
  have hpage := congrArg TribSt.page htrib
  simp only [tribStatus, dsOn_congr hwords hpage, connOf_congr hwords hpage, tribu_congr htrib, usOn, upAis, active_congr hwords, onF_congr hwords]

theorem tribStatus_broken {s : State} {q : Nat} (hon : dsOn s q = true) :
    tribStatus (setTribu s q (brokenTribu s q)) q % 2 = 1 ∧ tribStatus (setTribu s q (brokenTribu s q)) q / 2 % 4 = brokenCause s q := by
  have hon' : dsOn (setTribu s q (brokenTribu s q)) q = true := (dsOn_congr rfl rfl q).trans hon
  have hcause : causeOf (brokenTribu s q) = brokenCause s q := rfl
  have hlt : brokenCause s q < 4 := by unfold brokenCause; split <;> decide
  have hstatus : ∃ k, tribStatus (setTribu s q (brokenTribu s q)) q = 1 + 2 * brokenCause s q + 8 * k := by
    simp only [tribStatus, hon', tribu_setTribu, hcause, if_true, Bool.true_and]
    refine ⟨b2n (usOn (setTribu s q (brokenTribu s q)) q && upAis (setTribu s q (brokenTribu s q)) q) +
      2 * (((brokenTribu s q).store.length - gone (brokenTribu s q) (connOf (setTribu s q (brokenTribu s q)) q)) / 32 % 4096), ?_⟩
    rw [Nat.mul_add, ← Nat.mul_assoc, ← Nat.add_assoc]
    rfl
  obtain ⟨k, hk⟩ := hstatus
  omega

theorem breakFrame_silences {s : State} {q : Nat} (hq : q < 64) (hon : dsOn s q = true) :
    (tribu (breakFrame s q) q).store = [] ∧ (tribu (breakFrame s q) q).frame = true ∧
    tribStatus (breakFrame s q) q % 2 = 1 ∧ tribStatus (breakFrame s q) q / 2 % 4 = brokenCause s q ∧
    ((tribu s q).ais = false → ∃ p3, (breakFrame s q).log.raised = s.log.raised ++ [⟨0x180010, q, brokenCause s q, p3, now s, false⟩]) := by
  have hstatus := tribStatus_broken hon
  rw [breakFrame_eq hon]
  cases hais : (tribu s q).ais with
  | true =>
    rw [if_pos rfl, tribu_setTribu]
    exact ⟨rfl, rfl, hstatus.1, hstatus.2, fun h => by cases h⟩
  | false =>
    rw [if_neg Bool.false_ne_true, tribu_congr (emit2_trib ..), tribu_setTribu, tribStatus_congr (emit2_words ..) (emit2_trib ..)]
    refine ⟨rfl, rfl, hstatus.1, hstatus.2, fun _ =>
      ⟨(takeFree (setTribu s q (brokenTribu s q))).1 % 2 ^ 24, congrArg (s.log.raised ++ [·]) ?_⟩⟩
    have hlt : brokenCause s q < 2 ^ 24 := by unfold brokenCause; split <;> decide
    rw [Nat.mod_eq_of_lt (show q < 2 ^ 24 by omega), Nat.mod_eq_of_lt hlt]
    rfl

/-! ## Frame boundaries and connections -/

theorem exec_tribFrameBoundary {rx : List (Port × List (BitVec 66))} {s x y z : State} (hlive : live s = true)
    (hboundary : s.time.ns % 125000 < 2) (honce : s.trib.last ≠ some (s.time.sec, s.time.ns / 125000))
    (hx : x = { s with trib := { s.trib with last := some (s.time.sec, s.time.ns / 125000) } })
    (hy : y = if active s 6 0 then takeUpstream x rx else x) (hz : z = if ustat y 6 0 = 1 ∨ ustat y 6 0 = 2 then feedPorts y else y) :
    exec (.tribFrameBoundary rx) s = .next ((List.range 4).foldl (fun s c => if onF s fPON_CHSTAT_LOCK c then s else swapChannel s c) z) := by
  have hexec : exec (.tribFrameBoundary rx) s = execTribFrameBoundary rx s := rfl
  have hcond : (!live s || !atBoundary s || s.trib.last == some (boundaryNo s)) = false := by
    simp [hlive, atBoundary, hboundary, boundaryNo, honce]
  rw [hexec, execTribFrameBoundary, hcond, hz, hy, hx]
  rfl

theorem exec_connWrite {e : Eng} {n : Fin 128} {v : Word} {s x : State} (haccept : accept s e false (fAddr fTRIB_CONN_CPORT 0 n) v = some x) :
    exec (.connWrite e n v) s = .next (if n.val / 64 = rdF x fTRIB_ACTPG_PAGE then
      emit1 (count x 6 kTribConn (n.val % 64)) 0x180013 (fAddr fTRIB_CONN_CPORT 0 n) else setNow x (fAddr fTRIB_CONN_CPORT 0 n) v.toNat) := by
  have hexec : exec (.connWrite e n v) s = execConnWrite e n v s := rfl
  rw [hexec, execConnWrite, onSet_of_accept _ haccept]

/-- Settles O43: containers, silence, the frame boundary, and the connection entries. -/
theorem tributariesCarryContainers : Obligations.TributariesCarryContainers := by
  refine ⟨fun q s b hon => ⟨containerIn_bad hon, containerIn_stores hon⟩, ?silence, ?boundary, ?conn⟩
  case silence =>
    intro q s hlive hon hframe hdue
    obtain ⟨hstore, hbroken, hais, hcause, hevent⟩ := breakFrame_silences q.isLt hon
    exact ⟨_, exec_containerTimeout hlive hon hframe hdue, rfl, hstore, hbroken, hais, hcause, hevent⟩
  case boundary =>
    intro rx s x y z hlive hboundary honce hx hy hz
    exact exec_tribFrameBoundary hlive hboundary honce hx hy hz
  case conn =>
    intro e n v s x haccept
    rw [exec_connWrite haccept]
    exact ⟨fun hpage => by rw [if_pos hpage], fun hpage => by rw [if_neg hpage]⟩

end Sys2Proof.Machine
end

section
/-! Local lanes, step by step to the port's link, and their losses (R300 to R318), and the statement about them. -/
namespace Sys2Proof.Machine

@[simp] theorem laneSt_setLane (s : State) (l : Nat) (x : LaneSt) : laneSt (setLane s l x) l = x := tget_tset_same (fun _ => laneReset) s.lane l x

section
variable {l : LaneI} {s : State} (hup : laneUp s l = true)
include hup

theorem exec_laneSignalDetect (hlock : onF s fLANE_LSTAT_CDRLOCK l = false) : exec (.laneSignalDetect l) s =
    .next (wrF (wrF s fLANE_LSTAT_SIGDET 1 l) fLANE_LSTAT_CDRLOCK 1 l) := by
  have hexec : exec (.laneSignalDetect l) s = execLaneSignalDetect l s := rfl
  rw [hexec, execLaneSignalDetect, if_neg (by simp [hup, hlock])]

theorem exec_laneAdaptationDone (hlock : onF s fLANE_LSTAT_CDRLOCK l = true) (hadapts : (laneSt s l).adapted = false) :
    exec (.laneAdaptationDone l) s = .next (count (setLane s l { laneSt s l with adapted := true, polAt := s.sys.ticks }) 7 kLaneSearch l) := by
  have hexec : exec (.laneAdaptationDone l) s = execLaneAdaptationDone l s := rfl
  rw [hexec, execLaneAdaptationDone, if_neg (by simp [hup, hlock, hadapts])]

section
variable (hadapted : (laneSt s l).adapted = true) (hblock : onF s fLANE_LSTAT_BLOCK l = false)
include hadapted hblock

theorem exec_polarityToggle (hdue : (laneSt s l).polAt + 1250000 ≤ s.sys.ticks) : exec (.polarityToggle l) s =
    .next (wrF (setLane s l { laneSt s l with polAt := s.sys.ticks }) fLANE_LSTAT_RXINV (1 - rdF s fLANE_LSTAT_RXINV l) l) := by
  have hexec : exec (.polarityToggle l) s = execPolarityToggle l s := rfl
  rw [hexec, execPolarityToggle, if_neg (by simp [hup, hadapted, hblock, hdue])]

/-- A lane with block lock, its place and its skew noted. -/
def blockLocked (s : State) (l : LaneI) (place : Fin 4) (skew n : Nat) : State :=
  let x := wrF (wrF s fLANE_LSTAT_BLOCK 1 l) fLANE_LSTAT_LPOS (if place.val < n then place else 0) l
  setLane x l { laneSt s l with skew := skew }

theorem exec_laneBlockLock (place : Fin 4) (skew : Nat) (swap : Bool) {n : Nat} (hn : n = ((portOf s l).map fun p => (portLanes s p).length).getD 1) :
    exec (.laneBlockLock l ⟨place, skew⟩ swap) s = .next
      (if l.val = 33 then noteSwap (blockLocked s l place skew n) swap else blockLocked s l place skew n) := by
  have hexec : exec (.laneBlockLock l ⟨place, skew⟩ swap) s = execLaneBlockLock l ⟨place, skew⟩ swap s := rfl
  subst hn
  rw [hexec, execLaneBlockLock, if_neg (by simp [hup, hadapted, hblock])]
  rfl

end

theorem exec_laneLockLoss {p : Nat} (hblock : onF s fLANE_LSTAT_BLOCK l = true) (hport : portOf s l = some p) :
    exec (.laneLockLoss l) s = .next (raiseFault (emit0 (count (portDown s p) 7 kLaneLoss l) 0x1c0011) 0x1c0011 (laneDom l)) := by
  have hexec : exec (.laneLockLoss l) s = execLaneLockLoss l s := rfl
  rw [hexec, execLaneLockLoss, if_neg (by simp [hup, hblock]), hport]

section
variable (tap : Fin 14) (up : Bool)

/-- The lane with one tap moved by one step. -/
def tapMoved (s : State) (l : Nat) (tap : Fin 14) (up : Bool) : State :=
  setLane s l { laneSt s l with
    taps := tset (fun _ => 0) (laneSt s l).taps tap (tget (fun _ => 0) (laneSt s l).taps tap + (if up then 1 else -1)), eqAt := s.sys.ticks }

theorem exec_eqUpdate (hruns : (onF s fLANE_LSTAT_LINKUP l || testing s l) = true) (hhold : onF s fLANE_LCAL_ADAPTHOLD l = false)
    (hdue : (laneSt s l).eqAt + 6250 ≤ s.sys.ticks) : exec (.eqUpdate l tap up) s = .next (tapMoved s l tap up) := by
  have hexec : exec (.eqUpdate l tap up) s = execEqUpdate l tap up s := rfl
  rw [hexec, execEqUpdate, if_neg]
  · rfl
  · rw [hup, hruns, hhold]
    simpa using hdue

end

theorem exec_rxsnrResult {v : BitVec 24} {sy co un : Nat} {x : State} (hlock : onF s fLANE_LSTAT_CDRLOCK l = true)
    (hx : x = count s 7 kLaneSym l sy) : exec (.rxsnrResult l ⟨v, sy, co, un⟩) s = .next (result (if onF s fLANE_LSTAT_FECLOCK l then
      count (count x 7 (kLaneFec 0) l co) 7 (kLaneFec 1) l un else x) fLANE_RXSNR_S v.toNat l) := by
  have hexec : exec (.rxsnrResult l ⟨v, sy, co, un⟩) s = execRxsnrResult l ⟨v, sy, co, un⟩ s := rfl
  subst hx
  rw [hexec, execRxsnrResult, if_neg (by simp [hup, hlock])]
  simp only [onF_congr (count_words ..)]

end

theorem exec_eqUpdate_held {l : LaneI} {s : State} (tap : Fin 14) (up : Bool) (h : onF s fLANE_LCAL_ADAPTHOLD l = true ∨ s.sys.ticks < (laneSt s l).eqAt + 6250) :
    exec (.eqUpdate l tap up) s = .next s := by
  have hexec : exec (.eqUpdate l tap up) s = execEqUpdate l tap up s := rfl
  rw [hexec, execEqUpdate, if_pos]
  rcases h with h | h
  · simp [h]
  · simp [h]

theorem tget_tapMoved (s : State) (l : Nat) (tap : Fin 14) (up : Bool) (k : Nat) : tget (fun _ => 0) (laneSt (tapMoved s l tap up) l).taps k =
    tget (fun _ => 0) (laneSt s l).taps k + (if k = tap.val then (if up then 1 else -1) else 0) := by
  rw [tapMoved, laneSt_setLane]
  refine (tget_tset (fun _ => 0) (laneSt s l).taps tap k _).trans ?_
  by_cases hk : k = tap.val
  · rw [if_pos hk, if_pos hk, hk]
  · rw [if_neg hk, if_neg hk, Int.add_zero]

/-- PSWAP of both lanes of the pair, whose rise is an event. -/
theorem noteSwap_blockLocked {s : State} {l : LaneI} (hl : l.val = 33) (place : Fin 4) (skew n : Nat) (swap : Bool) :
    noteSwap (blockLocked s l place skew n) swap =
      let z := wrF (wrF (blockLocked s l place skew n) fLANE_LSTAT_PSWAP (b2n swap) 32) fLANE_LSTAT_PSWAP (b2n swap) 33
      if swap && !onF s fLANE_LSTAT_PSWAP 33 then emit0 z 0x1c0013 else z := by
  have hwas : onF (blockLocked s l place skew n) fLANE_LSTAT_PSWAP 33 = onF s fLANE_LSTAT_PSWAP 33 := by
    have hwords : (blockLocked s l place skew n).words =
        (wrF (wrF s fLANE_LSTAT_BLOCK 1 l) fLANE_LSTAT_LPOS (if place.val < n then place else 0) l).words := rfl
    rw [onF_congr hwords, onF, onF, hl, rdF_wrF_apart _ fLANE_LSTAT_LPOS fLANE_LSTAT_PSWAP _ _ _ _ _ rfl (by decide) (by decide),
      rdF_wrF_apart _ fLANE_LSTAT_BLOCK fLANE_LSTAT_PSWAP _ _ _ _ _ rfl (by decide) (by decide)]
  rw [noteSwap, hwas]

/-! ## The port's link -/

theorem exec_laneFecLock {l : LaneI} {s : State} (hlanes : (portLanes s l).isEmpty = false) (hdown : linkUp s l = false)
    (hready : ∀ k ∈ portLanes s l, testing s k = false ∧ laneUp s k = true ∧ onF s fLANE_LSTAT_BLOCK k = true ∧ onF s fLANE_LSTAT_PLLLOCK k = true)
    (hplaces : ((portLanes s l).map fun k => rdF s fLANE_LSTAT_LPOS k).Nodup)
    (hskew : ∀ j ∈ portLanes s l, ∀ k ∈ portLanes s l, (laneSt s j).skew ≤ (laneSt s k).skew + 180) {fec : Nat} {t : State}
    (hfec : fec = b2n (portFec s l))
    (ht : t = emit0 ((portLanes s l).foldl (fun s k => wrF (wrF s fLANE_LSTAT_FECLOCK fec k) fLANE_LSTAT_LINKUP 1 k) s) 0x1c0010) :
    exec (.laneFecLock l) s = .next (if l.val < 32 then startNext t l else t) := by
  have hexec : exec (.laneFecLock l) s = execLaneFecLock l s := rfl
  have htests : (portLanes s l).any (testing s) = false := List.any_eq_false.mpr fun k hk => ne_true_of_eq_false (hready k hk).1
  have hall : (portLanes s l).all (fun x => laneUp s x && onF s fLANE_LSTAT_BLOCK x && onF s fLANE_LSTAT_PLLLOCK x) = true := by
    refine List.all_eq_true.mpr fun k hk => ?_
    obtain ⟨-, hup, hblock, hpll⟩ := hready k hk
    rw [hup, hblock, hpll]
    rfl
  have hnear : (portLanes s l).any (fun x => (portLanes s l).any fun y => (laneSt s y).skew + 180 < (laneSt s x).skew) = false := by
    refine List.any_eq_false.mpr fun j hj h => ?_
    obtain ⟨k, hk, hfar⟩ := List.any_eq_true.mp h
    have := hskew j hj k hk
    simp at hfar
    omega
  have hcond : ((portLanes s l).isEmpty || linkUp s l || (portLanes s l).any (testing s) ||
      !(portLanes s l).all (fun x => laneUp s x && onF s fLANE_LSTAT_BLOCK x && onF s fLANE_LSTAT_PLLLOCK x) ||
      !decide ((portLanes s l).map fun x => rdF s fLANE_LSTAT_LPOS x).Nodup ||
      (portLanes s l).any (fun x => (portLanes s l).any fun y => (laneSt s y).skew + 180 < (laneSt s x).skew)) = false := by
    rw [hlanes, hdown, htests, hall, hnear, decide_eq_true hplaces]
    rfl
  rw [hexec, execLaneFecLock, hcond, ht, hfec]
  rfl

theorem exec_lanePllLockLoss {g : Fin 9} {s x : State} (hlive : live s = true) (hlocked : ∃ l ∈ groupLanes g, onF s fLANE_LSTAT_PLLLOCK l = true)
    (hx : x = (groupLanes g).foldl (fun s l => wrF s fLANE_LSTAT_PLLLOCK 0 l) s) : exec (.lanePllLockLoss g) s =
      .next (raiseFault (emit0 ((groupPorts x g).foldl portDown x) 0x1c0012) 0x1c0012 (laneDom (4 * g))) := by
  have hexec : exec (.lanePllLockLoss g) s = execLanePllLockLoss g s := rfl
  have hany : (groupLanes g).any (fun l => onF s fLANE_LSTAT_PLLLOCK l) = true := List.any_eq_true.mpr hlocked
  subst hx
  rw [hexec, execLanePllLockLoss, if_neg (by simp only [hlive, hany]; decide)]
  rfl

/-- Settles O44: a lane from signal detect to block lock, the figures of a lane, the port's link, and the losses of lock. -/
theorem lanesComeUpStepByStep : Obligations.LanesComeUpStepByStep := by
  refine ⟨?lane, ?link, fun g s x hlive hlocked hx => exec_lanePllLockLoss hlive hlocked hx⟩
  case lane =>
    intro l s hup
    refine ⟨exec_laneSignalDetect hup, exec_laneAdaptationDone hup, fun hadapted hblock => ⟨exec_polarityToggle hup hadapted hblock, ?_⟩,
      fun p hblock hport => exec_laneLockLoss hup hblock hport, fun tap up hruns hhold hdue => ?_,
      fun tap up h => exec_eqUpdate_held tap up h, fun v sy co un x hlock hx => exec_rxsnrResult hup hlock hx⟩
    · rintro place skew swap n x y hn rfl hy
      have hy' : y = blockLocked s l place skew n := hy
      rw [exec_laneBlockLock hup hadapted hblock place skew swap hn]
      refine ⟨fun hl => by rw [if_neg hl, hy'], fun hl z hz => ?_⟩
      rw [if_pos hl, noteSwap_blockLocked hl, hz, hy']
    · exact ⟨_, exec_eqUpdate hup tap up hruns hhold hdue, by rw [tapMoved, laneSt_setLane], tget_tapMoved s l tap up, rfl⟩
  case link =>
    intro l s hlanes hdown hready hplaces hskew fec t hfec ht
    exact exec_laneFecLock hlanes hdown hready hplaces hskew hfec ht

end Sys2Proof.Machine
end

section
/-! Frames received, pause, its watchdog, and the verification of preemption (R319 to R334), and the statement about them. -/
namespace Sys2Proof.Machine

/-! ## Frames received -/

section
variable {p : Port} {pre : Bool} {buf ecc : Fin 3} {sfd : Nat} {b : List Byte} {s0 s : State} (hlive : live s0 = true)
  (hactive : active s0 8 p = true) (hmode : frameMode s0 p = true) (hup : linkUp s0 p = true)
  (hfree : pre = false → (macP s0 p).rxEx = none) (hs : s = if pre then rxEnd s0 p true 1 0 else s0)
include hlive hactive hmode hup hfree hs

/-- A frame that starts at a port that may receive it: a runt, a pause frame, an overload, or one that goes through MSEC. -/
theorem exec_macRxFrameStart : exec (.macRxFrameStart p pre buf ecc ⟨sfd, b⟩) s0 =
    if b.length < 64 then .next (count s 8 kMacRunt p)
    else if isPause b then .next (setRxSlot s p pre (some ⟨0, b, false, false⟩))
    else if buf.val = 2 ∨ (buf.val = 1 ∧ !reserveAdmits s p b) then .next (setRxSlot (overload s p) p pre (some ⟨0, [], false, false⟩))
    else
      let max := rdF s fMAC_MCFG_MAXLEN p
      let r := msecIngress s p ecc (markIn s (-(sfd : Int))) (if max < b.length then b.take max else b.take (b.length - 4))
      match r.2 with
      | none => .next (setRxSlot r.1 p pre (some ⟨if r.1.nextId = s.nextId then 0 else s.nextId, b, true, decide (max < b.length)⟩))
      | some (c, icv, prot) =>
        let held := gatedPort s p && !isEapol b
        let z := setRxSlot r.1 p pre (some ⟨r.1.nextId, b, true, decide (max < b.length)⟩)
        .next (addFlight (if held then count z 0x17 kPairDiscard p else z)
          { id := 0, stage := if held then 2 else 0, frame := lineFrame z p sfd c, ended := false, bad := 0, icv := icv, dest := .none,
            port := some p, rxLen := 0, decided := false, cls := 0, prot := prot, of_ := none }) := by
  have hexec : exec (.macRxFrameStart p pre buf ecc ⟨sfd, b⟩) s0 = execMacRxFrameStart p pre buf ecc ⟨sfd, b⟩ s0 := rfl
  have hcond : (!live s0 || !active s0 8 p || !frameMode s0 p || !linkUp s0 p || (!pre && (macP s0 p).rxEx.isSome)) = false := by
    cases pre with
    | true => simp [hlive, hactive, hmode, hup]
    | false => simp [hlive, hactive, hmode, hup, hfree rfl]
  subst hs
  rw [hexec, execMacRxFrameStart, hcond, if_neg Bool.false_ne_true] <;> rfl

section
variable (hlength : 64 ≤ b.length) (hpause : isPause b = false)
include hlength hpause

theorem exec_macRxFrameStart_overload (hbuf : buf = 2 ∨ (buf = 1 ∧ reserveAdmits s p b = false)) :
    exec (.macRxFrameStart p pre buf ecc ⟨sfd, b⟩) s0 = .next (setRxSlot (overload s p) p pre (some ⟨0, [], false, false⟩)) := by
  rw [exec_macRxFrameStart hlive hactive hmode hup hfree hs, if_neg (Nat.not_lt.mpr hlength), if_neg (ne_true_of_eq_false hpause), if_pos]
  rcases hbuf with rfl | ⟨rfl, hreserve⟩
  · exact .inl rfl
  · exact .inr ⟨rfl, by simp [hreserve]⟩

variable (hbuf : buf = 0 ∨ (buf = 1 ∧ reserveAdmits s p b = true)) {x : State} {r : Ingress} {big : Bool}
  (hbig : big = decide (rdF s fMAC_MCFG_MAXLEN p < b.length))
  (hmsec : msecIngress s p ecc (markIn s (-(sfd : Int))) (if big then b.take (rdF s fMAC_MCFG_MAXLEN p) else b.take (b.length - 4)) = (x, r))
include hbuf hbig hmsec

theorem exec_macRxFrameStart_msec : exec (.macRxFrameStart p pre buf ecc ⟨sfd, b⟩) s0 =
    match r with
    | none => .next (setRxSlot x p pre (some ⟨if x.nextId = s.nextId then 0 else s.nextId, b, true, big⟩))
    | some (c, icv, prot) =>
      let held := gatedPort s p && !isEapol b
      let z := setRxSlot x p pre (some ⟨x.nextId, b, true, big⟩)
      .next (addFlight (if held then count z 0x17 kPairDiscard p else z)
        { id := 0, stage := if held then 2 else 0, frame := lineFrame z p sfd c, ended := false, bad := 0, icv := icv, dest := .none,
          port := some p, rxLen := 0, decided := false, cls := 0, prot := prot, of_ := none }) := by
  have hadmits : ¬(buf.val = 2 ∨ (buf.val = 1 ∧ (!reserveAdmits s p b) = true)) := by
    rcases hbuf with rfl | ⟨rfl, hreserve⟩
    · simp
    · simp [hreserve]
  have hcut : (if rdF s fMAC_MCFG_MAXLEN p < b.length then b.take (rdF s fMAC_MCFG_MAXLEN p) else b.take (b.length - 4)) =
      if big then b.take (rdF s fMAC_MCFG_MAXLEN p) else b.take (b.length - 4) := by simp [hbig]
  rw [exec_macRxFrameStart hlive hactive hmode hup hfree hs, if_neg (Nat.not_lt.mpr hlength), if_neg (ne_true_of_eq_false hpause),
    if_neg hadmits]
  simp only [hcut, hmsec, ← hbig]
  cases r <;> rfl

end
end

section
variable {p : Port} {pre : Bool} {how : Fin 3} {frags : Nat} {s : State} (hlive : live s = true) (hends : pre = true ∨ how ≠ 1)
include hlive hends

theorem exec_macRxFrameEnd : exec (.macRxFrameEnd p pre how frags) s = .next (if how.val = 1 ∧ (macP s p).rxPr = none then
    (if active s 8 p && linkUp s p then count s 8 kMacReasm p else s) else rxEnd s p pre how frags) := by
  have hexec : exec (.macRxFrameEnd p pre how frags) s = execMacRxFrameEnd p pre how frags s := rfl
  have hcond : (!live s || (!pre && how == 1)) = false := by rcases hends with h | h <;> simp [hlive, h]
  rw [hexec, execMacRxFrameEnd, hcond, if_neg Bool.false_ne_true]
  split <;> rfl

end

/-- The end of a frame that stayed in the MAC: a wrong FCS is counted, a good pause frame is acted on. -/
theorem rxEnd_stayed {p : Nat} {s : State} {b : List Byte} {big : Bool} (hslot : (macP s p).rxEx = some ⟨0, b, false, big⟩) (hb : b ≠ []) :
    rxEnd s p false 0 0 = if fcsGood b then pauseReceived (setRxSlot s p false none) p b else count (setRxSlot s p false none) 8 kMacFcs p := by
  simp only [rxEnd, Bool.false_eq_true, if_false, hslot, Bool.not_false, if_true, hb, ne_eq, not_true_eq_false, or_self, decide_true, Bool.true_and]
  cases fcsGood b <;> rfl

/-! ## Class bits -/

theorem testBit_setClassBit (s : State) {f : Fld} (p c : Nat) (b : Bool) {k : Nat} (hf : f.lo + f.w ≤ 24) (hk : k < f.w) :
    (rdF (setClassBit s f p c b) f p).testBit k = if k = c then b else (rdF s f p).testBit k := by
  rw [setClassBit, rdF_wrF_same _ _ _ _ _ hf, Nat.testBit_mod_two_pow, decide_eq_true hk, Bool.true_and, testBit_putBits]
  by_cases hc : k = c
  · rw [if_pos (by omega), if_pos hc, hc, Nat.sub_self]
    cases b <;> rfl
  · rw [if_neg (by omega), if_neg hc]

theorem pausedClass_setClassBit (s : State) (p c : Nat) (b : Bool) {k : Nat} (hk : k < 8) :
    pausedClass (setClassBit s fMAC_MSTAT_PAUSED p c b) p k = if k = c then b else pausedClass s p k := by
  rw [pausedClass, bitOf_eq_testBit, testBit_setClassBit s p c b (by decide) hk, pausedClass, bitOf_eq_testBit]

/-- WDACT leaves PAUSED as it is. -/
theorem pausedClass_setClassBit_wdact (s : State) (p c : Nat) (b : Bool) (k : Nat) :
    pausedClass (setClassBit s fMAC_MSTAT_WDACT p c b) p k = pausedClass s p k := by
  rw [pausedClass, setClassBit, rdF_wrF_apart _ fMAC_MSTAT_WDACT fMAC_MSTAT_PAUSED _ _ _ _ _ rfl (by decide) (by decide), pausedClass]

/-! ## Pause -/

section
variable {p : Port} {s : State} (hlive : live s = true)
include hlive

theorem exec_pauseRepeat (hdue : quantaTicks s p (rdF s fMAC_PQUANTA_Q p) ≤ 2 * (s.sys.ticks - (macP s p).pauseAt)) :
    exec (.pauseRepeat p) s = .next (sendPause s p) := by
  have hexec : exec (.pauseRepeat p) s = execPauseRepeat p s := rfl
  rw [hexec, execPauseRepeat, if_neg (by simp [hlive, hdue])]

/-- Class c is released where its time is named and over. -/
def releaseIf (cs : BitVec 8) (p : Port) (s : State) (c : Nat) : State :=
  if bitOf cs.toNat c && pausedClass s p c && decide (tget (fun _ => 0) (macP s p).till c ≤ s.sys.ticks) then
    setClassBit s fMAC_MSTAT_PAUSED p c false
  else s

theorem exec_pauseTimeExpiry (cs : BitVec 8) : exec (.pauseTimeExpiry p cs) s = .next (startNext ((List.range 8).foldl (releaseIf cs p) s) p) := by
  have hexec : exec (.pauseTimeExpiry p cs) s = execPauseTimeExpiry p cs s := rfl
  rw [hexec, execPauseTimeExpiry, if_neg (by simp [hlive])]
  rfl

end

theorem releaseIf_frame (cs : BitVec 8) (p : Port) (s : State) (c : Nat) :
    (releaseIf cs p s c).mac = s.mac ∧ (releaseIf cs p s c).sys = s.sys := by
  unfold releaseIf
  split <;> exact ⟨rfl, rfl⟩

theorem pausedClass_releaseIf (cs : BitVec 8) (p : Port) (s : State) (c : Nat) {k : Nat} (hk : k < 8) : pausedClass (releaseIf cs p s c) p k =
    if k = c then pausedClass s p k && !(bitOf cs.toNat k && decide (tget (fun _ => 0) (macP s p).till k ≤ s.sys.ticks)) else pausedClass s p k := by
  unfold releaseIf
  by_cases hc : k = c
  · subst hc
    rw [if_pos rfl]
    cases hbit : bitOf cs.toNat k && pausedClass s p k && decide (tget (fun _ => 0) (macP s p).till k ≤ s.sys.ticks) with
    | true =>
      rw [if_pos rfl, pausedClass_setClassBit _ _ _ _ hk, if_pos rfl]
      simp only [Bool.and_eq_true] at hbit
      obtain ⟨⟨hnamed, hpaused⟩, hover⟩ := hbit
      rw [hnamed, hpaused, hover]
      rfl
    | false =>
      rw [if_neg Bool.false_ne_true]
      cases hpaused : pausedClass s p k with
      | false => rfl
      | true =>
        rw [hpaused, Bool.and_true] at hbit
        rw [hbit]
        rfl
  · rw [if_neg hc]
    split
    · rw [pausedClass_setClassBit _ _ _ _ hk, if_neg hc]
    · rfl

/-- The classes below n released where their time is over. -/
theorem pausedClass_foldl_releaseIf (cs : BitVec 8) (p : Port) (s : State) (n : Nat) {k : Nat} (hk : k < 8) :
    pausedClass ((List.range n).foldl (releaseIf cs p) s) p k = (pausedClass s p k &&
      !(decide (k < n) && bitOf cs.toNat k && decide (tget (fun _ => 0) (macP s p).till k ≤ s.sys.ticks))) := by
  induction n with
  | zero => simp
  | succ n ih =>
    have hmac : ((List.range n).foldl (releaseIf cs p) s).mac = s.mac := foldl_keeps State.mac (fun t c => (releaseIf_frame cs p t c).1) _ s
    have hsys : ((List.range n).foldl (releaseIf cs p) s).sys = s.sys := foldl_keeps State.sys (fun t c => (releaseIf_frame cs p t c).2) _ s
    have hport : macP ((List.range n).foldl (releaseIf cs p) s) p = macP s p := by rw [macP, hmac, macP]
    rw [List.range_succ, List.foldl_append, List.foldl_cons, List.foldl_nil, pausedClass_releaseIf cs p _ n hk, ih, hport, hsys]
    by_cases hn : k = n
    · simp [hn]
    · rw [if_neg hn, show decide (k < n + 1) = decide (k < n) by simp; omega]

section
variable {p : Port} {s : State} (hlive : live s = true) {c : Fin 8}
include hlive

/-- A class that enters recovery: it is no longer paused, WDACT shows it, and its recovery counts from now. -/
def inRecovery (s : State) (p : Port) (c : Fin 8) : State :=
  let t := setClassBit (setClassBit s fMAC_MSTAT_PAUSED p c false) fMAC_MSTAT_WDACT p c true
  setMac t p { macP t p with since := tset (fun _ => 0) (macP t p).since c t.sys.ticks }

theorem exec_pauseWatchdogTrip (hon : rdF s fMAC_MPWD_WDMS p ≠ 0) (hpaused : pausedClass s p c = true)
    (hlong : tget (fun _ => 0) (macP s p).since c + 625000 * rdF s fMAC_MPWD_WDMS p < s.sys.ticks) :
    exec (.pauseWatchdogTrip p c) s = .next (startNext (emit2 (inRecovery s p c) 0x200010 p c) p) := by
  have hexec : exec (.pauseWatchdogTrip p c) s = execPauseWatchdogTrip p c s := rfl
  have hheld : heldFor s p c (rdF s fMAC_MPWD_WDMS p) = true := decide_eq_true hlong
  rw [hexec, execPauseWatchdogTrip, if_neg (by simp [hlive, hon, hpaused, hheld])]
  rfl

theorem exec_pauseWatchdogRecoveryEnd (hbit : (rdF s fMAC_MSTAT_WDACT p).testBit c = true)
    (hdue : tget (fun _ => 0) (macP s p).since c + 6250000 * rdF s fMAC_MPWD_RECOV p ≤ s.sys.ticks) :
    exec (.pauseWatchdogRecoveryEnd p c) s = .next (emit0 (setClassBit s fMAC_MSTAT_WDACT p c false) 0x200011) := by
  have hexec : exec (.pauseWatchdogRecoveryEnd p c) s = execPauseWatchdogRecoveryEnd p c s := rfl
  rw [hexec, execPauseWatchdogRecoveryEnd, if_neg (by simp [hlive, bitOf_eq_testBit, hbit, hdue])]

end

theorem inRecovery_bits (s : State) (p : Port) (c : Fin 8) :
    pausedClass (inRecovery s p c) p c = false ∧ (rdF (inRecovery s p c) fMAC_MSTAT_WDACT p).testBit c = true := by
  have hwords : (inRecovery s p c).words = (setClassBit (setClassBit s fMAC_MSTAT_PAUSED p c false) fMAC_MSTAT_WDACT p c true).words := rfl
  rw [pausedClass, rdF_congr hwords, rdF_congr hwords]
  refine ⟨?_, by rw [testBit_setClassBit _ p c true (by decide) c.isLt, if_pos rfl]⟩
  have h := pausedClass_setClassBit_wdact (setClassBit s fMAC_MSTAT_PAUSED p c false) p c true c
  rw [pausedClass_setClassBit _ _ _ _ c.isLt, if_pos rfl] at h
  exact h

/-! ## Verification -/

section
variable {p : Port} {s : State} (hlive : live s = true) (hactive : active s 8 p = true)
include hlive hactive

theorem exec_verifyTimer (hstate : rdF s fMAC_MPSTAT_VSTATE p = 1 ∨ rdF s fMAC_MPSTAT_VSTATE p = 2)
    (hdue : (macP s p).tries = 0 ∨ (macP s p).verAt + 625000 * rdF s fMAC_MPRE_VERIFYT p ≤ s.sys.ticks) :
    exec (.verifyTimer p) s = .next (if (macP s p).tries < 3 then wrF (setMac s p { macP s p with
        tries := (macP s p).tries + 1, verifySent := (macP s p).verifySent + 1, verAt := s.sys.ticks }) fMAC_MPSTAT_VSTATE 2 p
      else emit0 (wrF s fMAC_MPSTAT_VSTATE 4 p) 0x200013) := by
  have hexec : exec (.verifyTimer p) s = execVerifyTimer p s := rfl
  have hcond : (!live s || !active s 8 p || !(rdF s fMAC_MPSTAT_VSTATE p == 1 || rdF s fMAC_MPSTAT_VSTATE p == 2) ||
      ((macP s p).tries != 0 && decide (s.sys.ticks < (macP s p).verAt + 625000 * rdF s fMAC_MPRE_VERIFYT p))) = false := by
    have hverifies : (rdF s fMAC_MPSTAT_VSTATE p == 1 || rdF s fMAC_MPSTAT_VSTATE p == 2) = true := by simpa using hstate
    rw [hlive, hactive, hverifies]
    rcases hdue with h | h
    · simp [h]
    · simp [h]
  rw [hexec, execVerifyTimer, hcond, if_neg Bool.false_ne_true]
  split <;> rfl

theorem exec_verifyResponse (hstate : rdF s fMAC_MPSTAT_VSTATE p = 2) : exec (.verifyResponse p) s =
    .next (wrF (wrF s fMAC_MPSTAT_VSTATE 3 p) fMAC_MPSTAT_ACTIVE 1 p) := by
  have hexec : exec (.verifyResponse p) s = execVerifyResponse p s := rfl
  rw [hexec, execVerifyResponse, if_pos (by simp [hlive, hactive, hstate])]

theorem exec_verifyMpacketReceived (hon : onF s fMAC_MPRE_PREN p = true) : exec (.verifyMpacketReceived p) s =
    .next (setMac s p { macP s p with respondSent := (macP s p).respondSent + 1 }) := by
  have hexec : exec (.verifyMpacketReceived p) s = execVerifyMpacketReceived p s := rfl
  rw [hexec, execVerifyMpacketReceived, if_pos (by simp [hlive, hactive, hon])]

end

/-- Settles O45: the start and the end of a frame, pause and its watchdog, and verification. -/
theorem macsReceivePauseAndVerify : Obligations.MacsReceivePauseAndVerify := by
  refine ⟨?start, ?ends, ?stayed, ?pause⟩
  case start =>
    intro p pre buf ecc sfd b s0 s hlive hactive hmode hup hfree hs
    refine ⟨fun hrunt => ?_, fun hlength hpause => ?_, fun hlength hpause hbuf => exec_macRxFrameStart_overload hlive hactive hmode hup hfree hs
      hlength hpause hbuf, fun hlength hpause hbuf x r big hbig hmsec => ?_⟩
    · rw [exec_macRxFrameStart hlive hactive hmode hup hfree hs, if_pos hrunt]
    · rw [exec_macRxFrameStart hlive hactive hmode hup hfree hs, if_neg (Nat.not_lt.mpr hlength), if_pos hpause]
    · have hmsec' := exec_macRxFrameStart_msec hlive hactive hmode hup hfree hs hlength hpause hbuf hbig hmsec
      refine ⟨?_, ?_⟩
      · rintro rfl
        exact hmsec'
      · rintro c icv prot held z rfl rfl rfl
        exact ⟨_, hmsec', rfl, rfl, rfl, rfl, rfl, rfl, rfl, rfl⟩
  case ends =>
    intro p pre how frags s hlive hends
    rw [exec_macRxFrameEnd hlive hends]
    refine ⟨fun h => ?_, fun hhow hnone hactive hup => ?_⟩
    · rw [if_neg]
      rintro ⟨hhow, hnone⟩
      rcases h with h | h
      · exact h (Fin.ext hhow)
      · exact h hnone
    · rw [if_pos ⟨by rw [hhow]; rfl, hnone⟩, hactive, hup]
      rfl
  case stayed =>
    intro p s b big hslot hb
    rw [rxEnd_stayed hslot hb]
    exact ⟨fun hbad => if_neg (ne_true_of_eq_false hbad), fun hgood => if_pos hgood⟩
  case pause =>
    intro p s hlive
    refine ⟨exec_pauseRepeat hlive, fun cs => ⟨_, exec_pauseTimeExpiry hlive cs, fun c hc => ?_⟩, fun c hon hpaused hlong => ?_, fun c hbit hdue => ?_,
      fun hactive => ⟨fun hstate hdue => ?_, exec_verifyResponse hlive hactive, exec_verifyMpacketReceived hlive hactive⟩⟩
    · rw [pausedClass_foldl_releaseIf cs p s 8 hc, decide_eq_true hc, Bool.true_and, bitOf_eq_getLsbD]
    · exact ⟨_, exec_pauseWatchdogTrip hlive hon hpaused hlong, inRecovery_bits s p c⟩
    · refine ⟨_, exec_pauseWatchdogRecoveryEnd hlive hbit hdue, ?_, fun k hk hne => ?_⟩
      · rw [testBit_setClassBit _ p c false (by decide) c.isLt, if_pos rfl]
      · rw [testBit_setClassBit _ p c false (by decide) hk, if_neg hne]
    · rw [exec_verifyTimer hlive hactive hstate hdue]
      exact ⟨fun htries => by rw [if_pos htries], fun htries => by rw [if_neg (Nat.not_lt.mpr htries)]⟩

end Sys2Proof.Machine
end

section
/-! Frames transmitted, cut and stomped, and the gates of their port (R322 to R333), and the statement about them. -/
namespace Sys2Proof.Machine

@[simp] theorem macP_setMac (s : State) (p : Nat) (m : MacP) : macP (setMac s p m) p = m := tget_tset_same (fun _ => macReset) s.mac p m

theorem macP_congr {s t : State} (h : t.mac = s.mac) (p : Nat) : macP t p = macP s p := by rw [macP, h, macP]

theorem selOf_setSel (s : State) (p : Nat) (pre : Bool) (x : Option Sel) : selOf (macP (setSel s p pre x) p) pre = x := by
  rw [setSel, macP_setMac]
  cases pre <;> rfl

/-! ## A selected frame and its form on the line -/

section
variable {p : Port} {pre : Bool} {ecc : Fin 3} {s x : State} {f : Sel} {r : Option (List Byte)} (hsel : selOf (macP s p) pre = some f)
  (hlive : live s = true) (hready : f.ready = false) (hgood : (f.cut.bind (flight s)).any (fun y => y.bad == 1) = false)
  (hmsec : msecEgress s p f.frame.txsc ecc f.bytes = (x, r))
include hsel hlive hready hgood hmsec

theorem exec_msecEgressFrame_discarded (hr : r = none) : exec (.msecEgressFrame p pre ecc) s = .next (startNext (dropSel x p pre f) p) := by
  have hexec : exec (.msecEgressFrame p pre ecc) s = execMsecEgressFrame p pre ecc s := rfl
  subst hr
  simp only [hexec, execMsecEgressFrame, hsel, hlive, hready, hgood, hmsec, Bool.not_true, Bool.or_self, Bool.false_eq_true, if_false]

theorem exec_msecEgressFrame_ready {b : List Byte} (hr : r = some b) {y : Sel} {z : State}
    (hy : y = { f with bytes := b, ready := true, icv := decide (b.length ≠ f.bytes.length) }) (hz : z = setSel x p pre (some y)) :
    exec (.msecEgressFrame p pre ecc) s = .next (startNext
      (if gateFits z p y.cls (gateBytes z p y pre) then z else count z 8 kMacHeld (8 * p + y.cls)) p) := by
  have hexec : exec (.msecEgressFrame p pre ecc) s = execMsecEgressFrame p pre ecc s := rfl
  subst hr hz hy
  simp only [hexec, execMsecEgressFrame, hsel, hlive, hready, hgood, hmsec, Bool.not_true, Bool.or_self, Bool.false_eq_true, if_false]

end

section
variable {p : Port} {under pre : Bool} {s : State} {f : Sel} (hlive : live s = true) (hcur : (macP s p).cur = some pre)
  (hsel : selOf (macP s p) pre = some f)
include hlive hcur hsel

theorem exec_macTxFrameEnd_whole (hcut : f.cut.bind (flight s) = none) :
    exec (.macTxFrameEnd p 0 under) s = .next (startNext (txWhole s p pre f f.stomp) p) := by
  have hexec : exec (.macTxFrameEnd p 0 under) s = execMacTxFrameEnd p 0 under s := rfl
  simp only [hexec, execMacTxFrameEnd, hcur, hsel, hlive, hcut, Bool.not_true, Bool.false_eq_true, if_false, ne_eq, not_true_eq_false]

theorem exec_macTxFrameEnd_cutThrough {y : Flight} (hcut : f.cut.bind (flight s) = some y) (hend : under = true ∨ (y.ended = true ∧ y.icv = .none)) :
    exec (.macTxFrameEnd p 0 under) s = .next (startNext (txWhole s p pre f (if y.bad ≠ 0 then y.bad else if under then 6 else 0)) p) := by
  have hexec : exec (.macTxFrameEnd p 0 under) s = execMacTxFrameEnd p 0 under s := rfl
  have hcond : (!under && (!y.ended || y.icv != .none)) = false := by
    rcases hend with h | ⟨hended, hicv⟩
    · simp [h]
    · simp [hended, hicv]
  simp only [hexec, execMacTxFrameEnd, hcur, hsel, hlive, hcut, hcond, Bool.not_true, Bool.false_eq_true, if_false, ne_eq, not_true_eq_false]

end

section
variable {p : Port} {n : Nat} {under : Bool} {s : State} {f : Sel} (hlive : live s = true) (hcur : (macP s p).cur = some true)
  (hsel : (macP s p).pr = some f) (hn : n ≠ 0)

/-- The port after a fragment: the frame goes on later after byte n, and the fragment with its mCRC is what was sent last. -/
def fragmentSent (s : State) (p n : Nat) (f : Sel) : State :=
  let x := setSel (count s 8 kMacFragTx p) p true (some { f with off := f.off + n, overrun := false })
  setMac x p { macP x p with cur := none, sent := (f.bytes.drop f.off).take n ++ mCrc f.bytes (f.off + n), stomped := false }

theorem fragmentSent_mac (s : State) (p n : Nat) (f : Sel) :
    (macP (fragmentSent s p n f) p).cur = none ∧ (macP (fragmentSent s p n f) p).pr = some { f with off := f.off + n, overrun := false } ∧
    (macP (fragmentSent s p n f) p).sent = (f.bytes.drop f.off).take n ++ mCrc f.bytes (f.off + n) := by
  have hpr := selOf_setSel (count s 8 kMacFragTx p) p true (some { f with off := f.off + n, overrun := false })
  rw [fragmentSent, macP_setMac]
  exact ⟨rfl, hpr, rfl⟩

include hlive hcur hsel hn

theorem exec_macTxFrameEnd_fragment : exec (.macTxFrameEnd p n under) s = .next
    (if preActive s p && cutReason s p f && minFrag s p ≤ n + 4 && f.off + n + 60 ≤ f.bytes.length then startNext (fragmentSent s p n f) p else s) := by
  have hexec : exec (.macTxFrameEnd p n under) s = execMacTxFrameEnd p n under s := rfl
  have hsel' : selOf (macP s p) true = some f := hsel
  simp only [hexec, execMacTxFrameEnd, hcur, hsel', hlive, Bool.not_true, Bool.false_eq_true, if_false, if_pos hn, Bool.true_and, ne_eq]
  split <;> rfl

end

/-- What the end of a whole frame does to the port last, after its counts and charges. -/
theorem txWhole_last (p : Nat) (pre : Bool) (s : State) (f : Sel) (why : Nat) : ∃ k, txWhole s p pre f why = setMac (setSel k p pre none) p
    { macP (setSel k p pre none) p with cur := none, sent := (lineEnd f.bytes f.icv why).drop f.off, stomped := why != 0 } := ⟨_, rfl⟩

theorem txWhole_mac (p : Nat) (pre : Bool) (s : State) (f : Sel) (why : Nat) :
    (macP (txWhole s p pre f why) p).sent = (lineEnd f.bytes f.icv why).drop f.off ∧ selOf (macP (txWhole s p pre f why) p) pre = none ∧
    (macP (txWhole s p pre f why) p).cur = none ∧ (macP (txWhole s p pre f why) p).stomped = decide (why ≠ 0) := by
  obtain ⟨k, hk⟩ := txWhole_last p pre s f why
  have hsel := selOf_setSel k p pre none
  rw [hk, macP_setMac]
  refine ⟨rfl, ?_, rfl, ?_⟩
  · cases pre
    · exact hsel
    · exact hsel
  · cases why <;> rfl

theorem lineEnd_stomped (b : List Byte) {why : Nat} (hwhy : why ≠ 0) : lineEnd b false why = b ++ invert (fcsOf b) := by
  rw [lineEnd, Bool.false_and, if_neg Bool.false_ne_true, if_neg hwhy]

/-! ## Gates -/

section
variable {p : Port} {s : State} (hlive : live s = true)
include hlive

theorem exec_gateEntryChange : exec (.gateEntryChange p false) s = .next (startNext (gateApply s p) p) := by
  have hexec : exec (.gateEntryChange p false) s = execGateEntryChange p false s := rfl
  rw [hexec, execGateEntryChange, hlive]
  rfl

theorem exec_gateEntryChange_hold (hop : (gatesAt s p (nowNs s + lineNs (minFrag s p + 75) (portRate s p))).op = 1) :
    exec (.gateEntryChange p true) s = .next (setMac s p { macP s p with hold := true }) := by
  have hexec : exec (.gateEntryChange p true) s = execGateEntryChange p true s := rfl
  rw [hexec, execGateEntryChange, if_neg (by simp [hlive]), if_pos rfl]
  simp only [hop, if_true]

theorem exec_gateListSwitch {g : GList} {x : State} (hwait : (macP s p).wait = some g) (hat : g.at_ ≤ nowNs s)
    (hx : x = setMac s p { macP s p with oper := some g, wait := none }) :
    exec (.gateListSwitch p) s = .next (startNext (gateApply (emit (result (wrF (wrF x fMAC_GSTAT_OPAGE g.page p)
        fMAC_GSTAT_WAIT 0 p) fMAC_GN_N (min g.n 0xffffff) p) 0x200012 (min g.n 0xffffff) (Config.gateInstant g.at_).toNat
        (Config.gateOutcome (switchOutcome s p g.at_)).toNat) p) p) := by
  have hexec : exec (.gateListSwitch p) s = execGateListSwitch p s := rfl
  have hcond : (!live s || decide (nowNs s < g.at_)) = false := by simp [hlive, hat]
  subst hx
  simp only [hexec, execGateListSwitch, hwait, hcond, Bool.false_eq_true, if_false]

end

section
variable {s y : State} {p g i : Nat} (hg : g = rdF s fMAC_GESEL_PG p) (hi : i = rdF s fMAC_GESEL_ENTRY p) (hwords : y.words = s.words)
  (hmac : y.mac = s.mac) (f : Nat × Nat × Nat → Nat × Nat × Nat)
include hg hi hwords hmac

/-- The entry that GESEL names is left as it is where its page is in force or waits; an event before the write has no part in it. -/
theorem writeEntry_held (hheld : pageHeld s p g = true) : writeEntry y p f = emit2 (count y 8 kMacEntry p) 0x200014 g i := by
  have hheld' : pageHeld y p g = true := by rw [pageHeld, macP_congr hmac, ← pageHeld, hheld]
  rw [writeEntry, rdF_congr hwords, rdF_congr hwords, ← hg, ← hi, if_pos hheld']

theorem writeEntry_written (hheld : pageHeld s p g = false) : writeEntry y p f =
    setMac y p { macP s p with gates := tset (fun _ => gateReset) (macP s p).gates (g * 256 + i) (f (gateEntry s p g i)) } := by
  have hheld' : pageHeld y p g = false := by rw [pageHeld, macP_congr hmac, ← pageHeld, hheld]
  have hentry : gateEntry y p g i = gateEntry s p g i := by rw [gateEntry, macP_congr hmac, gateEntry]
  rw [writeEntry, rdF_congr hwords, rdF_congr hwords, ← hg, ← hi, if_neg (ne_true_of_eq_false hheld'), macP_congr hmac, hentry]

end

/-- The word of GEA as its bits: the gates, and the operation, which 3 leaves as it is. -/
theorem exec_geaWrite {e : Eng} {p : Port} {v : Word} {s x : State} (haccept : accept s e false (fAddr fMAC_GEA_GATES p 0) v = some x)
    {y : State} (hy : y = (if assigned (fAddr fMAC_GEA_GATES p 0) v.toNat then x else unassigned x (fAddr fMAC_GEA_GATES p 0) (v.toNat / 256 % 4))) :
    exec (.geaWrite e p v) s = .next (writeEntry y p fun z => (v.toNat % 256, if v.toNat / 256 % 4 = 3 then z.2.1 else v.toNat / 256 % 4, z.2.2)) ∧
    y.words = x.words ∧ y.mac = x.mac := by
  have hexec : exec (.geaWrite e p v) s = execGeaWrite e p v s := rfl
  have hgates : bitsOf v.toNat 0 8 = v.toNat % 256 := bitsOf_zero _ _
  have hop : bitsOf v.toNat 8 2 = v.toNat / 256 % 4 := rfl
  subst hy
  refine ⟨by rw [hexec, execGeaWrite, onSet_of_accept _ haccept, hgates, hop], ?_⟩
  split
  · exact ⟨rfl, rfl⟩
  · exact ⟨emit2_words _ _ _ _, emit2_mac _ _ _ _⟩

theorem exec_gebWrite {e : Eng} {p : Port} {v : Word} {s x : State} (haccept : accept s e false (fAddr fMAC_GEB_INTERVAL p 0) v = some x) :
    exec (.gebWrite e p v) s = .next (wrF (writeEntry x p fun z => (z.1, z.2.1, v.toNat)) fMAC_GESEL_ENTRY (rdF x fMAC_GESEL_ENTRY p + 1) p) := by
  have hexec : exec (.gebWrite e p v) s = execGebWrite e p v s := rfl
  have hwords : (writeEntry x p fun z => (z.1, z.2.1, v.toNat)).words = x.words := by
    rw [writeEntry]
    split
    · rw [emit2_words, count_words]
    · rfl
  rw [hexec, execGebWrite, onSet_of_accept _ haccept]
  simp only [rdF_congr hwords]

/-- Settles O46: a selected frame and its end, fragments, gate entries and lists, GEA and GEB. -/
theorem macsTransmitUnderTheirGates : Obligations.MacsTransmitUnderTheirGates := by
  refine ⟨?selected, ?ends, ?fragment, fun p pre s f why _ => txWhole_mac p pre s f why, ?line, ?gates, ?entries⟩
  case selected =>
    intro p pre ecc s x f r hsel hlive hready hgood hmsec
    exact ⟨exec_msecEgressFrame_discarded hsel hlive hready hgood hmsec, fun b y z hr hy hz =>
      exec_msecEgressFrame_ready hsel hlive hready hgood hmsec hr hy hz⟩
  case ends =>
    intro p under pre s f hlive hcur hsel
    exact ⟨exec_macTxFrameEnd_whole hlive hcur hsel, fun y => exec_macTxFrameEnd_cutThrough hlive hcur hsel⟩
  case fragment =>
    intro p n under s f hlive hcur hsel hn
    rw [exec_macTxFrameEnd_fragment hlive hcur hsel hn]
    refine ⟨fun hpre hreason hmin hrest => ?_, fun h => ?_⟩
    · obtain ⟨hnone, hpr, hsent⟩ := fragmentSent_mac s p n f
      exact ⟨_, by rw [if_pos (by simp [hpre, hreason, hmin, hrest])], hnone, hpr, hsent, rfl⟩
    · rw [if_neg]
      simp only [Bool.and_eq_true, decide_eq_true_eq]
      rintro ⟨⟨⟨hpre, hreason⟩, hmin⟩, hrest⟩
      rcases h with h | h | h | h
      · exact ne_true_of_eq_false h hpre
      · exact ne_true_of_eq_false h hreason
      · omega
      · omega
  case line =>
    exact fun b => ⟨rfl, fun why => lineEnd_stomped b⟩
  case gates =>
    intro p s hlive
    exact ⟨exec_gateEntryChange hlive, exec_gateEntryChange_hold hlive, fun g x hwait hat hx => ⟨_, _, exec_gateListSwitch hlive hwait hat hx⟩⟩
  case entries =>
    intro e p v s x g i hg hi
    refine ⟨fun haccept op y hop hy => ?_, fun haccept => ⟨_, by rw [exec_gebWrite haccept, hi], fun hheld => ?_, fun hheld l hl => ?_⟩⟩
    · obtain ⟨hrun, hwords, hmac⟩ := exec_geaWrite haccept hy
      rw [hrun]
      refine ⟨fun hheld => by rw [writeEntry_held hg hi hwords hmac _ hheld], fun hheld l hl => ?_⟩
      rw [writeEntry_written hg hi hwords hmac _ hheld, hl, hop]
    · exact writeEntry_held hg hi rfl rfl _ hheld
    · rw [writeEntry_written hg hi rfl rfl _ hheld, hl]

end Sys2Proof.Machine
end

section
/-! The site bus: transmission, reception, the receive ring, jabber and wake (R337 to R347), and the statement about it. -/
namespace Sys2Proof.Machine

/-! ## Transmission -/

section
variable {e : Eng} {v : BitVec 24} {s x : State} {n : Nat} (haccept : accept s e false (fAddr fSBUS_TXGO_GO 0 0) v = some x)
  (hgo : v.getLsbD 0 = true) (hactive : active x 9 0 = true) (hn : n = rdF x fSBUS_TXLEN_LEN)
include haccept hgo hactive hn

theorem exec_sbusTxgo : exec (.sbusTxgo e v) s = .next (if x.sbus.tx.isSome = true ∨ n = 0 ∨ 1518 < n then txRes x 5 0
    else setTxFrame x (some ⟨rdF x fSBUS_TXADDRH_ADDR * 2 ^ 24 + rdF x fSBUS_TXADDRL_ADDR, n, none, false, 0, none⟩)) := by
  have hexec : exec (.sbusTxgo e v) s = execSbusTxgo e v s := rfl
  have hcond : (!bitOf v.toNat 0 || !active x 9 0) = false := by rw [bitOf_toNat, hgo, hactive]; rfl
  rw [hexec, execSbusTxgo, onSet_of_accept _ haccept, hcond, if_neg Bool.false_ne_true, hn]

end

section
variable {s : State} {x : SbusTx} {b : List Byte} (htx : s.sbus.tx = some x) (hruns : sbusRuns s = true)
include htx hruns

section
variable (hbytes : x.bytes = none)
include hbytes

theorem exec_sbusFetchComplete_beyond (hbeyond : dataSpace < x.addr + x.len) :
    exec (.sbusFetchComplete true) s = .next (endTx (refuse s sbusMaster x.addr false) x 4 0) := by
  have hexec : exec (.sbusFetchComplete true) s = execSbusFetchComplete true s := rfl
  simp only [hexec, execSbusFetchComplete, htx, hruns, hbytes, Option.isSome_none, Bool.not_true, Bool.or_self, Bool.false_eq_true, if_false,
    if_pos hbeyond]

variable (hwithin : x.addr + x.len ≤ dataSpace) (hadmitted : refusedByte s sbusMaster x.addr x.len false = none)
include hwithin hadmitted

theorem exec_sbusFetchComplete (sealOk : Bool) (hb : b = dramRead s x.addr x.len ++ List.replicate (60 - x.len) 0) :
    exec (.sbusFetchComplete sealOk) s = .next (if sealOk
      then setTxFrame (countLines s sbusMaster x.addr x.len false) (some { x with bytes := some (b ++ fcsOf b) })
      else sealFault s 0x400010 (x.addr / 64 * 64) sbusMaster) := by
  have hexec : exec (.sbusFetchComplete sealOk) s = execSbusFetchComplete sealOk s := rfl
  have hread : dramRead (countLines s sbusMaster x.addr x.len false) x.addr x.len = dramRead s x.addr x.len := by
    simp only [dramRead, dramB_congr (countLines_mpe s sbusMaster x.addr x.len false)]
  have hlength : (dramRead s x.addr x.len).length = x.len := by simp [dramRead]
  subst hb
  simp only [hexec, execSbusFetchComplete, htx, hruns, hbytes, Option.isSome_none, Bool.not_true, Bool.or_self, Bool.false_eq_true, if_false,
    if_neg (Nat.not_lt.mpr hwithin), hadmitted, hread, hlength]
  cases sealOk <;> rfl

end

theorem exec_sbusTxAttempt (htest : testing s 38 = false) (hbytes : x.bytes.isSome = true) (hsending : x.sending = false) (huntil : x.until_ = none)
    (hidle : busIdle s = true) (d : Bool) : exec (.sbusTxAttempt d) s = .next (wrF (setTxFrame (if d then count s 9 kSbusDefer 0 else s)
      (some { x with sending := true, tries := x.tries + 1 })) fSBUS_SSTAT_CARRIER 1) := by
  have hexec : exec (.sbusTxAttempt d) s = execSbusTxAttempt d s := rfl
  have hnone : x.bytes.isNone = false := by rw [← Option.not_isSome, hbytes]; rfl
  simp only [hexec, execSbusTxAttempt, htx, hruns, htest, hnone, hsending, huntil, hidle, Option.isSome_none, Bool.not_true, Bool.or_self,
    Bool.false_eq_true, if_false]

/-- A back-off of r slot times after the jam of 2,000 ticks, with the random bytes drawn. -/
def backedOff (s y : State) (x : SbusTx) (r : Nat) : State :=
  wrF (setTxFrame { y with sbus := { y.sbus with idleAt := s.sys.ticks + 2000 } }
    (some { x with sending := false, until_ := some (s.sys.ticks + 2000 + 32000 * r) })) fSBUS_SSTAT_CARRIER 0

section
variable (hsending : x.sending = true)
include hsending

theorem exec_sbusCollision (sent : BitVec 11) : exec (.sbusCollision sent) s = .next
    (if 64 ≤ sent.toNat then endTx (emit0 (count (count s 9 kSbusCollision 0) 9 kSbusLate 0) 0x240011) x 2 2000
    else if 16 ≤ x.tries then endTx (emit0 (count (count s 9 kSbusCollision 0) 9 kSbusExcess 0) 0x240010) x 1 2000
    else backedOff s (takeRandom 2 (count s 9 kSbusCollision 0)).2 x (ofBytes (takeRandom 2 (count s 9 kSbusCollision 0)).1 % 2 ^ min x.tries 10)) := by
  have hexec : exec (.sbusCollision sent) s = execSbusCollision sent s := rfl
  have hticks : (takeRandom 2 (count s 9 kSbusCollision 0)).2.sys.ticks = s.sys.ticks := by
    rw [← count_sys s 9 kSbusCollision 0]
    rfl
  simp only [hexec, execSbusCollision, htx, hruns, hsending, hticks, Bool.not_true, Bool.or_self, Bool.false_eq_true, if_false]
  split
  · rfl
  · split <;> rfl

theorem exec_sbusTxComplete : exec .sbusTxComplete s =
    .next (endTx { count (count s 9 (kSbusFrames false) 0) 9 (kSbusBytes false) 0 (x.bytes.getD []).length with
      sbus := { s.sbus with sent := x.bytes.getD [] } } x 0 0) := by
  have hexec : exec .sbusTxComplete s = execSbusTxComplete s := rfl
  simp only [hexec, execSbusTxComplete, htx, hruns, hsending, Bool.not_true, Bool.or_self, Bool.false_eq_true, if_false, count_sbus]

end

theorem exec_sbusBackoffEnd {t : Nat} (huntil : x.until_ = some t) (ht : t ≤ s.sys.ticks) :
    exec .sbusBackoffEnd s = .next (setTxFrame s (some { x with until_ := none })) := by
  have hexec : exec .sbusBackoffEnd s = execSbusBackoffEnd s := rfl
  have hlive : live s = true := by
    rw [sbusRuns, Bool.and_eq_true, Bool.and_eq_true] at hruns
    obtain ⟨⟨hlive, -⟩, -⟩ := hruns
    exact hlive
  simp only [hexec, execSbusBackoffEnd, htx, huntil, hlive, decide_eq_true ht, Bool.and_self, if_true]

end

theorem backedOff_tx (s y : State) (x : SbusTx) (r : Nat) :
    (backedOff s y x r).sbus.tx = some { x with sending := false, until_ := some (s.sys.ticks + 2000 + 32000 * r) } ∧
    onF (backedOff s y x r) fSBUS_SSTAT_CARRIER = false := by
  refine ⟨rfl, ?_⟩
  rw [onF, backedOff, rdF_wrF_same _ _ _ _ _ (by decide)]
  rfl

/-! ## Reception -/

section
variable {start : Nat × Nat} {b : List Byte} {bad : Fin 3} {s x : State} (hruns : sbusRuns s = true) (hactive : active s 9 0 = true)
  (hjabber : onF s fSBUS_SSTAT_JABBER = false) (hquiet : ∀ y, s.sbus.tx = some y → y.sending = false)
  (hx : x = { s with sbus := { s.sbus with idleAt := s.sys.ticks } })
include hruns hactive hjabber hquiet hx

theorem exec_sbusRxFrame : exec (.sbusRxFrame start ⟨b, bad⟩) s =
    if testing s 38 then .next (testFrameIn x b)
    else if b.length < 64 then .next (count x 9 kSbusRunt 0)
    else if 1522 < b.length then .next (count x 9 kSbusOver 0)
    else if !fcsGood b then .next (count x 9 kSbusFcs 0)
    else if !sbusForUs x b then .next (count x 9 kSbusFilter 0)
    else
      let y := if onF s fSBUS_SCFG_WAKEEN ∧ rdF s fPWR_STATE_CURS ≠ 0 then wakeSource (count x 9 kSbusWake 0) 1 else x
      if 0xc0 ≤ rdF y fSBUS_AGENT_ENG then .next (count y 9 kSbusNoAgent 0)
      else if 64 ≤ rdF y fSBUS_RXSTAT_USED then .next (count y 9 kSbusFull 0)
      else .next (sbusRing y start (b.take (b.length - 4)) bad) := by
  have hexec : exec (.sbusRxFrame start ⟨b, bad⟩) s = execSbusRxFrame start ⟨b, bad⟩ s := rfl
  have hsilent : s.sbus.tx.any (fun y => y.sending) = false := by
    cases htx : s.sbus.tx with
    | none => rfl
    | some y => exact hquiet y htx
  have hcond : (!sbusRuns s || !active s 9 0 || onF s fSBUS_SSTAT_JABBER || s.sbus.tx.any (fun y => y.sending)) = false := by
    rw [hruns, hactive, hjabber, hsilent]
    rfl
  subst hx
  rw [hexec, execSbusRxFrame, hcond, if_neg Bool.false_ne_true]
  rfl

variable (htest : testing s 38 = false) (hmin : 64 ≤ b.length) (hmax : b.length ≤ 1522)
include htest hmin hmax

theorem exec_sbusRxFrame_bounded : exec (.sbusRxFrame start ⟨b, bad⟩) s =
    if !fcsGood b then .next (count x 9 kSbusFcs 0)
    else if !sbusForUs x b then .next (count x 9 kSbusFilter 0)
    else
      let y := if onF s fSBUS_SCFG_WAKEEN ∧ rdF s fPWR_STATE_CURS ≠ 0 then wakeSource (count x 9 kSbusWake 0) 1 else x
      if 0xc0 ≤ rdF y fSBUS_AGENT_ENG then .next (count y 9 kSbusNoAgent 0)
      else if 64 ≤ rdF y fSBUS_RXSTAT_USED then .next (count y 9 kSbusFull 0)
      else .next (sbusRing y start (b.take (b.length - 4)) bad) := by
  rw [exec_sbusRxFrame hruns hactive hjabber hquiet hx, htest, if_neg Bool.false_ne_true, if_neg (Nat.not_lt.mpr hmin), if_neg (Nat.not_lt.mpr hmax)]

variable (hfcs : fcsGood b = true) (hours : sbusForUs x b = true) {y : State}
  (hy : y = (if onF s fSBUS_SCFG_WAKEEN ∧ rdF s fPWR_STATE_CURS ≠ 0 then wakeSource (count x 9 kSbusWake 0) 1 else x))
include hfcs hours hy

theorem exec_sbusRxFrame_accepted : exec (.sbusRxFrame start ⟨b, bad⟩) s = .next
    (if 0xc0 ≤ rdF y fSBUS_AGENT_ENG then count y 9 kSbusNoAgent 0
    else if 64 ≤ rdF y fSBUS_RXSTAT_USED then count y 9 kSbusFull 0
    else sbusRing y start (b.take (b.length - 4)) bad) := by
  rw [exec_sbusRxFrame_bounded hruns hactive hjabber hquiet hx htest hmin hmax, hfcs, hours]
  simp only [Bool.not_true, Bool.false_eq_true, if_false, ← hy]
  split
  · rfl
  · split <;> rfl

end

/-! ## The receive ring

The equation of sbusRing itself would have Lean evaluate the bound of the data space; its definition is put in for an opaque name instead. -/

theorem fillRange_sys (s : State) (a n : Nat) : (fillRange s a n).sys = s.sys := by
  rw [fillRange]
  split
  · rfl
  · exact foldl_keeps State.sys (step := fun s g => setWritten s g true) (fun t g => rfl) _ s

section
variable {s z : State} {start : Nat × Nat} {b head : List Byte} {k a : Nat} (hk : k = rdF s fSBUS_RXSTAT_HEAD)
  (ha : a = rdF s fSBUS_RXBASEH_BASE * 2 ^ 24 + rdF s fSBUS_RXBASEL_BASE + 2048 * k) (hwithin : a + 2048 ≤ dataSpace)
include hk ha hwithin

theorem sbusRing_refused {n : Nat} (hn : refusedByte s sbusMaster a (64 + b.length) true = some n) :
    sbusRing s start b 0 = count (refuse s sbusMaster n true) 9 kSbusFull 0 := by
  have hnot : ¬dataSpace < a + 2048 := Nat.not_lt.mpr hwithin
  generalize hf : @sbusRing = f
  delta sbusRing at hf
  subst hf
  simp only [← hk, ← ha, if_neg hnot, hn]

theorem sbusRing_written (hlive : s.sys.halted = false) (hadmitted : refusedByte s sbusMaster a (64 + b.length) true = none)
    (hhead : head = toBytes 2 b.length ++ dramRead s (a + 2) 2 ++ toBytes 3 start.1 ++ toBytes 4 start.2 ++ toBytes 3 s.time.gen)
    (hz : z = writeRange (fillRange s a (64 + b.length)) sbusMaster a (head ++ dramRead s (a + 14) 50 ++ b) 0) :
    sbusRing s start b 0 = sbusNote (count (count (wrF (wrF z fSBUS_RXSTAT_USED (rdF z fSBUS_RXSTAT_USED + 1)) fSBUS_RXSTAT_HEAD (k + 1))
      9 (kSbusFrames true) 0) 9 (kSbusBytes true) 0 b.length) k b.length := by
  have hz' : z.sys.halted = false := by rw [hz, writeRange_sys, fillRange_sys, hlive]
  have hnot : ¬dataSpace < a + 2048 := Nat.not_lt.mpr hwithin
  generalize hf : @sbusRing = f
  delta sbusRing at hf
  subst hf
  simp only [← hk, ← ha, if_neg hnot, hadmitted, ← hhead, ← hz, hz', Bool.false_eq_true, if_false]

end

theorem exec_sbusPostRetry {s : State} (hlive : live s = true) (hnotes : s.sbus.notes ≠ []) (hdue : s.sbus.noteAt + 6250 ≤ s.sys.ticks) :
    exec .sbusPostRetry s =
      .next (s.sbus.notes.foldl (fun s x => sbusNote s x.1 x.2) { s with sbus := { s.sbus with notes := [] } }) := by
  have hexec : exec .sbusPostRetry s = execSbusPostRetry s := rfl
  rw [hexec, execSbusPostRetry, if_neg (by simp [hlive, hnotes, hdue])]

theorem exec_sbusRxdone {e : Eng} {v : BitVec 24} {s x : State} {n used : Nat} (haccept : accept s e false (fAddr fSBUS_RXDONE_N 0 0) v = some x)
    (hn : n = v.toNat % 128) (hused : used = rdF x fSBUS_RXSTAT_USED) : exec (.sbusRxdone e v) s =
      .next (wrF (if used < n then count x 9 kSbusClamp 0 else x) fSBUS_RXSTAT_USED (used - min n used)) := by
  have hexec : exec (.sbusRxdone e v) s = execSbusRxdone e v s := rfl
  have hbits : bitsOf v.toNat 0 7 = n := (bitsOf_zero _ _).trans hn.symm
  subst hused
  simp only [hexec, execSbusRxdone, onSet_of_accept _ haccept, hbits]

/-! ## Jabber and wake -/

section
variable {s x : State} (hlive : live s = true)
include hlive

theorem exec_jabberDetect (hactive : active s 9 0 = true) (hjabber : onF s fSBUS_SSTAT_JABBER = false)
    (hx : x = wrF (wrF (count s 9 kSbusJabber 0) fSBUS_SSTAT_JABBER 1) fSBUS_SSTAT_CARRIER 1) : exec .jabberDetect s =
      .next (raiseFault (emit0 (setTxFrame x (x.sbus.tx.map fun x => { x with sending := false })) 0x240012) 0x240012 39) := by
  have hexec : exec .jabberDetect s = execJabberDetect s := rfl
  subst hx
  rw [hexec, execJabberDetect, if_neg (by simp [hlive, hactive, hjabber])]

theorem exec_jabberClear (hjabber : onF s fSBUS_SSTAT_JABBER = true)
    (hx : x = wrF (wrF s fSBUS_SSTAT_JABBER 0) fSBUS_SSTAT_CARRIER 0) :
    exec .jabberClear s = .next { x with sbus := { x.sbus with idleAt := x.sys.ticks - 625000 } } := by
  have hexec : exec .jabberClear s = execJabberClear s := rfl
  subst hx
  rw [hexec, execJabberClear, if_neg (by simp [hlive, hjabber])]

end

theorem exec_sbusCarrierWake {s : State} (hsleep : inS3 s = true) (hon : onF s fSBUS_SCFG_WAKEEN = true) :
    exec .sbusCarrierWake s = .next (wakeSource (count s 9 kSbusWake 0) 1) := by
  have hexec : exec .sbusCarrierWake s = execSbusCarrierWake s := rfl
  rw [hexec, execSbusCarrierWake, if_neg (by simp [hsleep, hon])]

/-- Settles O47: the held frame from TXGO to TXRES, the receive ring, jabber and wake. -/
theorem theSiteBusSendsAndReceives : Obligations.TheSiteBusSendsAndReceives := by
  refine ⟨?txgo, ?held, ?received, ?ring, fun s => exec_sbusPostRetry, fun e v s x n used => exec_sbusRxdone, ?jabber, fun s => exec_sbusCarrierWake⟩
  case txgo =>
    intro e v s x n haccept hgo hactive hn
    rw [exec_sbusTxgo haccept hgo hactive hn]
    refine ⟨fun hrefused => by rw [if_pos hrefused], fun hnone hmin hmax => ?_⟩
    rw [if_neg]
    simp only [hnone, Option.isSome_none, Bool.false_eq_true, false_or]
    omega
  case held =>
    intro s x b htx hruns
    refine ⟨exec_sbusFetchComplete_beyond htx hruns, fun hbytes hwithin hadmitted hb => ?_, exec_sbusTxAttempt htx hruns, fun hsending sent => ?_,
      fun t => exec_sbusBackoffEnd htx hruns⟩
    · exact ⟨exec_sbusFetchComplete htx hruns hbytes hwithin hadmitted true hb, exec_sbusFetchComplete htx hruns hbytes hwithin hadmitted false hb⟩
    · rw [exec_sbusCollision htx hruns hsending]
      refine ⟨fun hlate => by rw [if_pos hlate], fun hearly hlast => by rw [if_neg (Nat.not_le.mpr hearly), if_pos hlast],
        fun hearly hagain => ?_, exec_sbusTxComplete htx hruns hsending⟩
      rw [if_neg (Nat.not_le.mpr hearly), if_neg (Nat.not_le.mpr hagain)]
      exact ⟨_, _, rfl, Nat.mod_lt _ (Nat.two_pow_pos _), backedOff_tx ..⟩
  case received =>
    intro start b bad s x hruns hactive hjabber hquiet hx
    refine ⟨fun htest => ?_, fun htest => ⟨fun hrunt => ?_, fun hover => ?_, fun hmin hmax => ⟨fun hbad => ?_, fun hgood hother => ?_,
      fun hgood hours y hy => ?_⟩⟩⟩
    · rw [exec_sbusRxFrame hruns hactive hjabber hquiet hx, if_pos htest]
    · rw [exec_sbusRxFrame hruns hactive hjabber hquiet hx, if_neg (ne_true_of_eq_false htest), if_pos hrunt]
    · rw [exec_sbusRxFrame hruns hactive hjabber hquiet hx, if_neg (ne_true_of_eq_false htest), if_neg (by omega), if_pos hover]
    · rw [exec_sbusRxFrame_bounded hruns hactive hjabber hquiet hx htest hmin hmax, hbad]
      rfl
    · rw [exec_sbusRxFrame_bounded hruns hactive hjabber hquiet hx htest hmin hmax, hgood, hother]
      rfl
    · rw [exec_sbusRxFrame_accepted hruns hactive hjabber hquiet hx htest hmin hmax hgood hours hy]
      refine ⟨fun hnone => by rw [if_pos hnone], fun hagent hfull => by rw [if_neg (Nat.not_le.mpr hagent), if_pos hfull],
        fun hagent hroom => by rw [if_neg (Nat.not_le.mpr hagent), if_neg (Nat.not_le.mpr hroom)]⟩
  case ring =>
    intro s z start b head k a hk ha hwithin hlive
    exact ⟨fun n => sbusRing_refused hk ha hwithin, sbusRing_written hk ha hwithin hlive⟩
  case jabber =>
    intro s x hlive
    exact ⟨exec_jabberDetect hlive, exec_jabberClear hlive⟩

end Sys2Proof.Machine
end

section
/-! Secure associations: switches, verification, retention and notifications (R375 to R394), and the statement about them. -/
namespace Sys2Proof.Machine

/-! ## Channels -/

@[simp] theorem txCh_setTx (s : State) (c : Nat) (x : TxCh) : txCh (setTx s c x) c = x := tget_tset_same (fun _ => txReset) s.msec.tx c x

@[simp] theorem signal_msec (s : State) (v : Nat) : (signal s v).msec = s.msec := by
  unfold signal
  extract_lets h w
  split
  · rfl
  · split
    · rfl
    · split <;> rfl

@[simp] theorem setBox_msec (s : State) (d : Nat) (l : List Place) : (setBox s d l).msec = s.msec := by
  unfold setBox
  split <;> rfl

@[simp] theorem putPlace_msec (s : State) (d : Nat) (x : Place) : (putPlace s d x).msec = s.msec := by
  unfold putPlace
  extract_lets s'
  split <;> simp [s']

@[simp] theorem setServed_msec (s : State) (d i : Nat) : (setServed s d i).msec = s.msec := by
  unfold setServed
  split <;> rfl

@[simp] theorem post_msec (s : State) (d : Nat) (m : Msg) : (post s d m).1.msec = s.msec := by
  unfold post
  split
  · rfl
  · split <;> simp

@[simp] theorem mirrorRecord_msec (s : State) (x : MirrorItem) : (mirrorRecord s x).msec = s.msec := by
  unfold mirrorRecord
  split <;> rfl

/-- A notification changes what is kept of notifications alone. -/
theorem notify_tx (s : State) (code w1 w2 w3 : Nat) : (notify s code w1 w2 w3).msec.tx = s.msec.tx := by
  unfold notify
  extract_lets d m r
  have hr : r.1.msec = s.msec := by
    simp only [r]
    split <;> simp
  have htx : r.1.msec.tx = s.msec.tx := by rw [hr]
  split
  · rw [count_msec]
  · split
    · exact htx
    · split
      · exact htx
      · split
        · rw [count_msec, htx]
        · rw [emit1_msec, count_msec, htx]

theorem txCh_doSwitch (s : State) (ch an : Nat) (a : Sa) : txCh (doSwitch s ch an a) ch = { txCh s ch with cur := some an, req := none } := by
  have htx : (doSwitch s ch an a).msec.tx = (setTx s ch { txCh s ch with cur := some an, req := none }).msec.tx := by
    rw [doSwitch, emit_msec, mirrorRecord_msec, notify_tx, count_msec]
  rw [txCh, htx, ← txCh, txCh_setTx]

/-! ## Switch requests -/

section
variable {e : Eng} {v : Word} {s x : State} {ch an how : Nat} {i : Instant} (haccept : accept s e false (fAddr fMSEC_SWGO_GO 0 0) v = some x)
  (hgo : v.getLsbD 0 = true) (hch : ch = rdF s fMSEC_SWCH_CH) (han : an = rdF s fMSEC_SWREQ_AN) (hhow : how = rdF s fMSEC_SWREQ_HOW)
  (hi : i = resolve x (rdF s fMSEC_SWT1_T) (rdF s fMSEC_SWT0_T))
include haccept hgo hch hhow

theorem exec_switchCancel (hcancel : how = 0) : exec (.switchCancel e v) s = .next (setTx x ch { txCh x ch with req := none }) := by
  have hexec : exec (.switchCancel e v) s = execSwitchCancel e v s := rfl
  have hcond : ¬(rdF s fMSEC_SWREQ_HOW ≠ 0 ∨ (!bitOf v.toNat 0) = true) := by rw [← hhow, hcancel, bitOf_toNat, hgo]; decide
  simp only [hexec, execSwitchCancel, if_neg hcond, onSet_of_accept _ haccept, ← hch]

include han hi

theorem exec_switchRequest (hrequest : how ≠ 0) : exec (.switchRequest e v) s = .next
    (if how = 2 ∧ 1000000000 ≤ i.2 then unassigned x (fAddr fMSEC_SWT0_T 0 0) (rdF s fMSEC_SWT0_T)
    else if !(txCh x ch).enable then refuseSwitch x ch an 4
    else trySwitch (setTx x ch { txCh x ch with req := some (an, how, i, how == 1 || (how == 2 && reached x i)) }) ch) := by
  have hexec : exec (.switchRequest e v) s = execSwitchRequest e v s := rfl
  have hcond : ¬(how = 0 ∨ (!bitOf v.toNat 0) = true) := by
    rw [bitOf_toNat, hgo]
    simp [hrequest]
  have hns : (instantOf (rdF s fMSEC_SWT1_T) (rdF s fMSEC_SWT0_T)).2 = i.2 := by rw [hi]; rfl
  simp only [hexec, execSwitchRequest, if_neg hcond, onSet_of_accept _ haccept, ← hch, ← han, ← hhow, ← hi, hns]

end

section
variable {s : State} {ch an how : Nat} {i : Instant} (hreq : (txCh s ch).req = some (an, how, i, true)) (hrole : rdF s fPAIR_PSTAT_ROLE ≠ 2)
  (hcur : (txCh s ch).cur ≠ some an)
include hreq hrole hcur

theorem trySwitch_absent (hsa : saOf s true ch an = none) (hhow : how ≠ 3) : trySwitch s ch = refuseSwitch s ch an 1 := by
  simp only [trySwitch, hreq, if_neg hrole, if_neg hcur, hsa, if_neg hhow, Bool.true_or, Bool.not_true, Bool.false_eq_true, if_false]

theorem trySwitch_installed {k : Nat} {a : Sa} (hsa : saOf s true ch an = some (k, a)) : trySwitch s ch =
    if a.unusable then (if how = 3 then s else refuseSwitch s ch an 2) else if !a.resident then s else doSwitch s ch an a := by
  simp only [trySwitch, hreq, if_neg hrole, if_neg hcur, hsa, Bool.true_or, Bool.not_true, Bool.false_eq_true, if_false]

end

theorem exec_switchTimeDue {ch : Fin 1024} {s : State} {an : Nat} {i : Instant} (hreq : (txCh s ch).req = some (an, 2, i, false))
    (hlive : live s = true) (hreached : reached s i = true) :
    exec (.switchTimeDue ch) s = .next (trySwitch (setTx s ch { txCh s ch with req := some (an, 2, i, true) }) ch) := by
  have hexec : exec (.switchTimeDue ch) s = execSwitchTimeDue ch s := rfl
  simp only [hexec, execSwitchTimeDue, hreq, hlive, hreached, Bool.and_self, if_true]

/-! ## The outcome of an ICV -/

section
variable {f : Nat} {s x y : State} {l : Flight} {k ch ord pn : Nat} {enc stops : Bool} (hlive : live s = true) (hflight : flight s f = some l)
  (hwhole : l.of_ = none) (hgood : l.bad = 0)
include hlive hflight hwhole hgood

section
variable (hicv : l.icv = .waits k ch ord pn true enc stops) (hx : x = countSa (settleIcv s f) kMsOk ch k)
  (hy : y = countSa x (if enc then kMsRxOctets + 2 else kMsRxOctets) ch k l.frame.bytes.length)
include hicv hx hy

/-- A right ICV: the association that stands as it did is the one whose order it had. -/
theorem exec_msecIcvResult_right {o : Option Sa} (ho : (saCtx s k).filter (fun a => a.order == ord) = o) :
    exec (.msecIcvResult f) s = .next (match o with
      | none => y
      | some a =>
        let b := { a with pn := max a.pn (pn + 1), seen := s.sys.ticks + 1 }
        if a.first then setSa y k (some b) else firstVerify (setSa y k (some b)) k b pn) := by
  have hexec : exec (.msecIcvResult f) s = execMsecIcvResult f s := rfl
  have hmsec : y.msec = s.msec := by simp only [hy, hx, countSa, count_msec, settleIcv]
  have hticks : y.sys = s.sys := by simp only [hy, hx, countSa, count_sys, settleIcv]
  have hsa : (saCtx y k).filter (fun a => a.order == ord) = o := by rw [saCtx, hmsec, ← ho, saCtx]
  simp only [hexec, execMsecIcvResult, hflight, hicv, hlive, hwhole, hgood, Option.isSome_none, Bool.not_true, Bool.or_self, Bool.false_eq_true,
    if_false, if_true, ne_eq, not_true_eq_false, ← hx, ← hy, hsa, hticks]
  cases o <;> rfl

theorem exec_msecIcvResult_stands {a b : Sa} (ha : saCtx s k = some a) (horder : a.order = ord)
    (hb : b = { a with pn := max a.pn (pn + 1), seen := s.sys.ticks + 1 }) :
    exec (.msecIcvResult f) s = .next (if a.first then setSa y k (some b) else firstVerify (setSa y k (some b)) k b pn) := by
  rw [exec_msecIcvResult_right hlive hflight hwhole hgood hicv hx hy (o := some a) (by simp [ha, horder]), hb]

theorem exec_msecIcvResult_gone (hgone : ∀ a, saCtx s k = some a → a.order ≠ ord) : exec (.msecIcvResult f) s = .next y := by
  rw [exec_msecIcvResult_right hlive hflight hwhole hgood hicv hx hy (o := none)]
  cases hsa : saCtx s k with
  | none => rfl
  | some a => simp [hgone a hsa]

end

theorem exec_msecIcvResult_wrong (hicv : l.icv = .waits k ch ord pn false enc stops) (hx : x = markInvalid (settleIcv s f) f)
    (hy : y = emit x 0x280010 (l.port.getD 0) ch (pn % 2 ^ 24)) :
    exec (.msecIcvResult f) s = .next (if stops then spoilAll (countSa y kMsInvalid ch k) { l with icv := .none } 1
      else countSa y kMsNotValid ch k) := by
  have hexec : exec (.msecIcvResult f) s = execMsecIcvResult f s := rfl
  simp only [hexec, execMsecIcvResult, hflight, hicv, hlive, hwhole, hgood, Option.isSome_none, Bool.not_true, Bool.or_self, Bool.false_eq_true,
    if_false, ne_eq, not_true_eq_false, ← hx, ← hy]

end

/-! ## Retention and notifications -/

theorem exec_retentionExpiry {c : Fin 4096} {s : State} {a : Sa} (ha : saCtx s c = some a) (hlive : live s = true) (hretain : a.retain = true)
    (hon : rdF s fMSEC_RETAIN_MS10 ≠ 0) (hdue : a.retAt + 6250000 * rdF s fMSEC_RETAIN_MS10 ≤ s.sys.ticks) :
    exec (.retentionExpiry c) s = .next (notify (count (withdraw s c) 0x0a kMsRetire a.ch) 4 c a.ch a.an) := by
  have hexec : exec (.retentionExpiry c) s = execRetentionExpiry c s := rfl
  simp only [hexec, execRetentionExpiry, ha]
  rw [if_pos (by simp [hlive, hretain, hon, hdue])]

theorem exec_msecNoteRetry {s : State} (hlive : live s = true) (hnotes : s.msec.notes ≠ []) (hdue : s.msec.noteAt + 6250 ≤ s.sys.ticks) :
    exec .msecNoteRetry s = .next (retryNotes s.msec.notes.length { s with msec := { s.msec with noteAt := s.sys.ticks } }) := by
  have hexec : exec .msecNoteRetry s = execMsecNoteRetry s := rfl
  rw [hexec, execMsecNoteRetry, if_neg (by simp [hlive, hnotes, hdue])]

/-- Settles O48: switch requests, the outcome of an ICV, retention and notifications. -/
theorem associationsSwitchRetireAndVerify : Obligations.AssociationsSwitchRetireAndVerify := by
  refine ⟨?requests, ?due, fun s ch an a => ?_, fun ch s an i => exec_switchTimeDue, ?icv, fun c s a => exec_retentionExpiry,
    fun s => exec_msecNoteRetry⟩
  case requests =>
    intro e v s x ch an how haccept hgo hch han hhow i hi
    refine ⟨exec_switchCancel haccept hgo hch hhow, fun hrequest hinstant => ?_, fun htimed hns => ?_⟩
    · have hassigned : ¬(how = 2 ∧ 1000000000 ≤ i.2) := by omega
      rw [exec_switchRequest haccept hgo hch han hhow hi hrequest, if_neg hassigned]
      exact ⟨fun hoff => by rw [hoff]; rfl, fun hon => by rw [hon]; rfl⟩
    · rw [exec_switchRequest haccept hgo hch han hhow hi (by omega), if_pos ⟨htimed, hns⟩]
  case due =>
    intro s ch an how i hreq hrole hcur
    refine ⟨trySwitch_absent hreq hrole hcur, fun k a hsa => ?_⟩
    rw [trySwitch_installed hreq hrole hcur hsa]
    exact ⟨fun hunusable hhow => by rw [if_pos hunusable, if_neg hhow], fun husable haway => by rw [husable, haway]; rfl,
      fun husable hresident => by rw [husable, hresident]; rfl⟩
  · rw [txCh_doSwitch]
    exact ⟨rfl, rfl⟩
  case icv =>
    intro f s x y l k ch ord pn enc stops hlive hflight hwhole hgood
    refine ⟨fun hicv hx hy => ⟨fun a b => exec_msecIcvResult_stands hlive hflight hwhole hgood hicv hx hy,
      exec_msecIcvResult_gone hlive hflight hwhole hgood hicv hx hy⟩, exec_msecIcvResult_wrong hlive hflight hwhole hgood⟩

end Sys2Proof.Machine
end

section
/-! Classification: the search of a frame, its entries in the staging words and in the two copies (R392 to R413), and the statement about it. -/
namespace Sys2Proof.Machine

/-! ## Arrays of words -/

/-- Fields at different words of their units lie in different words. -/
theorem fAddr_ne {f g : Fld} {i i' j o : Nat} (hf : f.word + j < 1024) (hg : g.word + o < 1024) (h : g.word + o ≠ f.word + j) :
    fAddr g i' o ≠ fAddr f i j := by
  unfold fAddr uaddr
  omega

section
variable (s : State) (f : Fld) (val : Nat → Nat) (i n : Nat)

/-- Writing words 0 to n - 1 of an array leaves every other word. -/
theorem rdF_foldl_wrF_word {g : Fld} {j o : Nat} (h : ∀ k, k < n → fAddr g j o ≠ fAddr f i k) :
    rdF ((List.range n).foldl (fun s k => wrF s f (val k) i k) s) g j o = rdF s g j o := by
  induction n with
  | zero => rfl
  | succ n ih =>
    rw [List.range_succ, List.foldl_append, List.foldl_cons, List.foldl_nil, rdF_wrF_word _ _ _ _ _ _ _ _ (h n (Nat.lt_succ_self n)),
      ih fun k hk => h k (Nat.lt_succ_of_lt hk)]

/-- A word of an array reads what was written to it. -/
theorem rdF_foldl_wrF_same {k : Nat} (hf : f.lo + f.w ≤ 24) (hn : f.word + n ≤ 1024) (hk : k < n) :
    rdF ((List.range n).foldl (fun s k => wrF s f (val k) i k) s) f i k = val k % 2 ^ f.w := by
  induction n with
  | zero => omega
  | succ n ih =>
    rw [List.range_succ, List.foldl_append, List.foldl_cons, List.foldl_nil]
    by_cases hkn : k = n
    · rw [hkn, rdF_wrF_same _ _ _ _ _ hf]
    · have hne : fAddr f i k ≠ fAddr f i n := by
        unfold fAddr uaddr
        omega
      rw [rdF_wrF_word _ _ _ _ _ _ _ _ hne, ih (by omega) (by omega)]

end

/-- The thirteen words of 24 bits and the last byte of a number of 320 bits make that number. -/
theorem key320_of {w : Nat → Nat} {k : Nat} (hw : ∀ j, j < 13 → w j = bitsOf k (296 - 24 * j) 24) (hlast : bitsOf (w 13) 16 8 = k % 2 ^ 8)
    (hk : k < 2 ^ 320) : key320 w = k := by
  have hsum : ∀ m, m ≤ 13 → (List.range m).foldl (fun n j => n + w j * 2 ^ (296 - 24 * j)) 0 + k % 2 ^ (320 - 24 * m) = k % 2 ^ 320 := by
    intro m hm
    induction m with
    | zero => rw [List.range_zero, List.foldl_nil, Nat.zero_add]
    | succ m ih =>
      have hsplit : k % 2 ^ (320 - 24 * m) = k % 2 ^ (296 - 24 * m) + 2 ^ (296 - 24 * m) * bitsOf k (296 - 24 * m) 24 := by
        rw [show 320 - 24 * m = (296 - 24 * m) + 24 by omega, Nat.pow_add, Nat.mod_mul]
        rfl
      rw [List.range_succ, List.foldl_append, List.foldl_cons, List.foldl_nil, hw m (by omega), ← ih (by omega), hsplit, Nat.mul_comm (2 ^ _),
        show 320 - 24 * (m + 1) = 296 - 24 * m by omega]
      omega
  have h := hsum 13 (Nat.le_refl 13)
  rw [Nat.mod_eq_of_lt hk] at h
  rw [key320, hlast]
  exact h

theorem rdF_unstage320_word (s : State) {f g : Fld} (k : Nat) {j o : Nat} (h : ∀ n, n < 14 → fAddr g j o ≠ fAddr f 0 n) :
    rdF (unstage320 s f k) g j o = rdF s g j o :=
  rdF_foldl_wrF_word s f (fun j => if j < 13 then bitsOf k (296 - 24 * j) 24 else bitsOf k 0 8 * 2 ^ 16) 0 14 h

/-- The staging words that a number makes stand for that number. -/
theorem staged320_unstage320 (s t : State) {f : Fld} {k : Nat} (hf : f.lo = 0 ∧ f.w = 24) (hword : f.word + 14 ≤ 1024) (hk : k < 2 ^ 320)
    (ht : ∀ j, j < 14 → rdF t f 0 j = rdF (unstage320 s f k) f 0 j) : staged320 t f = k := by
  obtain ⟨hlo, hw⟩ := hf
  have hread : ∀ j, j < 14 → rdF t f 0 j = (if j < 13 then bitsOf k (296 - 24 * j) 24 else bitsOf k 0 8 * 2 ^ 16) % 2 ^ f.w := fun j hj =>
    (ht j hj).trans (rdF_foldl_wrF_same s f (fun j => if j < 13 then bitsOf k (296 - 24 * j) 24 else bitsOf k 0 8 * 2 ^ 16) 0 14
      (by omega) hword hj)
  refine key320_of (fun j hj => ?_) ?_ hk
  · rw [hread j (by omega), if_pos hj, hw]
    exact Nat.mod_eq_of_lt (Nat.mod_lt _ (Nat.two_pow_pos 24))
  · rw [hread 13 (by omega), if_neg (by decide), hw]
    unfold bitsOf
    omega

/-! ## Counters of one object -/

/-- A count outside a halt adds to its object's leaf, and beside the aggregate to no other. -/
theorem leaf_count (s : State) {u k o n u' k' o' : Nat} (hlive : s.sys.halted = false) (h : leafKey u' k' o' ≠ leafKey u k aggObj) :
    leaf (count s u k o n) u' k' o' = if leafKey u' k' o' = leafKey u k o then leaf s u k o + n else leaf s u' k' o' := by
  rw [leaf, count, if_neg (ne_true_of_eq_false hlive)]
  show tget (fun _ => 0) (tset (fun _ => 0) (tset (fun _ => 0) s.cnt.leaf (leafKey u k o) (leaf s u k o + n)) (leafKey u k aggObj) _) _ = _
  rw [tget_tset_other _ _ _ h]
  split
  case isTrue heq => rw [heq, tget_tset_same]
  case isFalse hne => rw [tget_tset_other _ _ _ hne, leaf]

/-! ## Frames on their way -/

theorem flight_id {s : State} {f : Nat} {x : Flight} (h : flight s f = some x) : x.id = f := by
  simpa using List.find?_some h

theorem flight_setFlight {s : State} {f : Nat} {x y : Flight} (h : flight s f = some x) (hy : y.id = f) : flight (setFlight s y) f = some y := by
  unfold flight at h ⊢
  simp only [setFlight, List.find?_map]
  have hsame : ((fun z : Flight => z.id == f) ∘ fun z => if z.id = y.id then y else z) = fun z => z.id == f := by
    funext z
    simp only [Function.comp_apply]
    split
    case isTrue heq => rw [heq]
    case isFalse => rfl
  rw [hsame, h, Option.map_some, if_pos ((flight_id (s := s) h).trans hy.symm)]

/-! ## The search -/

section
variable (s : State) (p : Parse) (source : Nat) (prot : Bool)

theorem decideAction_malformed {k : Nat} (hbad : p.bad = some k) :
    decideAction s p source prot = (count s 0x0b (kClsMalformed k) (sourceIndex source), none, 8 + k, fixedAction s (8 + k)) := by
  simp only [decideAction, hbad]

theorem decideAction_row {m : Option Nat}
    (hm : m = firstMatch s (inCopy1 source) (wideLow p) (narrowKey p source (rdF s fCLS_SRCCFG_PMETA 0 (sourceIndex source)) prot))
    (hbad : p.bad = none) {n : Nat} (hn : m = some n) : decideAction s p source prot = (s, some n, 0, (clsRow s (inCopy1 source) n).act) := by
  simp only [decideAction, hbad, ← hm, hn]

theorem decideAction_miss {m : Option Nat}
    (hm : m = firstMatch s (inCopy1 source) (wideLow p) (narrowKey p source (rdF s fCLS_SRCCFG_PMETA 0 (sourceIndex source)) prot))
    (hbad : p.bad = none) (hn : m = none) : decideAction s p source prot = (count s 0x0b kClsMiss (sourceIndex source), none,
      rdF s fCLS_SRCCFG_DEFIDX 0 (sourceIndex source), fixedAction s (rdF s fCLS_SRCCFG_DEFIDX 0 (sourceIndex source))) := by
  simp only [decideAction, hbad, ← hm, hn]

/-- A decision by an entry counts nothing. -/
theorem decideAction_of_entry {n : Nat} (h : (decideAction s p source prot).2.1 = some n) : (decideAction s p source prot).1 = s := by
  unfold decideAction at h ⊢
  cases hbad : p.bad with
  | some k => simp [hbad] at h
  | none =>
    simp only [hbad] at h ⊢
    cases hm : firstMatch s (inCopy1 source) (wideLow p) (narrowKey p source (rdF s fCLS_SRCCFG_PMETA 0 (sourceIndex source)) prot) with
    | none => simp [hm] at h
    | some m => rfl

/-- t is s but for what is counted. -/
def CountsOnly (s t : State) : Prop := { t with cnt := s.cnt } = s

theorem countsOnly_refl (s : State) : CountsOnly s s := rfl

theorem countsOnly_count {s t : State} (h : CountsOnly s t) (u k o n : Nat) : CountsOnly s (count t u k o n) := by
  rw [count_eq]
  exact h

theorem countsOnly_decideAction : CountsOnly s (decideAction s p source prot).1 := by
  unfold decideAction
  extract_lets i copy1
  cases p.bad with
  | some k => exact countsOnly_count (countsOnly_refl s) _ _ _ _
  | none =>
    simp only
    split
    · rfl
    · exact countsOnly_count (countsOnly_refl s) _ _ _ _

end

/-- What a search counts: its entry's frames and bytes, and a fragment. -/
def searchCounted (d : State × Option Nat × Nat × Nat) (p : Parse) (x : Flight) : State :=
  let s := match d.2.1 with
    | some n => count (count d.1 0x0b kClsFrames n) 0x0b kClsBytes n (x.frame.bytes.length + 4)
    | none => d.1
  if p.frag then count s 0x0b kClsFrag (sourceIndex x.frame.source) else s

/-- The frame as its action a leaves it, under flow fl. -/
def searchedFrame (s : State) (x : Flight) (p : Parse) (a fl hash : Nat) : Flight :=
  let t := tget (fun _ => 0) s.cls.ind (bitsOf a 85 4 * 4096 + hash % 4096)
  { x with frame := { x.frame with
    flow := fl, action := a, frag := p.frag, hdr := hdrsOf p, hash := hash % 4096,
    queue := (if bitOf a 89 then t % 2 ^ 14 else (flowRec s fl).queue), txsc := (if bitOf a 89 then t / 2 ^ 14 else (flowRec s fl).txsc) } }

/-- What a discard by the action counts, at its entry or its fixed action. -/
def discardCounted (s : State) (d : State × Option Nat × Nat × Nat) : State :=
  match d.2.1 with
  | some n => count s 0x0b kClsDropped n
  | none => count s 0x0b kClsFixedDrop d.2.2.1

theorem countsOnly_searchCounted {s : State} {d : State × Option Nat × Nat × Nat} (h : CountsOnly s d.1) (p : Parse) (x : Flight) :
    CountsOnly s (searchCounted d p x) := by
  unfold searchCounted
  extract_lets t
  have ht : CountsOnly s t := by
    simp only [t]
    split
    · exact countsOnly_count (countsOnly_count h _ _ _ _) _ _ _ _
    · exact h
  split
  · exact countsOnly_count ht _ _ _ _
  · exact ht

section
variable {f : Nat} {s : State} {x : Flight} (hflight : flight s f = some x) (hlive : live s = true) (hstage : x.stage = 0)
include hflight hlive hstage

theorem exec_clsSearch_disabled (lost : List (Fin 65536)) (hoff : active s 0x0b 0 = false) :
    exec (.clsSearch f lost) s = .next (endHere (count s 0x0b kClsDisabled (sourceIndex x.frame.source)) x) := by
  have hexec : exec (.clsSearch f lost) s = execClsSearch f lost s := rfl
  have hcond : (!live s || decide (x.stage ≠ 0)) = false := by simp [hlive, hstage]
  simp only [hexec, execClsSearch, hflight, hcond, hoff, Bool.false_eq_true, if_false, Bool.not_false, if_true]

variable {lost : List (Fin 65536)} {r u : State} {p : Parse} {d : State × Option Nat × Nat × Nat} {a key hash fl : Nat} {y : Flight}
  (hactive : active s 0x0b 0 = true) (hr : r = lost.foldl (fun s (k : Fin 65536) => loseRow s k.val) s) (hp : p = parse x.frame.bytes)
  (hd : d = decideAction r p x.frame.source x.prot) (ha : a = d.2.2.2)
  (hkey : key = narrowKey p x.frame.source (rdF r fCLS_SRCCFG_PMETA 0 (sourceIndex x.frame.source)) x.prot)
  (hhash : hash = spreadHash p (a / 2 ^ 83 % 4) (rdF r fCLS_HSEED_SEED)) (hu : u = searchCounted d p x) (hfl : fl = flowOf r a key)
  (hy : y = searchedFrame r x p a fl hash) (hcapture : a / 2 ^ 82 % 2 = 0) (hmirror : a / 2 ^ 81 % 2 = 0)
include hactive hr hp hd ha hkey hhash hu hfl hy hcapture hmirror

/-- The search of a frame whose action neither captures nor mirrors it. -/
theorem exec_clsSearch : exec (.clsSearch f lost) s = .next (if bitsOf a 94 2 = 0 ∨ bitsOf a 94 2 = 3
    then endHere (discardCounted (setFlight u y) d) y else flowDecide (setFlight u y) y (flowRec r fl) hash) := by
  have hexec : exec (.clsSearch f lost) s = execClsSearch f lost s := rfl
  have hcapture' : bitOf a 82 = false := by rw [bitOf, bitsOf, pow_one, hcapture]; rfl
  have hmirror' : bitOf a 81 = false := by rw [bitOf, bitsOf, pow_one, hmirror]; rfl
  have hcounts : CountsOnly r u := by
    rw [hu]
    exact countsOnly_searchCounted (by rw [hd]; exact countsOnly_decideAction ..) p x
  have hkeys : u.flow = r.flow := (congrArg State.flow hcounts :)
  have hrec : ∀ n, flowRec u n = flowRec r n := fun n => by rw [flowRec, hkeys, flowRec]
  have hflow : flowOf u a key = fl := by
    have hwords : u.words = r.words := (congrArg State.words hcounts :)
    have hmask : ∀ k, profMask u k = profMask r k := fun k => by simp only [profMask, rdF_congr hwords]
    rw [hfl]
    simp only [flowOf, hmask, emFind, hkeys]
  have hind : u.cls = r.cls := (congrArg State.cls hcounts :)
  have hcond : (!live s || decide (x.stage ≠ 0)) = false := by simp [hlive, hstage]
  have hhash' : hash = spreadHash p (bitsOf a 83 2) (rdF r fCLS_HSEED_SEED) := hhash
  obtain ⟨d1, o, d3, d4⟩ := d
  obtain rfl : a = d4 := ha
  cases o with
  | none =>
    simp only [searchCounted] at hu
    simp only [hexec, execClsSearch, hflight, hcond, hactive, Bool.false_eq_true, if_false, Bool.not_true, ← hr, ← hp, ← hd, ← hkey, ← hhash',
      ← hu, hflow, hrec, hind, hcapture', hmirror', hy, searchedFrame, discardCounted]
    split <;> rfl
  | some n =>
    simp only [searchCounted] at hu
    simp only [hexec, execClsSearch, hflight, hcond, hactive, Bool.false_eq_true, if_false, Bool.not_true, ← hr, ← hp, ← hd, ← hkey, ← hhash',
      ← hu, hflow, hrec, hind, hcapture', hmirror', hy, searchedFrame, discardCounted]
    split <;> rfl

end

/-- A frame that ends here waits for its end, bound for nothing. -/
theorem flight_endHere {s : State} {f : Nat} {x y : Flight} (h : flight s f = some x) (hy : y.id = f) :
    ∃ z, flight (endHere s y) f = some z ∧ z.dest = .none ∧ z.stage = 2 :=
  ⟨_, flight_setFlight h hy, rfl, rfl⟩

/-- The three counts of an entry whose action discards the frame. -/
theorem leaf_discarded {s : State} {n len : Nat} (hn : n < 65536) (hlive : s.sys.halted = false) {t : State}
    (ht : t = count (count (count s 0x0b kClsFrames n) 0x0b kClsBytes n len) 0x0b kClsDropped n) :
    leaf t 0x0b kClsFrames n = leaf s 0x0b kClsFrames n + 1 ∧ leaf t 0x0b kClsDropped n = leaf s 0x0b kClsDropped n + 1 ∧
    leaf t 0x0b kClsBytes n = leaf s 0x0b kClsBytes n + len := by
  have hagg : ∀ j k, j < 3 → k < 3 → leafKey 0x0b j n ≠ leafKey 0x0b k aggObj := by
    intro j k hj hk
    unfold leafKey aggObj
    omega
  have hkey : ∀ j k, leafKey 0x0b j n = leafKey 0x0b k n ↔ j = k := by
    intro j k
    unfold leafKey
    omega
  have hstep : ∀ (r : State) (j k m : Nat), r.sys.halted = false → j < 3 → k < 3 →
      leaf (count r 0x0b k n m) 0x0b j n = if j = k then leaf r 0x0b k n + m else leaf r 0x0b j n := fun r j k m hr hj hk => by
    rw [leaf_count r hr (hagg j k hj hk)]
    simp only [hkey]
  have hlive1 : (count s 0x0b kClsFrames n).sys.halted = false := by rw [count_sys, hlive]
  have hlive2 : (count (count s 0x0b kClsFrames n) 0x0b kClsBytes n len).sys.halted = false := by rw [count_sys, hlive1]
  have hleaf : ∀ j, j < 3 → leaf t 0x0b j n = if j = 2 then leaf s 0x0b 2 n + 1 else if j = 1 then leaf s 0x0b 1 n + len
      else if j = 0 then leaf s 0x0b 0 n + 1 else leaf s 0x0b j n := by
    intro j hj
    subst ht
    rw [kClsDropped, hstep _ j 2 1 hlive2 hj (by decide), kClsBytes, hstep _ 2 1 len hlive1 (by decide) (by decide),
      hstep _ j 1 len hlive1 hj (by decide), kClsFrames, hstep s 2 0 1 hlive (by decide) (by decide),
      hstep s 1 0 1 hlive (by decide) (by decide), hstep s j 0 1 hlive hj (by decide)]
    rfl
  exact ⟨hleaf 0 (by decide), hleaf 2 (by decide), hleaf 1 (by decide)⟩

theorem count_setFlight (s : State) (y : Flight) (u k o n : Nat) : count (setFlight s y) u k o n = setFlight (count s u k o n) y := by
  unfold count
  show (if s.sys.halted = true then _ else _) = _
  split <;> rfl

/-- An entry whose action discards the frame. -/
theorem exec_clsSearch_dropped {f : Nat} {s t : State} {x : Flight} {p : Parse} {d : State × Option Nat × Nat × Nat} {n : Nat}
    (hflight : flight s f = some x) (hlive : live s = true) (hstage : x.stage = 0) (hactive : active s 0x0b 0 = true)
    (hp : p = parse x.frame.bytes) (hd : d = decideAction s p x.frame.source x.prot) (hfrag : p.frag = false) (hentry : d.2.1 = some n)
    (hn : n < 65536) (hact : d.2.2.2 / 2 ^ 94 % 4 = 0) (hcapture : d.2.2.2 / 2 ^ 82 % 2 = 0) (hmirror : d.2.2.2 / 2 ^ 81 % 2 = 0)
    (hhalted : s.sys.halted = false) (ht : exec (.clsSearch f []) s = .next t) :
    (∃ y, flight t f = some y ∧ y.dest = .none ∧ y.stage = 2) ∧ leaf t 0x0b kClsFrames n = leaf s 0x0b kClsFrames n + 1 ∧
      leaf t 0x0b kClsDropped n = leaf s 0x0b kClsDropped n + 1 ∧
      leaf t 0x0b kClsBytes n = leaf s 0x0b kClsBytes n + (x.frame.bytes.length + 4) := by
  rw [exec_clsSearch hflight hlive hstage hactive rfl hp hd rfl rfl rfl rfl rfl rfl hcapture hmirror, if_pos (.inl hact)] at ht
  have hsame : d.1 = s := by
    rw [hd] at hentry ⊢
    exact decideAction_of_entry s p _ _ hentry
  simp only [List.foldl_nil, searchCounted, discardCounted, hentry, hsame, hfrag, Bool.false_eq_true, if_false] at ht
  generalize hy : searchedFrame s x p _ _ _ = y at ht
  have hid : y.id = f := by rw [← hy, ← flight_id hflight]; rfl
  generalize hu : count (count s 0x0b kClsFrames n) 0x0b kClsBytes n (x.frame.bytes.length + 4) = u at ht
  injection ht with ht
  have hflights : flight u f = some x := by rw [← hu, flight, count_flights, count_flights, ← flight, hflight]
  refine ⟨?_, ?_⟩
  · rw [← ht]
    refine flight_endHere (x := y) ?_ hid
    rw [flight, count_flights, ← flight, flight_setFlight hflights hid]
  · have hcnt : t.cnt = (count u 0x0b kClsDropped n).cnt := by
      rw [← ht, count_setFlight]
      rfl
    have h := leaf_discarded hn hhalted (len := x.frame.bytes.length + 4) rfl
    rw [hu] at h
    simp only [leaf, hcnt] at h ⊢
    exact h

/-! ## Writing entries -/

section
variable {e : Eng} {v : Word} {s x : State} (haccept : accept s e false (fAddr fCLS_EGO_WRITE 0 0) v = some x)
include haccept

theorem exec_clsEntryWrite (hwrite : v.getLsbD 0 = true) : exec (.clsEntryWrite e v) s = .next (if entryRefusal x ≠ 0 then eres x 1 (entryRefusal x)
    else { putRows x false (rdF x fCLS_ESEL_INDEX) (stagedRows x) with
      cls := { (putRows x false (rdF x fCLS_ESEL_INDEX) (stagedRows x)).cls with op := some (rdF x fCLS_ESEL_INDEX, stagedRows x) } }) := by
  have hexec : exec (.clsEntryWrite e v) s = execClsEntryWrite e v s := rfl
  have hbit : (!bitOf v.toNat 0) = false := by rw [bitOf_toNat, hwrite]; rfl
  rw [hexec, execClsEntryWrite, hbit, if_neg Bool.false_ne_true, onSet_of_accept _ haccept]

section
variable (hwrite : v.getLsbD 0 = false) (hread : v.getLsbD 1 = true)
include hwrite hread

/-- Row r of copy 0 in the staging words, with the second row of a pair. -/
def entryStaged (x : State) (i : Nat) (r : ClsRow) : State :=
  let s := wrF (wrF x fCLS_ECTL_VALID (b2n r.valid)) fCLS_ECTL_WIDE (b2n r.wide)
  let s := unstage320 (unstage320 s fCLS_EKEYH_K r.key) fCLS_EMSKH_M r.mask
  let s := if r.wide then
      unstage320 (unstage320 s fCLS_EKEYL_K (clsRow s false (i + 1)).key) fCLS_EMSKL_M (clsRow s false (i + 1)).mask
    else s
  (List.range 4).foldl (fun s w => wrF s fCLS_EACT_A (bitsOf r.act (72 - 24 * w) 24) 0 w) s

theorem exec_clsEntryRead : exec (.clsEntryRead e v) s = .next (if x.cls.op.isSome then eres x 1 1
    else eres (entryStaged x (rdF x fCLS_ESEL_INDEX) (clsRow x false (rdF x fCLS_ESEL_INDEX))) 0 0) := by
  have hexec : exec (.clsEntryRead e v) s = execClsEntryRead e v s := rfl
  have hcond : (bitOf v.toNat 0 || !bitOf v.toNat 1) = false := by rw [bitOf_toNat, bitOf_toNat, hwrite, hread]; rfl
  rw [hexec, execClsEntryRead, hcond, if_neg Bool.false_ne_true, onSet_of_accept _ haccept]
  rfl

end
end

section
variable (x : State) (i : Nat) (r : ClsRow)

/-- The second row of a pair and the action are staged apart from the control word, the first key and the first mask. -/
theorem rdF_entryStaged {g : Fld} {j : Nat} (hkeyl : ∀ n, n < 14 → fAddr g 0 j ≠ fAddr fCLS_EKEYL_K 0 n)
    (hmskl : ∀ n, n < 14 → fAddr g 0 j ≠ fAddr fCLS_EMSKL_M 0 n) (hact : ∀ n, n < 4 → fAddr g 0 j ≠ fAddr fCLS_EACT_A 0 n) :
    rdF (entryStaged x i r) g 0 j = rdF (unstage320 (unstage320 (wrF (wrF x fCLS_ECTL_VALID (b2n r.valid)) fCLS_ECTL_WIDE (b2n r.wide))
      fCLS_EKEYH_K r.key) fCLS_EMSKH_M r.mask) g 0 j := by
  unfold entryStaged
  extract_lets s1 s2 s3
  rw [rdF_foldl_wrF_word s3 fCLS_EACT_A (fun w => bitsOf r.act (72 - 24 * w) 24) 0 4 hact]
  simp only [s3]
  split
  · rw [rdF_unstage320_word _ _ hmskl, rdF_unstage320_word _ _ hkeyl]
  · rfl

theorem entryStaged_control : onF (entryStaged x i r) fCLS_ECTL_VALID = r.valid ∧ onF (entryStaged x i r) fCLS_ECTL_WIDE = r.wide := by
  have hword : ∀ g : Fld, g.word = 0x81 → rdF (entryStaged x i r) g 0 0 =
      rdF (wrF (wrF x fCLS_ECTL_VALID (b2n r.valid)) fCLS_ECTL_WIDE (b2n r.wide)) g 0 0 := by
    intro g hg
    have hne : ∀ f : Fld, 0x81 < f.word → f.word < 0x100 → ∀ n, n < 14 → fAddr g 0 0 ≠ fAddr f 0 n := fun f hlow hhigh n hn =>
      fAddr_ne (by omega) (by omega) (by omega)
    rw [rdF_entryStaged x i r (hne _ (by decide) (by decide)) (hne _ (by decide) (by decide))
      (fun n hn => hne _ (by decide) (by decide) n (by omega)), rdF_unstage320_word _ _ (hne _ (by decide) (by decide)),
      rdF_unstage320_word _ _ (hne _ (by decide) (by decide))]
  unfold onF
  rw [hword _ rfl, hword _ rfl, rdF_wrF_same _ _ _ _ _ (by decide),
    rdF_wrF_apart _ fCLS_ECTL_WIDE fCLS_ECTL_VALID _ _ _ _ _ rfl (by decide) (by decide), rdF_wrF_same _ _ _ _ _ (by decide)]
  cases r.valid <;> cases r.wide <;> exact ⟨rfl, rfl⟩

theorem entryStaged_key (hkey : r.key < 2 ^ 320) : staged320 (entryStaged x i r) fCLS_EKEYH_K = r.key := by
  have hne : ∀ f : Fld, 0xa0 ≤ f.word → f.word < 0x100 → ∀ j, j < 14 → ∀ n, n < 14 → fAddr fCLS_EKEYH_K 0 j ≠ fAddr f 0 n :=
    fun f hlow hhigh j hj n hn => fAddr_ne (by omega) (show 0x90 + j < 1024 by omega) (show 0x90 + j ≠ f.word + n by omega)
  refine staged320_unstage320 (wrF (wrF x fCLS_ECTL_VALID (b2n r.valid)) fCLS_ECTL_WIDE (b2n r.wide)) _ ⟨rfl, rfl⟩ (by decide) hkey fun j hj => ?_
  rw [rdF_entryStaged x i r (hne _ (by decide) (by decide) j hj) (hne _ (by decide) (by decide) j hj)
    (fun n hn => hne _ (by decide) (by decide) j hj n (by omega)), rdF_unstage320_word _ _ (hne _ (by decide) (by decide) j hj)]

theorem entryStaged_mask (hmask : r.mask < 2 ^ 320) : staged320 (entryStaged x i r) fCLS_EMSKH_M = r.mask := by
  have hne : ∀ f : Fld, 0xc0 ≤ f.word ∨ f.word + 14 ≤ 0xb0 → f.word < 0x100 → ∀ j, j < 14 → ∀ n, n < 14 → fAddr fCLS_EMSKH_M 0 j ≠ fAddr f 0 n :=
    fun f hapart hhigh j hj n hn => fAddr_ne (by omega) (show 0xb0 + j < 1024 by omega) (show 0xb0 + j ≠ f.word + n by omega)
  exact staged320_unstage320 _ _ ⟨rfl, rfl⟩ (by decide) hmask fun j hj => rdF_entryStaged x i r (hne _ (by decide) (by decide) j hj)
    (hne _ (by decide) (by decide) j hj) (fun n hn => hne _ (by decide) (by decide) j hj n (by omega))

theorem entryStaged_act (hact : r.act < 2 ^ 96) : stagedAct (entryStaged x i r) = r.act := by
  have hread : ∀ k, k < 4 → rdF (entryStaged x i r) fCLS_EACT_A 0 k = bitsOf r.act (72 - 24 * k) 24 % 2 ^ 24 := fun k hk =>
    rdF_foldl_wrF_same _ fCLS_EACT_A (fun w => bitsOf r.act (72 - 24 * w) 24) 0 4 (by decide) (by decide) hk
  rw [stagedAct, hread 0 (by decide), hread 1 (by decide), hread 2 (by decide), hread 3 (by decide)]
  unfold bitsOf
  omega

end

theorem exec_clsEntryWriteDone {s : State} {l : List ClsRow} {i : Nat} (hop : s.cls.op = some (i, l)) (hlive : live s = true) {y : State}
    (hy : y = putRows s true i l) : exec .clsEntryWriteDone s = .next (eres { y with cls := { y.cls with op := none } } 0 0) := by
  have hexec : exec .clsEntryWriteDone s = execClsEntryWriteDone s := rfl
  simp only [hexec, execClsEntryWriteDone, hop, hlive, if_true, ← hy]

theorem exec_hidataWrite {e : Eng} {v : Word} {s x : State} {k : Nat} (haccept : accept s e false (fAddr fCLS_HIDATA_ENTRY 0 0) v = some x)
    (hk : k = rdF x fCLS_HISEL_GROUP * 4096 + rdF x fCLS_HISEL_INDEX) : exec (.hidataWrite e v) s =
      .next (wrF { x with cls := { x.cls with ind := tset (fun _ => 0) x.cls.ind k v.toNat } } fCLS_HISEL_INDEX (rdF x fCLS_HISEL_INDEX + 1)) := by
  have hexec : exec (.hidataWrite e v) s = execHidataWrite e v s := rfl
  rw [hexec, execHidataWrite, onSet_of_accept _ haccept, hk]

theorem exec_clsScrub {s : State} (hlive : live s = true) (row : Fin 65536) (bad0 bad1 : Bool) : exec (.clsScrub row bad0 bad1) s = .next
    (if bad0 && bad1 then loseRow s row else if bad0 then setRow s false row (clsRow s true row)
    else if bad1 then setRow s true row (clsRow s false row) else s) := by
  have hexec : exec (.clsScrub row bad0 bad1) s = execClsScrub row bad0 bad1 s := rfl
  simp only [hexec, execClsScrub, hlive, Bool.not_true, Bool.false_eq_true, if_false, apply_ite Host.Outcome.next]

/-- Settles O49: the search and its counts, the staging words, the two copies and the scrub. -/
theorem classificationSearchesAndWrites : Obligations.ClassificationSearchesAndWrites := by
  refine ⟨?search, ?decide, ?entries, fun s l i hop hlive y => exec_clsEntryWriteDone hop hlive, fun e v s x k => exec_hidataWrite,
    fun row s hlive => ?scrub⟩
  case search =>
    rintro f s x i hflight hlive hstage rfl
    refine ⟨exec_clsSearch_disabled hflight hlive hstage, fun p d hactive hp hd hfrag => ?_,
      fun lost r p d a key hash fl hactive hr hp hd ha hkey hhash hfl hact hcapture hmirror => ?_⟩
    · obtain ⟨t, ht, -⟩ := everyCommandCompletes (.clsSearch f []) s
      exact ⟨t, ht, fun n hentry hn hact hcapture hmirror hhalted =>
        exec_clsSearch_dropped hflight hlive hstage hactive hp hd hfrag hentry hn hact hcapture hmirror hhalted ht⟩
    · have hpass : ¬(bitsOf a 94 2 = 0 ∨ bitsOf a 94 2 = 3) := by
        unfold bitsOf
        omega
      refine ⟨searchCounted d p x, searchedFrame r x p a fl hash, ?_, ?_, rfl, rfl, rfl, rfl, rfl, rfl, fun hplain => ?_⟩
      · rw [exec_clsSearch hflight hlive hstage hactive hr hp hd ha hkey hhash rfl hfl rfl hcapture hmirror, if_neg hpass]
      · exact countsOnly_searchCounted (by rw [hd]; exact countsOnly_decideAction ..) p x
      · have hbit : bitOf a 89 = false := by rw [bitOf, bitsOf, pow_one, hplain]; rfl
        simp only [searchedFrame, hbit, Bool.false_eq_true, if_false, and_self]
  case decide =>
    rintro s p source prot i m rfl hm
    exact ⟨fun k => decideAction_malformed s p source prot, fun n hbad => decideAction_row s p source prot hm hbad, decideAction_miss s p source prot hm⟩
  case entries =>
    rintro e v s x y i haccept rfl
    refine ⟨fun hwrite => ?_, fun hwrite hread => ?_⟩
    · rw [exec_clsEntryWrite haccept hwrite]
      exact ⟨fun hrefused => by rw [if_pos hrefused], fun hadmitted hy => by rw [if_neg (not_not.mpr hadmitted), hy]⟩
    · rw [exec_clsEntryRead haccept hwrite hread]
      refine ⟨fun hbusy => by rw [if_pos hbusy], fun hfree => ?_⟩
      obtain ⟨hvalid, hwide⟩ := entryStaged_control x (rdF x fCLS_ESEL_INDEX) (clsRow x false (rdF x fCLS_ESEL_INDEX))
      exact ⟨_, by rw [hfree]; rfl, hvalid, hwide, entryStaged_key x _ _, entryStaged_mask x _ _, entryStaged_act x _ _⟩

  case scrub =>
    simp only [exec_clsScrub hlive, Bool.and_false, Bool.false_and, Bool.and_self, Bool.false_eq_true, if_false, if_true, and_self]

end Sys2Proof.Machine
end

section
/-! Requests of FGO: READ leaves the staged RSTCR as it is (R423), which refutes the statement about flow requests. -/
namespace Sys2Proof.Machine

/-- The bit of RSTCR after a READ is the bit that was staged before it: no record holds it. -/
theorem onF_flowRecordRead {e : Eng} {v : Word} {s x t : State} (haccept : accept s e false (fAddr fFLOW_FGO_OP 0 0) v = some x)
    (hv : v.toNat % 16 = 2) (hfree : x.flow.op = none) (hrec : flowRec x (rdF x fFLOW_FSEL_FLOW) = flowReset) (hrst : rdF x fFLOW_FREC0_RSTCR = 1)
    (ht : exec (.flowRecordRead e v) s = .next t) : onF t fFLOW_FREC0_RSTCR = true := by
  have hexec : exec (.flowRecordRead e v) s = execFlowRecordRead e v s := rfl
  have hop : bitsOf v.toNat 0 4 = 2 := (bitsOf_zero _ _).trans hv
  simp only [hexec, execFlowRecordRead, flowRequest, hop, ne_eq, not_true_eq_false, if_false, onSet_of_accept _ haccept, hfree, Option.isSome_none,
    Bool.false_eq_true, hrec, hrst, flowReset] at ht
  injection ht with ht
  generalize hy : wrW x (fAddr fFLOW_FREC0_VALID 0 0) _ = y at ht
  have hbit : rdF y fFLOW_FREC0_RSTCR = 1 := by
    rw [← hy, rdF, show fAddr fFLOW_FREC0_RSTCR 0 0 = fAddr fFLOW_FREC0_VALID 0 0 from rfl, rdW_wrW_same]
    rfl
  generalize hz : wrW y (fAddr fFLOW_FREC1_QUEUE 0 0) _ = z at ht
  have hbit' : rdF z fFLOW_FREC0_RSTCR = 1 := by
    rw [← hz, rdF, rdW_wrW_other _ _ (by decide), ← rdF, hbit]
  have hwords : rdF t fFLOW_FREC0_RSTCR = 1 := by
    have hsame : t.words = (wrF (wrF (wrF (wrF z fFLOW_FREC2_CIR 0) fFLOW_FREC3_CBS 0) fFLOW_FREC4_PIR 0) fFLOW_FREC5_PBS 0).words := by rw [← ht]
    rw [rdF_congr hsame,
      rdF_wrF_word _ _ _ _ _ _ _ _ (by decide), rdF_wrF_word _ _ _ _ _ _ _ _ (by decide), rdF_wrF_word _ _ _ _ _ _ _ _ (by decide),
      rdF_wrF_word _ _ _ _ _ _ _ _ (by decide), hbit']
  rw [onF, hwords]
  rfl

/-- A module after a reset with RSTCR staged. -/
def rstcrStaged : State := wrF State.reset fFLOW_FREC0_RSTCR 1

/-- Its engine 0 has a READ of FGO on its way. -/
def readPosted : State := setEng rstcrStaged 0 { eng rstcrStaged 0 with posted := [⟨false, fAddr fFLOW_FGO_OP 0 0, 2, 0⟩] }

theorem accept_readPosted : accept readPosted 0 false (fAddr fFLOW_FGO_OP 0 0) 2 =
    some (setEng readPosted 0 { eng readPosted 0 with posted := [] }) := by
  have hlive : live readPosted = true := rfl
  have hposted : (eng readPosted 0).posted = [⟨false, fAddr fFLOW_FGO_OP 0 0, 2, 0⟩] := by rw [readPosted, eng_setEng_same]
  have htake : takeFirst (fun p : Posted => sameInst p.addr (fAddr fFLOW_FGO_OP 0 0)) [⟨false, fAddr fFLOW_FGO_OP 0 0, 2, 0⟩] =
    some (⟨false, fAddr fFLOW_FGO_OP 0 0, 2, 0⟩, []) := by decide
  simp only [accept, hlive, Bool.not_true, Bool.false_eq_true, if_false, hposted, htake, BEq.rfl, Bool.and_self, if_true]

/-- Refutes O50: a READ of a record leaves RSTCR staged, where the statement has it clear. -/
theorem not_flowRequestsRunOneAtATime : ¬ Obligations.FlowRequestsRunOneAtATime := by
  rintro ⟨-, hrequests, -⟩
  let x := setEng readPosted 0 { eng readPosted 0 with posted := [] }
  obtain ⟨-, hread, -⟩ := hrequests 0 2 readPosted x _ _ _ accept_readPosted rfl rfl rfl
  obtain ⟨t, ht, -, hstaged⟩ := hread rfl
  have hrec : flowRec x (rdF x fFLOW_FSEL_FLOW) = flowReset := rfl
  have hrst : rdF x fFLOW_FREC0_RSTCR = 1 := rdF_wrF_same State.reset fFLOW_FREC0_RSTCR 1 0 0 (by decide)
  have hset := onF_flowRecordRead accept_readPosted rfl rfl hrec hrst ht
  rw [hrec] at hstaged
  obtain ⟨-, hclear⟩ := hstaged (by decide) (by decide) (by decide) (by decide) (by decide) (by decide) (by decide)
  exact ne_true_of_eq_false hclear hset

end Sys2Proof.Machine
end

section
/-! The check-value engine: its operations, their refusals and their completion (R498 to R500, R514), and the statement about them. -/
namespace Sys2Proof.Machine

/-! ## Bytes in words, words in result words -/

theorem length_packWords (l : List Byte) : (packWords l).length = (l.length + 2) / 3 := by
  induction l using packWords.induct with
  | case1 => simp [packWords]
  | case2 a => simp [packWords]
  | case3 a b => simp [packWords]
  | case4 a b c l ih =>
    rw [packWords, List.length_cons, ih]
    simp only [List.length_cons]
    omega

/-- Three bytes stand in a word, the first on top. -/
theorem byte_packWords (l : List Byte) {b : Nat} (hb : b < l.length) :
    ((packWords l).getD (b / 3) 0).toNat / 2 ^ (16 - 8 * (b % 3)) % 256 = (l.getD b 0).toNat := by
  have hword : ∀ (x y z : Byte), (wd (x.toNat * 65536 + y.toNat * 256 + z.toNat)).toNat = x.toNat * 65536 + y.toNat * 256 + z.toNat := by
    intro x y z
    rw [wd, BitVec.toNat_ofNat, Nat.mod_eq_of_lt (by have := x.isLt; have := y.isLt; have := z.isLt; omega)]
  have hthree : ∀ (x y z : Byte) (j : Nat), j < 3 → (wd (x.toNat * 65536 + y.toNat * 256 + z.toNat)).toNat / 2 ^ (16 - 8 * j) % 256 =
      ([x, y, z].getD j 0).toNat := by
    intro x y z j hj
    have hx := x.isLt
    have hy := y.isLt
    have hz := z.isLt
    rw [hword]
    match j, hj with
    | 0, _ => simp; omega
    | 1, _ => simp; omega
    | 2, _ => simp; omega
  induction l using packWords.induct generalizing b with
  | case1 => exact absurd hb (Nat.not_lt_zero b)
  | case2 x =>
    obtain rfl : b = 0 := by simpa using hb
    simpa [packWords] using hthree x 0 0 0 (by decide)
  | case3 x y =>
    have h := hthree x y 0 b (by simp at hb; omega)
    simp only [List.length_cons, List.length_nil] at hb
    have hb' : b = 0 ∨ b = 1 := by omega
    rcases hb' with rfl | rfl
    · simpa [packWords] using h
    · simpa [packWords] using h
  | case4 x y z l ih =>
    by_cases hlow : b < 3
    · have h := hthree x y z b hlow
      rw [packWords, Nat.div_eq_of_lt hlow, Nat.mod_eq_of_lt hlow, List.getD_cons_zero, h]
      match b, hlow with
      | 0, _ => rfl
      | 1, _ => rfl
      | 2, _ => rfl
    · obtain ⟨n, rfl⟩ : ∃ n, b = n + 3 := ⟨b - 3, by omega⟩
      rw [packWords, show (n + 3) / 3 = n / 3 + 1 by omega, show (n + 3) % 3 = n % 3 by omega, List.getD_cons_succ,
        ih (by simpa using hb)]
      rfl

theorem rdW_result_other (s : State) (f : Fld) (v i off : Nat) {a : Nat} (h : a ≠ fAddr f i off) : rdW (result s f v i off) a = rdW s a :=
  rdW_wrW_other s _ h

theorem rdW_result_same (s : State) (f : Fld) (v i off : Nat) : rdW (result s f v i off) (fAddr f i off) = wd v := rdW_wrW_same s _ _

/-- A result word is ready once it has been written, and stays so when others are. -/
theorem isReady_result (s : State) (f : Fld) (v i off a : Nat) : isReady (result s f v i off) a = (decide (a = fAddr f i off) || isReady s a) := by
  show tget (fun _ => false) (tset (fun _ => false) s.ctl.ready (fAddr f i off) true) a = _
  by_cases h : a = fAddr f i off
  · rw [h, tget_tset_same, decide_eq_true rfl, Bool.true_or]
  · rw [tget_tset_other _ _ _ h, decide_eq_false h, Bool.false_or, isReady]

section
variable (s : State) (f : Fld) (i : Nat) (l : List Word)

theorem rdW_foldl_result {k : Nat} (hl : f.word + l.length ≤ 1024) (hk : k < l.length) :
    rdW (l.zipIdx.foldl (fun s w => result s f w.1.toNat i w.2) s) (fAddr f i k) = l.getD k 0 := by
  induction l using List.reverseRecOn with
  | nil => exact absurd hk (Nat.not_lt_zero k)
  | append_singleton l x ih =>
    rw [List.length_append, List.length_singleton] at hl hk
    rw [List.zipIdx_append, List.foldl_append]
    simp only [List.zipIdx_singleton, List.foldl_cons, List.foldl_nil, Nat.zero_add]
    by_cases hlast : k = l.length
    · rw [hlast, rdW_result_same, wd_toNat]
      simp
    · rw [rdW_result_other _ _ _ _ _ (fAddr_ne (by omega) (by omega) (by omega)), ih (by omega) (by omega)]
      simp [List.getD_eq_getElem?_getD, List.getElem?_append_left (show k < l.length by omega)]

theorem isReady_foldl_result {k : Nat} (hk : k < l.length) :
    isReady (l.zipIdx.foldl (fun s w => result s f w.1.toNat i w.2) s) (fAddr f i k) = true := by
  induction l using List.reverseRecOn with
  | nil => exact absurd hk (Nat.not_lt_zero k)
  | append_singleton l x ih =>
    rw [List.length_append, List.length_singleton] at hk
    rw [List.zipIdx_append, List.foldl_append]
    simp only [List.zipIdx_singleton, List.foldl_cons, List.foldl_nil, Nat.zero_add]
    rw [isReady_result]
    by_cases hlast : k = l.length
    · rw [hlast, decide_eq_true rfl, Bool.true_or]
    · rw [ih (by omega), Bool.or_true]

end

/-! ## A request and its refusals -/

/-- The code with which CGO is refused under slot k, in the order of assumption log 22. -/
def cgoRefusal (y : State) (e : Eng) (l : Lan) (op cls : Nat) (k : KeySlot) (lenOk dirOk : Bool) : Option Nat :=
  if !active y 0x12 l then some 8
  else if (tget (fun _ => none) y.chk l).isSome then some 6
  else if lanternOf e != l.val then some 7
  else if op == 6 && !(eng y e).kp then some 9
  else if !lenOk then some 5
  else if !k.valid || k.bad then some 3
  else if k.cls != cls || !dirOk then some 4
  else none

theorem find_code_cons (b : Bool) (c : Nat) (l : List (Bool × Nat)) :
    (((b, c) :: l).find? fun y => y.1).map (fun y => y.2) = if b then some c else (l.find? fun y => y.1).map fun y => y.2 := by
  cases b <;> rfl

section
variable {e : Eng} {l : Lan} {v : BitVec 24} {s x y : State} {k : KeySlot} {op : Nat} (haccept : accept s e false (fAddr fCHK_CGO_GO l 0) v = some x)
  (hgo : v.getLsbD 0 = true) (hop : rdF s fCHK_COP_OP l = op) (hy : y = count x 0x12 (kChkOp op) l) (hk : k = keySlot y (rdF y fCHK_CSLOT_SLOT l))
include haccept hgo hop hy hk

/-- A request is refused by the first rule it breaks, else what the operation makes is held. -/
theorem onCgo_eq (cls : Nat) (lengthOk : State → Bool) (dirOk : KeySlot → Bool) (more : State → Option Nat) (f : State → KeySlot → ChkOp) :
    onCgo s e l v op cls lengthOk dirOk more f = .next ((cgoRefusal y e l op cls k (lengthOk y) (dirOk k) <|> more y).elim
      { y with chk := tset (fun _ => none) y.chk l (some (f y k)) } fun c => chkRes y l c 0) := by
  have hcond : (!bitOf v.toNat 0 || rdF s fCHK_COP_OP l != op) = false := by rw [bitOf_toNat, hgo, hop]; simp
  rw [onCgo, hcond, if_neg Bool.false_ne_true, onSet_of_accept _ haccept, cgoRefusal]
  simp only [← hy, ← hk, find_code_cons, List.find?_nil, Option.map_none]
  split
  case _ c hc => rw [hc, Option.elim_some]
  case _ hc => rw [hc, Option.elim_none]

end

section
variable {e : Eng} {l : Lan} {y t : State} {k : KeySlot} {op cls : Nat} {lenOk dirOk : Bool} {o : Out}
  (ho : o = .next ((cgoRefusal y e l op cls k lenOk dirOk).elim t fun c => chkRes y l c 0)) (hop : op ≠ 6)
include ho

theorem cgo_disabled (hoff : active y 0x12 l = false) : o = .next (chkRes y l 8 0) := by
  rw [ho, cgoRefusal, hoff]
  rfl

section
variable (hon : active y 0x12 l = true)
include hon

theorem cgo_busy (hbusy : (tget (fun _ => none) y.chk l).isSome = true) : o = .next (chkRes y l 6 0) := by
  rw [ho, cgoRefusal, hon, hbusy]
  rfl

variable (hfree : tget (fun _ => none) y.chk l = none)
include hfree

theorem cgo_lantern (hlantern : lanternOf e ≠ l.val) : o = .next (chkRes y l 7 0) := by
  rw [ho, cgoRefusal, hon, hfree, if_neg (by decide), if_neg (by decide), if_pos (bne_iff_ne.mpr hlantern)]
  rfl

variable (hlantern : lanternOf e = l.val)
include hop hlantern

/-- What is left to refuse at an active, free unit of the engine's own lantern. -/
theorem cgo_own : o = .next ((if !lenOk then some 5 else if !k.valid || k.bad then some 3 else if k.cls != cls || !dirOk then some 4 else none).elim t
    fun c => chkRes y l c 0) := by
  have hown : (lanternOf e != l.val) = false := by simp [hlantern]
  have hkey : (op == 6 && !(eng y e).kp) = false := by simp [hop]
  rw [ho, cgoRefusal, hon, hfree, hown, hkey, if_neg (by decide), if_neg (by decide), if_neg (by decide), if_neg (by decide)]

/-- The refusals by length, slot and class, and the request that none refuses. -/
theorem cgo_outcomes : (lenOk = false → o = .next (chkRes y l 5 0)) ∧
    (lenOk = true → k.valid = false ∨ k.bad = true → o = .next (chkRes y l 3 0)) ∧
    (lenOk = true → k.valid = true → k.bad = false → k.cls ≠ cls ∨ dirOk = false → o = .next (chkRes y l 4 0)) ∧
    (lenOk = true → k.valid = true → k.bad = false → k.cls = cls → dirOk = true → o = .next t) := by
  rw [cgo_own ho hop hon hfree hlantern]
  refine ⟨fun hlen => by rw [hlen]; rfl, fun hlen hslot => ?_, fun hlen hvalid hbad hcls => ?_, fun hlen hvalid hbad hcls hdir => ?_⟩
  · have hslot' : (!k.valid || k.bad) = true := by rcases hslot with h | h <;> simp [h]
    rw [hlen, hslot']
    rfl
  · have hcls' : (k.cls != cls || !dirOk) = true := by rcases hcls with h | h <;> simp [h]
    rw [hlen, hvalid, hbad, hcls']
    rfl
  · have hcls' : (k.cls != cls || !dirOk) = false := by simp [hcls, hdir]
    rw [hlen, hvalid, hbad, hcls']
    rfl

end
end

section
variable {e : Eng} {l : Lan} {y : State} {k : KeySlot} {op : Nat} (hon : active y 0x12 l = true) (hfree : tget (fun _ => none) y.chk l = none)
  (hlantern : lanternOf e = l.val) (hvalid : k.valid = true) (hbad : k.bad = false) (hcls : k.cls = 2)
include hon hfree hlantern hvalid hbad hcls

/-- A request of a WRAP slot that breaks no rule of CGO. -/
theorem cgoRefusal_none {lenOk dirOk : Bool} (hkp : op = 6 → (eng y e).kp = true) (hlen : lenOk = true) (hdir : dirOk = true) :
    cgoRefusal y e l op 2 k lenOk dirOk = none := by
  have hkey : (op == 6 && !(eng y e).kp) = false := by
    by_cases h : op = 6
    · rw [hkp h]; simp
    · simp [h]
  simp only [cgoRefusal, hon, hfree, hlantern, hkey, hlen, hdir, hvalid, hbad, hcls, bne_self_eq_false, Bool.not_true, Bool.or_self,
    Option.isSome_none, Bool.false_eq_true, if_false]

end

/-- Whether the bytes of a WRAP-DATA are so many as it takes, and fit. -/
def wrapLen (l : Nat) (s : State) : Bool :=
  let n := rdF s fCHK_CLEN_N l
  1 ≤ n && n ≤ 4088 && chkFits (rdF s fCHK_CIN_ADDR l) n && chkFits (rdF s fCHK_COUT_ADDR l) (max 16 (8 + (n + 7) / 8 * 8))

/-- Whether the bytes of an UNWRAP-DATA are so many as it takes, and fit. -/
def unwrapLen (l : Nat) (s : State) : Bool :=
  let n := rdF s fCHK_CLEN_N l
  16 ≤ n && n ≤ 4096 && n % 8 == 0 && chkFits (rdF s fCHK_CIN_ADDR l) n && chkFits (rdF s fCHK_COUT_ADDR l) (n - 8)

/-- What an UNWRAP-DATA makes: the data, or code 2. -/
def unwrapOp (l : Nat) (s : State) (x : KeySlot) : ChkOp :=
  match unwrapData (slotKey x) (chkInput s l) with
  | some d => outOf s l d
  | none => chkPlain 2

theorem exec_wrapData (e : Eng) (l : Lan) (v : BitVec 24) (s : State) : exec (.wrapData e l v) s =
    onCgo s e l v 7 2 (wrapLen l) mayWrap (fun _ => none) fun s x => outOf s l (wrapData (slotKey x) (chkInput s l)) := rfl

theorem exec_unwrapData (e : Eng) (l : Lan) (v : BitVec 24) (s : State) : exec (.unwrapData e l v) s =
    onCgo s e l v 8 2 (unwrapLen l) mayUnwrap (fun _ => none) (unwrapOp l) := rfl

section
variable {e : Eng} {l : Lan} {v : BitVec 24} {s x y : State} {k k' : KeySlot} {op : Nat} (haccept : accept s e false (fAddr fCHK_CGO_GO l 0) v = some x)
  (hgo : v.getLsbD 0 = true) (hop : rdF s fCHK_COP_OP l = op) (hy : y = count x 0x12 (kChkOp op) l) (hk : k = keySlot y (rdF y fCHK_CSLOT_SLOT l))
include haccept hgo hop hy hk

/-- The request of each operation that needs no more than its slot: what its words say of it, by number. -/
theorem exec_cgo {cls : Nat} {lenOk dirOk : Bool} {r : ChkOp} {c : Instr} (hc :
    (op = 1 ∧ c = .cmacGen e l v ∧ cls = 0 ∧ lenOk = macLen l y ∧ dirOk = true ∧ r = tagOf y l (chkCmac y l k)) ∨
    (op = 2 ∧ c = .cmacVer e l v ∧ cls = 1 ∧ lenOk = macLen l y ∧ dirOk = true ∧ r = verOf y l (chkCmac y l k)) ∨
    (op = 3 ∧ c = .gmacGen e l v ∧ cls = 0 ∧ lenOk = macLen l y ∧ dirOk = true ∧ r = tagOf y l (chkGmac y l k)) ∨
    (op = 4 ∧ c = .gmacVer e l v ∧ cls = 1 ∧ lenOk = macLen l y ∧ dirOk = true ∧ r = verOf y l (chkGmac y l k)) ∨
    (op = 7 ∧ c = .wrapData e l v ∧ cls = 2 ∧ dirOk = mayWrap k ∧ r = outOf y l (wrapData (slotKey k) (chkInput y l)) ∧
      lenOk = (decide (1 ≤ rdF y fCHK_CLEN_N l) && decide (rdF y fCHK_CLEN_N l ≤ 4088) && chkFits (rdF y fCHK_CIN_ADDR l) (rdF y fCHK_CLEN_N l) &&
        chkFits (rdF y fCHK_COUT_ADDR l) (max 16 (8 + (rdF y fCHK_CLEN_N l + 7) / 8 * 8)))) ∨
    (op = 8 ∧ c = .unwrapData e l v ∧ cls = 2 ∧ dirOk = mayUnwrap k ∧
      r = (match unwrapData (slotKey k) (chkInput y l) with | some d => outOf y l d | none => chkPlain 2) ∧
      lenOk = (decide (16 ≤ rdF y fCHK_CLEN_N l) && decide (rdF y fCHK_CLEN_N l ≤ 4096) && rdF y fCHK_CLEN_N l % 8 == 0 &&
        chkFits (rdF y fCHK_CIN_ADDR l) (rdF y fCHK_CLEN_N l) && chkFits (rdF y fCHK_COUT_ADDR l) (rdF y fCHK_CLEN_N l - 8)))) :
    exec c s = .next ((cgoRefusal y e l op cls k lenOk dirOk).elim { y with chk := tset (fun _ => none) y.chk l (some r) } fun c => chkRes y l c 0) ∧
      op ≠ 6 := by
  have hrun : ∀ cls lengthOk dirOk f, onCgo s e l v op cls lengthOk dirOk (fun _ => none) f =
      .next ((cgoRefusal y e l op cls k (lengthOk y) (dirOk k)).elim { y with chk := tset (fun _ => none) y.chk l (some (f y k)) }
        fun c => chkRes y l c 0) := fun cls lengthOk dirOk f => by
    rw [onCgo_eq haccept hgo hop hy hk]
    cases cgoRefusal y e l op cls k (lengthOk y) (dirOk k) <;> rfl
  rcases hc with ⟨rfl, rfl, rfl, rfl, rfl, rfl⟩ | ⟨rfl, rfl, rfl, rfl, rfl, rfl⟩ | ⟨rfl, rfl, rfl, rfl, rfl, rfl⟩ | ⟨rfl, rfl, rfl, rfl, rfl, rfl⟩ |
    ⟨rfl, rfl, rfl, rfl, rfl, rfl⟩ | ⟨rfl, rfl, rfl, rfl, rfl, rfl⟩
  · exact ⟨hrun 0 (macLen l) (fun _ => true) fun s x => tagOf s l (chkCmac s l x), by decide⟩
  · exact ⟨hrun 1 (macLen l) (fun _ => true) fun s x => verOf s l (chkCmac s l x), by decide⟩
  · exact ⟨hrun 0 (macLen l) (fun _ => true) fun s x => tagOf s l (chkGmac s l x), by decide⟩
  · exact ⟨hrun 1 (macLen l) (fun _ => true) fun s x => verOf s l (chkGmac s l x), by decide⟩
  · exact ⟨(exec_wrapData e l v s).trans (hrun 2 (wrapLen l) mayWrap fun s x => outOf s l (wrapData (slotKey x) (chkInput s l))), by decide⟩
  · exact ⟨(exec_unwrapData e l v s).trans (hrun 2 (unwrapLen l) mayUnwrap (unwrapOp l)), by decide⟩

section
variable (hon : active y 0x12 l = true) (hfree : tget (fun _ => none) y.chk l = none) (hlantern : lanternOf e = l.val) (hvalid : k.valid = true)
  (hbad : k.bad = false) (hcls : k.cls = 2)
include hon hfree hlantern hvalid hbad hcls

theorem exec_wrapKey (hwrap : op = 5) (hdir : mayWrap k = true) (hk' : k' = keySlot y (rdF y fCHK_CKSRC_SLOT l))
    (hfits : chkFits (rdF y fCHK_COUT_ADDR l) ((slotKey k').length + 8) = true) (hvalid' : k'.valid = true) (hbad' : k'.bad = false)
    (hexp : k'.exp = true) : exec (.wrapKey e l v) s =
      .next { y with chk := tset (fun _ => none) y.chk l (some (outOf y l (wrapKey (slotKey k) (slotKey k')))) } := by
  have hexec : exec (.wrapKey e l v) s = execWrapKey e l v s := rfl
  subst hwrap hk'
  have hnone := cgoRefusal_none (op := 5) hon hfree hlantern hvalid hbad hcls (fun h => absurd h (by decide)) hfits hdir
  simp only [hexec, execWrapKey, onCgo_eq haccept hgo hop hy hk, hnone, hvalid', hbad', hexp, Bool.not_true, Bool.or_self, Bool.false_eq_true,
    if_false]
  rfl

variable (hunwrap : op = 6) (hdir : mayUnwrap k = true) (hkp : (eng y e).kp = true)
  (hlength : rdF y fCHK_CLEN_N l = (if (ctAttr y l).testBit 2 then 40 else 24))
  (hfits : chkFits (rdF y fCHK_CIN_ADDR l) (rdF y fCHK_CLEN_N l) = true) (htarget : rdF y fCHK_CTSLOT_SLOT l ≠ 0) (hattr : attrOk (ctAttr y l) = true)
include hunwrap hdir hkp hlength hfits htarget hattr

theorem exec_unwrapKey {o : Option (List Nat)} (ho : unwrapKey (slotKey k) (chkInput y l) = o) : exec (.unwrapKey e l v) s =
    .next { y with chk := tset (fun _ => none) y.chk l (some (o.elim (chkPlain 2) fun d =>
      { chkPlain 0 with slot := some (rdF y fCHK_CTSLOT_SLOT l, numOf (d ++ List.replicate (32 - d.length) 0)) })) } := by
  have hexec : exec (.unwrapKey e l v) s = execUnwrapKey e l v s := rfl
  subst hunwrap
  have hlen : (rdF y fCHK_CLEN_N l == (if bitOf (ctAttr y l) 2 then 40 else 24) && chkFits (rdF y fCHK_CIN_ADDR l) (rdF y fCHK_CLEN_N l)) = true := by
    rw [bitOf_eq_testBit, ← hlength, hfits, BEq.rfl]
    rfl
  have hnone := cgoRefusal_none (op := 6) hon hfree hlantern hvalid hbad hcls (fun _ => hkp) hlen hdir
  have htarget' : ¬((decide (rdF y fCHK_CTSLOT_SLOT l = 0) || !attrOk (ctAttr y l)) = true) := by simp [htarget, hattr]
  simp only [hexec, execUnwrapKey, onCgo_eq haccept hgo hop hy hk, hnone, htarget', ho, Bool.false_eq_true, if_false]
  cases o <;> rfl

end
end

/-! ## Completion -/

/-- CRES says the code, and every other word reads as before. -/
theorem chkRes_words (s : State) (l code n : Nat) : rdF (chkRes s l code n) fCHK_CRES_CODE l = code % 16 ∧
    (∀ a, a ≠ fAddr fCHK_CRES_CODE l 0 → rdW (chkRes s l code n) a = rdW s a) ∧ ∀ a, isReady s a = true → isReady (chkRes s l code n) a = true := by
  have hwords : (chkRes s l code n).words = (result s fCHK_CRES_CODE (code + 16 * n) l).words := count_words ..
  have hctl : (chkRes s l code n).ctl = (result s fCHK_CRES_CODE (code + 16 * n) l).ctl := count_ctl ..
  refine ⟨?_, fun a ha => ?_, fun a ha => ?_⟩
  · rw [rdF_congr hwords, rdF, rdW_result_same, wd, BitVec.toNat_ofNat]
    show bitsOf _ 0 4 = _
    rw [bitsOf_zero]
    omega
  · rw [rdW, hwords]
    exact rdW_result_other s _ _ _ _ ha
  · rw [isReady, hctl]
    show isReady (result s fCHK_CRES_CODE (code + 16 * n) l) a = true
    rw [isReady_result, ha, Bool.or_true]

/-- A slot written leaves the unit words and what is ready. -/
theorem writeSlot_words (s : State) (n key attr life_ : Nat) (measured : Bool) :
    (writeSlot s n key attr life_ measured).words = s.words ∧ (writeSlot s n key attr life_ measured).ctl = s.ctl := by
  have hchanged : ∀ t : State, (slotChanged t n).words = t.words ∧ (slotChanged t n).ctl = t.ctl := by
    intro t
    unfold slotChanged
    refine ⟨foldl_keeps State.words ?_ _ t, foldl_keeps State.ctl ?_ _ t⟩
    · intro u x
      split <;> rfl
    · intro u x
      split <;> rfl
  exact hchanged _

section
variable {l : Lan} {s x : State} {r : ChkOp} (hchk : tget (fun _ => none) s.chk l = some r) (hlive : live s = true)
  (hx : x = putShared { s with chk := tset (fun _ => none) s.chk l none } l r.out r.bytes)
include hchk hlive hx

theorem exec_chkOpComplete_plain (htag : r.tag = []) (hslot : r.slot = none) :
    exec (.chkOpComplete l) s = .next (chkRes (if r.code = 2 then emit0 x 0x480010 else x) l r.code r.bytes.length) := by
  have hexec : exec (.chkOpComplete l) s = execChkOpComplete l s := rfl
  simp only [hexec, execChkOpComplete, hchk, hlive, Bool.not_true, Bool.false_eq_true, if_false, htag, hslot, if_true, ← hx]

theorem exec_chkOpComplete_slot {n k : Nat} (htag : r.tag = []) (hslot : r.slot = some (n, k)) (hcode : r.code = 0) :
    exec (.chkOpComplete l) s = .next (chkRes (writeSlot x n k (ctAttr x l) (rdF x fCHK_CTLIFE_LIFE l) false) l 0 r.bytes.length) := by
  have hexec : exec (.chkOpComplete l) s = execChkOpComplete l s := rfl
  simp only [hexec, execChkOpComplete, hchk, hlive, Bool.not_true, Bool.false_eq_true, if_false, htag, hslot, hcode, if_true, ← hx,
    show ¬(0 = 2) by decide]

/-- The tag's words are results, and after them a slot and CRES leave them as they are. -/
theorem exec_chkOpComplete_tag (htag : r.tag ≠ []) : ∃ t n, exec (.chkOpComplete l) s = .next (chkRes t l r.code n) ∧
    t.words = ((packWords (r.tag ++ (takeBytes (18 - r.tag.length) x).1)).zipIdx.foldl (fun s w => result s fCHK_CTAGOUT_T w.1.toNat l w.2)
      (takeBytes (18 - r.tag.length) x).2).words ∧
    t.ctl = ((packWords (r.tag ++ (takeBytes (18 - r.tag.length) x).1)).zipIdx.foldl (fun s w => result s fCHK_CTAGOUT_T w.1.toNat l w.2)
      (takeBytes (18 - r.tag.length) x).2).ctl := by
  have hexec : exec (.chkOpComplete l) s = execChkOpComplete l s := rfl
  generalize hy : (packWords (r.tag ++ (takeBytes (18 - r.tag.length) x).1)).zipIdx.foldl (fun s w => result s fCHK_CTAGOUT_T w.1.toNat l w.2)
    (takeBytes (18 - r.tag.length) x).2 = y
  simp only [hexec, execChkOpComplete, hchk, hlive, Bool.not_true, Bool.false_eq_true, if_false, if_neg htag, ← hx, hy]
  refine ⟨_, _, rfl, ?_, ?_⟩
  · cases r.slot with
    | none => split <;> simp
    | some p => split <;> simp [writeSlot_words]
  · cases r.slot with
    | none => split <;> simp
    | some p => split <;> simp [writeSlot_words]

end

/-- Settles O54: the eight operations of CGO, their refusals, and what a completion writes. -/
theorem checkValuesAreMadeAndVerified : Obligations.CheckValuesAreMadeAndVerified := by
  refine ⟨?requests, ?keys, ?completion⟩
  case requests =>
    intro e l v s x y k op cls lenOk dirOk r c haccept hgo hop hy hk hc
    obtain ⟨hrun, hne⟩ := exec_cgo haccept hgo hop hy hk hc
    refine ⟨cgo_disabled hrun, cgo_busy hrun, fun hon hfree => ?_⟩
    have hown := fun hlantern => cgo_outcomes hrun hne hon hfree hlantern
    simp only [forall_and] at hown
    obtain ⟨hlength, hslot, hclass, htaken⟩ := hown
    refine ⟨cgo_lantern hrun hon hfree, hlength, hslot, hclass, fun hlantern hlen hvalid hbad hcls hdir t ht => ?_⟩
    · have hc' := htaken hlantern hlen hvalid hbad hcls hdir
      rw [← ht] at hc'
      rcases hc with ⟨rfl, rfl, -⟩ | ⟨rfl, rfl, -⟩ | ⟨rfl, rfl, -⟩ | ⟨rfl, rfl, -⟩ | ⟨rfl, rfl, -⟩ | ⟨rfl, rfl, -⟩
      all_goals simp [hc']
  case keys =>
    intro e l v s x y k k' op haccept hgo hop hy hk hon hfree hlantern hvalid hbad hcls
    refine ⟨exec_wrapKey haccept hgo hop hy hk hon hfree hlantern hvalid hbad hcls, fun hunwrap hdir hkp hlength hfits htarget hattr => ⟨fun d r hd hr => ?_,
      fun hfails => ?_⟩⟩
    · rw [exec_unwrapKey haccept hgo hop hy hk hon hfree hlantern hvalid hbad hcls hunwrap hdir hkp hlength hfits htarget hattr hd, hr]
      rfl
    · rw [exec_unwrapKey haccept hgo hop hy hk hon hfree hlantern hvalid hbad hcls hunwrap hdir hkp hlength hfits htarget hattr hfails]
      rfl
  case completion =>
    intro l s x r hchk hlive hx
    refine ⟨exec_chkOpComplete_plain hchk hlive hx, fun n k => exec_chkOpComplete_slot hchk hlive hx, fun htag => ?_⟩
    obtain ⟨t, n, hrun, hwords, hctl⟩ := exec_chkOpComplete_tag hchk hlive hx htag
    obtain ⟨hcode, hother, hready⟩ := chkRes_words t l r.code n
    have hlength := length_packWords (r.tag ++ (takeBytes (18 - r.tag.length) x).1)
    rw [List.length_append, length_takeBytes] at hlength
    refine ⟨_, hrun, hcode, fun k hk => hready _ ?_, fun b hmax hb => ?_⟩
    · rw [isReady, hctl]
      exact isReady_foldl_result _ _ _ _ (by omega)
    · have hword : rdW t (fAddr fCHK_CTAGOUT_T l (b / 3)) = (packWords (r.tag ++ (takeBytes (18 - r.tag.length) x).1)).getD (b / 3) 0 := by
        rw [rdW, hwords]
        exact rdW_foldl_result _ _ _ _ (show 0x26 + _ ≤ 1024 by omega) (by omega)
      rw [hother _ (fAddr_ne (show 0x25 + 0 < 1024 by decide) (show 0x26 + b / 3 < 1024 by omega) (show 0x26 + b / 3 ≠ 0x25 + 0 by omega)), hword,
        byte_packWords _ (by rw [List.length_append]; omega), List.getD_eq_getElem?_getD, List.getD_eq_getElem?_getD, List.getElem?_append_left hb]

end Sys2Proof.Machine
end

section
/-! Time: the counter's tick, snapshots, adjustments, references, timing inputs and outputs, and the triggers (R517 to R547), and the statement
about them. -/
namespace Sys2Proof.Machine

/-! ## The counter -/

/-- A tick adds its increment; seconds carry, and a carry past 2^72 would be lost. -/
theorem timeUnits_countTick {s : State} (hpos : 0 ≤ increment s)
    (hbound : timeUnits s + increment s < ((2 ^ 72 * 1000000000 * 2 ^ 40 : Nat) : Int)) : timeUnits (countTick s) = timeUnits s + increment s := by
  obtain ⟨i, hi⟩ := Int.eq_ofNat_of_zero_le hpos
  have hcounted : (countTick s).time.sec = (s.time.sec + (s.time.ns + (s.time.frac + (increment s).toNat) / 2 ^ 40) / 1000000000) % 2 ^ 72 ∧
      (countTick s).time.ns = (s.time.ns + (s.time.frac + (increment s).toNat) / 2 ^ 40) % 1000000000 ∧
      (countTick s).time.frac = (s.time.frac + (increment s).toNat) % 2 ^ 40 := by
    rw [countTick]
    dsimp only
    split
    · exact ⟨rfl, rfl, rfl⟩
    · exact ⟨rfl, rfl, rfl⟩
  obtain ⟨hsec, hns, hfrac⟩ := hcounted
  rw [hi] at hbound hsec hns hfrac ⊢
  rw [Int.toNat_natCast] at hsec hns hfrac
  unfold timeUnits nowNs at hbound ⊢
  rw [hsec, hns, hfrac]
  generalize s.time.sec = a at hbound ⊢
  generalize s.time.ns = b at hbound ⊢
  generalize s.time.frac = c at hbound ⊢
  omega

section
variable {e : Eng} {k : Fin 8} {v : BitVec 24} {s x y z : State} (haccept : accept s e false (fAddr fTIME_LATCH_GO 0 (8 * k)) v = some x)
include haccept

theorem exec_snapshotLatch_none (hgo : v.getLsbD 0 = false) : exec (.snapshotLatch e k v) s = .next x := by
  have hexec : exec (.snapshotLatch e k v) s = execSnapshotLatch e k v s := rfl
  have hbit : (!bitOf v.toNat 0) = true := by rw [bitOf_toNat, hgo]; rfl
  simp only [hexec, execSnapshotLatch, onSet_of_accept _ haccept, hbit, if_true]

theorem exec_snapshotLatch (hgo : v.getLsbD 0 = true)
    (hy : y = wrF (wrF (wrF x fTIME_S2_S (x.time.sec / 2 ^ 48) 0 (8 * k)) fTIME_S1_S (x.time.sec / 2 ^ 24) 0 (8 * k)) fTIME_S0_S x.time.sec 0 (8 * k))
    (hz : z = wrF (wrF y fTIME_NH_N (x.time.ns / 2 ^ 24) 0 (8 * k)) fTIME_NL_N x.time.ns 0 (8 * k)) :
    exec (.snapshotLatch e k v) s = .next (wrF (wrF z fTIME_FRAC_F (x.time.frac / 2 ^ 22) 0 (8 * k)) fTIME_GEN_G x.time.gen 0 (8 * k)) := by
  have hexec : exec (.snapshotLatch e k v) s = execSnapshotLatch e k v s := rfl
  have hbit : (!bitOf v.toNat 0) = false := by rw [bitOf_toNat, hgo]; rfl
  subst hz hy
  simp only [hexec, execSnapshotLatch, onSet_of_accept _ haccept, hbit, Bool.false_eq_true, if_false]

end

/-- A field of another word of the same unit of an array reads as before. -/
theorem rdF_wrF_off (s : State) (f g : Fld) (v o : Nat) (hf : f.word < 512) (hg : g.word < 512) (ho : o < 512) (hne : g.word ≠ f.word) :
    rdF (wrF s f v 0 o) g 0 o = rdF s g 0 o := rdF_wrF_word _ _ _ _ _ _ _ _ (fAddr_ne (by omega) (by omega) (by omega))

/-- What a snapshot shows. -/
theorem snapshot_reads (x : State) (k : Fin 8) {sec ns frac gen : Nat} {y z t : State}
    (hy : y = wrF (wrF (wrF x fTIME_S2_S (sec / 2 ^ 48) 0 (8 * k)) fTIME_S1_S (sec / 2 ^ 24) 0 (8 * k)) fTIME_S0_S sec 0 (8 * k))
    (hz : z = wrF (wrF y fTIME_NH_N (ns / 2 ^ 24) 0 (8 * k)) fTIME_NL_N ns 0 (8 * k))
    (ht : t = wrF (wrF z fTIME_FRAC_F (frac / 2 ^ 22) 0 (8 * k)) fTIME_GEN_G gen 0 (8 * k)) :
    rdF t fTIME_S0_S 0 (8 * k) = sec % 2 ^ 24 ∧ rdF t fTIME_S1_S 0 (8 * k) = sec / 2 ^ 24 % 2 ^ 24 ∧
    rdF t fTIME_S2_S 0 (8 * k) = sec / 2 ^ 48 % 2 ^ 24 ∧ rdF t fTIME_NH_N 0 (8 * k) = ns / 2 ^ 24 % 64 ∧
    rdF t fTIME_NL_N 0 (8 * k) = ns % 2 ^ 24 ∧ rdF t fTIME_FRAC_F 0 (8 * k) = frac / 2 ^ 22 % 2 ^ 18 ∧
    rdF t fTIME_GEN_G 0 (8 * k) = gen % 2 ^ 24 := by
  have hapart : ∀ (r : State) (f g : Fld) (v : Nat), f.word < 512 → g.word < 512 → g.word ≠ f.word →
      rdF (wrF r f v 0 (8 * k)) g 0 (8 * k) = rdF r g 0 (8 * k) := fun r f g v hf hg hne => rdF_wrF_off r f g v _ hf hg (by omega) hne
  have hsame := fun r f v h => rdF_wrF_same r f v 0 (8 * k) h
  subst ht hz hy
  simp (disch := decide) only [hapart, hsame, true_and, and_true]
  exact rfl

/-! ## Adjustments -/

section
variable {e : Eng} {v : BitVec 24} {s x : State} (haccept : accept s e false (fAddr fTIME_ADJGO_REF 0 0) v = some x)
include haccept

theorem exec_adjFreq (hop : v.toNat / 2 % 4 = 0) : exec (.adjFreq e v) s = .next (adjust x v.toNat) := by
  have hexec : exec (.adjFreq e v) s = execAdjFreq e v s := rfl
  have hbits : (bitsOf v.toNat 1 2 != 0) = false := by rw [show bitsOf v.toNat 1 2 = 0 from hop]; rfl
  rw [hexec, execAdjFreq, hbits, if_neg Bool.false_ne_true, onSet_of_accept _ haccept]

theorem exec_adjOffset (hop : v.toNat / 2 % 4 = 1) : exec (.adjOffset e v) s = .next (adjust x v.toNat) := by
  have hexec : exec (.adjOffset e v) s = execAdjOffset e v s := rfl
  have hbits : (bitsOf v.toNat 1 2 != 1) = false := by rw [show bitsOf v.toNat 1 2 = 1 from hop]; rfl
  rw [hexec, execAdjOffset, hbits, if_neg Bool.false_ne_true, onSet_of_accept _ haccept]

theorem exec_adjSet (hop : 2 ≤ v.toNat / 2 % 4) : exec (.adjSet e v) s = .next (adjust x v.toNat) := by
  have hexec : exec (.adjSet e v) s = execAdjSet e v s := rfl
  have hbit : (!bitOf v.toNat 2) = false := by
    rw [bitOf, show bitsOf v.toNat 2 1 = 1 by unfold bitsOf; omega]
    rfl
  rw [hexec, execAdjSet, hbit, if_neg Bool.false_ne_true, onSet_of_accept _ haccept]

end

section
variable (s : State) (v : Nat)

theorem adjCheck_conflict (h : v % 8 = 0 ∨ (v.testBit 1 = true ∧ v.testBit 2 = true)) : adjCheck s v = 3 := by
  have hcond : (bitOf v 1 && bitOf v 2) = true ∨ bitsOf v 0 3 = 0 := by
    rcases h with h | ⟨h1, h2⟩
    · exact .inr ((bitsOf_zero v 3).trans h)
    · exact .inl (by rw [bitOf_eq_testBit, bitOf_eq_testBit, h1, h2]; rfl)
  rw [adjCheck, if_pos]
  simpa using hcond

variable {v} (hsome : v % 8 ≠ 0) (hone : ¬(v.testBit 1 = true ∧ v.testBit 2 = true))
include hsome hone

theorem adjCheck_some : adjCheck s v = if v / 16 % 8 ≠ rdF s fTIME_TSTAT_SELREF then 1
    else if rdF s fTIME_TSTAT_SELREF = 4 ∧ v / 2 % 4 ≠ 0 then 1
    else if rdF s fTIME_TSTAT_STATE = 3 ∧ rdF s fTIME_TSTAT_SELREF = 0 ∧ v.testBit 0 = true then 1
    else if v.testBit 0 = true ∧ 1759218604 < (stagedFadj s).natAbs then 2 else 0 := by
  have hcond : (v.testBit 1 && v.testBit 2 || decide (bitsOf v 0 3 = 0)) = false := by
    rw [bitsOf_zero, Bool.or_eq_false_iff, decide_eq_false_iff_not, Bool.eq_false_iff, ne_eq, Bool.and_eq_true]
    exact ⟨hone, hsome⟩
  have href : bitsOf v 4 3 = v / 16 % 8 := rfl
  have hop : bitsOf v 1 2 = v / 2 % 4 := rfl
  simp only [adjCheck, href, hop, bitOf_eq_testBit, hcond, Bool.false_eq_true, if_false, Bool.and_eq_true, decide_eq_true_eq]

end

/-! ### The counter through a step -/

theorem setFlight_time (s : State) (y : Flight) : (setFlight s y).time = s.time := rfl

theorem chargePath_time (s : State) (q : Nat) (bytes : Int) (comm : Nat) : (chargePath s q bytes comm).time = s.time := by
  unfold chargePath
  split <;> rfl

theorem dropSel_time (s : State) (p : Nat) (pre : Bool) (x : Sel) : (dropSel s p pre x).time = s.time := by
  have hcharge : (correctCharge s x 0).time = s.time := by
    unfold correctCharge
    split
    · exact chargePath_time ..
    · rfl
  unfold dropSel
  extract_lets t
  have ht : t.time = s.time := hcharge
  split
  · exact ht
  · exact ht

theorem startNext_time (s : State) (p : Nat) : (startNext s p).time = s.time := by
  have hdrop : ∀ (r : State) (pre : Bool), (dropInvalid r p pre).time = r.time := by
    intro r pre
    unfold dropInvalid
    split
    · rw [dropSel_time, count_time]
    · rfl
  unfold startNext
  extract_lets t m
  have ht : t.time = s.time := by simp only [t, hdrop]
  split
  · exact ht
  · split
    · exact ht
    · split
      · exact ht
      · exact ht

theorem gateApply_time (s : State) (p : Nat) : (gateApply s p).time = s.time := rfl

theorem gatesStepped_time (s : State) : (gatesStepped s).time = s.time := by
  unfold gatesStepped
  refine foldl_keeps State.time (fun r p => ?_) _ s
  split
  · rw [startNext_time, gateApply_time, emit0_time]
  · rfl

theorem latchPassed_time (s : State) : (latchPassed s).time = s.time := by
  unfold latchPassed
  refine foldl_keeps State.time (fun r e => ?_) _ s
  split
  · split <;> rfl
  · rfl

theorem stepTime_time (s : State) (t : Int) (kind ref : Nat) : ∃ u : Nat, (u : Int) = t % ((2 ^ 72 * 1000000000 * 2 ^ 40 : Nat) : Int) ∧
    (stepTime s t kind ref).time = { s.time with sec := u / 2 ^ 40 / 1000000000, ns := u / 2 ^ 40 % 1000000000, frac := u % 2 ^ 40,
                                                 gen := (s.time.gen + 1) % 2 ^ 24, slew := 0 } := by
  refine ⟨(t % ((2 ^ 72 * 1000000000 * 2 ^ 40 : Nat) : Int)).toNat, Int.toNat_of_nonneg (Int.emod_nonneg _ (by decide)), ?_⟩
  unfold stepTime
  extract_lets u old g s1 s2 s3
  rw [gatesStepped_time, latchPassed_time, emit_time]
  rfl

theorem timeUnits_stepTime (s : State) (t : Int) (kind ref : Nat) :
    timeUnits (stepTime s t kind ref) = t % ((2 ^ 72 * 1000000000 * 2 ^ 40 : Nat) : Int) := by
  obtain ⟨u, hu, htime⟩ := stepTime_time s t kind ref
  rw [timeUnits, nowNs, htime, ← hu]
  have hparts : (u / 2 ^ 40 / 1000000000 * 1000000000 + u / 2 ^ 40 % 1000000000) * 2 ^ 40 + u % 2 ^ 40 = u := by omega
  exact congrArg Nat.cast hparts

theorem timeUnits_congr {s t : State} (hsec : t.time.sec = s.time.sec) (hns : t.time.ns = s.time.ns) (hfrac : t.time.frac = s.time.frac) :
    timeUnits t = timeUnits s := by rw [timeUnits, nowNs, hsec, hns, hfrac, timeUnits, nowNs]

theorem setFadj_time (s : State) (f : Int) : (setFadj s f).time = { s.time with fadj := f } := by simp only [setFadj, wrF_time]

theorem timeUnits_setFadj (s : State) (f : Int) : timeUnits (setFadj s f) = timeUnits s :=
  timeUnits_congr (by rw [setFadj_time]) (by rw [setFadj_time]) (by rw [setFadj_time])

section
variable {s s₀ s₁ : State} {v ref : Nat} {d : Int} (href : ref = v / 16 % 8)
  (hs₀ : s₀ = (if 6 ≤ ref then unassigned s (fAddr fTIME_ADJGO_REF 0 0) ref else s))
include href hs₀

theorem adjust_refused (hcheck : adjCheck s v ≠ 0) : adjust s v =
    emit (result (count s₀ 0x13 kTimeRefused 0) fTIME_ADJRES_STATE (adjCheck s v + 4 * b2n (s₀.time.slew != 0)))
      0x4c0016 ref (rdF s₀ fTIME_TSTAT_SELREF) (v % 16 + 16 * adjCheck s v) := by
  have hbits : bitsOf v 4 3 = ref := href.symm
  have hlow : bitsOf v 0 4 = v % 16 := bitsOf_zero _ _
  simp only [adjust, hbits, hlow, ← hs₀, if_pos hcheck]

variable (hs₁ : s₁ = (if v.testBit 0 then setFadj s₀ (stagedFadj s₀) else s₀)) (hd : d = adjTarget s₀ (v.testBit 2) - timeUnits s₀)
include hs₁ hd

/-- An adjustment carried out: FADJ, and then the slew or, where b says so, the step. -/
theorem adjust_taken (hcheck : adjCheck s v = 0) {b : Bool} (hb : b = ((v.testBit 2 || v.testBit 3) && decide (1000 * 2 ^ 40 < d.natAbs))) {y : State}
    (hy : y = (if v / 2 % 4 = 0 then s₁ else if b then stepTime s₁ (timeUnits s₁ + d) (b2n (v.testBit 2)) ref
      else { s₁ with time := { s₁.time with slew := d } })) : adjust s v = result y fTIME_ADJRES_STATE (4 * b2n (y.time.slew != 0)) := by
  have hbits : bitsOf v 4 3 = ref := href.symm
  have hop : bitsOf v 1 2 = v / 2 % 4 := rfl
  simp only [adjust, hbits, ← hs₀, hcheck, ne_eq, not_true_eq_false, if_false, bitOf_eq_testBit, hop, ← hs₁, ← hd, ← hb, ← hy]

/-- A step beyond 1,000 ns where it is asked for: the counter takes the target under a new generation. -/
theorem adjust_stepped (hcheck : adjCheck s v = 0) (hop : v / 2 % 4 ≠ 0) (hstep : (v.testBit 2 || v.testBit 3) = true)
    (hfar : 1000 * 2 ^ 40 < d.natAbs) : (∀ y, y = stepTime s₁ (timeUnits s₁ + d) (b2n (v.testBit 2)) ref →
        adjust s v = result y fTIME_ADJRES_STATE (4 * b2n (y.time.slew != 0))) ∧
      timeUnits (adjust s v) = adjTarget s₀ (v.testBit 2) % ((2 ^ 72 * 1000000000 * 2 ^ 40 : Nat) : Int) ∧
      (adjust s v).time.gen = (s₀.time.gen + 1) % 2 ^ 24 ∧ (adjust s v).time.slew = 0 := by
  have hrun : ∀ y, y = stepTime s₁ (timeUnits s₁ + d) (b2n (v.testBit 2)) ref →
      adjust s v = result y fTIME_ADJRES_STATE (4 * b2n (y.time.slew != 0)) := fun y hy => by
    have hb : true = ((v.testBit 2 || v.testBit 3) && decide (1000 * 2 ^ 40 < d.natAbs)) := (Bool.and_eq_true_iff.mpr ⟨hstep, decide_eq_true hfar⟩).symm
    exact adjust_taken href hs₀ hs₁ hd hcheck hb (by rw [if_neg hop, if_pos rfl, hy])
  refine ⟨hrun, ?_⟩
  have hsame : timeUnits s₁ = timeUnits s₀ := by
    rw [hs₁]
    split
    · exact timeUnits_setFadj ..
    · rfl
  have hgen : s₁.time.gen = s₀.time.gen := by
    rw [hs₁]
    split
    · rw [setFadj_time]
    · rfl
  obtain ⟨u, -, htime⟩ := stepTime_time s₁ (timeUnits s₁ + d) (b2n (v.testBit 2)) ref
  have htarget : timeUnits s₁ + d = adjTarget s₀ (v.testBit 2) := by rw [hsame, hd, add_sub_cancel]
  have hunits := timeUnits_stepTime s₁ (timeUnits s₁ + d) (b2n (v.testBit 2)) ref
  have hkept : (adjust s v).time = (stepTime s₁ (timeUnits s₁ + d) (b2n (v.testBit 2)) ref).time := by rw [hrun _ rfl, result_time]
  refine ⟨?_, ?_, ?_⟩
  · rw [timeUnits_congr (congrArg TimeSt.sec hkept) (congrArg TimeSt.ns hkept) (congrArg TimeSt.frac hkept), hunits, htarget]
  · rw [hkept, htime, hgen]
  · rw [hkept, htime]

end

/-! ## References -/

theorem exec_slewEnd {s : State} (hslew : s.time.slew = 0) : exec .slewEnd s = .next (endSlew s) := by
  have hexec : exec .slewEnd s = execSlewEnd s := rfl
  rw [hexec, execSlewEnd, hslew]
  rfl

section
variable {s x : State} (hon : alwaysOn s = true) (hactive : active s 0x13 0 = true) (hx : x = noteRefs s)
include hon hactive hx

theorem exec_refSelection (hcur : ¬(rdF x fTIME_TSTAT_SELREF ≠ 0 ∧ eligible x (rdF x fTIME_TSTAT_SELREF) = true))
    (hhold : ¬(rdF x fTIME_TSTAT_SELREF = 0 ∧ rdF x fTIME_TSTAT_STATE = 3)) : exec .refSelection s = .next (selectRef x (bestRef x)) := by
  have hexec : exec .refSelection s = execRefSelection s := rfl
  have hcond : (!alwaysOn s || !active s 0x13 0) = false := by rw [hon, hactive]; rfl
  rw [hexec, execRefSelection, hcond, if_neg Bool.false_ne_true, ← hx]
  simp only [if_neg hcur, if_neg hhold]

theorem exec_wtrExpiry {r : Fin 6} {t : Nat} (helig : tget (fun _ => none) x.time.eligAt r = some t) (hr : r ≠ 0)
    (hdue : t + rdF x fTIME_REFCTL_WTR * 625000000 ≤ x.sys.ticks) (hbest : bestRef x = r.val)
    (hbetter : (rdF x fTIME_TSTAT_SELREF = 0 ∧ rdF x fTIME_TSTAT_STATE = 3) ∨ r.val < rdF x fTIME_TSTAT_SELREF) :
    exec (.wtrExpiry r) s = .next (selectRef x r) := by
  have hexec : exec (.wtrExpiry r) s = execWtrExpiry r s := rfl
  have hcond : (!alwaysOn s || !active s 0x13 0) = false := by rw [hon, hactive]; rfl
  have hguard : (decide ((r : Nat) = 0) || !(rdF x fTIME_TSTAT_SELREF == 0 || decide ((r : Nat) < rdF x fTIME_TSTAT_SELREF)) ||
      (rdF x fTIME_TSTAT_SELREF == 0 && rdF x fTIME_TSTAT_STATE != 3) ||
      decide (x.sys.ticks < t + rdF x fTIME_REFCTL_WTR * 625000000) || bestRef x != r) = false := by
    have hr' : decide ((r : Nat) = 0) = false := decide_eq_false fun h => hr (Fin.ext h)
    have hdue' : decide (x.sys.ticks < t + rdF x fTIME_REFCTL_WTR * 625000000) = false := decide_eq_false (Nat.not_lt.mpr hdue)
    have hbest' : (bestRef x != r) = false := by rw [hbest]; simp
    have hbetter' : (!(rdF x fTIME_TSTAT_SELREF == 0 || decide ((r : Nat) < rdF x fTIME_TSTAT_SELREF)) ||
        (rdF x fTIME_TSTAT_SELREF == 0 && rdF x fTIME_TSTAT_STATE != 3)) = false := by
      rcases hbetter with ⟨hnone, hhold⟩ | hbelow
      · rw [hnone, hhold]; rfl
      · have hsome : (rdF x fTIME_TSTAT_SELREF == 0) = false := by simp; omega
        rw [hsome, decide_eq_true hbelow]; rfl
    rw [hr', Bool.false_or, hbetter', hdue', hbest']
    rfl
  rw [hexec, execWtrExpiry, hcond, if_neg Bool.false_ne_true, ← hx]
  simp only [helig]
  rw [if_neg (by rw [hguard]; exact Bool.false_ne_true)]

end

theorem selectRef_same {s : State} {r : Nat} (h : r = rdF s fTIME_TSTAT_SELREF) : selectRef s r = s := by
  rw [selectRef]
  exact if_pos h

theorem selectRef_other {s : State} {r : Nat} (h : r ≠ rdF s fTIME_TSTAT_SELREF) : selectRef s r =
    timeState (emit2 (endSlew (wrF (wrF s fTIME_SERVO_LOCKED 0) fTIME_TSTAT_SELREF r)) 0x4c0012 (rdF s fTIME_TSTAT_SELREF) r) := by
  rw [selectRef]
  exact if_neg h

/-! ## Inputs and outputs -/

section
variable {j : Fin 2} {s x y : State} {o n : Nat} (hon : inputsOn s = true) (ho : o = 8 * j.val)
include hon ho

theorem exec_ppsInEdge (henable : onF s fTIME_PPSCFG_EN 0 o = true) (hn : n = nowNs s - rdF s fTIME_PPSCFG_DLY 0 o)
    (hx : x = result (result s fTIME_PS_S (n / 1000000000 % 2 ^ 24) 0 o) fTIME_PNH_NH (n % 1000000000 / 2 ^ 24) 0 o)
    (hy : y = result (result x fTIME_PNL_NL (n % 1000000000 % 2 ^ 24) 0 o) fTIME_PG_G s.time.gen 0 o) :
    exec (.ppsInEdge j) s = .next (noteRefs (wrF { y with time := { y.time with
      ppsAt := tset (fun _ => 0) y.time.ppsAt j y.sys.ticks } } fTIME_PPSST_PPSLOS 0 0 o)) := by
  have hexec : exec (.ppsInEdge j) s = execPpsInEdge j s := rfl
  have hcond : (!inputsOn s || !onF s fTIME_PPSCFG_EN 0 o) = false := by rw [hon, henable]; rfl
  have hgen : x.time = s.time := by rw [hx, result_time, result_time]
  rw [hexec, execPpsInEdge]
  simp only [← ho, hcond, Bool.false_eq_true, if_false, ← hn, ← hx, hgen, ← hy]

theorem exec_ppsLoss (hseen : onF s fTIME_PPSST_PPSLOS 0 o = false) (hlong : tget (fun _ => 0) s.time.ppsAt j + 937500000 ≤ s.sys.ticks) :
    exec (.ppsLoss j) s = .next (noteRefs (emit0 (wrF s fTIME_PPSST_PPSLOS 1 0 o) 0x4c0014)) := by
  have hexec : exec (.ppsLoss j) s = execPpsLoss j s := rfl
  subst ho
  rw [hexec, execPpsLoss, if_neg (by simp [hon, hseen, hlong])]

theorem exec_todCharReceived (c : BitVec 8) (ferr : Bool) (henable : onF s fTIME_TODCFG_EN 0 o = true)
    (hpaced : paced s (paceTod j) (6062500000 / baud (rdF s fTIME_TODCFG_RATE 0 o)) = true) :
    exec (.todCharReceived j c ferr) s = .next (if 64 ≤ (todFifo s j).length then count (setPace s (paceTod j)) 0x13 kTimeTod j
      else setTod (setPace s (paceTod j)) j (todFifo s j ++ [(c.toNat, ferr)])) := by
  have hexec : exec (.todCharReceived j c ferr) s = execTodCharReceived j c ferr s := rfl
  subst ho
  rw [hexec, execTodCharReceived, if_neg (by rw [hon, henable, hpaced]; decide)]
  split <;> rfl

end

theorem exec_todtake {e : Eng} {j : Fin 2} {v : BitVec 24} {s x : State} (hgo : v.getLsbD 0 = true)
    (haccept : accept s e false (fAddr fTIME_TODTAKE_TAKE 0 j) v = some x) : exec (.todtake e j v) s = .next (setTod x j (todFifo x j).tail) := by
  have hexec : exec (.todtake e j v) s = execTodtake e j v s := rfl
  rw [hexec, execTodtake, onSet_of_accept _ haccept, bitOf_toNat, hgo, if_pos rfl]

theorem exec_egtake {e : Eng} {v : BitVec 24} {s x : State} (hgo : v.getLsbD 0 = true)
    (haccept : accept s e false (fAddr fTIME_EGTAKE_TAKE 0 0) v = some x) {l : List EgRec}
    (hl : l = tget (fun _ => []) x.time.eg (rdF x fTIME_EGSEL_PORT)) :
    exec (.egtake e v) s = .next { x with time := { x.time with eg := tset (fun _ => []) x.time.eg (rdF x fTIME_EGSEL_PORT) l.tail } } := by
  have hexec : exec (.egtake e v) s = execEgtake e v s := rfl
  simp only [hexec, execEgtake, onSet_of_accept _ haccept, bitOf_toNat, hgo, if_true, ← hl]

theorem exec_synceFreqMeasure {v : BitVec 24} {s : State} (hon : inputsOn s = true) (henable : (rdF s fTIME_REFCTL_EN).testBit 3 = true)
    (hpaced : paced s paceSyncE 62500000 = true) : exec (.synceFreqMeasure v) s = .next (result (setPace s paceSyncE) fTIME_SEFREQ_F v.toNat) := by
  have hexec : exec (.synceFreqMeasure v) s = execSynceFreqMeasure v s := rfl
  rw [hexec, execSynceFreqMeasure, if_pos (by rw [hon, bitOf_eq_testBit, henable, hpaced]; rfl)]

section
variable {j : Fin 2} {s : State} {o x : Nat} (ho : o = 8 * j.val) (hx : x = (nowNs s + rdF s fTIME_PPOADV_ADV 0 o) % 1000000000)
include ho hx

theorem exec_ppsOutPulse {b : Bool} (hb : b = (live s && onF s fTIME_PPOCFG_EN 0 o && decide (x < rdF s fTIME_PPOCFG_WIDTH 0 o * 1000))) :
    exec (.ppsOutPulse j) s = .next { s with time := { s.time with ppsOut := tset (fun _ => false) s.time.ppsOut j b } } := by
  have hexec : exec (.ppsOutPulse j) s = execPpsOutPulse j s := rfl
  subst hb hx ho
  rw [hexec, execPpsOutPulse]
  rfl

theorem exec_todOutMessage (hlive : live s = true) (henable : onF s fTIME_TODOCFG_EN 0 o = true) (hmessage : onF s fTIME_TODOCFG_MSGEN 0 o = true)
    (hearly : 10000000 ≤ x) (hlate : x ≤ 20000000) : exec (.todOutMessage j) s = .next { s with time := { s.time with
        todOut := tset (fun _ => []) s.time.todOut j (todMessage s ((nowNs s + rdF s fTIME_PPOADV_ADV 0 o) / 1000000000)) } } := by
  have hexec : exec (.todOutMessage j) s = execTodOutMessage j s := rfl
  have hout : outNs s j = nowNs s + rdF s fTIME_PPOADV_ADV 0 o := by rw [ho]; rfl
  have hcond : (!live s || !onF s fTIME_TODOCFG_EN 0 o || !onF s fTIME_TODOCFG_MSGEN 0 o || decide (x < 10000000) || decide (20000000 < x)) = false := by
    rw [hlive, henable, hmessage, decide_eq_false (Nat.not_lt.mpr hearly), decide_eq_false (Nat.not_lt.mpr hlate)]
    rfl
  simp only [hexec, execTodOutMessage, ← ho, hout, ← hx, hcond, Bool.false_eq_true, if_false]

end

/-! ## Triggers -/

section
variable {e : Eng} {t : Fin 16} {v : BitVec 24} {s x : State} (haccept : accept s e false (fAddr fTIME_TARM_ARM 0 (16 * t)) v = some x)
include haccept

theorem exec_triggerArm (harm : v.getLsbD 0 = true) : exec (.triggerArm e t v) s = .next
    (if trigBad x t || !onF x fTIME_TRGCTL_EN 0 (16 * t) then x
    else setTrig x t ⟨true, nearSec x.time.sec (trigStart x t).1 18, (trigStart x t).2, 0⟩) := by
  have hexec : exec (.triggerArm e t v) s = execTriggerArm e t v s := rfl
  have hbit : (!bitOf v.toNat 0) = false := by rw [bitOf_toNat, harm]; rfl
  rw [hexec, execTriggerArm, hbit, if_neg Bool.false_ne_true, onSet_of_accept _ haccept]

theorem exec_triggerStop (harm : v.getLsbD 0 = false) (hstop : v.getLsbD 1 = true) :
    exec (.triggerStop e t v) s = .next (setTrig x t { trigOf x t with run := false }) := by
  have hexec : exec (.triggerStop e t v) s = execTriggerStop e t v s := rfl
  have hbits : (bitOf v.toNat 0 || !bitOf v.toNat 1) = false := by rw [bitOf_toNat, bitOf_toNat, harm, hstop]; rfl
  rw [hexec, execTriggerStop, hbits, if_neg Bool.false_ne_true, onSet_of_accept _ haccept]

end

section
variable {t : Fin 16} {s : State} {g : Trig} {last cnt : Nat} (hg : g = trigOf s t) (hperiod : 0 < trigPeriod s t)
  (hlast : last = (if cnt = 0 then g.k + (nowNs s - fireNs s t g.k) / trigPeriod s t
    else max g.k (min (g.k + (nowNs s - fireNs s t g.k) / trigPeriod s t) (cnt - 1))))
include hg hperiod hlast

theorem exec_triggerFire (hon : alwaysOn s = true) (hhalted : s.sys.halted = false) (hrun : g.run = true)
    (henable : onF s fTIME_TRGCTL_EN 0 (16 * t) = true) (hdue : fireNs s t g.k ≤ nowNs s) (hcnt : cnt = rdF s fTIME_TCNT_C 0 (16 * t)) :
    exec (.triggerFire t) s = .next (setTrig (fireEffects (wrF s fTIME_TMISS_M
      (min 0xffffff (rdF s fTIME_TMISS_M 0 (16 * t) + (last - g.k))) 0 (16 * t)) t last) t
      { g with k := last + 1, run := decide (cnt = 0) || decide (last + 1 < cnt) }) := by
  have hexec : exec (.triggerFire t) s = execTriggerFire t s := rfl
  have hcond : (!alwaysOn s || s.sys.halted || !g.run || !onF s fTIME_TRGCTL_EN 0 (16 * t) || decide (nowNs s < fireNs s t g.k) ||
      decide (trigPeriod s t = 0)) = false := by
    rw [hon, hhalted, hrun, henable, decide_eq_false (Nat.not_lt.mpr hdue), decide_eq_false (Nat.pos_iff_ne_zero.mp hperiod)]
    rfl
  simp only [hexec, execTriggerFire, ← hg, hcond, Bool.false_eq_true, if_false, ← hcnt, ← hlast]

omit hg in
/-- Without a bound on their number, the last instant fired is the last one passed. -/
theorem le_lastFired {k : Nat} (hcnt : cnt = 0) (hk : fireNs s t k ≤ nowNs s) : k ≤ last := by
  rw [hlast, if_pos hcnt]
  by_cases hle : k ≤ g.k
  · exact Nat.le_add_right_of_le hle
  · have hmul : (k - g.k) * trigPeriod s t ≤ nowNs s - fireNs s t g.k := by
      unfold fireNs at hk ⊢
      rw [Nat.sub_mul]
      omega
    have hdiv := (Nat.le_div_iff_mul_le hperiod).mpr hmul
    omega

end

/-- Settles O55: the counter, adjustments, references, timing inputs and outputs, and the triggers. -/
theorem timeIsKeptAdjustedAndTriggered : Obligations.TimeIsKeptAdjustedAndTriggered := by
  refine ⟨fun s => timeUnits_countTick, ?latch, fun e v s x haccept => ⟨exec_adjFreq haccept, exec_adjOffset haccept, exec_adjSet haccept⟩, ?adjust,
    fun s => exec_slewEnd, ?references, fun s r => ⟨selectRef_same, selectRef_other⟩, ?inputs, fun e j v s x hgo => ⟨exec_todtake hgo, fun haccept l =>
      exec_egtake hgo haccept⟩, fun v s => exec_synceFreqMeasure, ?outputs, ?arm, ?fire⟩
  case latch =>
    intro e k v s x y z haccept
    exact ⟨exec_snapshotLatch_none haccept, fun hgo hy hz => ⟨_, exec_snapshotLatch haccept hgo hy hz, rfl, snapshot_reads x k hy hz rfl⟩⟩
  case adjust =>
    intro s s₀ s₁ v ref d href hs₀ hs₁ hd
    refine ⟨adjCheck_conflict s v, fun hsome hone => ⟨fun h => ?_, fun hsel hlock hhold => ?_⟩, adjust_refused href hs₀, fun hcheck hop => ?_,
      fun hcheck hop hnear => ?_, fun hcheck hop hstep hfar => adjust_stepped href hs₀ hs₁ hd hcheck hop hstep hfar⟩
    · rw [adjCheck_some s hsome hone, ← href]
      by_cases hsel : ref ≠ rdF s fTIME_TSTAT_SELREF
      · rw [if_pos hsel]
      · rw [if_neg hsel]
        rcases h with h | h | h
        · exact absurd h hsel
        · rw [if_pos h]
        · split
          · rfl
          · rfl
    · rw [adjCheck_some s hsome hone, ← href, if_neg (not_not.mpr hsel), if_neg fun h => h.2 (hlock h.1), if_neg]
      rintro ⟨hstate, hnone, hfreq⟩
      exact ne_true_of_eq_false (hhold hstate hnone) hfreq
    · rw [adjust_taken href hs₀ hs₁ hd hcheck rfl rfl, if_pos hop]
    · have hb : false = ((v.testBit 2 || v.testBit 3) && decide (1000 * 2 ^ 40 < d.natAbs)) := by
        rcases hnear with h | h
        · rw [h, Bool.false_and]
        · rw [decide_eq_false (Nat.not_lt.mpr h), Bool.and_false]
      rw [adjust_taken href hs₀ hs₁ hd hcheck hb rfl, if_neg hop, if_neg Bool.false_ne_true]
  case references =>
    intro s x hon hactive hx
    refine ⟨fun hcur hlost => ?_, fun hcur hstate => ?_, fun r t => exec_wtrExpiry hon hactive hx⟩
    · exact exec_refSelection hon hactive hx (fun h => ne_true_of_eq_false hlost h.2) fun h => hcur h.1
    · exact exec_refSelection hon hactive hx (fun h => h.1 hcur) fun h => hstate h.2
  case inputs =>
    intro j s x y o n hon ho
    refine ⟨exec_ppsInEdge hon ho, exec_ppsLoss hon ho, fun c ferr henable hpaced => ?_⟩
    rw [exec_todCharReceived hon ho c ferr henable hpaced]
    exact ⟨fun hroom => by rw [if_neg (Nat.not_le.mpr hroom)], fun hfull => by rw [if_pos hfull]⟩
  case outputs =>
    intro j s o x ho hx
    exact ⟨fun b => exec_ppsOutPulse ho hx, exec_todOutMessage ho hx⟩
  case arm =>
    intro e t v s x haccept
    refine ⟨fun harm hgood hon => ?_, fun harm hbad => ?_, exec_triggerStop haccept⟩
    · rw [exec_triggerArm haccept harm, hgood, hon]
      rfl
    · rw [exec_triggerArm haccept harm, if_pos]
      rcases hbad with h | h
      · rw [h]; rfl
      · rw [h, Bool.not_false, Bool.or_true]
  case fire =>
    intro t s g last cnt hon hhalted hg hrun henable hdue hperiod hcnt hlast
    exact ⟨exec_triggerFire hg hperiod hlast hon hhalted hrun henable hdue hcnt, fun k hcnt hk => le_lastFired hperiod hlast hcnt hk⟩

end Sys2Proof.Machine
end

section
/-! The candle and its model, conversions and calibration, edges, control cycles and pulse widths (R541 to R568), and the statement about them. -/
namespace Sys2Proof.Machine

/-! ## One bit of a number -/

theorem putBits_one (n k : Nat) : putBits n k 1 1 = n ||| 2 ^ k := by
  refine Nat.eq_of_testBit_eq fun i => ?_
  rw [testBit_putBits, Nat.testBit_or, Nat.testBit_two_pow]
  by_cases hi : i = k
  · rw [if_pos (by omega), hi, Nat.sub_self]
    simp
  · rw [if_neg (by omega), decide_eq_false (fun h => hi h.symm), Bool.or_false]

theorem putBits_zero {n k : Nat} (h : n.testBit k = true) : putBits n k 1 0 = n - 2 ^ k := by
  have hbit : n / 2 ^ k % 2 = 1 := by rw [← bitOf_eq_testBit] at h; simpa [bitOf, bitsOf] using h
  have hlow := Nat.div_add_mod n (2 ^ k)
  have hhigh : n / 2 ^ k = n / 2 ^ (k + 1) * 2 + 1 := by
    rw [pow_succ, ← Nat.div_div_eq_div_mul]
    omega
  rw [putBits]
  rw [hhigh] at hlow
  have hdouble : 2 ^ (k + 1) = 2 ^ k * 2 := pow_succ ..
  have hsplit : 2 ^ k * (n / 2 ^ (k + 1) * 2 + 1) = n / 2 ^ (k + 1) * 2 ^ (k + 1) + 2 ^ k := by rw [hdouble]; ring
  simp only [Nat.zero_mod, Nat.zero_mul, Nat.add_zero]
  omega

/-! ## The candle -/

section
variable {s x : State} (hon : alwaysOn s = true)
include hon

theorem exec_candleOscReady (hosc : onF s fCNDL_CSTAT_OSC = false) (htried : s.cndl.failed = false ∨ s.cndl.trying = true)
    (hx : x = (if s.cndl.failed then emit0 (setLearn (count s 0x14 kCndlRestart 0) (min s.cndl.learn (24 * 3600))) 0x500015 else s)) :
    exec .candleOscReady s = .next (clockTo (wrF { x with cndl := { x.cndl with failed := false, trying := false } } fCNDL_CSTAT_OSC 1) true) := by
  have hexec : exec .candleOscReady s = execCandleOscReady s := rfl
  have hcond : (!alwaysOn s || onF s fCNDL_CSTAT_OSC || (s.cndl.failed && !s.cndl.trying)) = false := by
    rw [hon, hosc]
    rcases htried with h | h <;> simp [h]
  simp only [hexec, execCandleOscReady, hcond, Bool.false_eq_true, if_false, ← hx]

theorem exec_candleStop (hosc : onF s fCNDL_CSTAT_OSC = true) (hx : x = wrF (wrF (setPace s paceOven) fCNDL_CSTAT_OSC 0) fCNDL_CSTAT_OVENOK 0) {y : State}
    (hy : y = { x with cndl := { x.cndl with failed := true, trying := false, tryAt := x.sys.ticks, cmp := none } }) :
    exec .candleStop s = .next (raiseFault (emit0 (timeState (clockTo y false)) 0x500014) 0x500014 38) := by
  have hexec : exec .candleStop s = execCandleStop s := rfl
  have hcond : (!alwaysOn s || !onF s fCNDL_CSTAT_OSC) = false := by rw [hon, hosc]; rfl
  simp only [hexec, execCandleStop, hcond, Bool.false_eq_true, if_false, ← hx, ← hy]

theorem exec_candleRestartAttempt (hfailed : s.cndl.failed = true) (hdue : s.cndl.tryAt + 37500000000 ≤ s.sys.ticks) :
    exec .candleRestartAttempt s = .next { s with cndl := { s.cndl with trying := true, tryAt := s.sys.ticks } } := by
  have hexec : exec .candleRestartAttempt s = execCandleRestartAttempt s := rfl
  have hcond : (!alwaysOn s || !s.cndl.failed || decide (s.sys.ticks < s.cndl.tryAt + 37500000000)) = false := by
    rw [hon, hfailed, decide_eq_false (Nat.not_lt.mpr hdue)]
    rfl
  simp only [hexec, execCandleRestartAttempt, hcond, Bool.false_eq_true, if_false]

theorem exec_ovenOkSet (hoven : onF s fCNDL_CSTAT_OVENOK = false) (hpaced : paced s paceOven 37500000000 = true)
    (hdue : s.cndl.onAt + 37500000000 ≤ s.sys.ticks) : exec .ovenOkSet s = .next (emit0 (wrF s fCNDL_CSTAT_OVENOK 1) 0x500012) := by
  have hexec : exec .ovenOkSet s = execOvenOkSet s := rfl
  have hcond : (!alwaysOn s || onF s fCNDL_CSTAT_OVENOK || !paced s paceOven 37500000000 || decide (s.sys.ticks < s.cndl.onAt + 37500000000)) = false := by
    rw [hon, hoven, hpaced, decide_eq_false (Nat.not_lt.mpr hdue)]
    rfl
  simp only [hexec, execOvenOkSet, hcond, Bool.false_eq_true, if_false]

theorem exec_ovenOkClear (hoven : onF s fCNDL_CSTAT_OVENOK = true) (hx : x = emit0 (wrF (setPace s paceOven) fCNDL_CSTAT_OVENOK 0) 0x500013) {y : State}
    (hy : y = { x with cndl := { x.cndl with unbound := x.cndl.unbound || onF x fCNDL_CSTAT_HOLD } }) :
    exec .ovenOkClear s = .next (if onF y fCNDL_CSTAT_OSC then raiseFault y 0x500013 38 else y) := by
  have hexec : exec .ovenOkClear s = execOvenOkClear s := rfl
  have hcond : (!alwaysOn s || !onF s fCNDL_CSTAT_OVENOK) = false := by rw [hon, hoven]; rfl
  simp only [hexec, execOvenOkClear, hcond, Bool.false_eq_true, if_false, ← hx, ← hy]

theorem exec_candleCompare (d : BitVec 32) (hcrystal : s.sys.crystal = true) (hosc : onF s fCNDL_CSTAT_OSC = true)
    (hpaced : paced s paceCompare 625000000 = true) (hx : x = { setPace s paceCompare with cndl := { s.cndl with cmp := some d.toInt } }) :
    exec (.candleCompare d) s = .next (if s.cndl.cmp.any (fun (y : Int) => decide (10000 < (d.toInt - y).natAbs))
      then emit0 (setLearn (wrF (count x 0x14 kCndlJump 0) fCNDL_CSTAT_JUMP 1) (min s.cndl.learn (24 * 3600))) 0x500017 else x) := by
  have hexec : exec (.candleCompare d) s = execCandleCompare d s := rfl
  have hcond : (!alwaysOn s || !s.sys.crystal || !onF s fCNDL_CSTAT_OSC || !paced s paceCompare 625000000) = false := by
    rw [hon, hcrystal, hosc, hpaced]
    rfl
  subst hx
  rw [hexec, execCandleCompare, hcond, if_neg Bool.false_ne_true]
  show (if s.cndl.cmp.any _ then _ else _) = _
  split <;> rfl

theorem exec_modelEval {h err : BitVec 24} {fast : Bool} (hpaced : paced s paceModel 625000000 = true)
    (hx : x = result (result (setPace s paceModel) fCNDL_HPWR_P h.toNat) fCNDL_OERR_E err.toNat) {y z : State}
    (hy : y = { x with cndl := { x.cndl with y := modelY x h.toNat err.toInt, unbound := x.cndl.unbound || (fast && onF x fCNDL_CSTAT_HOLD) } })
    (hz : z = (if onF y fCNDL_CSTAT_HOLD then holdSecond y else if rdF y fTIME_TSTAT_STATE = 2 then learnSecond y else y)) :
    exec (.modelEval h err fast) s = .next (boundSecond (showClass { z with cndl := { z.cndl with fsum := 0, fn := 0 } })) := by
  have hexec : exec (.modelEval h err fast) s = execModelEval h err fast s := rfl
  have hcond : (!alwaysOn s || !paced s paceModel 625000000) = false := by rw [hon, hpaced]; rfl
  simp only [hexec, execModelEval, hcond, Bool.false_eq_true, if_false, ← hx, ← hy, ← hz]

end

theorem exec_lseedWrite {e : Eng} {v : Word} {s x : State} (haccept : accept s e false (fAddr fCNDL_LSEED_H 0 0) v = some x) :
    exec (.lseedWrite e v) s = .next (showClass (setLearn x (min (v.toNat % 32) 24 * 3600))) := by
  have hexec : exec (.lseedWrite e v) s = execLseedWrite e v s := rfl
  have hbits : bitsOf v.toNat 0 5 = v.toNat % 32 := bitsOf_zero _ _
  rw [hexec, execLseedWrite, onSet_of_accept _ haccept, hbits]

theorem exec_cstatRead {e : Eng} {s x : State} (hready : getReady s e (fAddr fCNDL_CSTAT_OSC 0 0) = true) (hx : x = showClass s) {t : State}
    (ht : t = wrF (wrF (answer x e (some (rdW x (fAddr fCNDL_CSTAT_OSC 0 0)))) fCNDL_CSTAT_CLAMP 0) fCNDL_CSTAT_JUMP 0) :
    exec (.cstatRead e) s = .next t ∧ onF t fCNDL_CSTAT_CLAMP = false ∧ onF t fCNDL_CSTAT_JUMP = false ∧ (eng t e).get = none := by
  have hexec : exec (.cstatRead e) s = execCstatRead e s := rfl
  obtain ⟨rd, hget⟩ := exists_get_of_getReady hready
  have heng : eng x e = eng s e := by
    rw [hx, showClass]
    split <;> rfl
  refine ⟨?_, ?_, ?_, ?_⟩
  · simp only [hexec, execCstatRead, hready, Bool.not_true, Bool.false_eq_true, if_false, ← hx, ← ht]
  · rw [ht, onF, rdF_wrF_apart _ fCNDL_CSTAT_JUMP fCNDL_CSTAT_CLAMP _ _ _ _ _ rfl (by decide) (by decide), rdF_wrF_same _ _ _ _ _ (by decide)]
    rfl
  · rw [ht, onF, rdF_wrF_same _ _ _ _ _ (by decide)]
    rfl
  · obtain ⟨hnone, -, -⟩ := eng_answer (s := x) (e := e) (rd := rd) (a := fAddr fCNDL_CSTAT_OSC 0 0) (by rw [heng, hget])
      (rdW x (fAddr fCNDL_CSTAT_OSC 0 0))
    rw [ht, eng, wrF_engs, wrF_engs, ← eng, hnone]

theorem exec_dioedgeRead {e : Eng} {s : State} (hready : getReady s e (fAddr fMEAS_DIOEDGE_E 0 0) = true) : exec (.dioedgeRead e) s =
    .next (wrF (answer s e (some (rdW s (fAddr fMEAS_DIOEDGE_E 0 0)))) fMEAS_DIOEDGE_E 0) := by
  have hexec : exec (.dioedgeRead e) s = execDioedgeRead e s := rfl
  rw [hexec, execDioedgeRead, hready]
  rfl

/-! ## Conversions -/

section
variable {c : Fin 18} {s y : State}

/-- The value of a channel from its input in units. -/
def convValue (s : State) (c : Fin 18) (u : Int) (surge : Bool) : Nat :=
  if 16 ≤ c.val then unsext u 24 else ainCode (onF s fMEAS_ACFG_OPEN 0 (4 * c) && tget (fun _ => false) s.meas.open_ c) surge u

theorem exec_conversionResult (n : Int) (surge : Bool) (hconverts : converts s c = true) (hperiod : periodPassed s c = true)
    (hy : y = setPace { s with meas := { s.meas with conv := tset (fun _ => none) s.meas.conv c none, stamp :=
      (match tget (fun _ => none) s.meas.conv c with | some t => tset (fun _ => 0) s.meas.stamp c t | none => s.meas.stamp) } } (paceConv c)) :
    exec (.conversionResult c n surge) s = .next (watcher (count (result y fMEAS_AVAL_V (convValue s c (inputUnits s c n) surge) 0 (4 * c))
      0x15 kMeasResult c) c (convValue s c (inputUnits s c n) surge)) := by
  have hexec : exec (.conversionResult c n surge) s = execConversionResult c n surge s := rfl
  have hcond : (!converts s c || !periodPassed s c) = false := by rw [hconverts, hperiod]; rfl
  cases hconv : tget (fun _ => none) s.meas.conv c with
  | none =>
    simp only [hexec, execConversionResult, hcond, Bool.false_eq_true, if_false, hy, hconv]
    rfl
  | some t =>
    simp only [hexec, execConversionResult, hcond, Bool.false_eq_true, if_false, hy, hconv]
    rfl

theorem convValue_internal {u : Int} (surge : Bool) (hc : 16 ≤ c.val) : convValue s c u surge = unsext u 24 := if_pos hc

theorem convValue_open {u : Int} (surge : Bool) (hc : c.val < 16) (hopen : onF s fMEAS_ACFG_OPEN 0 (4 * c) = true)
    (hfound : tget (fun _ => false) s.meas.open_ c = true) : convValue s c u surge = 0x800000 := by
  rw [convValue, if_neg (Nat.not_le.mpr hc), hopen, hfound]
  rfl

theorem convValue_closed {u : Int} (surge : Bool) (hc : c.val < 16)
    (hopen : (onF s fMEAS_ACFG_OPEN 0 (4 * c) && tget (fun _ => false) s.meas.open_ c) = false) : convValue s c u surge =
      if surge = true ∨ 8388608 ≤ u then 0x7fffff else if u < -8388608 then 0x800001 else unsext (max (-8388606) (min 8388606 u)) 24 := by
  rw [convValue, if_neg (Nat.not_le.mpr hc), hopen]
  simp only [ainCode, Bool.false_eq_true, if_false, Bool.or_eq_true, decide_eq_true_eq]

end

theorem exec_calibrationSlot {c : Fin 18} {isOpen forced : Bool} {n : Nat} {s x : State} (hc : c.val < 16) (hon : measOn s = true)
    (hmode : rdF s fMEAS_ACFG_MODE 0 (4 * c) ≠ 0) (hdue : calDue s c (forced && rdF s fMEAS_ACFG_MODE 0 (4 * c) == 2) = true)
    (hx : x = setPace { s with meas := { { s.meas with open_ := tset (fun _ => false) s.meas.open_ c isOpen } with
      calTj := tset (fun _ => 0) s.meas.calTj c (sext (rdF s fPWR_TJ_T) 16) } } (paceCal c)) :
    exec (.calibrationSlot c isOpen forced n) s = .next (if rdF s fMEAS_ACFG_MODE 0 (4 * c) = 1 then count x 0x15 kMeasSkip c 4
      else if forced then emit1 (count x 0x15 kMeasForced c n) 0x540014 c else x) := by
  have hexec : exec (.calibrationSlot c isOpen forced n) s = execCalibrationSlot c isOpen forced n s := rfl
  have hcond : (decide (16 ≤ c.val) || !measOn s || decide (rdF s fMEAS_ACFG_MODE 0 (4 * c) = 0) ||
      !calDue s c (forced && rdF s fMEAS_ACFG_MODE 0 (4 * c) == 2)) = false := by
    rw [decide_eq_false (Nat.not_le.mpr hc), hon, decide_eq_false hmode, hdue]
    rfl
  have hsame : rdF x fMEAS_ACFG_MODE 0 (4 * c) = rdF s fMEAS_ACFG_MODE 0 (4 * c) := rdF_congr (s := s) (by rw [hx]; rfl) _ _ _
  simp only [hexec, execCalibrationSlot, hcond, Bool.false_eq_true, if_false, ← hx, hsame]
  split
  · rfl
  · split <;> rfl

/-! ## Edges -/

/-- The edge that a pin's level makes is seen: an input of an enabled MEAS of a selected kind, in S3 one that wakes. -/
abbrev edgeSeen (s : State) (j : Fin 16) (rising : Bool) : Prop :=
  pairPin s j = false ∧ rdF s fMEAS_DCFG_DIR 0 j = 0 ∧ active s 0x15 0 = true ∧ (live s = true ∨ (inS3 s = true ∧ onF s fMEAS_DCFG_DWAKE 0 j = true)) ∧
    (rdF s fMEAS_DCFG_EDGE 0 j).testBit (if rising then 0 else 1) = true

theorem not_edgeSeen_iff (s : State) (j : Fin 16) (rising : Bool) :
    (pairPin s j || rdF s fMEAS_DCFG_DIR 0 j != 0 || !active s 0x15 0 || !(live s || (inS3 s && onF s fMEAS_DCFG_DWAKE 0 j)) ||
      !bitOf (rdF s fMEAS_DCFG_EDGE 0 j) (if rising then 0 else 1)) = true ↔ ¬edgeSeen s j rising := by
  rw [← not_iff_not, not_not, Bool.not_eq_true, edgeSeen, bitOf_eq_testBit]
  simp only [Bool.or_eq_false_iff, Bool.not_eq_false', bne_eq_false_iff_eq, Bool.or_eq_true, Bool.and_eq_true, and_assoc]

section
variable {j : Fin 16} {rising : Bool} {s x y z : State} {at_ : Nat} (hlevel : s.meas.pins.testBit j ≠ rising)
  (hx : x = { s with meas := { s.meas with pins := if rising then s.meas.pins ||| 2 ^ j.val else s.meas.pins - 2 ^ j.val } })
  (hy : y = wrF x fMEAS_DIOEDGE_E (rdF x fMEAS_DIOEDGE_E ||| 2 ^ j.val)) (hat : at_ = nowNs s - (rdF s fMEAS_DCFG_DEB 0 j + 1) * 10000)
  (hz : z = (if onF s fMEAS_DCFG_DMSG 0 j then measPost y j (0x40 + j) (at_ / 1000000000 % 2 ^ 24) (at_ % 1000000000) else y))
include hlevel hx hy hat hz

theorem exec_dioEdge [Decidable (edgeSeen s j rising)] : exec (.dioEdge j rising) s = .next (if edgeSeen s j rising
    then (if onF s fMEAS_DCFG_DWAKE 0 j then wakeSource z 3 else z) else x) := by
  have hexec : exec (.dioEdge j rising) s = execDioEdge j rising s := rfl
  have hmoved : (bitOf s.meas.pins j == rising) = false := by
    rw [bitOf_eq_testBit]
    exact beq_eq_false_iff_ne.mpr hlevel
  have hpins : { s with meas := { s.meas with pins := putBits s.meas.pins j 1 (b2n rising) } } = x := by
    rw [hx]
    cases rising with
    | true => rw [if_pos rfl, b2n, if_pos rfl, putBits_one]
    | false => rw [if_neg Bool.false_ne_true, b2n, if_neg Bool.false_ne_true, putBits_zero (by simpa using hlevel)]
  have hsame : ∀ f : Fld, rdF x f 0 j = rdF s f 0 j := fun f => rdF_congr (s := s) (by rw [hx]) _ _ _
  have hword : ∀ f : Fld, f.word = 0x140 → rdF y f 0 j = rdF s f 0 j := fun f hf => by
    rw [hy, rdF_wrF_word _ _ _ _ _ _ _ _ (fAddr_ne (show 0x172 + 0 < 1024 by decide) (by omega) (show f.word + j ≠ 0x172 + 0 by omega)), hsame]
  have hseen : (pairPin x j || rdF x fMEAS_DCFG_DIR 0 j != 0 || !active x 0x15 0 || !(live x || (inS3 x && onF s fMEAS_DCFG_DWAKE 0 j)) ||
      !bitOf (rdF x fMEAS_DCFG_EDGE 0 j) (if rising then 0 else 1)) = true ↔ ¬edgeSeen s j rising := by
    rw [← not_edgeSeen_iff, hsame, hsame, hx]
    rfl
  have hnow : nowNs y = nowNs s := by rw [hy, hx]; rfl
  have hmsg : onF y fMEAS_DCFG_DMSG 0 j = onF s fMEAS_DCFG_DMSG 0 j := by rw [onF, hword _ rfl, onF]
  have hwake : onF x fMEAS_DCFG_DWAKE 0 j = onF s fMEAS_DCFG_DWAKE 0 j := by rw [onF, hsame, onF]
  have hdeb : rdF y fMEAS_DCFG_DEB 0 j = rdF s fMEAS_DCFG_DEB 0 j := hword _ rfl
  simp only [hexec, execDioEdge, hmoved, Bool.false_eq_true, if_false, hpins, hwake, putBits_one, ← hy, hnow, hmsg, hdeb, ← hat, ← hz, hseen]
  by_cases h : edgeSeen s j rising
  · rw [if_neg (not_not.mpr h), if_pos h]
  · rw [if_pos h, if_neg h]

end

/-! ## Cycles and pulse widths -/

theorem exec_cygoWrite {e : Eng} {v : Word} {s x : State} (haccept : accept s e false (fAddr fMEAS_CYGO_GO 0 0) v = some x) :
    exec (.cygoWrite e v) s = .next { x with meas := { x.meas with go := x.meas.go ||| v.toNat % 256 } } := by
  have hexec : exec (.cygoWrite e v) s = execCygoWrite e v s := rfl
  have hbits : bitsOf v.toNat 0 8 = v.toNat % 256 := bitsOf_zero _ _
  rw [hexec, execCygoWrite, onSet_of_accept _ haccept, hbits]

/-- The outputs that join a cycle: each of the first n whose condition holds, and those that have joined before. -/
theorem tget_foldl_join (p : Nat → Prop) [DecidablePred p] (t : Tab Bool) (n : Nat) {m : Nat} (hm : m < n) :
    tget (fun _ => false) ((List.range n).foldl (fun t k => if p k then tset (fun _ => false) t k true else t) t) m =
      (tget (fun _ => false) t m || decide (p m)) := by
  have hgen : ∀ n, tget (fun _ => false) ((List.range n).foldl (fun t k => if p k then tset (fun _ => false) t k true else t) t) m =
      (tget (fun _ => false) t m || (decide (m < n) && decide (p m))) := by
    intro n
    induction n with
    | zero => simp
    | succ n ih =>
      rw [List.range_succ, List.foldl_append, List.foldl_cons, List.foldl_nil]
      by_cases hmn : m = n
      · subst hmn
        split
        case isTrue h => rw [tget_tset_same, decide_eq_true h]; simp
        case isFalse h => rw [ih, decide_eq_false h]; simp
      · have hlt : decide (m < n + 1) = decide (m < n) := by simp; omega
        rw [hlt, ← ih]
        split
        · exact tget_tset_other _ _ _ hmn
        · rfl
  rw [hgen n, decide_eq_true hm, Bool.true_and]

section
variable {c : Fin 8} {s : State} {i k : Nat} {l : List (Nat × Nat)}

/-- The outputs of cycle c after an apply instant. -/
def cycleJoined (s : State) (c : Fin 8) : Tab Bool :=
  (List.range 8).foldl (fun t k =>
    if rdF s fMEAS_PCFG_CYC 0 (4 * k) = c.val ∧ onF s fMEAS_PCFG_EN 0 (4 * k) then tset (fun _ => false) t k true else t) s.meas.joined

/-- The state of an apply instant reached, before what it applies. -/
def cycleReached (s : State) (c : Fin 8) (l : List (Nat × Nat)) (go : Nat) : State :=
  { s with meas := { s.meas with apply := tset (fun _ => []) s.meas.apply c l, joined := cycleJoined s c, go := go } }

theorem exec_cycleApply (happly : tget (fun _ => []) s.meas.apply c = (i, k) :: l) (hlive : live s = true) (hdue : i ≤ nowNs s)
    (hactive : active s 0x15 0 = true) (hon : onF s fMEAS_CYCFG_EN 0 (2 * c) = true) : exec (.cycleApply c) s = .next
    (if s.meas.go.testBit c then applyCycle (count (cycleReached s c l (putBits s.meas.go c 1 0)) 0x15 kMeasApply c) c
    else emit2 (count (cycleReached s c l s.meas.go) 0x15 kMeasLate c) 0x540015 c k) := by
  have hexec : exec (.cycleApply c) s = execCycleApply c s := rfl
  have hcond : (!live s || decide (nowNs s < i)) = false := by rw [hlive, decide_eq_false (Nat.not_lt.mpr hdue)]; rfl
  have hcond' : ∀ m, (!active { s with meas := m } 0x15 0 || !onF { s with meas := m } fMEAS_CYCFG_EN 0 (2 * c)) = false := by
    intro m
    have hactive' : active { s with meas := m } 0x15 0 = true := hactive
    have hon' : onF { s with meas := m } fMEAS_CYCFG_EN 0 (2 * c) = true := hon
    rw [hactive', hon']
    rfl
  simp only [hexec, execCycleApply, happly, hcond, hcond', Bool.false_eq_true, if_false, bitOf_eq_testBit]
  split <;> rfl

end

theorem exec_pwmPeriodStart {k : Fin 8} {s : State} {p : Nat} (hlive : live s = true) (hsafe : s.meas.safe = false)
    (henable : onF s fMEAS_PCFG_EN 0 (4 * k) = true)
    (hjoined : 8 ≤ rdF s fMEAS_PCFG_CYC 0 (4 * k) ∨ tget (fun _ => false) s.meas.joined k = true) (hp : p = rdF s fMEAS_PPER_T 0 (4 * k))
    (hpaced : paced s (pacePwm k) (8 * ((tget (fun _ => none) s.meas.pwm k).getD (0, 0)).1 * 624 / 1000) = true) :
    exec (.pwmPeriodStart k) s = .next (setPace { s with meas := { s.meas with
      pwm := tset (fun _ => none) s.meas.pwm k (some (p, min p (rdF s fMEAS_PDUTY_T 0 (4 * k)))) } } (pacePwm k)) := by
  have hexec : exec (.pwmPeriodStart k) s = execPwmPeriodStart k s := rfl
  have hpaced' : paced s (pacePwm k) (leastTicks (8 * ((tget (fun _ => none) s.meas.pwm k).getD (0, 0)).1)) = true := hpaced
  have hjoined' : (decide (rdF s fMEAS_PCFG_CYC 0 (4 * k) < 8) && !tget (fun _ => false) s.meas.joined k) = false := by
    rcases hjoined with h | h
    · rw [decide_eq_false (Nat.not_lt.mpr h), Bool.false_and]
    · rw [h]; simp
  simp only [hexec, execPwmPeriodStart, hlive, hsafe, henable, hjoined', hpaced', Bool.not_true, Bool.or_self, Bool.false_eq_true, if_false, ← hp]

/-- Settles O56: the candle and its model, conversions and calibration, edges, control cycles and pulse widths. -/
theorem theCandleAndTheConvertersWork : Obligations.TheCandleAndTheConvertersWork := by
  refine ⟨?candle, fun e v s x => exec_lseedWrite, fun e s x => ⟨fun hready hx => ?_, exec_dioedgeRead⟩, ?conversion,
    fun c isOpen forced n s x => exec_calibrationSlot, ?edge, fun e v s x => exec_cygoWrite, ?cycle, fun k s p => exec_pwmPeriodStart⟩
  case candle =>
    intro s x hon
    refine ⟨exec_candleOscReady hon, fun hosc hx y => exec_candleStop hon hosc hx, exec_candleRestartAttempt hon, exec_ovenOkSet hon,
      fun hoven hx y => exec_ovenOkClear hon hoven hx, fun d hcrystal hosc hpaced hx => ⟨fun hnear => ?_, fun y hy hfar => ?_⟩,
      fun h err fast hpaced hx y z => exec_modelEval hon hpaced hx⟩
    · rw [exec_candleCompare hon d hcrystal hosc hpaced hx, if_neg]
      rw [Option.any_eq_true]
      rintro ⟨y, hy, hfar⟩
      exact absurd (hnear y hy) (Nat.not_le.mpr (of_decide_eq_true hfar))
    · rw [exec_candleCompare hon d hcrystal hosc hpaced hx, hy, Option.any_some, decide_eq_true hfar, if_pos rfl]
  · obtain ⟨hrun, hclamp, hjump, hget⟩ := exec_cstatRead hready hx rfl
    exact ⟨_, hrun, rfl, hclamp, hjump, hget⟩
  case conversion =>
    intro c n surge s y v u hconverts hperiod hy hain hinternal hopen hclosed hvalue
    rw [exec_conversionResult n surge hconverts hperiod hy]
    have hv : convValue s c (inputUnits s c n) surge = v := by
      by_cases hc : c.val < 16
      · have hu : inputUnits s c n = u := by rw [hain hc, inputUnits, if_neg (Nat.not_le.mpr hc)]
        cases hfound : onF s fMEAS_ACFG_OPEN 0 (4 * c) && tget (fun _ => false) s.meas.open_ c with
        | true =>
          obtain ⟨hset, hfound⟩ := Bool.and_eq_true_iff.mp hfound
          rw [convValue_open surge hc hset hfound, hopen hc hset hfound]
        | false => rw [convValue_closed surge hc hfound, hu, hclosed hc hfound]
      · have hc' : 16 ≤ c.val := Nat.not_lt.mp hc
        rw [convValue_internal surge hc', hvalue hc', hinternal hc', inputUnits, if_pos hc']
    rw [hv]
  case edge =>
    intro j rising s x y z at_ hlevel hx hy hat hz
    exact exec_dioEdge hlevel hx hy hat hz
  case cycle =>
    intro c s i k l happly hlive hdue hactive hon
    have hjoined : ∀ m : Fin 8, tget (fun _ => false) (cycleJoined s c) m = (tget (fun _ => false) s.meas.joined m ||
        (rdF s fMEAS_PCFG_CYC 0 (4 * m) == c.val && onF s fMEAS_PCFG_EN 0 (4 * m))) := by
      intro m
      rw [cycleJoined, tget_foldl_join (fun k => rdF s fMEAS_PCFG_CYC 0 (4 * k) = c.val ∧ onF s fMEAS_PCFG_EN 0 (4 * k)) _ _ m.isLt, Bool.decide_and,
        Bool.decide_eq_true]
      rfl
    cases hgo : s.meas.go.testBit c with
    | true =>
      refine ⟨cycleReached s c l (putBits s.meas.go c 1 0), rfl, rfl, hjoined, fun _ => ⟨putBits_zero hgo, ?_⟩, fun h => absurd h (by decide)⟩
      rw [exec_cycleApply happly hlive hdue hactive hon, if_pos hgo]
    | false =>
      refine ⟨cycleReached s c l s.meas.go, rfl, rfl, hjoined, fun h => absurd h (by decide), fun _ => ⟨rfl, ?_⟩⟩
      rw [exec_cycleApply happly hlive hdue hactive hon, if_neg (ne_true_of_eq_false hgo)]

end Sys2Proof.Machine
end

section
/-! Levels and sleep: requests, transitions, the voltage exchange, sleep entry, wake events and the temperature (R570 to R594), and the statement about them. -/
namespace Sys2Proof.Machine

/-! ## The word of the power state -/

/-- A field of PWR STATE that lies apart from the one written reads as before. -/
theorem rdF_wrF_state (s : State) (v : Nat) {f g : Fld} (hf : f.unit = 22 ∧ f.word = 0x12 ∧ f.lo + f.w ≤ 24) (hg : g.unit = 22 ∧ g.word = 0x12)
    (hapart : g.lo + g.w ≤ f.lo ∨ f.lo + f.w ≤ g.lo) : rdF (wrF s f v) g = rdF s g := by
  obtain ⟨hfu, hfw, hfit⟩ := hf
  obtain ⟨hgu, hgw⟩ := hg
  refine rdF_wrF_apart s f g v 0 0 0 0 ?_ hfit hapart
  rw [fAddr, fAddr, hfu, hfw, hgu, hgw]

/-- A field of PWR STATE reads as before after the tries of the voltage request are written. -/
theorem rdF_wrF_tries (s : State) (v : Nat) {g : Fld} (hg : g.unit = 22 ∧ g.word = 0x12) : rdF (wrF s fPWR_PMSTAT_TRIES v) g = rdF s g := by
  obtain ⟨hgu, hgw⟩ := hg
  refine rdF_wrF_word s fPWR_PMSTAT_TRIES g v 0 0 0 0 ?_
  rw [fAddr, hgu, hgw]
  decide

theorem curLevel_lt (s : State) : curLevel s < 4 := Nat.mod_lt _ (by decide)

theorem curLevel_wrF_apart (s : State) (v : Nat) {f : Fld} (hf : f.unit = 22 ∧ f.word = 0x12 ∧ f.lo + f.w ≤ 24) (hapart : 4 ≤ f.lo) :
    curLevel (wrF s f v) = curLevel s := rdF_wrF_state s v hf ⟨rfl, rfl⟩ (.inl hapart)

/-! ## The beginning of a transition -/

/-- The state that names a transition's target. -/
def targetNamed (s : State) (st l : Nat) : State := wrF (wrF (wrF s fPWR_STATE_BUSY 1) fPWR_STATE_TGTS st) fPWR_STATE_TGTL l

/-- The state whose level is lowered at once where the target's is lower (its number higher). -/
def levelRaised (s : State) (l : Nat) : State := if curLevel s < l then wrF s fPWR_STATE_CURL l else s

theorem rdF_levelRaised (s : State) (l : Nat) {g : Fld} (hg : g.unit = 22 ∧ g.word = 0x12) (hapart : 4 ≤ g.lo) :
    rdF (levelRaised s l) g = rdF s g := by
  rw [levelRaised]
  split
  · exact rdF_wrF_state s l ⟨rfl, rfl, by decide⟩ hg (.inr hapart)
  · rfl

theorem curLevel_levelRaised (s : State) {l : Nat} (hl : l < 4) : curLevel (levelRaised s l) = max (curLevel s) l := by
  rw [levelRaised]
  split
  case isTrue h => rw [max_eq_right h.le, curLevel, rdF_wrF_same _ _ _ _ _ (by decide)]; exact Nat.mod_eq_of_lt hl
  case isFalse h => rw [max_eq_left (Nat.not_lt.mp h)]

section
variable (s : State) (kind st l : Nat)

theorem rdF_beginTransition {g : Fld} (hg : g.unit = 22 ∧ g.word = 0x12) :
    rdF (beginTransition s kind st l) g = rdF (levelRaised (targetNamed s st l) l) g := rdF_wrF_tries _ (b2n (!atLevel s l)) hg

theorem beginTransition_run : (beginTransition s kind st l).pwr.run = some kind := rfl

theorem beginTransition_still : (beginTransition s kind st l).plc.still = true := rfl

theorem beginTransition_volt : (beginTransition s kind st l).pwr.volt = true ↔ s.pwr.rail ≠ l ∨ curLevel s ≠ l := by
  have hvolt : (beginTransition s kind st l).pwr.volt = !atLevel s l := rfl
  rw [hvolt, atLevel, Bool.not_eq_true', Bool.and_eq_false_iff, beq_eq_false_iff_ne, beq_eq_false_iff_ne, or_comm]

theorem beginTransition_busy : onF (beginTransition s kind st l) fPWR_STATE_BUSY = true := by
  rw [onF, rdF_beginTransition s kind st l ⟨rfl, rfl⟩, rdF_levelRaised _ l ⟨rfl, rfl⟩ (by decide), targetNamed,
    rdF_wrF_state _ l ⟨rfl, rfl, by decide⟩ ⟨rfl, rfl⟩ (by decide), rdF_wrF_state _ st ⟨rfl, rfl, by decide⟩ ⟨rfl, rfl⟩ (by decide),
    rdF_wrF_same _ _ _ _ _ (by decide)]
  rfl

theorem beginTransition_state {st : Nat} (hst : st < 4) : rdF (beginTransition s kind st l) fPWR_STATE_TGTS = st := by
  rw [rdF_beginTransition s kind st l ⟨rfl, rfl⟩, rdF_levelRaised _ l ⟨rfl, rfl⟩ (by decide), targetNamed,
    rdF_wrF_state _ l ⟨rfl, rfl, by decide⟩ ⟨rfl, rfl⟩ (by decide), rdF_wrF_same _ _ _ _ _ (by decide)]
  exact Nat.mod_eq_of_lt hst

theorem beginTransition_target {l : Nat} (hl : l < 4) : rdF (beginTransition s kind st l) fPWR_STATE_TGTL = l := by
  rw [rdF_beginTransition s kind st l ⟨rfl, rfl⟩, rdF_levelRaised _ l ⟨rfl, rfl⟩ (by decide), targetNamed, rdF_wrF_same _ _ _ _ _ (by decide)]
  exact Nat.mod_eq_of_lt hl

theorem beginTransition_level {l : Nat} (hl : l < 4) : curLevel (beginTransition s kind st l) = max (curLevel s) l := by
  rw [curLevel, rdF_beginTransition s kind st l ⟨rfl, rfl⟩, ← curLevel, curLevel_levelRaised _ hl, targetNamed,
    curLevel_wrF_apart _ l ⟨rfl, rfl, by decide⟩ (by decide), curLevel_wrF_apart _ st ⟨rfl, rfl, by decide⟩ (by decide),
    curLevel_wrF_apart _ 1 ⟨rfl, rfl, by decide⟩ (by decide)]

theorem requestPair_idle (hrun : s.pwr.run = none) : requestPair s st l =
    if st ≠ 0 then beginTransition (if st = 3 then dropActive s else s) 1 st 3 else if atLevel s l then s else beginLevel s l := by
  rw [requestPair, hrun]
  exact if_pos rfl

theorem requestPair_busy {x : State} (hrun : s.pwr.run.isSome = true)
    (hx : x = (if onF s fPWR_STATE_PENDV then wrF s fPWR_STATE_REPL ((rdF s fPWR_STATE_REPL + 1) % 256) else s)) :
    requestPair s st l = wrF (wrF (wrF x fPWR_STATE_PENDV 1) fPWR_STATE_PENDS st) fPWR_STATE_PENDL l := by
  have hnone : ¬s.pwr.run.isNone = true := by rw [Option.isNone_iff_eq_none]; exact Option.isSome_iff_ne_none.mp hrun
  rw [requestPair, if_neg hnone, hx]

end

/-! ## Level requests -/

section
variable {e : Eng} {v : Word} {s x y : State} (haccept : accept s e false (fAddr fPWR_LEVEL_REQ 0 0) v = some x)
  (hy : y = setNow x (fAddr fPWR_LEVEL_REQ 0 0) v.toNat)
include haccept hy

theorem exec_levelRequest : exec (.levelRequest e v) s = .next
    (if onF y fPWR_STATE_FORCED || y.pwr.force.isSome || rdF y fPWR_STATE_CURS != 0 then y else requestPair y 0 (rdF y fPWR_LEVEL_REQ)) := by
  have hexec : exec (.levelRequest e v) s = execLevelRequest e v s := rfl
  rw [hexec, execLevelRequest, onSet_of_accept _ haccept, ← hy]

theorem exec_levelRequest_waits (h : onF y fPWR_STATE_FORCED = true ∨ y.pwr.force.isSome = true ∨ rdF y fPWR_STATE_CURS ≠ 0) :
    exec (.levelRequest e v) s = .next y := by
  rw [exec_levelRequest haccept hy, if_pos]
  rwa [Bool.or_eq_true, Bool.or_eq_true, bne_iff_ne, or_assoc]

theorem exec_levelRequest_taken (hforced : onF y fPWR_STATE_FORCED = false) (hforce : y.pwr.force = none) (hawake : rdF y fPWR_STATE_CURS = 0) :
    exec (.levelRequest e v) s = .next (requestPair y 0 (rdF y fPWR_LEVEL_REQ)) := by
  rw [exec_levelRequest haccept hy, hforced, hforce, hawake]
  rfl

end

/-! ## The voltage exchange -/

section
variable {s x : State} (hvolt : s.pwr.volt = true) (hon : alwaysOn s = true) (hrunning : s.sys.halted = false)
include hvolt hon hrunning

section
variable (hx : x = { s with pwr := { s.pwr with volt := false, rail := rdF s fPWR_STATE_TGTL } })
include hx

theorem exec_voltageAck : exec .voltageAck s = .next (if s.pwr.run = some 0 then followOn (clearRun (wrF x fPWR_STATE_CURL (rdF x fPWR_STATE_TGTL)))
    else if s.pwr.run = some 2 then (if inS3 s then startFromS3 x else completeWake x) else forceWaited (wrF x fPWR_PMSTAT_TRIES 0)) := by
  have hexec : exec .voltageAck s = execVoltageAck s := rfl
  have hcond : (!s.pwr.volt || !alwaysOn s || s.sys.halted) = false := by rw [hvolt, hon, hrunning]; rfl
  have hphase : inS3 x = inS3 s := by rw [hx]; rfl
  simp only [hexec, execVoltageAck, hcond, Bool.false_eq_true, if_false, ← hx, hphase]
  match s.pwr.run with
  | none => rfl
  | some 0 => rfl
  | some 1 => rfl
  | some 2 => rfl
  | some (n + 3) => simp

end

section
variable (hdue : s.pwr.voltAt + 1250000 ≤ s.sys.ticks)
include hdue

theorem exec_voltageRequestTimeout : exec .voltageRequestTimeout s = .next
    (if rdF s fPWR_PMSTAT_TRIES < 3 then
      { emit0 (wrF s fPWR_PMSTAT_TRIES (rdF s fPWR_PMSTAT_TRIES + 1)) 0x580011 with pwr := { s.pwr with voltAt := s.sys.ticks } }
    else if s.pwr.run = some 2 then failWake s
    else followOn (if s.pwr.run = some 1 then
        endSleepWait { raiseFault (emit0 (clearRun s) 0x580016) 0x580016 63 with
          pwr := { (raiseFault (emit0 (clearRun s) 0x580016) 0x580016 63).pwr with wake := none } }
      else raiseFault (emit0 (clearRun s) 0x580016) 0x580016 63)) := by
  have hexec : exec .voltageRequestTimeout s = execVoltageRequestTimeout s := rfl
  have hcond : (!s.pwr.volt || !alwaysOn s || s.sys.halted || decide (s.sys.ticks < s.pwr.voltAt + 1250000)) = false := by
    rw [hvolt, hon, hrunning, decide_eq_false (Nat.not_lt.mpr hdue)]
    rfl
  simp only [hexec, execVoltageRequestTimeout, hcond, Bool.false_eq_true, if_false, beq_iff_eq, apply_ite Host.Outcome.next]

end
end

/-! ## Sleep -/

section
variable {s : State} (chans : BitVec 4) (hrun : s.pwr.run = some 1) (hvolt : s.pwr.volt = false) (hlive : live s = true) (hop : s.fuse.op = none)
include hrun hvolt hlive hop

theorem exec_sleepEntry : exec (.sleepEntry chans) s = .next
    (if rdF s fPWR_STATE_TGTS = 3 then
      if ((List.range 8).any fun n => (chain ((List.range 8).foldl stopChain s) n).st == 5) = true then (List.range 8).foldl stopChain s
      else enterDeep ((List.range 8).foldl stopChain s)
    else if rdF s fPWR_STATE_TGTS = 2 ∧ runningMoves s ≠ 0 then s
    else if rdF s fPWR_STATE_TGTS = 2 ∧ flowsToClear s ≠ [] then
      ((flowsToClear s).take 16).foldl (fun s m => startMove s 0 m.1 m.2.1 m.2.2 false) s
    else enterLight s (rdF s fPWR_STATE_TGTS) chans.toNat) := by
  have hexec : exec (.sleepEntry chans) s = execSleepEntry chans s := rfl
  have hcond : (s.pwr.run != some 1 || s.pwr.volt || !live s || s.fuse.op.isSome) = false := by rw [hrun, hvolt, hlive, hop]; rfl
  simp only [hexec, execSleepEntry, hcond, Bool.false_eq_true, if_false, apply_ite Host.Outcome.next, Bool.and_eq_true, decide_eq_true_eq, bne_iff_ne, Bool.not_eq_true', List.isEmpty_eq_false_iff]

end

theorem clearRun_state (s : State) {g : Fld} (hg : g.unit = 22 ∧ g.word = 0x12) (hapart : g.lo + g.w ≤ 4 ∨ 9 ≤ g.lo) : rdF (clearRun s) g = rdF s g := by
  have hbusy : g.lo + g.w ≤ fPWR_STATE_BUSY.lo ∨ fPWR_STATE_BUSY.lo + fPWR_STATE_BUSY.w ≤ g.lo := by show _ ≤ 8 ∨ 8 + 1 ≤ _; omega
  have hst : g.lo + g.w ≤ fPWR_STATE_TGTS.lo ∨ fPWR_STATE_TGTS.lo + fPWR_STATE_TGTS.w ≤ g.lo := by show _ ≤ 4 ∨ 4 + 2 ≤ _; omega
  have hl : g.lo + g.w ≤ fPWR_STATE_TGTL.lo ∨ fPWR_STATE_TGTL.lo + fPWR_STATE_TGTL.w ≤ g.lo := by show _ ≤ 6 ∨ 6 + 2 ≤ _; omega
  have hlast : ∀ t : State, ∀ a b, rdF { wrF (wrF t fPWR_STATE_TGTS a) fPWR_STATE_TGTL b with pwr := { t.pwr with run := none, volt := false } } g = rdF t g := by
    intro t a b
    refine (rdF_congr (s := wrF (wrF t fPWR_STATE_TGTS a) fPWR_STATE_TGTL b) rfl g 0 0).trans ?_
    rw [rdF_wrF_state _ b ⟨rfl, rfl, by decide⟩ hg hl, rdF_wrF_state _ a ⟨rfl, rfl, by decide⟩ hg hst]
  refine (hlast (wrF (wrF s fPWR_STATE_BUSY 0) fPWR_PMSTAT_TRIES 0) _ _).trans ?_
  rw [rdF_wrF_tries _ 0 hg, rdF_wrF_state _ 0 ⟨rfl, rfl, by decide⟩ hg hbusy]

/-- The word of the power state once the module sleeps in state st. -/
theorem asleep_state (s : State) (st : Nat) {g : Fld} (hg : g.unit = 22 ∧ g.word = 0x12) (hapart : g.lo + g.w ≤ 4 ∨ 9 ≤ g.lo) :
    rdF (asleep s st) g = rdF (wrF (wrF (wrF s fPWR_STATE_CURS st) fPWR_STATE_CURL 3) fPWR_STATE_PENDV 0) g := by
  have hwords : (asleep s st).words = (clearRun (wrF (wrF (wrF s fPWR_STATE_CURS st) fPWR_STATE_CURL 3) fPWR_STATE_PENDV 0)).words := by
    rw [asleep, commitJournal, emit1_words]
  rw [rdF_congr hwords g 0 0, clearRun_state _ hg hapart]

theorem asleep_sleeps (s : State) {st : Nat} (hst : st < 4) : rdF (asleep s st) fPWR_STATE_CURS = st := by
  rw [asleep_state s st ⟨rfl, rfl⟩ (by decide), rdF_wrF_state _ 0 ⟨rfl, rfl, by decide⟩ ⟨rfl, rfl⟩ (by decide),
    rdF_wrF_state _ 3 ⟨rfl, rfl, by decide⟩ ⟨rfl, rfl⟩ (by decide), rdF_wrF_same _ _ _ _ _ (by decide)]
  exact Nat.mod_eq_of_lt hst

theorem asleep_level (s : State) (st : Nat) : rdF (asleep s st) fPWR_STATE_CURL = 3 := by
  rw [asleep_state s st ⟨rfl, rfl⟩ (by decide), rdF_wrF_state _ 0 ⟨rfl, rfl, by decide⟩ ⟨rfl, rfl⟩ (by decide), rdF_wrF_same _ _ _ _ _ (by decide)]
  rfl

theorem asleep_pending (s : State) (st : Nat) : onF (asleep s st) fPWR_STATE_PENDV = false := by
  rw [onF, asleep_state s st ⟨rfl, rfl⟩ (by decide), rdF_wrF_same _ _ _ _ _ (by decide)]
  rfl

theorem asleep_run (s : State) (st : Nat) : (asleep s st).pwr.run = none := by rw [asleep, commitJournal, emit1_pwr, clearRun]

theorem inS3_enterDeep (s : State) : inS3 (enterDeep s) = true := by simp only [enterDeep, inS3, driveMate, wrF_sys]; rfl

/-! ## Wake events -/

theorem wakeSource_waits {s : State} {k : Nat} (hsleep : rdF s fPWR_STATE_CURS ≠ 0 ∨ s.pwr.run = some 1) (hfailed : s.pwr.failed = false)
    (hwake : s.pwr.wake = none) (henabled : (rdF s fPWR_WAKEMASK_EN).testBit k = true) :
    wakeSource s k = { s with pwr := { s.pwr with wake := some (k, decide (s.pwr.run = some 1)) } } := by
  have hasleep : (rdF s fPWR_STATE_CURS == 0 && !entering s) = false := by
    rw [Bool.and_eq_false_iff, beq_eq_false_iff_ne, entering]
    exact hsleep.imp_right fun h => by rw [h]; rfl
  have hentering : entering s = decide (s.pwr.run = some 1) := Bool.beq_eq_decide_eq _ _
  rw [wakeSource, hasleep, hfailed, hwake, bitOf_eq_testBit, henabled, hentering]
  exact if_neg (by decide)

theorem exec_doorbellWake {n : ChainI} {s : State} (hup : hostUp s = true) (hopen : hostOpen s = true) : exec (.doorbellWake n) s = .next (wakeSource s 4) :=
  onHost_open hup hopen fun s => wakeSource s 4

theorem exec_ponForcedWake {c : Chan} {s : State} (hlive : live s = true) (hactive : active s 5 c = true) (hlock : onF s fPON_CHSTAT_LOCK c = true) :
    exec (.ponForcedWake c) s = .next (wakeSource s 0) := by
  have hexec : exec (.ponForcedWake c) s = execPonForcedWake c s := rfl
  rw [hexec, execPonForcedWake, hlive, hactive, hlock]
  rfl

theorem exec_wakeEvent {s x : State} (hwake : s.pwr.wake.isSome = true) (hrun : s.pwr.run = none) (hfailed : s.pwr.failed = false)
    (hrunning : s.sys.halted = false) (hon : alwaysOn s = true) (hsleep : rdF s fPWR_STATE_CURS ≠ 0)
    (hx : x = beginTransition s 2 0 (if inS3 s then 0 else wantedLevel s)) :
    exec .wakeEvent s = .next (if x.pwr.volt then x else completeWake x) := by
  have hexec : exec .wakeEvent s = execWakeEvent s := rfl
  have hnone : s.pwr.wake.isNone = false := by rw [← Option.not_isSome, hwake]; rfl
  have hcond : ¬(s.pwr.wake.isNone || s.pwr.run.isSome || s.pwr.failed || s.sys.halted || !alwaysOn s || decide (rdF s fPWR_STATE_CURS = 0)) = true := by
    rw [hnone, hrun, hfailed, hrunning, hon, decide_eq_false hsleep]
    decide
  rw [hexec, execWakeEvent, if_neg hcond, ← hx]

/-! ## Pads, overload, the core's voltage and the temperature -/

theorem exec_padRelease {e : Eng} {v : Word} {s x y : State} (haccept : accept s e false (fAddr fPWR_PADS_REL 0 0) v = some x)
    (hy : y = wrF x fPWR_PADS_HELD 0) : exec (.padRelease e v) s = .next (if v.getLsbD 0 then { y with pwr := { x.pwr with hold := none } } else x) := by
  have hexec : exec (.padRelease e v) s = execPadRelease e v s := rfl
  rw [hexec, execPadRelease, onSet_of_accept _ haccept, bitOf_toNat, hy]
  cases v.getLsbD 0 <;> rfl

theorem exec_ovldRead {e : Eng} {s : State} (hready : getReady s e (fAddr fPWR_OVLD_CAUSE 0 0) = true) : exec (.ovldRead e) s =
    .next (wrF (answer s e (some (wd (rdF s fPWR_OVLD_CAUSE + 16 * b2n (overRecent s))))) fPWR_OVLD_CAUSE 0) := by
  have hexec : exec (.ovldRead e) s = execOvldRead e s := rfl
  rw [hexec, execOvldRead, hready]
  rfl

theorem exec_vcoreResult (mv : BitVec 12) {s : State} (hon : sensorsOn s = true) : exec (.vcoreResult mv) s = .next (result s fPWR_VCORE_MV mv.toNat) := if_pos hon

section
variable (t : BitVec 16) (k : Fin 16) {s x : State} {p : Nat} (hon : sensorsOn s = true) (hx : x = result s fPWR_TJ_T (t.toNat + 65536 * k.val))
  (hp : p = unsext t.toInt 24)

/-- What a first reading of 125 degrees or more comes to. -/
def tjForces (x : State) (p k : Nat) : State :=
  if onF x fPWR_STATE_FORCED || x.pwr.force.isSome then x
  else if x.pwr.run.isSome && (x.pwr.volt || x.pwr.run != some 1) then { x with pwr := { x.pwr with force := some (p, k) } }
  else beginForce x p k

/-- What a forced module comes to once it has cooled: z is the state after the event. -/
def tjReleased (z : State) (l : Nat) : State :=
  if rdF z fPWR_STATE_CURS != 0 || z.pwr.run == some 1 || z.pwr.run == some 2 then z
  else if z.pwr.run.isSome then
    (if onF z fPWR_STATE_PENDV && rdF z fPWR_STATE_PENDS != 0 then z
     else wrF (wrF (wrF z fPWR_STATE_PENDV 1) fPWR_STATE_PENDS 0) fPWR_STATE_PENDL l)
  else if atLevel z l then z
  else beginLevel z l

theorem sext_toNat : sext t.toNat 16 = t.toInt := by
  rw [sext, BitVec.toInt_eq_toNat_cond]
  have := t.isLt
  split <;> split <;> omega

include hon hx hp

theorem exec_tjSample : exec (.tjSample t k) s = .next
    (if 1350 ≤ t.toInt then
      (if isReady s (fAddr fPWR_TJ_T 0 0) && decide (1350 ≤ sext (rdF s fPWR_TJ_T) 16) then x
       else raiseFault (emitM x 0x580022 p k (curLevel x) (now x) true) 0x580022 63)
    else if x.sys.halted then x
    else if 1250 ≤ t.toInt then tjForces x p k
    else if t.toInt < 1150 ∧ onF x fPWR_STATE_FORCED = true then
      tjReleased { emit1 (wrF x fPWR_STATE_FORCED 0) 0x580021 (rdF x fPWR_LEVEL_REQ) with
        plc := { (emit1 (wrF x fPWR_STATE_FORCED 0) 0x580021 (rdF x fPWR_LEVEL_REQ)).plc with still := true } } (rdF x fPWR_LEVEL_REQ)
    else x) := by
  have hexec : exec (.tjSample t k) s = execTjSample t k s := rfl
  simp only [hexec, execTjSample, hon, Bool.not_true, Bool.false_eq_true, if_false, sext_toNat, ← hx, ← hp, apply_ite Host.Outcome.next, tjForces, tjReleased]

end

theorem beginForce_forced (x : State) (p k : Nat) : onF (beginForce x p k) fPWR_STATE_FORCED = true := by
  have hwords : ∀ t : State, t.words = (wrF x fPWR_STATE_FORCED 1).words → onF t fPWR_STATE_FORCED = true := by
    intro t h
    rw [onF_congr h fPWR_STATE_FORCED 0 0, onF, rdF_wrF_same _ _ _ _ _ (by decide)]
    rfl
  rw [beginForce]
  split
  · rw [beginLevel, onF, rdF_beginTransition _ 0 _ 3 ⟨rfl, rfl⟩, rdF_levelRaised _ 3 ⟨rfl, rfl⟩ (by decide), targetNamed,
      rdF_wrF_state _ 3 ⟨rfl, rfl, by decide⟩ ⟨rfl, rfl⟩ (by decide), rdF_wrF_state _ _ ⟨rfl, rfl, by decide⟩ ⟨rfl, rfl⟩ (by decide),
      rdF_wrF_state _ 1 ⟨rfl, rfl, by decide⟩ ⟨rfl, rfl⟩ (by decide)]
    exact hwords _ (emit_words (wrF x fPWR_STATE_FORCED 1) 0x580020 p k (curLevel x))
  · exact hwords _ (emit_words (wrF x fPWR_STATE_FORCED 1) 0x580020 p k (curLevel x))

theorem beginForce_level {x : State} (p k : Nat) (hawake : rdF x fPWR_STATE_CURS = 0) : curLevel (beginForce x p k) = 3 := by
  have hawake' : ∀ t : State, t.words = (wrF x fPWR_STATE_FORCED 1).words → rdF t fPWR_STATE_CURS = 0 := by
    intro t h
    rwa [rdF_congr h fPWR_STATE_CURS 0 0, rdF_wrF_state _ 1 ⟨rfl, rfl, by decide⟩ ⟨rfl, rfl⟩ (by decide)]
  rw [beginForce]
  split
  · rw [beginLevel, beginTransition_level _ _ _ (by decide)]
    exact max_eq_right (Nat.le_of_lt_succ (curLevel_lt _))
  next h =>
    rw [not_and, Bool.not_eq_false] at h
    exact beq_iff_eq.mp (Bool.and_eq_true_iff.mp (h (hawake' _ (emit_words (wrF x fPWR_STATE_FORCED 1) 0x580020 p k (curLevel x))))).1

/-- Settles O57: level requests, the voltage exchange, sleep entry, wake events, pads and temperature. -/
theorem levelsAreReachedAndSleepIsEnteredAndLeft : Obligations.LevelsAreReachedAndSleepIsEnteredAndLeft := by
  refine ⟨fun e v s x y haccept hy => ⟨exec_levelRequest_waits haccept hy, exec_levelRequest_taken haccept hy⟩, ?transition, ?voltage, ?entry,
    fun s st hst => ⟨asleep_sleeps s hst, asleep_level s st, asleep_pending s st, asleep_run s st, inS3_enterDeep s⟩,
    fun s k => wakeSource_waits, fun n c s => ⟨exec_doorbellWake, exec_ponForcedWake⟩, ?wake, fun e v s x y => exec_padRelease,
    fun e s => exec_ovldRead, fun mv s => exec_vcoreResult mv, ?temperature⟩
  case transition =>
    intro s x st l kind hst hl
    exact ⟨requestPair_idle s st l, requestPair_busy s st l, beginTransition_busy s kind st l, beginTransition_state s kind l hst,
      beginTransition_target s kind st hl, beginTransition_level s kind st hl, rfl, rfl, beginTransition_volt s kind st l⟩
  case voltage =>
    intro s x hvolt hon hrunning
    refine ⟨fun hx => ?_, fun hdue hx => ?_⟩
    · rw [exec_voltageAck hvolt hon hrunning hx]
      refine ⟨fun hrun => ?_, fun hrun => ?_, fun hrun hs3 => ?_, fun hrun hs3 => ?_⟩
      · rw [if_pos hrun]
      · rw [hrun, if_neg (by decide), if_neg (by decide)]
      · rw [hrun, hs3]; rfl
      · rw [hrun, hs3]; rfl
    · rw [exec_voltageRequestTimeout hvolt hon hrunning hdue]
      refine ⟨fun hfew => ?_, fun hmany hrun => ?_, fun hmany hrun => ?_, fun y hmany hrun hy => ?_⟩
      · rw [if_pos hfew, hx]
      · rw [if_neg (Nat.not_lt.mpr hmany), if_pos hrun]
      · rw [if_neg (Nat.not_lt.mpr hmany), hrun, if_neg (by decide), if_neg (by decide)]
      · rw [if_neg (Nat.not_lt.mpr hmany), hrun, if_neg (by decide), if_pos rfl, hy]
  case entry =>
    intro chans s x hrun hvolt hlive hop
    rw [exec_sleepEntry chans hrun hvolt hlive hop]
    refine ⟨fun hst => ?_, fun hst hmoves hflows => ?_, fun hst hmoves hflows => ?_, fun hst hmoves => ?_, fun hst hx => ?_⟩
    · rw [hst]; rfl
    · rw [hst, hmoves, hflows]; rfl
    · rw [hst, if_neg (by decide), if_neg (fun h => h.2 hmoves), if_pos ⟨rfl, hflows⟩]
    · rw [hst, if_neg (by decide), if_pos ⟨rfl, hmoves⟩]
    · rw [if_pos hst, ← hx]
      refine ⟨fun hnone => congrArg _ (if_neg ?_), fun ⟨n, hn, hex⟩ => congrArg _ (if_pos ?_)⟩
      · rw [List.any_eq_true]
        rintro ⟨n, hn, hex⟩
        exact hnone n (List.mem_range.mp hn) (beq_iff_eq.mp hex)
      · exact List.any_eq_true.mpr ⟨n, List.mem_range.mpr hn, beq_iff_eq.mpr hex⟩
  case wake =>
    intro s x hwake hrun hfailed hrunning hon hsleep hx
    rw [exec_wakeEvent hwake hrun hfailed hrunning hon hsleep hx]
    exact ⟨fun h => by rw [if_pos h], fun h => by rw [h]; rfl⟩
  case temperature =>
    intro t k s x p hon hx hp
    have hhalted : x.sys.halted = s.sys.halted := by rw [hx, result_sys]
    rw [exec_tjSample t k hon hx hp, hhalted]
    refine ⟨fun hfault hfirst => ?_, fun hfault hready hagain => ?_, fun hhalt hbelow => ?_, fun hrunning => ⟨fun hhot hbelow => ⟨fun hforced => ?_, fun hfree hforce =>
      ⟨fun hrun hkind => ?_, fun hrun => ?_⟩⟩, fun hlow hbelow => ?_, fun hcool hfree => ?_, fun hcool hforced l y z hl hy hz => ?_⟩,
      beginForce_forced x p k, beginForce_level p k⟩
    · rw [if_pos hfault, if_neg]
      rw [Bool.and_eq_true, decide_eq_true_eq, not_and_or, Bool.not_eq_true, Int.not_le]
      exact hfirst
    · rw [if_pos hfault, hready, decide_eq_true hagain]; rfl
    · rw [if_neg (Int.not_le.mpr hbelow), if_pos hhalt]
    · rw [if_neg (Int.not_le.mpr hbelow), hrunning, if_neg Bool.false_ne_true, if_pos hhot, tjForces, if_pos (Bool.or_eq_true_iff.mpr hforced)]
    · rw [if_neg (Int.not_le.mpr hbelow), hrunning, if_neg Bool.false_ne_true, if_pos hhot, tjForces, hfree, hforce, hrun, if_neg (by decide), if_pos]
      rwa [Bool.true_and, Bool.or_eq_true, bne_iff_ne]
    · rw [if_neg (Int.not_le.mpr hbelow), hrunning, if_neg Bool.false_ne_true, if_pos hhot, tjForces, hfree, hforce, if_neg (by decide), if_neg]
      rcases hrun with hrun | ⟨hrun, hvolt⟩
      · rw [hrun]; simp
      · rw [hrun, hvolt]; decide
    · rw [if_neg (by omega), hrunning, if_neg Bool.false_ne_true, if_neg (by omega), if_neg (fun h => absurd h.1 (by omega))]
    · rw [if_neg (by omega), hrunning, if_neg Bool.false_ne_true, if_neg (by omega), hfree, if_neg (fun h => absurd h.2 Bool.false_ne_true)]
    · rw [if_neg (by omega), hrunning, if_neg Bool.false_ne_true, if_neg (by omega), if_pos ⟨hcool, hforced⟩, ← hl, ← hy, ← hz, tjReleased]
      refine ⟨fun hbusy => ?_, fun hawake hrun => ?_, fun hawake hrun => ?_⟩
      · rw [if_pos]
        rwa [Bool.or_eq_true, Bool.or_eq_true, bne_iff_ne, beq_iff_eq, beq_iff_eq, or_assoc]
      · rw [hawake, hrun]
        rfl
      · rw [hawake, hrun, if_neg (by decide), if_pos (by decide)]
        simp only [Bool.and_eq_true, bne_iff_ne]

end Sys2Proof.Machine
end

section
/-! The pair: roles, heartbeats, grace, the mirror and the partner's messages (R595 to R611), and the statement about them. -/
namespace Sys2Proof.Machine

/-! ## The word of the pair's state -/

/-- A field of PSTAT that lies apart from the one written reads as before. -/
theorem rdF_wrF_pstat (s : State) (v : Nat) {f g : Fld} (hf : f.unit = 23 ∧ f.word = 0x15 ∧ f.lo + f.w ≤ 24) (hg : g.unit = 23 ∧ g.word = 0x15)
    (hapart : g.lo + g.w ≤ f.lo ∨ f.lo + f.w ≤ g.lo) : rdF (wrF s f v) g = rdF s g := by
  obtain ⟨hfu, hfw, hfit⟩ := hf
  obtain ⟨hgu, hgw⟩ := hg
  refine rdF_wrF_apart s f g v 0 0 0 0 ?_ hfit hapart
  rw [fAddr, fAddr, hfu, hfw, hgu, hgw]

/-- A field of another word of PAIR reads as before a field of PSTAT was written. -/
theorem rdF_wrF_offPstat (s : State) (v : Nat) {f g : Fld} (hf : f.word = 0x15) (hg : g.word < 512) (hne : g.word ≠ 0x15) :
    rdF (wrF s f v) g = rdF s g := rdF_wrF_off s f g v 0 (by rw [hf]; decide) hg (by decide) (by rw [hf]; exact hne)

theorem onF_wrF_same (s : State) (f : Fld) (b : Bool) (hw : f.w = 1) (hfit : f.lo + f.w ≤ 24) : onF (wrF s f (b2n b)) f = b := by
  rw [onF, rdF_wrF_same _ _ _ _ _ hfit, hw]
  cases b <;> rfl

/-- Whether a unit is ACTIVE stands in its own two words, which no field of PSTAT touches. -/
theorem active_wrF_pstat (s : State) (v : Nat) {f : Fld} (hu : f.unit = 23) (hf : f.word = 0x15) : active (wrF s f v) 0x17 0 = active s 0x17 0 := by
  have hread : ∀ w, w < 3 → rdW (wrF s f v) (uaddr 0x17 0 w) = rdW s (uaddr 0x17 0 w) := by
    intro w hw
    refine rdW_wrW_other _ _ ?_
    rw [fAddr, hu, hf, uaddr, uaddr]
    omega
  simp only [active, ustat, hread 1 (by decide), hread 2 (by decide)]

/-- The mate lines' two bits are all that driving them writes. -/
theorem rdF_driveMate (s : State) {g : Fld} (hg : g.unit = 23 ∧ g.word = 0x15) (hapart : g.lo + g.w ≤ 2 ∨ 4 ≤ g.lo) :
    rdF (driveMate s) g = rdF s g := by
  have hfit : g.lo + g.w ≤ fPAIR_PSTAT_FIT.lo ∨ fPAIR_PSTAT_FIT.lo + fPAIR_PSTAT_FIT.w ≤ g.lo := by show _ ≤ 3 ∨ 3 + 1 ≤ _; omega
  have hact : g.lo + g.w ≤ fPAIR_PSTAT_ACT.lo ∨ fPAIR_PSTAT_ACT.lo + fPAIR_PSTAT_ACT.w ≤ g.lo := by show _ ≤ 2 ∨ 2 + 1 ≤ _; omega
  rw [driveMate, rdF_wrF_pstat _ _ ⟨rfl, rfl, by decide⟩ hg hact, rdF_wrF_pstat _ _ ⟨rfl, rfl, by decide⟩ hg hfit]

theorem onF_driveMate_act (s : State) : onF (driveMate s) fPAIR_PSTAT_ACT = (pairOn s && role s == 3) := onF_wrF_same _ _ _ rfl (by decide)

/-! ## Roles -/

section
variable {s : State}

theorem exec_seekTimeout (hon : pairOn s = true) (hrole : role s = 1) (hdue : s.pair.seekAt + seekTicks s ≤ s.sys.ticks)
    (hfit : onF s fPAIR_PSTAT_FIT = true) (hpact : onF s fPAIR_PSTAT_PACT = false) : exec .seekTimeout s = .next (enterActive s 2) := by
  have hexec : exec .seekTimeout s = execSeekTimeout s := rfl
  have hcond : (!pairOn s || role s != 1 || decide (s.sys.ticks < s.pair.seekAt + seekTicks s) || !onF s fPAIR_PSTAT_FIT || onF s fPAIR_PSTAT_PACT) = false := by
    rw [hon, hrole, decide_eq_false (Nat.not_lt.mpr hdue), hfit, hpact]
    rfl
  simp only [hexec, execSeekTimeout, hcond, Bool.false_eq_true, if_false]

section
variable {fit : Bool} (halways : alwaysOn s = true)
include halways

theorem exec_mateActInFall {x : State} (hpact : onF s fPAIR_PSTAT_PACT = true) (hx : x = wrF (wrF s fPAIR_PSTAT_PFIT (b2n fit)) fPAIR_PSTAT_PACT 0) :
    exec (.mateActInFall fit) s = .next (if pairOn x && mayTakeOver x then enterActive x 3 else x) := by
  have hexec : exec (.mateActInFall fit) s = execMateActInFall fit s := rfl
  simp only [hexec, execMateActInFall, halways, hpact, Bool.not_true, Bool.false_eq_true, if_false, Bool.true_and, ← hx]

theorem exec_mateActInRise {x : State} (hpact : onF s fPAIR_PSTAT_PACT = false) (hx : x = wrF (wrF s fPAIR_PSTAT_PFIT (b2n fit)) fPAIR_PSTAT_PACT 1) :
    exec (.mateActInRise fit) s = .next (wakeSource (if pairOn s && role s == 1 then enterStandby x 1 else x) 5) := by
  have hexec : exec (.mateActInRise fit) s = execMateActInRise fit s := rfl
  have hpair : pairOn x = pairOn s := by
    have hlive : live x = live s := by rw [hx]; rfl
    have hactive : active x 0x17 0 = active s 0x17 0 := by rw [hx, active_wrF_pstat _ _ rfl rfl, active_wrF_pstat _ _ rfl rfl]
    rw [pairOn, pairOn, hlive, hactive]
  have hrole : role x = role s := by
    rw [role, hx, rdF_wrF_pstat _ _ ⟨rfl, rfl, by decide⟩ ⟨rfl, rfl⟩ (by decide), rdF_wrF_pstat _ _ ⟨rfl, rfl, by decide⟩ ⟨rfl, rfl⟩ (by decide), role]
  simp only [hexec, execMateActInRise, halways, hpact, Bool.not_true, Bool.or_self, Bool.false_eq_true, if_false, ← hx, hpair, hrole]

end

theorem heldRequests_words (s : State) : (heldRequests s false).words = s.words := by
  refine foldl_keeps (f := State.words) (fun t x => ?_) _ _
  simp only [Bool.false_eq_true, if_false]
  split <;> rfl

/-- The state that gives up the role of ACTIVE, where it has it. -/
def activeLeft (s : State) (cause : Nat) : State := if role s == 3 then emit1 (leaveActive s) 0x5c0011 cause else s

/-- The state of a module that becomes STANDBY, before it drives the mate lines. -/
def standbyNoted (s : State) (cause : Nat) : State :=
  let x := wrF (wrF (activeLeft s cause) fPAIR_PSTAT_ROLE 2) fPAIR_PSTAT_SYNCED 0
  roleNote { x with
    msec := { x.msec with sa := x.msec.sa.map fun (k : Nat × Option Sa) => (k.1, k.2.map fun y => { y with mir := false }) }
    pair := { x.pair with resync := true, recIn := none, recAt := x.sys.ticks } } cause

theorem enterStandby_eq (s : State) (cause : Nat) : enterStandby s cause = driveMate (standbyNoted s cause) := rfl

theorem rdF_activeLeft (s : State) (cause : Nat) {g : Fld} (hg : g.unit = 23 ∧ g.word = 0x15) (hapart : g.lo + g.w ≤ 10) :
    rdF (activeLeft s cause) g = rdF s g := by
  rw [activeLeft]
  split
  · have hwords : (emit1 (leaveActive s) 0x5c0011 cause).words = (wrF s fPAIR_PSTAT_GRACE 0).words := by
      rw [emit1_words]
      exact heldRequests_words _
    rw [rdF_congr hwords, rdF_wrF_pstat _ _ ⟨rfl, rfl, by decide⟩ hg (.inl hapart)]
  · rfl

theorem onF_activeLeft_grace (s : State) (cause : Nat) :
    onF (activeLeft s cause) fPAIR_PSTAT_GRACE = (if role s = 3 then false else onF s fPAIR_PSTAT_GRACE) := by
  rw [activeLeft]
  by_cases h : role s = 3
  · have hwords : (emit1 (leaveActive s) 0x5c0011 cause).words = (wrF s fPAIR_PSTAT_GRACE (b2n false)).words := by
      rw [emit1_words]
      exact heldRequests_words _
    rw [if_pos (beq_iff_eq.mpr h), if_pos h, onF_congr hwords, onF_wrF_same _ _ _ rfl (by decide)]
  · rw [if_neg (fun hb => h (beq_iff_eq.mp hb)), if_neg h]

theorem rdF_standbyNoted (s : State) (cause : Nat) {g : Fld} (hg : g.unit = 23 ∧ g.word = 0x15) :
    rdF (standbyNoted s cause) g = rdF (wrF (wrF (activeLeft s cause) fPAIR_PSTAT_ROLE 2) fPAIR_PSTAT_SYNCED 0) g := by
  obtain ⟨hgu, hgw⟩ := hg
  have hne : fAddr g 0 0 ≠ fAddr fPAIR_PWHY_CAUSE 0 0 := by rw [fAddr, hgu, hgw]; decide
  have hword : rdW (standbyNoted s cause) (fAddr g 0 0) =
      rdW (wrF (wrF (activeLeft s cause) fPAIR_PSTAT_ROLE 2) fPAIR_PSTAT_SYNCED 0) (fAddr g 0 0) := by
    simp only [standbyNoted, roleNote, rdW, count_words]
    exact rdW_result_other _ fPAIR_PWHY_CAUSE cause 0 0 hne
  rw [rdF, rdF, hword]

theorem enterStandby_resync (s : State) (cause : Nat) : (enterStandby s cause).pair.resync = true := by
  have hpair : (enterStandby s cause).pair = (standbyNoted s cause).pair := rfl
  simp only [hpair, standbyNoted, roleNote, count_pair]
  rfl

theorem role_standbyNoted (s : State) (cause : Nat) : role (standbyNoted s cause) = 2 := by
  rw [role, rdF_standbyNoted s cause ⟨rfl, rfl⟩, rdF_wrF_pstat _ _ ⟨rfl, rfl, by decide⟩ ⟨rfl, rfl⟩ (by decide), rdF_wrF_same _ _ _ _ _ (by decide)]
  rfl

theorem role_enterStandby (s : State) (cause : Nat) : role (enterStandby s cause) = 2 := by
  rw [enterStandby_eq, role, rdF_driveMate _ ⟨rfl, rfl⟩ (by decide), ← role, role_standbyNoted]

theorem enterStandby_synced (s : State) (cause : Nat) : onF (enterStandby s cause) fPAIR_PSTAT_SYNCED = false := by
  rw [enterStandby_eq, onF, rdF_driveMate _ ⟨rfl, rfl⟩ (by decide), rdF_standbyNoted s cause ⟨rfl, rfl⟩, rdF_wrF_same _ _ _ _ _ (by decide)]
  rfl

theorem enterStandby_act (s : State) (cause : Nat) : onF (enterStandby s cause) fPAIR_PSTAT_ACT = false := by
  rw [enterStandby_eq, onF_driveMate_act, role_standbyNoted, Bool.and_eq_false_iff]
  exact .inr rfl

theorem enterStandby_grace (s : State) (cause : Nat) :
    onF (enterStandby s cause) fPAIR_PSTAT_GRACE = (if role s = 3 then false else onF s fPAIR_PSTAT_GRACE) := by
  rw [enterStandby_eq, onF, rdF_driveMate _ ⟨rfl, rfl⟩ (by decide), rdF_standbyNoted s cause ⟨rfl, rfl⟩,
    rdF_wrF_pstat _ _ ⟨rfl, rfl, by decide⟩ ⟨rfl, rfl⟩ (by decide), rdF_wrF_pstat _ _ ⟨rfl, rfl, by decide⟩ ⟨rfl, rfl⟩ (by decide), ← onF,
    onF_activeLeft_grace]

theorem enterStandby_cause (s : State) (cause : Nat) : rdF (enterStandby s cause) fPAIR_PWHY_CAUSE = cause % 16 := by
  rw [enterStandby_eq, driveMate, rdF_wrF_offPstat _ _ rfl (by decide) (by decide), rdF_wrF_offPstat _ _ rfl (by decide) (by decide), rdF]
  have hword : rdW (standbyNoted s cause) (fAddr fPAIR_PWHY_CAUSE 0 0) = wd cause := by
    simp only [standbyNoted, roleNote, rdW, count_words]
    exact rdW_result_same _ fPAIR_PWHY_CAUSE cause 0 0
  rw [hword, wd, BitVec.toNat_ofNat, bitsOf_zero]
  exact Nat.mod_mod_of_dvd _ (by decide)

/-! ## Heartbeats -/

theorem exec_heartbeatSend (hon : pairOn s = true) (hpaced : paced s paceBeat 6250 = true) {p : PairSt}
    (hp : p = { s.pair with beats := (s.pair.beats + 1) % 2 ^ 16 }) : exec .heartbeatSend s = .next
    (if linkUp s 32 || linkUp s 33 then
      wrF { setPace s paceBeat with pair := { p with out := [], left := if s.pair.out.isEmpty then s.pair.left else s.pair.out } } fPAIR_MTXRES_FULL 0
    else wrF { setPace s paceBeat with pair := p } fPAIR_MTXRES_FULL (b2n (64 ≤ s.pair.out.length))) := by
  have hexec : exec .heartbeatSend s = execHeartbeatSend s := rfl
  have hlink : ∀ k, linkUp (setPace s paceBeat) k = linkUp s k := fun k => rfl
  simp only [hexec, execHeartbeatSend, hon, hpaced, Bool.not_true, Bool.or_self, Bool.false_eq_true, if_false, hlink, hp]
  split <;> rfl

theorem exec_partnerNotHeard (hon : pairOn s = true) : exec .partnerNotHeard s = .next (notHeard (showHeard s)) := if_pos hon

theorem notHeard_idle (h : onF s fPAIR_PSTAT_HEARD = true ∨ onF s fPAIR_PSTAT_PACT = false) : notHeard s = s := by
  rw [notHeard, if_pos]
  rcases h with h | h <;> simp [h]

section
variable (hheard : onF s fPAIR_PSTAT_HEARD = false) (hpact : onF s fPAIR_PSTAT_PACT = true)
include hheard hpact

theorem notHeard_takes (hmay : mayTakeOver s = true) : notHeard s = enterActive s 4 := by
  rw [notHeard, hheard, hpact, hmay]
  rfl

theorem notHeard_yields (hrole : role s = 3) (hgrace : onF s fPAIR_PSTAT_GRACE = false) (hpulse : ∀ t, s.pair.pulseAt = some t → t + 62500 ≤ s.sys.ticks) :
    notHeard s = enterStandby s 7 := by
  have hmay : mayTakeOver s = false := by rw [mayTakeOver, hrole]; rfl
  have hpulse' : s.pair.pulseAt.any (fun (t : Nat) => decide (s.sys.ticks < t + 62500)) = false := by
    cases h : s.pair.pulseAt with
    | none => rfl
    | some t => exact decide_eq_false (Nat.not_lt.mpr (hpulse t h))
  rw [notHeard, hheard, hpact, hmay, hrole, hgrace, hpulse']
  rfl

end

/-- The heartbeats heard on lane k, once another is. -/
def beatHeard (s : State) (k : Fin 2) (mate fit primary seq : Nat) : PairSt :=
  { s.pair with
    heard := tset (fun _ => none) s.pair.heard k (some seq)
    beatAt := tset (fun _ => 0) s.pair.beatAt k s.sys.ticks
    heardAt := some (s.pair.heardAt.getD s.sys.ticks)
    mate := some (mate, fit, primary) }

/-- The number of heartbeats that lane k has lost before the one of this sequence number. -/
def beatsLost (s : State) (k : Fin 2) (seq : Nat) : Nat :=
  (tget (fun _ => (none : Option Nat)) s.pair.heard k).elim 0 fun p => (seq + 65536 - p - 1) % 65536

theorem beatsLost_none {k : Fin 2} (seq : Nat) (h : tget (fun _ => (none : Option Nat)) s.pair.heard k = none) : beatsLost s k seq = 0 := by
  rw [beatsLost, h, Option.elim_none]

theorem beatsLost_some {k : Fin 2} (seq : Nat) {p : Nat} (h : tget (fun _ => (none : Option Nat)) s.pair.heard k = some p) :
    beatsLost s k seq = (seq + 65536 - p - 1) % 65536 := by rw [beatsLost, h, Option.elim_some]

/-- The state that has noted a heartbeat and its serial number's two words. -/
def beatNoted (s : State) (k : Fin 2) (mate fit primary seq high low : Nat) : State :=
  wrF (wrF { count s 0x17 kPairLost k (beatsLost s k seq) with pair := beatHeard s k mate fit primary seq } fPAIR_PSER1_SN high) fPAIR_PSER0_SN low

/-- The state after a heartbeat, before the roles. -/
def beatTaken (s : State) (k : Fin 2) (mate fit primary seq high low : Nat) : State := showHeard (beatNoted s k mate fit primary seq high low)

/-- Whether lane k's heartbeats are heard. -/
def beatFresh (s : State) (k : Nat) : Bool :=
  (tget (fun _ => none) s.pair.heard k).isSome && decide (s.sys.ticks ≤ tget (fun _ => 0) s.pair.beatAt k + 18750)

theorem showHeard_eq (s : State) : showHeard s =
    wrF (wrF s fPAIR_PSTAT_LANES (b2n (beatFresh s 0) + 2 * b2n (beatFresh s 1))) fPAIR_PSTAT_HEARD (b2n (beatFresh s 0 || beatFresh s 1)) := rfl

theorem onF_showHeard (s : State) : onF (showHeard s) fPAIR_PSTAT_HEARD = (beatFresh s 0 || beatFresh s 1) := by
  rw [showHeard_eq, onF_wrF_same _ _ _ rfl (by decide)]

theorem rdF_showHeard_off (s : State) {g : Fld} (hg : g.word < 512) (hne : g.word ≠ 0x15) : rdF (showHeard s) g = rdF s g := by
  rw [showHeard_eq, rdF_wrF_offPstat _ _ rfl hg hne, rdF_wrF_offPstat _ _ rfl hg hne]

theorem role_showHeard (s : State) : role (showHeard s) = role s := by
  rw [role, showHeard_eq, rdF_wrF_pstat _ _ ⟨rfl, rfl, by decide⟩ ⟨rfl, rfl⟩ (by decide), rdF_wrF_pstat _ _ ⟨rfl, rfl, by decide⟩ ⟨rfl, rfl⟩ (by decide), role]

/-- What the roles come to after a heartbeat of the partner's role, with this PRIMARY and serial number. -/
def beatRoles (s : State) (mate primary sn : Nat) : State :=
  if mate = 3 ∧ role s = 1 then enterStandby s 1
  else if mate = 3 ∧ role s = 3 ∧ (rdF s fPAIR_PCFG_PRIMARY < primary ∨ (rdF s fPAIR_PCFG_PRIMARY = primary ∧ sn < serialNumber)) then enterStandby s 8
  else s

section
variable (s : State) (k : Fin 2) (mate fit primary seq high low : Nat)

theorem beatNoted_pair : (beatNoted s k mate fit primary seq high low).pair = beatHeard s k mate fit primary seq := by
  rw [beatNoted, wrF_pair, wrF_pair]

theorem beatNoted_sys : (beatNoted s k mate fit primary seq high low).sys = s.sys := by
  rw [beatNoted, wrF_sys, wrF_sys]
  exact count_sys ..

theorem rdF_beatNoted {g : Fld} (hg : g.word < 512) (hne0 : g.word ≠ 0x31) (hne1 : g.word ≠ 0x30) :
    rdF (beatNoted s k mate fit primary seq high low) g = rdF s g := by
  rw [beatNoted, rdF_wrF_off _ fPAIR_PSER0_SN g _ 0 (by decide) hg (by decide) hne0,
    rdF_wrF_off _ fPAIR_PSER1_SN g _ 0 (by decide) hg (by decide) hne1]
  exact rdF_congr (count_words ..) g 0 0

/-- Words, pair and counters put back, a written field leaves nothing changed. -/
theorem wrF_restored (s : State) (f : Fld) (v : Nat) (w : Tab Word) (p : PairSt) (c : CntSt) :
    { wrF s f v with words := w, pair := p, cnt := c } = { s with words := w, pair := p, cnt := c } := rfl

theorem beatTaken_frame : { beatTaken s k mate fit primary seq high low with words := s.words, pair := s.pair, cnt := s.cnt } = s := by
  rw [beatTaken, showHeard_eq, wrF_restored, wrF_restored, beatNoted, wrF_restored, wrF_restored, count_eq]

theorem beatTaken_pair : (beatTaken s k mate fit primary seq high low).pair = beatHeard s k mate fit primary seq := by
  rw [beatTaken, showHeard_eq, wrF_pair, wrF_pair, beatNoted_pair]

theorem beatTaken_cnt : (beatTaken s k mate fit primary seq high low).cnt = (count s 0x17 kPairLost k (beatsLost s k seq)).cnt := by
  rw [beatTaken, showHeard_eq, wrF_cnt, wrF_cnt, beatNoted, wrF_cnt, wrF_cnt]

theorem beatFresh_beatNoted : beatFresh (beatNoted s k mate fit primary seq high low) k = true := by
  rw [beatFresh, beatNoted_pair, beatNoted_sys, beatHeard]
  simp only [tget_tset_same, Option.isSome_some, Bool.true_and, decide_eq_true_eq]
  exact Nat.le_add_right _ _

theorem beatTaken_heard : onF (beatTaken s k mate fit primary seq high low) fPAIR_PSTAT_HEARD = true := by
  rw [beatTaken, onF_showHeard, Bool.or_eq_true]
  have hfresh := beatFresh_beatNoted s k mate fit primary seq high low
  match k with
  | 0 => exact .inl hfresh
  | 1 => exact .inr hfresh

theorem beatTaken_primary : rdF (beatTaken s k mate fit primary seq high low) fPAIR_PCFG_PRIMARY = rdF s fPAIR_PCFG_PRIMARY := by
  rw [beatTaken, rdF_showHeard_off _ (by decide) (by decide), rdF_beatNoted s k _ _ _ _ _ _ (by decide) (by decide) (by decide)]

theorem beatTaken_role : role (beatTaken s k mate fit primary seq high low) = role s := by
  rw [beatTaken, role_showHeard, role, rdF_beatNoted s k _ _ _ _ _ _ (by decide) (by decide) (by decide), role]

theorem beatTaken_serialHigh (hhigh : high < 2 ^ 24) : rdF (beatTaken s k mate fit primary seq high low) fPAIR_PSER1_SN = high := by
  rw [beatTaken, rdF_showHeard_off _ (by decide) (by decide), beatNoted,
    rdF_wrF_off _ fPAIR_PSER0_SN _ _ 0 (by decide) (by decide) (by decide) (by decide), rdF_wrF_same _ _ _ _ _ (by decide)]
  exact Nat.mod_eq_of_lt hhigh

theorem beatTaken_serialLow : rdF (beatTaken s k mate fit primary seq high low) fPAIR_PSER0_SN = low % 2 ^ 24 := by
  rw [beatTaken, rdF_showHeard_off _ (by decide) (by decide), beatNoted, rdF_wrF_same _ _ _ _ _ (by decide)]

end

theorem exec_heartbeatReceived {k : Fin 2} (mate : Fin 4) (fit primary : Bool) (seq : BitVec 16) (sn : BitVec 48) (hon : pairOn s = true)
    (hlink : linkUp s (32 + k) = true) : exec (.heartbeatReceived k mate fit primary seq sn) s = .next
      (beatRoles (beatTaken s k mate (b2n fit) (b2n primary) seq.toNat (sn.toNat / 2 ^ 24) sn.toNat) mate (b2n primary) sn.toNat) := by
  have hexec : exec (.heartbeatReceived k mate fit primary seq sn) s = execHeartbeatReceived k mate fit primary seq sn s := rfl
  have hcond : (!pairOn s || !linkUp s (32 + k)) = false := by rw [hon, hlink]; rfl
  cases h : tget (fun _ => (none : Option Nat)) s.pair.heard k <;>
    simp only [hexec, execHeartbeatReceived, hcond, Bool.false_eq_true, if_false, h, beatRoles, beatTaken, beatNoted, beatsLost, beatHeard, Option.elim_none,
      Option.elim_some, count_pair, count_sys, apply_ite Host.Outcome.next, Nat.reducePow]

/-! ## Grace, commands and the mirror -/

section
variable {x y : State}

theorem exec_graceEnd (hon : pairOn s = true) (hgrace : onF s fPAIR_PSTAT_GRACE = true) (hdue : s.pair.activeAt + 31250 ≤ s.sys.ticks)
    (hx : x = showHeard (wrF s fPAIR_PSTAT_GRACE 0)) (hy : y = { x with pair := { x.pair with pulseAt := some x.sys.ticks } }) :
    exec .graceEnd s = .next (if role x == 3 && onF x fPAIR_PCFG_RSTEN && onF x fPAIR_PSTAT_PACT && !onF x fPAIR_PSTAT_HEARD then
      emit0 (count y 0x17 kPairReset 0) 0x5c0012 else notHeard x) := by
  have hexec : exec .graceEnd s = execGraceEnd s := rfl
  have hcond : (!pairOn s || !onF s fPAIR_PSTAT_GRACE || decide (s.sys.ticks < s.pair.activeAt + 31250)) = false := by
    rw [hon, hgrace, decide_eq_false (Nat.not_lt.mpr hdue)]
    rfl
  simp only [hexec, execGraceEnd, hcond, Bool.false_eq_true, if_false, ← hx, ← hy, apply_ite Host.Outcome.next]

section
variable {e : Eng} {v : Word} (haccept : accept s e false (fAddr fPAIR_PCMD_SWITCH 0 0) v = some x)
include haccept

theorem exec_partnerReset (hswitch : v.getLsbD 0 = false) (hreset : v.getLsbD 1 = true) (hon : pairOn x = true)
    (hy : y = { x with pair := { x.pair with pulseAt := some x.sys.ticks } }) :
    exec (.partnerReset e v) s = .next (emit0 (count y 0x17 kPairReset 0) 0x5c0012) := by
  have hexec : exec (.partnerReset e v) s = execPartnerReset e v s := rfl
  have hcond : (bitOf v.toNat 0 || !bitOf v.toNat 1) = false := by rw [bitOf_toNat, bitOf_toNat, hswitch, hreset]; rfl
  simp only [hexec, execPartnerReset, hcond, Bool.false_eq_true, if_false, onSet_of_accept _ haccept, hon, Bool.not_true, ← hy]

theorem exec_pairSwitch {fit : Bool} (hswitch : v.getLsbD 0 = true) (hy : y = wrF x fPAIR_PSTAT_PFIT (b2n fit)) :
    exec (.pairSwitch e v fit) s = .next (if role x = 3 ∧ fit = true then enterStandby (sendRecords y (y.pair.unsent ++ pnRecords y true)) 5
      else count y 0x17 kPairIgnored 0) := by
  have hexec : exec (.pairSwitch e v fit) s = execPairSwitch e v fit s := rfl
  have hrole : role y = role x := by rw [role, hy, rdF_wrF_pstat _ _ ⟨rfl, rfl, by decide⟩ ⟨rfl, rfl⟩ (by decide), role]
  rw [hexec, execPairSwitch, bitOf_toNat, hswitch, if_neg (by decide), onSet_of_accept _ haccept]
  rw [← hy, ← hrole]

end

theorem exec_mirrorRefresh (hon : pairOn s = true) (hrole : role s = 3) :
    exec .mirrorRefresh s = .next (sendRecords s (s.pair.unsent ++ pnRecords s false)) := by
  have hexec : exec .mirrorRefresh s = execMirrorRefresh s := rfl
  rw [hexec, execMirrorRefresh, hon, hrole]
  rfl

/-! ## Mirror records -/

section
variable {k : Fin 2} {seq : BitVec 32} {r : MirrorItem} (hon : pairOn s = true) (hlink : linkUp s (32 + k) = true)
include hon hlink

theorem exec_mirrorRecordReceived_dropped (hrole : role s ≠ 2) : exec (.mirrorRecordReceived k seq r) s = .next (count s 0x17 kPairDropped 0) := by
  have hexec : exec (.mirrorRecordReceived k seq r) s = execMirrorRecordReceived k seq r s := rfl
  rw [hexec, execMirrorRecordReceived, if_neg (by simp [hon, hlink]), if_pos (bne_iff_ne.mpr hrole)]

/-- How far a record's sequence number lies ahead of the one expected, modulo 2^32. -/
def recordAhead (s : State) (seq : Nat) : Nat := s.pair.recIn.elim 0 fun n => (seq + 2 ^ 32 - n) % 2 ^ 32

theorem exec_mirrorRecordReceived {y : State} (hrole : role s = 2) (hx : x = { s with pair := { s.pair with recAt := s.sys.ticks } })
    (hy : y = if recordAhead s seq.toNat = 0 then x
      else wrF { s with pair := { s.pair with recAt := s.sys.ticks, resync := true } } fPAIR_PSTAT_SYNCED 0) : exec (.mirrorRecordReceived k seq r) s = .next
    (if 2 ^ 31 ≤ recordAhead s seq.toNat then count x 0x17 kPairDropped 0
    else applyRecord (count { y with pair := { y.pair with recIn := some ((seq.toNat + 1) % 2 ^ 32) } } 0x17 kPairApplied 0) r) := by
  have hexec : exec (.mirrorRecordReceived k seq r) s = execMirrorRecordReceived k seq r s := rfl
  have hcond : (!pairOn s || !linkUp s (32 + k)) = false := by rw [hon, hlink]; rfl
  have hrole' : (role s != 2) = false := by rw [hrole]; rfl
  simp only [hexec, execMirrorRecordReceived, hcond, hrole', Bool.false_eq_true, if_false, ← hx]
  cases h : s.pair.recIn with
  | none =>
    have hahead : recordAhead s seq.toNat = 0 := by rw [recordAhead, h, Option.elim_none]
    simp only [hahead, if_true] at hy ⊢
    rw [← hy, apply_ite Host.Outcome.next]
  | some n =>
    have hahead : recordAhead s seq.toNat = (seq.toNat + 2 ^ 32 - n) % 2 ^ 32 := by rw [recordAhead, h, Option.elim_some]
    simp only [hahead, h] at hy ⊢
    simp only [← hy]
    rw [apply_ite Host.Outcome.next]

end

theorem exec_resyncComplete (hon : pairOn s = true) (hrole : role s = 2) (hresync : s.pair.resync = true)
    (hx : x = wrF { s with pair := { s.pair with resync := false } } fPAIR_PSTAT_SYNCED 1) :
    exec .resyncComplete s = .next (emit0 (count x 0x17 kPairResync 0) 0x5c0014) := by
  have hexec : exec .resyncComplete s = execResyncComplete s := rfl
  rw [hexec, execResyncComplete, if_neg (by simp [hon, hrole, hresync]), hx]

theorem exec_syncLoss (hon : pairOn s = true) (hrole : role s = 2) (hheard : onF s fPAIR_PSTAT_HEARD = true) (hmate : ∃ a b, s.pair.mate = some (3, a, b))
    (hdue : s.pair.recAt + 625000 ≤ s.sys.ticks) :
    exec .syncLoss s = .next (wrF { s with pair := { s.pair with resync := true } } fPAIR_PSTAT_SYNCED 0) := by
  have hexec : exec .syncLoss s = execSyncLoss s := rfl
  obtain ⟨a, b, hmate⟩ := hmate
  rw [hexec, execSyncLoss, if_neg (by simp [hon, hrole, hheard, hmate, hdue])]

/-! ## Messages -/

/-- The message that the staging words hold. -/
def stagedMessage (x : State) : Msg :=
  ⟨0xd7, (rdW x (fAddr fPAIR_MTX_W 0 0)).toNat % 65536, (rdW x (fAddr fPAIR_MTX_W 0 1)).toNat,
    (rdW x (fAddr fPAIR_MTX_W 0 2)).toNat, (rdW x (fAddr fPAIR_MTX_W 0 3)).toNat⟩

theorem exec_partnerMessageSend {e : Eng} {v : Word} {l : List Msg} (haccept : accept s e false (fAddr fPAIR_MTXGO_GO 0 0) v = some x)
    (hgo : v.getLsbD 0 = true) (hon : pairOn x = true) (hl : l = x.pair.out ++ [stagedMessage x]) (hy : y = { x with pair := { x.pair with out := l } }) :
    exec (.partnerMessageSend e v) s = .next (if 64 ≤ x.pair.out.length then count x 0x17 kPairMsgDrop 0
      else wrF (count y 0x17 kPairMsg 0) fPAIR_MTXRES_FULL (b2n (decide (64 ≤ l.length)))) := by
  have hexec : exec (.partnerMessageSend e v) s = execPartnerMessageSend e v s := rfl
  have hcond : (!bitOf v.toNat 0 || !pairOn x) = false := by rw [bitOf_toNat, hgo, hon]; rfl
  simp only [hexec, execPartnerMessageSend, onSet_of_accept _ haccept, hcond, Bool.false_eq_true, if_false, hy, hl, stagedMessage, Nat.reducePow]

theorem exec_partnerMessageReceived (tag : BitVec 16) (a b c : Word) (hon : pairOn s = true)
    (hx : x = { s with pair := { s.pair with inbox := s.pair.inbox ++ [(⟨0xd7, tag.toNat, a.toNat, b.toNat, c.toNat⟩, s.sys.ticks)] } }) :
    exec (.partnerMessageReceived tag a b c) s = .next (if s.pair.inbox.isEmpty then deliver 1 (setPace x paceMessage) else x) := by
  have hexec : exec (.partnerMessageReceived tag a b c) s = execPartnerMessageReceived tag a b c s := rfl
  rw [hexec, execPartnerMessageReceived, if_neg (by simp [hon]), hx]

theorem exec_partnerMessageRetry (hon : pairOn s = true) (hpaced : paced s paceMessage 6250 = true) :
    exec .partnerMessageRetry s = .next (deliver s.pair.inbox.length (setPace s paceMessage)) := by
  have hexec : exec .partnerMessageRetry s = execPartnerMessageRetry s := rfl
  rw [hexec, execPartnerMessageRetry, if_pos (by simp [hon, hpaced])]

theorem deliver_succ {m : Msg} {t : Nat} (n : Nat) {ok : Bool} {l : List (Msg × Nat)} (hinbox : s.pair.inbox = (m, t) :: l)
    (hpost : postTo s (rdF s fPAIR_MAGENT_ENG) m = (y, ok)) : deliver (n + 1) s =
      if ok then deliver n { y with pair := { y.pair with inbox := l } }
      else if 0xc0 ≤ rdF s fPAIR_MAGENT_ENG ∨ t + 625000 ≤ s.sys.ticks then
        deliver n (count { y with pair := { y.pair with inbox := l } } 0x17 kPairMsgDrop 0)
      else y := by
  simp only [deliver, hinbox, hpost]

theorem exec_fitokWrite {e : Eng} {v : Word} (haccept : accept s e false (fAddr fPAIR_FITOK_OK 0 0) v = some x) :
    exec (.fitokWrite e v) s = .next (driveMate (setNow x (fAddr fPAIR_FITOK_OK 0 0) v.toNat)) := onSet_of_accept _ haccept

end
end

/-- Settles O58: the roles of the pair, heartbeats, grace, the mirror and the partner's messages. -/
theorem thePairTakesOverMirrorsAndTalks : Obligations.ThePairTakesOverMirrorsAndTalks := by
  refine ⟨fun s => exec_seekTimeout, ?mate, fun s cause hon => ⟨enterStandby_resync s cause, role_enterStandby s cause, enterStandby_synced s cause,
    enterStandby_act s cause, enterStandby_grace s cause, enterStandby_cause s cause⟩, ?beats, ?received, ?grace, ?commands,
    fun s => exec_mirrorRefresh, ?records, fun s x hon hrole => ⟨exec_resyncComplete hon hrole, exec_syncLoss hon hrole⟩, ?send,
    fun tag a b c s x hon hx => ⟨exec_partnerMessageReceived tag a b c hon hx, exec_partnerMessageRetry hon⟩, ?deliver, fun e v s x => exec_fitokWrite⟩
  case mate =>
    intro fit s x halways
    refine ⟨fun hpact hx => ?_, fun hpact hx => ?_⟩
    · rw [exec_mateActInFall halways hpact hx]
      refine ⟨fun hon hmay => by rw [hon, hmay]; rfl, fun hnot => ?_⟩
      rw [if_neg]
      rw [Bool.and_eq_true, not_and_or, Bool.not_eq_true, Bool.not_eq_true]
      exact hnot
    · rw [exec_mateActInRise halways hpact hx]
      refine ⟨fun hon hrole => by rw [hon, hrole]; rfl, fun hrole => ?_⟩
      rw [if_neg]
      rw [Bool.and_eq_true, beq_iff_eq]
      exact fun h => hrole h.2
  case beats =>
    intro s p hon
    refine ⟨fun hpaced hp => ?_, exec_partnerNotHeard hon, notHeard_idle, notHeard_takes, notHeard_yields⟩
    rw [exec_heartbeatSend hon hpaced hp]
    refine ⟨fun hup q hq => ?_, fun hdown hdown' => ?_⟩
    · rw [if_pos (Bool.or_eq_true_iff.mpr hup), hq]
    · rw [hdown, hdown']; rfl
  case received =>
    intro k mate fit primary seq sn s hon hlink
    have hhigh : sn.toNat / 2 ^ 24 < 2 ^ 24 := Nat.div_lt_of_lt_mul sn.isLt
    refine ⟨beatTaken s k mate (b2n fit) (b2n primary) seq.toNat (sn.toNat / 2 ^ 24) sn.toNat, beatsLost s k seq.toNat,
      beatTaken_frame .., beatTaken_cnt .., fun p => beatsLost_some _, beatsLost_none _, beatTaken_heard .., beatTaken_serialHigh _ _ _ _ _ _ _ _ hhigh,
      beatTaken_serialLow .., ?_, ?_, ?_⟩
    · rw [beatTaken_pair]; rfl
    · rw [beatTaken_pair]; exact tget_tset_same ..
    · rw [exec_heartbeatReceived mate fit primary seq sn hon hlink, beatRoles, beatTaken_role, beatTaken_primary]
      refine ⟨fun hkept => ?_, fun hmate hrole => ?_, fun hmate hrole hyields => ?_⟩
      · rw [if_neg (by omega), if_neg (by omega)]
      · rw [if_pos ⟨hmate, hrole⟩]
      · rw [if_neg (by omega), if_pos ⟨hmate, hrole, hyields⟩]
  case grace =>
    intro s x y hon hgrace hdue hx hy
    rw [exec_graceEnd hon hgrace hdue hx hy]
    refine ⟨fun hrole hrsten hpact hheard => ?_, fun hnot => ?_⟩
    · rw [hrole, hrsten, hpact, hheard]; rfl
    · rw [if_neg]
      simp only [Bool.and_eq_true, beq_iff_eq, Bool.not_eq_true']
      rintro ⟨⟨⟨hrole, hrsten⟩, hpact⟩, hheard⟩
      rcases hnot with h | h | h | h
      · exact h hrole
      · exact Bool.false_ne_true (h.symm.trans hrsten)
      · exact Bool.false_ne_true (h.symm.trans hpact)
      · exact Bool.false_ne_true (hheard.symm.trans h)
  case commands =>
    intro e v fit s x y haccept
    refine ⟨exec_partnerReset haccept, fun hswitch hy => ?_⟩
    rw [exec_pairSwitch haccept hswitch hy]
    refine ⟨fun hrole hfit => by rw [if_pos ⟨hrole, hfit⟩], fun hnot => ?_⟩
    rw [if_neg]
    rintro ⟨hrole, hfit⟩
    rcases hnot with h | h
    · exact h hrole
    · exact Bool.false_ne_true (h.symm.trans hfit)
  case records =>
    intro k seq r s x hon hlink
    have hseq := seq.isLt
    refine ⟨exec_mirrorRecordReceived_dropped hon hlink, fun hrole hfirst hx => ?_, fun hrole n hn => ⟨fun hnext hx => ?_, fun hcopy hx => ?_,
      fun hne hlt hgap hx y hy => ?_⟩⟩
    · have hahead : recordAhead s seq.toNat = 0 := by rw [recordAhead, hfirst, Option.elim_none]
      rw [exec_mirrorRecordReceived hon hlink hrole rfl rfl, hahead, if_neg (by decide), if_pos rfl, hx]
    · have hahead : recordAhead s seq.toNat = 0 := by rw [recordAhead, hn, Option.elim_some, hnext]; omega
      rw [exec_mirrorRecordReceived hon hlink hrole rfl rfl, hahead, if_neg (by decide), if_pos rfl, hx]
    · rw [exec_mirrorRecordReceived hon hlink hrole hx rfl, if_pos (by rw [recordAhead, hn, Option.elim_some]; exact hcopy)]
    · have hahead : recordAhead s seq.toNat = (seq.toNat + 2 ^ 32 - n) % 2 ^ 32 := by rw [recordAhead, hn, Option.elim_some]
      rw [exec_mirrorRecordReceived hon hlink hrole rfl rfl, hahead, if_neg (Nat.not_le.mpr hgap), if_neg (by omega), ← hx, ← hy]
  case send =>
    intro e v s x l haccept hgo hon hl y hy
    rw [exec_partnerMessageSend haccept hgo hon hl hy]
    exact ⟨fun hroom => by rw [if_neg (Nat.not_le.mpr hroom)], fun hfull => by rw [if_pos hfull]⟩
  case deliver =>
    intro s y m t n ok l hinbox hpost
    rw [deliver_succ n hinbox hpost]
    refine ⟨fun hok => if_pos hok, fun hok hdrop => ?_, fun hok hagent hearly => ?_⟩
    · rw [hok, if_neg Bool.false_ne_true, if_pos hdrop]
    · rw [hok, if_neg Bool.false_ne_true, if_neg (by omega)]

end Sys2Proof.Machine
end

section
/-! Faults and the halt, the recorder and its cursors, the journal and the tag area (R624 to R660), and the statement about them. -/
namespace Sys2Proof.Machine

/-! ## Words of another unit -/

/-- A field of another unit reads as before. -/
theorem rdF_wrF_unit (s : State) {f g : Fld} (v i o j p : Nat) (h : g.unit ≠ f.unit) : rdF (wrF s f v i o) g j p = rdF s g j p := by
  refine rdF_wrF_word s f g v i o j p ?_
  rw [fAddr, fAddr, uaddr, uaddr]
  omega

/-- The halts since the count was cleared. -/
abbrev halts (s : State) : Nat := rdF s fFLT_HCOUNT_N

theorem halts_wrF (s : State) {f : Fld} (v i o : Nat) (h : 24 ≠ f.unit) : halts (wrF s f v i o) = halts s := rdF_wrF_unit s v i o 0 0 h

theorem halts_congr {s t : State} (h : t.words = s.words) : halts t = halts s := rdF_congr h _ 0 0

/-! ## The recorder's operations -/

theorem halts_logStat (s : State) : halts (logStat s) = halts s := by
  rw [logStat, halts_wrF _ _ _ _ (by decide), halts_wrF _ _ _ _ (by decide), halts_wrF _ _ _ _ (by decide)]

theorem logStat_log (s : State) : (logStat s).log = s.log := by rw [logStat, wrF_log, wrF_log, wrF_log]

theorem flush_log (s : State) : (flush s).log = { s.log with recs := s.log.recs ++ s.log.buf, buf := [] } := by rw [flush, logStat_log]

theorem halts_flush (s : State) : halts (flush s) = halts s := by rw [flush, halts_logStat]; exact halts_congr rfl

/-- The record that an event leaves. -/
def recordOf (s : State) (x : Ev) (supp : Nat) : Rec :=
  { seq := s.log.nextSeq, life := life s % 65536, sec := x.mark.s % 2 ^ 48, ns := x.mark.n, gen := x.mark.g % 256,
    supp := min supp 255, code := x.code, p1 := x.p1, p2 := x.p2, p3 := x.p3 }

/-- The state that has put an event's record into the buffer. -/
def recordBuffered (s : State) (x : Ev) (supp : Nat) : State :=
  let y := { s with log := { s.log with
    buf := s.log.buf ++ [recordOf s x supp]
    nextSeq := s.log.nextSeq + 1
    reserved := if s.log.nextSeq = s.log.reserved then s.log.reserved + 64 else s.log.reserved } }
  if s.log.buf.isEmpty then setPace y paceBuffer else y

theorem storeRecord_eq (s : State) (x : Ev) (supp : Nat) : storeRecord s x supp =
    if 64 ≤ (recordBuffered s x supp).log.buf.length then flush (recordBuffered s x supp) else recordBuffered s x supp := rfl

theorem recordBuffered_log (s : State) (x : Ev) (supp : Nat) : (recordBuffered s x supp).log = { s.log with
    buf := s.log.buf ++ [recordOf s x supp]
    nextSeq := s.log.nextSeq + 1
    reserved := if s.log.nextSeq = s.log.reserved then s.log.reserved + 64 else s.log.reserved } := by
  rw [recordBuffered]
  split <;> rfl

theorem recordBuffered_words (s : State) (x : Ev) (supp : Nat) : (recordBuffered s x supp).words = s.words := by
  rw [recordBuffered]
  split <;> rfl

/-- Below the buffer's bound a stored record joins the buffer. -/
theorem storeRecord_few {s : State} (x : Ev) (supp : Nat) (h : s.log.buf.length + 1 < 64) : storeRecord s x supp = recordBuffered s x supp := by
  rw [storeRecord_eq, recordBuffered_log, if_neg (by rw [List.length_append, List.length_singleton]; omega)]

theorem halts_storeRecord (s : State) (x : Ev) (supp : Nat) : halts (storeRecord s x supp) = halts s := by
  rw [storeRecord_eq]
  split
  · rw [halts_flush, halts_congr (recordBuffered_words s x supp)]
  · exact halts_congr (recordBuffered_words s x supp)

theorem nextPos_flush (s : State) : nextPos (flush s) = nextPos s := by rw [nextPos, flush_log]; simp [nextPos]

theorem nextPos_storeRecord (s : State) (x : Ev) (supp : Nat) : nextPos (storeRecord s x supp) = nextPos s + 1 := by
  have hbuffered : nextPos (recordBuffered s x supp) = nextPos s + 1 := by rw [nextPos, recordBuffered_log, List.length_append]; rfl
  rw [storeRecord_eq]
  split
  · rw [nextPos_flush, hbuffered]
  · exact hbuffered

theorem halts_dropRecord (s : State) : halts (dropRecord s) = halts s := by rw [dropRecord, halts_logStat]; exact halts_congr (count_words ..)

theorem halts_ownRecord (s : State) (code p1 p2 p3 : Nat) : halts (ownRecord s code p1 p2 p3) = halts s := by
  rw [ownRecord]
  split
  · exact halts_storeRecord ..
  · exact halts_dropRecord s

theorem halts_takeEvent (s : State) (x : Ev) : halts (takeEvent s x) = halts s := by
  have hstore : ∀ exempt, halts (storeRecord (spend s x.code exempt) x (suppOf s x.code)) = halts s := fun exempt => by
    rw [halts_storeRecord]; exact halts_congr rfl
  simp only [takeEvent]
  split_ifs
  · exact halts_dropRecord s
  · exact halts_congr rfl
  · rw [halts_logStat, halts_ownRecord]
    exact (halts_congr rfl).trans (hstore _)
  · exact hstore _
  · exact hstore _
  · exact halts_dropRecord s

section
variable {s : State} {ev : Ev} (hown : ownCode ev.code = false) (hh : hRecord ev = false)
include hown hh

theorem takeEvent_halted (hhalted : s.sys.halted = true) : takeEvent s ev = dropRecord s := by
  rw [takeEvent, if_pos (by rw [hhalted, hown, hh]; rfl)]

section
variable (hrunning : s.sys.halted = false) (hx : ev.code ≠ 0x4c0010) (hx' : ev.code ≠ 0x4c0011)
include hrunning hx hx'

theorem takeEvent_suppressed (hcredit : creditOf s ev.code = 0) : takeEvent s ev = suppress s ev.code := by
  simp only [takeEvent, hown, hh, hrunning, beq_false_of_ne hx, beq_false_of_ne hx', hcredit, Bool.or_self, Bool.false_and, Bool.not_false, decide_true,
    Bool.and_self, Bool.false_eq_true, if_false, if_true]

theorem takeEvent_dropped (hcredit : creditOf s ev.code ≠ 0) (hroom : ordinaryRoom ≤ nextPos s ∨ s.log.full = true) : takeEvent s ev = dropRecord s := by
  have hfull : (decide (nextPos s < ordinaryRoom) && !s.log.full) = false := by
    rcases hroom with h | h
    · rw [decide_eq_false (Nat.not_lt.mpr h), Bool.false_and]
    · rw [h, Bool.not_true, Bool.and_false]
  simp only [takeEvent, hown, hh, hrunning, beq_false_of_ne hx, beq_false_of_ne hx', hcredit, hfull, Bool.or_self, Bool.false_and, decide_false, Bool.and_false,
    Bool.false_eq_true, if_false]

theorem takeEvent_stored (hcredit : creditOf s ev.code ≠ 0) (hroom : nextPos s + 1 < ordinaryRoom) (hfull : s.log.full = false) :
    takeEvent s ev = storeRecord (spend s ev.code false) ev (suppOf s ev.code) := by
  have hpos : nextPos (storeRecord (spend s ev.code false) ev (suppOf s ev.code)) ≠ ordinaryRoom :=
    (nextPos_storeRecord (spend s ev.code false) ev _).trans_lt hroom |>.ne
  have hfree : (decide (nextPos s < ordinaryRoom) && !s.log.full) = true := by rw [decide_eq_true (Nat.lt_of_succ_lt hroom), hfull]; rfl
  simp only [takeEvent, hown, hh, hrunning, beq_false_of_ne hx, beq_false_of_ne hx', hcredit, hfree, hpos, Bool.or_self, Bool.false_and, decide_false,
    Bool.and_false, Bool.false_eq_true, if_false, if_true]

end
end

/-! ## The halt -/

section
variable {s : State} (h : alwaysOn s = true)
include h

theorem exec_faultRaised_halt {f : FaultIn} {l : List FaultIn} {x : State} (hfirst : takeFirst isHalt s.flt.raised = some (f, l))
    (hx : x = { s with flt := { s.flt with raised := l } }) : exec .faultRaised s = .next
      (if s.sys.halted then countHalt (emitM x 0x600015 f.code 0 0 (now x) true) else halt x f) := by
  have hexec : exec .faultRaised s = execFaultRaised s := rfl
  simp only [hexec, execFaultRaised, h, Bool.not_true, Bool.false_eq_true, if_false, hfirst, ← hx, apply_ite Host.Outcome.next]

theorem exec_faultRaised_other {f : FaultIn} {l : List FaultIn} {x : State} (hnone : takeFirst isHalt s.flt.raised = none) (hraised : s.flt.raised = f :: l)
    (hx : x = { s with flt := { s.flt with raised := l } }) : exec .faultRaised s = .next (if s.sys.halted then x else takeFault x f.code f.dom) := by
  have hexec : exec .faultRaised s = execFaultRaised s := rfl
  rw [hraised] at hnone
  simp only [hexec, execFaultRaised, h, Bool.not_true, Bool.false_eq_true, if_false, hraised, hnone, ← hx]

end

theorem halts_recordHalt (n : Nat) (s : State) (code : Nat) : halts (recordHalt n s code).1 = halts s := by
  induction n generalizing s with
  | zero => rfl
  | succ n ih =>
    rw [recordHalt]
    cases hraised : s.log.raised with
    | nil => rfl
    | cons x l =>
      have htaken : halts (takeEvent { s with log := { s.log with raised := l } } x) = halts s := halts_takeEvent _ x
      dsimp only
      split
      · exact htaken
      · rw [ih, htaken]

theorem halts_sampleBurst (s : State) (c : Nat) (b : Burst) : halts (sampleBurst s c b) = halts s := by
  simp only [sampleBurst]
  split
  · exact (halts_wrF _ _ _ _ (by decide)).trans (halts_congr rfl)
  · exact halts_congr rfl

theorem halts_endBurst (s : State) (c : Nat) : halts (endBurst s c) = halts s := by
  rw [endBurst]
  cases (ponCh s c).burst with
  | none => rfl
  | some b =>
    have hnoted : ∀ x, halts (noteCarried (sampleBurst (setPon s c x) c b) c b) = halts s := fun x =>
      (halts_congr rfl).trans ((halts_sampleBurst (setPon s c x) c b).trans (halts_congr rfl))
    cases (ponCh s c).level with
    | none => exact hnoted _
    | some l => exact (halts_wrF _ _ _ _ (by decide)).trans (hnoted _)

theorem halts_haltLasers (s : State) : halts (haltLasers s) = halts s := by
  refine foldl_keeps (f := halts) (fun t c => ?_) _ _
  simp only [halts_endBurst, halts_wrF _ _ _ _ (show 24 ≠ fPON_DLCTL_DLARM.unit by decide), halts_wrF _ _ _ _ (show 24 ≠ fOPT_OSTAT_RXREADY.unit by decide),
    halts_wrF _ _ _ _ (show 24 ≠ fOPT_OSTAT_CUTWHY.unit by decide), halts_wrF _ _ _ _ (show 24 ≠ fOPT_OSTAT_CUT.unit by decide)]

theorem stompAll_words (s : State) : (stompAll s).words = s.words := by
  refine foldl_keeps (f := State.words) (fun t p => ?_) _ _
  simp only []
  split
  · exact count_words ..
  · exact count_words ..

theorem halts_setTxFrame (s : State) (x : Option SbusTx) : halts (setTxFrame s x) = halts s :=
  (halts_wrF _ _ _ _ (by decide)).trans (halts_congr rfl)

theorem halts_sbusStomp (s : State) : halts (sbusStomp s) = halts s := by
  rw [sbusStomp]
  split
  · exact halts_setTxFrame s none
  · exact (halts_wrF _ _ _ _ (by decide)).trans ((halts_setTxFrame (takeFree s).2 none).trans (halts_congr rfl))

/-! What the mate lines and the host's vector keep. -/

theorem leaveActive_words (s : State) : (leaveActive s).words = (wrF s fPAIR_PSTAT_GRACE 0).words := heldRequests_words _

theorem heldRequests_flt (s : State) : (heldRequests s false).flt = s.flt := by
  refine foldl_keeps (f := State.flt) (fun t x => ?_) _ _
  simp only [Bool.false_eq_true, if_false]
  split <;> rfl

theorem heldRequests_hst (s : State) : (heldRequests s false).hst = s.hst := by
  refine foldl_keeps (f := State.hst) (fun t x => ?_) _ _
  simp only [Bool.false_eq_true, if_false]
  split <;> rfl

theorem rdF_driveMate_unit (s : State) {g : Fld} (hg : g.unit ≠ 23) : rdF (driveMate s) g = rdF s g := by
  rw [driveMate, rdF_wrF_unit _ _ _ _ _ _ hg, rdF_wrF_unit _ _ _ _ _ _ hg]

theorem rdF_dropActive_unit (s : State) {g : Fld} (hg : g.unit ≠ 23) : rdF (dropActive s) g = rdF s g := by
  rw [dropActive]
  split
  · rw [rdF_driveMate_unit _ hg, rdF_wrF_unit _ _ _ _ _ _ hg, rdF_congr (leaveActive_words s), rdF_wrF_unit _ _ _ _ _ _ hg]
  · exact rdF_driveMate_unit s hg

theorem dropActive_flt (s : State) : (dropActive s).flt = s.flt := by
  rw [dropActive]
  split
  · exact (heldRequests_flt _).trans rfl
  · rfl

theorem dropActive_hst (s : State) : (dropActive s).hst = s.hst := by
  rw [dropActive]
  split
  · exact (heldRequests_hst _).trans rfl
  · rfl

theorem signal_words (s : State) (v : Nat) : (signal s v).words = s.words := by
  simp only [signal]
  split_ifs <;> rfl

theorem signal_flt (s : State) (v : Nat) : (signal s v).flt = s.flt := by
  simp only [signal]
  split_ifs <;> rfl

theorem signal_page (s : State) (v : Nat) : (signal s v).hst.page = s.hst.page := by
  simp only [signal]
  split_ifs <;> rfl

/-- The module whose engines and outputs stand still. -/
def outputsStill (x : State) : State :=
  let y := outputsSafe { x with engs := x.engs.map fun (g : Nat × Engine) => (g.1, { g.2 with posted := [], out := none }) }
  { y with time := { y.time with ppsOut := [], todOut := [], freqOut := [] } }

/-- The module whose power unit waits for nothing more. -/
def powerStill (x : State) : State := wrF (wrF x fPWR_STATE_PENDV 0) fPWR_STATE_BUSY 0

/-- The module that shows the halt page, before it counts the halt. -/
def pageShown (x : State) (page : Tab Nat) : State :=
  { x with pwr := { x.pwr with run := none, volt := false, force := none, wake := none }, hst := { x.hst with page := page } }

/-- The module that has counted its halt and noted the fault. -/
def haltTaken (x : State) (f : FaultIn) : State :=
  let y := countHalt x
  { y with flt := { y.flt with halt := some f, committed := false } }

/-- The module once its lasers, its lines, its engines and outputs stand still. -/
def haltStill (s : State) (f : FaultIn) : State := outputsStill (sbusStomp (stompAll (haltLasers (recordHalt s.log.raised.length s f.code).1)))

/-- The module that has noted its halt, before it drives the mate lines. -/
def haltNoted (s : State) (f : FaultIn) : State :=
  haltTaken (pageShown (powerStill (haltStill s f)) (haltPage f (recordHalt s.log.raised.length s f.code).2)) f

theorem halt_eq (s : State) (f : FaultIn) : halt s f = { signal (dropActive (haltNoted s f)) 16 with
    sys := { (signal (dropActive (haltNoted s f)) 16).sys with halted := true } } := rfl

theorem outputsStill_words (x : State) : (outputsStill x).words = x.words := rfl

theorem pageShown_words (x : State) (page : Tab Nat) : (pageShown x page).words = x.words := rfl

theorem haltTaken_words (x : State) (f : FaultIn) : (haltTaken x f).words = (countHalt x).words := rfl

theorem halts_haltStill (s : State) (f : FaultIn) : halts (haltStill s f) = halts s := by
  rw [haltStill, halts_congr (outputsStill_words _), halts_sbusStomp, halts_congr (stompAll_words _), halts_haltLasers, halts_recordHalt]

theorem halts_countHalt (x : State) : halts (countHalt x) = min 255 (halts x + 1) := by
  rw [halts, countHalt, rdF_wrF_same _ _ _ _ _ (by decide)]
  exact Nat.mod_eq_of_lt (Nat.lt_of_le_of_lt (min_le_left _ _) (by decide))

section
variable (s : State) (f : FaultIn)

theorem halt_halted : (halt s f).sys.halted = true := rfl

theorem halt_word {g : Fld} (hg : g.unit ≠ 23) : rdF (halt s f) g = rdF (haltNoted s f) g := by
  have hwords : (halt s f).words = (dropActive (haltNoted s f)).words := by rw [halt_eq]; exact signal_words _ _
  rw [rdF_congr hwords g 0 0, rdF_dropActive_unit _ hg]

theorem halt_busy : onF (halt s f) fPWR_STATE_BUSY = false := by
  rw [onF, halt_word s f (by decide), haltNoted, rdF_congr (haltTaken_words _ _), countHalt, rdF_wrF_unit _ _ _ _ _ _ (by decide),
    rdF_congr (pageShown_words _ _), powerStill, rdF_wrF_same _ _ _ _ _ (by decide)]
  rfl

theorem halt_halts : rdF (halt s f) fFLT_HCOUNT_N = min 255 (rdF s fFLT_HCOUNT_N + 1) := by
  rw [halt_word s f (by decide), haltNoted, rdF_congr (haltTaken_words _ _), ← halts, halts_countHalt, halts_congr (pageShown_words _ _), powerStill,
    halts_wrF _ _ _ _ (by decide), halts_wrF _ _ _ _ (by decide), halts_haltStill]

theorem halt_fault : (halt s f).flt.halt = some f := by
  have hflt : (halt s f).flt = (haltNoted s f).flt := by rw [halt_eq]; exact (signal_flt _ _).trans (dropActive_flt _)
  rw [hflt]
  rfl

theorem haltPage_code (seq : Nat) : tget (fun _ => 0) (haltPage f seq) 4 = f.code := by
  simp only [haltPage, List.foldl_cons, List.foldl_nil]
  iterate 8 rw [tget_tset_other _ _ _ (by decide)]
  rw [tget_tset_same]

theorem halt_page : tget (fun _ => 0) (halt s f).hst.page 4 = f.code := by
  have hpage : (halt s f).hst.page = (haltNoted s f).hst.page := by
    rw [halt_eq]
    exact (signal_page _ _).trans (congrArg HstSt.page (dropActive_hst _))
  have hnoted : (haltNoted s f).hst.page = haltPage f (recordHalt s.log.raised.length s f.code).2 := by
    rw [haltNoted, haltTaken, countHalt, wrF_hst]
    rfl
  rw [hpage, hnoted, haltPage_code]

end

end Sys2Proof.Machine
end

section
/-! Recovery domains, the recorder's commands, the journal and the tag area, and the statement about faults and records. -/
namespace Sys2Proof.Machine

/-! ## Faults of a domain -/

theorem dom_setDom (s : State) (d : Nat) (x : Dom) : dom (setDom s d x) d = x := tget_tset_same ..

theorem classOf_le (code : Nat) : classOf code ≤ 2 := by
  rw [classOf]
  split_ifs <;> decide

section
variable {s x y : State} (code : Nat) {d : Nat}

theorem takeFault_free_low (hx : x = count s 0x18 (kFltFault (classOf code)) 63) (hcls : classOf code < 2) :
    takeFault s code 63 = fltNote x 63 (classOf code) code 3 := by
  rw [takeFault, if_pos rfl, if_neg (by omega), hx]

theorem takeFault_free_high (hx : x = count s 0x18 (kFltFault (classOf code)) 63) (hcls : classOf code = 2) :
    takeFault s code 63 = fltNote (handOver x) 63 2 code 3 := by
  rw [takeFault, if_pos rfl, if_pos hcls, ← hx, hcls]

theorem takeFault_domain (hd : d ≠ 63)
    (hy : y = (if classOf code = 2 then handOver (count s 0x18 (kFltFault 2) d) else count s 0x18 (kFltFault (classOf code)) d)) :
    takeFault s code d = if (dom y d).failed then fltNote y d (classOf code) code (if classOf code = 2 then 0 else 3)
      else fltNote (meetFault y d code (classOf code)).1 d (classOf code) code (meetFault y d code (classOf code)).2 := by
  have hy' : (if classOf code = 2 then handOver (count s 0x18 (kFltFault (classOf code)) d) else count s 0x18 (kFltFault (classOf code)) d) = y := by
    rw [hy]
    by_cases h : classOf code = 2
    · rw [if_pos h, if_pos h, h]
    · rw [if_neg h, if_neg h]
  simp only [takeFault, hy', hd, if_false]

end

section
variable {s : State} {d : Nat} (code : Nat)

theorem meetFault_free (hrun : (dom s d).run = none) : meetFault s d code 0 = (s, 3) ∧ meetFault s d code 1 = startLocal s d code ∧
    meetFault s d code 2 = (beginRecovery s d code 2 0, 0) := by
  refine ⟨?_, ?_, ?_⟩ <;> rw [meetFault, hrun] <;> rfl

theorem meetFault_busy {cls rc rcls : Nat} (hrun : (dom s d).run = some (rc, rcls)) (hcls : cls ≤ rcls) :
    (meetFault s d code cls).1 = latchFault s d code cls rc := by
  simp only [meetFault, hrun, if_pos hcls]

theorem startLocal_few (h : (recentStarts s d).length < 8) :
    startLocal s d code = (beginRecovery (setDom s d { dom s d with starts := recentStarts s d ++ [s.sys.ticks] }) d code 1 0, 0) := if_pos h

section
variable {x : State} (h : 8 ≤ (recentStarts s d).length) (hx : x = count (setDom s d { dom s d with starts := [] }) 0x18 kFltEscalated d)
include h hx

theorem startLocal_many : startLocal s d code = if role s = 2 ∨ role s = 3 then
      (beginRecovery (handOver (emit0 (count x 0x18 (kFltFault 2) d) 0x600010)) d 0x600010 2 code, 2)
    else (failDomain (emit0 x 0x600011) d code, 2) := by
  have hrole : role x = role s := by rw [hx]; exact rdF_congr (count_words ..) fPAIR_PSTAT_ROLE 0 0
  rw [startLocal, if_neg (Nat.not_lt.mpr h)]
  simp only [← hx, hrole]

end

theorem beginRecovery_runs {cls : Nat} (hlong : endsAtOnce code = false) (hcode : code ≠ 0x600010) :
    beginRecovery s d code cls 0 = setDom s d { dom s d with run := some (code, cls), under := 0, since := s.sys.ticks } := by
  rw [beginRecovery, if_neg hcode, hlong]
  rfl

end

section
variable {d : Fin 41} {s : State} {code cls c : Nat} (hrun : (dom s d).run = some (code, cls)) (hlive : live s = true)
  (hc : c = (if code = 0x600010 then (dom s d).under else code))
include hrun hlive hc

omit hlive in
theorem exec_recoveryEnd_waits (hended : ended s c d = false) : exec (.recoveryEnd d) s = .next s := by
  have hexec : exec (.recoveryEnd d) s = execRecoveryEnd d s := rfl
  simp only [hexec, execRecoveryEnd, hrun, ← hc, hended, Bool.not_false, Bool.or_true, Bool.true_or, if_true]

theorem exec_recoveryEnd {x y : State} (hended : ended s c d = true) (hcrystal : c = 0x1c0012 ∨ c = 0x140016 → s.sys.crystal = true)
    (hx : x = (if c = 0x1c0012 then (domLanes d).foldl (fun s l => wrF s fLANE_LSTAT_PLLLOCK 1 l) s
      else if c = 0x140016 then setPon s d { ponCh s d with pllLost := false } else s)) (hy : y = setDom x d { dom x d with run := none }) :
    exec (.recoveryEnd d) s = .next (reevaluate (emit2 (count y 0x18 kFltEnded d) 0x600014 d code) d) := by
  have hexec : exec (.recoveryEnd d) s = execRecoveryEnd d s := rfl
  have hcond : (!live s || !ended s c d || ((c == 0x1c0012 || c == 0x140016) && !s.sys.crystal)) = false := by
    rw [hlive, hended, Bool.not_true, Bool.or_self, Bool.false_or, Bool.and_eq_false_imp, Bool.or_eq_true, beq_iff_eq, beq_iff_eq]
    exact fun h => by rw [hcrystal h]; rfl
  simp only [hexec, execRecoveryEnd, hrun, ← hc, hcond, Bool.false_eq_true, if_false, ← hx, ← hy]

theorem exec_recoveryTimeout {x : State} (hdue : (dom s d).since + boundTicks c ≤ s.sys.ticks)
    (hx : x = count (setDom s d { dom s d with run := none }) 0x18 kFltUnsuccessful d) :
    exec (.recoveryTimeout d) s = .next (if holds x c d then (if cls = 2 then beginRecovery x d code 2 (dom s d).under else (startLocal x d c).1)
      else reevaluate x d) := by
  have hexec : exec (.recoveryTimeout d) s = execRecoveryTimeout d s := rfl
  have hcond : (!live s || decide (s.sys.ticks < (dom s d).since + boundTicks c)) = false := by
    rw [hlive, decide_eq_false (Nat.not_lt.mpr hdue)]
    rfl
  simp only [hexec, execRecoveryTimeout, hrun, ← hc, hcond, Bool.false_eq_true, if_false, ← hx]
  cases holds x c d with
  | false => rfl
  | true => exact (apply_ite Host.Outcome.next ..).symm

end

/-- What clearing a domain's failure does to its units. -/
def unitsCleared (s : State) (d : Nat) : State :=
  (domUnits d).foldl (fun s y =>
    let s := wrC s fCOMMON_USTAT_STATE y.1 y.2 0
    if noDisable y.1 then s else wrC s fCOMMON_UCTRL_EN y.1 y.2 0) (setDom s d domReset)

theorem exec_domainClear {e : Eng} {v : Word} {s x y : State} {d : Nat} (haccept : accept s e false (fAddr fFLT_DCLR_CLR 0 0) v = some x)
    (hd : d = rdF x fFLT_DSEL_DOM) (hy : y = emit2 (count (setDom x d { dom x d with starts := [] }) 0x18 kFltCleared d) 0x600012 d (b2n (dom x d).failed)) :
    exec (.domainClear e v) s = .next (if v.getLsbD 0 then
      (if (dom x d).failed then
        (if holds (unitsCleared y d) (dom x d).last d then raiseFault (unitsCleared y d) (dom x d).last d else unitsCleared y d) else y) else x) := by
  have hexec : exec (.domainClear e v) s = execDomainClear e v s := rfl
  rw [hexec, execDomainClear, onSet_of_accept _ haccept, bitOf_toNat]
  simp only [← hd, ← hy]
  cases v.getLsbD 0 <;> cases (dom x d).failed <;> rfl

/-! ## The recorder, its credits and the journal -/

theorem exec_haltRecordCommit {s x : State} (hhalted : s.sys.halted = true) (hopen : s.flt.committed = false)
    (hx : x = commitJournal (journalAdd (flush s) 97)) : exec .haltRecordCommit s = .next { x with flt := { x.flt with committed := true } } := by
  have hexec : exec .haltRecordCommit s = execHaltRecordCommit s := rfl
  rw [hexec, execHaltRecordCommit, hhalted, hopen, if_neg (by decide), hx]

theorem exec_eventRecord {s x : State} {ev : Ev} {l : List Ev} (hraised : s.log.raised = ev :: l) (hon : alwaysOn s = true)
    (hx : x = takeEvent { s with log := { s.log with raised := l } } ev) :
    exec .eventRecord s = .next (if onF x fCNT_CEVEN_EN && rdF x fCNT_CEVT_CODE == ev.code && cntRuns x then captureTrigger x else x) := by
  have hexec : exec .eventRecord s = execEventRecord s := rfl
  simp only [hexec, execEventRecord, hraised, hon, Bool.not_true, Bool.false_eq_true, if_false, ← hx]

section
variable {s : State} (hon : alwaysOn s = true)
include hon

theorem exec_commitBufferFlush (hbuf : s.log.buf ≠ []) (hpaced : paced s paceBuffer 6250000 = true) : exec .commitBufferFlush s = .next (flush s) := by
  have hexec : exec .commitBufferFlush s = execCommitBufferFlush s := rfl
  have hbuf' : s.log.buf.isEmpty = false := List.isEmpty_eq_false_iff.mpr hbuf
  rw [hexec, execCommitBufferFlush, hon, hbuf', hpaced]
  rfl

theorem exec_lifeCounterWrap (hwrapped : s.log.wrapped = true) :
    exec .lifeCounterWrap s = .next (lifemark { s with log := { s.log with wrapped := false } }) := by
  have hexec : exec .lifeCounterWrap s = execLifeCounterWrap s := rfl
  rw [hexec, execLifeCounterWrap, hwrapped, hon]
  rfl

theorem exec_journalCommit (worn : Bool) : exec (.journalCommit worn) s = .next (commitJournal (if worn then wearOf s 2 else s)) := by
  have hexec : exec (.journalCommit worn) s = execJournalCommit worn s := rfl
  rw [hexec, execJournalCommit, hon]
  rfl

theorem exec_suppressedRecord {x : State} (c : Word) (hsupp : suppOf s c.toNat ≠ 0) (hdue : tget (fun _ => 0) s.log.suppAt c.toNat + 625000000 ≤ s.sys.ticks)
    (hx : x = { s with log := { s.log with supp := tset (fun _ => 0) s.log.supp c.toNat 0 } }) :
    exec (.suppressedRecord c) s = .next (ownRecord x 0x680015 c.toNat (suppOf s c.toNat) 0) := by
  have hexec : exec (.suppressedRecord c) s = execSuppressedRecord c s := rfl
  have hcond : ¬(!alwaysOn s || decide (suppOf s c.toNat = 0) || decide (s.sys.ticks < tget (fun _ => 0) s.log.suppAt c.toNat + 625000000)) = true := by
    rw [hon, decide_eq_false hsupp, decide_eq_false (Nat.not_lt.mpr hdue)]
    decide
  rw [hexec, execSuppressedRecord, hx]
  exact if_neg hcond

end

/-- Setting every listed key by a function of the key leaves every other key as before. -/
theorem tget_foldl_keys {α β : Type} [DecidableEq α] (d : Nat → α) (g : Nat → α) (l : List (Nat × β)) (t : Tab α) (c : Nat) :
    tget d (l.foldl (fun t x => tset d t x.1 (g x.1)) t) c = if c ∈ l.map Prod.fst then g c else tget d t c := by
  induction l generalizing t with
  | nil => rfl
  | cons x l ih =>
    rw [List.foldl_cons, ih, tget_tset, List.map_cons]
    by_cases hc : c ∈ l.map Prod.fst
    · rw [if_pos hc, if_pos (List.mem_cons_of_mem _ hc)]
    · rw [if_neg hc]
      by_cases hx : c = x.1
      · rw [if_pos hx, if_pos (List.mem_cons.mpr (.inl hx)), hx]
      · rw [if_neg hx, if_neg fun h => (List.mem_cons.mp h).elim hx hc]

theorem tget_of_not_mem {α : Type} (d : Nat → α) {t : Tab α} {c : Nat} (h : c ∉ t.map Prod.fst) : tget d t c = d c := by
  induction t with
  | nil => rfl
  | cons x t ih =>
    rw [List.map_cons, List.mem_cons, not_or] at h
    rw [tget, if_neg fun hx => h.1 hx.symm, ih h.2]

/-- The credit of every code after an instant of TIME that gives it back. -/
def creditsGiven (s : State) : Tab Nat :=
  s.log.credit.foldl (fun t x => tset (fun _ => 16) t x.1 (min 16 (creditOf s x.1 + 1))) s.log.credit

theorem tget_creditsGiven (s : State) (c : Nat) : tget (fun _ => 16) (creditsGiven s) c = min 16 (creditOf s c + 1) := by
  have h := tget_foldl_keys (fun _ => 16) (fun c => min 16 (creditOf s c + 1)) s.log.credit s.log.credit c
  rw [creditsGiven, h]
  split
  case isTrue => rfl
  case isFalse hc => rw [creditOf, tget_of_not_mem _ hc]; rfl

theorem exec_creditInstant {s : State} (hdue : s.time.credited + 15625000 ≤ s.time.adv) : exec .creditInstant s = .next
    { s with time := { s.time with credited := s.time.credited + 15625000 }, log := { s.log with credit := creditsGiven s } } := by
  have hexec : exec .creditInstant s = execCreditInstant s := rfl
  rw [hexec, execCreditInstant, if_neg (Nat.not_lt.mpr hdue)]
  rfl

/-! ## The recorder's erase command -/

/-- The recorder that has room and fewer than 63 records in its buffer stores a record of its own there. -/
theorem ownRecord_few {s : State} (code p1 p2 p3 : Nat) (hroom : nextPos s < allRoom) (hfew : s.log.buf.length + 1 < 64) :
    ownRecord s code p1 p2 p3 = recordBuffered s ⟨code, p1 % 2 ^ 24, p2 % 2 ^ 24, p3 % 2 ^ 24, now s, false⟩ 0 := by
  rw [ownRecord, if_pos hroom, storeRecord_few _ _ hfew]

/-- What a record put into the buffer leaves of the recorder. -/
theorem recordBuffered_keeps (s : State) (x : Ev) (supp : Nat) : (recordBuffered s x supp).log.recs = s.log.recs ∧
    (recordBuffered s x supp).log.full = s.log.full ∧ (recordBuffered s x supp).log.buf.map (fun r => r.code) = s.log.buf.map (fun r => r.code) ++ [x.code] := by
  rw [recordBuffered_log]
  refine ⟨rfl, rfl, ?_⟩
  rw [List.map_append]
  rfl

/-- An erased recorder holds the record of its erasure and a life mark, in its buffer. -/
theorem erased_log {z : State} (a b c : Nat) (hrecs : z.log.recs = []) (hbuf : z.log.buf = []) (hfull : z.log.full = false) :
    (lifemark (ownRecord z 0x680011 a b c)).log.recs = [] ∧ (lifemark (ownRecord z 0x680011 a b c)).log.full = false ∧
    (lifemark (ownRecord z 0x680011 a b c)).log.buf.map (fun r => r.code) = [0x680011, 0x680010] := by
  have hpos : nextPos z < allRoom := by rw [nextPos, hrecs, hbuf]; decide
  rw [ownRecord_few _ a b c hpos (by rw [hbuf]; decide)]
  obtain ⟨hrecs1, hfull1, hcodes1⟩ := recordBuffered_keeps z ⟨0x680011, a % 2 ^ 24, b % 2 ^ 24, c % 2 ^ 24, now z, false⟩ 0
  generalize recordBuffered z ⟨0x680011, a % 2 ^ 24, b % 2 ^ 24, c % 2 ^ 24, now z, false⟩ 0 = y at hrecs1 hfull1 hcodes1 ⊢
  have hlen : y.log.buf.length = 1 := by rw [← List.length_map (f := fun r : Rec => r.code), hcodes1, hbuf]; rfl
  have hpos1 : nextPos y < allRoom := by rw [nextPos, hrecs1, hrecs, hlen]; decide
  rw [lifemark, ownRecord_few _ _ _ _ hpos1 (by rw [hlen]; decide)]
  obtain ⟨hrecs2, hfull2, hcodes2⟩ := recordBuffered_keeps y ⟨0x680010, life y / 2 ^ 24 % 2 ^ 24, life y % 2 ^ 24, y.time.gen % 2 ^ 24, now y, false⟩ 0
  refine ⟨by rw [hrecs2, hrecs1, hrecs], by rw [hfull2, hfull1, hfull], ?_⟩
  rw [hcodes2, hcodes1, hbuf]
  rfl

/-- What an event raised leaves of the recorder. -/
theorem emit0_keeps (s : State) (code : Nat) : (emit0 s code).log.recs = s.log.recs ∧ (emit0 s code).log.full = s.log.full ∧
    (emit0 s code).log.buf = s.log.buf := ⟨rfl, rfl, rfl⟩

/-- The state whose journal counts one more under entry k. -/
theorem journalAdd_keeps (s : State) (k : Nat) : (journalAdd s k).log.recs = s.log.recs ∧ (journalAdd s k).log.full = s.log.full ∧
    (journalAdd s k).log.buf = s.log.buf := ⟨rfl, rfl, rfl⟩

theorem wearOf_eq (s : State) (area : Nat) : wearOf s area = if tget (fun _ => 0) s.log.journal (77 + area) + 1 = 90001 then
    emit0 (wrF (journalAdd s (77 + area)) fLOG_WEAR_AREA (rdF s fLOG_WEAR_AREA ||| 2 ^ area)) 0x680016 else journalAdd s (77 + area) := rfl

/-- An area's wear changes the journal and may raise an event. -/
theorem wearOf_keeps (s : State) (area : Nat) : (wearOf s area).log.recs = s.log.recs ∧ (wearOf s area).log.full = s.log.full ∧
    (wearOf s area).log.buf = s.log.buf := by
  rw [wearOf_eq]
  split
  · obtain ⟨hrecs, hfull, hbuf⟩ := emit0_keeps (wrF (journalAdd s (77 + area)) fLOG_WEAR_AREA (rdF s fLOG_WEAR_AREA ||| 2 ^ area)) 0x680016
    rw [hrecs, hfull, hbuf, wrF_log]
    exact journalAdd_keeps s _
  · exact journalAdd_keeps s _

theorem rdF_wearOf (s : State) (area : Nat) {g : Fld} (hg : g.word < 512) (hne : g.word ≠ 0x55) : rdF (wearOf s area) g = rdF s g := by
  have hadd : rdF (journalAdd s (77 + area)) g = rdF s g := rdF_congr rfl g 0 0
  rw [wearOf_eq]
  split
  · rw [rdF_congr (emit0_words ..), rdF_wrF_off _ fLOG_WEAR_AREA g _ 0 (by decide) hg (by decide) hne, hadd]
  · exact hadd

theorem rdF_logStat (s : State) {g : Fld} (hg : g.word < 512) (hne : g.word ≠ 0x11) (hne' : g.word ≠ 0x12) : rdF (logStat s) g = rdF s g := by
  rw [logStat, rdF_wrF_off _ fLOG_RDROP_N g _ 0 (by decide) hg (by decide) hne', rdF_wrF_off _ fLOG_RSTAT_FULL g _ 0 (by decide) hg (by decide) hne,
    rdF_wrF_off _ fLOG_RSTAT_COUNT g _ 0 (by decide) hg (by decide) hne]

/-- The recorder after its erasure, from the state that holds the erasure's records. -/
def cursorsReset (w : State) : State := logStat (wearOf (wrF (wrF (wrF w fLOG_HCUR_POS 0) fLOG_ECUR_POS 0) fLOG_ECUR_POS 0 0 16) 1)

theorem cursorsReset_keeps (w : State) : (cursorsReset w).log.recs = w.log.recs ∧ (cursorsReset w).log.full = w.log.full ∧
    (cursorsReset w).log.buf = w.log.buf := by
  obtain ⟨hrecs, hfull, hbuf⟩ := wearOf_keeps (wrF (wrF (wrF w fLOG_HCUR_POS 0) fLOG_ECUR_POS 0) fLOG_ECUR_POS 0 0 16) 1
  rw [cursorsReset, logStat_log, hrecs, hfull, hbuf, wrF_log, wrF_log, wrF_log]
  exact ⟨rfl, rfl, rfl⟩

theorem cursorsReset_host (w : State) : rdF (cursorsReset w) fLOG_HCUR_POS = 0 := by
  rw [cursorsReset, rdF_logStat _ (by decide) (by decide) (by decide), rdF_wearOf _ _ (by decide) (by decide),
    rdF_wrF_word _ _ _ _ _ _ _ _ (by decide), rdF_wrF_word _ _ _ _ _ _ _ _ (by decide), rdF_wrF_same _ _ _ _ _ (by decide)]
  rfl

/-- The high byte of a word. -/
theorem bitsOf_high (v : Word) : bitsOf v.toNat 16 8 = v.toNat / 2 ^ 16 :=
  Nat.mod_eq_of_lt (show v.toNat / 2 ^ 16 < 2 ^ 8 from Nat.div_lt_of_lt_mul v.isLt)

section
variable {e : Eng} {v : Word} {s x : State} (haccept : accept s e false (fAddr fLOG_RCTL_CLEAR 0 0) v = some x) (hclear : v.getLsbD 0 = true)
include haccept hclear

theorem exec_recorderClear {y z w : State} (hmark : v.toNat / 2 ^ 16 = 0xa5) (hy : y = flush x)
    (hz : z = { y with log := { y.log with recs := [], drop := 0, full := false } })
    (hw : w = lifemark (ownRecord z 0x680011 ((x.log.nextSeq - 1) / 2 ^ 24) (x.log.nextSeq - 1) (min x.log.drop 0xffffff))) :
    exec (.recorderClear e v) s = .next (cursorsReset w) := by
  have hexec : exec (.recorderClear e v) s = execRecorderClear e v s := rfl
  have hbits : bitsOf v.toNat 16 8 = 0xa5 := (bitsOf_high v).trans hmark
  have hcond : ¬(!bitOf v.toNat 0 || bitsOf v.toNat 16 8 != 0xa5) = true := by rw [bitOf_toNat, hclear, hbits]; decide
  rw [hexec, execRecorderClear, onSet_of_accept _ haccept, if_neg hcond, hw, hz, hy]
  rfl

omit hclear in
theorem exec_recorderClear_unmarked (hmark : v.toNat / 2 ^ 16 ≠ 0xa5) : exec (.recorderClear e v) s = .next x := by
  have hexec : exec (.recorderClear e v) s = execRecorderClear e v s := rfl
  have hbits : bitsOf v.toNat 16 8 ≠ 0xa5 := (bitsOf_high v).trans_ne hmark
  have hcond : (!bitOf v.toNat 0 || bitsOf v.toNat 16 8 != 0xa5) = true := by rw [bne_iff_ne.mpr hbits, Bool.or_true]
  rw [hexec, execRecorderClear, onSet_of_accept _ haccept, if_pos hcond]

end

/-! ## Cursors -/

section
variable {s x y : State} {r : Option Rec}

theorem exec_hostRecordLatch (hup : hostUp s = true) (hphase : s.sys.phase = .running) (hr : r = s.log.recs[rdF s fLOG_HCUR_POS]?)
    (hx : x = { s with hst := { s.hst with hostRead := ofBytes (bytesAt (latchBytes r) 0 4) } }) :
    exec .hostRecordLatch s = .next { x with log := { s.log with hostLatch := r } } := by
  have hexec : exec .hostRecordLatch s = execHostRecordLatch s := rfl
  have hcond : ¬(!hostUp s || s.sys.phase == .off || s.sys.phase == .rails || s.sys.phase == .asleep) = true := by rw [hup, hphase]; decide
  rw [hexec, execHostRecordLatch, if_neg hcond, hx, hr]

theorem exec_hostRecordAdvance (hup : hostUp s = true) (hphase : s.sys.phase = .running)
    (hx : x = { s with hst := { s.hst with hostRead := ofBytes (bytesAt (latchBytes s.log.hostLatch) 28 4) } }) :
    exec .hostRecordAdvance s = .next (if s.log.hostLatch.isSome then wrF x fLOG_HCUR_POS (rdF s fLOG_HCUR_POS + 1) else x) := by
  have hexec : exec .hostRecordAdvance s = execHostRecordAdvance s := rfl
  have hcond : ¬(!hostUp s || s.sys.phase == .off || s.sys.phase == .rails || s.sys.phase == .asleep) = true := by rw [hup, hphase]; decide
  rw [hexec, execHostRecordAdvance, if_neg hcond, hx]
  rfl

section
variable {e : Eng} {k : Fin 2}

theorem exec_engineRecordLatch (hready : getReady s e (fAddr fLOG_EW0_SEQ 0 (16 * k)) = true) (hr : r = s.log.recs[rdF s fLOG_ECUR_POS 0 (16 * k)]?)
    (hx : x = { s with log := { s.log with engLatch := tset (fun _ => none) s.log.engLatch k r } })
    (hy : y = (engWords r).zipIdx.foldl (fun s x => wrW s (fAddr fLOG_EW0_SEQ 0 (16 * k) + x.2) (wd x.1)) x) :
    exec (.engineRecordLatch e k) s = .next (answer y e (some (rdW y (fAddr fLOG_EW0_SEQ 0 (16 * k))))) := by
  have hexec : exec (.engineRecordLatch e k) s = execEngineRecordLatch e k s := rfl
  simp only [hexec, execEngineRecordLatch, hready, Bool.not_true, Bool.false_eq_true, if_false, ← hr, ← hx, ← hy]

theorem exec_engineRecordAdvance (hready : getReady s e (fAddr fLOG_EW10_P3 0 (16 * k)) = true)
    (hx : x = (if (tget (fun _ => none) s.log.engLatch k).isSome then wrF s fLOG_ECUR_POS (rdF s fLOG_ECUR_POS 0 (16 * k) + 1) 0 (16 * k) else s)) :
    exec (.engineRecordAdvance e k) s = .next (answer x e (some (rdW s (fAddr fLOG_EW10_P3 0 (16 * k))))) := by
  have hexec : exec (.engineRecordAdvance e k) s = execEngineRecordAdvance e k s := rfl
  simp only [hexec, execEngineRecordAdvance, hready, Bool.not_true, Bool.false_eq_true, if_false, ← hx]

end
end

end Sys2Proof.Machine
end

section
/-! The tag area, and the statement about faults and records. -/
namespace Sys2Proof.Machine

/-! ## Reading the tag area -/

/-- The word that holds byte 3k + b of a list of bytes, three a word, has it as its byte b. -/
theorem wordBytes_packWords (l : List Byte) {k : Nat} (b : Fin 3) (h : 3 * k + b < l.length) :
    (wordBytes ((packWords l).getD k 0))[b.val]? = some (l.getD (3 * k + b) 0) := by
  have hbyte := byte_packWords l h
  have hk : (3 * k + b.val) / 3 = k := by omega
  have hb : (3 * k + b.val) % 3 = b.val := by omega
  rw [hk, hb] at hbyte
  have hget : (wordBytes ((packWords l).getD k 0))[b.val]? = some (by8 (((packWords l).getD k 0).toNat / 2 ^ (16 - 8 * b.val))) := by
    match b with
    | 0 => rfl
    | 1 => rfl
    | 2 => rfl
  rw [hget, Option.some_inj]
  exact BitVec.eq_of_toNat_eq ((BitVec.toNat_ofNat ..).trans hbyte)

section
variable (s : State) (f : Fld) (i : Nat) (l : List Word)

/-- Words written in a row read as the list. -/
theorem rdW_foldl_wrW {k : Nat} (hl : f.word + l.length ≤ 1024) (hk : k < l.length) :
    rdW (l.zipIdx.foldl (fun s w => wrW s (fAddr f i w.2) w.1) s) (fAddr f i k) = l.getD k 0 := by
  induction l using List.reverseRecOn with
  | nil => exact absurd hk (Nat.not_lt_zero k)
  | append_singleton l x ih =>
    rw [List.length_append, List.length_singleton] at hl hk
    rw [List.zipIdx_append, List.foldl_append]
    simp only [List.zipIdx_singleton, List.foldl_cons, List.foldl_nil, Nat.zero_add]
    by_cases hlast : k = l.length
    · rw [hlast, rdW_wrW_same]
      simp
    · rw [rdW_wrW_other _ _ (fAddr_ne (by omega) (by omega) (by omega)), ih (by omega) (by omega)]
      simp [List.getD_eq_getElem?_getD, List.getElem?_append_left (show k < l.length by omega)]

/-- Words written in a row leave every other word. -/
theorem rdW_foldl_wrW_other {a : Nat} (ha : ∀ k, k < l.length → a ≠ fAddr f i k) :
    rdW (l.zipIdx.foldl (fun s w => wrW s (fAddr f i w.2) w.1) s) a = rdW s a := by
  induction l using List.reverseRecOn with
  | nil => rfl
  | append_singleton l x ih =>
    rw [List.zipIdx_append, List.foldl_append]
    simp only [List.zipIdx_singleton, List.foldl_cons, List.foldl_nil, Nat.zero_add]
    rw [rdW_wrW_other _ _ (ha l.length (by simp)), ih fun k hk => ha k (by rw [List.length_append]; omega)]

/-- Words written in a row change nothing but words. -/
theorem foldl_wrW_frame : { l.zipIdx.foldl (fun s w => wrW s (fAddr f i w.2) w.1) s with words := s.words } = s := by
  induction l using List.reverseRecOn with
  | nil => rfl
  | append_singleton l x ih =>
    rw [List.zipIdx_append, List.foldl_append]
    simp only [List.zipIdx_singleton, List.foldl_cons, List.foldl_nil, Nat.zero_add]
    exact ih

end

/-- The bytes that a read of the tag area at a latches: to the area's end, then bytes that no spec names. -/
def tagBytes (x : State) (a : Nat) : List Byte :=
  (List.range (min 48 (4096 - a))).map (fun k => tagByte (takeBytes (48 - min 48 (4096 - a)) (wrF x fLOG_TRADDR_A a)).2 (a + k)) ++
    (takeBytes (48 - min 48 (4096 - a)) (wrF x fLOG_TRADDR_A a)).1

theorem length_tagBytes (x : State) (a : Nat) : (tagBytes x a).length = 48 := by
  rw [tagBytes, List.length_append, List.length_map, List.length_range, length_takeBytes]
  omega

/-- The state that has latched a read of the tag area. -/
def tagLatched (x : State) (a : Nat) : State :=
  (packWords (tagBytes x a)).zipIdx.foldl (fun s w => wrW s (fAddr fLOG_TRD0_D 0 w.2) w.1)
    (takeBytes (48 - min 48 (4096 - a)) (wrF x fLOG_TRADDR_A a)).2

theorem exec_tagReadLatch {e : Eng} {v : Word} {s x : State} (haccept : accept s e false (fAddr fLOG_TRADDR_A 0 0) v = some x) :
    exec (.tagReadLatch e v) s = .next (tagLatched x (v.toNat % 4096)) := by
  have hexec : exec (.tagReadLatch e v) s = execTagReadLatch e v s := rfl
  have hbits : bitsOf v.toNat 0 12 = v.toNat % 4096 := bitsOf_zero _ _
  rw [hexec, execTagReadLatch, onSet_of_accept _ haccept, hbits]
  rfl

section
variable (x : State) (a : Nat)

theorem takeBytes_keeps (n : Nat) (s : State) : (takeBytes n s).2.words = s.words ∧ (takeBytes n s).2.log = s.log ∧
    { (takeBytes n s).2.sys with free := s.sys.free } = s.sys := by
  induction n generalizing s with
  | zero => exact ⟨rfl, rfl, rfl⟩
  | succ n ih =>
    obtain ⟨hwords, hlog, hsys⟩ := ih (takeFree s).2
    exact ⟨hwords, hlog, congrArg (fun y : SysSt => { y with free := s.sys.free }) hsys⟩

theorem tagLatched_frame : { tagLatched x a with words := x.words, sys := x.sys } = x := by
  have hframe := foldl_wrW_frame (takeBytes (48 - min 48 (4096 - a)) (wrF x fLOG_TRADDR_A a)).2 fLOG_TRD0_D 0 (packWords (tagBytes x a))
  obtain ⟨htaken, -⟩ := takeBytes_frame (48 - min 48 (4096 - a)) (wrF x fLOG_TRADDR_A a)
  have hback := congrArg (fun t : State => { t with words := x.words, sys := x.sys }) hframe
  exact hback.trans (congrArg (fun t : State => { t with words := x.words, sys := x.sys }) htaken)

theorem foldl_wrW_sys (s : State) (l : List Word) (f : Fld) (i : Nat) :
    (l.zipIdx.foldl (fun s w => wrW s (fAddr f i w.2) w.1) s).sys = s.sys := by
  have hframe := congrArg State.sys (foldl_wrW_frame s f i l)
  exact hframe

theorem tagLatched_sys : { (tagLatched x a).sys with free := x.sys.free } = x.sys := by
  obtain ⟨-, -, hsys⟩ := takeBytes_keeps (48 - min 48 (4096 - a)) (wrF x fLOG_TRADDR_A a)
  rw [tagLatched, foldl_wrW_sys]
  exact hsys

theorem length_tagWords : (packWords (tagBytes x a)).length = 16 := by rw [length_packWords, length_tagBytes]

theorem tagLatched_address (ha : a < 4096) : rdF (tagLatched x a) fLOG_TRADDR_A = a := by
  obtain ⟨hwords, -, -⟩ := takeBytes_keeps (48 - min 48 (4096 - a)) (wrF x fLOG_TRADDR_A a)
  have hword : rdW (tagLatched x a) (fAddr fLOG_TRADDR_A 0 0) = rdW (wrF x fLOG_TRADDR_A a) (fAddr fLOG_TRADDR_A 0 0) := by
    rw [tagLatched, rdW_foldl_wrW_other, rdW, rdW, hwords]
    intro k hk
    rw [length_tagWords] at hk
    have hword : 0x71 + k < 1024 := by omega
    have hne : 0x70 + 0 ≠ 0x71 + k := by omega
    exact fAddr_ne hword (by decide) hne
  rw [rdF, hword]
  exact (rdF_wrF_same x fLOG_TRADDR_A a 0 0 (by decide)).trans (Nat.mod_eq_of_lt ha)

theorem tagLatched_byte (k : Fin 16) (b : Fin 3) (h : a + 3 * k + b < 4096) :
    (wordBytes (rdW (tagLatched x a) (fAddr fLOG_TRD0_D 0 k)))[b.val]? = some (tagByte x (a + 3 * k + b)) := by
  have hk := k.isLt
  have hb := b.isLt
  have hword : rdW (tagLatched x a) (fAddr fLOG_TRD0_D 0 k) = (packWords (tagBytes x a)).getD k 0 := by
    rw [tagLatched, rdW_foldl_wrW _ _ _ _ (by rw [length_tagWords]; decide) (by rw [length_tagWords]; exact hk)]
  rw [hword, wordBytes_packWords _ b (by rw [length_tagBytes]; omega)]
  have hin : 3 * k.val + b.val < min 48 (4096 - a) := by omega
  obtain ⟨-, hlog, -⟩ := takeBytes_keeps (48 - min 48 (4096 - a)) (wrF x fLOG_TRADDR_A a)
  rw [Option.some_inj, tagBytes, List.getD_eq_getElem?_getD, List.getElem?_append_left (by rw [List.length_map, List.length_range]; exact hin),
    List.getElem?_map, List.getElem?_range hin, Option.map_some, Option.getD_some, tagByte, tagByte, hlog, wrF_log, Nat.add_assoc]

end

/-! ## Writing and locking -/

/-- What a write of n bytes at a comes to. -/
def tagAsked (x : State) (a n : Nat) : State :=
  if x.log.tagOp.isSome then tagRes x 1
  else if n = 0 ∨ 256 < n ∨ 256 < a % 256 + n then tagRes x 2
  else if tagLocked x (a / 256) then tagRes x 3
  else { x with log := { x.log with tagOp := some ⟨1, a / 256, a, tagBuf x n⟩ } }

/-- The four bits of a tag command that name its block. -/
theorem bitsOf_block (v : Word) : bitsOf v.toNat 4 4 = v.toNat / 16 % 16 := rfl

section
variable {e : Eng} {v : Word} {s x : State} (haccept : accept s e false (fAddr fLOG_TGO_OP 0 0) v = some x)
include haccept

theorem exec_tagWrite (hop : v.toNat % 4 = 1) : exec (.tagWrite e v) s = .next (tagAsked x (rdF x fLOG_TWADDR_A) (rdF x fLOG_TWLEN_N)) := by
  have hexec : exec (.tagWrite e v) s = execTagWrite e v s := rfl
  have hbits : bitsOf v.toNat 0 2 = 1 := (bitsOf_zero _ _).trans hop
  rw [hexec, execTagWrite, if_neg (by rw [hbits]; decide), onSet_of_accept _ haccept]
  rfl

theorem exec_tagLockToReset (hop : v.toNat % 4 = 2) : exec (.tagLockToReset e v) s = .next (askLock x 2 (v.toNat / 16 % 16)) := by
  have hexec : exec (.tagLockToReset e v) s = execTagLockToReset e v s := rfl
  have hbits : bitsOf v.toNat 0 2 = 2 := (bitsOf_zero _ _).trans hop
  rw [hexec, execTagLockToReset, if_neg (by rw [hbits]; decide), onSet_of_accept _ haccept, bitsOf_block]

theorem exec_tagLockPermanent (hop : v.toNat % 4 = 3) :
    exec (.tagLockPermanent e v) s = .next (if v.toNat / 2 ^ 16 = 0xa5 then askLock x 3 (v.toNat / 16 % 16) else tagRes x 4) := by
  have hexec : exec (.tagLockPermanent e v) s = execTagLockPermanent e v s := rfl
  have hbits : bitsOf v.toNat 0 2 = 3 := (bitsOf_zero _ _).trans hop
  rw [hexec, execTagLockPermanent, if_neg (by rw [hbits]; decide), onSet_of_accept _ haccept, bitsOf_block, bitsOf_high]
  by_cases hmark : v.toNat / 2 ^ 16 = 0xa5
  · rw [hmark]; rfl
  · rw [if_pos (bne_iff_ne.mpr hmark), if_neg hmark]

end

/-- The state that has set a block's lock in the recorder, before its words are written. -/
def lockSet (s : State) (op b : Nat) : State :=
  if op = 2 then { s with log := { s.log with lockT := putBits s.log.lockT b 1 1 } } else { s with log := { s.log with lockP := putBits s.log.lockP b 1 1 } }

theorem lockBlock_eq (s : State) (op b : Nat) : lockBlock s op b =
    tagRes (emit0 (wrF (wrF (lockSet s op b) fLOG_TLOCKT_B (lockSet s op b).log.lockT) fLOG_TLOCKP_B (lockSet s op b).log.lockP) 0x680014) 0 := rfl

theorem tagLocked_lockSet (s : State) (op b : Nat) : tagLocked (lockSet s op b) b = true := by
  have hset : ∀ n, bitOf (putBits n b 1 1) b = true := fun n => by rw [bitOf_eq_testBit, putBits_one]; simp
  rw [lockSet, tagLocked, Bool.or_eq_true]
  split
  · exact .inl (hset _)
  · exact .inr (hset _)

theorem tagLocked_lockBlock (s : State) (op b : Nat) : tagLocked (lockBlock s op b) b = true := by
  rw [lockBlock_eq]
  exact tagLocked_lockSet s op b

theorem askLock_free {s : State} (op b : Nat) (h : s.log.tagOp = none) : askLock s op b = lockBlock s op b := by rw [askLock, h]

theorem askLock_writing {s : State} (op b : Nat) {o : TagOp} (h : s.log.tagOp = some o) : askLock s op b =
    (if o.block = b then { s with log := { s.log with tagNext := s.log.tagNext ++ [⟨op, b, 0, []⟩] } } else tagRes s 1) := by
  rw [askLock, h]

/-- The tag area after a write has been committed. -/
def tagWritten (s : State) (o : TagOp) : Tab Byte :=
  (o.data.mapIdx fun k b => (o.addr + k, b)).foldl (fun m x => tset (fun _ => 0) m x.1 x.2) s.log.tag

theorem tget_tagWritten_in (s : State) (o : TagOp) {k : Nat} {y : Byte} (h : o.data[k]? = some y) : tget (fun _ => 0) (tagWritten s o) (o.addr + k) = y := by
  obtain ⟨hk, hy⟩ := List.getElem?_eq_some_iff.mp h
  rw [tagWritten, tget_foldl_mapIdx _ 0, if_pos ⟨by omega, by omega⟩, Nat.add_sub_cancel_left, List.getD_eq_getElem _ _ hk, hy]

theorem tget_tagWritten_out (s : State) (o : TagOp) {a : Nat} (h : a < o.addr ∨ o.addr + o.data.length ≤ a) :
    tget (fun _ => 0) (tagWritten s o) a = tget (fun _ => 0) s.log.tag a := by
  rw [tagWritten, tget_foldl_mapIdx _ 0, if_neg (by omega)]

theorem exec_tagWriteCommit {s x y : State} {o : TagOp} (hop : s.log.tagOp = some o) (hon : alwaysOn s = true)
    (hx : x = { s with log := { s.log with tag := tagWritten s o, tagOp := none, tagNext := [] } })
    (hy : y = tagRes (emit1 (journalAdd x (80 + o.block)) 0x680013 o.block) 0) :
    exec .tagWriteCommit s = .next (s.log.tagNext.foldl (fun s x => lockBlock s x.op x.block) y) := by
  have hexec : exec .tagWriteCommit s = execTagWriteCommit s := rfl
  simp only [hexec, execTagWriteCommit, hop, hon, Bool.not_true, Bool.false_eq_true, if_false, hy, hx, tagWritten]

theorem exec_fwcauseClear {e : Eng} {v : Word} {s x : State} (haccept : accept s e false (fAddr fLOG_FWCAUSE_CAUSE 0 0) v = some x) :
    exec (.fwcauseClear e v) s = .next (if v.getLsbD 8 then wrF x fLOG_FWCAUSE_PRESENT 0 else x) := by
  have hexec : exec (.fwcauseClear e v) s = execFwcauseClear e v s := rfl
  rw [hexec, execFwcauseClear, onSet_of_accept _ haccept, bitOf_toNat]

/-- Settles O59: faults and recoveries, the halt, the recorder, the journal and the tag area. -/
theorem faultsAreClassedRecoveredAndRecorded : Obligations.FaultsAreClassedRecoveredAndRecorded := by
  refine ⟨?raised, fun s f => ⟨halt_halted s f, halt_busy s f, halt_fault s f, halt_halts s f, halt_page s f⟩,
    fun s x code hx => ⟨takeFault_free_low code hx, takeFault_free_high code hx⟩, ?domain, ?meet, ?recovery, ?clear, fun s x => exec_haltRecordCommit,
    ?event, ?take, ?recorder, ?erase, fun s x y k e r => ⟨exec_hostRecordLatch, exec_hostRecordAdvance, exec_engineRecordLatch, exec_engineRecordAdvance⟩,
    ?read, ?write, fun s op b _ _ => ⟨tagLocked_lockBlock s op b, askLock_free op b, fun o => askLock_writing op b⟩, ?commit,
    fun e v s x => exec_fwcauseClear⟩
  case raised =>
    intro s x f l hon hx
    refine ⟨fun hfirst hrunning => ?_, fun hfirst hhalted => ?_, fun hnone hraised hrunning => ?_, fun hnone hraised hhalted => ?_⟩
    · rw [exec_faultRaised_halt hon hfirst hx, hrunning]; rfl
    · rw [exec_faultRaised_halt hon hfirst hx, if_pos hhalted]
    · rw [exec_faultRaised_other hon hnone hraised hx, hrunning]; rfl
    · rw [exec_faultRaised_other hon hnone hraised hx, if_pos hhalted]
  case domain =>
    intro s y code d hd hy
    rw [takeFault_domain code hd hy]
    exact ⟨fun hfailed => by rw [if_pos hfailed], fun hfree => by rw [hfree]; rfl⟩
  case meet =>
    intro s d code cls
    refine ⟨meetFault_free code, fun rc rcls => meetFault_busy code, startLocal_few code, fun hmany x hx => ⟨fun hrole => ?_, fun hrole => ?_⟩,
      fun hlong hcode => ?_⟩
    · rw [startLocal_many code hmany hx, if_pos hrole]
    · rw [startLocal_many code hmany hx, if_neg (by omega)]
    · rw [beginRecovery_runs code hlong hcode, dom_setDom]
      exact ⟨rfl, rfl⟩
  case recovery =>
    intro d s code cls c hrun hlive hc
    refine ⟨exec_recoveryEnd_waits hrun hc, fun hended hcrystal x y => exec_recoveryEnd hrun hlive hc hended hcrystal, fun hdue x hx => ?_⟩
    rw [exec_recoveryTimeout hrun hlive hc hdue hx]
    refine ⟨fun hgone => by rw [hgone]; rfl, fun hholds hcls => by rw [if_pos hholds, if_pos hcls], fun hholds hcls => by rw [if_pos hholds, if_neg hcls]⟩
  case clear =>
    intro e v s x y z d haccept hd hy hz
    rw [exec_domainClear haccept hd hy]
    refine ⟨fun hclear => by rw [hclear]; rfl, fun hclear hfree => by rw [hclear, hfree]; rfl, fun hclear hfailed => ?_⟩
    rw [if_pos hclear, if_pos hfailed, hz]
    rfl
  case event =>
    intro s x ev l hraised hon hx
    rw [exec_eventRecord hraised hon hx]
    refine ⟨fun hnot => ?_, fun hset hcode hruns => ?_⟩
    · rw [if_neg]
      rw [Bool.and_eq_true, Bool.and_eq_true, beq_iff_eq]
      rintro ⟨⟨hset, hcode⟩, hruns⟩
      rcases hnot with h | h | h
      · exact Bool.false_ne_true (h.symm.trans hset)
      · exact h hcode
      · exact Bool.false_ne_true (h.symm.trans hruns)
    · rw [hset, hcode, hruns, beq_self_eq_true]; rfl
  case take =>
    intro s ev hown hh hx hx'
    exact ⟨takeEvent_halted hown hh, fun hrunning => ⟨takeEvent_suppressed hown hh hrunning hx hx', takeEvent_dropped hown hh hrunning hx hx',
      takeEvent_stored hown hh hrunning hx hx'⟩⟩
  case recorder =>
    intro s x hon
    refine ⟨fun hbuf hpaced => ⟨exec_commitBufferFlush hon hbuf hpaced, by rw [flush_log], by rw [flush_log]⟩, exec_lifeCounterWrap hon,
      exec_journalCommit hon, rfl, fun c => exec_suppressedRecord hon c, fun hdue => ⟨_, exec_creditInstant hdue, rfl, rfl, rfl, fun c => ?_⟩⟩
    exact tget_creditsGiven s c
  case erase =>
    intro e v s x haccept hclear
    refine ⟨fun hmark y z w hy hz hw => ?_, exec_recorderClear_unmarked haccept⟩
    have hbuf : z.log.buf = [] := by rw [hz, hy, flush_log]
    obtain ⟨hrecs, hfull, hcodes⟩ := erased_log (z := z) ((x.log.nextSeq - 1) / 2 ^ 24) (x.log.nextSeq - 1) (min x.log.drop 0xffffff) (by rw [hz]) hbuf (by rw [hz])
    obtain ⟨hrecs', hfull', hbuf'⟩ := cursorsReset_keeps w
    exact ⟨_, exec_recorderClear haccept hclear hmark hy hz hw, rfl, by rw [hrecs', hw, hrecs], by rw [hfull', hw, hfull], by rw [hbuf', hw, hcodes],
      cursorsReset_host w⟩
  case read =>
    intro e v s x haccept
    exact ⟨_, exec_tagReadLatch haccept, tagLatched_frame x _, tagLatched_sys x _, tagLatched_address x _ (Nat.mod_lt _ (by decide)),
      fun k b h => tagLatched_byte x _ k b h⟩
  case write =>
    intro e v s x a n haccept ha hn
    refine ⟨fun hop => ?_, exec_tagLockToReset haccept, exec_tagLockPermanent haccept⟩
    rw [exec_tagWrite haccept hop, ← ha, ← hn, tagAsked]
    refine ⟨fun hbusy => by rw [if_pos hbusy], fun hfree hlen => ?_, fun hfree hpos hfits => ⟨fun hlocked => ?_, fun hopen => ?_⟩⟩
    · rw [hfree, if_neg (by decide), if_pos hlen]
    · rw [hfree, if_neg (by decide), if_neg (by omega), if_pos hlocked]
    · rw [if_neg (by rw [hfree]; decide), if_neg (by omega), hopen, if_neg Bool.false_ne_true]
  case commit =>
    intro s x y o hop hon
    exact ⟨tagWritten s o, fun k y => tget_tagWritten_in s o, fun a => tget_tagWritten_out s o, fun hx hy => exec_tagWriteCommit hop hon hx hy⟩

end Sys2Proof.Machine
end

section
/-! Counters, dumps, samples and the capture ring (R628 to R641), and the pattern tests and the test access port (R662 to R672), and the statement
about them. -/
namespace Sys2Proof.Machine

/-! ## Bits of a node's flags -/

/-- One bit set in a number: the number itself where it stands, else that much more. -/
theorem putBits_set (n k : Nat) : putBits n k 1 1 = if n.testBit k then n else n + 2 ^ k := by
  have hbit : n.testBit k = decide (n / 2 ^ k % 2 = 1) := by rw [Nat.testBit_eq_decide_div_mod_eq]
  have hlow := Nat.div_add_mod n (2 ^ k)
  have hhigh : n / 2 ^ k = n / 2 ^ (k + 1) * 2 + n / 2 ^ k % 2 := by
    rw [pow_succ, ← Nat.div_div_eq_div_mul]
    omega
  have hsplit : ∀ q b, 2 ^ k * (q * 2 + b) = q * 2 ^ (k + 1) + 2 ^ k * b := fun q b => by rw [pow_succ]; ring
  rw [hhigh, hsplit] at hlow
  rw [putBits, hbit]
  rcases Nat.mod_two_eq_zero_or_one (n / 2 ^ k) with hzero | hone
  · rw [hzero, Nat.mul_zero] at hlow
    rw [hzero, if_neg (by decide)]
    omega
  · rw [hone, Nat.mul_one] at hlow
    rw [hone, if_pos (by decide)]
    omega

section
variable (s : State) {k : Nat}

theorem nodeVal_setNode (v f : Nat) : nodeVal (setNode s k v f) k = v := tget_tset_same ..

theorem nodeFlag_setNode (v f : Nat) : nodeFlag (setNode s k v f) k = f := tget_tset_same ..

theorem nodeVal_setNode_other (v f : Nat) {a : Nat} (h : a ≠ k) : nodeVal (setNode s k v f) a = nodeVal s a := tget_tset_other _ _ _ h

theorem nodeFlag_setNode_other (v f : Nat) {a : Nat} (h : a ≠ k) : nodeFlag (setNode s k v f) a = nodeFlag s a := tget_tset_other _ _ _ h

theorem resetNode_leaf (h : k % 2 ^ 20 ≠ aggObj) : resetNode s k = setNode s k 0 (putBits (putBits (putBits (nodeFlag s k) 0 1 0) 1 1 0) 2 1 0) := if_neg h

/-- The three flags cleared one by one leave none. -/
theorem flagsCleared (n : Nat) : putBits (putBits (putBits n 0 1 0) 1 1 0) 2 1 0 % 8 = 0 := by
  refine Nat.eq_of_testBit_eq fun i => ?_
  rw [show (8 : Nat) = 2 ^ 3 from rfl, Nat.testBit_mod_two_pow, testBit_putBits, testBit_putBits, testBit_putBits, Nat.zero_testBit]
  by_cases hi : i < 3
  · have hcases : i = 0 ∨ i = 1 ∨ i = 2 := by omega
    rcases hcases with rfl | rfl | rfl <;> simp
  · rw [decide_eq_false hi, Bool.false_and, Nat.zero_testBit]

end

/-! ## Epochs and dumps -/

theorem exec_epochSwitch {s : State} (hruns : cntRuns s = true) (hdue : switchDue s = true) : exec .epochSwitch s = .next
    (if s.cnt.dump.isSome then (if s.cnt.late then s else emit1 { s with cnt := { s.cnt with late := true } } 0x640013 s.cnt.dumpSeq)
    else
      let y := dropMaxima (startDump (s.cnt.resets.foldl resetNode { setPace s paceEpoch with cnt := { s.cnt with resets := [] } }))
      { y with cnt := { y.cnt with start := now y } }) := by
  have hexec : exec .epochSwitch s = execEpochSwitch s := rfl
  rw [hexec, execEpochSwitch, hruns, hdue, if_neg (by decide)]
  cases s.cnt.dump.isSome <;> cases s.cnt.late <;> rfl

section
variable {s x y : State} {pos a : Nat} {head body : List Byte} (hdump : s.cnt.dump = some (pos, head, body)) (hlive : live s = true)
  (ha : a = rdF s fCNT_DBASEH_BASE * 2 ^ 24 + rdF s fCNT_DBASEL_BASE + pos)
  (hx : x = { s with cnt := { s.cnt with dump := none, late := false, dumpSeq := s.cnt.dumpSeq + 1 } })
include hdump hlive ha hx

theorem exec_dumpComplete_written {h : List Byte} {r : State × Bool} (hh : h = putBytes head 46 [byteAt head 46 ||| by8 (b2n s.cnt.late)])
    (hy : y = memWrite (memWrite x cntMaster (a + 64) body) cntMaster a h)
    (hr : r = postTo y (rdF y fCNT_DAGENT_ENG) ⟨0xd9, s.cnt.dumpSeq % 65536, pos / 256, 0, 0⟩) (hfits : a + 64 + body.length ≤ dataSpace)
    (hallowed : refusedByte s cntMaster a (64 + body.length) true = none) :
    exec .dumpComplete s = .next (if r.2 = true ∨ 0xc0 ≤ rdF y fCNT_DAGENT_ENG then r.1 else count r.1 0x19 kCntRefused 0) := by
  have hexec : exec .dumpComplete s = execDumpComplete s := rfl
  simp only [hexec, execDumpComplete, hdump, hlive, Bool.not_true, Bool.false_eq_true, if_false, ← ha, if_neg (Nat.not_lt.mpr hfits), hallowed, ← hh, ← hx,
    ← hy, ← hr, Bool.or_eq_true, decide_eq_true_eq]

theorem exec_dumpComplete_refused {b : Nat} (hfits : a + 64 + body.length ≤ dataSpace) (hrefused : refusedByte s cntMaster a (64 + body.length) true = some b) :
    exec .dumpComplete s = .next (refuse x cntMaster b true) := by
  have hexec : exec .dumpComplete s = execDumpComplete s := rfl
  simp only [hexec, execDumpComplete, hdump, hlive, Bool.not_true, Bool.false_eq_true, if_false, ← ha, if_neg (Nat.not_lt.mpr hfits), hrefused, ← hx]

theorem exec_dumpComplete_beyond (hbeyond : dataSpace < a + 64 + body.length) : exec .dumpComplete s = .next (refuse x cntMaster a true) := by
  have hexec : exec .dumpComplete s = execDumpComplete s := rfl
  simp only [hexec, execDumpComplete, hdump, hlive, Bool.not_true, Bool.false_eq_true, if_false, ← ha, if_pos hbeyond, ← hx]

end

/-! ## Counter memory, nodes and samples -/

section
variable {unit kind obj : Nat} {s : State} (hlive : live s = true) (hunit : unit < 64) (hkind : kind < 4096)
include hlive hunit hkind

theorem exec_counterEccError_corrected (hobj : obj ≤ aggObj) : exec (.counterEccError unit kind obj true) s = .next (count s 0x19 kCntCorrected 0) := by
  have hexec : exec (.counterEccError unit kind obj true) s = execCounterEccError unit kind obj true s := rfl
  rw [hexec, execCounterEccError, if_neg (by simp [hlive]; omega), if_pos rfl]

theorem exec_counterEccError_aggregate {k : Nat} (hobj : obj = aggObj) (hk : k = leafKey unit kind obj) :
    exec (.counterEccError unit kind obj false) s = .next (emit0 (setNode s k
      ((s.cnt.leaf.filter fun x => x.1 / 2 ^ 20 == k / 2 ^ 20 && x.1 != k).map fun x => x.2).sum
      (if (nodeFlag s k).testBit 2 then nodeFlag s k else nodeFlag s k + 4)) 0x640012) := by
  have hexec : exec (.counterEccError unit kind obj false) s = execCounterEccError unit kind obj false s := rfl
  rw [hexec, execCounterEccError, if_neg (by simp [hlive]; omega), if_neg Bool.false_ne_true, if_pos hobj, ← hk, putBits_set]
  rw [List.sum_eq_foldl, List.foldl_map]
  rfl

theorem exec_counterEccError_leaf {k a last : Nat} {x y : State} (hobj : obj < aggObj) (hk : k = leafKey unit kind obj) (ha : a = leafKey unit kind aggObj)
    (hlast : last = tget (fun _ => 0) s.cnt.last k) (hx : x = setNode s k 0 (if (nodeFlag s k).testBit 0 then nodeFlag s k else nodeFlag s k + 1))
    (hy : y = setNode x a (nodeVal s a) (if (nodeFlag s a).testBit 1 then nodeFlag s a else nodeFlag s a + 2)) :
    exec (.counterEccError unit kind obj false) s =
      .next (emit (emit2 y 0x640010 (unit + 64 * kind) obj) 0x640011 (last / 2 ^ 48) (last / 2 ^ 24) last) := by
  have hexec : exec (.counterEccError unit kind obj false) s = execCounterEccError unit kind obj false s := rfl
  have hne : a ≠ k := by rw [ha, hk, leafKey, leafKey]; omega
  have hval : nodeVal x a = nodeVal s a := by rw [hx, nodeVal_setNode_other _ _ _ hne]
  have hflag : nodeFlag x a = nodeFlag s a := by rw [hx, nodeFlag_setNode_other _ _ _ hne]
  have hlast' : tget (fun _ => 0) y.cnt.last k = last := by rw [hy, hx, hlast]; rfl
  rw [hexec, execCounterEccError, if_neg (by simp [hlive]; omega), if_neg Bool.false_ne_true, if_neg hobj.ne]
  simp only [← hk, ← ha, putBits_set, pow_zero, pow_one, ← hx, hval, hflag, ← hy, hlast']

end

end Sys2Proof.Machine
end

section
/-! Nodes read, samples, the capture ring, pattern tests and the test access port, and the statement about them. -/
namespace Sys2Proof.Machine

/-! ## Nodes and samples -/

section
variable {e : Eng} {v : Word} {s x : State}

/-- The state that shows a node's value and flags. -/
def nodeShown (x : State) (n f : Nat) : State :=
  wrF (wrF (wrF (wrF x fCNT_NVAL2_V (n / 2 ^ 48)) fCNT_NVAL1_V (n / 2 ^ 24)) fCNT_NVAL0_V n) fCNT_NFLAG_F f

theorem nodeShown_reads (x : State) (n f : Nat) : rdF (nodeShown x n f) fCNT_NVAL2_V = n / 2 ^ 48 % 2 ^ 24 ∧
    rdF (nodeShown x n f) fCNT_NVAL1_V = n / 2 ^ 24 % 2 ^ 24 ∧ rdF (nodeShown x n f) fCNT_NVAL0_V = n % 2 ^ 24 ∧
    rdF (nodeShown x n f) fCNT_NFLAG_F = f % 8 := by
  rw [nodeShown]
  refine ⟨?_, ?_, ?_, ?_⟩
  · rw [rdF_wrF_word _ _ _ _ _ _ _ _ (by decide), rdF_wrF_word _ _ _ _ _ _ _ _ (by decide), rdF_wrF_word _ _ _ _ _ _ _ _ (by decide),
      rdF_wrF_same _ _ _ _ _ (by decide)]
  · rw [rdF_wrF_word _ _ _ _ _ _ _ _ (by decide), rdF_wrF_word _ _ _ _ _ _ _ _ (by decide), rdF_wrF_same _ _ _ _ _ (by decide)]
  · rw [rdF_wrF_word _ _ _ _ _ _ _ _ (by decide), rdF_wrF_same _ _ _ _ _ (by decide)]
  · exact rdF_wrF_same _ _ _ _ _ (by decide)

section
variable (haccept : accept s e false (fAddr fCNT_NGO_READ 0 0) v = some x)
include haccept

theorem exec_nodeRead (hread : v.getLsbD 0 = true) : exec (.nodeRead e v) s = .next (nodeShown x (nodeVal x (selNode x)) (nodeFlag x (selNode x))) := by
  have hexec : exec (.nodeRead e v) s = execNodeRead e v s := rfl
  rw [hexec, execNodeRead, bitOf_toNat, hread, if_neg (by decide), onSet_of_accept _ haccept]
  rfl

theorem exec_nodeReset (hread : v.getLsbD 0 = false) (hreset : v.getLsbD 1 = true) :
    exec (.nodeReset e v) s = .next { x with cnt := { x.cnt with resets := x.cnt.resets ++ [selNode x] } } := by
  have hexec : exec (.nodeReset e v) s = execNodeReset e v s := rfl
  rw [hexec, execNodeReset, bitOf_toNat, bitOf_toNat, hread, hreset, if_neg (by decide), onSet_of_accept _ haccept]

end

section
variable (haccept : accept s e false (fAddr fCNT_SMPGO_GO 0 0) v = some x)
include haccept

theorem exec_sampleAppend_idle (h : v.getLsbD 0 = false ∨ smpRing x = 0 ∨ cntRuns x = false) : exec (.sampleAppend e v) s = .next x := by
  have hexec : exec (.sampleAppend e v) s = execSampleAppend e v s := rfl
  have hcond : (!bitOf v.toNat 0 || decide (smpRing x = 0) || !cntRuns x) = true := by
    rw [bitOf_toNat, Bool.or_eq_true, Bool.or_eq_true, decide_eq_true_eq, Bool.not_eq_true', Bool.not_eq_true', or_assoc]
    exact h
  rw [hexec, execSampleAppend, onSet_of_accept _ haccept, if_pos hcond]

section
variable {a : Nat} (hgo : v.getLsbD 0 = true) (hring : 0 < smpRing x) (hruns : cntRuns x = true)
  (ha : a = rdF x fCNT_SBASEH_BASE * 2 ^ 24 + rdF x fCNT_SBASEL_BASE + 32 * x.cnt.smpNext) (hfits : a + 32 ≤ dataSpace)
include hgo hring hruns ha hfits

theorem exec_sampleAppend_refused {b : Nat} (hrefused : refusedByte x cntMaster a 32 true = some b) :
    exec (.sampleAppend e v) s = .next (refuse x cntMaster b true) := by
  have hexec : exec (.sampleAppend e v) s = execSampleAppend e v s := rfl
  have hcond : (!bitOf v.toNat 0 || decide (smpRing x = 0) || !cntRuns x) = false := by
    rw [bitOf_toNat, hgo, decide_eq_false hring.ne', hruns, Bool.not_true, Bool.or_self, Bool.or_self]
  rw [hexec, execSampleAppend, onSet_of_accept _ haccept]
  simp only [hcond, Bool.false_eq_true, if_false, ← ha]
  simp only [if_neg (Nat.not_lt.mpr hfits), hrefused]

theorem exec_sampleAppend_written {y z : State} {b : List Byte} (hallowed : refusedByte x cntMaster a 32 true = none)
    (hy : y = (if x.cnt.smpHeld = smpRing x then count x 0x19 kCntOverwrite 0 else x))
    (hb : b = markBytes (now x) ++ toBytes 1 e.val ++ toBytes 2 (rdF x fCNT_SMPPC_PC) ++ toBytes 1 (rdF x fCNT_SMPPC_SKID) ++
      toBytes 3 (rdF x fCNT_SMPDROP_N) ++ List.replicate 12 0)
    (hz : z = { y with cnt := { { y.cnt with smpNext := (x.cnt.smpNext + 1) % smpRing x } with smpHeld := min (smpRing x) (x.cnt.smpHeld + 1) } }) :
    exec (.sampleAppend e v) s = .next (memWrite z cntMaster a b) := by
  have hexec : exec (.sampleAppend e v) s = execSampleAppend e v s := rfl
  have hcond : (!bitOf v.toNat 0 || decide (smpRing x = 0) || !cntRuns x) = false := by
    rw [bitOf_toNat, hgo, decide_eq_false hring.ne', hruns, Bool.not_true, Bool.or_self, Bool.or_self]
  have hcounted : smpRing (count x 0x19 kCntOverwrite 0) = smpRing x ∧ (count x 0x19 kCntOverwrite 0).cnt.smpNext = x.cnt.smpNext ∧
      (count x 0x19 kCntOverwrite 0).cnt.smpHeld = x.cnt.smpHeld := by
    refine ⟨by rw [smpRing, smpRing, rdF_congr (count_words ..)], ?_, ?_⟩ <;> rw [count] <;> split <;> rfl
  obtain ⟨hring', hnext', hheld'⟩ := hcounted
  have hsame : smpRing y = smpRing x ∧ y.cnt.smpNext = x.cnt.smpNext ∧ y.cnt.smpHeld = x.cnt.smpHeld := by
    rw [hy]
    split
    · exact ⟨hring', hnext', hheld'⟩
    · exact ⟨rfl, rfl, rfl⟩
  obtain ⟨hring'', hnext'', hheld''⟩ := hsame
  rw [hexec, execSampleAppend, onSet_of_accept _ haccept]
  simp only [hcond, Bool.false_eq_true, if_false, ← ha]
  simp only [if_neg (Nat.not_lt.mpr hfits), hallowed, ← hb, ← hy, hring'', hnext'', hheld'', hz]

end
end

/-! ## The capture ring -/

section
variable (haccept : accept s e false (fAddr fCNT_CGO_ARM 0 0) v = some x)
include haccept

theorem exec_captureArm (harm : v.getLsbD 0 = true) (hruns : cntRuns x = true) (hsize : rdF x fCNT_CSIZE_U ≠ 0) : exec (.captureArm e v) s = .next
    (if rdF x fCNT_CSTAT_STATE = 0 ∨ rdF x fCNT_CSTAT_STATE = 3 then
      wrF { x with cnt := { x.cnt with caps := [], capPos := 0, capLeft := 0, offers := [] } } fCNT_CSTAT_STATE 1
    else if rdF x fCNT_CSTAT_STATE = 2 then count x 0x19 kCntIgnored 0 else x) := by
  have hexec : exec (.captureArm e v) s = execCaptureArm e v s := rfl
  have hcond : (!cntRuns x || decide (rdF x fCNT_CSIZE_U = 0)) = false := by rw [hruns, decide_eq_false hsize]; rfl
  simp only [hexec, execCaptureArm, bitOf_toNat, harm, Bool.not_true, Bool.false_eq_true, if_false, onSet_of_accept _ haccept, hcond]

theorem exec_captureTrigger (harm : v.getLsbD 0 = false) (htrigger : v.getLsbD 1 = true) (hruns : cntRuns x = true) :
    exec (.captureTrigger e v) s = .next (captureTrigger x) := by
  have hexec : exec (.captureTrigger e v) s = execCaptureTrigger e v s := rfl
  rw [hexec, execCaptureTrigger, bitOf_toNat, bitOf_toNat, harm, htrigger, if_neg (by decide), onSet_of_accept _ haccept, if_pos hruns]

theorem exec_captureStop (harm : v.getLsbD 0 = false) (htrigger : v.getLsbD 1 = false) (hstop : v.getLsbD 2 = true) :
    exec (.captureStop e v) s = .next (if rdF x fCNT_CSTAT_STATE = 3 then x else freeze x) := by
  have hexec : exec (.captureStop e v) s = execCaptureStop e v s := rfl
  have hbits : bitsOf v.toNat 0 3 = 4 := by
    have hbit : ∀ i, v.toNat.testBit i = v.getLsbD i := fun i => BitVec.testBit_toNat v
    have h0 := hbit 0
    have h1 := hbit 1
    have h2 := hbit 2
    rw [harm, Nat.testBit_eq_decide_div_mod_eq, decide_eq_false_iff_not] at h0
    rw [htrigger, Nat.testBit_eq_decide_div_mod_eq, decide_eq_false_iff_not] at h1
    rw [hstop, Nat.testBit_eq_decide_div_mod_eq, decide_eq_true_eq] at h2
    rw [bitsOf_zero]
    omega
  rw [hexec, execCaptureStop, hbits, if_neg (by decide), onSet_of_accept _ haccept]

end
end

section
variable {s : State}

theorem captureTrigger_armed (hstate : rdF s fCNT_CSTAT_STATE = 1) : captureTrigger s = if rdF s fCNT_CPOST_MB = 0 then freeze s
    else wrF { s with cnt := { s.cnt with capLeft := rdF s fCNT_CPOST_MB * 2 ^ 20 } } fCNT_CSTAT_STATE 2 := by
  rw [captureTrigger, hstate]
  exact if_pos rfl

theorem captureTrigger_filling (hstate : rdF s fCNT_CSTAT_STATE = 2) : captureTrigger s = count s 0x19 kCntIgnored 0 := by
  rw [captureTrigger, hstate]
  rfl

theorem captureTrigger_ignored (hstate : rdF s fCNT_CSTAT_STATE = 0 ∨ rdF s fCNT_CSTAT_STATE = 3) : captureTrigger s = s := by
  rw [captureTrigger]
  rcases hstate with h | h <;> rw [h] <;> rfl

/-- The state whose capture ring stands frozen, with the first and last records' places. -/
def frozen (s : State) (first last : Nat) : State :=
  result (result (result (result (wrF { s with cnt := { s.cnt with offers := [], capLeft := 0 } } fCNT_CSTAT_STATE 3)
    fCNT_CFIRST1_OFF (first / 2 ^ 24)) fCNT_CFIRST0_OFF first) fCNT_CLAST1_OFF (last / 2 ^ 24)) fCNT_CLAST0_OFF last

theorem freeze_eq (s : State) : freeze s = emit2 (frozen s ((s.cnt.caps.head?.map fun x => x.1).getD 0) ((s.cnt.caps.getLast?.map fun x => x.1).getD 0))
    0x640014 ((s.cnt.caps.head?.map fun x => x.1).getD 0) ((s.cnt.caps.getLast?.map fun x => x.1).getD 0) := rfl

theorem rdF_result_other (s : State) {f g : Fld} (v : Nat) (h : fAddr g 0 0 ≠ fAddr f 0 0) : rdF (result s f v) g = rdF s g := by
  rw [rdF, rdW_result_other _ _ _ _ _ h, rdF]

theorem freeze_state (s : State) : rdF (freeze s) fCNT_CSTAT_STATE = 3 := by
  rw [freeze_eq, rdF_congr (emit2_words ..), frozen, rdF_result_other _ _ (by decide), rdF_result_other _ _ (by decide), rdF_result_other _ _ (by decide),
    rdF_result_other _ _ (by decide), rdF_wrF_same _ _ _ _ _ (by decide)]
  rfl

theorem freeze_first {n : Nat × Nat} {l : List (Nat × Nat)} (h : s.cnt.caps = [n] ++ l) : rdF (freeze s) fCNT_CFIRST0_OFF = n.1 % 2 ^ 24 := by
  rw [freeze_eq, rdF_congr (emit2_words ..), frozen, rdF_result_other _ _ (by decide), rdF_result_other _ _ (by decide), rdF, rdW_result_same, h, wd,
    BitVec.toNat_ofNat, bitsOf_zero]
  exact Nat.mod_mod_of_dvd _ (dvd_refl _)

theorem exec_captureFrozen (hlive : live s = true) (hstate : rdF s fCNT_CSTAT_STATE = 2) (hleft : s.cnt.capLeft = 0) :
    exec .captureFrozen s = .next (freeze s) := by
  have hexec : exec .captureFrozen s = execCaptureFrozen s := rfl
  rw [hexec, execCaptureFrozen, hlive, hstate, hleft]
  rfl

section
variable {x : State} {o : Offer} {l : List Offer} {b : List Byte} {n pos a : Nat} (hoffers : s.cnt.offers = o :: l) (hruns : cntRuns s = true)
  (hdone : offerDone s o = true) (hopen : rdF s fCNT_CSTAT_STATE ≠ 2 ∨ s.cnt.capLeft ≠ 0) (hx : x = { s with cnt := { s.cnt with offers := l } })
  (hb : b = captureBytes s o) (hn : n = b.length / 64)
  (hpos : pos = (if rdF s fCNT_CSIZE_U * 2 ^ 20 < s.cnt.capPos + n then 0 else s.cnt.capPos))
  (ha : a = rdF s fCNT_CBASEH_BASE * 2 ^ 24 + rdF s fCNT_CBASEL_BASE + 64 * pos)
include hoffers hruns hdone hopen hx hb hn hpos ha

theorem exec_captureRecord (lost : Bool) : exec (.captureRecord lost) s = .next
    (if lost then count x 0x19 kCntLost 0
    else if dataSpace < a + b.length then count (refuse x cntMaster a true) 0x19 kCntLost 0
    else (refusedByte s cntMaster a b.length true).elim
      (memWrite { x with cnt := { s.cnt with
        offers := l
        caps := (s.cnt.caps.filter fun x => !(decide (x.1 < pos + n) && decide (pos < x.1 + x.2))) ++ [(pos, n)]
        capPos := pos + n
        capLeft := s.cnt.capLeft - b.length } } cntMaster a b)
      fun z => count (refuse x cntMaster z true) 0x19 kCntLost 0) := by
  have hexec : exec (.captureRecord lost) s = execCaptureRecord lost s := rfl
  have hcond : (!cntRuns s || !offerDone s o || (rdF s fCNT_CSTAT_STATE == 2 && s.cnt.capLeft == 0)) = false := by
    rw [hruns, hdone, Bool.not_true, Bool.or_self, Bool.false_or, Bool.and_eq_false_iff, beq_eq_false_iff_ne, beq_eq_false_iff_ne]
    exact hopen
  have hhigh : rdF x fCNT_CBASEH_BASE = rdF s fCNT_CBASEH_BASE := by rw [hx]; rfl
  have hlow : rdF x fCNT_CBASEL_BASE = rdF s fCNT_CBASEL_BASE := by rw [hx]; rfl
  have hallowed : refusedByte x cntMaster a b.length true = refusedByte s cntMaster a b.length true := by rw [hx]; rfl
  simp only [hexec, execCaptureRecord, hoffers, hcond, Bool.false_eq_true, if_false, ← hb, ← hn, ← hx, hhigh, hlow, ← hpos, ← ha, hallowed]
  cases lost with
  | true => rfl
  | false =>
    by_cases hbeyond : dataSpace < a + b.length
    · simp only [Bool.false_eq_true, if_false, if_pos hbeyond]
    · simp only [Bool.false_eq_true, if_false, if_neg hbeyond]
      cases refusedByte s cntMaster a b.length true with
      | none => rw [hx]; rfl
      | some z => rfl

end
end

/-! ## Pattern tests -/

section
variable {j : Fin 39} {s : State} (hlive : live s = true)
include hlive

theorem exec_checkerLock (htesting : testing s j = true) (hcheck : rdF s fTST_TCFG_CHK j ≠ 0) (hlock : onF s fTST_TSTAT_LOCK j = false)
    (hloop : 34 ≤ j.val ∨ rdF s fTST_TCFG_LOOP j ≠ 1) :
    exec (.checkerLock j) s = .next (wrF { s with tst := { s.tst with errs := tset (fun _ => 0) s.tst.errs j 0 } } fTST_TSTAT_LOCK 1 j) := by
  have hexec : exec (.checkerLock j) s = execCheckerLock j s := rfl
  have hlooped : (decide (j.val < 34) && rdF s fTST_TCFG_LOOP j == 1) = false := by
    rw [Bool.and_eq_false_iff, decide_eq_false_iff_not, Nat.not_lt, beq_eq_false_iff_ne]
    exact hloop
  simp only [hexec, execCheckerLock, hlive, htesting, decide_eq_false hcheck, hlock, hlooped, Bool.not_true, Bool.or_self, Bool.false_eq_true, if_false]

theorem exec_checkerLockLoss (hlock : onF s fTST_TSTAT_LOCK j = true) :
    exec (.checkerLockLoss j) s = .next (emit0 (count (wrF s fTST_TSTAT_LOCK 0 j) 0x1b kTstLoss j) 0x6c0010) := by
  have hexec : exec (.checkerLockLoss j) s = execCheckerLockLoss j s := rfl
  rw [hexec, execCheckerLockLoss, hlive, hlock]
  rfl

theorem exec_terrResult {bits errors generated n acc : Nat} {x y z : State} (htesting : testing s j = true) (hpaced : paced s (paceTerr j) 625000 = true)
    (hn : n = tget (fun _ => 0) s.tst.errs j + (if onF s fTST_TSTAT_LOCK j then errors else 0))
    (hx : x = { setPace s (paceTerr j) with tst := { s.tst with errs := tset (fun _ => 0) s.tst.errs j n } })
    (hy : y = (if onF s fTST_TSTAT_LOCK j then count (count x 0x1b kTstChecked j bits) 0x1b kTstErrors j errors else x))
    (hacc : acc = tget (fun _ => 0) s.tst.acc j + generated)
    (hz : z = (if tget (fun _ => 0) s.tst.inj j = 3 then
      count { y with tst := { y.tst with acc := tset (fun _ => 0) y.tst.acc j (acc % 2 ^ rdF s fTST_TINJ_RATE j) } } 0x1b kTstInjected j
        (acc / 2 ^ rdF s fTST_TINJ_RATE j) else y)) :
    exec (.terrResult j bits errors generated) s = .next (result z fTST_TERR_N (min 0xffffff n) j) := by
  have hexec : exec (.terrResult j bits errors generated) s = execTerrResult j bits errors generated s := rfl
  have hcond : (!live s || !testing s j || !paced s (paceTerr j) 625000) = false := by rw [hlive, htesting, hpaced]; rfl
  have hlock : onF (setPace s (paceTerr j)) fTST_TSTAT_LOCK j = onF s fTST_TSTAT_LOCK j := rfl
  have hlockx : onF x fTST_TSTAT_LOCK j = onF s fTST_TSTAT_LOCK j := by rw [hx]; rfl
  have htst : (setPace s (paceTerr j)).tst = s.tst := rfl
  have hkept : y.tst = x.tst ∧ y.words = s.words := by
    rw [hy]
    split
    · exact ⟨(count_tst ..).trans (count_tst ..), (count_words ..).trans ((count_words ..).trans (by rw [hx]; rfl))⟩
    · exact ⟨rfl, by rw [hx]; rfl⟩
  obtain ⟨htsty, hwords⟩ := hkept
  have haccy : y.tst.acc = s.tst.acc := by rw [htsty, hx]
  have hinj : y.tst.inj = s.tst.inj := by rw [htsty, hx]
  have hrate : rdF y fTST_TINJ_RATE j = rdF s fTST_TINJ_RATE j := rdF_congr hwords _ _ _
  simp only [hexec, execTerrResult, hcond, Bool.false_eq_true, if_false, htst, hlock, ← hn, ← hx, hlockx, ← hy, haccy, hinj, hrate, ← hacc, hz]

end

theorem exec_inject {e : Eng} {j : Fin 39} {v : Word} (busy : Bool) {s x y : State} {kind : Nat} (haccept : accept s e false (fAddr fTST_TINJGO_GO j 0) v = some x)
    (hkind : kind = rdF x fTST_TINJ_KIND j)
    (hy : y = { x with tst := { { x.tst with inj := tset (fun _ => 0) x.tst.inj j kind } with acc := tset (fun _ => 0) x.tst.acc j 0 } }) :
    exec (.inject e j v busy) s = .next (if v.getLsbD 0 = false ∨ testing x j = false ∨ rdF x fTST_TCFG_GEN j = 0 then x
      else if busy = true ∧ (tget (fun _ => 0) x.tst.inj j = 1 ∨ tget (fun _ => 0) x.tst.inj j = 2) then count x 0x1b kTstIgnored j
      else count y 0x1b kTstInjected j (if kind = 1 then 1 else if kind = 2 then rdF x fTST_TINJ_LEN j + 1 else 0)) := by
  have hexec : exec (.inject e j v busy) s = execInject e j v busy s := rfl
  have hlen : rdF y fTST_TINJ_LEN j = rdF x fTST_TINJ_LEN j := by rw [hy]; rfl
  rw [hexec, execInject, onSet_of_accept _ haccept]
  simp only [bitOf_toNat, ← hkind, ← hy, hlen, Bool.or_eq_true, Bool.not_eq_true', decide_eq_true_eq, Bool.and_eq_true, beq_iff_eq, or_assoc]

theorem exec_testFrameSend {s x y : State} (hlive : live s = true) (htesting : testing s 38 = true) (hgen : rdF s fTST_TCFG_GEN 38 ≠ 0)
    (hidle : rdF s fTST_TCFG_LOOP 38 ≠ 0 ∨ busIdle s = true) (hpaced : paced s paceTestFrame 1250000 = true)
    (hx : x = (if s.tst.waits = true ∧ rdF s fTST_TCFG_CHK 38 ≠ 0 then count (setPace s paceTestFrame) 0x1b kTstLost 38 else setPace s paceTestFrame))
    (hy : y = count { x with tst := { x.tst with waits := true }, sbus := { x.sbus with sent := testFrame x } } 0x1b kTstTx 38) :
    exec .testFrameSend s = .next (if rdF s fTST_TCFG_LOOP 38 = 1 then testFrameIn y (testFrame x) else y) := by
  have hexec : exec .testFrameSend s = execTestFrameSend s := rfl
  have hbus : (decide (rdF s fTST_TCFG_LOOP 38 = 0) && !busIdle s) = false := by
    rw [Bool.and_eq_false_iff, decide_eq_false_iff_not, Bool.not_eq_false']
    exact hidle
  have hcond : (!live s || !testing s 38 || decide (rdF s fTST_TCFG_GEN 38 = 0) || (decide (rdF s fTST_TCFG_LOOP 38 = 0) && !busIdle s) ||
      !paced s paceTestFrame 1250000) = false := by
    rw [hlive, htesting, decide_eq_false hgen, hbus, hpaced]
    rfl
  have hwordsx : x.words = s.words := by
    rw [hx]
    split
    · exact count_words ..
    · rfl
  have hwords : y.words = s.words := by rw [hy]; exact (count_words ..).trans hwordsx
  have hloop : rdF y fTST_TCFG_LOOP 38 = rdF s fTST_TCFG_LOOP 38 := rdF_congr hwords _ _ _
  have hcheck : rdF (setPace s paceTestFrame) fTST_TCFG_CHK 38 = rdF s fTST_TCFG_CHK 38 := rfl
  have htst : (setPace s paceTestFrame).tst = s.tst := rfl
  simp only [hexec, execTestFrameSend, hcond, Bool.false_eq_true, if_false, htst, hcheck, Bool.and_eq_true, bne_iff_ne, ← hx, ← hy, hloop]

/-! ## The test access port -/

section
variable {s : State} (cells pins : Nat)

theorem tapOpen_of_lock (h : s.fuse.lock = true) : tapOpen s = false := by rw [tapOpen, h, Bool.not_true, Bool.and_false]

/-- A blown test lock shuts the port to every instruction. -/
theorem exec_tap_locked (h : s.fuse.lock = true) {code : BitVec 8} {c : Instr}
    (hc : c ∈ ([.tapReset, .extest cells pins, .samplePreload pins, .idcode, .clamp cells, .highz, .engdebug, .ptest, .bypass code] : List Instr)) :
    exec c s = .next s := by
  have hshut : ¬tapOpen s = true := by rw [tapOpen_of_lock h]; exact Bool.false_ne_true
  simp only [List.mem_cons, List.not_mem_nil, or_false] at hc
  rcases hc with rfl | rfl | rfl | rfl | rfl | rfl | rfl | rfl | rfl
  iterate 8 exact if_neg hshut
  exact if_pos (by rw [tapOpen_of_lock h, Bool.not_false, Bool.or_true])

theorem exec_bypass (hopen : tapOpen s = true) (code : BitVec 8) (h : ¬[0, 1, 2, 3, 4, 0x10, 0x11].contains code.toNat) :
    exec (.bypass code) s = .next (tapTo s 0xff none 0) := by
  have hexec : exec (.bypass code) s = execBypass code s := rfl
  rw [hexec, execBypass, hopen, Bool.not_true, Bool.or_false, if_neg h]

theorem tapTo_eq {x : State} (code dr : Nat) (drive : Option Nat)
    (hx : x = wrF { s with tst := { s.tst with tap := code, drive := drive, dr := dr } } fTST_TAPOWN_OWN (b2n drive.isSome)) :
    tapTo s code drive dr = (if s.tst.drive.isSome = drive.isSome then x else emit0 x 0x6c0012) := by
  simp only [tapTo, ← hx, bne_iff_ne, ne_eq, ite_not]

end

/-- Settles O60: counters and dumps, samples, the capture ring, the pattern tests and the test access port. -/
theorem countersDumpSampleCaptureAndLinksAreTested : Obligations.CountersDumpSampleCaptureAndLinksAreTested := by
  refine ⟨?epoch, ?reset, ?dump, ?memory, ?node, ?sample, ?command, ?trigger, ?record, ?checker, ?inject, fun s x y => exec_testFrameSend, ?port,
    fun s x code dr drive => tapTo_eq code dr drive⟩
  case epoch =>
    intro s x y hruns hdue
    rw [exec_epochSwitch hruns hdue]
    refine ⟨fun hnone hx hy => ?_, fun hsome hlate => ?_⟩
    · rw [hnone, hy, hx]; rfl
    · rw [if_pos hsome, hlate]; rfl
  case reset =>
    intro s k hk
    rw [resetNode_leaf s hk, nodeVal_setNode, nodeFlag_setNode]
    exact ⟨rfl, flagsCleared _⟩
  case dump =>
    intro s x y pos a head body h r hdump hlive ha hh hx hy hr
    exact ⟨exec_dumpComplete_written hdump hlive ha hx hh hy hr, fun hfits b => exec_dumpComplete_refused hdump hlive ha hx hfits,
      exec_dumpComplete_beyond hdump hlive ha hx⟩
  case memory =>
    intro unit kind obj k a last s x y hlive hunit hkind hobj hk ha
    exact ⟨exec_counterEccError_corrected hlive hunit hkind hobj, fun hagg => exec_counterEccError_aggregate hlive hunit hkind hagg hk,
      fun hleaf hlast hx hy => exec_counterEccError_leaf hlive hunit hkind hleaf hk ha hlast hx hy⟩
  case node =>
    intro e v s x n haccept hn
    refine ⟨fun hread => ?_, exec_nodeReset haccept⟩
    obtain ⟨h2, h1, h0, hf⟩ := nodeShown_reads x n (nodeFlag x (selNode x))
    exact ⟨_, exec_nodeRead haccept hread, by rw [hn]; rfl, by rw [← hn, h2], by rw [← hn, h1], by rw [← hn, h0], by rw [← hn, hf]⟩
  case sample =>
    intro e v s x y z a haccept
    exact ⟨exec_sampleAppend_idle haccept, fun hgo hring hruns ha hfits =>
      ⟨fun hallowed hy b hb hz => exec_sampleAppend_written haccept hgo hring hruns ha hfits hallowed hy hb hz,
        fun b => exec_sampleAppend_refused haccept hgo hring hruns ha hfits⟩⟩
  case command =>
    intro e v s x haccept
    refine ⟨fun harm hruns hsize => ?_, exec_captureTrigger haccept, exec_captureStop haccept⟩
    rw [exec_captureArm haccept harm hruns hsize]
    exact ⟨fun hstate => by rw [if_pos hstate], fun hstate => by rw [hstate]; rfl, fun hstate => by rw [hstate]; rfl⟩
  case trigger =>
    intro s
    refine ⟨fun hstate hpost => ?_, fun hstate hpost => ?_, captureTrigger_filling, captureTrigger_ignored, freeze_state s, fun n l => freeze_first,
      exec_captureFrozen⟩
    · rw [captureTrigger_armed hstate, if_pos hpost]
    · rw [captureTrigger_armed hstate, if_neg hpost]
  case record =>
    intro s x y o l b n pos a hoffers hruns hdone hopen hx hb hn hpos ha
    refine ⟨?_, fun hbeyond => ?_, fun hfits z hrefused => ?_, fun hfits hallowed c hc hy => ?_⟩
    · rw [exec_captureRecord hoffers hruns hdone hopen hx hb hn hpos ha, if_pos rfl]
    · rw [exec_captureRecord hoffers hruns hdone hopen hx hb hn hpos ha, if_neg Bool.false_ne_true, if_pos hbeyond]
    · rw [exec_captureRecord hoffers hruns hdone hopen hx hb hn hpos ha, if_neg Bool.false_ne_true, if_neg (Nat.not_lt.mpr hfits), hrefused, Option.elim_some]
    · rw [exec_captureRecord hoffers hruns hdone hopen hx hb hn hpos ha, if_neg Bool.false_ne_true, if_neg (Nat.not_lt.mpr hfits), hallowed, Option.elim_none,
        ← hc, hy, hx]
  case checker =>
    intro j s hlive
    exact ⟨exec_checkerLock hlive, exec_checkerLockLoss hlive, fun bits errors generated n acc x y z => exec_terrResult hlive⟩
  case inject =>
    intro e j v busy s x y kind haccept
    refine ⟨fun hidle => ?_, fun hgo htesting hgen => ⟨fun hbusy hlast => ?_, fun hfree hkind hy => ?_⟩⟩
    · rw [exec_inject busy haccept rfl rfl, if_pos hidle]
    · rw [exec_inject busy haccept rfl rfl, if_neg (by simp [hgo, htesting, hgen]), if_pos ⟨hbusy, hlast⟩]
    · rw [exec_inject busy haccept hkind hy, if_neg (by simp [hgo, htesting, hgen]), if_neg]
      rintro ⟨hbusy, hlast⟩
      rcases hfree with h | ⟨h1, h2⟩
      · exact Bool.false_ne_true (h.symm.trans hbusy)
      · exact hlast.elim h1 h2
  case port =>
    intro cells pins code s
    exact ⟨fun hopen => ⟨if_pos hopen, if_pos hopen, if_pos hopen, if_pos hopen, if_pos hopen, if_pos hopen, if_pos hopen, if_pos hopen,
      exec_bypass hopen code⟩, fun hlock c hc => exec_tap_locked cells pins hlock hc⟩

end Sys2Proof.Machine
end

section
/-! Start-up: the power-on, the rails, the crystal, training, the handover and recovery (R673 to R680), and the statement about them. -/
namespace Sys2Proof.Machine

/-! ## Step 2 -/

/-- What step 2 of start-up leaves of the module's own state and of its engines. -/
theorem romStart_keeps (s : State) : (romStart s).sys.phase = .crystal ∧ (romStart s).sys.crystal = false ∧ (romStart s).sys.kind = s.sys.kind ∧
    (romStart s).sys.feedA = s.sys.feedA ∧ (romStart s).sys.feedB = s.sys.feedB ∧ (romStart s).sys.railAt = s.sys.ticks ∧ (romStart s).engs = s.engs := by
  have hrest := (logWrote_romStart s).rest
  exact ⟨(congrArg (fun t : State => t.sys.phase) hrest :), (congrArg (fun t : State => t.sys.crystal) hrest :),
    (congrArg (fun t : State => t.sys.kind) hrest :), (congrArg (fun t : State => t.sys.feedA) hrest :),
    (congrArg (fun t : State => t.sys.feedB) hrest :), (congrArg (fun t : State => t.sys.railAt) hrest :), (congrArg State.engs hrest :)⟩

theorem sys_of_wordless {a b : State} (h : wordless a = wordless b) : a.sys = b.sys := (congrArg State.sys h :)

/-- A reset is of the kind it was asked for, and a power-on's keeps the tick count. -/
theorem resetModule_sys (s : State) {kind : Nat} (hnot : kind ≠ 3) :
    (resetModule s kind).sys.kind = kind ∧ ((kind == 1) = true → (resetModule s kind).sys.ticks = s.sys.ticks) := by
  unfold resetModule
  extract_lets cold x r t sys time candle host fuse power meas test n n1 n2 n3
  have hx : cold = true → x = s := fun hc => if_pos hc
  have hn3 : n3 = n2 := if_neg hnot
  have hwords : wordless n3 = wordless n := by
    rw [hn3]
    simp only [n2, n1, wordless_wrF]
  have hall : wordless (lcState (logStat n3)) = wordless n := (wordless_lcState _).trans ((wordless_logStat _).trans hwords)
  have hkind : n.sys.kind = kind := rfl
  have hticks : n.sys.ticks = x.sys.ticks := rfl
  have hsys : (lcState (logStat n3)).sys = n.sys := sys_of_wordless hall
  rw [hsys]
  exact ⟨hkind, fun hc => hticks.trans (congrArg (fun t : State => t.sys.ticks) (hx hc))⟩

/-! ## Power and the rails -/

section
variable {a b : Bool} {s x : State} (hphase : s.sys.phase = .off) (hfeed : (a || b) = true) (hx : x = commitJournal (journalAdd (resetModule s 1) 96))
include hphase hfeed hx

theorem exec_powerOn (good : Bool) : exec (.powerOn a b good) s = .next (railsTried { x with sys := { x.sys with feedA := a, feedB := b } } good) := by
  have hexec : exec (.powerOn a b good) s = execPowerOn a b good s := rfl
  rw [hexec, execPowerOn, hphase, hfeed, if_neg (by decide), hx]

omit hphase hfeed in
/-- What the power-on's reset leaves of the module's own state and of its engines. -/
theorem powerReset_keeps : x.sys.kind = 1 ∧ x.sys.ticks = s.sys.ticks ∧ x.engs = [] := by
  obtain ⟨hwiped, -⟩ := wipedOf_resetModule s true
  obtain ⟨hkind, hticks⟩ := resetModule_sys s (kind := 1) (by decide)
  have hengs := hwiped.engs
  have hreset : resetKind true = 1 := rfl
  rw [hreset] at hengs
  have hsys : ∀ r : State, (commitJournal (journalAdd r 96)).sys = r.sys := fun r => rfl
  have hkept : ∀ r : State, (commitJournal (journalAdd r 96)).engs = r.engs := fun r => rfl
  rw [hx, hsys, hkept]
  exact ⟨hkind, hticks rfl, hengs⟩

end

theorem exec_railStartRetry {s : State} (good : Bool) (hphase : s.sys.phase = .rails) (hfeed : (s.sys.feedA || s.sys.feedB) = true)
    (hdue : s.sys.railAt + 62500000 ≤ s.sys.ticks) : exec (.railStartRetry good) s = .next (railsTried s good) := by
  have hexec : exec (.railStartRetry good) s = execRailStartRetry good s := rfl
  have hcond : (s.sys.phase != .rails || !(s.sys.feedA || s.sys.feedB) || decide (s.sys.ticks < s.sys.railAt + 62500000)) = false := by
    rw [hphase, hfeed, decide_eq_false (Nat.not_lt.mpr hdue)]
    rfl
  simp only [hexec, execRailStartRetry, hcond, Bool.false_eq_true, if_false]

/-! ## The crystal -/

section
variable {s : State} (hphase : s.sys.phase = .crystal) (hcrystal : s.sys.crystal = false)
include hphase hcrystal

theorem exec_crystalReady : exec .crystalReady s = .next (driveMate { s with sys := { s.sys with crystal := true, phase := .training } }) := by
  have hexec : exec .crystalReady s = execCrystalReady s := rfl
  simp only [hexec, execCrystalReady, hphase, hcrystal, beq_self_eq_true, if_true]
  rfl

/-- The state after the third attempt without the crystal has been noted. -/
def withoutCrystal (x : State) : State := driveMate (recordOnce { x with sys := { x.sys with phase := .noCrystal, alm1 := true } })

theorem exec_crystalStartTimeout (hdue : s.sys.railAt + 31250000 ≤ s.sys.ticks) {y : State}
    (hy : y = { s with sys := { s.sys with crystalTries := s.sys.crystalTries + 1, railAt := s.sys.ticks } }) : exec .crystalStartTimeout s = .next
    (if s.sys.crystalTries + 1 < 3 then y else withoutCrystal (raiseFault (emit0 y 0x580013) 0x580013 63)) := by
  have hexec : exec .crystalStartTimeout s = execCrystalStartTimeout s := rfl
  have hcond : (s.sys.phase != .crystal || s.sys.crystal || decide (s.sys.ticks < s.sys.railAt + 31250000)) = false := by
    rw [hphase, hcrystal, decide_eq_false (Nat.not_lt.mpr hdue)]
    rfl
  simp only [hexec, execCrystalStartTimeout, hcond, Bool.false_eq_true, if_false, ← hy, withoutCrystal, apply_ite Host.Outcome.next]

end

/-- What the event of a missing candidate, raised once, leaves. -/
theorem recordOnce_keeps (s : State) : (recordOnce s).sys.phase = s.sys.phase ∧ (recordOnce s).sys.alm1 = s.sys.alm1 ∧ (recordOnce s).flt = s.flt ∧
    ∀ v ∈ s.log.raised, v ∈ (recordOnce s).log.raised := by
  rw [recordOnce]
  split
  · exact ⟨rfl, rfl, rfl, fun v hv => hv⟩
  · exact ⟨rfl, rfl, rfl, fun v hv => List.mem_append_left _ hv⟩

theorem emit0_raised (s : State) (code : Nat) : ∃ ev, (emit0 s code).log.raised = s.log.raised ++ [ev] ∧ ev.code = code % 2 ^ 24 := ⟨_, rfl, rfl⟩

theorem withoutCrystal_keeps (x : State) : (withoutCrystal x).sys.phase = .noCrystal ∧ (withoutCrystal x).sys.alm1 = true ∧ (withoutCrystal x).flt = x.flt ∧
    ∀ v ∈ x.log.raised, v ∈ (withoutCrystal x).log.raised := by
  obtain ⟨hphase, halm, hflt, hraised⟩ := recordOnce_keeps { x with sys := { x.sys with phase := .noCrystal, alm1 := true } }
  have hdriven : ∀ s : State, (driveMate s).sys = s.sys ∧ (driveMate s).flt = s.flt ∧ (driveMate s).log = s.log := fun s => ⟨rfl, rfl, rfl⟩
  obtain ⟨hsys, hflt', hlog⟩ := hdriven (recordOnce { x with sys := { x.sys with phase := .noCrystal, alm1 := true } })
  rw [withoutCrystal, hsys, hflt', hlog]
  exact ⟨hphase, halm, hflt, hraised⟩

/-! ## Training and the slots -/

section
variable {s x y : State} (hphase : s.sys.phase = .training) (hlive : live s = true) (hcrystal : s.sys.crystal = true)
  (hready : onF s fKEY_RNGSTAT_READY = true) (hfailed : onF s fKEY_RNGSTAT_FAILED = false)
  (hx : x = (List.range 17).foldl drawMemKeys { s with mpe := { s.mpe with keys := true } })
  (hy : y = (List.range 32).foldl (fun s c => trained (wrF s fMEM_CHSTAT_TRAINOK 1 0 c) c) x)
include hphase hlive hcrystal hready hfailed hx hy

theorem exec_dramTrained : exec .dramTrained s =
    .next (trySlots (slotOrder y) (if (imageSlot y 0).valid && (imageSlot y 1).valid then 0 else 15) y) := by
  have hexec : exec .dramTrained s = execDramTrained s := rfl
  have hcond : (s.sys.phase != .training || !live s || !s.sys.crystal || !onF s fKEY_RNGSTAT_READY || onF s fKEY_RNGSTAT_FAILED) = false := by
    rw [hphase, hlive, hcrystal, hready, hfailed]
    rfl
  simp only [hexec, execDramTrained, hcond, Bool.false_eq_true, if_false, ← hx, ← hy]

end

theorem enterRecovery_keeps (s : State) : (enterRecovery s).sys.phase = .recovery ∧ (enterRecovery s).sys.alm0 = true := ⟨rfl, rfl⟩

theorem acceptImage_phase (s : State) (signer : List Byte) : (acceptImage s signer).sys.phase = .handover := by simp only [acceptImage]

/-- Where the first slot tried meets the conditions, the module goes to the handover with it. -/
theorem trySlots_accepts {s : State} {k : Nat} (l : List Nat) (other : Nat) (h : imageWhy (deviceWrite s 0 (slotImage s k)) (imageSlot s k).bytes (imageSlot s k).signer
    (imageSlot s k).bytes.length = 0) : (trySlots (k :: l) other s).sys.phase = .handover ∧ (trySlots (k :: l) other s).sys.slotUsed = k ∧
    (trySlots (k :: l) other s).sys.fromHost = false := by
  simp only [trySlots, h, if_true, acceptImage_phase, and_self]

/-! ## The handover -/

/-- What the loading of an image leaves: the module's own state and the host's. -/
def unloaded (s : State) : SysSt × HstSt := (s.sys, s.hst)

theorem unloaded_engs (s : State) (g : Tab Engine) : unloaded { s with engs := g } = unloaded s := rfl

theorem unloaded_shared (s : State) (m : Tab Word) : unloaded { s with shared := m } = unloaded s := rfl

theorem unloaded_setShared (s : State) (l a : Nat) (v : Word) : unloaded (setShared s l a v) = unloaded s := by
  rw [setShared, ← unloaded_engs (watchHit _ l a), watchHit_frame, unloaded_shared]

theorem unloaded_setImem (s : State) (e a : Nat) (v : Word) : unloaded (setImem s e a v) = unloaded s := rfl

theorem unloaded_setData (s : State) (e a : Nat) (v : Word) : unloaded (setData s e a v) = unloaded s := rfl

theorem unloaded_extend (s : State) (k : Nat) (h : List Nat) : unloaded (extend s k h) = unloaded s := rfl

theorem unloaded_loadBytes (s : State) (l target emask off : Nat) (bs : List Byte) : unloaded (loadBytes s l target emask off bs) = unloaded s := by
  rw [loadBytes]
  split
  · rw [putShared]
    refine foldl_keeps unloaded (fun t p => ?_) _ s
    exact unloaded_setShared ..
  · refine foldl_keeps unloaded (fun t k => ?_) _ s
    refine foldl_keeps unloaded (fun t p => ?_) _ t
    split
    · exact unloaded_setImem ..
    · exact unloaded_setData ..

theorem unloaded_loadSection (s : State) (x : Section) (l : Nat) : unloaded (loadSection s x l) = unloaded s := by
  simp only [loadSection]
  split
  · rfl
  · rw [unloaded_extend, unloaded_loadBytes]

/-- Loading an image's sections changes engines and memories alone. -/
theorem unloaded_loadImage (s : State) (e0 : Bool) : unloaded (loadImage s e0) = unloaded s := by
  rw [loadImage]
  refine foldl_keeps unloaded (fun t x => ?_) _ s
  refine foldl_keeps unloaded (fun t l => ?_) _ t
  exact unloaded_loadSection ..

/-- The state that hands over to E0 from the loaded state x: with its entry, the slot used, the other slot's failure and the boot message. -/
def handedOver (x : State) (entry used other : Nat) (m : Msg) : State :=
  let y := setEng x 0 { eng x 0 with pc := wd entry, kp := true, st := .running, past := false, conds := 0, box := [⟨m, true, 0⟩] }
  emit2 { y with sys := { y.sys with phase := .running, runState := true } } 0x040020 used other

theorem handedOver_keeps (x : State) (entry used other : Nat) (m : Msg) : (handedOver x entry used other m).sys.phase = .running ∧
    (handedOver x entry used other m).sys.runState = true ∧ (handedOver x entry used other m).imem = x.imem ∧
    (handedOver x entry used other m).data = x.data ∧
    (∃ v, v ∈ (handedOver x entry used other m).log.raised ∧ v.code = 0x040020) ∧
    eng (handedOver x entry used other m) 0 = { eng x 0 with pc := wd entry, kp := true, st := .running, past := false, conds := 0, box := [⟨m, true, 0⟩] } :=
  ⟨rfl, rfl, rfl, rfl, ⟨_, List.mem_append_right _ (List.mem_singleton.mpr rfl), rfl⟩, tget_tset_same ..⟩

/-- The handover of a module whose E0 stands stopped, with what no spec names drawn. -/
theorem exec_bootHandover {s : State} (hphase : s.sys.phase = .handover) (hlive : live s = true) (hstopped : (eng s 0).st = .stopped) :
    ∃ free used other entry, exec .bootHandover s = .next (handedOver { loadImage s true with sys := { (loadImage s true).sys with free := free } }
        entry used ((loadImage s true).sys.imgVersion % 2 ^ 24)
        ⟨0xff, (loadImage s true).sys.kind + 4 * b2n (loadImage s true).sys.fromHost, used, other, (loadImage s true).sys.imgVersion % 2 ^ 24⟩) ∧
      ∀ n, e0Entry (loadImage s true) = some n → entry = n := by
  have hexec : exec .bootHandover s = execBootHandover s := rfl
  have hcond : ¬(s.sys.phase != .handover || !live s || (eng s 0).st != .stopped) = true := by rw [hphase, hlive, hstopped]; decide
  rw [hexec, execBootHandover, if_neg hcond]
  generalize loadImage s true = x
  refine ⟨_, _, _, _, rfl, fun n hn => ?_⟩
  rw [hn]
  rfl

/-! ## Recovery -/

/-- The messages that wait in host postbox 0xF0. -/
abbrev answers (s : State) : List Place := boxOf s 0xf0

theorem answers_of_hst {s t : State} (h : t.hst = s.hst) : answers t = answers s := by
  show tget (fun _ => []) t.hst.boxes (0xf0 - 0xf0) = tget (fun _ => []) s.hst.boxes (0xf0 - 0xf0)
  rw [h]

theorem signal_boxes (s : State) (v : Nat) : (signal s v).hst.boxes = s.hst.boxes := by
  simp only [signal]
  split_ifs <;> rfl

theorem signal_phase (s : State) (v : Nat) : (signal s v).sys.phase = s.sys.phase := by
  simp only [signal]
  split_ifs <;> rfl

theorem answers_setBox (s : State) (l : List Place) : answers (setBox s 0xf0 l) = l := tget_tset_same ..

theorem answers_putPlace (s : State) (p : Place) : answers (putPlace s 0xf0 p) = answers s ++ [p] := by
  have hsignal : ∀ t v, answers (signal t v) = answers t := fun t v =>
    congrArg (fun b => tget (fun _ => []) b (0xf0 - 0xf0)) (signal_boxes t v)
  simp only [putPlace]
  split
  · rw [hsignal, answers_setBox]
  · exact answers_setBox ..

theorem putPlace_phase (s : State) (d : Nat) (p : Place) : (putPlace s d p).sys.phase = s.sys.phase := by
  have hbox : ∀ l, (setBox s d l).sys = s.sys := by
    intro l
    rw [setBox]
    split <;> rfl
  simp only [putPlace]
  split
  · rw [signal_phase, hbox]
  · rw [hbox]

theorem setServed_phase (s : State) (d ix : Nat) : (setServed s d ix).sys.phase = s.sys.phase := by
  rw [setServed]
  split <;> rfl

/-- A message posted to the host leaves the phase of start-up. -/
theorem post_phase (s : State) (d : Nat) (m : Msg) : (post s d m).1.sys.phase = s.sys.phase := by
  rw [post]
  split
  · rfl
  · split
    · exact congrArg SysSt.phase (count_sys ..)
    · rw [setServed_phase, putPlace_phase]

/-- With room in host postbox 0xF0 a message posted there is its last. -/
theorem answers_post {s : State} (m : Msg) (hroom : (answers s).length < 16) : answers (post s 0xf0 m).1 = answers s ++ [⟨m, true, 0⟩] := by
  have hfull : boxFull s 0xf0 = false := by
    rw [boxFull, decide_eq_false (Nat.not_le.mpr hroom)]
    rfl
  have hok : (!boxOk 0xf0) = false := by decide
  rw [post, hok, hfull]
  exact (answers_putPlace s ⟨m, true, 0⟩)

/-- The state whose image from the host has been accepted. -/
def imageAccepted (s : State) (signer : List Byte) : State :=
  let x := setHostWindow (setChain (wrF (acceptImage s signer) fHST_CHCTL_EN 0) 0 chainReset) (winReset 8)
  { x with sys := { x.sys with fromHost := true, alm0 := false } }

theorem unloaded_startSections (s : State) : unloaded (startSections s) = unloaded s := by
  rw [startSections]
  refine foldl_keeps unloaded (fun t x => ?_) _ s
  refine foldl_keeps unloaded (fun t e => ?_) _ t
  split <;> rfl

/-- E0 drained for a handover leaves the host's state. -/
theorem drained_hst (x : State) (g : Engine) (ver : Nat) :
    ({ setEng x 0 g with sys := { (setEng x 0 g).sys with phase := .handover, imgVersion := ver } } : State).hst = x.hst := rfl

theorem sys_of_unloaded {s t : State} (h : unloaded t = unloaded s) : t.sys = s.sys := congrArg Prod.fst h

theorem hst_of_unloaded {s t : State} (h : unloaded t = unloaded s) : t.hst = s.hst := congrArg Prod.snd h

theorem acceptImage_hst (s : State) (signer : List Byte) : (acceptImage s signer).hst = s.hst := by
  have hloaded : unloaded (startSections (loadImage (extend s 0 (sha384 (nums (signer.take 96)))) false)) = unloaded s := by
    rw [unloaded_startSections, unloaded_loadImage, unloaded_extend]
  rw [acceptImage]
  exact (drained_hst ..).trans (hst_of_unloaded hloaded)

theorem imageAccepted_keeps (s : State) (signer : List Byte) : (imageAccepted s signer).sys.phase = .handover ∧
    (imageAccepted s signer).sys.fromHost = true ∧ (imageAccepted s signer).sys.alm0 = false ∧ answers (imageAccepted s signer) = answers s := by
  have hphase := acceptImage_phase s signer
  have hhst := acceptImage_hst s signer
  rw [imageAccepted]
  generalize acceptImage s signer = x at hphase hhst
  exact ⟨hphase, rfl, rfl, answers_of_hst (t := x) hhst⟩

/-- The state that answers an image of the host, where it is not accepted with an event first. -/
def imageRefused (x : State) (why : Nat) : State := if why = 0 then x else emit (takeFree x).2 0x440014 (takeFree x).1 why (takeFree (takeFree x).2).1

theorem imageRefused_keeps (x : State) (why : Nat) : (imageRefused x why).hst = x.hst ∧ (imageRefused x why).sys.phase = x.sys.phase := by
  rw [imageRefused]
  split <;> exact ⟨rfl, rfl⟩

theorem exec_recoveryImageCheck {signer : List Byte} {s x : State} {p : Place} {l : List Place} {b : List Byte} {why : Nat} (hphase : s.sys.phase = .recovery)
    (hlive : live s = true) (hfirst : takeFirst (fun (p : Place) => p.ready && decide (0xf0 ≤ p.msg.sender ∧ p.msg.sender < 0xf8)) (boxOf s 0) = some (p, l))
    (hx : x = setBox s 0 l) (hb : b = dramRead x 0 (min (64 * p.msg.w1) 33554432)) (hwhy : why = imageWhy x b signer (min (64 * p.msg.w1) 33554432)) :
    ∃ y w1 w2 w3, y.hst = s.hst ∧ y.sys.phase = .recovery ∧ exec (.recoveryImageCheck signer) s = .next
      (if why = 0 then imageAccepted (post y 0xf0 ⟨0xff, why, w1, w2, w3⟩).1 signer else (post y 0xf0 ⟨0xff, why, w1, w2, w3⟩).1) := by
  have hexec : exec (.recoveryImageCheck signer) s = execRecoveryImageCheck signer s := rfl
  have hcond : (s.sys.phase != .recovery || !live s) = false := by rw [hphase, hlive]; rfl
  have htaken : x.hst = s.hst ∧ x.sys = s.sys := by rw [hx]; exact ⟨rfl, rfl⟩
  obtain ⟨hhst, hsys⟩ := htaken
  obtain ⟨hhst', hphase'⟩ := imageRefused_keeps x why
  refine ⟨(takeFree (takeFree (takeFree (imageRefused x why)).2).2).2, (takeFree (imageRefused x why)).1, (takeFree (takeFree (imageRefused x why)).2).1,
    (takeFree (takeFree (takeFree (imageRefused x why)).2).2).1, hhst'.trans hhst, hphase'.trans ?_, ?_⟩
  · rw [hsys, hphase]
  · simp only [hexec, execRecoveryImageCheck, hcond, Bool.false_eq_true, if_false, hfirst, ← hx, ← hb, ← hwhy, imageRefused, imageAccepted, ne_eq, ite_not,
      apply_ite Host.Outcome.next]

/-- The broadcast of a module in recovery or without its crystal, padded and with its FCS. -/
def broadcastSent (s : State) : List Byte :=
  let b := broadcastFrame s ++ List.replicate (60 - (broadcastFrame s).length) 0
  b ++ fcsOf b

theorem length_broadcastFrame (s : State) : (broadcastFrame s).length = 24 := by simp [broadcastFrame]

theorem length_broadcastSent (s : State) : (broadcastSent s).length = 64 := by
  simp only [broadcastSent, List.length_append, length_broadcastFrame, List.length_replicate, fcsOf, List.length_cons, List.length_nil]

theorem etherType_broadcastSent (s : State) : ((broadcastSent s).drop 12).take 2 = [0x88, 0xb6] := by
  have hsplit : ∃ b, broadcastSent s = (List.replicate 6 0xff ++ 0x02 :: ((List.range 6).map Config.factoryByte).drop 1) ++ ([0x88, 0xb6] ++ b) := by
    refine ⟨(List.range 6).map Config.factoryByte ++ (([0x44, 0x00, 0x15] : List Byte) ++ ([by8 (rdW s (fAddr fKEY_LCSTATE_STATE 0 0)).toNat] ++
      (List.replicate (60 - (broadcastFrame s).length) (0 : Byte) ++ fcsOf (broadcastFrame s ++ List.replicate (60 - (broadcastFrame s).length) 0)))), ?_⟩
    rw [broadcastSent]
    generalize List.replicate (60 - (broadcastFrame s).length) (0 : Byte) = pad
    generalize fcsOf (broadcastFrame s ++ pad) = fcs
    simp only [broadcastFrame, List.append_assoc]
  obtain ⟨b, h⟩ := hsplit
  rw [h, List.drop_left' (by simp)]
  rfl

theorem exec_recoveryBroadcast {s : State} (hphase : s.sys.phase = .recovery ∨ s.sys.phase = .noCrystal) (hlive : live s = true)
    (hclock : (s.sys.crystal || onF s fCNDL_CSTAT_OSC) = true) : exec .recoveryBroadcast s = .next
    { count (count s 9 (kSbusFrames false) 0) 9 (kSbusBytes false) 0 (broadcastSent s).length with sbus := { s.sbus with sent := broadcastSent s } } := by
  have hexec : exec .recoveryBroadcast s = execRecoveryBroadcast s := rfl
  have hcond : (!(s.sys.phase == .recovery || s.sys.phase == .noCrystal) || !live s || !(s.sys.crystal || onF s fCNDL_CSTAT_OSC)) = false := by
    rw [hlive, hclock]
    rcases hphase with h | h <;> rw [h] <;> rfl
  rw [hexec, execRecoveryBroadcast, if_neg (ne_true_of_eq_false hcond)]
  rfl

/-! ## The statement -/

/-- A tried rail that is good ends in step 2, one that is not waits for the next try. -/
theorem railsTried_eq (s : State) (good : Bool) : railsTried s good = if good then romStart { s with cndl := { s.cndl with onAt := s.sys.ticks } }
    else { s with sys := { s.sys with phase := .rails, railAt := s.sys.ticks } } := by
  cases good <;> rfl

theorem running_of_no_engines {s : State} (h : s.engs = []) : (eng s 0).st = .running := by
  show (tget engReset s.engs 0).st = .running
  rw [h]
  rfl

/-- Where the image is accepted, E0's answer stands in host postbox 0xF0 and the module is at the handover; where not, it stays in recovery. -/
theorem recoveryAnswer_keeps {s y : State} {m : Msg} (why : Nat) (signer : List Byte) (hhst : y.hst = s.hst) (hphase : y.sys.phase = .recovery) {t : State}
    (ht : t = if why = 0 then imageAccepted (post y 0xf0 m).1 signer else (post y 0xf0 m).1) :
    ((answers s).length < 16 → answers t = answers s ++ [⟨m, true, 0⟩]) ∧
      (why = 0 → t.sys.phase = .handover ∧ t.sys.fromHost = true ∧ t.sys.alm0 = false) ∧ (why ≠ 0 → t.sys.phase = .recovery) := by
  obtain ⟨hhandover, hfrom, halm, hanswers⟩ := imageAccepted_keeps (post y 0xf0 m).1 signer
  have hboxes : answers y = answers s := answers_of_hst hhst
  have hkept : answers t = answers (post y 0xf0 m).1 := by
    rw [ht]
    split
    · exact hanswers
    · rfl
  refine ⟨fun hroom => ?_, fun hzero => ?_, fun hnot => ?_⟩
  · rw [hkept, answers_post m (hboxes ▸ hroom), hboxes]
  · rw [ht, if_pos hzero]
    exact ⟨hhandover, hfrom, halm⟩
  · rw [ht, if_neg hnot, post_phase, hphase]

/-- Settles O29: each of start-up's commands takes its phase to the next one, with what the phases it passes leave as they were. -/
theorem startUpRunsItsSteps : Obligations.StartUpRunsItsSteps := by
  unfold Obligations.StartUpRunsItsSteps
  refine ⟨?powerOn, ?rails, ?crystal, ?training, ?handover, ?recovery, ?broadcast⟩
  case powerOn =>
    intro a b s x hphase hfeed hx
    obtain ⟨hkind, hticks, hengs⟩ := powerReset_keeps hx
    have hrun := exec_powerOn hphase hfeed hx
    refine ⟨(hrun false).trans (congrArg _ (railsTried_eq ..)), _, (hrun true).trans (congrArg _ (railsTried_eq ..)), rfl, ?_⟩
    obtain ⟨hcrystal, hstopped, hsame, ha, hb, hat, hkept⟩ := romStart_keeps
      { x with sys := { x.sys with feedA := a, feedB := b }, cndl := { x.cndl with onAt := x.sys.ticks } }
    exact ⟨hcrystal, hstopped, hsame.trans hkind, ha, hb, hat.trans hticks, running_of_no_engines (hkept.trans hengs)⟩
  case rails =>
    intro s hphase hfeed hdue
    have hrun := fun good => exec_railStartRetry (s := s) good hphase hfeed hdue
    obtain ⟨hcrystal, hstopped, -, -, -, hat, hkept⟩ := romStart_keeps { s with cndl := { s.cndl with onAt := s.sys.ticks } }
    exact ⟨(hrun false).trans (congrArg _ (railsTried_eq ..)), _, (hrun true).trans (congrArg _ (railsTried_eq ..)), rfl,
      hcrystal, hstopped, hat, hkept⟩
  case crystal =>
    intro s hphase hcrystal
    refine ⟨⟨_, exec_crystalReady hphase hcrystal, rfl, rfl, rfl⟩, fun hdue htries => ?_, fun hdue htries x hx => ?_⟩
    · rw [exec_crystalStartTimeout hphase hcrystal hdue rfl, if_pos (by omega)]
    · have hrun := exec_crystalStartTimeout hphase hcrystal hdue rfl
      rw [htries, if_neg (by decide), ← hx] at hrun
      obtain ⟨hnone, halm, hflt, hraised⟩ := withoutCrystal_keeps x
      refine ⟨_, hrun, rfl, hnone, halm, ?_, ?_⟩
      · obtain ⟨ev, hev, hcode⟩ := emit0_raised { s with sys := { s.sys with crystalTries := 3, railAt := s.sys.ticks } } 0x580013
        refine ⟨ev, hraised ev ?_, hcode⟩
        rw [hx]
        exact hev ▸ List.mem_append_right _ (List.mem_singleton.mpr rfl)
      · rw [hflt, hx]
        exact ⟨_, List.mem_append_right _ (List.mem_singleton.mpr rfl), rfl⟩
  case training =>
    intro s x y hphase hlive hcrystal hready hfailed hx hy
    have hrun := exec_dramTrained hphase hlive hcrystal hready hfailed hx hy
    refine ⟨hrun, fun hempty => ?_, fun k l horder hwhy => ?_⟩
    · rw [hempty] at hrun
      exact ⟨_, hrun, rfl, enterRecovery_keeps y⟩
    · rw [horder] at hrun
      exact ⟨_, hrun, trySlots_accepts l _ hwhy⟩
  case handover =>
    intro s hphase hlive hstopped
    obtain ⟨free, used, other, entry, hrun, hentry⟩ := exec_bootHandover hphase hlive hstopped
    have hkind : (loadImage s true).sys = s.sys := sys_of_unloaded (unloaded_loadImage s true)
    rw [hkind] at hrun
    generalize loadImage s true = x at hrun hentry ⊢
    generalize hm : (⟨0xff, s.sys.kind + 4 * b2n s.sys.fromHost, used, other, s.sys.imgVersion % 2 ^ 24⟩ : Msg) = m at hrun
    obtain ⟨hrunning, hstate, himem, hdata, hevent, heng⟩ := handedOver_keeps
      { x with sys := { s.sys with free := free } } entry used (s.sys.imgVersion % 2 ^ 24) m
    refine ⟨_, hrun, hrunning, hstate, ?_, ?_, himem, hdata, ?_, hevent, m, ?_, ?_, ?_⟩
    · rw [heng]
    · rw [heng]
    · intro n hn
      rw [heng, hentry n hn]
    · rw [heng]
    · rw [← hm]
    · rw [← hm]
      exact Nat.add_mul_mod_self_left ..
  case recovery =>
    intro signer s x p l b why hphase hlive hfirst hx hb hwhy
    obtain ⟨y, w1, w2, w3, hhst, hstays, hrun⟩ := exec_recoveryImageCheck hphase hlive hfirst hx hb hwhy
    obtain ⟨hanswer, haccepted, hrefused⟩ := recoveryAnswer_keeps (m := ⟨0xff, why, w1, w2, w3⟩) why signer hhst hstays rfl
    refine ⟨_, hrun, fun hroom => ⟨⟨⟨0xff, why, w1, w2, w3⟩, true, 0⟩, ?_, rfl, rfl, rfl⟩, haccepted, hrefused⟩
    rw [show boxOf _ 0xf0 = _ from hanswer hroom]
    exact List.mem_append_right _ (List.mem_singleton.mpr rfl)
  case broadcast =>
    intro s hphase hlive hclock
    refine ⟨_, exec_recoveryBroadcast hphase hlive hclock, length_broadcastSent s, etherType_broadcastSent s, ?_⟩
    rw [count_eq, count_eq]

end Sys2Proof.Machine
end

section
/-! The event of a feed's loss or return (R89), and the refutation of the statement about the feeds and the crystal. -/
namespace Sys2Proof.Machine

/-- A feed's event uses up five free values: its unit, its code and the three parameters that no spec names. -/
theorem feedEvent_free (s : State) : (feedEvent s).sys.free = s.sys.free + 5 := rfl

/-- Refutes O30: its third clause has a feed's event leave the state as it was but for the log and the free values used up, and then compares the
state that has used them up with the one before. From the reset state the event leaves the count of free values at 7 and not at 2. -/
theorem not_feedsAndCrystalComeAndGo : ¬ Obligations.FeedsAndCrystalComeAndGo := by
  unfold Obligations.FeedsAndCrystalComeAndGo
  rintro ⟨-, -, hevent, -⟩
  obtain ⟨hframe, -⟩ := hevent State.reset
  have hfree : (feedEvent State.reset).sys.free = State.reset.sys.free := (congrArg (fun t : State => t.sys.free) hframe :)
  rw [feedEvent_free] at hfree
  omega

end Sys2Proof.Machine
end
